-- ==== Sys2Proof/Word.lean ====
section
/-! DEFINITION. The words of the device: bytes, and the tick in which the model counts the device's own cell time. -/

namespace Sys2Proof

/-- One byte of a command, a record or a register area. -/
abbrev Byte := BitVec 8

/-- One fine cell is 256 ticks: a tick is 1/256 cell, 7.8125 ps (R12). -/
def ticksPerCell : Nat := 256

/-- One second of the device's time scale is exactly 500 000 000 fine cells (01 section 1.3, R278). -/
def cellsPerSecond : Nat := 500000000

/-- One second in ticks. -/
def ticksPerSecond : Nat := 128000000000

/-- One millisecond in ticks (500 000 cells). -/
def ticksPerMs : Nat := 128000000

/-- One microsecond in ticks (500 cells). -/
def ticksPerUs : Nat := 128000

/-- One nanosecond in ticks (half a cell). -/
def ticksPerNs : Nat := 128

end Sys2Proof
end

