-- ==== Sys2Proof/Syntax.lean ====
section
/-! DEFINITION. The commands of the block: one constructor of `Instr` for each row of the table of operations and events.
Every command carries first the instant `t` at which it happens, in ticks of 1/256 cell of the device's own cell time,
then what its row's text leaves to the outside: a host command's header and payload bytes, a pin's level, a code a
converter took, a message received. -/

namespace Sys2Proof

/-- What a command's execution takes from parts of the device the specification does not compute: the outcome of a
signature check, random bytes of the key engine, whether a fuse or NOR program verified (R485, R484, R493, R486). -/
structure Facts where
  sigOk : Bool
  progOk : Bool
  random : List Byte
  keyBytes : List Byte
deriving DecidableEq, Repr, Inhabited

/-- A host command as it stands in a mailbox: the header of Table 15.2 and the payload bytes (R455). `eth` holds the
Ethernet port, the session of the frame and the sender's UDP port when the command came in a frame, none on PCIe. -/
structure Cmd where
  mb : Nat
  eth : Option (Nat × Nat)
  flags : Nat
  seq : Nat
  len : Nat
  applyAt : BitVec 96
  authRef : Nat
  reserved : Nat
  payload : List Byte
  facts : Facts
deriving DecidableEq, Repr, Inhabited

/-- What a finished sheet takes from outside the arithmetic: the launch instant in ticks that names it, and the point-state
entries (point, tone) whose words the cell memory delivered uncorrectable (R162). -/
structure SheetInput where
  launch : Nat
  badEntries : List (Nat × Nat)
deriving DecidableEq, Repr, Inhabited

/-- How the job of a system kernel ran, which the rules it carries out leave to the tile (R232 to R234): the PC, the cycle count, the DONE code,
whether a store had been executed, and BMST. -/
structure TileFacts where
  pc : Nat
  cycles : Nat
  code : Nat
  committed : Bool
  bmst : Nat
deriving DecidableEq, Repr, Inhabited

/-- Where a ready job starts (R210), and what a host kernel's timing leaves to the tile: the cycles its initial data take, and for each BMOV in order the
cycles from its issue to its end (R229). -/
structure TileStart where
  tile : Nat
  setup : Nat
  delays : List Nat
deriving DecidableEq, Repr, Inhabited

/-- What a lane finds where the output space ends (R371, R378, R381): the bytes left, the first difference that a verification of the cut bale finds, and
whether the unquantised bale made in its place fails too. -/
structure BaleCut where
  room : Nat
  firstDiff : Option Nat
  rawFails : Bool
deriving DecidableEq, Repr, Inhabited

/-- A per-bank refresh (R407): its bank, and the rate multiplier last read from the DRAM's mode register. -/
structure RefreshCycle where
  bank : Nat
  rate : Nat
deriving DecidableEq, Repr, Inhabited

/-- What training found (R390, R409): the channels that failed, and the channels whose DRAM is not the one that the cached settings were trained on. -/
structure Training where
  failed : List Nat
  changed : List Nat
deriving DecidableEq, Repr, Inhabited

/-- What the calender's firmware estimates from one gathered block (Table 4.1), in the units of `cal.read`: the offsets, gains and timings of the
four sub-converters, the skew against the converter in parallel, and the pair's coefficients. The specification names the property each
estimate relies on and no estimator, so they come with the block. -/
structure CalBlock where
  offs : List Int
  gains : List Int
  taus : List Int
  tauK : Int
  pairEps : Int
  pairTheta : Int
  pairDelta : Int
deriving DecidableEq, Repr, Inhabited

/-- A trail frame as received: its bytes from TYPE to the CRC (Table 9.5). -/
structure TrailRx where
  port : Nat
  bytes : List Byte
deriving DecidableEq, Repr, Inhabited

/-- The data set an Announce carries, its interval as a power of two seconds, and its PTP timescale flag (R289). -/
structure PtpAnnounce where
  priority1 : Nat
  clockClass : Nat
  accuracy : Nat
  variance : Nat
  priority2 : Nat
  grandmaster : Nat
  stepsRemoved : Nat
  logInterval : Int
  timescale : Bool
deriving DecidableEq, Repr, Inhabited

/-- The content of a received IEEE 1588 message (R289): a Sync's or Follow_Up's origin time and a Delay_Resp's receive time in seconds and nanoseconds,
each with its correction in 2^-16 ns; `toUs` says that a Delay_Resp names this device's port. -/
inductive PtpKind where
  | announce (a : PtpAnnounce)
  | sync (seq : Nat) (twoStep : Bool) (second nanos : Nat) (correction : Int)
  | followUp (seq second nanos : Nat) (correction : Int)
  | delayResp (seq : Nat) (toUs : Bool) (second nanos : Nat) (correction : Int)
  | other
deriving DecidableEq, Repr, Inhabited

/-- A received IEEE 1588 message (R289): the Ethernet port it came in at, its domain and transport, its sender's port identity, and its content. -/
structure PtpMsg where
  port : Nat
  domain : Nat
  transport : Nat
  sender : Nat
  kind : PtpKind
deriving DecidableEq, Repr, Inhabited

/-- The source of one zone evaluation (R347, R352): the decided slow-sheet row of a line, a thermal trace of a line, or
a hit of a condition 16 to 31. -/
inductive ZoneSource where
  | row (line : Nat)
  | trace (line : Nat)
  | hit (cond : Nat)
deriving DecidableEq, Repr, Inhabited

/-- What a JTAG instruction asks (Table 16.9, R503). -/
inductive JtagOp where
  | bypass | idcode | sample | haltCpc | stepCpc | resumeCpc | scan | bist | extest | vendorPrivate
deriving DecidableEq, Repr, Inhabited

/-- The outcome of one self-test segment (R519 to R521): the cycle count reached, whether END was written, whether the
conditions held throughout, whether the retained regions were restored whole, the units found suspect (kind, index) and the
failing macro rows (macro, row). -/
structure SegmentOutcome where
  segment : Nat
  cycles : Nat
  ended : Bool
  conditions : Bool
  restored : Bool
  suspects : List (Nat × Nat)
  fails : List (Nat × Nat)
  atBoot : Bool
deriving DecidableEq, Repr, Inhabited

/-- What the MSS finds at release from reset (R390, R488, R516): which firmware slots verify, and the start-up cause. -/
structure BootFacts where
  slotAOk : Bool
  slotBOk : Bool
deriving DecidableEq, Repr, Inhabited

/-- One reference-sensor conversion as the modulator ran it (R331, R332): the bits of the forward and, for a pair, of
the reversed conversion, and the checks of R334. -/
structure RefConversion where
  channel : Nat
  plus : List Bool
  minus : List Bool
  cmMv : Nat
  compliance : Bool
  clamp : Bool
deriving DecidableEq, Repr, Inhabited

inductive Instr where
  -- mailboxes, registers and host accesses
  | mbDoorbell (t n : Nat) (fetched : List Byte) (facts : Facts)
  | heldDoorbellRuns (t n : Nat) (fetched : List Byte) (facts : Facts)
  | mbDoneClear (t n : Nat)
  | ethMailboxFrame (t port : Nat) (frame : List Byte) (tagOk : Bool) (plain : List Byte) (facts : Facts)
  | contextDoorbell (t ctx : Nat) (value : BitVec 32)
  | winBaseWrite (t : Nat) (value : BitVec 64)
  | bar2WindowRead (t offset length : Nat)
  | bar2WindowWrite (t offset : Nat) (data : List Byte)
  | debugWindowAccess (t offset : Nat) (write : Bool) (data : List Byte)
  | registerWrite (t offset : Nat) (data : List Byte)
  | zspTransaction (t zone edges : Nat)
  | smbLtuneWrite (t reg : Nat) (code : BitVec 16)
  | smbAlertResponse (t : Nat)
  -- sys
  | sysIdentify (t : Nat) (c : Cmd)
  | sysSnapshot (t : Nat) (c : Cmd)
  | snapshotCommitted (t : Nat) (ok : Bool)
  | sysRestore (t : Nat) (c : Cmd)
  | sysShutdown (t : Nat) (c : Cmd)
  | shutdownComplete (t : Nat)
  | sysReset (t : Nat) (c : Cmd)
  | resetBegins (t : Nat)
  | sysTimeRead (t : Nat) (c : Cmd)
  | sysTimeSet (t : Nat) (c : Cmd)
  | sysTimeSetBoundary (t : Nat)
  | sysStatus (t : Nat) (c : Cmd)
  | sysEvents (t : Nat) (c : Cmd)
  -- plans and probes
  | planDefine (t : Nat) (c : Cmd)
  | planApply (t : Nat) (c : Cmd)
  | planTakesEffect (t line : Nat)
  | probeChange (t line : Nat)
  | planTimeline (t : Nat) (c : Cmd)
  | probeConfig (t : Nat) (c : Cmd)
  | probeIdleCodeChange (t probe : Nat)
  | probeLoad (t : Nat) (c : Cmd)
  | planGateLimit (t : Nat) (c : Cmd)
  | gateLimitTakesEffect (t gate : Nat)
  | planSpot (t : Nat) (c : Cmd)
  | spotLaunch (t line : Nat)
  | planStatus (t : Nat) (c : Cmd)
  | gridLaunch (t line : Nat)
  | dutyTruncated (t line : Nat)
  | emitPermitFall (t : Nat)
  | emitPermitRise (t : Nat)
  | emitQualified (t : Nat)
  -- receivers
  | laneWordRelease (t quad role : Nat) (vdiffNv : Int)
  | monitorBlockEnd (t quad : Nat) (meansMv : List Nat)
  | quadWake (t quad : Nat)
  | quadPowerDown (t quad : Nat)
  | rxConfig (t : Nat) (c : Cmd)
  | rxConfigTakesEffect (t quad : Nat)
  | rxRefConfig (t : Nat) (c : Cmd)
  | rxHold (t : Nat) (c : Cmd)
  | rxStatus (t : Nat) (c : Cmd)
  -- calender
  | calBlockGathered (t quad converter : Nat) (b : CalBlock)
  | handover (t quad : Nat)
  | overlapEnd (t quad : Nat)
  | rotationMoveReady (t quad : Nat)
  | calStale (t quad input : Nat)
  | calConfig (t : Nat) (c : Cmd)
  | calStatus (t : Nat) (c : Cmd)
  | calRead (t : Nat) (c : Cmd)
  -- line engines
  | sheetComplete (t line : Nat) (input : SheetInput)
  | lineSpared (t line : Nat) (unreliable : Bool)
  | lineUnspared (t line : Nat)
  | lineConfig (t : Nat) (c : Cmd)
  | lineConfigTakesEffect (t line : Nat)
  | lineStart (t : Nat) (c : Cmd)
  | lineStarted (t line : Nat)
  | lineStop (t : Nat) (c : Cmd)
  | lineStopBoundary (t line : Nat)
  | lineStopped (t line : Nat)
  | lineStatus (t : Nat) (c : Cmd)
  | lineReadState (t : Nat) (c : Cmd)
  -- felt and slow time
  | feltQuireBegin (t line : Nat)
  | quireComplete (t line : Nat)
  | slowQuireReleased (t line : Nat)
  | slowOverrun (t line : Nat)
  | feltResize (t : Nat) (c : Cmd)
  | feltResizeTakesEffect (t line : Nat)
  | feltReaderOpen (t : Nat) (c : Cmd)
  | feltReaderMove (t : Nat) (c : Cmd)
  | feltReaderClose (t : Nat) (c : Cmd)
  | feltStatus (t : Nat) (c : Cmd)
  | slowConfig (t : Nat) (c : Cmd)
  | slowConfigTakesEffect (t line : Nat)
  | slowStart (t : Nat) (c : Cmd)
  | slowStop (t : Nat) (c : Cmd)
  | slowStopped (t line : Nat)
  | slowStatus (t : Nat) (c : Cmd)
  -- tiles
  | jobDispatch (t : Nat) (start : TileStart)
  | jobDone (t tile : Nat) (f : TileFacts)
  | tileAbort (t tile cause : Nat) (f : TileFacts)
  | tileSpared (t tile : Nat) (f : TileFacts)
  | tileKernelLoad (t : Nat) (c : Cmd)
  | tileKernelUnload (t : Nat) (c : Cmd)
  | tileRun (t : Nat) (c : Cmd)
  | tileStatus (t : Nat) (c : Cmd)
  -- triggers and captures
  | pointHitsDecided (t line : Nat)
  | trigInEdge (t input : Nat) (rising : Bool) (heldNs : Nat)
  | bcastRx (t : Nat) (rx : TrailRx)
  | trigOutAssert (t out : Nat)
  | trigOutWidthEnd (t out : Nat)
  | captureFormed (t line : Nat)
  | captureRowCopy (t record : Nat)
  | rawTrigger (t set cond : Nat)
  | rawSegmentClose (t set : Nat)
  | rawRearm (t set : Nat)
  | rawCopyOut (t set : Nat)
  | trigDefine (t : Nat) (c : Cmd)
  | trigArm (t : Nat) (c : Cmd)
  | trigDisarm (t : Nat) (c : Cmd)
  | trigArmTakesEffect (t cond : Nat)
  | trigRebase (t : Nat) (c : Cmd)
  | trigRebaseTakesEffect (t cond : Nat)
  | trigOut (t : Nat) (c : Cmd)
  | trigStatus (t : Nat) (c : Cmd)
  | capConfig (t : Nat) (c : Cmd)
  | capRawArm (t : Nat) (c : Cmd)
  | capRawStop (t : Nat) (c : Cmd)
  | capRawDone (t set : Nat)
  | capForce (t : Nat) (c : Cmd)
  | capList (t : Nat) (c : Cmd)
  | capRelease (t : Nat) (c : Cmd)
  | capStatus (t : Nat) (c : Cmd)
  -- time base, TIUs and trail link
  | ppsInEdge (t : Nat) (rising : Bool)
  | ppsLost (t : Nat)
  | ptpMessageRx (t : Nat) (msg : PtpMsg)
  | ptpSyncTimeout (t : Nat)
  | servoRun (t : Nat)
  | tbStep (t : Nat)
  | timeSet (t : Nat)
  | holdoverEnd (t : Nat)
  | refclkLost (t : Nat)
  | refclkRestored (t : Nat)
  | thermosWarm (t : Nat)
  | thermosNotWarm (t : Nat)
  | ppsOutPulse (t : Nat)
  | tiuSelfCheck (t unit measured : Nat) (loopLocked : Bool)
  | tiuSpared (t unit : Nat)
  | tiuResult (t unit start stop : Nat)
  | tiuTimeout (t unit : Nat)
  | tbConfig (t : Nat) (c : Cmd)
  | tbConfigTakesEffect (t : Nat)
  | tbStatus (t : Nat) (c : Cmd)
  | tiuMeasure (t : Nat) (c : Cmd)
  | tiuArmed (t : Nat)
  | tiuLaunchZero (t : Nat) (c : Cmd)
  | launchZeroDone (t line : Nat)
  | tiuStatus (t : Nat) (c : Cmd)
  | trailConfig (t : Nat) (c : Cmd)
  | trailConfigTakesEffect (t : Nat)
  | trailStatus (t : Nat) (c : Cmd)
  | syncTx (t : Nat)
  | syncRx (t : Nat) (rx : TrailRx)
  | topoTx (t : Nat)
  | topoRx (t : Nat) (rx : TrailRx)
  | delayReqTx (t : Nat)
  | delayReqRx (t : Nat) (rx : TrailRx)
  | delayRespRx (t : Nat) (rx : TrailRx)
  | bcastOriginate (t cond : Nat)
  | trailSourceLost (t : Nat)
  -- temperature
  | thermalSheetTaken (t line : Nat) (asCodes stCodes : List Int) (background : Bool)
  | thermalIntervalClose (t line : Nat)
  | thermalSwitch (t slice : Nat) (refError : Bool)
  | thermalSwitchSettled (t slice : Nat)
  | thermSpared (t slice : Nat)
  | thermConfig (t : Nat) (c : Cmd)
  | thermConfigTakesEffect (t line : Nat)
  | thermRoute (t : Nat) (c : Cmd)
  | thermStatus (t : Nat) (c : Cmd)
  | refScanStart (t : Nat) (refError : Bool)
  | refConversionDone (t : Nat) (conv : RefConversion)
  | refLead (t channel check cmMv : Nat)
  | refConfig (t : Nat) (c : Cmd)
  | refScan (t : Nat) (c : Cmd)
  | refUrgent (t : Nat) (c : Cmd)
  | refStatus (t : Nat) (c : Cmd)
  -- zones and panel
  | zoneEvaluation (t zone : Nat) (src : ZoneSource)
  | zoneHoldEnd (t zone rule : Nat)
  | zoneFaultTimer (t zone : Nat)
  | vrefZMeasure (t mv : Nat)
  | zoneDefine (t : Nat) (c : Cmd)
  | zoneAck (t : Nat) (c : Cmd)
  | zoneStatus (t : Nat) (c : Cmd)
  | panelPins (t : Nat) (c : Cmd)
  | panelZout (t : Nat) (c : Cmd)
  | panelStatus (t : Nat) (c : Cmd)
  -- compression
  | baleRelease (t lane : Nat) (stream : Bool) (ix : Nat) (firstDiff : Option Nat) (rawFails : Bool)
  | baleNoSpace (t lane : Nat) (stream : Bool) (ix : Nat) (cut : BaleCut)
  | baleProfile (t : Nat) (c : Cmd)
  | baleRunEncode (t : Nat) (c : Cmd)
  | baleRunDecode (t : Nat) (c : Cmd)
  | baleJobDone (t job : Nat)
  | baleResume (t : Nat) (c : Cmd)
  | baleCancel (t : Nat) (c : Cmd)
  | baleStatus (t : Nat) (c : Cmd)
  -- DRAM
  | dramReadDecode (t port addr : Nat) (errors : List (Nat × BitVec 8))
  | rowRemap (t channel rank sub bank row : Nat)
  | rowTestDone (t channel spare : Nat) (pass : Bool)
  | scrub (t channel : Nat) (errors : List (Nat × BitVec 8))
  | refresh (t channel : Nat) (cycle : RefreshCycle)
  | wckDriftCheck (t channel driftMilliUi : Nat) (updateOk : Bool)
  | selfRefreshEntry (t channel : Nat)
  | selfRefreshExit (t channel : Nat)
  | requestLate (t port channel latencyNs : Nat)
  | channelLost (t channel cause : Nat)
  | memConfig (t : Nat) (c : Cmd)
  | memStatus (t : Nat) (c : Cmd)
  | memRemaps (t : Nat) (c : Cmd)
  -- DMA, streams and links
  | descriptorComplete (t ctx : Nat) (desc data : List Byte)
  | dmaHalted (t ctx cause failAddr : Nat) (dirWrite devSpace : Bool)
  | msixMessage (t vector : Nat)
  | streamRecordClose (t stream : Nat)
  | bufferFlush (t ctx : Nat) (desc : List Byte)
  | streamOverrun (t stream : Nat)
  | pcieLinkReset (t cause : Nat)
  | ethLinkChange (t port : Nat) (up : Bool)
  | arpRequest (t port : Nat) (ip : BitVec 32)
  | dmaConfig (t : Nat) (c : Cmd)
  | dmaResume (t : Nat) (c : Cmd)
  | dmaAbort (t : Nat) (c : Cmd)
  | dmaLink (t : Nat) (c : Cmd)
  | dmaPort (t : Nat) (c : Cmd)
  | streamDefine (t : Nat) (c : Cmd)
  | streamAttach (t : Nat) (c : Cmd)
  | streamDetach (t : Nat) (c : Cmd)
  | streamDetached (t stream : Nat)
  | dmaStatus (t : Nat) (c : Cmd)
  | eventRelease (t : Nat)
  | heartbeatTick (t : Nat)
  -- security, debug and power
  | secChallenge (t : Nat) (c : Cmd)
  | nonceExpiry (t : Nat)
  | secEnroll (t : Nat) (c : Cmd)
  | secServiceEnter (t : Nat) (c : Cmd)
  | secServiceLeave (t : Nat) (c : Cmd)
  | serviceExpiry (t : Nat)
  | secScrap (t : Nat) (c : Cmd)
  | secFwLoad (t : Nat) (c : Cmd)
  | fwEraseDone (t : Nat)
  | secFwActivate (t : Nat) (c : Cmd)
  | secFwCommit (t : Nat) (c : Cmd)
  | trialBootTimeout (t : Nat)
  | secSessionOpen (t : Nat) (c : Cmd)
  | secSessionClose (t : Nat) (c : Cmd)
  | sessionExpiry (t session : Nat)
  | secRights (t : Nat) (c : Cmd)
  | secStatus (t : Nat) (c : Cmd)
  | dbgOpen (t : Nat) (c : Cmd)
  | dbgClose (t : Nat) (c : Cmd)
  | debugLevelExpiry (t : Nat)
  | pwrConfig (t : Nat) (c : Cmd)
  | pwrState (t : Nat) (c : Cmd)
  | p2Entered (t : Nat)
  | p2Exit (t : Nat)
  | p3Entered (t : Nat) (norOk : Bool)
  | p3Exit (t kernelSigs : Nat) (boot : BootFacts) (cached : Bool) (durationMs : Nat) (failed : List Nat)
  | pwrStatus (t : Nat) (c : Cmd)
  -- health
  | targetedTestDone (t kind index : Nat) (pass conditions : Bool)
  | noSpare (t kind index cause : Nat)
  | sramError (t macroIx row bit : Nat) (uncorrectable : Bool)
  | d2dLaneError (t lane symbols : Nat) (uncorrectable : Bool)
  | selftestSegmentDone (t : Nat) (o : SegmentOutcome)
  | sensorSample (t : Nat) (thermal rails : List Int)
  | counterSaturated (t opcode offset selector : Nat)
  | healthStatus (t : Nat) (c : Cmd)
  | healthUnits (t : Nat) (c : Cmd)
  | healthTest (t : Nat) (c : Cmd)
  | healthAccept (t : Nat) (c : Cmd)
  | healthFuseRepair (t : Nat) (c : Cmd)
  | fuseRepairDone (t : Nat) (ok : List Bool)
  | healthResults (t : Nat) (c : Cmd)
  | healthSensors (t : Nat) (c : Cmd)
  | healthLimits (t : Nat) (c : Cmd)
  | healthLogRead (t : Nat) (c : Cmd)
  -- power supplies, reset and boot
  | pwrWarnRise (t : Nat)
  | pwrWarnClear (t : Nat)
  | powerLoss (t : Nat)
  | powerUp (t : Nat)
  | resetNLow (t lowNs : Nat)
  | releaseFromReset (t : Nat) (boot : BootFacts)
  | dramTrained (t : Nat) (cached : Bool) (durationMs : Nat) (found : Training)
  | restoreComplete (t kernelSigs : Nat)
  | resumeLinesStart (t : Nat)
  -- later rows
  | trailLinkChange (t port : Nat) (up : Bool)
  | pcieLinkUp (t speed width : Nat)
  | streamPacketSent (t ctx : Nat)
  | tokenBucketRefill (t ctx : Nat)
  | pauseFrameRx (t port quanta : Nat)
  | ethFrameDropped (t port : Nat) (fcsOk : Bool)
  | ppsOutWidthEnd (t : Nat)
  | fullRetrainingDone (t channel durationUs : Nat) (pass : Bool)
  | watchdogReset (t : Nat)
  | jtagInstruction (t : Nat) (op : JtagOp)
  | smbClockLowTimeout (t : Nat)
deriving DecidableEq, Repr

end Sys2Proof
end

