-- ==== Sys2Proof/Config.lean ====
section
/-! DEFINITION. The free values: what the specification leaves open, as constants without a body. Nothing in Lean can evaluate one or
prove a value of it; a statement that holds of the model holds for every value of them. -/

namespace Sys2Proof.Config

/-- The 8-tap fractional-delay interpolator of stage 1 (R136): its coefficients are not given. The eight samples about the one
delayed, and the delay in 1/4096 cell. -/
opaque fracDelay : List Int → Int → Int

/-- By how much the words of the 18-stage CORDIC of stage 2 (R137) differ from the exact turn: the rounding inside its stages is not given. The
pair, and the angle in 2^-28 turn. -/
opaque cordic : Int → Int → Int → Int × Int

/-- The phase of a zero phasor (R151): no angle is given for it. The counter of free values and the point. -/
opaque phaseOfZero : Nat → Nat → Int

/-- What the DRAM code makes of 7 or more symbols in error (R395): none when detected, otherwise the 64 bytes it hands on and the
symbols it believes corrected. The counter of free values. -/
opaque beyondCode : Nat → Option (List Nat × Nat)

/-- The words of a system kernel's job descriptor that the specification gives no value (Tables 7.11, 8.3): KIND, the word, the JOB tag. -/
opaque jobWord : Nat → Nat → Nat → Nat

/-- Where RET continues on a tile whose call stack is empty (Table 7.7 states no address). -/
opaque emptyReturn : Nat → Nat

/-- The computed temperature code of a bin or of a resistance sensor, which the specification fixes only to within one code (R321, R333).
The counter of free values and the bin. -/
opaque temperatureCode : Nat → Nat → Int

/-- T_REF of a trace that used no reference temperature (R322 states none). The counter of free values. -/
opaque noReference : Nat → Int

/-- RESISTANCE of a conversion whose code is negative (Table 10.7 holds an unsigned number). The code. -/
opaque negativeResistance : Int → Nat

/-- The output of a cancelled compression job after its last released bale (R387). The counter of free values and the byte. -/
opaque baleTail : Nat → Nat → Nat

/-- Where in the device region the ring of reference records lies (R337). -/
opaque refRing : Nat

/-- The content of the CPC and MSS trace buffers (Table 16.10), which no rule gives. The counter of free values and the window offset. -/
opaque traceByte : Nat → Nat → BitVec 8

/-- What CPC memory holds (Table 16.10), which no rule gives: the number of the halt, or of the read while the CPC runs, and the address. -/
opaque cpcByte : Nat → Nat → BitVec 8

/-- The JTAG identification code (Table 16.9 names IDCODE and no value). -/
opaque idcode : BitVec 32

/-- Total supply power in mW as the MSS measures it (Table 16.14, PRESENT_MW). The counter of free values. -/
opaque supplyPower : Nat → Nat

end Sys2Proof.Config
end

