-- ==== Sys2Proof/Machine/Bits.lean ====
section
/-! DEFINITION. Byte order, bit fields, signed readings, rounding, counters and check sums: the helpers that every
meaning uses (R11, R33, R34, R525). -/

namespace Sys2Proof.Machine

/-! ### Little-endian bytes (R11) -/

/-- The number a little-endian byte string spells. -/
def leNat : List Byte → Nat
  | [] => 0
  | b :: r => b.toNat + 256 * leNat r

/-- The `n` little-endian bytes of `v`, taken modulo 2^(8n). -/
def leBytes : Nat → Nat → List Byte
  | 0, _ => []
  | n + 1, v => BitVec.ofNat 8 v :: leBytes n (v / 256)

/-- The unsigned field of `n` bytes at offset `o` of a payload. -/
def rd (p : List Byte) (o n : Nat) : Nat := leNat ((p.drop o).take n)

/-- The signed reading of the low `w` bits of `v` (two's complement). -/
def sx (w v : Nat) : Int :=
  let u := v % 2 ^ w
  if u < 2 ^ (w - 1) then (u : Int) else (u : Int) - (2 ^ w : Nat)

/-- The `w`-bit two's complement code of an integer. -/
def ux (w : Nat) (i : Int) : Nat := (i % (2 ^ w : Nat)).toNat

/-- The signed field of `n` bytes at offset `o` of a payload. -/
def rdS (p : List Byte) (o n : Nat) : Int := sx (8 * n) (rd p o n)

/-- The `n` little-endian bytes of a signed value. -/
def leBytesS (n : Nat) (i : Int) : List Byte := leBytes n (ux (8 * n) i)

/-- One byte. -/
def u8 (v : Nat) : List Byte := leBytes 1 v
def u16 (v : Nat) : List Byte := leBytes 2 v
def u32 (v : Nat) : List Byte := leBytes 4 v
def u64 (v : Nat) : List Byte := leBytes 8 v

/-- `n` bytes of zero. -/
def zeros (n : Nat) : List Byte := List.replicate n 0

/-- The first `n` bytes, padded with zeros when there are fewer. -/
def fit (n : Nat) (l : List Byte) : List Byte := (l ++ zeros n).take n

/-- True when the field of `n` bytes at `o` is zero (a reserved field, R457 check 3). -/
def zeroAt (p : List Byte) (o n : Nat) : Bool := rd p o n == 0

/-- Bit `i` of a number. -/
def bit (v i : Nat) : Bool := v.testBit i

/-- The field of `w` bits at bit `lo`. -/
def field (v lo w : Nat) : Nat := (v >>> lo) % 2 ^ w

/-- 1 for true. -/
def b2n (b : Bool) : Nat := if b then 1 else 0

/-- The indices below `n` whose bit is set in a mask, in ascending order. -/
def maskList (n m : Nat) : List Nat := (List.range n).filter (fun i => bit m i)

/-- The mask with the bits of the list set. -/
def maskOf (l : List Nat) : Nat := l.foldl (fun m i => m ||| 2 ^ i) 0

/-- The value `v` with the `w`-bit field at `lo` replaced by `x`. -/
def setField (v lo w x : Nat) : Nat := v - field v lo w * 2 ^ lo + (x % 2 ^ w) * 2 ^ lo

/-! ### Counters (R525, R526) -/

/-- The end of a statistics counter's range. -/
def satMax : Nat := 0xFFFFFFFF

/-- A statistics counter advanced by `k`: it saturates at 0xFFFF_FFFF (R526). -/
def satAdd (c k : Nat) : Nat := min (c + k) satMax

/-- A value saturated into `n` bytes, as event arguments of the saturating kind hold it. -/
def satTo (n v : Nat) : Nat := min v (2 ^ (8 * n) - 1)

/-! ### Rounding (R34) -/

/-- Round a rational `num / den` to the nearest integer, ties to even (R34). -/
def rneDiv (num : Int) (den : Nat) : Int :=
  let q := num / (den : Int)
  let r := num % (den : Int)
  let d : Int := 2 * r - den
  if d < 0 then q else if d > 0 then q + 1 else if q % 2 = 0 then q else q + 1

/-- Round `x / 2^k` to nearest, ties to even. -/
def rneShift (x : Int) (k : Nat) : Int := rneDiv x (2 ^ k)

/-- Clamp into `[lo, hi]`. -/
def clampI (lo hi x : Int) : Int := if x < lo then lo else if hi < x then hi else x

/-- Saturate to a signed width. -/
def satS (w : Nat) (x : Int) : Int := clampI (-(2 ^ (w - 1) : Nat)) ((2 ^ (w - 1) : Nat) - 1) x

/-- Wrap to a signed width. -/
def wrapS (w : Nat) (x : Int) : Int := sx w (ux w x)

/-- Ceiling division of naturals. -/
def ceilDiv (a b : Nat) : Nat := (a + b - 1) / b

/-- Integer square root by `n` steps of bisection between `lo` and `hi` (the greatest r with r² ≤ v). -/
def isqrtGo : Nat → Nat → Nat → Nat → Nat
  | 0, lo, _, _ => lo
  | n + 1, lo, hi, v =>
    let m := (lo + hi + 1) / 2
    if m * m ≤ v then isqrtGo n m hi v else isqrtGo n lo (m - 1) v

/-- The integer square root of a number below 2^128. -/
def isqrt (v : Nat) : Nat := isqrtGo 66 0 (2 ^ 64) v

/-! ### Check sums -/

/-- One bit of the reflected CRC-32C register (polynomial 0x1EDC6F41, reflected 0x82F63B78). -/
def crc32cBit (c : Nat) : Nat := if c % 2 = 1 then (c / 2) ^^^ 0x82F63B78 else c / 2

/-- One byte of the CRC-32C register. -/
def crc32cByte (c : Nat) (b : Byte) : Nat :=
  let x := c ^^^ b.toNat
  crc32cBit (crc32cBit (crc32cBit (crc32cBit (crc32cBit (crc32cBit (crc32cBit (crc32cBit x)))))))

/-- CRC-32C of a byte string (R72, R375): initial value and final inversion 0xFFFF_FFFF. -/
def crc32c (l : List Byte) : Nat := (l.foldl crc32cByte 0xFFFFFFFF) ^^^ 0xFFFFFFFF

/-- One bit of the CRC-16/CCITT register, polynomial 0x1021, most significant bit first. -/
def crc16Bit (c : Nat) : Nat := if c ≥ 0x8000 then (2 * c % 65536) ^^^ 0x1021 else 2 * c % 65536

/-- One byte of the CRC-16/CCITT register. -/
def crc16Byte (c : Nat) (b : Byte) : Nat :=
  let x := c ^^^ (b.toNat * 256)
  crc16Bit (crc16Bit (crc16Bit (crc16Bit (crc16Bit (crc16Bit (crc16Bit (crc16Bit x)))))))

/-- CRC-16/CCITT of a byte string from a given initial register. -/
def crc16 (init : Nat) (l : List Byte) : Nat := l.foldl crc16Byte init

/-! ### Lists as banks of like things -/

/-- Element `i`, or `d` outside the bank. -/
def nth {α : Type} (l : List α) (i : Nat) (d : α) : α := l[i]?.getD d

/-- Replace the element at `i` by its image; a bank keeps its length. -/
def upd {α : Type} (l : List α) (i : Nat) (f : α → α) : List α := l.modify i f

/-- The median of a list of integers: of its sorted values the one at half the length (the lower of two). -/
def medianI (l : List Int) : Int :=
  let m := l.mergeSort (fun a b => decide (a ≤ b))
  nth m ((m.length - 1) / 2) 0

/-! ### Sparse memories in one canonical form -/

/-- The entry at key `k` of a sparse memory whose unlisted keys read `d`. -/
def sget {α : Type} (d : α) : List (Nat × α) → Nat → α
  | [], _ => d
  | (a, v) :: r, k => if a = k then v else sget d r k

/-- Write `v` at key `k`: keys stay strictly rising and no entry equals the default. -/
def sset {α : Type} [DecidableEq α] (d : α) : List (Nat × α) → Nat → α → List (Nat × α)
  | [], k, v => if v = d then [] else [(k, v)]
  | (a, w) :: r, k, v =>
    if k < a then (if v = d then (a, w) :: r else (k, v) :: (a, w) :: r)
    else if k = a then (if v = d then r else (k, v) :: r)
    else (a, w) :: sset d r k v

/-- The canonical form: keys strictly rising from `lo` on, no entry equal to the default. -/
def swf {α : Type} [DecidableEq α] (d : α) : Nat → List (Nat × α) → Bool
  | _, [] => true
  | lo, (a, w) :: r => decide (lo ≤ a) && decide (w ≠ d) && swf d (a + 1) r

/-- Write the values of a list from key `k` on. -/
def ssetL {α : Type} [DecidableEq α] (d : α) (m : List (Nat × α)) : Nat → List α → List (Nat × α)
  | _, [] => m
  | k, v :: r => ssetL d (sset d m k v) (k + 1) r

/-- Read `n` entries from key `k` on. -/
def sgetL {α : Type} (d : α) (m : List (Nat × α)) (k n : Nat) : List α :=
  (List.range n).map (fun i => sget d m (k + i))

/-! ### Values with a past -/

/-- A value at an instant: of the values it had before, newest first, each with the instant at which it ended, the oldest that had not yet ended,
otherwise the present one. -/
def pastAt {α : Type} (past : List (Nat × α)) (cur : α) (x : Nat) : α :=
  ((past.filter (fun e => decide (x < e.1))).getLast?.map Prod.snd).getD cur

/-- A value ends at an instant: it joins the past, of which what ended more than `keep` before is forgotten. -/
def pastPut {α : Type} (past : List (Nat × α)) (at_ keep : Nat) (old : α) : List (Nat × α) :=
  (at_, old) :: past.filter (fun e => decide (at_ < e.1 + keep))

end Sys2Proof.Machine
end

