-- ==== Sys2Proof/Machine/Filter.lean ====
section
/-! DEFINITION. The constants of stage 4 (R142, R143): the filter coefficients, computed from the formula of R143 to eighty digits and
rounded once, and the cosines of the mixing phases scaled by 2^96. -/

namespace Sys2Proof.Machine

/-- `hq[0 .. 12 d]` for d = 2 (R143); the rest follows by symmetry about tap 12 d. -/
def hqHalf2 : List Int :=
  [0, -25, 0, 79, 0, -187, 0, 376, 0, -682, 0, 1152] ++
  [0, -1852, 0, 2894, 0, -4500, 0, 7240, 0, -13219, 0, 41490] ++
  [65540]

/-- `hq[0 .. 12 d]` for d = 4 (R143); the rest follows by symmetry about tap 12 d. -/
def hqHalf4 : List Int :=
  [0, -6, -12, -12, 0, 22, 40, 35, 0, -54, -94, -80] ++
  [0, 113, 188, 156, 0, -209, -341, -276, 0, 359, 576, 460] ++
  [0, -584, -926, -733, 0, 917, 1447, 1142, 0, -1423, -2250, -1782] ++
  [0, 2258, 3620, 2923, 0, -3933, -6610, -5696, 0, 9711, 20745, 29462] ++
  [32770]

/-- `hq[0 .. 12 d]` for d = 8 (R143); the rest follows by symmetry about tap 12 d. -/
def hqHalf8 : List Int :=
  [0, -1, -3, -5, -6, -7, -6, -4, 0, 5, 11, 16] ++
  [20, 21, 18, 11, 0, -13, -27, -39, -47, -48, -40, -24] ++
  [0, 28, 56, 80, 94, 94, 78, 45, 0, -53, -105, -147] ++
  [-171, -169, -138, -80, 0, 91, 180, 250, 288, 283, 230, 132] ++
  [0, -149, -292, -404, -463, -453, -367, -210, 0, 235, 458, 633] ++
  [723, 706, 571, 326, 0, -364, -711, -983, -1125, -1100, -891, -511] ++
  [0, 575, 1129, 1569, 1810, 1785, 1461, 848, 0, -983, -1966, -2794] ++
  [-3305, -3358, -2848, -1724, 0, 2242, 4855, 7642, 10373, 12809, 14731, 15962] ++
  [16385]

/-- The 24 D + 1 coefficients of decimation D; for D = 1 the identity (R143). -/
def hqTaps (d : Nat) : List Int :=
  let half := if d = 2 then hqHalf2 else if d = 4 then hqHalf4 else if d = 8 then hqHalf8 else []
  half ++ (half.reverse.drop 1)

/-- cos(π/8), cos(π/4), sin(π/8) and π, each times 2^96, rounded. -/
def fixScale : Nat := 2 ^ 96
def cosPi8 : Int := 73197277745406789746128126514
def cosPi4 : Int := 56022770974786139918731938227
def sinPi8 : Int := 30319305170937817432302117203
def piFix : Int := 248902613312231085230521944622

end Sys2Proof.Machine
end

