-- ==== Sys2Proof/Machine/StateRx.lean ====
section
/-! DEFINITION. The state of the coherent receiver quads and of the calender (chapters *Coherent Receiver Quads and
Converters* and *The Calender: Background Calibration*). -/

namespace Sys2Proof.Machine

/-- The settings of `rx.config` for one quad (Table 3.8), retained: gain step, monitor mask, windows in mV. -/
structure QuadCfg where
  gain : Nat
  monitor : Nat
  cmLo : List Nat
  cmHi : List Nat
deriving DecidableEq, Repr, Inhabited

/-- The settings of `cal.config` for one quad (Table 4.8), retained. -/
structure CalCfg where
  rotate : Bool
  freeze : Bool
  handover : Nat
  staleS : Nat
deriving DecidableEq, Repr, Inhabited

/-- The coefficients of one converter at one gain step (Table 4.1, units of `cal.read`): offsets 1/64 LSB, gains 2^-15,
timings 1/4096 cell, skew 1/4096 cell. -/
structure ConvSet where
  o : List Int
  g : List Int
  tau : List Int
  tauK : Int
deriving DecidableEq, Repr, Inhabited

/-- The coefficients of one pair at one gain step: ε 2^-15, θ 2^-16 turn, δ 1/4096 cell. -/
structure PairSet where
  eps : Int
  theta : Int
  delta : Int
deriving DecidableEq, Repr, Inhabited

/-- The marks of a set (Table 4.11): UNCONVERGED, STALE, RESTORED; a coefficient held under R121; accepted blocks that
updated it; the tick of the last accepted update or of the restore. -/
structure SetMark where
  unconverged : Bool
  stale : Bool
  restored : Bool
  limit : Bool
  accepted : Nat
  updated : Nat
deriving DecidableEq, Repr, Inhabited

/-- A lead fault in progress (R87, R88): the side, the start of its first failing block, the passing blocks in a row. -/
structure LeadFault where
  high : Bool
  first : Nat
  passes : Nat
deriving DecidableEq, Repr, Inhabited

/-- One input of a quad. -/
structure InputRun where
  /-- mean of the last evaluated block since wake, 0xFFFF for none -/
  cmMv : Nat
  /-- start of the last block that passed since the converter became ready -/
  lastPass : Option Nat
  fault : Option LeadFault
  /-- the LEAD intervals: first tick, and the tick after which LEAD is clear -/
  spans : List (Nat × Option Nat)
  /-- sampling instant of the last sample at which the clamp was engaged -/
  clamped : Option Nat
  clips : Nat
  leadFaults : Nat
deriving DecidableEq, Repr, Inhabited

/-- One converter of a quad: the input it serves or parallels. -/
structure Conv where
  input : Option Nat
  parallel : Bool
deriving DecidableEq, Repr, Inhabited

/-- The common-mode windows of a quad's inputs, in mV, and the MONITOR mask (Table 3.8). -/
structure Windows where
  lo : List Nat
  hi : List Nat
  monitor : Nat
deriving DecidableEq, Repr, Inhabited

/-- One quad. `ready` is its ready instant while it wakes or is awake; `spells` are the awake spells before, newest first, each with its end.
`gains`, `windows` and `maps` are what GAIN, the windows and the role map were before, newest first, each with the instant at which it
ended: samples taken before a change are judged by what was in force (R79, R84, R117). -/
structure QuadRun where
  ready : Option Nat
  spells : List (Nat × Nat)
  held : Bool
  gains : List (Nat × Nat)
  windows : List (Nat × Windows)
  convs : List Conv
  maps : List (Nat × List Conv)
  inputs : List InputRun
  wakeLate : Nat
  /-- the released lane words of each converter, newest first, with their sampling instants -/
  words : List (List (Nat × BitVec 16))
deriving DecidableEq, Repr, Inhabited

/-- One cell gathered for calibration blocks (R109, R111): its sampling instant, the launch of the sheet in whose interior it lies (0 on Q16)
and its 64-cell window there, the converter that served each input then, and each converter's lane word. -/
structure GathCell where
  x : Nat
  launch : Nat
  window : Nat
  serving : List (Option Nat)
  words : List (BitVec 16)
deriving DecidableEq, Repr, Inhabited

/-- A launch of the line as the gathering needs it: a sheet all of whose samples are INVALID under R53, R58 or R61 offers no word (R109). -/
structure Shot where
  tick : Nat
  tone : Nat
  coded : Bool
  code : Nat
  bad : Bool
deriving DecidableEq, Repr, Inhabited

/-- The calender's place in one quad. -/
structure CalQuad where
  /-- 0 idle, 1 converge, 2 overlap, 3 deep, 4 in place, 5 emergency -/
  phase : Nat
  spare : Option Nat
  input : Option Nat
  /-- the converter the spare relieves or has relieved -/
  server : Nat
  /-- when the moved converter is usable (Table 4.3) -/
  movingUntil : Option Nat
  nextInput : Nat
  blocks : Nat
  passRun : Nat
  rejections : Nat
  /-- the handover fell due at this instant (R116); `recheck` after a gain change at its boundary (R81) -/
  dueAt : Option Nat
  recheck : Bool
  /-- the spare's six sets at the start of the step (R122) -/
  startSets : List ConvSet
  /-- the handover test has passed four times in a row in this step, though FREEZE held the handover back (R122, R131) -/
  passed : Bool
  /-- an erring serving converter that waits for the spare to be free (R123) -/
  erring : Option Nat
  /-- H of the latest handover -/
  handAt : Nat
  /-- the cells gathered, newest first, and the instant from which each converter gathers (R111) -/
  cells : List GathCell
  gathFrom : List Nat
  /-- the line's launches from the oldest gathered cell on, newest first -/
  shots : List Shot
  /-- EV_CAL_STALE stands for an input (R127) -/
  stale : List Bool
  /-- the latest noise floor of each input (R114) in 2^-20 squared codes, with the gain step of its codes -/
  noise : List (Nat × Nat)
  handovers : Nat
  rejected : Nat
  fails : List Nat
  inPlaceRaised : Bool
deriving DecidableEq, Repr, Inhabited

/-- The converters' marks (5 per quad, 6 gain steps) and the pairs' (33 pairs, 6 gain steps), each quad's place, and the figures that follow the
sets (R126): OFFSET_RES and SKEW_RES of each converter set, IRR of each pair set. -/
structure Cal where
  quads : List CalQuad
  conv : List SetMark
  pair : List SetMark
  offRes : List Int
  skewRes : List Int
  irr : List Nat
deriving DecidableEq, Repr, Inhabited

/-- A set that changes nothing: the neutral coefficients. -/
def ConvSet.neutral : ConvSet := ⟨[0, 0, 0, 0], [32768, 32768, 32768, 32768], [0, 0, 0, 0], 0⟩
def PairSet.neutral : PairSet := ⟨32768, 0, 0⟩

/-- Marks of a set that was never updated and not restored (R124). -/
def SetMark.fresh (now : Nat) : SetMark := ⟨true, false, false, false, 0, now⟩

/-- Marks of a set reloaded by a restore (R130). -/
def SetMark.reloaded (now : Nat) : SetMark := ⟨false, true, true, false, 0, now⟩

def InputRun.reset : InputRun := ⟨0xFFFF, none, none, [], none, 0, 0⟩

/-- After reset K0 to K3 serve inputs 0 to 3 and K4 is the spare (section 3.1). -/
def QuadRun.reset : QuadRun where
  ready := none
  spells := []
  held := false
  gains := []
  windows := []
  convs := [⟨some 0, false⟩, ⟨some 1, false⟩, ⟨some 2, false⟩, ⟨some 3, false⟩, ⟨none, false⟩]
  maps := []
  inputs := List.replicate 4 InputRun.reset
  wakeLate := 0
  words := List.replicate 5 []

def CalQuad.reset : CalQuad where
  phase := 0
  spare := some 4
  input := none
  server := 0
  movingUntil := none
  nextInput := 0
  blocks := 0
  passRun := 0
  rejections := 0
  dueAt := none
  recheck := false
  startSets := List.replicate 6 ConvSet.neutral
  passed := false
  erring := none
  handAt := 0
  cells := []
  gathFrom := [0, 0, 0, 0, 0]
  shots := []
  stale := [false, false, false, false]
  noise := List.replicate 4 (0, 0)
  handovers := 0
  rejected := 0
  fails := [0, 0, 0, 0, 0]
  inPlaceRaised := false

def Cal.reset : Cal where
  quads := List.replicate 17 CalQuad.reset
  conv := List.replicate 510 (SetMark.fresh 0)
  pair := List.replicate 198 (SetMark.fresh 0)
  offRes := List.replicate 510 0
  skewRes := List.replicate 510 0
  irr := List.replicate 198 0

def QuadCfg.factory : QuadCfg := ⟨0, 0, [700, 700, 700, 700], [1100, 1100, 1100, 1100]⟩
def CalCfg.factory : CalCfg := ⟨true, false, 50, 60⟩

end Sys2Proof.Machine
end

