-- ==== Sys2Proof/Machine/Dsp.lean ====
section
/-! DEFINITION. The arithmetic of the line engine's stages 1 to 7 (R134 to R152) on plain lists: no state is read or written here. -/

namespace Sys2Proof.Machine

/-- A complex word. -/
structure Cx where
  re : Int
  im : Int
deriving DecidableEq, Repr, Inhabited

def Cx.zero : Cx := ⟨0, 0⟩
def Cx.add (a b : Cx) : Cx := ⟨a.re + b.re, a.im + b.im⟩
def Cx.sub (a b : Cx) : Cx := ⟨a.re - b.re, a.im - b.im⟩
/-- a × conj b. -/
def Cx.mulConj (a b : Cx) : Cx := ⟨a.re * b.re + a.im * b.im, a.im * b.re - a.re * b.im⟩
def Cx.norm2 (a : Cx) : Nat := (a.re * a.re + a.im * a.im).toNat
def Cx.scale (k : Int) (a : Cx) : Cx := ⟨k * a.re, k * a.im⟩

/-- Round an exact quotient to nearest even and saturate it to a width; true says that it saturated (R134). -/
def roundSat (w : Nat) (num : Int) (den : Nat) : Int × Bool :=
  let v := rneDiv num den
  (satS w v, decide (satS w v ≠ v))

/-! ### Angles -/

/-- Halve a complex number's size while it has more than 256 bits. -/
def Cx.trim (a : Cx) : Cx :=
  let n := (max a.re.natAbs a.im.natAbs).log2
  if n ≤ 256 then a else ⟨a.re / (2 ^ (n - 256) : Nat), a.im / (2 ^ (n - 256) : Nat)⟩

/-- The first `n` binary digits of a complex number's angle in turns, by repeated squaring, and the number left. -/
def angleBits : Nat → Cx → Nat → Nat × Cx
  | 0, a, acc => (acc, a)
  | n + 1, a, acc =>
    let low := decide (a.im < 0) || (a.im == 0 && decide (a.re < 0))
    let sq : Cx := ⟨a.re * a.re - a.im * a.im, 2 * a.re * a.im⟩
    angleBits n sq.trim (2 * acc + b2n low)

/-- arg of a non-zero phasor in 2^-20 turn, rounded to nearest (R137, R151). -/
def argTurn20 (a : Cx) : Int := sx 20 (((angleBits 21 a 0).1 + 1) / 2)

/-- sin and cos of an angle in 2^-16 turn by their series, times 2^96. -/
def sinSeries : Nat → Nat → Int → Int → Int → Int
  | 0, _, _, _, acc => acc
  | n + 1, k, x2, term, acc => sinSeries n (k + 2) x2 (-(term * x2 / (fixScale : Int)) / ((k + 1) * (k + 2) : Nat)) (acc + term)

def angleFix (theta : Int) : Int := 2 * piFix * theta / 65536
def sinOf (x : Int) : Int := sinSeries 24 1 (x * x / (fixScale : Int)) x 0
def cosOf (x : Int) : Int := sinSeries 24 0 (x * x / (fixScale : Int)) (fixScale : Int) 0
def sinFix (theta : Int) : Int := sinOf (angleFix theta)
def cosFix (theta : Int) : Int := cosOf (angleFix theta)

/-- An angle in 2^-28 turn, in radians times 2^96. -/
def angle28 (phi : Int) : Int := 2 * piFix * wrapS 28 phi / 2 ^ 28

/-! ### Stage 1 (R107, R136) -/

/-- Nominal gain of a gain step, in thousandths, referred to gain step 0 (Table 3.3). -/
def nominalGain (g : Nat) : Int := nth [1000, 708, 501, 355, 251, 178] g 1000

/-- One lane word as stage 1 takes it: the code (0 when NOT_READY), the sub-converter, the gain step in force. -/
structure Lane where
  word : BitVec 16
  sub : Nat
  gain : Nat
deriving DecidableEq, Repr, Inhabited

def Lane.notReady (l : Lane) : Bool := l.word.getLsbD 1
def Lane.lead (l : Lane) : Bool := l.word.getLsbD 2
def Lane.clip (l : Lane) : Bool := l.word.getLsbD 3
def Lane.code (l : Lane) : Int := if l.notReady then 0 else sx 12 (l.word.toNat / 16)

/-- The denominator of a converter-stage value in units of 1/16 LSB0: 1/64 LSB, 2^-15, thousandths, times 16. -/
def convDen : Nat := 131072000

/-- Offset, gain and nominal gain, exact over `convDen`; a NOT_READY word enters as 0. -/
def convStage (v : ConvSet) (l : Lane) : Int :=
  if l.notReady then 0 else (l.code * 64 - nth v.o l.sub 0) * nth v.g l.sub 32768 * nominalGain l.gain

/-- The fractional delay of sample `n` (R136): no delay is the sample itself; otherwise the interpolator's free value on the eight
samples about it. -/
def delayed (x : Array Int) (n : Nat) (tau : Int) : Int :=
  if tau = 0 then x.getD n 0
  else Config.fracDelay ((List.range 8).map (fun k => if n + k < 3 then 0 else x.getD (n + k - 3) 0)) tau

/-- One polarisation pair through stage 1: the words of I and Q in 1/16 LSB0 with their saturation marks. `conv` gives each lane's
converter set at a gain step, `pair` the pair set. -/
def stage1 (is qs : List Lane) (convI convQ : Nat → ConvSet) (pair : Nat → PairSet) : List (Int × Bool) × List (Int × Bool) :=
  let xi := (is.map (fun l => convStage (convI l.gain) l)).toArray
  let xq := (qs.map (fun l => convStage (convQ l.gain) l)).toArray
  let di := (is.zipIdx.map (fun e => let v := convI e.1.gain; delayed xi e.2 (nth v.tau e.1.sub 0 + v.tauK))).toArray
  let dq0 := (qs.zipIdx.map (fun e => let v := convQ e.1.gain; delayed xq e.2 (nth v.tau e.1.sub 0 + v.tauK))).toArray
  let outI := di.toList.map (fun v => roundSat 18 v convDen)
  let outQ := qs.zipIdx.map (fun e =>
    let p := pair e.1.gain
    let q := delayed dq0 e.2 p.delta * p.eps
    if p.theta = 0 then roundSat 18 q (convDen * 32768)
    else
      let num := q * (fixScale : Int) - di.getD e.2 0 * 32768 * sinFix p.theta
      roundSat 18 num (convDen * 32768 * (cosFix p.theta).toNat))
  (outI, outQ)

/-! ### Stage 2 (R137, R139) -/

/-- One cell of a reference path: φ̂ in 2^-28 turn, weak, LEAD, NOT_READY, CLIP, and how many of its two words saturated in stage 1. -/
structure RefCell where
  phi : Int
  weak : Bool
  lead : Bool
  notReady : Bool
  clip : Bool
  sats : Nat
deriving DecidableEq, Repr, Inhabited

/-- The running values of the reference path: ψ unwrapped (32 bits), the last wrapped ψ, the bias with 24 bits of fraction, φ̂. -/
structure RefRun where
  psi : Int
  psiW : Int
  bias : Int
  phi : Int
deriving DecidableEq, Repr, Inhabited

/-- A reference sample below 128 LSB0 is weak (R139): words are in 1/16 LSB0. -/
def weakRef (r : Cx) : Bool := decide (r.norm2 < 2048 * 2048)

/-- One cell of R137. -/
def RefRun.step (s : RefRun) (r : Cx) (delay : Nat) : RefRun :=
  let weak := weakRef r
  let w := if weak then s.psiW else argTurn20 r
  let psi := if weak then s.psi else wrapS 32 (s.psi + wrapS 20 (w - s.psiW))
  let bias := s.bias + (psi * 2 ^ 24 - s.bias) / (2 ^ 24 : Nat)
  ⟨psi, w, bias, wrapS 40 (s.phi + rneDiv ((psi * 2 ^ 24 - bias) * 256 * 256) (2 ^ 24 * delay))⟩

/-- φ̂ interpolated linearly between two cells to 1/256 cell (R137). -/
def interpPhi (a b : Int) (frac : Nat) : Int := wrapS 40 (a + rneDiv (wrapS 40 (b - a) * frac) 256)

/-- The correction of one pair of words (R137): turned by +φ̂, the gain of the CORDIC removed, in 18 bits. Eighteen stages leave an angle of at most 2^-17
rad, which moves a word by no more than two units; by how much is a free value within that, since the rounding inside the stages is not given. -/
def rotate (x : Cx) (phi : Int) : Cx × Bool :=
  let a := angle28 phi
  let free := Config.cordic x.re x.im phi
  let re := rneDiv (x.re * cosOf a - x.im * sinOf a) fixScale + clampI (-2) 2 free.1
  let im := rneDiv (x.re * sinOf a + x.im * cosOf a) fixScale + clampI (-2) 2 free.2
  (⟨satS 18 re, satS 18 im⟩, decide (satS 18 re ≠ re) || decide (satS 18 im ≠ im))

/-! ### Stage 4 (R142 to R144) -/

/-- cos of m/16 turn over the basis 1, cos π/8, cos π/4, sin π/8: the value of an integer combination, times 2^96. -/
def basisValue (a b c d : Int) : Int := a * (fixScale : Int) + b * cosPi8 + c * cosPi4 + d * sinPi8

/-- Which basis element and sign cos(2π m/16) is. -/
def cosCode (m : Nat) : Nat × Int :=
  nth [(0, 1), (1, 1), (2, 1), (3, 1), (4, 0), (3, -1), (2, -1), (1, -1), (0, -1), (1, -1), (2, -1), (3, -1), (4, 0), (3, 1), (2, 1), (1, 1)]
    (m % 16) (0, 1)

/-- A sum in the basis: four coefficients. -/
structure Basis where
  a : Int
  b : Int
  c : Int
  d : Int
deriving DecidableEq, Repr, Inhabited

def Basis.addAt (s : Basis) (code : Nat × Int) (x : Int) : Basis :=
  match code.1 with
  | 0 => { s with a := s.a + code.2 * x }
  | 1 => { s with b := s.b + code.2 * x }
  | 2 => { s with c := s.c + code.2 * x }
  | 3 => { s with d := s.d + code.2 * x }
  | _ => s

def Basis.value (s : Basis) : Int := basisValue s.a s.b s.c s.d

/-- The mixing phase of sheet cell `k` on channel `c` of decimation `d`, in sixteenths of a turn, as −2π f_c k 2 ns (R40, R142). -/
def mixPhase (d c : Nat) (k : Int) : Nat :=
  (((-(k * ((2 * c + 1 : Int) - d) * 8) / d) % 16 + 16) % 16).toNat

/-- Output of stage 4 at sheet cell `cell`: mixed, filtered, in 1/64 LSB0, with its saturation mark. `at_` is the sheet cell of
`x`'s first word; words beyond its ends are 0. -/
def stage4 (d c : Nat) (x : Array Cx) (at_ cell : Int) : Cx × Bool :=
  let get := fun (k : Int) => if at_ ≤ k then x.getD (k - at_).toNat Cx.zero else Cx.zero
  if d = 1 then
    let v := get cell
    (⟨satS 20 (4 * v.re), satS 20 (4 * v.im)⟩, false)
  else
    let half : Int := (12 * d : Nat)
    let acc := (hqTaps d).zipIdx.foldl (fun (s : Basis × Basis) e =>
      let k := cell - half + e.2
      let v := get k
      let m := mixPhase d c k
      let co := cosCode m
      let si := cosCode (m + 12)
      -- (re + j im)(cos + j sin)
      ((s.1.addAt co (e.1 * v.re)).addAt si (-(e.1 * v.im)), (s.2.addAt co (e.1 * v.im)).addAt si (e.1 * v.re)))
      ((⟨0, 0, 0, 0⟩, ⟨0, 0, 0, 0⟩) : Basis × Basis)
    let re := roundSat 20 acc.1.value (fixScale * 2 ^ 15)
    let im := roundSat 20 acc.2.value (fixScale * 2 ^ 15)
    (⟨re.1, im.1⟩, re.2 || im.2)

/-! ### Stage 5 (R145, R146) -/

/-- The smallest s with 2^s at or above `n`. -/
def ceilLog2 (n : Nat) : Nat := if n ≤ 1 then 0 else (n - 1).log2 + 1

/-- Decimated length of a waveform of `w` cells. -/
def compLength (w d : Nat) : Nat := ceilDiv w d

/-- A stored waveform word as a complex sample (Table 2.4). -/
def waveSample (w : BitVec 32) : Cx := ⟨sx 14 (field w.toNat 18 14), sx 14 (field w.toNat 2 14)⟩

/-- round(a × 32767 / √m) for a non-negative `a`, to the nearest integer. -/
def scaleByRoot (a m : Nat) : Nat := (isqrt (4 * a * a * 32767 * 32767 / m) + 1) / 2

def scaleSigned (a : Int) (m : Nat) : Int := if a < 0 then -(scaleByRoot a.natAbs m : Int) else scaleByRoot a.natAbs m

/-- The reference of a waveform slot for decimation `d` (R145): every fourth word, filtered and decimated, scaled to 32 767. -/
def refOf (words : List Cx) (d : Nat) : List Cx :=
  let cells := (words.zipIdx.filter (fun e => e.2 % 4 == 0)).map Prod.fst
  let n := compLength cells.length d
  let raw := if d = 1 then cells
    else
      let arr := cells.toArray
      (List.range n).map (fun j =>
        (hqTaps d).zipIdx.foldl (fun s e =>
          let k : Int := (j * d : Nat) - (12 * d : Nat) + e.2
          if k < 0 then s else s.add ((arr.getD k.toNat Cx.zero).scale e.1)) Cx.zero)
  let m := raw.foldl (fun a v => max a v.norm2) 0
  if m = 0 then raw.map (fun _ => Cx.zero)
  else raw.map (fun v => ⟨satS 16 (scaleSigned v.re m), satS 16 (scaleSigned v.im m)⟩)

/-- Stage 5 at one output: `z` gives stage 4's words from this cell on, one every D cells (R145); the mark is stage 5's own saturation. -/
def stage5 (z : List (Cx × Bool)) (ref : List Cx) : Cx × Bool :=
  let s := 15 + ceilLog2 ref.length
  let sum := (z.zip ref).foldl (fun a e => a.add (e.1.1.mulConj e.2)) Cx.zero
  let re := roundSat 20 sum.re (2 ^ s)
  let im := roundSat 20 sum.im (2 ^ s)
  (⟨re.1, im.1⟩, re.2 || im.2)

/-- The decoded word of a coded group from its signed sum (R146). -/
def decodeWord (sum : Cx) : Cx := ⟨rneDiv sum.re 4, rneDiv sum.im 4⟩

/-! ### Stages 6 and 7 (R149 to R152) -/

/-- Phase and quality of a point from its phasor and its number of products; the phase of a zero phasor is left to the caller. -/
def quality (v : Cx) (n : Nat) : Nat :=
  let s := v.norm2
  if s = 0 then 0
  else
    -- k = round_even(8 log2(|v|/n)), from the exact ratio s^8 / n^16
    let num := s ^ 8
    let den := n ^ 16
    let e : Int := if den ≤ num then ((num / den).log2 : Int)
      else -((ceilLog2 (ceilDiv den num) : Nat) : Int)
    let k : Int :=
      if e % 2 = 0 then e / 2
      else
        let hi := (e + 1) / 2
        let exact := if 0 ≤ e then decide (num = den * 2 ^ e.toNat) else decide (num * 2 ^ (-e).toNat = den)
        if exact && hi % 2 ≠ 0 then hi - 1 else hi
    (clampI 0 255 (k - 49)).toNat

end Sys2Proof.Machine
end

