-- ==== Sys2Proof/Machine/Numeric.lean ====
section
/-! DEFINITION. Real arithmetic that several chapters need on plain numbers: binary32 codes, natural logarithms in fixed point, rounded binary
logarithms of exact ratios. -/

namespace Sys2Proof.Machine

/-- A binary32 code as a fraction; none for an infinity or a NaN. -/
def f32 (v : Nat) : Option (Int × Nat) :=
  let e := field v 23 8
  let m := field v 0 23
  if e = 255 then none
  else
    let mant := if e = 0 then m else m + 2 ^ 23
    let sign : Int := if bit v 31 then -1 else 1
    let ex := max e 1
    if 150 ≤ ex then some (sign * (mant * 2 ^ (ex - 150) : Nat), 1) else some (sign * (mant : Nat), 2 ^ (150 - ex))

/-- A binary32 code lies between two fractions over the same positive denominator. -/
def f32In (v : Nat) (lo hi : Int) (den : Nat) : Bool :=
  match f32 v with
  | some (n, d) => decide (lo * (d : Int) ≤ n * (den : Int)) && decide (n * (den : Int) ≤ hi * (d : Int))
  | none => false

/-- Σ z^(2k+1) / (2k+1) in units of 2^-96, `z` in the same units. -/
def atanhSeries : Nat → Nat → Int → Int → Int → Int
  | 0, _, _, _, acc => acc
  | n + 1, k, z2, pow, acc => atanhSeries n (k + 2) z2 (pow * z2 / (fixScale : Int)) (acc + pow / (k : Int))

def atanhFix (z : Int) : Int := atanhSeries 40 1 (z * z / (fixScale : Int)) z 0

/-- ln 2 in units of 2^-96. -/
def ln2Fix : Int := 2 * atanhFix ((fixScale : Int) / 3)

/-- ln(num / den) of positive numbers, in units of 2^-96. -/
def lnFix (num den : Nat) : Int :=
  if num = 0 ∨ den = 0 then 0
  else
    let e : Int := (num.log2 : Int) - (den.log2 : Int)
    let a : Nat := if 0 ≤ e then num else num * 2 ^ (-e).toNat
    let b : Nat := if 0 ≤ e then den * 2 ^ e.toNat else den
    e * ln2Fix + 2 * atanhFix (((a : Int) - (b : Int)) * (fixScale : Int) / ((a : Int) + (b : Int)))

/-- round_even(log2(num / den) / 2) of positive numbers, exact. -/
def roundHalfLog2 (num den : Nat) : Int :=
  let e : Int := if den ≤ num then ((num / den).log2 : Int)
    else -((let q := ceilDiv den num; if q ≤ 1 then 0 else (q - 1).log2 + 1 : Nat) : Int)
  if e % 2 = 0 then e / 2
  else
    let hi := (e + 1) / 2
    let exact := if 0 ≤ e then decide (num = den * 2 ^ e.toNat) else decide (num * 2 ^ (-e).toNat = den)
    if exact && hi % 2 ≠ 0 then hi - 1 else hi

/-- Of the whole numbers within one of `num / den`, the one that a free choice `pick` falls on (R321, R333). -/
def withinOne (num : Int) (den : Nat) (pick : Int) : Int := clampI (-((den - num) / (den : Int))) ((num + den) / (den : Int)) pick

/-- The sum of a list of whole numbers. -/
def sumI (l : List Int) : Int := l.foldl (· + ·) 0

end Sys2Proof.Machine
end

