-- ==== Sys2Proof/Machine/CalMeas.lean ====
section
/-! DEFINITION. What the calender measures on a block of lane words (R109 to R116, R126, R132), on plain lists of gathered cells: no state is read or
written here. -/

namespace Sys2Proof.Machine

/-- Words of a block (section 4.2). -/
def calBlockWords : Nat := 65536

def GathCell.word (c : GathCell) (j : Nat) : BitVec 16 := nth c.words j 2#16
def laneWordCode (w : BitVec 16) : Int := sx 12 (w.toNat / 16)
def GathCell.code (c : GathCell) (j : Nat) : Int := laneWordCode (c.word j)
def GathCell.clip (c : GathCell) (j : Nat) : Bool := (c.word j).getLsbD 3

/-- A converter's word of a cell carries none of LEAD, NOT_READY and GAIN_STEP (R109). -/
def GathCell.offers (c : GathCell) (j : Nat) : Bool := (c.word j).toNat % 8 == 0

def mean (l : List Rat) : Rat := l.sum / l.length

/-! ### Reflection windows (R110) -/

/-- The windows of some cells with the mean power of a converter's words in each. -/
def windowMeans (j : Nat) (cells : List GathCell) : List ((Nat × Nat) × Rat) :=
  (cells.map (fun c => (c.launch, c.window))).eraseDups.map (fun k =>
    (k, mean ((cells.filter (fun c => decide ((c.launch, c.window) = k))).map (fun c => ((c.code j * c.code j : Int) : Rat)))))

/-- The median of a list, the lower of two middle values. -/
def median (l : List Rat) : Rat := nth (l.mergeSort (fun a b => decide (a ≤ b))) ((l.length - 1) / 2) 0

/-- The windows whose mean power exceeds the median by more than 15 dB: a power ratio of 10^1.5. -/
def reflections (j : Nat) (cells : List GathCell) : List (Nat × Nat) :=
  let w := windowMeans j cells
  let m := median (w.map Prod.snd)
  (w.filter (fun e => decide (1000 * (m * m) < e.2 * e.2))).map Prod.fst

/-- A cell lies in a reflection window or in one beside it. -/
def GathCell.reflected (c : GathCell) (r : List (Nat × Nat)) : Bool :=
  r.any (fun k => k.1 == c.launch && decide (c.window ≤ k.2 + 1) && decide (k.2 ≤ c.window + 1))

/-- The block of a converter from the cells gathered, oldest first (R109 to R111): the first 65 536 whose word qualifies; none while there are fewer.
The median of R110 is taken over every cell gathered for the block (DESIGN CHOICE: a block is defined by what the median leaves, and the
median by the block). -/
def blockOf (q j from_ : Nat) (cells : List GathCell) : Option (List GathCell) :=
  let l := (cells.filter (fun c => decide (from_ ≤ c.x) && c.offers j)).reverse
  let r := if q < 16 then reflections j l else []
  let b := (l.filter (fun c => !c.reflected r)).take calBlockWords
  if b.length = calBlockWords then some b else none

/-! ### The precondition tests' quantities (R112 to R114, R132) -/

/-- The phasor of a pair at a cell; a converter on an input gives its own word there (R113). -/
def GathCell.z (c : GathCell) (p i j : Nat) : Cx :=
  let code := fun (k : Nat) => if k = i then c.code j else match nth c.serving k none with | some v => c.code v | none => 0
  ⟨code (2 * p), code (2 * p + 1)⟩

/-- E|z|⁴ / (E|z|²)² of one segment. A segment without power has the ratio 0 (DESIGN CHOICE: the rule states none). -/
def segmentRatio (l : List Cx) : Rat :=
  let p := l.map (fun v => (v.norm2 : Rat))
  let m := mean p
  mean (p.map (fun v => v * v)) / (m * m)

/-- The intensity ratio of a block: the mean over its 64 segments of 1 024 words (R113). -/
def intensityRatio (z : List Cx) : Rat := mean ((List.range 64).map (fun k => segmentRatio ((z.drop (1024 * k)).take 1024)))

/-- Frequency `k` of the 65 536 of a block lies outside the usable band of every channel of decimation `d`, and not within 1 MHz of zero (R114,
Table 2.2): 500 MHz / 65 536 apart, bands of 400 MHz / d about (2c + 1) 250 MHz / d − 250 MHz. -/
def outsideBands (d : Nat) (k : Int) : Bool :=
  decide (65536 ≤ 500 * k.natAbs) &&
    (List.range d).all (fun c => decide (4 * 65536 < (10 * d * k - 65536 * 5 * ((2 * c + 1 : Nat) - (d : Int))).natAbs))

/-- |Σ v e^(−j2πkn/65536)|², times 2^192. -/
def dftPower (v : List Int) (k : Int) : Nat :=
  let t := v.zipIdx.foldl (fun (a : Int × Int) e =>
    let th := (k * e.2) % 65536
    (a.1 + e.1 * cosFix th, a.2 - e.1 * sinFix th)) (0, 0)
  (t.1 * t.1 + t.2 * t.2).toNat

/-- The noise floor of a lane's block (R114) in squared codes: the mean density outside the bands, taken as the block's periodogram, scaled to 500 MHz. -/
def noiseFloor (d : Nat) (v : List Int) : Rat :=
  let ks := ((List.range 65536).map (fun k => (k : Int) - 32768)).filter (outsideBands d)
  mean (ks.map (fun k => (dftPower v k : Rat) / ((2 : Rat) ^ 192 * calBlockWords)))

/-- The lane's mean power is at least 10 dB above its noise floor; a lane without power is not (test 2). -/
def aboveNoise (p n : Rat) : Bool := decide (0 < p) && decide (10 * n ≤ p)

/-- A ratio in thousandths of a decibel, rounded; −100 dB for no power and +100 dB above no noise (DESIGN CHOICE for the event's argument, which no rule
gives there). -/
def milliDb (a b : Rat) : Int :=
  if a ≤ 0 then -100000 else if b ≤ 0 then 100000
  else
    let r := a / b
    rneDiv (10000 * lnFix r.num.natAbs r.den) (lnFix 10 1).toNat

/-- |z| in 2^-20 codes. -/
def radius20 (z : Cx) : Nat := isqrt (z.norm2 * 2 ^ 40)

/-- The span of the phase over a block in 2^-20 turn (test 5): the unwrapped phase's greatest less its least value. -/
def phaseSpan (z : List Cx) : Int :=
  match (z.filter (fun v => decide (0 < v.norm2))).map argTurn20 with
  | [] => 0
  | a :: rest =>
    let t := rest.foldl (fun (s : Int × Int × Int) v =>
      let u := s.1 + wrapS 20 (v - s.1)
      (u, min s.2.1 u, max s.2.2 u)) (a, a, a)
    t.2.2 - t.2.1

/-- What the tests of Table 4.2 take of a block; on Q0 to Q15 the noise floor as well. -/
structure CalMeas where
  ratio : Rat
  ratioY : Rat
  power : Rat
  noise : Rat
  clipped : Nat
  radius : Rat
  span : Int
deriving DecidableEq, Repr, Inhabited

/-- The quantities of a converter's block on an input under decimation `d`. -/
def measure (d i j : Nat) (b : List GathCell) : CalMeas :=
  let v := b.map (fun c => c.code j)
  let z := b.map (fun c => c.z (i / 2) i j)
  { ratio := intensityRatio (b.map (fun c => c.z 0 i j)), ratioY := intensityRatio (b.map (fun c => c.z 1 i j))
    power := mean (v.map (fun x => ((x * x : Int) : Rat))), noise := noiseFloor d v, clipped := (b.filter (fun c => c.clip j)).length
    radius := mean (z.map (fun x => (radius20 x : Rat) / 2 ^ 20)), span := phaseSpan z }

def milli (r : Rat) : Int := rneDiv (1000 * r.num) r.den

/-- The tests of Table 4.2 that apply to a quad and fail, in order, each with its measured value in thousandths (R112, R132). -/
def calFails (q : Nat) (m : CalMeas) : List (Nat × Int) :=
  let ratioOk := fun (r : Rat) => decide (37 ≤ 20 * r) && decide (20 * r ≤ 43)
  let clip : List (Nat × Int) := if m.clipped ≤ 6 then [] else [(3, ((m.clipped * 1000 : Nat) : Int))]
  if q < 16 then
    (if !ratioOk m.ratio then [(1, milli m.ratio)] else if !ratioOk m.ratioY then [(1, milli m.ratioY)] else []) ++
      (if aboveNoise m.power m.noise then [] else [(2, milliDb m.power m.noise)]) ++ clip
  else
    clip ++ (if 512 ≤ m.radius && m.radius ≤ 921 then [] else [(4, milli m.radius)]) ++
      (if 3 * m.span < 2 ^ 20 then [(5, rneDiv (m.span * 360000) (2 ^ 20))] else [])

/-! ### Corrected words (R107, R116, R126) -/

/-- Denominator of a converter-stage word in codes of the step in force: 1/64 LSB and 2^-15. -/
def corrDen : Nat := 2097152

/-- A converter's corrected words over a block with its set, in `corrDen`ths of a code: offset, gain, and the fractional delay over the cells beside it;
a cell that was not gathered enters as 0. `sub` gives each cell's sub-converter. -/
def correctedWords (v : ConvSet) (j : Nat) (sub : Nat → Nat) (b : List GathCell) : List Int :=
  let at_ := fun (x : Int) => match b.find? (fun c => decide ((c.x : Int) = x)) with
    | some c => (c.code j * 64 - nth v.o (sub c.x) 0) * nth v.g (sub c.x) 32768
    | none => 0
  b.map (fun c =>
    let tau := nth v.tau (sub c.x) 0 + v.tauK
    if tau = 0 then at_ c.x
    else Config.fracDelay ((List.range 8).map (fun k => at_ (c.x + ((k : Int) - 3) * ticksPerCell))) tau)

/-- The handover test's first two conditions (R116) on the corrected words of spare and server: the difference's power at or below the threshold
relative to the server's, its mean within a quarter of a code. -/
def differenceOk (thr : Nat) (ds o : List Int) : Bool :=
  let diff := (ds.zip o).map (fun e => e.1 - e.2)
  let pd := (sumI (diff.map (fun e => e * e))).toNat
  let po := (sumI (o.map (fun e => e * e))).toNat
  decide (pd ^ 10 * 10 ^ thr ≤ po ^ 10) && decide (4 * (sumI diff).natAbs ≤ diff.length * corrDen)

/-- The mean of corrected words in 1/16 code (OFFSET_RES), kept in 16 bits; 0 when every word was clipped. -/
def offsetResidual (w : List Int) : Int := if w.length = 0 then 0 else satS 16 (rneDiv (16 * sumI w) (w.length * corrDen))

/-- IRR in 0.25 dB from the residual gain ratio `num / den` and the residual phase in 2^-16 turn (Table 4.6), by the image of a quadrature pair:
(1 + 2g cos θ + g²) / (1 − 2g cos θ + g²) (PRESUMED: the formula is that of quadrature receivers, and no rule gives one). -/
def imageRejection (num den : Int) (theta : Int) : Nat :=
  let c := cosFix theta
  let sq := (num * num + den * den) * (fixScale : Int)
  let x := 2 * num * den * c
  if sq - x ≤ 0 then 255
  else (clampI 0 255 (rneDiv (40 * lnFix (sq + x).toNat (sq - x).toNat) (lnFix 10 1).toNat)).toNat

end Sys2Proof.Machine
end

