-- ==== Sys2Proof/Machine/BaleCodec.lean ====
section
/-! DEFINITION. The bale format (R366 to R377): word types, quantisation, prediction, group coding, blocks, headers, and the decoder, on plain
lists. -/

namespace Sys2Proof.Machine

/-- The fixed geometry of what a bale holds (R366, R370): source code, line, word types (0 F20Q8, 1 F20, 2 W32), record bytes, points. -/
structure Geom where
  source : Nat
  line : Nat
  types : List Nat
  recBytes : Nat
  points : Nat
deriving DecidableEq, Repr, Inhabited

def Geom.words (g : Geom) : Nat := g.types.length
/-- Bytes of one row of original data. -/
def Geom.rowBytes (g : Geom) : Nat := g.recBytes + g.points * g.words * 4
def Geom.groups (g : Geom) : Nat := ceilDiv g.points 16

/-- How a profile has a bale coded (Table 12.8): orders and quantisations by word position, verification mode. -/
structure Coding where
  verify : Nat
  orders : List Nat
  qbits : List Nat
deriving DecidableEq, Repr, Inhabited

/-- A row: its record and its words, point after point, each point's words in position order. -/
structure BRow where
  record : List Byte
  words : List Nat
deriving DecidableEq, Repr, Inhabited

/-- The history of one point and position (R373): rows already coded, and the last two A values and the last B value. -/
structure Hist where
  n : Nat
  x1 : Nat
  x2 : Nat
  b : Nat
deriving DecidableEq, Repr, Inhabited

def Hist.zero : Hist := ⟨0, 0, 0, 0⟩

/-- The A plane's width by type, and its value in the quantised domain (R373). -/
def aWidth (type q : Nat) : Nat := (if type = 2 then 32 else 20) - q
def aValue (type q w : Nat) : Nat := if type = 2 then ux 32 (sx 32 w / (2 ^ q : Nat)) % 2 ^ aWidth type q else ux (aWidth type q) (sx 20 (w / 4096) / (2 ^ q : Nat))
def bValue (w : Nat) : Nat := field w 4 8

/-- Quantisation of a word (R369): the word, and whether it saturated. -/
def quantise (type q w : Nat) : Nat × Bool :=
  if type ≠ 0 ∨ q = 0 then (w, false)
  else
    let v := rneDiv (sx 20 (w / 4096)) (2 ^ q)
    let v1 := satS (20 - q) v
    (ux 20 (v1 * (2 ^ q : Nat)) * 4096 + w % 4096, decide (v1 ≠ v))

/-- The prediction (R373). -/
def predict (order w : Nat) (h : Hist) : Nat :=
  match min order h.n with
  | 0 => 0
  | 1 => h.x1
  | _ => ux w (2 * (h.x1 : Int) - h.x2)

/-- A residual mapped to a natural number, and back. -/
def zigzag (e : Int) : Nat := if 0 ≤ e then (2 * e).toNat else (-2 * e - 1).toNat
def unzigzag (u : Nat) : Int := if u % 2 = 1 then -(((u + 1) / 2 : Nat) : Int) else ((u / 2 : Nat) : Int)

/-- The mapped residual of a value against a prediction, in `w` bits. -/
def residual (w v p : Nat) : Nat := zigzag (sx w (ux w ((v : Int) - p)))

/-- History after a word. -/
def Hist.push (h : Hist) (v b : Nat) : Hist := ⟨h.n + 1, v, h.x1, b⟩

/-! ### Group coding (R374, R375) -/

/-- `n` bits of a number, most significant first. -/
def msbBits (n v : Nat) : List Bool := (List.range n).map (fun k => bit v (n - 1 - k))

def riceLen (cap w k u : Nat) : Nat := if cap ≤ u / 2 ^ k then cap + w else u / 2 ^ k + 1 + k

/-- A Rice code: ordinary, or the escape at the cap (R374). -/
def riceBits (cap w k u : Nat) : List Bool :=
  if cap ≤ u / 2 ^ k then List.replicate cap true ++ msbBits w u else List.replicate (u / 2 ^ k) true ++ false :: msbBits k u

/-- The plane's least code (R375): Rice parameters up to `kmax`, then ZERO, then VERBATIM; a tie goes to the lowest code value. -/
def leastCode (cap w kmax : Nat) (us : List Nat) : Nat :=
  let rice := (List.range (kmax + 1)).map (fun k => (k, (us.map (riceLen cap w k)).sum))
  let zero := if us.all (· == 0) then [(kmax + 1, 0)] else []
  let all := rice ++ zero ++ [(kmax + 2, us.length * w)]
  (all.foldl (fun b e => if e.2 < b.2 then e else b) (all.headD (0, 0))).1

/-- A plane's code field and its codes. -/
def planeBits (cap w kmax kbits : Nat) (us : List Nat) : List Bool :=
  let k := leastCode cap w kmax us
  msbBits kbits k ++ (if k = kmax + 1 then [] else if k = kmax + 2 then us.flatMap (msbBits w) else us.flatMap (riceBits cap w k))

/-- One word position of a group (Table 12.6): words with their histories. -/
def groupBits (type order q : Nat) (ws : List (Nat × Hist)) : List Bool :=
  let w := aWidth type q
  let a := planeBits 24 w 29 5 (ws.map (fun e => residual w (aValue type q e.1) (predict order w e.2)))
  let b := if type = 0 then planeBits 16 8 5 3 (ws.map (fun e => residual 8 (bValue e.1) (if e.2.n = 0 then 0 else e.2.b))) else []
  let f := if type = 2 then []
    else if ws.any (fun e => e.1 % 16 ≠ 0) then true :: ws.flatMap (fun e => msbBits 4 (e.1 % 16)) else [false]
  a ++ b ++ f

/-- Every `k`-th element of a list of points' words: the words of position `j`. -/
def position {α : Type} (l : List α) (w j : Nat) : List α := (l.zipIdx.filter (fun e => e.2 % w == j)).map Prod.fst

/-- Bits into bytes, most significant first, padded with zeros. -/
def packBits : Nat → List Bool → List Byte
  | 0, _ => []
  | n + 1, l =>
    match l with
    | [] => []
    | _ => BitVec.ofNat 8 ((l ++ List.replicate 8 false).take 8 |>.foldl (fun v b => 2 * v + b2n b) 0) :: packBits n (l.drop 8)

def bitsToBytes (l : List Bool) : List Byte := packBits (l.length / 8 + 1) l

/-! ### Blocks and bales (R370 to R372, R376) -/

/-- The groups of a row from group `g0` on, each with its words and histories. -/
def rowGroups (words : Nat) (ws : List (Nat × Hist)) : Nat → List (List (Nat × Hist))
  | 0 => []
  | n + 1 => match ws with
    | [] => []
    | _ => ws.take (16 * words) :: rowGroups words (ws.drop (16 * words)) n

/-- One block over the groups given: its bytes and whether it is RAW. -/
def codedBlock (g : Geom) (c : Coding) (allRaw : Bool) (record : List Byte) (cont : Bool) (g0 : Nat) (cut : Bool) (gs : List (List (Nat × Hist))) :
    List Byte × Bool :=
  let head := if cont then [] else record
  let bits := gs.flatMap (fun ws => (List.range g.words).flatMap (fun j =>
    groupBits (nth g.types j 0) (nth c.orders j 0) (nth c.qbits j 0) (position ws g.words j)))
  let coded := head ++ bitsToBytes bits
  let raw := head ++ gs.flatMap (fun ws => ws.flatMap (fun e => u32 e.1))
  let bad := gs.any (fun ws => ws.zipIdx.any (fun e => nth g.types (e.2 % g.words) 0 == 1 && bValue e.1.1 != 0))
  let isRaw := allRaw || bad || decide (raw.length ≤ coded.length)
  let body := if isRaw then raw else coded
  (u32 (body.length + b2n isRaw * 2 ^ 24 + b2n cont * 2 ^ 25 + b2n cut * 2 ^ 26) ++ u32 g0 ++ u32 gs.length ++ body, isRaw)

/-- The most groups of a row whose block fits into a room, of `n` down. -/
def fitGroups (size : Nat → Nat) (room : Nat) : Nat → Nat
  | 0 => 0
  | n + 1 => if size (n + 1) ≤ room then n + 1 else fitGroups size room n

/-- A bale being formed: its blocks, its original data as quantised and as given, blocks in it, RAW blocks, saturations; how many whole rows it
used up, the group at which the next one begins, and whether space ended it. -/
structure BaleOut where
  body : List Byte
  orig : List Byte
  given : List Byte
  blocks : Nat
  rawBlocks : Nat
  sats : Nat
  rowsDone : Nat
  group : Nat
  full : Bool
deriving DecidableEq, Repr, Inhabited

/-- The rows of a bale in order, from group `g0` of the first, while they fit into `room` bytes (R371, R372, R381). -/
def baleRows (g : Geom) (c : Coding) (allRaw : Bool) : Nat → List Hist → Nat → List BRow → BaleOut → BaleOut
  | _, _, _, [], o => o
  | room, hist, g0, r :: rest, o =>
    let q := (r.words.zipIdx.map (fun e => quantise (nth g.types (e.2 % g.words) 0) (nth c.qbits (e.2 % g.words) 0) e.1))
    let skip := 16 * g0 * g.words
    let mine := (q.map Prod.fst).zip hist
    let gs := rowGroups g.words (mine.drop skip) g.groups
    let total := gs.length
    let cont := decide (0 < g0)
    let size := fun n => (codedBlock g c allRaw r.record cont g0 (decide (n < total)) (gs.take n)).1.length
    let n := fitGroups size room total
    if n = 0 then { o with full := true }
    else
      let cut := decide (n < total)
      let b := codedBlock g c allRaw r.record cont g0 cut (gs.take n)
      let used := ((q.drop skip).take (16 * g.words * n))
      let given := ((r.words.drop skip).take (16 * g.words * n))
      let rec_ := if cont then [] else r.record
      let h1 := (mine.zipIdx.map (fun e =>
        if skip ≤ e.2 && decide (e.2 < skip + 16 * g.words * n) then
          let t := nth g.types (e.2 % g.words) 0
          e.1.2.push (aValue t (nth c.qbits (e.2 % g.words) 0) e.1.1) (bValue e.1.1)
        else e.1.2))
      let o1 : BaleOut := { o with
        body := o.body ++ b.1, orig := o.orig ++ rec_ ++ used.flatMap (fun e => u32 e.1), given := o.given ++ rec_ ++ given.flatMap u32
        blocks := o.blocks + 1, rawBlocks := o.rawBlocks + b2n b.2, sats := o.sats + (used.filter Prod.snd).length
        rowsDone := if cut then o.rowsDone else o.rowsDone + 1, group := if cut then g0 + n else 0, full := cut }
      if cut then o1 else baleRows g c allRaw (room - b.1.length) h1 0 rest o1

/-- The bale header (Table 12.3). -/
def baleHeader (g : Geom) (c : Coding) (verified : Bool) (pre : Nat) (o : BaleOut) (first seq : Nat) : List Byte :=
  let q := (List.range g.words).any (fun j => decide (0 < nth c.qbits j 0))
  let wm := c.verify != 1
  let mark := if wm then crc32c o.orig else 0
  let src := if !wm then 0 else if q then crc32c o.given else mark
  let h := u32 0x454C4142 ++ u8 1 ++ u8 g.source ++ u8 g.line ++ u8 g.words ++
    (List.range 6).flatMap (fun j => u8 (if j < g.words then nth g.types j 0 + 4 * nth c.orders j 0 + 16 * nth c.qbits j 0 else 0)) ++
    u16 (b2n wm + 2 * b2n verified + 4 * b2n q) ++ u8 g.recBytes ++ u8 0 ++ u16 pre ++ u32 g.points ++ u32 o.blocks ++ u32 o.orig.length ++
    u32 (pre + o.body.length) ++ u32 mark ++ u32 src ++ u32 0 ++ u64 first ++ u32 seq
  h ++ u32 (crc32c h)

/-- A bale of rows from group `g0` of the first, in at most `room` bytes; none when not even its first group fits (R382). -/
def makeBale (g : Geom) (c : Coding) (allRaw : Bool) (pre : List Byte) (g0 first seq room : Nat) (rows : List BRow) : Option (List Byte × BaleOut) :=
  if room < 64 + pre.length then none
  else
    let start : BaleOut := ⟨[], pre, pre, 0, 0, 0, 0, 0, false⟩
    let o := baleRows g c allRaw (room - 64 - pre.length) (List.replicate (g.points * g.words) Hist.zero) g0 rows start
    if o.blocks = 0 then none else some (baleHeader g c (c.verify != 0) pre.length o first seq ++ pre ++ o.body, o)

/-! ### Decoding (R377, R383) -/

/-- Read `n` bits. -/
def readBits : Nat → List Bool → Option (Nat × List Bool)
  | 0, l => some (0, l)
  | n + 1, l => match readBits n l with
    | some (v, b :: r) => some (2 * v + b2n b, r)
    | _ => none

/-- The ones before a zero, at most `cap`; the terminating zero is taken. -/
def readUnary : Nat → List Bool → Option (Nat × List Bool)
  | 0, l => some (0, l)
  | _ + 1, [] => none
  | _ + 1, false :: r => some (0, r)
  | n + 1, true :: r => (readUnary n r).map (fun e => (e.1 + 1, e.2))

/-- One code of a plane. -/
def readCode (cap w kmax k : Nat) (l : List Bool) : Option (Nat × List Bool) :=
  if k = kmax + 1 then some (0, l)
  else if k = kmax + 2 then readBits w l
  else match readUnary cap l with
    | none => none
    | some (q, r) => if q = cap then readBits w r else (readBits k r).map (fun e => (q * 2 ^ k + e.1, e.2))

def readMany (f : List Bool → Option (Nat × List Bool)) : Nat → List Bool → Option (List Nat × List Bool)
  | 0, l => some ([], l)
  | n + 1, l => match f l with
    | none => none
    | some (v, r) => (readMany f n r).map (fun e => (v :: e.1, e.2))

/-- One word position of a group: the words, and the bits left. -/
def readGroup (type order q : Nat) (hs : List Hist) (l : List Bool) : Option (List Nat × List Bool) :=
  let w := aWidth type q
  let m := hs.length
  match readBits 5 l with
  | none => none
  | some (ka, l1) => match readMany (readCode 24 w 29 ka) m l1 with
    | none => none
    | some (ua, l2) =>
      let va := List.zipWith (fun u (h : Hist) => ux w ((predict order w h : Int) + unzigzag u)) ua hs
      if type = 2 then some (va, l2)
      else
        let bs := if type = 0 then
            match readBits 3 l2 with
            | none => none
            | some (kb, l3) => (readMany (readCode 16 8 5 kb) m l3).map (fun e =>
                (List.zipWith (fun u (h : Hist) => ux 8 (((if h.n = 0 then 0 else h.b : Nat) : Int) + unzigzag u)) e.1 hs, e.2))
          else some (List.replicate m 0, l2)
        match bs with
        | none => none
        | some (vb, l4) => match readBits 1 l4 with
          | none => none
          | some (fp, l5) => (if fp = 1 then readMany (readBits 4) m l5 else some (List.replicate m 0, l5)).map (fun e =>
              ((va.zip (vb.zip e.1)).map (fun x => ux 20 (sx w x.1 * (2 ^ q : Nat)) * 4096 + x.2.1 * 16 + x.2.2), e.2))

/-- The word positions of a group in turn. -/
def readPositions (types orders qbits : List Nat) (hs : List Hist) (W : Nat) : List Nat → List Bool → Option (List (List Nat) × List Bool)
  | [], l => some ([], l)
  | j :: rest, l =>
    match readGroup (nth types j 0) (nth orders j 0) (nth qbits j 0) (position hs W j) l with
    | none => none
    | some (ws, r) => (readPositions types orders qbits hs W rest r).map (fun e => (ws :: e.1, e.2))

/-- Point-major order of the words of a group's positions. -/
def interleave (cols : List (List Nat)) (m : Nat) : List Nat := (List.range m).flatMap (fun k => cols.map (fun c => nth c k 0))

/-- A coded block's groups: the words, one list for each group. -/
def readGroups (types orders qbits : List Nat) (W : Nat) : List (List Hist) → List Bool → Option (List (List Nat) × List Bool)
  | [], l => some ([], l)
  | hs :: rest, l =>
    match readPositions types orders qbits hs W (List.range W) l with
    | none => none
    | some (cols, r) => (readGroups types orders qbits W rest r).map (fun e => (interleave cols (hs.length / max 1 W) :: e.1, e.2))

def bytesToBits (l : List Byte) : List Bool := l.flatMap (fun b => msbBits 8 b.toNat)

/-- A header as the decoder takes it. -/
structure BaleHead where
  types : List Nat
  orders : List Nat
  qbits : List Nat
  flags : Nat
  recBytes : Nat
  pre : Nat
  points : Nat
  rows : Nat
  origBytes : Nat
  payload : Nat
  watermark : Nat
deriving DecidableEq, Repr, Inhabited

/-- The header's checks (R377), and that it names types, orders and sizes the format has. -/
def readBaleHead (b : List Byte) : Option BaleHead :=
  let words := rd b 7 1
  let desc := (List.range 6).map (fun j => rd b (8 + j) 1)
  let h : BaleHead := ⟨(desc.take words).map (· % 4), (desc.take words).map (fun d => d / 4 % 4), (desc.take words).map (· / 16), rd b 14 2, rd b 16 1,
    rd b 18 2, rd b 20 4, rd b 24 4, rd b 28 4, rd b 32 4, rd b 36 4⟩
  let ok := decide (64 ≤ b.length) && rd b 0 4 == 0x454C4142 && rd b 4 1 == 1 && rd b 60 4 == crc32c (b.take 60) && rd b 17 1 == 0 && rd b 44 4 == 0 &&
    decide (h.flags < 8) && (desc.drop words).all (· == 0) && decide (1 ≤ words) && decide (words ≤ 6) && h.types.all (fun t => decide (t ≤ 2)) &&
    h.orders.all (fun t => decide (t ≤ 2)) && h.qbits.all (fun t => decide (t ≤ 8)) && decide (1 ≤ h.points) && decide (h.points ≤ 524288)
  if ok then some h else none

/-- One block decoded: its original data by group, the record first, the length in the bale, the group range's history updated. -/
structure BlockOut where
  record : List Byte
  groups : List (List Nat)
  size : Nat
  hist : List Hist
deriving DecidableEq, Repr, Inhabited

/-- Decode the block at the head of `b`, none when R377 rejects it. -/
def readBlockOf (h : BaleHead) (hist : List Hist) (b : List Byte) : Option BlockOut :=
  let W := h.types.length
  let bw := rd b 0 4
  let len := bw % 2 ^ 24
  let g0 := rd b 4 4
  let gc := rd b 8 4
  let body := (b.drop 12).take len
  let cont := bit bw 25
  let r := if cont then 0 else h.recBytes
  let lo := 16 * g0 * W
  let n := (min h.points (16 * (g0 + gc)) - 16 * g0) * W
  if b.length < 12 + len || 2 ^ 27 ≤ bw || h.points < 16 * g0 || gc = 0 || ceilDiv h.points 16 < g0 + gc || len < r then none
  else
    let hs := (hist.drop lo).take n
    let data := body.drop r
    let groups := if bit bw 24 then
        if data.length = 4 * n then some ((List.range gc).map (fun k => ((List.range (16 * W)).filterMap (fun i =>
          if 16 * W * k + i < n then some (rd data (4 * (16 * W * k + i)) 4) else none)))) else none
      else
        let lists := (List.range gc).map (fun k => (hs.drop (16 * W * k)).take (16 * W))
        match readGroups h.types h.orders h.qbits W lists (bytesToBits data) with
        | none => none
        | some (gs, rest) => if rest.length < 8 && !rest.any id then some gs else none
    groups.map (fun gs =>
      let words := gs.flatten
      let upd_ := (words.zip hs).zipIdx.map (fun e =>
        let j := e.2 % W
        e.1.2.push (aValue (nth h.types j 0) (nth h.qbits j 0) e.1.1) (bValue e.1.1))
      ⟨body.take r, gs, 12 + len, hist.take lo ++ upd_ ++ hist.drop (lo + n)⟩)

/-- Every block of a bale in order. -/
def readBlocks (h : BaleHead) : Nat → List Hist → List Byte → Option (List BlockOut)
  | 0, _, _ => some []
  | n + 1, hist, b =>
    match readBlockOf h hist b with
    | none => none
    | some x => (readBlocks h n x.hist (b.drop x.size)).map (x :: ·)

def BlockOut.bytes (x : BlockOut) : List Byte := x.record ++ x.groups.flatten.flatMap u32

/-- A whole bale at the head of `b`: its header and blocks, none when R377 rejects it. -/
def readBale (b : List Byte) : Option (BaleHead × List BlockOut) :=
  match readBaleHead b with
  | none => none
  | some h =>
    let pay := (b.drop 64).take h.payload
    if pay.length < h.payload || h.payload < h.pre then none
    else match readBlocks h h.rows (List.replicate (h.points * h.types.length) Hist.zero) (pay.drop h.pre) with
      | none => none
      | some l => if h.pre + (l.map (fun x => x.bytes.length)).sum = h.origBytes then some (h, l) else none

end Sys2Proof.Machine
end

