-- ==== Sys2Proof/Machine/StateBale.lean ====
section
/-! DEFINITION. The state of the compression engine (chapter *Compression and the Bale Format*). -/

namespace Sys2Proof.Machine

/-- A profile (Table 12.8), retained. -/
structure Profile where
  coding : Coding
  rows : Nat
deriving DecidableEq, Repr, Inhabited

/-- A quantisation is admitted at word position `j` of a bale source (Table 12.1). -/
def quantAdmitted (source : Nat) (types : List Nat) (j : Nat) : Bool :=
  match source with
  | 0 => decide (j < types.length) && nth types j 0 == 0
  | 1 => j == 0
  | 2 => j == 0
  | 3 => j == 0
  | _ => false

/-- A profile's quantisation is admitted at every position (R385). -/
def Profile.quantOk (p : Profile) (source : Nat) (types : List Nat) : Bool :=
  (List.range 6).all (fun j => nth p.coding.qbits j 0 == 0 || quantAdmitted source types j)

/-- A profile may be used on a geometry's word types and source (R385). -/
def Profile.fits (p : Profile) (source : Nat) (types : List Nat) : Bool :=
  p.quantOk source types && (source != 1 || p.rows % 32 == 0)

/-- The coding of a bale under a profile. A profile replaced while in use may name a quantisation that the bale's source does not admit; none is
made there (DESIGN CHOICE, R385). -/
def Profile.codingFor (p : Profile) (g : Geom) : Coding :=
  { p.coding with qbits := p.coding.qbits.zipIdx.map (fun e => if quantAdmitted g.source g.types e.2 then e.1 else 0) }

/-- A host job and its bale context (R381, R386): what `bale.run` declared, the output space in hand (`outPos` bytes of it written), the place
in the input (the next row and point group of an encode; for a decode the input offset of the bale in hand and how many of its blocks are done),
the bytes consumed and produced, the SEQ of the next bale, the status with which it ends once that is known, and whether it is stopped for
space. `op` is the opcode of the command that is pending for it. -/
structure BaleJob where
  id : Nat
  op : Nat
  mb : Nat
  cmdSeq : Nat
  decode : Bool
  profile : Nat
  geom : Geom
  rows : Nat
  pre : Nat
  input : Nat
  inLen : Nat
  out : Nat
  outLen : Nat
  outPos : Nat
  row : Nat
  group : Nat
  baleAt : Nat
  blocks : Nat
  consumed : Nat
  produced : Nat
  seq : Nat
  result : Option Nat
  stopped : Bool
deriving DecidableEq, Repr, Inhabited

structure BaleRun where
  jobs : List BaleJob
  bales : Nat
  rawBlocks : Nat
  verifyFails : Nat
  noSpace : Nat
  saturated : Nat
  inBytes : Nat
  outBytes : Nat
deriving DecidableEq, Repr, Inhabited

def BaleRun.reset : BaleRun := ⟨[], 0, 0, 0, 0, 0, 0, 0⟩

end Sys2Proof.Machine
end

