-- ==== Sys2Proof/Machine/StateFelt.lean ====
section
/-! DEFINITION. The state of the felt and of the slow-time processing (chapter *The Felt and Slow-Time Processing*). -/

namespace Sys2Proof.Machine

/-- A row of the felt: its felt sheet number, the launch instant, the sheet record, the point samples the engine wrote and whether they
stand in the 16-bit format (R182), and what it does to the chains: 0 nothing, 1 restart, 2 restart with the integrated phase zeroed
(R188). What its consumers read is `FeltRow.words` (R183). -/
structure FeltRow where
  fsn : Nat
  tick : Nat
  record : List Byte
  samples : List (BitVec 32)
  half : Bool
  chain : Nat
deriving DecidableEq, Repr, Inhabited

/-- A hold on a range of felt sheet numbers, placed for a capture (section 6.3). -/
structure Hold where
  capture : Nat
  lo : Nat
  hi : Nat
  broken : Bool
deriving DecidableEq, Repr, Inhabited

/-- A line's ring (R178 to R185): what it was formatted for, whether the line has started since restore (R179), the FSN of the next sheet,
the oldest FSN held, the quire begun last. -/
structure FeltRing where
  formatted : Bool
  started : Bool
  points : Nat
  decode : Nat
  ns : Nat
  fsn : Nat
  oldest : Nat
  begun : Option Nat
  rows : List FeltRow
  readers : List (Option Nat)
  holds : List Hold
  clips : Nat
  holdsBroken : Nat
deriving DecidableEq, Repr, Inhabited

def FeltRing.reset : FeltRing := ⟨false, false, 0, 0, 0, 0, 0, none, [], List.replicate 16 none, [], 0, 0⟩

/-- One band of `slow.config` (Table 6.14). -/
structure BandCfg where
  tap : Nat
  coefs : List Int
deriving DecidableEq, Repr, Inhabited

/-- The settings of `slow.config` and the started state (R206), retained. -/
structure SlowCfg where
  fast : Bool
  k : Nat
  fsh : Nat
  shifts : List Nat
  sec : Nat
  bands : List BandCfg
  started : Bool
deriving DecidableEq, Repr, Inhabited

def SlowCfg.factory : SlowCfg := ⟨false, 2, 0, [1, 1, 0, 0, 0, 0, 0, 0, 0, 0], 0, [], true⟩

/-- The weight and format of a line (Table 6.10), retained. -/
structure FeltCfg where
  parts : Nat
  half : Bool
deriving DecidableEq, Repr, Inhabited

/-- One second-order section's history: in[n−1], in[n−2], y[n−1], y[n−2]. -/
structure SecState where
  x1 : Int
  x2 : Int
  y1 : Int
  y2 : Int
deriving DecidableEq, Repr, Inhabited

structure BandState where
  secs : List SecState
  eacc : Nat
deriving DecidableEq, Repr, Inhabited

/-- The slow-time state record of a point (Table 6.8). -/
structure ChainPt where
  settleLeft : Nat
  anyValid : Bool
  anyInvalid : Bool
  clipped : Bool
  splice : Bool
  settling : Bool
  phase : Nat
  qmin : Nat
  iacc : Int
  box : Int
  odd : List (List Int)
  even : List (List Int)
  bands : List BandState
deriving DecidableEq, Repr, Inhabited

/-- A slow sheet (R197): the sheet record and the output samples, with the points that made them. `fsn` and `tick` are those of the
interval's last input; `zeroed` says that it is the first after the integrated phase was zeroed for every point, `zeroedPts` for which
single points (R246). -/
structure SlowSheet where
  zeroed : Bool
  zeroedPts : List Nat
  pts : List Nat
  fsn : Nat
  /-- its number since the line's last chain restart (R370) -/
  number : Nat
  tick : Nat
  record : List Byte
  outs : List (List (BitVec 32))
deriving DecidableEq, Repr, Inhabited

/-- A complete quire whose processing is not yet released: when it was complete, the greatest chain mark of its rows, and the stamps of its
first and last sheet. -/
structure QuireJob where
  quire : Nat
  completeAt : Nat
  mark : Nat
  first : BitVec 96
  last : BitVec 96
deriving DecidableEq, Repr, Inhabited

/-- The slow-time processing of a line. `markNext` restarts the chains at the first row of the next quire begun: 0 none, 1 or 2 as in
`FeltRow.chain`; `chainFor` restarts them at the next quire processed, after a lost one. `old` are the settings that quires begun before a
`slow.config` took effect are processed under, each with the first quire it no longer holds for (R207). `lineStop` is the cause and
discards of a line stop to be reported (R205). -/
structure SlowRun where
  chains : List ChainPt
  old : List (Nat × SlowCfg)
  chainFor : Nat
  markNext : Nat
  restartAtNext : Nat
  queue : List QuireJob
  lineStop : Option (Nat × Nat)
  /-- the integrated phase was zeroed, for all points or for single ones, since the last slow sheet -/
  zeroed : Bool
  zeroedPts : List Nat
  /-- slow sheets released since the line's last chain restart (R370) -/
  count : Nat
  /-- the released slow sheets whose trigger evaluation is still to come -/
  forTriggers : List SlowSheet
  quires : Nat
  overruns : Nat
  saturations : Nat
  stateErrors : Nat
  lagUs : Nat
deriving DecidableEq, Repr, Inhabited

def SlowRun.reset : SlowRun := ⟨[], [], 0, 0, 0, [], none, false, [], 0, [], 0, 0, 0, 0, 0⟩

end Sys2Proof.Machine
end

