-- ==== Sys2Proof/Machine/StatePlan.lean ====
section
/-! DEFINITION. The state of plans, probes, gates and the grid (chapters *Position, Time and Units* and *Plans, Shot
Scheduling and Probe Synthesis*). -/

namespace Sys2Proof.Machine

/-- One tone entry of a plan (Table 2.1). -/
structure Tone where
  stagger : Nat
  /-- 0 single pulse, 1 chirp, 2 coded -/
  cls : Nat
  channel : Nat
  slotA : Nat
  slotB : Nat
  width : Nat
  amp : Nat
deriving DecidableEq, Repr, Inhabited

/-- A plan (Table 2.1, R38). -/
structure Plan where
  line : Nat
  probe : Nat
  decim : Nat
  period : Nat
  offset : Nat
  first : Nat
  last : Nat
  blanket : Nat
  pitch : Nat
  thermMode : Nat
  gauge : Nat
  riseFd : Nat
  fallFd : Nat
  thermN : Nat
  thermSlot : Nat
  thermCh : Nat
  thermStagger : Nat
  thermWidth : Nat
  thermAmp : Nat
  tones : List Tone
deriving DecidableEq, Repr, Inhabited

/-- A probe's settings (Table 2.13): SKEW in DAC samples, GUARD in cells, idle codes. -/
structure ProbeCfg where
  skew : Int
  guard : Nat
  idleI : Int
  idleQ : Int
deriving DecidableEq, Repr, Inhabited

/-- A waveform slot (section 2.5): its state is 0 empty, 1 loading, 2 complete. -/
structure Slot where
  base : Nat
  length : Nat
  bandwidth : Nat
  st : Nat
deriving DecidableEq, Repr, Inhabited

/-- The duty limiter's bounds of one gate (R59): DUTY in 0.1 %, pulse width in cells. -/
structure GateLimit where
  duty : Nat
  maxWidth : Nat
deriving DecidableEq, Repr, Inhabited

/-- The settings of `line.config` (Table 5.10), retained. -/
structure LineCfg where
  pnc : Bool
  pol : Nat
  qMin : Nat
  refOffset : Int
  offsetTc : Nat
  recover : Nat
  endDb : Nat
  endTol : Nat
deriving DecidableEq, Repr, Inhabited

def LineCfg.factory : LineCfg := ⟨true, 0, 64, 0, 8, 4, 10, 32⟩

/-- What a launch is: a tone's, a thermal launch, or a spot shot of a tone. -/
inductive LaunchKind where
  | tone (t : Nat)
  | thermal
  | spot (t : Nat)
deriving DecidableEq, Repr, Inhabited

/-- A launch of a line: its instant, the second and index of its sheet (R20), what it launched, the coded position
(R52), whether emission was forbidden or the gate truncated or suppressed it (R58, R61), the settings bound to it at
launch (R19), and whether a line restart, a gain step or a spare mark falls on it. -/
structure Launch where
  tick : Nat
  second : Nat
  index : Nat
  kind : LaunchKind
  code : Nat
  dark : Bool
  cut : Bool
  engine : Nat
  plan : Plan
  cfg : LineCfg
  restart : Bool
  gainStep : Bool
  spared : Bool
  /-- CLIP-flagged words of each input in the deckle outside the blanket so far (R93); none left once a thermal launch is closed -/
  clips : List Nat
  /-- the converters that served XI, XQ, YI, YQ, II and IQ at launch (R118) -/
  convs : List Nat
  /-- the instant at which the gate closes for this launch, 0 when it did not open -/
  gateUntil : Nat
deriving DecidableEq, Repr, Inhabited

/-- One gate: since when it is open (none at the inactive level), until when it stays open, the on-times of the last
millisecond for the duty window as (start, stop), and the truncations still to be reported, each with its instant and the
on-time reached in cells (R57). -/
structure Gate where
  openSince : Option Nat
  openUntil : Nat
  onTimes : List (Nat × Nat)
  truncs : List (Nat × Nat)
deriving DecidableEq, Repr, Inhabited

/-- A probe's DAC: what it plays, none for the idle code, and until when; the idle code in force. -/
structure ProbeRun where
  playing : Option (Nat × Nat)
  playUntil : Nat
deriving DecidableEq, Repr, Inhabited

/-- The emission interlock (R60, R569): the level at the ball, the first fall of the present inhibition, and the start
of the qualification now running. -/
structure Emit where
  level : Bool
  inhibitedSince : Option Nat
  qualifyFrom : Option Nat
  /-- inhibitions that have ended, newest first: from the first fall to the end of qualification -/
  past : List (Nat × Nat)
deriving DecidableEq, Repr, Inhabited

/-- A line's place on its grid: staged plan, anchor of an unaligned plan (its boundary tick), counters of Table 2.18,
the pending spot shot (instant, tone) and the launches that are in flight or latest. -/
structure LineGrid where
  staged : Option Plan
  anchor : Nat
  planFrom : Nat
  truncated : Nat
  suppressed : Nat
  inhibited : Nat
  spot : Option (Nat × Nat)
  /-- grid launches by instant, second and sheet index, newest first: the latest, and those of the 2^21 cells before it, which late stamps
  name (R24) -/
  launches : List (Nat × Nat × Nat)
  inFlight : List Launch
  /-- a probe change whose settling is still running (R66) -/
  settling : Bool
  /-- when the line's engine, gated in P1 without a plan in effect, is powered again (R496, Table 16.7) -/
  awakeAt : Nat
  /-- the apply-at of the spot shot that waits, and whether R296's deferral applies to it -/
  spotAt : Option Nat × Bool
deriving DecidableEq, Repr, Inhabited

/-- The line's latest grid launch. -/
def LineGrid.lastLaunch (g : LineGrid) : Option (Nat × Nat × Nat) := g.launches.head?

/-- A grid launch joins those kept. -/
def LineGrid.record (g : LineGrid) (tick second index : Nat) : LineGrid :=
  { g with launches := (tick, second, index) :: g.launches.filter (fun e => decide (tick < e.1 + 2 ^ 21 * ticksPerCell)) }

end Sys2Proof.Machine
end

