-- ==== Sys2Proof/Machine/StateLine.lean ====
section
/-! DEFINITION. The state of the line engines (chapter *Line Engines*). -/

namespace Sys2Proof.Machine

/-- A point-state entry (Table 5.7); O and A as signed 20-bit angles. -/
structure PtEntry where
  o : Int
  a : Int
  seq : Nat
  init : Bool
  fresh : Bool
  faded : Bool
  run : Nat
deriving DecidableEq, Repr, Inhabited

/-- An entry as a line restart leaves it (R155). -/
def PtEntry.restarted : PtEntry := ⟨0, 0, 0, false, true, false, 0⟩

/-- A coded group in hand (R146): the tone, the position expected next, the signed sums of both polarisations at the later and the
earlier operand cells, the points flagged invalid or clipped by any launch so far, and what the record will carry. -/
structure Group where
  tone : Nat
  next : Nat
  sums : List (List Cx)
  invalid : List Bool
  clipped : List Bool
  dark : Bool
  failed : Bool
  gainStep : Bool
  spared : Bool
  weak : Nat
deriving DecidableEq, Repr, Inhabited

/-- A line stop in progress (R167): form, boundary, command. -/
structure StopRun where
  immediate : Bool
  at_ : Nat
  discarded : Nat
deriving DecidableEq, Repr, Inhabited

/-- A line's run state (Table 5.14) and what its engine keeps. -/
structure LineRun where
  /-- 0 stopped, 1 start pending, 2 running, 3 stop pending -/
  st : Nat
  /-- the instant from which a pending start seeks its first launch (R166) -/
  from_ : Nat
  /-- the engine that serves the line; 0xFF failed without spare (R133, R170) -/
  engine : Nat
  stop : Option StopRun
  /-- the next launch is the first of a line restart; carries GAIN_STEP; carries SPARED -/
  restartNext : Bool
  gainNext : Bool
  sparedNext : Bool
  /-- sheets launched before this instant are of a faulty engine (R168) -/
  unreliableBefore : Option Nat
  /-- the engine passed its test and awaits the line's return (R169) -/
  returnDue : Bool
  points : List (Nat × PtEntry)
  seq : Nat
  groups : List Group
  eRef : Option Nat
  /-- E of the last non-DARK point-producing sheet, and its index, while a pair could still form (R164) -/
  lastE : Option (Nat × Nat)
  deviating : Bool
  sheets : Nat
  invalidSamples : Nat
  clippedSamples : Nat
  splices : Nat
  refWeak : Nat
  stateErrors : Nat
  discarded : Nat
  saturations : Nat
  /-- the windows of lane words, as first and last tick, whose saturations are counted, newest first (R134) -/
  counted : List (Nat × Nat)
  /-- the latest sheet record, for the live mirror of the identity page (R469) -/
  lastRecord : List Byte
deriving DecidableEq, Repr, Inhabited

def LineRun.reset (l : Nat) : LineRun where
  st := 0
  from_ := 0
  engine := l
  stop := none
  restartNext := false
  gainNext := false
  sparedNext := false
  unreliableBefore := none
  returnDue := false
  points := []
  seq := 0
  groups := []
  eRef := none
  lastE := none
  deviating := false
  sheets := 0
  invalidSamples := 0
  clippedSamples := 0
  splices := 0
  refWeak := 0
  stateErrors := 0
  discarded := 0
  saturations := 0
  counted := []
  lastRecord := []

/-- A reference path of stage 2 (R137), formed from the words of one converter for II and one for IQ (R118): its running values and the cells it has
formed, newest first, by sampling instant. -/
structure RefPath where
  ii : Nat
  iq : Nat
  run : RefRun
  hist : List (Nat × RefCell)
deriving DecidableEq, Repr, Inhabited

end Sys2Proof.Machine
end

