-- ==== Sys2Proof/Machine/StateLink.lean ====
section
/-! DEFINITION. The state of the command interface, the event queue, the DMA contexts, streams and host links
(chapters *Mailboxes and the Dravond Command Set* and *DMA Contexts, Streams and Host Links*). -/

namespace Sys2Proof.Machine

/-- One mailbox: the control block of Table 15.1, its two areas (R450), and what R452 and R456 keep. -/
structure Mailbox where
  /-- 0 idle, 1 busy, 2 done, 3 not ready -/
  st : Nat
  done : Bool
  cmdAddr : BitVec 64
  rspAddr : BitVec 64
  vector : Nat
  irqEn : Bool
  /-- a doorbell is held (R452) -/
  held : Bool
  /-- LAST_SEQ; none after release from reset, where it is undefined and every sequence is new (R456) -/
  lastSeq : Option Nat
  /-- the stored copy of the last response (R456) -/
  stored : List Byte
  cmdArea : List (Nat × Byte)
  rspArea : List (Nat × Byte)
  ignored : Nat
deriving DecidableEq, Repr, Inhabited

/-- A command answered ST_PENDING, waiting for its effect (R460). `units` are the lines, gates or other units at which
it has still to take effect; `data` is the payload as accepted. -/
structure Pend where
  op : Nat
  mb : Nat
  seq : Nat
  accepted : Nat
  /-- the tick its apply-at names, none for zero -/
  applyAt : Option Nat
  /-- the effective instant when it is already fixed -/
  due : Option Nat
  units : List Nat
  data : List Byte
deriving DecidableEq, Repr, Inhabited

/-- An event record (Table 15.8), with the instant its stamp names, the instant its hold ends, and its coalescing key. -/
structure EvRec where
  code : Nat
  sev : Nat
  src : Nat
  stamp : BitVec 96
  inst : Nat
  due : Nat
  count : Nat
  args : List Byte
  /-- none: never coalesced; otherwise the further key that the chapter names (R466) -/
  key : Option (List Nat)
deriving DecidableEq, Repr, Inhabited

/-- The event queue (R465 to R467). -/
structure EvQueue where
  held : List EvRec
  /-- the latest instant of a record already released -/
  lastReleased : Option Nat
  /-- lost events by severity, waiting for space to be reported -/
  lost : List Nat
  eventsLost : Nat
  late : Nat
  /-- records in the on-die buffer of P2 (R498) -/
  p2buf : List EvRec
deriving DecidableEq, Repr, Inhabited

/-- What the device emitted to the outside during the latest step. -/
inductive Out where
  | hostWrite (addr : Nat) (data : List Byte)
  | hostPoisoned (addr : Nat) (data : List Byte)
  | msix (vector addr data : Nat)
  | ethFrame (port : Nat) (session : Nat) (counter : Nat) (data : List Byte)
  | udpPacket (port : Nat) (ctx : Nat) (data : List Byte)
  | arpReply (port : Nat) (ip : BitVec 32)
  | trailFrame (port : Nat) (inst : Nat) (bytes : List Byte)
  | ptpDelayReq (port seq inst : Nat)
  | busRead (data : List Byte) (poisoned : Bool)
  | zspBits (bits : List Bool)
  | smbAlert (address : Nat)
  | jtag (data : BitVec 32)
  | gatePulse (gate riseTick riseFd fallTick fallFd : Nat)
  | dacPlay (probe startSample : Nat) (codes : List (Int × Int))
deriving DecidableEq, Repr, Inhabited

/-- A host DMA descriptor (Table 14.3). -/
structure Desc where
  addr : Nat
  hostAddr : Nat
  devAddr : Nat
  length : Nat
  seq : Nat
  flags : Nat
  next : Nat
deriving DecidableEq, Repr, Inhabited

/-- The settings `dma.config` writes (Table 14.14). -/
structure CtxCfg where
  kind : Nat
  vector : Nat
  flags : Nat
  widths : Nat
  port : Nat
  share : Nat
  head : Nat
  wbAddr : Nat
  burst : Nat
  dstMac : Nat
  dstUdp : Nat
  dstIp : Nat
  dscp : Nat
deriving DecidableEq, Repr, Inhabited

/-- One DMA context: its register block (Table 14.2), its settings and its counters (Table 14.17). -/
structure Ctx where
  cfg : CtxCfg
  configured : Bool
  postedIdx : Nat
  postedWrap : Bool
  doneIdx : Nat
  doneWrap : Bool
  /-- 0 idle, 1 running, 2 waiting, 3 rate-limited, 4 halted, 5 detaching -/
  st : Nat
  cause : Nat
  failAddr : Nat
  failDesc : Nat
  failWrite : Bool
  failDev : Bool
  stream : Option Nat
  /-- the address the next descriptor is fetched from, and the sequence it must carry (R418) -/
  fetchAddr : Nat
  expectSeq : Nat
  /-- END was met: the next posting starts a new chain from HEAD (R419) -/
  ended : Bool
  /-- the descriptor next completed is skipped (R428) -/
  skip : Bool
  /-- the token bucket, in 2^-22 byte -/
  tokens : Nat
  /-- the instant of the last token refill -/
  tokensAt : Nat
  bytes : Nat
  descriptors : Nat
  halts : Nat
  records : Nat
  aborted : Nat
  itemsLost : Nat
  narrowed : Nat
  poisoned : Nat
deriving DecidableEq, Repr, Inhabited

/-- A stream definition (Table 14.16), retained. -/
structure StreamDef where
  source : Nat
  line : Nat
  reader : Nat
  profile : Nat
  flags : Nat
  itemsMax : Nat
  flushUs : Nat
deriving DecidableEq, Repr, Inhabited

/-- One item of a stream: its bytes, its stamp, the instant that stamp names, its line, and the number that identifies
it at its source (a frame sequence, a record index). -/
structure Item where
  bytes : List Byte
  stamp : BitVec 96
  inst : Nat
  line : Nat
  ident : Nat
  /-- items lost here instead (R439): the cause, how many, and the last stamp -/
  lost : Option (Nat × Nat × BitVec 96)
deriving DecidableEq, Repr, Inhabited

/-- A closed record: its KIND, its bytes with header and padding, and its items, each with the offset at which its last byte ends. -/
structure Closed where
  kind : Nat
  bytes : List Byte
  ends : List (Nat × Item)
deriving DecidableEq, Repr, Inhabited

/-- What one stream has in hand while it is attached. -/
structure StreamRun where
  ctx : Nat
  recSeq : Nat
  pktSeq : Nat
  /-- items produced and not yet in a closed record, each with the instant it came -/
  waiting : List (Nat × Item)
  /-- closed records not yet wholly moved, and the bytes of the first that have moved -/
  closed : List Closed
  headOff : Nat
  /-- the instant the latest record was closed -/
  lastReady : Nat
  /-- a detach in progress: 0 drain, 1 immediate; and the END record is closed -/
  detach : Option Nat
  ended : Bool
  discarded : Nat
  /-- the bale context (R381): SEQ of the next bale, the row within the first waiting record and the point group at which it begins, and
  whether it is suspended for space -/
  baleSeq : Nat
  baleRow : Nat
  baleGroup : Nat
  suspended : Bool
deriving DecidableEq, Repr, Inhabited

/-- An Ethernet port's settings (Table 14.15), retained. -/
structure PortCfg where
  flags : Nat
  fec : Nat
  mtu : Nat
  tag : Nat
  mac : Nat
  cmdUdp : Nat
  ip : Nat
  netmask : Nat
  gateway : Nat
deriving DecidableEq, Repr, Inhabited

/-- An Ethernet port's link, its PAUSE hold and its counters. -/
structure PortRun where
  up : Bool
  pausedUntil : Nat
  framesTx : Nat
  framesRx : Nat
  droppedRx : Nat
  fcsErrors : Nat
  authFails : Nat
  pauseRx : Nat
deriving DecidableEq, Repr, Inhabited

/-- One MSI-X vector: its moderation register (Table 14.7), the pending causes with their instants, whether a halt is
among them, and when the last message left. -/
structure Vector where
  maxDelay : Nat
  count : Nat
  minGap : Nat
  causes : List Nat
  haltPending : Bool
  lastSent : Option Nat
  /-- the vector's MSI-X table entry: message address, message data, mask bit -/
  addr : Nat
  data : Nat
  masked : Bool
deriving DecidableEq, Repr, Inhabited

/-- The PCIe side: link, window base (R434), write-denial count, completion timeout is retained elsewhere. -/
structure Pcie where
  up : Bool
  speed : Nat
  width : Nat
  winBase : Nat
  winDenied : Nat
deriving DecidableEq, Repr, Inhabited

end Sys2Proof.Machine
end

