-- ==== Sys2Proof/Machine/StateMem.lean ====
section
/-! DEFINITION. The state of the DRAM controller (chapter *DRAM Subsystem*). -/

namespace Sys2Proof.Machine

/-- The settings of `mem.config` (Table 13.9), retained. `targets` are those of the ports TILE, SYS, CAP and HOST in µs. -/
structure MemCfg where
  mask : Nat
  idleSr : Bool
  idleSrUs : Nat
  scrubH : Nat
  targets : List Nat
deriving DecidableEq, Repr, Inhabited

def MemCfg.factory : MemCfg := ⟨0x0F, true, 20, 24, [4, 4, 50, 20]⟩

/-- A row of a channel (R400). -/
structure RowAt where
  channel : Nat
  rank : Nat
  sub : Nat
  bank : Nat
  row : Nat
deriving DecidableEq, Repr, Inhabited

/-- A remap of a row to a spare (R400): testing until its test is done, then permanent or freed. -/
structure Remap where
  spare : Nat
  at_ : RowAt
  permanent : Bool
  since : Nat
deriving DecidableEq, Repr, Inhabited

/-- A channel: its state (0 active, 1 self-refresh, 2 excluded, 3 lost) and the counters of Table 13.11. -/
structure ChanRun where
  st : Nat
  cached : Bool
  refreshRate : Nat
  corrected : Nat
  uncorrectable : Nat
  poisonReads : Nat
  lostWrites : Nat
  srEntries : Nat
  srWaits : Nat
  retrains : Nat
  maxLatency : Nat
  /-- the instant of the last request, and the idle time in µs that its settings give before self-refresh (R408, R413) -/
  lastReq : Nat
  srAfter : Option Nat
  /-- a full retraining runs since -/
  retraining : Option Nat
  /-- the next block of the channel's data region that scrubbing reads -/
  scrubPos : Nat
  /-- per-bank refreshes issued, by bank -/
  refreshes : List Nat
deriving DecidableEq, Repr, Inhabited

def ChanRun.reset : ChanRun := ⟨0, false, 1, 0, 0, 0, 0, 0, 0, 0, 0, 0, none, none, 0, List.replicate 16 0⟩

/-- The controller. `blocks` says of each 64-byte block of device addresses 0 sound, 1 uncorrectable, 2 poisoned (R395, R397). -/
structure MemRun where
  chans : List ChanRun
  late : List Nat
  blocks : List (Nat × Nat)
  remaps : List Remap
  /-- rows whose test is due, in order -/
  rowsDue : List RowAt
  /-- transients counted against rows, with the elapsed second of each (R400, R513) -/
  rowTransients : List (RowAt × Nat)
  /-- DRAM completed training on every channel of the mask (R411) -/
  available : Bool
  /-- the training cache in NOR is valid; FORCE_FULL_TRAIN is set for the next boot (R390) -/
  cacheValid : Bool
  forceFull : Bool
  /-- the settings that requests accepted before an instant have, newest first (R413) -/
  past : List (Nat × MemCfg)
deriving DecidableEq, Repr, Inhabited

def MemRun.reset : MemRun := ⟨List.replicate 4 ChanRun.reset, [0, 0, 0, 0, 0], [], [], [], [], false, false, false, []⟩

end Sys2Proof.Machine
end

