-- ==== Sys2Proof/Machine/StateSys.lean ====
section
/-! DEFINITION. The state of security, debug, power, health, supplies and the system bus (chapters *Security, Debug
Access and Power States*, *Health, Self-Test and the Hamper* and *Package, Balls and Electrical Characteristics*). -/

namespace Sys2Proof.Machine

/-- What the part is, fixed at manufacture or by its board: variant, grade, die revisions, serial number, keys, the
capacities fitted, the fused MAC addresses and the pages the firmware keeps private (R2, R434, R482, R560). -/
structure Build where
  dz08 : Bool
  commercial : Bool
  rxRev : Nat
  procRev : Nat
  serial : List Byte
  identityKey : List Byte
  vendorSig : List Byte
  vendorKeyOk : Bool
  norMib : Nat
  installedMib : Nat
  /-- DRAM data rate in MT/s and ranks per channel, as the board fits them (Table 13.1) -/
  memRate : Nat
  memRanks : Nat
  macs : List Nat
  privatePages : List Nat
  smbAddr : Nat
  /-- production values of the coefficient sets in the fuses (R124): 85 converters and 33 pairs at six gain steps -/
  prodConv : List ConvSet
  prodPair : List PairSet
deriving DecidableEq, Repr, Inhabited

/-- An owner-key slot: fused hash, revoked, the stored public key of the boot record (R483). -/
structure OwnerSlot where
  hash : List Byte
  revoked : Bool
  storedKey : Option (List Byte)
deriving DecidableEq, Repr, Inhabited

/-- A firmware slot (R488, R489): empty, or an image with its version and rollback, bootable. -/
structure FwSlot where
  image : List Byte
  loaded : Bool
  version : Nat
  rollback : Nat
deriving DecidableEq, Repr, Inhabited

/-- A session (R493): its number, rights, end instant, and the highest counter accepted and the last one sent (R445). -/
structure Session where
  id : Nat
  rights : Nat
  expiry : Nat
  rxCounter : Option Nat
  txCounter : Nat
  keys : List Byte
deriving DecidableEq, Repr, Inhabited

/-- A firmware load in progress (R489): slot, bytes of the body, what has been programmed (an erased byte reads 0xFF), erase pending, the load's only
chunk was also its last, with the outcome of the signature check. -/
structure FwLoad where
  slot : Nat
  length : Nat
  image : List (Nat × Byte)
  erasing : Bool
  final : Option Bool
deriving DecidableEq, Repr, Inhabited

structure Security where
  /-- 0 Blank, 1 Owned, 2 Service, 3 Scrapped -/
  lifecycle : Nat
  owners : List OwnerSlot
  secretErased : Bool
  rollback : Nat
  fw : List FwSlot
  running : Nat
  preferred : Nat
  trialPending : Bool
  trialRunning : Bool
  trialSince : Nat
  load : Option FwLoad
  /-- outstanding nonces with their expiry, oldest first (R484) -/
  nonces : List (List Byte × Nat)
  sessions : List Session
  serviceUntil : Nat
  authFails : Nat
deriving DecidableEq, Repr, Inhabited

/-- The debug level (R502): open level, its end, and whether a CPC core is halted. -/
structure Debug where
  level : Nat
  until_ : Nat
  cpcHalted : Bool
  /-- bytes of CPC memory written through the window since the CPC was halted, by offset in the aperture (Table 16.10) -/
  cpcMem : List (Nat × Byte)
  /-- the model's number of the halt, which names the CPC memory's unknown content -/
  cpcEpoch : Nat
deriving DecidableEq, Repr, Inhabited

/-- A pending power transition (R495 to R501): target, RESUME, the command, and how far an entry into P3 has come: 0 stops and drains, 1 streams
detaching, 2 rest image written. -/
structure PwrPend where
  target : Nat
  resume : Bool
  mb : Nat
  seq : Nat
  stage : Nat
deriving DecidableEq, Repr, Inhabited

structure Power where
  /-- 0 P0, 1 P1, 2 P2, 3 P3 -/
  st : Nat
  pend : Option PwrPend
  /-- every rail has been within its range for 1 ms (R544) -/
  railsUp : Bool
  inReset : Bool
deriving DecidableEq, Repr, Inhabited

/-- A testable unit (Table 17.1): 0 active, 1 spare, 2 under test, 3 retired, 4 wearing, 5 degraded, 6 suspect. -/
structure Unit_ where
  st : Nat
  errors : Nat
  /-- elapsed seconds of its transients, newest first (R513) -/
  transients : List Nat
  /-- an unresolved EV_NO_SPARE (R514) -/
  noSpare : Bool
  /-- EV_NO_SPARE accepted by `health.accept` -/
  accepted : Bool
  /-- a test waits to be run: cause, on demand -/
  due : Option (Nat × Bool)
  /-- since when the unit's work is to move to a spare: its test fell due, or it was found wearing or retired (R168, R510) -/
  moveSince : Nat
  testSince : Nat
  onDemand : Bool
  rowsUsed : Nat
  colsUsed : Nat
deriving DecidableEq, Repr, Inhabited

/-- A unit with no history, in a given state. -/
def Unit_.at_ (st : Nat) : Unit_ := ⟨st, 0, [], false, false, none, 0, 0, false, 0, 0⟩
def Unit_.fresh : Unit_ := Unit_.at_ 0

/-- The units after release from reset: K4 of each quad, LE16, T32 to T35, TIU4, TS4, SDM1 and the last two lanes of each
die-to-die group are spares (Table 17.1). -/
def unitsAtReset : List (List Unit_) :=
  [ (List.range 85).map (fun i => Unit_.at_ (if i % 5 = 4 then 1 else 0)),
    (List.range 17).map (fun i => Unit_.at_ (if i = 16 then 1 else 0)),
    (List.range 36).map (fun i => Unit_.at_ (if 32 ≤ i then 1 else 0)),
    (List.range 5).map (fun i => Unit_.at_ (if i = 4 then 1 else 0)),
    (List.range 5).map (fun i => Unit_.at_ (if i = 4 then 1 else 0)),
    [Unit_.at_ 0, Unit_.at_ 1],
    List.replicate 4 (Unit_.at_ 0),
    [],
    (List.range 136).map (fun i => Unit_.at_ (if 32 ≤ i % 34 then 1 else 0)),
    List.replicate 4 (Unit_.at_ 0),
    List.replicate 68 (Unit_.at_ 0) ]

/-- One soft or fused repair of an SRAM macro (R516, R524): kind 0 row, 1 column. -/
structure Repair where
  kind : Nat
  macroIx : Nat
  index : Nat
  fused : Bool
deriving DecidableEq, Repr, Inhabited

/-- One self-test segment (R520 to R523): the latest record, its markers, and the last accepted result. -/
structure Segment where
  /-- 0 never run, 1 passed, 2 failed, 3 incomplete, 4 invalid conditions -/
  st : Nat
  stale : Bool
  atBoot : Bool
  fails : Nat
  cycles : Nat
  second : Nat
  began : Bool
  ended : Bool
  /-- the last accepted outcome kept in NOR: state, fails, second -/
  accepted : Option (Nat × Nat × Nat)
deriving DecidableEq, Repr, Inhabited

/-- One health sensor: reading, peak, and whether it now lies outside its bounds. -/
structure Sensor where
  value : Int
  peak : Int
  outside : Bool
  high : Bool
deriving DecidableEq, Repr, Inhabited

/-- An entry of the event log (Table 17.6). -/
structure LogEntry where
  record : List Byte
  seq : Nat
  boot : Nat
deriving DecidableEq, Repr, Inhabited

/-- A power-loss record (R531, R534): last stamp, boot count, interrupted mask, events not logged, warned, cleared. -/
structure LossRec where
  stamp : BitVec 96
  boot : Nat
  interrupted : Nat
  notLogged : Nat
  warned : Bool
  cleared : Bool
deriving DecidableEq, Repr, Inhabited

structure Health where
  /-- units by kind 0 to 10; kinds 6 and 7 are kept sparse -/
  units : List (List Unit_)
  /-- the SRAM macros that have a record, by index -/
  macros : List (Nat × Unit_)
  /-- corrected errors of a macro row within the day: (macro, row, elapsed second, bit) -/
  sramErrs : List (Nat × Nat × Nat × Nat)
  repairs : List Repair
  fuseFailed : Nat
  /-- fuse entries programmed, sticky (Table 17.4) -/
  fusesUsed : Nat
  segments : List Segment
  /-- a self-test run is in progress: at boot, instant it started -/
  testRun : Option (Bool × Nat)
  thermal : List Sensor
  rails : List Sensor
  smbAlert : Bool
  sramCorrected : Nat
  d2dCorrected : Nat
  transients : Nat
  permanents : Nat
  logDropped : Nat
  /-- counters whose saturation has been reported: opcode, offset, selector (R526) -/
  saturated : List (Nat × Nat × Nat)
  /-- die-to-die lanes: physical lane serving each of the 128 logical lanes -/
  d2dMap : List Nat
  /-- corrected symbols of the last second: physical lane and instant -/
  d2dErrs : List (Nat × Nat)
  /-- SRAM rows (0) and columns (1) under test: macro, kind, index (R516) -/
  sramTest : List (Nat × Nat × Nat)
  /-- macros whose failures of the shutdown self-test found no spare, reported at the next boot (R522) -/
  bootNoSpare : List Nat
  /-- the condition of SMB_ALERT_N stands (R563) -/
  alertCond : Bool
deriving DecidableEq, Repr, Inhabited

/-- The event log and its limiter (R528 to R530). -/
structure EvLog where
  entries : List LogEntry
  nextSeq : Nat
  tokens : Nat
  tokenAt : Nat
  droppedPending : Nat
deriving DecidableEq, Repr, Inhabited

/-- PWR_WARN (R531, R532) and the power-loss sector (R534). -/
structure Warn where
  level : Bool
  since : Nat
  clearSince : Option Nat
  losses : List LossRec
  withheld : List (List Byte)
deriving DecidableEq, Repr, Inhabited

end Sys2Proof.Machine
end

