-- ==== Sys2Proof/Machine/StateTherm.lean ====
section
/-! DEFINITION. The state of the thermal slices and of the reference sensors (chapter *Raman Temperature and Reference Sensors*). -/

namespace Sys2Proof.Machine

/-- A line's thermal configuration (Table 10.9), retained. `gamma` and `dalpha` are binary32 codes. -/
structure ThermCfg where
  raw : Bool
  background : Bool
  fixedRef : Bool
  tone : Nat
  refSensor : Nat
  first : Nat
  bins : Nat
  tbin : Nat
  darkCount : Nat
  darkFirst : Nat
  interval : Nat
  refBin : Nat
  refBins : Nat
  refAge : Nat
  gamma : Nat
  dalpha : Nat
  tFixed : Int
deriving DecidableEq, Repr, Inhabited

/-- A reference channel's settings (Table 10.11), retained. `osr` is the logarithm; the coefficients are binary32 codes. -/
structure RefChCfg where
  type : Nat
  current : Nat
  gain : Nat
  refres : Nat
  single : Bool
  outputs : Bool
  osr : Nat
  navg : Nat
  rRef : Nat
  shA : Nat
  shB : Nat
  shC : Nat
  cmLo : Nat
  cmHi : Nat
deriving DecidableEq, Repr, Inhabited

/-- The factory setting of a channel: off, window 50 to 1 450 mV. -/
def RefChCfg.factory : RefChCfg := ⟨0, 0, 0, 0, false, false, 5, 1, 1000, 0, 0, 0, 50, 1450⟩

/-- A thermal measurement's launch (R314): its instant, the sheet's second and index, whether it is DARK, whether it is taken with a background
sheet (in mode 1 only), and where that sheet's window is counted from. -/
structure ThermSheet where
  tick : Nat
  second : Nat
  index : Nat
  dark : Bool
  pair : Bool
  backTick : Nat
deriving DecidableEq, Repr, Inhabited

/-- The interval of a slice (R319, R320): sheets taken and not taken, the accumulators by bin, the dark window's, the clip marks, the first
and the last sheet taken. -/
structure Interval where
  taken : Nat
  discarded : Nat
  accAs : List Int
  accSt : List Int
  bgAs : List Int
  bgSt : List Int
  darkAs : Int
  darkSt : Int
  darkSq : Int
  clips : List Bool
  darkClip : Bool
  first : Option ThermSheet
  last : Option ThermSheet
deriving DecidableEq, Repr, Inhabited

def Interval.empty : Interval := ⟨0, 0, [], [], [], [], 0, 0, 0, [], false, none, none⟩

/-- One logical slice: the physical slice that serves it, the line it is connected to, when that connection was made and its settling ends,
whether it switches, the launches seen and not yet taken, and the thermal sheet that waits for its background sheet. `closeAt` is the
instant of an event that closes the interval early and whether the slice then stays on the line. -/
structure SliceRun where
  phys : Option Nat
  line : Option Nat
  switching : Bool
  connectedAt : Nat
  /-- when the slice, gated in P1 while its ring was empty or it was the spare, is powered again (R496, Table 16.7) -/
  wakeAt : Nat
  settleAt : Nat
  /-- the interval is over and the slice leaves its line -/
  leave : Bool
  discardNext : Bool
  spared : Bool
  cand : List ThermSheet
  held : Option (ThermSheet × List Int × List Int)
  closeAt : Option (Nat × Bool)
  iv : Interval
deriving DecidableEq, Repr, Inhabited

def SliceRun.reset (k : Nat) : SliceRun := ⟨some k, none, false, 0, 0, 0, false, false, false, [], none, none, Interval.empty⟩

/-- A formed trace as the zones take it (R325, R346): instant, temperature words, and the bins' and points' geometry when it was formed. -/
structure Trace where
  inst : Nat
  words : List (BitVec 32)
  first : Nat
  tbin : Nat
  planFirst : Nat
  pitch : Nat
deriving DecidableEq, Repr, Inhabited

/-- A line's part: its counters (Table 10.10), the latest trace, and the marks of R322 and R323; `number` counts the traces released. -/
structure LineTherm where
  traces : Nat
  discarded : Nat
  switchDiscards : Nat
  short : Nat
  discardedIntervals : Nat
  fresh : Bool
  staleRaised : Bool
  trace : Option Trace
  number : Nat
deriving DecidableEq, Repr, Inhabited

def LineTherm.reset : LineTherm := ⟨0, 0, 0, 0, 0, false, false, none, 0⟩

/-- A reference channel: the latest result that is not INVALID (instant and temperature code), its last sixteen result codes, the lead fault
in progress since, and its counters. -/
structure RefChan where
  valid : Option (Nat × Int)
  codes : List Int
  faultSince : Option Nat
  leadFaults : Nat
  clamps : Nat
  /-- excitation on-times of urgent conversions: when each began and its length in ticks (R330) -/
  urgentOn : List (Nat × Nat)
deriving DecidableEq, Repr, Inhabited

def RefChan.reset : RefChan := ⟨none, [], none, 0, 0, []⟩

/-- The conversion in progress (R328): channel, start, settings as it began, and what was found. -/
structure RefConv where
  channel : Nat
  start : Nat
  cfg : RefChCfg
  urgent : Bool
  sdm : Nat
  leadCm : Bool
  compliance : Bool
  spoiled : Bool
deriving DecidableEq, Repr, Inhabited

/-- The reference front end: the active modulator, the conversion in progress, the rest of the running scan, and the record ring. -/
structure RefFront where
  sdm : Nat
  conv : Option RefConv
  rest : List Nat
  splice : Bool
  write : Nat
  seq : Nat
  scans : Nat
  skipped : Nat
  chans : List RefChan
deriving DecidableEq, Repr, Inhabited

structure Therm where
  slices : List SliceRun
  lines : List LineTherm
  front : RefFront
deriving DecidableEq, Repr, Inhabited

/-- Logical slice n is TSn at release from reset (R312). -/
def Therm.reset : Therm where
  slices := (List.range 4).map SliceRun.reset
  lines := List.replicate 16 LineTherm.reset
  front := ⟨0, none, [], false, 0, 0, 0, 0, List.replicate 8 RefChan.reset⟩

end Sys2Proof.Machine
end

