-- ==== Sys2Proof/Machine/StateTile.lean ====
section
/-! DEFINITION. The state of the vector tiles (chapter *Vector Tiles: Programmer's Model and Instruction Set*). -/

namespace Sys2Proof.Machine

/-- The registers of a tile (Table 7.1). D words are 20-bit patterns, accumulators signed 56-bit values; `open_` are the loop levels in
force, `stack` the return addresses, both innermost first. -/
structure TileRegs where
  d : List Nat
  a : List Int
  xa : List Nat
  ya : List Nat
  m : List Nat
  cf : List Nat
  lc : List Nat
  ls : List Nat
  le : List Nat
  satl : List Bool
  aovl : List Bool
  z : Bool
  n : Bool
  depth : Nat
  sr : Nat
  pc : Nat
  stack : List Nat
  /-- BMST (Table 7.8): FAULT, POISON, SEQ, POISON_SEQ, POISON_ROW -/
  fault : Bool
  poison : Bool
  seq : Nat
  poisonSeq : Nat
  poisonRow : Nat
deriving DecidableEq, Repr, Inhabited

/-- The entry values of R212, at an entry address. -/
def TileRegs.entry (pc : Nat) : TileRegs where
  d := List.replicate 16 0
  a := List.replicate 4 0
  xa := List.replicate 4 0
  ya := List.replicate 4 0
  m := List.replicate 8 0
  cf := List.replicate 8 0
  lc := List.replicate 4 0
  ls := List.replicate 4 0
  le := List.replicate 4 0
  satl := List.replicate 4 false
  aovl := List.replicate 4 false
  z := false
  n := false
  depth := 0
  sr := 0
  pc := pc
  stack := []
  fault := false
  poison := false
  seq := 0
  poisonSeq := 0
  poisonRow := 0

/-- What a job is for (section 7.1). A slow-time or trigger job covers a group of up to 16 blocks of a quire of a line. -/
inductive JobKind where
  | slow (line quire group : Nat)
  | trigger (line quire group : Nat)
  | host (slot id : Nat) (args : List Nat) (serial : Nat)
deriving DecidableEq, Repr, Inhabited

/-- A job with the instant it became ready, and after an abort the tile it is not to run on again (R234). -/
structure Job where
  kind : JobKind
  readyAt : Nat
  notOn : Option Nat
deriving DecidableEq, Repr, Inhabited

/-- A completion record (R233): physical tile, KIND, JOB tag, DONE code, cycle count, BMST, and the abort cause, 0 for none (R234). -/
structure Completion where
  tile : Nat
  kind : Nat
  tag : Nat
  code : Nat
  cycles : Nat
  bmst : Nat
  abort : Nat
deriving DecidableEq, Repr, Inhabited

structure Mv where
  store : Bool
  mode : Nat
  yMem : Bool
  signExt : Bool
  addr : Nat
  base : Nat
  elems : Nat
  rows : Nat
  pitch : Nat
  rowStep : Int
  groupStep : Int
  seq : Nat
  /-- cycles at which it begins and ends -/
  began : Nat
  ends : Nat
deriving DecidableEq, Repr, Inhabited

/-- How a run stops: DONE with its code, or an abort cause. -/
inductive RunEnd where
  | done (code : Nat)
  | abort (cause : Nat)
deriving DecidableEq, Repr, Inhabited

/-- How far the host job on a tile has run: the cycles passed, the mover queue (R229), whether a store was made (R233), the delays of the mover's
descriptors still to come, which the environment gives, and how the program ended. -/
structure TileRun where
  cycles : Nat
  queue : List Mv
  committed : Bool
  delays : List Nat
  ended : Option RunEnd
deriving DecidableEq, Repr, Inhabited

def TileRun.reset : TileRun := ⟨0, [], false, [], none⟩

/-- A physical tile: its registers, its X and Y memories, the running job with the instant it started and how far it has run, and its latest
completion record. -/
structure Tile where
  regs : TileRegs
  x : List (Nat × Nat)
  y : List (Nat × Nat)
  job : Option (Job × Nat)
  run : TileRun
  last : Option Completion
deriving DecidableEq, Repr, Inhabited

def Tile.reset : Tile := ⟨TileRegs.entry 0, [], [], none, TileRun.reset, none⟩

/-- A loaded user kernel (R235), retained: its image's fields and contents, and the base instruction address of its slot. -/
structure Kernel where
  id : Nat
  base : Nat
  entry : Nat
  limit : Nat
  instrs : List Nat
  xinit : List Nat
  yinit : List Nat
deriving DecidableEq, Repr, Inhabited

/-- A kernel image being loaded in chunks (Table 7.14). -/
structure KernelLoad where
  length : Nat
  image : List (Nat × Byte)
deriving DecidableEq, Repr, Inhabited

/-- The tile pool: the map of logical to physical tiles (R209), the tiles, images being loaded, ready jobs in order of readiness, the
serial of the next host job, the counters of Table 7.16, and the times tiles were busy (start, end) in the last second. -/
structure TilePool where
  map : List (Option Nat)
  tiles : List Tile
  loads : List (Option KernelLoad)
  ready : List Job
  serial : Nat
  aborts : Nat
  redispatches : Nat
  hostJobs : Nat
  busy : List (Nat × Nat)
deriving DecidableEq, Repr, Inhabited

def TilePool.reset : TilePool :=
  ⟨(List.range 32).map some, List.replicate 36 Tile.reset, [none, none, none, none], [], 0, 0, 0, 0, []⟩

end Sys2Proof.Machine
end

