-- ==== Sys2Proof/Machine/StateTime.lean ====
section
/-! DEFINITION. The state of the time base, the thermos, the time-interval units and the trail link (chapter *Time Base,
Time-Interval Units and Cluster Timing*). -/

namespace Sys2Proof.Machine

/-- The settings of `tb.config` (Table 9.9), retained. -/
structure TbCfg where
  source : Nat
  ppsEdge : Nat
  ptpPort : Nat
  ptpDomain : Nat
  ptpTransport : Nat
  ppsOut : Bool
  ppsOutWidth : Nat
  ppsDelay : Int
  stepNs : Nat
  warmS : Nat
  warmPpb : Nat
  slewPpb : Nat
deriving DecidableEq, Repr, Inhabited

/-- The settings of `trail.config` (Table 9.15), retained. -/
structure TrailCfg where
  nodeId : Nat
  flags : Nat
  asym : Int
deriving DecidableEq, Repr, Inhabited

/-- A step that waits for its second boundary (R285, R286): the tick of that boundary on the old scale, the tick the new
scale's boundary is reckoned from and the second number it carries there. -/
structure PendStep where
  at_ : Nat
  /-- made by the servo (R285) rather than by the second source (R286) -/
  phase : Bool
  newSecTick : Nat
  newSecond : Nat
deriving DecidableEq, Repr, Inhabited

/-- A pending `sys.time` set (R480): the value, the earliest boundary it may name, its command. -/
structure PendSet where
  second : Nat
  notBefore : Nat
deriving DecidableEq, Repr, Inhabited

/-- A time transmitter heard (R289): its port identity, its latest Announce, when that arrived and when the one before did. -/
structure PtpMaster where
  sender : Nat
  ann : PtpAnnounce
  last : Nat
  before : Option Nat
deriving DecidableEq, Repr, Inhabited

/-- The IEEE 1588 time receiver (R289): the transmitters heard and the best of them; a two-step Sync that waits for its Follow_Up (sequence, arrival,
correction in ticks); the latest Sync's second and the tick at which that second would have begun had the message taken no time; the Delay_Req in hand
(sequence, when it left, and that pair); and the path delay found. -/
structure PtpRun where
  masters : List PtpMaster
  best : Option Nat
  wait : Option (Nat × Nat × Int)
  sync : Option (Nat × Int)
  reqSeq : Nat
  req : Option (Nat × Nat × Nat × Int)
  delay : Option Int
deriving DecidableEq, Repr, Inhabited

def PtpRun.reset : PtpRun := ⟨[], none, none, none, 0, none, none⟩

/-- The time base. `secTick` is the tick of a second boundary of the present time scale and `secVal` its SECOND; the
scale in force before the latest step, at `scaleFrom`, stands beside it for stamps of earlier instants. -/
structure TimeBase where
  secTick : Nat
  secVal : Nat
  prevTick : Nat
  prevVal : Nat
  /-- the first instant of the present scale (R285) -/
  scaleFrom : Nat
  timeSet : Bool
  phaseFixed : Bool
  secondFixed : Bool
  refclk : Bool
  refLostAt : Nat
  synthLocked : Bool
  /-- the thermos counts REFCLK_10M presence from this instant (R281, R283) -/
  presentSince : Nat
  warm : Bool
  /-- the boundary from which NOT_WARM clears (R281) -/
  warmFrom : Option Nat
  warmupSince : Nat
  /-- the steering word, 0.001 ppb, at the instant beside it, and the value it moves towards at SLEW_PPB (R278) -/
  steer : Int
  steerSince : Nat
  steerGoal : Int
  /-- its values once per second, newest first: sixty for the holdover mean (R288) and a hundred for the ten windows -/
  steerHist : List Int
  /-- the part of the steering word that removes the last offset, to be taken back (section 9.6, Table 9.7) -/
  steerCorr : Int
  offsetPs : Int
  /-- the offset found on regaining the source (R288) -/
  regainPs : Int
  /-- the offset measured in the present second and in the one before: second tick and offset in ticks -/
  measured : Option (Nat × Int)
  measuredPrev : Option (Nat × Int)
  /-- the latest measurement has not been used by a run of the servo yet (R285) -/
  measureNew : Bool
  ppsLocked : Bool
  /-- boundaries of the consecutive agreeing edges while not locked (R284) -/
  ppsAcq : List Nat
  ppsLast : Option Nat
  /-- edges out of window since the last accepted one -/
  ppsOutRun : Nat
  ptpValid : Bool
  ptpLast : Option Nat
  /-- the exchange with the best time transmitter (R289) -/
  ptp : PtpRun
  trailLocked : Bool
  /-- consecutive seconds whose reported number differed from, and agreed with, SECOND (R286, R568) -/
  disagree : Nat
  agree : Nat
  /-- reported minus own second number, and the boundary at which it was last counted -/
  secDelta : Int
  secCounted : Option Nat
  /-- cause and start of the present holdover (R288) -/
  holdover : Option (Nat × Nat)
  /-- the source was lost or changed and has not been regained since (R288) -/
  regained : Bool
  pendStep : Option PendStep
  pendSet : Option PendSet
  ppsOutHigh : Bool
  ppsOutSince : Nat
  steps : Nat
  ppsMissed : Nat
  ppsOutOfWindow : Nat
  servoDiscarded : Nat
  ptpSync : Nat
  ptpIgnored : Nat
deriving DecidableEq, Repr, Inhabited

/-- An interval arming in place on a unit (R291, R292). -/
structure Arming where
  start : Nat
  startArg : Nat
  stop : Nat
  stopArg : Nat
  signed : Bool
  timeout : Nat
  armedAt : Nat
  mb : Nat
  seq : Nat
  /-- a shot of a launch-zero measurement (R296) -/
  zero : Bool
  /-- the first start, and the stops that count, in the order they came -/
  startAt : Option Nat
  stops : List Nat
deriving DecidableEq, Repr, Inhabited

/-- One time-interval unit: its arming and its delay line's lock; its state is its unit record's. -/
structure Tiu where
  locked : Bool
  arming : Option Arming
  /-- busy with an event stamp until this tick (40 ns, section 9.4) -/
  busyUntil : Nat
deriving DecidableEq, Repr, Inhabited

/-- A running launch-zero measurement (R296). -/
structure LaunchZeroRun where
  line : Nat
  tone : Nat
  shots : Nat
  boardLz : Int
  /-- shots not yet fired -/
  left : Nat
  /-- intervals of the shots that have been measured -/
  hits : List Int
deriving DecidableEq, Repr, Inhabited

structure TiuState where
  units : List Tiu
  wrongOrder : Nat
  belowRes : Nat
  timeouts : Nat
  noUnit : Nat
  launchRun : Option LaunchZeroRun
  /-- threshold of the Q16.LM comparator, mV (Table 9.13) -/
  thresh : Nat
deriving DecidableEq, Repr, Inhabited

/-- The trail link: link of each port (0 UP, 1 DN0, 2 DN1), what the parent and the children reported, the exchange in
progress and the hop-delay window (R298 to R302). -/
structure Trail where
  linkUp : List Bool
  alignLostAt : Option Nat
  depth : Option Nat
  parent : Option Nat
  parentDepth : Option Nat
  /-- node count and depth last reported by TOPO on each downward port, with the NODE_ID they carried -/
  topo : List (Option (Nat × Nat × Nat))
  /-- the last hop delays, newest first, at most sixteen (R300) -/
  hops : List Int
  theta : Int
  reqSeq : Nat
  t1 : Option Nat
  /-- flags received in SYNC: HOLDOVER, NOT_WARM (R300) -/
  upHoldover : Bool
  upNotWarm : Bool
  syncMissRun : Nat
  lastSync : Option Nat
  tooDeep : Bool
  conflict : Bool
  crcErrors : Nat
  syncMissed : Nat
  bcastRx : Nat
  bcastTx : Nat
  delaySkipped : Nat
deriving DecidableEq, Repr, Inhabited

end Sys2Proof.Machine
end

