-- ==== Sys2Proof/Machine/StateTrig.lean ====
section
/-! DEFINITION. The state of triggers, captures and raw sets (chapter *Triggers and Captures*). -/

namespace Sys2Proof.Machine

/-- A condition's definition (Table 8.13), retained; `band` is BAND of a point condition and QUAD of a lane condition. -/
structure CondDef where
  kind : Nat
  line : Nat
  actions : Nat
  first : Nat
  last : Nat
  level : Int
  band : Nat
  role : Nat
  edge : Nat
  hyst : Nat
  confirm : Nat
  settlingOk : Bool
  pad : Nat
  pre : Nat
  post : Nat
deriving DecidableEq, Repr, Inhabited

/-- A TRIG_OUT output's settings, retained. -/
structure TrigOutCfg where
  activeLow : Bool
  width : Nat
  mask : Nat
deriving DecidableEq, Repr, Inhabited

/-- A point's trigger state (R245, R246): RUN and BASE. -/
structure PtTrig where
  run : Nat
  base : Option Int
deriving DecidableEq, Repr, Inhabited

/-- One arming of a point condition: its definition, the quires it evaluates (`until_` none while armed), its points' state. -/
structure EvalSpan where
  cond : CondDef
  from_ : Nat
  until_ : Option Nat
  pts : List (Nat × PtTrig)
deriving DecidableEq, Repr, Inhabited

/-- A missed record (R259, R264): the first stamp, its instant, the count. -/
structure Missed where
  stamp : BitVec 96
  inst : Nat
  count : Nat
deriving DecidableEq, Repr, Inhabited

structure CondRun where
  spans : List EvalSpan
  hits : Nat
  captures : Nat
  missed : Nat
  glitches : Nat
  noFraction : Nat
  late : Nat
  /-- the missed record, with the line whose captures it concerns (R259) -/
  missedRec : Option (Nat × Missed)
  /-- the instant of the input's previous qualified edge (R249) -/
  lastEdge : Option Nat
  /-- the last word of the lane condition's role fit to cross, with its instant; and whether it may cross rising and falling (R251) -/
  prevWord : Option (Nat × Int)
  riseReady : Bool
  fallReady : Bool
deriving DecidableEq, Repr, Inhabited

def CondRun.reset : CondRun := ⟨[], 0, 0, 0, 0, 0, 0, none, none, none, true, true⟩

/-- A hit waiting for its line's captures to be formed (R255, R256). `row` is known for a point hit. -/
structure Hit where
  cond : Nat
  first : Nat
  last : Nat
  pad : Nat
  pre : Nat
  post : Nat
  stamp : BitVec 96
  inst : Nat
  node : Nat
  row : Option Nat
deriving DecidableEq, Repr, Inhabited

/-- A decided slow-sheet row as the zones evaluate it (R347): its instant and stamp, the conditions evaluated on it, the points on which each
was met, the INVALID points, and the groups of 4 096 points whose evaluation was lost. -/
structure DecidedRow where
  inst : Nat
  stamp : BitVec 96
  evaluated : Nat
  hits : List (Nat × List Nat)
  bad : List Nat
  lost : List Nat
deriving DecidableEq, Repr, Inhabited

/-- A line's part: hits waiting, the quires decided, groups whose evaluation of a quire was lost (R248), counters. -/
structure LineTrig where
  hits : List Hit
  decided : Nat
  lost : List (Nat × Nat)
  lostEvals : Nat
  notMade : Nat
  mergedAll : Nat
deriving DecidableEq, Repr, Inhabited

def LineTrig.reset : LineTrig := ⟨[], 0, [], 0, 0, 0⟩

/-- A record of the capture pool (R266, Tables 8.9 and 8.10). A point capture still copying has its rows from `lo` to `hi` about the
trigger row, the next row to copy, and the rows copied. -/
structure CapRec where
  index : Nat
  ready : Bool
  raw : Bool
  flags : Nat
  seq : Nat
  page : Nat
  pages : Nat
  bytes : Nat
  trigger : BitVec 96
  causes : Nat
  primary : Nat
  line : Nat
  node : Nat
  source : Nat
  set : Nat
  quad : Nat
  lanes : Nat
  firstStamp : BitVec 96
  lastStamp : BitVec 96
  firstIndex : Nat
  count : Nat
  missed : Option Missed
  rowBytes : Nat
  rows : Nat
  fsn : Nat
  rowsLost : Nat
  pre : Nat
  post : Nat
  trow : Nat
  lo : Nat
  hi : Nat
  next : Nat
  /-- its stream has delivered it (R436) -/
  delivered : Bool
deriving DecidableEq, Repr, Inhabited

/-- A line's storm record (R267); `node` is the origin of its primary cause, the lowest-numbered (Table 8.10). -/
structure Storm where
  open_ : Bool
  node : Nat
  first : BitVec 96
  last : BitVec 96
  lowest : Nat
  highest : Nat
  causes : Nat
  notMade : Nat
deriving DecidableEq, Repr, Inhabited

/-- A raw set's definition (Table 8.14). -/
structure RawDef where
  source : Nat
  quad : Nat
  lanes : Nat
  segments : Nat
  spot : Bool
  tone : Nat
  length : Nat
  pre : Nat
  first : Nat
  count : Nat
  causes : Nat
  total : Nat
deriving DecidableEq, Repr, Inhabited

/-- A trigger on its way to a raw set: its condition, instant, stamp and node, and for a lane condition its trigger sample's instant. -/
structure RawHit where
  cond : Nat
  inst : Nat
  stamp : BitVec 96
  node : Nat
  sample : Option Nat
deriving DecidableEq, Repr, Inhabited

/-- The trigger of a segment (R263): the trigger sample's instant, none while it is not yet taken, samples written after it, the wanted
PRE and POST, and what the header will carry. -/
structure RawTrig where
  sample : Nat
  taken : Bool
  after : Nat
  pre : Nat
  post : Nat
  late : Bool
  causes : Nat
  primary : Nat
  stamp : BitVec 96
  node : Nat
deriving DecidableEq, Repr, Inhabited

/-- A segment: the definition it was armed under, samples written since it was armed, the newest of them, newest first, with their instants and
stamps, and
the instants of the sheets that have left the ring, newest first, from which δ is counted (R263). -/
structure RawSeg where
  cfg : RawDef
  armedAt : Nat
  written : Nat
  ring : List (Nat × BitVec 96 × List Byte)
  dropped : List Nat
  trig : Option RawTrig
  missed : Option Missed
deriving DecidableEq, Repr, Inhabited

/-- A raw set: idle, armed or stalled (0, 1, 2), its segments and counters, and a stop in progress (mode). `roleWords` gathers the lane
words of the cell in hand; `sinceClose` is the segment waiting to be re-armed. -/
structure RawSet where
  st : Nat
  cfg : RawDef
  seg : Option RawSeg
  closed : List RawSeg
  triggers : List RawHit
  rearm : Option (Option Missed)
  made : Nat
  missed : Nat
  late : Nat
  discarded : Nat
  segsClosed : Nat
  stop : Option Nat
  cell : Nat
  roleWords : List (Nat × BitVec 16)
deriving DecidableEq, Repr, Inhabited

def RawSet.reset : RawSet := ⟨0, default, none, [], [], none, 0, 0, 0, 0, 0, none, 0, []⟩

/-- Triggers and captures. `outUntil` is until when each TRIG_OUT is asserted and `outDue` whether its assertion is due; `bcast` are the
broadcasts to originate (condition, stamp). -/
structure TrigState where
  conds : List CondRun
  lines : List LineTrig
  levels : List Bool
  outUntil : List (Option Nat)
  outDue : List Bool
  bcast : List (Nat × BitVec 96)
  recs : List CapRec
  seq : Nat
  storms : List (Option Storm)
  sets : List RawSet
deriving DecidableEq, Repr, Inhabited

def TrigState.reset : TrigState where
  conds := List.replicate 32 CondRun.reset
  lines := List.replicate 16 LineTrig.reset
  levels := [false, false, false, false]
  outUntil := [none, none]
  outDue := [false, false]
  bcast := []
  recs := []
  seq := 0
  storms := List.replicate 16 none
  sets := List.replicate 4 RawSet.reset

end Sys2Proof.Machine
end

