-- ==== Sys2Proof/Machine/StateZone.lean ====
section
/-! DEFINITION. The state of the zones, their mirror, the zone status port and the panel's pins (chapter *Zones, Panel Ports and Alarm
Outputs*). -/

namespace Sys2Proof.Machine

/-- A range of a zone (R346). -/
structure ZRange where
  line : Nat
  first : Nat
  last : Nat
deriving DecidableEq, Repr, Inhabited

/-- A rule of a zone (Table 11.8). -/
structure ZRule where
  kind : Nat
  target : Nat
  latch : Bool
  cond : Nat
  level : Int
  holdMs : Nat
  binsMin : Nat
  confirm : Nat
deriving DecidableEq, Repr, Inhabited

/-- A zone's definition (Table 11.8), retained. -/
structure ZoneDef where
  supervise : Bool
  levelSrc : Nat
  faultPct : Nat
  faultS : Nat
  silentS : Nat
  ranges : List ZRange
  rules : List ZRule
deriving DecidableEq, Repr, Inhabited

/-- The pins' masks (`panel.pins`), retained: STATE_MASK and ZONE_MASK of ALARM_N[0] to [3], and FAULT_N's ZONE_MASK. -/
structure PinCfg where
  alarms : List (Nat × Nat)
  fault : Nat
deriving DecidableEq, Repr, Inhabited

def PinCfg.factory : PinCfg := ⟨[(0, 0), (0, 0), (0, 0), (0, 0)], 0⟩

/-- An analogue zone output's settings (`panel.zout`), retained. -/
structure ZoutCfg where
  zone : Nat
  mode : Nat
  codes : List Nat
deriving DecidableEq, Repr, Inhabited

def ZoutCfg.factory : ZoutCfg := ⟨0, 0, [0, 0, 0, 0, 0]⟩

/-- A rule's place (R348): its counts by line or condition, whether it would be active without a latch, whether a latch holds it, when it
last fired, and the instant of its condition's last hit. -/
structure RuleRun where
  counts : List (Nat × Nat)
  on : Bool
  latched : Bool
  fired : Nat
  lastHit : Option Nat
deriving DecidableEq, Repr, Inhabited

def RuleRun.reset : RuleRun := ⟨[], false, false, 0, none⟩
def RuleRun.active (r : RuleRun) : Bool := r.on || r.latched

/-- A source of a zone (R347, R350): a line's slow sheets or its traces; when it last delivered an evaluation since definition or restore,
and since when every evaluation found too much INVALID. -/
structure ZSource where
  line : Nat
  thermal : Bool
  last : Option Nat
  bad : Option Nat
deriving DecidableEq, Repr, Inhabited

/-- What waits to be evaluated on a zone, in order of decision (R352): a decided row of a line, a trace of a line with the earlier trace it
follows, a hit of a condition 16 to 31. -/
inductive ZoneIn where
  | row (line : Nat) (r : DecidedRow)
  | trace (line : Nat) (t : Trace) (prev : Option Trace)
  | hit (cond : Nat) (stamp : BitVec 96) (inst : Nat)
deriving DecidableEq, Repr, Inhabited

/-- One zone: its place under R348 to R353, the parts of its word (Table 11.2), its mirror entry (Table 11.3) and its counters. `clearFrom`
is since when neither condition 1 nor 2 has held, while the fault of them lasts; `stopped` says that evaluation was stopped since the last. -/
structure ZoneRun where
  since : Nat
  rules : List RuleRun
  sources : List ZSource
  inbox : List ZoneIn
  fault12 : Bool
  clearFrom : Option Nat
  stopped : Bool
  seq : Bool
  state : Nat
  faultPresent : Bool
  watchPresent : Bool
  latchedBit : Bool
  notEval : Bool
  level : Nat
  causes : Nat
  changeSeq : Nat
  stamp : BitVec 96
  alarms : Nat
  faults : Nat
  firings : Nat
deriving DecidableEq, Repr, Inhabited

/-- A zone as a restore leaves it (Table 11.2, R353). -/
def ZoneRun.reset (defined : Bool) (now : Nat) : ZoneRun where
  since := now
  rules := List.replicate 4 RuleRun.reset
  sources := []
  inbox := []
  fault12 := false
  clearFrom := none
  stopped := false
  seq := false
  state := if defined then 0 else 5
  faultPresent := false
  watchPresent := false
  latchedBit := false
  notEval := true
  level := 0
  causes := 0
  changeSeq := 0
  stamp := 0
  alarms := 0
  faults := 0
  firings := 0

/-- The zone word (Table 11.2). -/
def ZoneRun.word (z : ZoneRun) : Nat :=
  b2n z.seq * 2 ^ 15 + z.state * 2 ^ 12 + b2n z.faultPresent * 2 ^ 11 + b2n z.watchPresent * 2 ^ 10 + b2n z.latchedBit * 2 ^ 9 +
    b2n z.notEval * 2 ^ 8 + z.level

/-- The mirror entry (Table 11.3). -/
def ZoneRun.entry (z : ZoneRun) : List Byte := u16 z.word ++ u16 z.changeSeq ++ leBytes 12 z.stamp.toNat

/-- Evaluation stops (R353): NOT_EVALUATING is set, which is an update of the word when it was clear. -/
def ZoneRun.halt (z : ZoneRun) : ZoneRun :=
  { z with notEval := true, seq := if z.notEval then z.seq else !z.seq, stopped := true, inbox := [] }

/-- The pins and analogue outputs that follow the mirror (R359, R360): ALARM_N[0] to [3] and FAULT_N driven low, the codes of ZOUT0 to 7. -/
structure Pins where
  alarm : List Bool
  fault : Bool
  zout : List Nat
deriving DecidableEq, Repr, Inhabited

/-- In reset before restore ALARM_N is released and FAULT_N low (R359). -/
def Pins.reset : Pins := ⟨[false, false, false, false], true, [0, 0, 0, 0, 0, 0, 0, 0]⟩

/-- The panel: the pins, the last VREF_Z in mV, the ZSP counters, and whether zones are being evaluated (R353). -/
structure Panel where
  pins : Pins
  vrefMv : Nat
  reads : Nat
  aborted : Nat
  evaluating : Bool
deriving DecidableEq, Repr, Inhabited

def Panel.reset : Panel := ⟨Pins.reset, 0, 0, 0, false⟩

end Sys2Proof.Machine
end

