-- ==== Sys2Proof/Machine/StateCfg.lean ====
section
/-! DEFINITION. The retained configuration (section 15.7, Table 15.12): every setting a chapter marks retained, held apart
from the volatile state so that a snapshot is a copy of it and a restore puts it back. -/

namespace Sys2Proof.Machine

structure Retained where
  /-- plans in effect (R70) -/
  plans : List (Option Plan)
  probes : List ProbeCfg
  slots : List (List Slot)
  waves : List (List (Nat × BitVec 32))
  gates : List GateLimit
  tb : TbCfg
  trail : TrailCfg
  /-- launch zero per line, s32 in 1/256 cell, −2^31 when never measured (R306) -/
  launchZero : List Int
  /-- completion timeout in µs (`dma.link`) -/
  cplTimeout : Nat
  ports : List PortCfg
  streams : List (Option StreamDef)
  holdMs : Nat
  /-- receiver and calender settings per quad, the declared interferometer delay, and the coefficient sets, which
  `sys.snapshot` saves (R102, R130) -/
  quads : List QuadCfg
  refDelay : Nat
  cal : List CalCfg
  conv : List ConvSet
  pair : List PairSet
  lines : List LineCfg
  felt : List FeltCfg
  slow : List SlowCfg
  /-- size of the capture region set with `cap.config`, in MiB, for the next restore (R273) -/
  capMib : Nat
  /-- loaded user kernels by slot (R240) -/
  kernels : List (Option Kernel)
  mem : MemCfg
  /-- trigger conditions, those of them armed, and the TRIG_OUT settings (R269) -/
  conds : List (Option CondDef)
  armed : Nat
  trigOut : List TrigOutCfg
  /-- thermal configurations, rings of the logical slices, reference channels, scan (R340) -/
  therm : List (Option ThermCfg)
  rings : List Nat
  refCh : List RefChCfg
  scanMs : Nat
  scan : List Nat
  /-- zones and panel settings (R361) -/
  zones : List (Option ZoneDef)
  pins : PinCfg
  zout : List ZoutCfg
  /-- compression profiles (R384) -/
  profiles : List (Option Profile)
  /-- bounds of the 24 thermal and 16 rail sensors (R527) -/
  thermBounds : List (Int × Int)
  railBounds : List (Int × Int)
deriving DecidableEq, Repr, Inhabited

/-- What the boot record in NOR keeps beside the banks (R506, R561). -/
structure BootRec where
  pcieRights : Nat
  trim : Bool
  kept : Nat
  bootCount : Nat
deriving DecidableEq, Repr, Inhabited

/-- A configuration bank or the rest image (R470, Table 15.13): valid says that MAGIC, CRC, SIGNATURE and FORMAT hold. -/
structure Bank where
  valid : Bool
  flags : Nat
  generation : Nat
  waitS : Nat
  running : Nat
  capture : BitVec 96
  fwVersion : Nat
  image : Retained
deriving DecidableEq, Repr, Inhabited

/-- A snapshot being committed (R471, R476): the bank it goes to and what it holds. -/
structure SnapPend where
  bank : Nat
  content : Bank
  mb : Nat
  seq : Nat
  /-- made by `sys.shutdown` step 3, which reports it itself -/
  shutdown : Bool
deriving DecidableEq, Repr, Inhabited

/-- A reset that `sys.reset` or `sys.restore` scheduled (R477, R479). -/
structure ResetPend where
  full : Bool
  notBefore : Nat
  cause : Nat
  source : Option Nat
  quickStart : Option Bool
  noResume : Bool
deriving DecidableEq, Repr, Inhabited

/-- An orderly shutdown in progress (R478). -/
structure Shutdown where
  mode : Nat
  flags : Nat
  mb : Nat
  seq : Nat
  norFailed : Bool
  /-- the step of R478 in progress: 0 stops, 1 detaches, 2 snapshot, 3 self-test, 4 reported -/
  stage : Nat
  /-- the lines that were running when the command was accepted -/
  running : Nat
deriving DecidableEq, Repr, Inhabited

/-- Lines waiting to be started after a restore (R473): mask, wait for the time base, and the latest instant. -/
structure Resume where
  mask : Nat
  waitTime : Bool
  until_ : Nat
deriving DecidableEq, Repr, Inhabited

structure Sys where
  /-- 0 reset, 1 firmware verified, 2 DRAM ready, 3 restoring, 4 ready, 5 shutting down, 6 shut down, 7 boot failed -/
  bootState : Nat
  heartbeat : Nat
  /-- how the present boot came about (EV_BOOT cause) and the flags that apply to it -/
  cause : Nat
  restoreFrom : Option Nat
  bootQuick : Option Bool
  bootNoResume : Bool
  restoreSource : Nat
  generation : Nat
  banks : List Bank
  rest : Bank
  boot : BootRec
  snapshot : Option SnapPend
  resetPend : Option ResetPend
  shutdown : Option Shutdown
  resume : Option Resume
  /-- events lost at the reset that began this boot (R467) -/
  lostAtReset : Nat
  stale : Nat
  duplicates : Nat
  watchdogCount : Nat
deriving DecidableEq, Repr, Inhabited

end Sys2Proof.Machine
end

