-- ==== Sys2Proof/Machine/Factory.lean ====
section
/-! DEFINITION. The factory values of every chapter (R472) and the values after reset of the parts of the state that no other file holds. -/

namespace Sys2Proof.Machine

/-! ### Factory values of the retained configuration -/

/-- Table 9.9. -/
def TbCfg.factory : TbCfg where
  source := 2
  ppsEdge := 0
  ptpPort := 0
  ptpDomain := 0
  ptpTransport := 0
  ppsOut := true
  ppsOutWidth := 100
  ppsDelay := 0
  stepNs := 1000
  warmS := 900
  warmPpb := 100
  slewPpb := 1000

/-- Nominal rails in mV, sensors 32 to 47 (Tables 17.5 and 18.3). -/
def railNominal (i : Nat) : Nat := nth [750, 750, 750, 750, 850, 850, 800, 1000, 1800, 500, 1050, 900, 1200, 1800, 3300, 800] i 0

/-- The factory bounds of the thermal sensors in 0.25 °C: −40 to +105 °C, or 0 to +105 °C on the commercial grade (Table 17.5). -/
def factoryThermal (b : Build) : Int × Int := (if b.commercial then 0 else -160, 420)

/-- The factory bounds of a rail in mV: 5 % about nominal (Table 17.5). -/
def factoryRail (i : Nat) : Int × Int := ((ceilDiv (railNominal i * 95) 100 : Nat), (railNominal i * 105 / 100 : Nat))

/-- An Ethernet port's factory settings (Table 14.15). -/
def PortCfg.factory (mac : Nat) : PortCfg := ⟨0, 2, 1500, 0, mac, 45210, 0, 0, 0⟩

/-- The factory values of every chapter. -/
def Retained.factory (b : Build) : Retained where
  plans := List.replicate 16 none
  probes := List.replicate 2 ⟨0, 8, 0, 0⟩
  slots := List.replicate 2 (List.replicate 64 ⟨0, 0, 0, 0⟩)
  waves := [[], []]
  gates := List.replicate 16 ⟨10, 2048⟩
  tb := TbCfg.factory
  trail := ⟨0, 0, 0⟩
  launchZero := List.replicate 16 (-2147483648)
  cplTimeout := 1000
  ports := [PortCfg.factory (nth b.macs 0 0), PortCfg.factory (nth b.macs 1 0)]
  streams := List.replicate 256 none
  holdMs := 20
  quads := List.replicate 16 QuadCfg.factory ++ [{ QuadCfg.factory with monitor := 1 }]
  refDelay := 0
  cal := List.replicate 17 CalCfg.factory
  conv := b.prodConv
  pair := b.prodPair
  lines := List.replicate 16 LineCfg.factory
  felt := List.replicate 16 ⟨if b.dz08 then 128 else 64, false⟩
  slow := List.replicate 16 SlowCfg.factory
  capMib := 1024
  kernels := List.replicate 4 none
  mem := MemCfg.factory
  conds := List.replicate 32 none
  armed := 0
  trigOut := List.replicate 2 ⟨false, 500, 0⟩
  therm := List.replicate 16 none
  rings := [0, 0, 0, 0]
  refCh := List.replicate 8 RefChCfg.factory
  scanMs := 0
  scan := []
  zones := List.replicate 256 none
  pins := PinCfg.factory
  zout := List.replicate 8 ZoutCfg.factory
  profiles := List.replicate 16 none
  thermBounds := List.replicate 24 (factoryThermal b)
  railBounds := (List.range 16).map factoryRail

/-! ### A part as it leaves manufacture -/

/-- The part the model starts from: a DZ16 of the industrial grade with 16 GiB of DRAM, as in the bring-up of section 15.11; what the
specification leaves to each part is neutral or zero. -/
def Build.part : Build where
  dz08 := false
  commercial := false
  rxRev := 0
  procRev := 0
  serial := zeros 16
  identityKey := zeros 97
  vendorSig := zeros 96
  vendorKeyOk := true
  norMib := 128
  installedMib := 16384
  memRate := 6400
  memRanks := 1
  macs := [0, 0]
  privatePages := []
  smbAddr := 0x4C
  prodConv := List.replicate 510 ConvSet.neutral
  prodPair := List.replicate 198 PairSet.neutral

/-- An erased configuration bank. -/
def Bank.blank (b : Build) : Bank := ⟨false, 0, 0, 0, 0, 0, 0, Retained.factory b⟩

/-- The boot record at the factory (R492, Table 16.14). -/
def BootRec.factory : BootRec := ⟨0x3F, true, 0, 0⟩

/-- A Blank part with one firmware image in slot A (R488). -/
def Security.blank : Security where
  lifecycle := 0
  owners := List.replicate 4 ⟨[], false, none⟩
  secretErased := false
  rollback := 0
  fw := [⟨[], true, 1, 0⟩, ⟨[], false, 0, 0⟩]
  running := 0
  preferred := 0
  trialPending := false
  trialRunning := false
  trialSince := 0
  load := none
  nonces := []
  sessions := []
  serviceUntil := 0
  authFails := 0

/-! ### Values after reset -/

/-- A mailbox at reset: not ready (Table 15.1). -/
def Mailbox.reset : Mailbox := ⟨3, false, 0, 0, 0, false, false, none, [], [], [], 0⟩

def CtxCfg.none_ : CtxCfg := ⟨0, 0, 0, 0, 0, 0, 0, 0, 0, 0, 0, 0, 0⟩

/-- A context at reset: idle, unconfigured (Table 14.2). -/
def Ctx.reset : Ctx where
  cfg := CtxCfg.none_
  configured := false
  postedIdx := 0
  postedWrap := false
  doneIdx := 0
  doneWrap := false
  st := 0
  cause := 0
  failAddr := 0
  failDesc := 0
  failWrite := false
  failDev := false
  stream := none
  fetchAddr := 0
  expectSeq := 0
  ended := false
  skip := false
  tokens := 0
  tokensAt := 0
  bytes := 0
  descriptors := 0
  halts := 0
  records := 0
  aborted := 0
  itemsLost := 0
  narrowed := 0
  poisoned := 0

def PortRun.reset : PortRun := ⟨false, 0, 0, 0, 0, 0, 0, 0⟩
def Vector.reset : Vector := ⟨0, 0, 0, [], false, none, 0, 0, true⟩
def Pcie.reset : Pcie := ⟨false, 0, 0, 0, 0⟩
def EvQueue.reset : EvQueue := ⟨[], none, [0, 0, 0, 0], 0, 0, []⟩
def EvLog.reset : EvLog := ⟨[], 0, 1023, 0, 0⟩
def Warn.reset : Warn := ⟨false, 0, none, [], []⟩
def LineGrid.reset : LineGrid := ⟨none, 0, 0, 0, 0, 0, none, [], [], false, 0, (none, false)⟩
def Gate.reset : Gate := ⟨none, 0, [], []⟩
def ProbeRun.reset : ProbeRun := ⟨none, 0⟩
def Emit.reset : Emit := ⟨false, none, none, []⟩
def Debug.reset : Debug := ⟨0, 0, false, [], 0⟩
def Segment.reset : Segment := ⟨0, false, false, 0, 0, 0, false, false, none⟩

/-- The time base from an instant on (R26, R306): SECOND counts from 0, nothing has set it; REFCLK_10M and the thermos count go on. -/
def TimeBase.start (now : Nat) (refclk : Bool) (lostAt present : Nat) : TimeBase where
  secTick := now
  secVal := 0
  prevTick := now
  prevVal := 0
  scaleFrom := now
  timeSet := false
  phaseFixed := false
  secondFixed := false
  refclk := refclk
  refLostAt := lostAt
  synthLocked := false
  presentSince := present
  warm := false
  warmFrom := none
  warmupSince := present
  steer := 0
  steerSince := now
  steerGoal := 0
  steerHist := []
  steerCorr := 0
  offsetPs := 0
  regainPs := 0
  measured := none
  measuredPrev := none
  measureNew := false
  ppsLocked := false
  ppsAcq := []
  ppsLast := none
  ppsOutRun := 0
  ptpValid := false
  ptpLast := none
  ptp := PtpRun.reset
  trailLocked := false
  disagree := 0
  agree := 0
  secDelta := 0
  secCounted := none
  holdover := none
  regained := false
  pendStep := none
  pendSet := none
  ppsOutHigh := false
  ppsOutSince := 0
  steps := 0
  ppsMissed := 0
  ppsOutOfWindow := 0
  servoDiscarded := 0
  ptpSync := 0
  ptpIgnored := 0

def TiuState.reset : TiuState := ⟨List.replicate 5 ⟨true, none, 0⟩, 0, 0, 0, 0, none, 50⟩

def Trail.reset : Trail where
  linkUp := [false, false, false]
  alignLostAt := none
  depth := none
  parent := none
  parentDepth := none
  topo := [none, none]
  hops := []
  theta := 0
  reqSeq := 0
  t1 := none
  upHoldover := false
  upNotWarm := false
  syncMissRun := 0
  lastSync := none
  tooDeep := false
  conflict := false
  crcErrors := 0
  syncMissed := 0
  bcastRx := 0
  bcastTx := 0
  delaySkipped := 0

/-- The health record of a part without history, and sensors at 25 °C and nominal rails. -/
def Health.reset : Health where
  units := unitsAtReset
  macros := []
  sramErrs := []
  repairs := []
  fuseFailed := 0
  fusesUsed := 0
  segments := List.replicate 10 Segment.reset
  testRun := none
  thermal := List.replicate 24 ⟨100, 100, false, false⟩
  rails := (List.range 16).map (fun i => ⟨railNominal i, railNominal i, false, false⟩)
  smbAlert := false
  sramCorrected := 0
  d2dCorrected := 0
  transients := 0
  permanents := 0
  logDropped := 0
  saturated := []
  d2dMap := (List.range 128).map (fun n => n / 32 * 34 + n % 32)
  d2dErrs := []
  sramTest := []
  bootNoSpare := []
  alertCond := false

end Sys2Proof.Machine
end

