-- ==== Sys2Proof/Machine/State.lean ====
section
/-! DEFINITION. The state of the block as plain data: everything the specification gives the machine, the queue of waiting
commands, and the state right after reset. -/

namespace Sys2Proof.Machine

/-- Why a step can stop with a fault. The specification gives the block no state in which it stops (R7): no meaning raises
a fault. -/
inductive Fault where
  /-- Raised by no meaning: an access outside everything the device has. Safe: no claim rests on it. -/
  | outsideDevice
deriving DecidableEq, Repr

/-- Why a command has no meaning. -/
inductive Refusal where
  /-- Raised by a dispatch arm whose command has no meaning yet. Safe: no claim can be proved of such a command. -/
  | notModelled (mnemonic : String)
  /-- Raised by `execJtagInstruction` for the vendor's private instructions at D3, to which R503 and Table 16.9 give no
  effect. Safe: the model stops where the hardware does something unstated. -/
  | vendorPrivateInstruction
deriving DecidableEq, Repr

@[ext]
structure State where
  /-- commands waiting, first in first out -/
  pending : List Instr
  build : Build
  /-- the instant of the latest command, in ticks of 1/256 cell since power came up -/
  now : Nat
  /-- what the latest step emitted to the outside -/
  out : List Out
  /-- the model's own counter of free values taken so far -/
  free : Nat
  sys : Sys
  cfg : Retained
  mbs : List Mailbox
  pend : List Pend
  ev : EvQueue
  log : EvLog
  warn : Warn
  /-- stamp flags in force from an instant on, newest first (R30) -/
  flagHist : List (Nat × Nat)
  tb : TimeBase
  tiu : TiuState
  trail : Trail
  grid : List LineGrid
  gateRun : List Gate
  probeRun : List ProbeRun
  emit : Emit
  lines : List LineRun
  ctxs : List Ctx
  streams : List (Option StreamRun)
  ports : List PortRun
  vectors : List Vector
  pcie : Pcie
  sec : Security
  dbg : Debug
  pwr : Power
  health : Health
  /-- DRAM contents by device address; an unlisted byte reads zero (R390) -/
  dram : List Host.Cell
  /-- LTUNE0 and LTUNE1 codes (R554) -/
  ltune : List (BitVec 16)
  quads : List QuadRun
  cal : Cal
  ref2 : List RefPath
  felt : List FeltRing
  slow : List SlowRun
  tiles : TilePool
  mem : MemRun
  trig : TrigState
  therm : Therm
  zones : List ZoneRun
  panel : Panel
  bale : BaleRun
  /-- the channel mask and the capture region in force since the last restore (R273, R410) -/
  memMask : Nat
  capMibNow : Nat
deriving DecidableEq, Repr

/-- Every volatile part of the machine as a reset leaves it, on a given part at a given instant (R272, R306, R361, R446, R462, R467); what survives
a reset is put back by the reset's own rule. -/
def State.blank (b : Build) (now : Nat) : State where
  pending := []
  build := b
  now := now
  out := []
  free := 0
  sys := ⟨0, 0, 0, none, none, false, 2, 0, [Bank.blank b, Bank.blank b], Bank.blank b, BootRec.factory, none, none, none, none, 0, 0, 0, 0⟩
  cfg := Retained.factory b
  mbs := List.replicate 8 Mailbox.reset
  pend := []
  ev := EvQueue.reset
  log := EvLog.reset
  warn := Warn.reset
  flagHist := []
  tb := TimeBase.start now true 0 0
  tiu := TiuState.reset
  trail := Trail.reset
  grid := List.replicate 16 LineGrid.reset
  gateRun := List.replicate 16 Gate.reset
  probeRun := List.replicate 2 ProbeRun.reset
  emit := Emit.reset
  lines := (List.range 16).map LineRun.reset
  ctxs := List.replicate 256 Ctx.reset
  streams := List.replicate 256 none
  ports := List.replicate 2 PortRun.reset
  vectors := List.replicate 64 Vector.reset
  pcie := Pcie.reset
  sec := Security.blank
  dbg := Debug.reset
  pwr := ⟨1, none, true, true⟩
  health := Health.reset
  dram := []
  ltune := [0x8000, 0x8000]
  quads := List.replicate 17 QuadRun.reset
  cal := Cal.reset
  ref2 := []
  felt := List.replicate 16 FeltRing.reset
  slow := List.replicate 16 SlowRun.reset
  tiles := TilePool.reset
  mem := MemRun.reset
  trig := TrigState.reset
  therm := Therm.reset
  zones := List.replicate 256 (ZoneRun.reset false 0)
  panel := Panel.reset
  bale := BaleRun.reset
  memMask := 0x0F
  capMibNow := 1024

/-- The machine right after reset: a part as it left manufacture, its supplies just within range, held in reset, nothing placed in any mailbox;
emission is forbidden, FAULT_N low, and BOOT_STATE 0 (Tables 15.10 and 15.14, R359, R544). -/
def State.reset : State := State.blank Build.part 0

end Sys2Proof.Machine
end

