-- ==== Sys2Proof/Machine/Ops.lean ====
section
/-! DEFINITION. The named operations every meaning is made of: the passage of time, the outputs that follow the state,
stamps, events, the event log, and the delivery of items to streams. -/

namespace Sys2Proof.Machine

/-! ### Small updates -/

def State.modSys (s : State) (f : Sys → Sys) : State := { s with sys := f s.sys }
def State.modCfg (s : State) (f : Retained → Retained) : State := { s with cfg := f s.cfg }
def State.modTb (s : State) (f : TimeBase → TimeBase) : State := { s with tb := f s.tb }
def State.modTiu (s : State) (f : TiuState → TiuState) : State := { s with tiu := f s.tiu }
def State.modTrail (s : State) (f : Trail → Trail) : State := { s with trail := f s.trail }
def State.modSec (s : State) (f : Security → Security) : State := { s with sec := f s.sec }
def State.modHealth (s : State) (f : Health → Health) : State := { s with health := f s.health }
def State.modGrid (s : State) (l : Nat) (f : LineGrid → LineGrid) : State := { s with grid := upd s.grid l f }
def State.modLine (s : State) (l : Nat) (f : LineRun → LineRun) : State := { s with lines := upd s.lines l f }
def State.modCtx (s : State) (c : Nat) (f : Ctx → Ctx) : State := { s with ctxs := upd s.ctxs c f }
def State.modMb (s : State) (n : Nat) (f : Mailbox → Mailbox) : State := { s with mbs := upd s.mbs n f }
def State.modPort (s : State) (n : Nat) (f : PortRun → PortRun) : State := { s with ports := upd s.ports n f }
def State.modVector (s : State) (n : Nat) (f : Vector → Vector) : State := { s with vectors := upd s.vectors n f }
def State.emit1 (s : State) (o : Out) : State := { s with out := s.out ++ [o] }

/-- DRAM is unavailable: a command whose execution needs it is rejected with ST_HW_FAULT (R411). -/
def State.noDram (s : State) : Bool := !s.mem.available

def State.plan? (s : State) (l : Nat) : Option Plan := nth s.cfg.plans l none
def State.gridOf (s : State) (l : Nat) : LineGrid := nth s.grid l default
def State.lineOf (s : State) (l : Nat) : LineRun := nth s.lines l default
def State.ctxOf (s : State) (c : Nat) : Ctx := nth s.ctxs c default
def State.mbOf (s : State) (n : Nat) : Mailbox := nth s.mbs n default

/-- A line that launches: running, or running until its stop boundary (Table 5.14). -/
def State.running (s : State) (l : Nat) : Bool := (s.lineOf l).st == 2 || (s.lineOf l).st == 3

/-- Lines, quads, gates and APD pairs enabled on the variant (R2): 16, or 8 on a DZ08. -/
def State.lineCount (s : State) : Nat := if s.build.dz08 then 8 else 16

def State.lineEnabled (s : State) (l : Nat) : Bool := decide (l < s.lineCount)

/-- Every line of a mask is enabled (R3). -/
def State.maskEnabled (s : State) (m : Nat) : Bool := decide (m < 2 ^ s.lineCount)

/-- Q16 is enabled on both variants (R2). -/
def State.quadEnabled (s : State) (q : Nat) : Bool := s.lineEnabled q || q == 16

/-! ### The time scale -/

/-- The second count of an instant and the ticks since its boundary, on the scale in force at that instant (R26, R27). -/
def State.secondAt (s : State) (x : Nat) : Nat × Nat :=
  if s.tb.scaleFrom ≤ x then
    (s.tb.secVal + (x - s.tb.secTick) / ticksPerSecond, (x - s.tb.secTick) % ticksPerSecond)
  else if s.tb.prevTick ≤ x then
    (s.tb.prevVal + (x - s.tb.prevTick) / ticksPerSecond, (x - s.tb.prevTick) % ticksPerSecond)
  else
    let k := ceilDiv (s.tb.prevTick - x) ticksPerSecond
    (s.tb.prevVal - k, k * ticksPerSecond - (s.tb.prevTick - x))

/-- The tick of the boundary of a second number on the present scale; none for a second before the scale's first. -/
def State.boundaryOf (s : State) (second : Nat) : Option Nat :=
  if s.tb.secVal ≤ second then some (s.tb.secTick + (second - s.tb.secVal) * ticksPerSecond)
  else
    let back := (s.tb.secVal - second) * ticksPerSecond
    if back ≤ s.tb.secTick then some (s.tb.secTick - back) else none

/-- The second boundary at or before an instant. -/
def State.boundaryAtOrBefore (s : State) (x : Nat) : Nat := x - (s.secondAt x).2

/-- The first second boundary at or after an instant. -/
def State.boundaryAtOrAfter (s : State) (x : Nat) : Nat :=
  if (s.secondAt x).2 = 0 then x else s.boundaryAtOrBefore x + ticksPerSecond

/-- A whole cell of the present scale: the last at or before an instant, and the first at or after it. -/
def State.floorCell (s : State) (x : Nat) : Nat := x - (s.secondAt x).2 % ticksPerCell
def State.ceilCell (s : State) (x : Nat) : Nat := if (s.secondAt x).2 % ticksPerCell = 0 then x else s.floorCell x + ticksPerCell

/-- An instant is a second boundary of the present scale. -/
def State.isBoundary (s : State) (x : Nat) : Bool := decide (s.tb.scaleFrom ≤ x) && (s.secondAt x).2 == 0

/-- The device's counter of elapsed seconds, which needs no time base to be set (R485). -/
def State.elapsed (s : State) : Nat := s.now / ticksPerSecond

/-! ### Stamp flags (R26, R30, R280 to R282, R288, R300, R503) -/

/-- The HOLDOVER flag now. -/
def State.holdoverFlag (s : State) : Bool :=
  s.tb.holdover.isSome || !s.tb.timeSet || !s.tb.refclk || (s.cfg.tb.source == 4 && s.trail.upHoldover)

/-- The NOT_WARM flag now. -/
def State.notWarmFlag (s : State) : Bool :=
  !s.tb.refclk || !s.tb.warm || (match s.tb.warmFrom with | some w => decide (s.now < w) | none => false) ||
    (s.cfg.tb.source == 4 && s.trail.upNotWarm)

/-- DEBUG_TAINTED, HOLDOVER and NOT_WARM in their places (Table 1.3). -/
def State.flagsNow (s : State) : Nat :=
  b2n (decide (2 ≤ s.dbg.level)) * 8 + b2n s.holdoverFlag * 2 + b2n s.notWarmFlag

/-- The flags in force at an instant: the newest entry of the history that began no later (R30). -/
def State.flagsAt (s : State) (x : Nat) : Nat :=
  if s.now ≤ x then s.flagsNow
  else match s.flagHist.find? (fun e => decide (e.1 ≤ x)) with
    | some e => e.2
    | none => s.flagsNow

/-! ### Stamps (R22 to R25) -/

/-- The second-relative stamp of Table 1.4. -/
def secondStampOf (second cell frac : Nat) (line : Option Nat) (flags : Nat) : BitVec 96 :=
  BitVec.ofNat 96 (second % 2 ^ 40 * 2 ^ 56 + 2 ^ 55 + b2n line.isNone * 2 ^ 45 + cell % 2 ^ 29 * 2 ^ 16 +
    frac % 256 * 2 ^ 8 + line.getD 0 % 16 * 2 ^ 4 + flags % 16)

/-- The sheet-relative stamp of Table 1.3. -/
def sheetStampOf (second index cell frac line flags : Nat) : BitVec 96 :=
  BitVec.ofNat 96 (second % 2 ^ 40 * 2 ^ 56 + index % 2 ^ 19 * 2 ^ 36 + cell % 2 ^ 20 * 2 ^ 16 +
    frac % 256 * 2 ^ 8 + line % 16 * 2 ^ 4 + flags % 16)

/-- Fields of a stamp. -/
def stampSecond (v : BitVec 96) : Nat := field v.toNat 56 40
def stampForm (v : BitVec 96) : Bool := bit v.toNat 55
def stampIndex (v : BitVec 96) : Nat := field v.toNat 36 19
def stampSheetCell (v : BitVec 96) : Nat := field v.toNat 16 20
def stampCell (v : BitVec 96) : Nat := field v.toNat 16 29
def stampNoLine (v : BitVec 96) : Bool := bit v.toNat 45
def stampLine (v : BitVec 96) : Nat := field v.toNat 4 4

/-- The 12 bytes of a stamp (R25). -/
def stampBytes (v : BitVec 96) : List Byte := leBytes 12 v.toNat

/-- The stamp of an instant in second-relative form; `line` none sets NO_LINE. With `frac` the fraction is valid and its
flag set, otherwise the stamp is to the cell (R29). -/
def State.secStamp (s : State) (x : Nat) (line : Option Nat) (frac : Bool) : BitVec 96 :=
  let p := s.secondAt x
  secondStampOf p.1 (p.2 / ticksPerCell) (if frac then p.2 % ticksPerCell else 0) line
    (s.flagsAt x + b2n frac * 4)

/-- The stamp of an instant that concerns no line. -/
def State.devStamp (s : State) (x : Nat) : BitVec 96 := s.secStamp x none false

/-- The latest launch of a line at or before an instant, by second, index and tick. -/
def State.launchBefore (s : State) (l x : Nat) : Option (Nat × Nat × Nat) :=
  (s.gridOf l).launches.find? (fun e => decide (e.1 ≤ x))

/-- The stamp of an instant of a line (R24): sheet-relative within 1 048 575 cells after the line's latest grid launch,
second-relative otherwise. -/
def State.lineStamp (s : State) (l x : Nat) (frac : Bool) : BitVec 96 :=
  match s.launchBefore l x with
  | some (tick, second, index) =>
    if (s.plan? l).isSome && decide ((x - tick) / ticksPerCell ≤ 1048575) then
      sheetStampOf second index ((x - tick) / ticksPerCell) (if frac then (x - tick) % ticksPerCell else 0) l
        (s.flagsAt x + b2n frac * 4)
    else s.secStamp x (some l) frac
  | none => s.secStamp x (some l) frac

/-! ### Event sources (Table 15.9) -/

def srcLine (l : Nat) : Nat := l
def srcQuad (q : Nat) : Nat := 0x10 + q
def srcEngine (n : Nat) : Nat := 0x30 + n
def srcTile (n : Nat) : Nat := 0x50 + n
def srcChannel (n : Nat) : Nat := 0x80 + n
def srcTiu (n : Nat) : Nat := 0x88 + n
def srcSlice (n : Nat) : Nat := 0x90 + n
def srcHs (n : Nat) : Nat := 0x98 + n
def srcProbe (n : Nat) : Nat := 0xA0 + n
def srcTimeBase : Nat := 0xB0
def srcTrail : Nat := 0xB1
def srcPcie : Nat := 0xC0
def srcPort (n : Nat) : Nat := 0xC1 + n
def srcCpc : Nat := 0xD0
def srcMss : Nat := 0xD1
def srcCompression : Nat := 0xE0
def srcDma : Nat := 0xE1
def srcDevice : Nat := 0xFF

/-- Severities (Table 15.8). -/
def sevInfo : Nat := 0
def sevNotice : Nat := 1
def sevDegraded : Nat := 2
def sevFault : Nat := 3

/-- The 32 bytes of an event record (Table 15.8). -/
def evBytes (r : EvRec) : List Byte :=
  u16 r.code ++ u8 r.sev ++ u8 r.src ++ stampBytes r.stamp ++ u32 r.count ++ fit 12 r.args

/-! ### The event log (R528 to R530) -/

/-- Events logged whatever their severity: those their chapter names (R507) and those of R528. -/
def alwaysLogged (code : Nat) (args : List Byte) : Bool :=
  code == 0x0E01 || code == 0x0E05 || code == 0x0102 || (code == 0x0F02 && rd args 3 1 == 1) || code == 0x0F07 ||
    code == 0x0F08

/-- Entries per sector and sectors kept behind the open one (R529). -/
def logKeep (entries : List LogEntry) (seq : Nat) : List LogEntry :=
  entries.filter (fun e => decide (seq / 1023 ≤ e.seq / 1023 + 65))

/-- Program one entry into the log. -/
def EvLog.put (g : EvLog) (record : List Byte) (boot : Nat) : EvLog :=
  { g with entries := logKeep g.entries g.nextSeq ++ [⟨record, g.nextSeq, boot⟩], nextSeq := g.nextSeq + 1 }

/-- The limiter's tokens at an instant: one per second on average, burst 1 023 (R530). -/
def EvLog.refill (g : EvLog) (now : Nat) : EvLog :=
  let k := (now - g.tokenAt) / ticksPerSecond
  { g with tokens := min 1023 (g.tokens + k), tokenAt := g.tokenAt + k * ticksPerSecond }

/-- PWR_WARN is qualified: no NOR write is begun (R531). -/
def State.norHeld (s : State) : Bool := s.warn.level

/-- Log one record, under the limiter and the power-fail hold (R528, R530, R531). -/
def State.logRecord (s : State) (record : List Byte) : State :=
  let g := s.log.refill s.now
  if s.norHeld then { s with log := g, warn := { s.warn with withheld := s.warn.withheld ++ [record] } }
  else if g.tokens = 0 then
    { s with
      log := { g with droppedPending := g.droppedPending + 1 }
      health := { s.health with logDropped := satAdd s.health.logDropped 1 } }
  else { s with log := { g.put record s.sys.boot.bootCount with tokens := g.tokens - 1 } }

/-! ### The event queue (R465 to R467) -/

/-- Insert a record in order of the instants the stamps name; records of one instant keep their order of entry. -/
def insertRec (r : EvRec) : List EvRec → List EvRec
  | [] => [r]
  | a :: rest => if a.inst ≤ r.inst then a :: insertRec r rest else r :: a :: rest

/-- The unreleased record an occurrence joins (R466): same code, source and further key. -/
def joins (r a : EvRec) : Bool :=
  match r.key, a.key with
  | some k, some k' => a.code == r.code && a.src == r.src && k == k'
  | _, _ => false

/-- Join an occurrence to its record: COUNT advances and saturates; stamp and arguments stay (R466). -/
def joinRec (r : EvRec) : List EvRec → Option (List EvRec)
  | [] => none
  | a :: rest =>
    if joins r a then some ({ a with count := satAdd a.count 1 } :: rest)
    else (joinRec r rest).map (a :: ·)

/-- Records the queue holds besides the slot reserved for EV_EVENTS_LOST (R465, R467). -/
def queueSpace : Nat := 16383

/-- Count an event that finds no space, by severity (R467). -/
def EvQueue.lose (q : EvQueue) (sev : Nat) : EvQueue :=
  { q with lost := upd q.lost sev (· + 1), eventsLost := satAdd q.eventsLost 1 }

/-- Enter a record: join, lose, or insert (R465 to R467); while in P2 the on-die buffer of 256 records takes it (R498).
A record earlier than one already released is late: counted, and due at once. The second answer says that the record opened in the queue itself. -/
def EvQueue.enter (q : EvQueue) (p2 : Bool) (now : Nat) (r : EvRec) : EvQueue × Bool :=
  match joinRec r q.held with
  | some h => ({ q with held := h }, false)
  | none =>
    if p2 then
      match joinRec r q.p2buf with
      | some h => ({ q with p2buf := h }, false)
      | none => if q.p2buf.length < 256 then ({ q with p2buf := q.p2buf ++ [r] }, false) else (q.lose r.sev, false)
    else if queueSpace ≤ q.held.length then (q.lose r.sev, false)
    else
      match q.lastReleased with
      | some x =>
        if r.inst < x then ({ q with held := insertRec { r with due := now } q.held, late := satAdd q.late 1 }, true)
        else ({ q with held := insertRec r q.held }, true)
      | none => ({ q with held := insertRec r q.held }, true)

/-- Events go to the on-die buffer: in P2, from which no transition or shutdown is under way (R498). -/
def State.onDie (s : State) : Bool := s.pwr.st == 2 && s.pwr.pend.isNone && s.sys.shutdown.isNone

/-- A record enters the queue, or in P2 the on-die buffer; one that opens in the queue is logged when its severity or chapter asks for it, with its
COUNT at entry (R467, R528). -/
def State.enterEvent (s : State) (p2 : Bool) (r : EvRec) : State :=
  let q := s.ev.enter p2 s.now r
  let s1 := { s with ev := q.1 }
  if q.2 && (decide (2 ≤ r.sev) || alwaysLogged r.code r.args) then s1.logRecord (evBytes r) else s1

/-- Raise an event (R464): it enters under the hold in force. -/
def State.raise (s : State) (code sev src : Nat) (stamp : BitVec 96) (inst : Nat) (args : List Byte)
    (key : Option (List Nat)) : State :=
  s.enterEvent s.onDie ⟨code, sev, src, stamp, inst, inst + s.cfg.holdMs * ticksPerMs, 1, fit 12 args, key⟩

/-- Raise an event of the device at the present instant, stamped second-relative with NO_LINE. -/
def State.raiseNow (s : State) (code sev src : Nat) (args : List Byte) (key : Option (List Nat)) : State :=
  s.raise code sev src (s.devStamp s.now) s.now args key

/-- Raise an event of a line at an instant of it. -/
def State.raiseLine (s : State) (code sev l x : Nat) (args : List Byte) (key : Option (List Nat)) : State :=
  s.raise code sev (srcLine l) (s.lineStamp l x false) x args key

/-- Two pending counts become the arguments of EV_EVENTS_LOST: each u16 saturating (Table 15.19). -/
def lostArgs (l : List Nat) : List Byte := l.flatMap (fun n => u16 (satTo 2 n))

/-- Report lost events once space returns (R467): the reserved slot takes the record. -/
def State.reportLost (s : State) : State :=
  if s.ev.lost.any (fun n => decide (0 < n)) && decide (s.ev.held.length < queueSpace) then
    let args := lostArgs s.ev.lost
    let s1 := { s with ev := { s.ev with lost := [0, 0, 0, 0] } }
    let r : EvRec := ⟨0x0103, sevDegraded, srcDevice, s1.devStamp s1.now, s1.now, s1.now + s1.cfg.holdMs * ticksPerMs,
      1, fit 12 args, none⟩
    ({ s1 with ev := { s1.ev with held := insertRec r s1.ev.held } }).logRecord (evBytes r)
  else s

/-- Report dropped log entries when the limiter's capacity returns (R530). -/
def State.reportDropped (s : State) : State :=
  if 0 < s.log.droppedPending && decide (0 < (s.log.refill s.now).tokens) && !s.norHeld then
    let n := s.log.droppedPending
    let s1 := { s with log := { s.log with droppedPending := 0 } }
    let r : EvRec := ⟨0x0F09, sevNotice, srcMss, s1.devStamp s1.now, s1.now, s1.now + s1.cfg.holdMs * ticksPerMs, 1,
      fit 12 (u32 (satTo 4 n)), none⟩
    ({ s1 with ev := (s1.ev.enter s1.onDie s1.now r).1 }).logRecord (evBytes r)
  else s

/-! ### Pending commands (R460 to R462) -/

/-- The mailbox number that marks a stop or start the device makes of its own, within another command: it is no command of the host. -/
def ownMb : Nat := 0xFF

/-- The commands of hosts that are pending. -/
def State.hostPending (s : State) : List Pend := s.pend.filter (fun p => p.mb != ownMb)

/-- EV_APPLIED for a pending command: the effective stamp, and opcode, mailbox, sequence and final status. Its source is the device, or what the
command's section names where one is raised for each line, gate or probe (R59, R64, R71, R460). What the device does of its own raises none. -/
def State.applied (s : State) (p : Pend) (src : Nat) (stamp : BitVec 96) (inst status : Nat) : State :=
  if p.mb = ownMb then s
  else s.raise 0x0101 sevInfo src stamp inst (u16 p.op ++ u8 p.mb ++ u16 p.seq ++ u16 status) none

/-- The first pending command, in acceptance order, of an opcode that concerns a unit. -/
def State.pendOf (s : State) (op unit : Nat) : Option Pend :=
  s.pend.find? (fun p => p.op == op && p.units.contains unit)

/-- A pending command of an opcode, whatever its units. -/
def State.pendOp (s : State) (op : Nat) : Option Pend := s.pend.find? (fun p => p.op == op)

/-- Strike a unit off the first pending command of an opcode that has it; a command with no unit left is done. -/
def strike (op unit : Nat) : List Pend → List Pend
  | [] => []
  | p :: r =>
    if p.op == op && p.units.contains unit then
      let u := p.units.filter (· != unit)
      if u.isEmpty then r else { p with units := u } :: r
    else p :: strike op unit r

def State.strike (s : State) (op unit : Nat) : State := { s with pend := Machine.strike op unit s.pend }

/-- Strike a unit off a pending command that raises one EV_APPLIED in all: it is raised with the last unit (R460). -/
def State.strikeLast (s : State) (p : Pend) (unit : Nat) (stamp : BitVec 96) (inst : Nat) : State :=
  let s1 := s.strike p.op unit
  if p.units.all (· == unit) then s1.applied p srcDevice stamp inst 0 else s1

/-- Remove the first pending command of an opcode. -/
def State.dropOp (s : State) (op : Nat) : State := { s with pend := s.pend.eraseP (fun p => p.op == op) }

/-- The effective stamp of a pending effect: second-relative (R24), with the line or with NO_LINE. -/
def State.effStamp (s : State) (x : Nat) (line : Option Nat) : BitVec 96 := s.secStamp x line false

/-! ### Streams (R436, R437) -/

/-- Give an item to every stream attached to a source for which `sel` holds of the definition. -/
def State.deliver (s : State) (sel : StreamDef → Bool) (i : Item) : State :=
  { s with streams := s.streams.zipIdx.map (fun p =>
      match p.1, nth s.cfg.streams p.2 none with
      | some r, some d =>
        if sel d && r.detach.isNone then some { r with waiting := r.waiting ++ [(s.now, i)] } else some r
      | r, _ => r) }

/-- Mark items lost in every stream attached to a source for which `sel` holds: an ABORTED record will stand there (R439). -/
def State.abortItems (s : State) (sel : StreamDef → Bool) (cause count line : Nat) (first last : BitVec 96) : State :=
  if count = 0 then s else s.deliver sel ⟨[], first, s.now, line, 0, some (cause, count, last)⟩

/-- Records of items already closed, but of which nothing has moved yet, are taken apart again: what the source overwrites is not in them (R440). -/
def StreamRun.reopen (r : StreamRun) : StreamRun :=
  let keep := r.closed.take (b2n (decide (0 < r.headOff)))
  let rest := r.closed.drop (b2n (decide (0 < r.headOff)))
  let data := (rest.reverse.takeWhile (fun x => x.kind == 0)).reverse
  let before := rest.take (rest.length - data.length)
  { r with
    closed := keep ++ before, recSeq := (r.recSeq + 2 ^ 32 - data.length % 2 ^ 32) % 2 ^ 32
    waiting := data.flatMap (fun x => x.ends.map (fun e => (r.lastReady, e.2))) ++ r.waiting }

/-- A stream that its source has overtaken (R440): the items for which `gone` holds are lost, one ABORTED record of cause 0 stands for them,
ITEMS_LOST counts them and EV_STREAM_LOST is raised. `count` is the number its chapter gives, where it gives one. -/
def State.streamLose (s : State) (k : Nat) (gone : Item → Bool) (count : Option Nat) : State :=
  match nth s.streams k none with
  | none => s
  | some r0 =>
    let r := r0.reopen
    let out := r.waiting.filter (fun e => e.2.lost.isNone && gone e.2)
    match out.head?, out.getLast? with
    | some a, some b =>
      let n := count.getD out.length
      let stays := fun (e : Nat × Item) => e.2.lost.isSome || !gone e.2
      let mark : Item := ⟨[], a.2.stamp, s.now, a.2.line, a.2.ident, some (0, n, b.2.stamp)⟩
      let s1 := { s with streams := s.streams.set k (some { r with waiting := r.waiting.takeWhile stays ++ (s.now, mark) :: (r.waiting.dropWhile stays).filter stays, baleRow := 0, baleGroup := 0 }) }
      (s1.modCtx r.ctx (fun c => { c with itemsLost := satAdd c.itemsLost n })).raise 0x0D03 sevNotice srcDma (s1.devStamp s1.now) s1.now
        (u8 k ++ u8 0 ++ u32 (satTo 4 n)) (some [k])
    | _, _ => s

/-- Raise a cause on an MSI-X vector (R433). -/
def State.cause (s : State) (v : Nat) : State :=
  s.modVector v (fun x => { x with causes := x.causes ++ [s.now] })

/-! ### Outputs that follow the state -/

/-- Emission is forbidden: EMIT_PERMIT low or its qualification not ended (R60, R569), P2 or P3 (R62), a scrapped device
(R487), or a device held in reset (R544). -/
def State.dark (s : State) : Bool :=
  !s.emit.level || s.emit.qualifyFrom.isSome || decide (2 ≤ s.pwr.st) || s.sec.lifecycle == 3 || s.pwr.inReset ||
    !s.pwr.railsUp

/-- A gate brought to its inactive level at an instant, its on-time entered in the duty window (R57). -/
def Gate.close (g : Gate) (x : Nat) : Gate :=
  match g.openSince with
  | some a => { g with openSince := none, onTimes := g.onTimes ++ [(a, max a (min x g.openUntil))] }
  | none => g

/-- A gate whose launch has ended falls of itself (R56); on-times older than the 1 ms window are forgotten (R57). -/
def Gate.pass (g : Gate) (now : Nat) : Gate :=
  let g1 := if g.openUntil ≤ now then g.close now else g
  { g1 with onTimes := g1.onTimes.filter (fun e => decide (now < e.2 + ticksPerMs)) }

/-- A probe's DAC returns to the idle code at the end of its waveform (R51). -/
def ProbeRun.pass (p : ProbeRun) (now : Nat) : ProbeRun := if p.playUntil ≤ now then { p with playing := none } else p

/-- Gates and probe DACs under the interlock: while emission is forbidden every gate is inactive and every DAC at its idle
code (R51, R60, R62); the gates a DZ08 disables are inactive in every state (R4). -/
def State.settleEmission (s : State) : State :=
  { s with
    gateRun := s.gateRun.zipIdx.map (fun p =>
      if s.dark || !s.lineEnabled p.2 then (p.1.close s.now).pass s.now else p.1.pass s.now)
    probeRun := s.probeRun.map (fun p => if s.dark then { p with playing := none } else p.pass s.now) }

/-- The changes of the stamp flags that an instant of the last ten seconds can ask for, newest first: those within them and the one before. -/
def flagKeep (now : Nat) (l : List (Nat × Nat)) : List (Nat × Nat) :=
  let recent := fun (e : Nat × Nat) => decide (now < e.1 + 10 * ticksPerSecond)
  l.takeWhile recent ++ (l.dropWhile recent).take 1

/-- The flag history up to an instant: NOT_WARM clears at its second boundary (R281), whether or not a command comes then. -/
def State.flagsUntil (s : State) (t : Nat) : List (Nat × Nat) :=
  match s.tb.warmFrom with
  | some w => if s.now < w && decide (w ≤ t) then (w, ({ s with now := w }).flagsNow) :: s.flagHist else s.flagHist
  | none => s.flagHist

/-- Remember a change of the stamp flags (R30). -/
def State.settleFlags (s : State) : State :=
  match s.flagHist with
  | e :: _ => if e.2 = s.flagsNow then s else { s with flagHist := flagKeep s.now ((s.now, s.flagsNow) :: s.flagHist) }
  | [] => { s with flagHist := [(s.now, s.flagsNow)] }

/-- Zones are evaluated (R353, R487): in P0 and P1, once the settings are restored, while the CPC firmware runs and is not halted, on a part that is
not scrapped. -/
def State.zonesOn (s : State) : Bool := decide (s.pwr.st < 2) && (s.sys.bootState == 4 || s.sys.bootState == 5) && !s.dbg.cpcHalted && s.sec.lifecycle != 3

/-- When evaluation stops, NOT_EVALUATING is set in every zone word (R353). -/
def State.settleZones (s : State) : State :=
  if s.zonesOn = s.panel.evaluating then s
  else { s with panel := { s.panel with evaluating := s.zonesOn }, zones := if s.zonesOn then s.zones else s.zones.map ZoneRun.halt }

def State.zoneOf (s : State) (n : Nat) : ZoneRun := nth s.zones n default

/-- An EV_NO_SPARE stands unresolved (R514). -/
def State.noSpareOpen (s : State) : Bool := s.health.units.any (fun l => l.any Unit_.noSpare) || s.health.macros.any (fun e => e.2.noSpare)

/-- ALARM_N[k] low (R359). -/
def State.alarmLow (s : State) (a : Nat × Nat) : Bool := s.zones.zipIdx.any (fun e => bit a.2 e.2 && bit a.1 e.1.state)

/-- FAULT_N low (R359); a lost DRAM channel holds it low as an unresolved EV_NO_SPARE does (R409). -/
def State.faultLow (s : State) : Bool :=
  !s.panel.evaluating || s.noSpareOpen || s.mem.chans.any (fun c => c.st == 3) || s.zones.zipIdx.any (fun e => bit s.cfg.pins.fault e.2 && e.1.faultPresent)

/-- The code of an analogue zone output (R360). -/
def State.zoutCode (s : State) (o : ZoutCfg) : Nat :=
  match o.mode with
  | 1 => if !s.panel.evaluating then nth o.codes 4 0 else if (s.zoneOf o.zone).state < 5 then nth o.codes (s.zoneOf o.zone).state 0 else nth o.codes 0 0
  | 2 => 16 * (s.zoneOf o.zone).level
  | _ => 0

/-- The pins as the mirror and the device stand (R359, R360): before restore ALARM_N is released. -/
def State.pinsNow (s : State) : Pins :=
  ⟨s.cfg.pins.alarms.map s.alarmLow, s.faultLow, s.cfg.zout.map s.zoutCode⟩

/-- The panel's pins follow the mirror. -/
def State.settlePins (s : State) : State := { s with panel := { s.panel with pins := s.pinsNow } }

/-- The condition of SMB_ALERT_N (R563): FAULT_N driven low, or a sensor outside its bounds. -/
def State.alertNow (s : State) : Bool := s.panel.pins.fault || s.health.thermal.any Sensor.outside || s.health.rails.any Sensor.outside

/-- SMB_ALERT_N falls when its condition begins and is released with it; once read it stays released until the condition next begins (R563). -/
def State.settleAlert (s : State) : State :=
  s.modHealth (fun h => { h with alertCond := s.alertNow, smbAlert := s.alertNow && (h.smbAlert || !h.alertCond) })

/-- Everything that follows the state at once after any command. -/
def State.settle (s : State) : State :=
  s.reportLost.reportDropped.settleFlags.settleEmission.settleZones.settlePins.settleAlert

/-- The machine at the instant of a command: the clock never runs back, and outputs are those of this command. -/
def State.atInstant (s : State) (t : Nat) : State := { s with now := max s.now t, out := [], flagHist := s.flagsUntil t }

/-- The shape of every meaning: time passes to the command's instant, its effect happens, what follows the state follows
it. -/
def finish (t : Nat) (s : State) (f : State → State) : Host.Outcome State Fault Refusal :=
  .next (f (s.atInstant t)).settle

end Sys2Proof.Machine
end

