-- ==== Sys2Proof/Machine/HealthOps.lean ====
section
/-! DEFINITION. Units of the hamper, detected errors and EV_NO_SPARE (R508, R510, R511, R513, R514): what every chapter that
can find an error in one of its units uses. The units' work moves under each kind's own rule. -/

namespace Sys2Proof.Machine

def kindConverter : Nat := 0
def kindLine : Nat := 1
def kindTile : Nat := 2
def kindTiu : Nat := 3
def kindSlice : Nat := 4
def kindModulator : Nat := 5
def kindRow : Nat := 6
def kindMacro : Nat := 7
def kindD2d : Nat := 8
def kindBale : Nat := 9
def kindLead : Nat := 10

/-- How many units of a kind there are (Table 17.1). -/
def unitCount (k : Nat) : Nat := nth [85, 17, 36, 5, 5, 2, 4, 1152, 136, 4, 68] k 0

/-- The record of a unit; an SRAM macro without one is active with no error. -/
def State.hUnit (s : State) (k i : Nat) : Unit_ :=
  if k = kindMacro then sget Unit_.fresh s.health.macros i else nth (nth s.health.units k []) i Unit_.fresh

def State.modHUnit (s : State) (k i : Nat) (f : Unit_ → Unit_) : State :=
  s.modHealth (fun h =>
    if k = kindMacro then { h with macros := sset Unit_.fresh h.macros i (f (sget Unit_.fresh h.macros i)) }
    else { h with units := upd h.units k (fun l => upd l i f) })

/-- A unit whose state lets it carry work: active, wearing or suspect. -/
def Unit_.serves (u : Unit_) : Bool := u.st == 0 || u.st == 4 || u.st == 6

/-- A retired unit; one retired without a spare reads degraded (R514), as does one whose test waits for a spare. -/
def Unit_.gone (u : Unit_) : Bool := u.st == 3 || (u.st == 5 && u.due.isNone)

/-- The units among which a spare of a unit's kind is sought (Table 17.1). -/
def sparePool (k i : Nat) : List Nat :=
  if k = kindConverter then (List.range 5).map (fun j => i / 5 * 5 + j)
  else if k = kindD2d then (List.range 34).map (fun j => i / 34 * 34 + j)
  else if k = kindLine || k = kindTile || k = kindTiu || k = kindSlice || k = kindModulator then List.range (unitCount k)
  else []

/-- The free spare that would take a unit's work: the lowest-numbered. -/
def State.spareFor (s : State) (k i : Nat) : Option Nat :=
  (sparePool k i).find? (fun j => (s.hUnit k j).st == 1 && j != i)

/-- The event source of a unit: its own under Table 15.9 where it has one, otherwise the MSS (R508). -/
def unitSource (k i : Nat) : Nat :=
  if k = kindLine then srcEngine i
  else if k = kindTile then srcTile i
  else if k = kindTiu then srcTiu i
  else if k = kindSlice then srcSlice i
  else if k = kindRow then srcChannel i
  else srcMss

/-- A detected error (R510 step 1, R511): counted, and unless the unit is under test or out of service, its test falls due. -/
def State.detect (s : State) (k i : Nat) : State :=
  s.modHUnit k i (fun u =>
    let v := { u with errors := satAdd u.errors 1 }
    if u.st = 2 || u.st = 3 || u.st = 5 || u.due.isSome then v else { v with due := some (2, false), moveSince := s.now })

/-- A test of the unit waits to be run. -/
def State.testDue (s : State) (k i : Nat) : Bool := (s.hUnit k i).due.isSome

/-- The unit's test begins; its work has been moved (R510 steps 2 and 3). -/
def State.beginTest (s : State) (k i : Nat) : State :=
  s.modHUnit k i (fun u => { u with
    st := 2, testSince := s.now, onDemand := (u.due.map Prod.snd).getD false, due := none, noSpare := false })

/-- A due test of a unit that carries no work begins at once. -/
def State.testIfDue (s : State) (k i : Nat) : State := if s.testDue k i then s.beginTest k i else s

/-- A spare has taken the work of a unit: the spare is active; the unit's test begins, or it is retired (R510, R514). A wearing tile is tested
(R238). -/
def State.spareTakes (s : State) (k i j : Nat) : State :=
  let s1 := s.modHUnit k j (fun v => { v with st := 0 })
  if s.testDue k i || (k = kindTile && (s.hUnit k i).st == 4) then s1.beginTest k i
  else
    (s1.modHUnit k i (fun v => { v with st := 3, noSpare := false })).modHealth (fun h =>
      if (s.hUnit k i).st = 4 then { h with permanents := satAdd h.permanents 1 } else h)

/-- Why a substitution is made (Tables 7.17, 9.17, 10.13): 2 test due, 1 wearing, 0 permanent. -/
def Unit_.spareCause (u : Unit_) : Nat := if u.due.isSome then 2 else if u.st = 4 then 1 else 0

/-- A unit's work is to move to a spare as soon as one is free: its test is due, it is wearing, or it is retired and its EV_NO_SPARE unresolved. -/
def Unit_.wantsSpare (u : Unit_) : Bool := u.due.isSome || u.st == 4 || (u.gone && u.noSpare)


/-- The transients of a unit within the last 86 400 s (R513). -/
def State.recentTransients (s : State) (u : Unit_) : Nat := (u.transients.filter (fun e => decide (s.elapsed < e + 86400))).length

/-- EV_NO_SPARE once for a unit, which is marked degraded (R514). -/
def State.reportNoSpare (s : State) (k i cause : Nat) : State :=
  if (s.hUnit k i).noSpare then s
  else
    (s.modHUnit k i (fun u => { u with st := if u.st = 4 then 4 else 5, noSpare := true })).raiseNow 0x0F01 sevDegraded
      (unitSource k i) (u8 k ++ u16 i ++ u8 cause) none

/-- An EV_NO_SPARE of a unit is unresolved (R514). -/
def State.lacksSpare (s : State) (k i : Nat) : Bool := (s.hUnit k i).noSpare

/-- EV_HEALTH_TEST (R510). -/
def State.reportTest (s : State) (k i outcome : Nat) : State :=
  let us := (s.now - (s.hUnit k i).testSince) / ticksPerUs
  s.raiseNow 0x0F02 sevNotice (unitSource k i) (u8 k ++ u16 i ++ u8 outcome ++ u32 us) none

/-! ### What the interval armings see (R292, Table 9.3) -/

/-- Sources of Table 9.3 whose edges no row of the model brings: REFCLK_10M and the Q16.LM comparator. -/
def tiuHidden (src : Nat) : Bool := src == 2 || src == 4

/-- An arming sees an edge of a source: the first start; a stop after it, or in signed mode the first stop. Answers whether a stop came before its start. -/
def Arming.see (a : Arming) (src arg x : Nat) : Arming × Bool :=
  let same := fun (n v : Nat) => n == src && (v == arg || src == 1 || src == 6)
  if x < a.armedAt || a.armedAt + a.timeout * ticksPerCell < x then (a, false)
  else
    let starts := same a.start a.startArg && a.startAt.isNone
    let b := if starts then { a with startAt := some x } else a
    if !same a.stop a.stopArg then (b, false)
    else if a.signed then ({ b with stops := if a.stops.isEmpty then [x] else a.stops }, false)
    else if tiuHidden a.start then ({ b with stops := a.stops ++ [x] }, false)
    else if a.startAt.isSome then ({ b with stops := if a.stops.isEmpty then [x] else a.stops }, false)
    else (b, !starts)

/-- An edge of a source at an instant reaches the armings in place; a stop before its start is counted (R292). -/
def State.tiuEvent (s : State) (src arg x : Nat) : State :=
  s.modTiu (fun q =>
    let r := q.units.map (fun u => (u, u.arming.map (fun a => a.see src arg x)))
    let wrong := (r.filter (fun e => match e.2 with | some p => p.2 | none => false)).length
    { q with
      units := r.map (fun e => { e.1 with arming := e.2.map Prod.fst })
      wrongOrder := satAdd q.wrongOrder wrong })

/-- A command needs a unit whose EV_NO_SPARE is unresolved: ST_NO_SPARE (R514). -/
def stNoSpareIf (s : State) (k i : Nat) : Bool := s.lacksSpare k i

end Sys2Proof.Machine
end

