-- ==== Sys2Proof/Machine/Grid.lean ====
section
/-! DEFINITION. The sheet grid (R16 to R20, R52, R54): which launches a plan makes, at which cells, with which sheet index
and which coded position, in closed form over counts of arithmetic progressions. -/

namespace Sys2Proof.Machine

/-- One progression of launches: cell of the first from the grid's origin, period in cells, what is launched. -/
structure Train where
  first : Nat
  period : Nat
  kind : LaunchKind
deriving DecidableEq, Repr, Inhabited

/-- A plan's period divides the second exactly (R16). -/
def Plan.aligned (p : Plan) : Bool := cellsPerSecond % p.period == 0

/-- The progressions of a plan counted from its grid's origin: tone `t` at O + s_t + kP (R16, R17), a thermal launch in
every N-th shot (R54). -/
def Plan.trains (p : Plan) : List Train :=
  (p.tones.zipIdx.map (fun e => ⟨p.offset + e.1.stagger, p.period, .tone e.2⟩)) ++
    (if p.thermMode = 1 then [⟨p.offset + p.thermStagger, p.period * p.thermN, .thermal⟩] else [])

/-- On an aligned grid every second is alike, so a progression is taken modulo its period (R16). -/
def Plan.gridTrains (p : Plan) : List Train :=
  if p.aligned then p.trains.map (fun r => { r with first := r.first % r.period }) else p.trains

/-- How many members of a progression lie below cell `c`. -/
def Train.below (r : Train) (c : Nat) : Nat := if c ≤ r.first then 0 else (c - r.first - 1) / r.period + 1

/-- The first member of a progression at or after cell `c`. -/
def Train.next (r : Train) (c : Nat) : Nat :=
  if c ≤ r.first then r.first else r.first + ceilDiv (c - r.first) r.period * r.period

/-- Launches of all progressions below cell `c`. -/
def countBelow (l : List Train) (c : Nat) : Nat := l.foldl (fun n r => n + r.below c) 0

/-- The first launch at or after cell `c`, and what it is. -/
def nextLaunch : List Train → Nat → Option (Nat × LaunchKind)
  | [], _ => none
  | r :: rest, c =>
    match nextLaunch rest c with
    | none => some (r.next c, r.kind)
    | some (c', k') => if c' < r.next c then some (c', k') else some (r.next c, r.kind)

/-- What is launched exactly at cell `c`. -/
def launchAt (l : List Train) (c : Nat) : Option LaunchKind :=
  (l.find? (fun r => r.next c == c)).map Train.kind

/-- The grid's origin: the tick of the present scale's boundary for an aligned plan, the anchor second's boundary for an
unaligned one (R16, R17). -/
def State.gridOrigin (s : State) (l : Nat) (p : Plan) : Nat := if p.aligned then s.tb.secTick else (s.gridOf l).anchor

/-- An instant as a whole cell from a grid's origin. -/
def cellFrom (origin x : Nat) : Option Nat :=
  if origin ≤ x && (x - origin) % ticksPerCell == 0 then some ((x - origin) / ticksPerCell) else none

/-- What the grid of a plan launches on a line at an instant (R16, R17, R54). -/
def State.gridAt (s : State) (l : Nat) (p : Plan) (x : Nat) : Option LaunchKind :=
  (cellFrom (s.gridOrigin l p) x).bind (launchAt p.gridTrains)

/-- The first grid instant of a plan at or after `x` (R18). -/
def State.nextGrid (s : State) (l : Nat) (p : Plan) (x : Nat) : Option (Nat × LaunchKind) :=
  let o := s.gridOrigin l p
  (nextLaunch p.gridTrains (ceilDiv (x - o) ticksPerCell)).map (fun e => (o + e.1 * ticksPerCell, e.2))

/-- Where counting begins on a stretch that starts at `b`: at a step of the time base that falls within it, since the grid is laid afresh
there (R27, R28), otherwise at `b`. -/
def State.countFrom (s : State) (b x : Nat) : Nat := if b < s.tb.scaleFrom && decide (s.tb.scaleFrom ≤ x) then s.tb.scaleFrom else b

/-- The sheet index of the launch at an instant: its rank among the grid launches of its second (R20), 0 for the first launch after a step
(R27). -/
def State.sheetIndex (s : State) (l : Nat) (p : Plan) (x : Nat) : Nat :=
  let b := s.boundaryAtOrBefore x
  let o := if p.aligned then b else s.gridOrigin l p
  countBelow p.gridTrains ((x - o) / ticksPerCell) - countBelow p.gridTrains (ceilDiv (s.countFrom b x - o) ticksPerCell)

/-- The boundary S of a stop: that of the pending command, or the one already taken (R167). -/
def State.stopInstant (s : State) (l : Nat) : Option Nat :=
  match (s.lineOf l).stop with
  | some r => some r.at_
  | none => match s.pendOf 0x0403 l with
    | some p => (s.plan? l).bind (fun pl => (s.nextGrid l pl (p.applyAt.getD p.accepted)).map Prod.fst)
    | none => none

/-- The stamp of an effect at a sheet boundary: a running line's launch at that very instant names it, whether or not it has been made yet (R24). -/
def State.boundaryStamp (s : State) (l x : Nat) : BitVec 96 :=
  let stopped := match (s.lineOf l).stop with | some r => decide (r.at_ ≤ x) | none => false
  match s.plan? l with
  | some p =>
    if s.running l && !stopped && (s.nextGrid l p x).map Prod.fst = some x then
      sheetStampOf (s.secondAt x).1 (s.sheetIndex l p x) 0 0 l (s.flagsAt x)
    else s.lineStamp l x false
  | none => s.lineStamp l x false

/-- The launches from cell `c` on: cell, kind, at most `n` of them and below cell `hi`. -/
def launchesFrom (l : List Train) (hi : Nat) : Nat → Nat → List (Nat × LaunchKind)
  | 0, _ => []
  | n + 1, c =>
    match nextLaunch l c with
    | none => []
    | some (c', k) => if c' < hi then (c', k) :: launchesFrom l hi n (c' + 1) else []

/-- Skip `n` launches from cell `c` on. -/
def skipLaunches (l : List Train) : Nat → Nat → Nat
  | 0, c => c
  | n + 1, c =>
    match nextLaunch l c with
    | none => c
    | some (c', _) => skipLaunches l n (c' + 1)

/-- The cells over which a plan's pattern of launches repeats, and the launches in them. -/
def Plan.superPeriod (p : Plan) : Nat × Nat :=
  if p.thermMode = 1 then (p.period * p.thermN, p.tones.length * p.thermN + 1) else (p.period, p.tones.length)

/-- The cell from which the launch of rank `i` after cell `c` is next: whole repetitions are skipped at once. -/
def seekLaunch (p : Plan) (c i : Nat) : Nat :=
  let q := p.superPeriod
  let base := p.gridTrains.foldl (fun m r => max m r.first) c
  let early := countBelow p.gridTrains base - countBelow p.gridTrains c
  if q.2 = 0 then c
  else if i < early then skipLaunches p.gridTrains i c
  else skipLaunches p.gridTrains ((i - early) % q.2) (base + (i - early) / q.2 * q.1)

/-- Cells of a second on a plan's grid: its first cell from the origin and the origin's tick. -/
def State.secondWindow (s : State) (l : Nat) (p : Plan) (b : Nat) : Nat × Nat :=
  if p.aligned then (b, 0) else ((s.gridOf l).anchor, ceilDiv (b - (s.gridOf l).anchor) ticksPerCell)

/-- The cell, from a grid's origin, from which the second that begins at `b` counts its launches. -/
def State.firstCell (s : State) (origin b : Nat) : Nat := ceilDiv (s.countFrom b (b + ticksPerSecond - 1) - origin) ticksPerCell

/-- The launch of a sheet index in the second whose boundary tick is `b`: its tick and kind; none when the second holds no
such index. -/
def State.launchOfIndex (s : State) (l : Nat) (p : Plan) (b i : Nat) : Option (Nat × LaunchKind) :=
  let w := s.secondWindow l p b
  let c := seekLaunch p (s.firstCell w.1 b) i
  match nextLaunch p.gridTrains c with
  | none => none
  | some (c', k) =>
    let x := w.1 + c' * ticksPerCell
    if x < b + ticksPerSecond then some (x, k) else none

/-- The coded position of a tone's launch at an instant (R52): its count modulo 4 within the second for an aligned plan,
from the anchor second for an unaligned one, and in either case from a step within that stretch (R28). -/
def State.codePos (s : State) (l : Nat) (p : Plan) (t x : Nat) : Nat :=
  match (p.gridTrains.find? (fun r => decide (r.kind = .tone t))) with
  | none => 0
  | some r =>
    let o := if p.aligned then s.boundaryAtOrBefore x else (s.gridOf l).anchor
    (r.below ((x - o) / ticksPerCell) - r.below (ceilDiv (s.countFrom o x - o) ticksPerCell)) % 4

/-- The instant an APPLY_AT names (R458): none when it is not a valid stamp. Zero is handled by the caller. -/
def State.instantOf (s : State) (v : BitVec 96) : Option Nat :=
  if stampForm v then
    if stampCell v < cellsPerSecond then
      (s.boundaryOf (stampSecond v)).map (fun b => b + stampCell v * ticksPerCell)
    else none
  else
    match s.plan? (stampLine v), s.boundaryOf (stampSecond v) with
    | some p, some b => (s.launchOfIndex (stampLine v) p b (stampIndex v)).map (fun e => e.1 + stampSheetCell v * ticksPerCell)
    | _, _ => none

/-- A sheet boundary of a line (R19): a launch instant of any of its sheets. -/
def State.isSheetBoundary (s : State) (l x : Nat) : Bool :=
  match s.plan? l with
  | some p => (s.gridAt l p x).isSome
  | none => false

/-- The lowest-numbered coded tone of a plan. -/
def Plan.firstCoded (p : Plan) : Option Nat := (p.tones.zipIdx.find? (fun e => e.1.cls == 2)).map Prod.snd

/-- A shot boundary of a line (R65): the launch of a tone 0, and with a coded tone one at which the coded sequence, taken of the
lowest-numbered coded tone, stands at position 0. -/
def State.shotAt (s : State) (l : Nat) (p : Plan) (x : Nat) : Bool :=
  decide (s.gridAt l p x = some (.tone 0)) && (match p.firstCoded with | some t => s.codePos l p t x == 0 | none => true)

def State.isShotBoundary (s : State) (l x : Nat) : Bool := match s.plan? l with | some p => s.shotAt l p x | none => false

/-- The next launch of tone 0 at or after an instant. -/
def State.nextTone0 (s : State) (l : Nat) (p : Plan) (x : Nat) : Nat :=
  let o := s.gridOrigin l p
  match p.gridTrains.find? (fun r => decide (r.kind = .tone 0)) with
  | some r => o + r.next (ceilDiv (x - o) ticksPerCell) * ticksPerCell
  | none => x

/-- The first shot boundary at or after an instant (R65); a coded sequence returns to position 0 within eight launches. -/
def State.nextShot (s : State) (l : Nat) (p : Plan) : Nat → Nat → Nat
  | 0, x => s.nextTone0 l p x
  | n + 1, x =>
    let y := s.nextTone0 l p x
    if s.shotAt l p y then y else s.nextShot l p n (y + 1)

/-! ### The payload of `plan.define` (Table 2.1) -/

def readTone (p : List Byte) (t : Nat) : Tone :=
  let o := 48 + 16 * t
  ⟨rd p o 4, rd p (o + 4) 1, rd p (o + 5) 1, rd p (o + 6) 1, rd p (o + 7) 1, rd p (o + 8) 2, rd p (o + 10) 2⟩

def readPlan (p : List Byte) : Plan where
  line := rd p 0 1
  probe := rd p 1 1
  decim := rd p 3 1
  period := rd p 4 4
  offset := rd p 8 4
  first := rd p 12 4
  last := rd p 16 4
  blanket := rd p 20 2
  pitch := rd p 22 1
  thermMode := rd p 23 1
  gauge := rd p 24 2
  riseFd := rd p 26 1
  fallFd := rd p 27 1
  thermN := rd p 28 2
  thermSlot := rd p 30 1
  thermCh := rd p 31 1
  thermStagger := rd p 32 4
  thermWidth := rd p 36 2
  thermAmp := rd p 38 2
  tones := (List.range (rd p 2 1)).map (readTone p)

/-- The decimation D. -/
def Plan.d (p : Plan) : Nat := 2 ^ p.decim

/-- Check 3 on one tone entry, with the stagger of the tone before it. -/
def toneOk (p : Plan) (prev : Option Nat) (u : Tone) : Bool :=
  decide (u.stagger < p.period) && (match prev with | none => u.stagger == 0 | some q => decide (q < u.stagger)) &&
    decide (u.cls ≤ 2) && decide (u.channel < p.d) && decide (u.slotA ≤ 63) &&
    (if u.cls = 2 then decide (u.slotB ≤ 63) else u.slotB == 0xFF) && decide (1 ≤ u.width ∧ u.width ≤ 32768) &&
    decide (1 ≤ u.amp)

/-- The lowest-numbered tone for which `f` fails, 0xFF when none does. -/
def badTone (f : Nat → Bool) (n : Nat) : Nat := ((List.range n).find? (fun t => !f t)).getD 0xFF

def Plan.tone (p : Plan) (t : Nat) : Tone := nth p.tones t default

/-- A tone entry passes check 3: its own fields, its stagger against the entry before it, its reserved bytes. -/
def entryOk (raw : List Byte) (t : Nat) : Bool :=
  let p := readPlan raw
  toneOk p (if t = 0 then none else some (p.tone (t - 1)).stagger) (p.tone t) && zeroAt raw (48 + 16 * t + 12) 4

/-- The tone that check 3 answers: the lowest whose own entry fails, 0xFF when only the fixed part does (R44). -/
def entryTone (raw : List Byte) : Nat := badTone (entryOk raw) (rd raw 2 1)

/-- The waveform length of a slot in whole cells, rounded up: four DAC samples to a cell (section 2.5). -/
def State.slotCells (s : State) (probe slot : Nat) : Nat := ceilDiv (nth (nth s.cfg.slots probe []) slot default).length 4

end Sys2Proof.Machine
end

