-- ==== Sys2Proof/Machine/Command.lean ====
section
/-! DEFINITION. The command protocol: the checks of R457 in their order, sequences (R456), apply-at (R458), responses
(R455, R460) and the mailbox and frame paths (R450 to R454). -/

namespace Sys2Proof

/-- The payload of PAYLOAD_LENGTH bytes. -/
def Cmd.arg (c : Cmd) : List Byte := Machine.fit c.len c.payload

/-- The instant a non-zero apply-at names; none for zero (R455). -/
def Cmd.at_ (c : Cmd) (s : Machine.State) : Option Nat := if c.applyAt = 0#96 then none else s.instantOf c.applyAt

end Sys2Proof

namespace Sys2Proof.Machine

/-! ### Status codes (Tables 15.6 and 15.7, and those of later chapters) -/

def stOk : Nat := 0x0000
def stPending : Nat := 0x0001
def stBusy : Nat := 0x0002
def stBadOpcode : Nat := 0x0010
def stBadLength : Nat := 0x0011
def stBadArg : Nat := 0x0012
def stWrongState : Nat := 0x0013
def stOverBudget : Nat := 0x0014
def stPlanConflict : Nat := 0x0015
def stInUse : Nat := 0x0016
def stNoSpare : Nat := 0x0017
def stStaleSeq : Nat := 0x0018
def stDenied : Nat := 0x0020
def stAuthFail : Nat := 0x0021
def stHwFault : Nat := 0x0030
def stNoResource : Nat := 0x0031
def stBankInvalid : Nat := 0x8101
def stNorFail : Nat := 0x8102
def stSlotEmpty : Nat := 0x8201
def stOutOfBand : Nat := 0x8202
def stApplyLate : Nat := 0x8203
def stWaveCrc : Nat := 0x8204
def stKernelBad : Nat := 0x8601
def stBaleNoSpace : Nat := 0x8B01
def stBaleFormat : Nat := 0x8B02
def stBaleWatermark : Nat := 0x8B03
def stBaleCancelled : Nat := 0x8B04
def stTokenBad : Nat := 0x8E01
def stFwBad : Nat := 0x8E02
def stFwRollback : Nat := 0x8E03
def stFuseFail : Nat := 0x8E04
def stRepairFull : Nat := 0x8F01

/-- What a command answers: status, the EFFECTIVE stamp where its section names one, and the response payload. -/
structure Resp where
  status : Nat
  eff : Option (BitVec 96)
  body : List Byte
deriving DecidableEq, Repr, Inhabited

/-- A command's own checks and effect (check 7 of R457). -/
abbrev Handler := Cmd → State → Resp × State

/-- A rejection: no effect (R457). -/
def reject (s : State) (st : Nat) : Resp × State := (⟨st, none, []⟩, s)

/-- ST_OK with a response payload. -/
def okWith (s : State) (body : List Byte) : Resp × State := (⟨stOk, none, body⟩, s)

/-- ST_OK without one. -/
def okay (s : State) : Resp × State := okWith s []

/-- ST_PENDING: the command joins those that wait (R460). -/
def pendWith (s : State) (c : Cmd) (op : Nat) (units : List Nat) (due : Option Nat) : Resp × State :=
  (⟨stPending, none, []⟩,
    { s with pend := s.pend ++ [⟨op, c.mb, c.seq, s.now, c.at_ s, due, units, c.arg⟩] })

/-! ### The command table: defined opcodes, payload lengths, reserved fields, rights, apply-at -/

/-- Opcodes defined on the device, by group (Table 15.4). -/
def opDefined (op : Nat) : Bool :=
  let n := op % 256
  match op / 256 with
  | 0x01 => decide (1 ≤ n ∧ n ≤ 8)
  | 0x02 => decide (1 ≤ n ∧ n ≤ 8)
  | 0x03 => decide (1 ≤ n ∧ n ≤ 7)
  | 0x04 => decide (1 ≤ n ∧ n ≤ 5)
  | 0x05 => decide (1 ≤ n ∧ n ≤ 7)
  | 0x06 => decide (1 ≤ n ∧ n ≤ 4)
  | 0x07 => decide (1 ≤ n ∧ n ≤ 12)
  | 0x08 => decide (1 ≤ n ∧ n ≤ 7)
  | 0x09 => decide (1 ≤ n ∧ n ≤ 7)
  | 0x0A => decide (1 ≤ n ∧ n ≤ 6)
  | 0x0B => decide (1 ≤ n ∧ n ≤ 5)
  | 0x0C => decide (1 ≤ n ∧ n ≤ 3)
  | 0x0D => decide (1 ≤ n ∧ n ≤ 9)
  | 0x0E => decide (1 ≤ n ∧ n ≤ 15)
  | 0x0F => decide (1 ≤ n ∧ n ≤ 9)
  | _ => false

/-- The payload length a command's table or formula gives, from the payload as sent. -/
def payloadLen (op : Nat) (p : List Byte) : Nat :=
  match op with
  | 0x0101 => 0 | 0x0102 => 4 | 0x0103 => 4 | 0x0104 => 4 | 0x0105 => 4 | 0x0106 => 12 | 0x0107 => 4 | 0x0108 => 4
  | 0x0201 => 48 + 16 * rd p 2 1 | 0x0202 => 4 | 0x0203 => 16 | 0x0204 => 10 | 0x0205 => 24 + 4 * rd p 14 2
  | 0x0206 => 6 | 0x0207 => 4 | 0x0208 => 4
  | 0x0301 => 20 | 0x0302 => 8 | 0x0303 => 4 | 0x0304 => 4 | 0x0305 => 8 | 0x0306 => 4 | 0x0307 => 4
  | 0x0401 => 16 | 0x0402 => 4 | 0x0403 => 4 | 0x0404 => 4 | 0x0405 => 8
  | 0x0501 => 68 | 0x0502 => 12 | 0x0503 => 4 | 0x0504 => 16 + 48 * rd p 14 1 | 0x0505 => 4 | 0x0506 => 4 | 0x0507 => 4
  | 0x0601 => 12 + rd p 2 2 | 0x0602 => 4 | 0x0603 => 40 | 0x0604 => 4
  | 0x0701 => 40 | 0x0702 => 8 | 0x0703 => 4 | 0x0704 => 8 | 0x0705 => 4 | 0x0706 => 4 | 0x0707 => 32 | 0x0708 => 4 | 0x0709 => 4
  | 0x070A => 8 | 0x070B => 4 + 2 * rd p 2 2 | 0x070C => 4
  | 0x0901 => 48 | 0x0902 => 12 | 0x0903 => 4 | 0x0904 => 32 | 0x0905 => 8 + rd p 4 1 | 0x0906 => 4 | 0x0907 => 4
  | 0x0A01 => 128 | 0x0A02 => 32 | 0x0A03 => 4 | 0x0A04 => 176 | 0x0A05 => 14 | 0x0A06 => 4
  | 0x0B01 => 24 | 0x0B02 => 56 | 0x0B03 => 16 | 0x0B04 => 4 | 0x0B05 => 4
  | 0x0C01 => 24 | 0x0C02 => 4 | 0x0C03 => 8
  | 0x0801 => 24 | 0x0802 => 4 | 0x0803 => 12 | 0x0804 => 12 | 0x0805 => 4 | 0x0806 => 8 | 0x0807 => 4
  | 0x0D01 => 48 | 0x0D02 => 4 | 0x0D03 => 4 | 0x0D04 => 8 | 0x0D05 => 32 | 0x0D06 => 16 | 0x0D07 => 4 | 0x0D08 => 4
  | 0x0D09 => 4
  | 0x0E01 => 0 | 0x0E02 => 324 | 0x0E03 => if rd p 0 1 = 0 then 228 else 4 | 0x0E04 => 224
  | 0x0E05 => 12 + rd p 2 2 | 0x0E06 => 4 | 0x0E07 => 324 | 0x0E08 => 4 | 0x0E09 => 224 | 0x0E0A => 0
  | 0x0E0B => 224 | 0x0E0C => 0 | 0x0E0D => 4 | 0x0E0E => 4 | 0x0E0F => 0
  | 0x0F01 => 4 | 0x0F02 => 6 | 0x0F03 => 4 | 0x0F04 => 4 | 0x0F05 => 4 | 0x0F06 => 4 | 0x0F07 => 4 | 0x0F08 => 8
  | 0x0F09 => 12
  | _ => 0

/-- The reserved fields of a payload: offset, size in bytes, and the bits that must be zero. -/
def reservedFields (op : Nat) (p : List Byte) : List (Nat × Nat × Nat) :=
  match op with
  | 0x0102 => [(0, 2, 0xFFF8)]
  | 0x0103 => [(1, 1, 0xFE), (2, 2, 0xFFFF)]
  | 0x0104 => [(1, 1, 0xF0), (2, 2, 0xFFFF)]
  | 0x0105 => [(1, 1, 0xFC), (2, 2, 0xFFFF)]
  | 0x0106 => [(1, 3, 0xFFFFFF)]
  | 0x0107 => [(0, 1, 0xFE), (1, 3, 0xFFFFFF)]
  | 0x0108 => [(2, 2, 0xFFFF)]
  | 0x0201 => (40, 8, 2 ^ 64 - 1) :: (List.range (rd p 2 1)).map (fun t => (48 + 16 * t + 12, 4, 0xFFFFFFFF))
  | 0x0202 => [(2, 2, 0xFFFF)]
  | 0x0204 => [(1, 1, 0xFE)]
  | 0x0205 => [(2, 2, 0xFFFC)]
  | 0x0206 => [(3, 1, 0xFF)]
  | 0x0207 => [(2, 2, 0xFFFF)]
  | 0x0208 => [(2, 2, 0xFFFE)]
  | 0x0301 => [(2, 1, 0xFC), (3, 1, 0xFF)]
  | 0x0302 => [(4, 4, 0xFFFFFFFF)]
  | 0x0303 => [(0, 4, 0xFFFE0000)]
  | 0x0304 => [(1, 1, 0xFE), (2, 2, 0xFFFF)]
  | 0x0305 => [(0, 4, 0xFFFE0000), (4, 1, 0xFC)]
  | 0x0306 => [(1, 1, 0xFE), (2, 2, 0xFFFF)]
  | 0x0307 => [(3, 1, 0xFF)]
  | 0x0401 => [(1, 1, 0xFE), (11, 1, 0xFF), (14, 2, 0xFFFF)]
  | 0x0402 => [(3, 1, 0xFF)]
  | 0x0403 => [(3, 1, 0xFF)]
  | 0x0404 => [(1, 1, 0xFE), (2, 2, 0xFFFF)]
  | 0x0405 => [(1, 1, 0xFF)]
  | 0x0501 => [(2, 1, 0xFE), (3, 1, 0xFF)] ++ (List.range 16).map (fun n => (7 + 4 * n, 1, 0xFF))
  | 0x0502 => [(3, 1, 0xFF)]
  | 0x0503 => [(1, 1, 0xFE), (2, 2, 0xFFFF)]
  | 0x0504 => (List.range (rd p 14 1)).flatMap (fun b => [(17 + 48 * b, 3, 0xFFFFFF), (60 + 48 * b, 4, 0xFFFFFFFF)])
  | 0x0505 => [(3, 1, 0xFF)]
  | 0x0506 => [(3, 1, 0xFF)]
  | 0x0507 => [(1, 1, 0xFE), (2, 2, 0xFFFF)]
  | 0x0601 => [(1, 1, 0xFC)]
  | 0x0602 => [(1, 3, 0xFFFFFF)]
  | 0x0603 => [(1, 3, 0xFFFFFF)]
  | 0x0604 => [(0, 1, 0xFE), (1, 3, 0xFFFFFF)]
  | 0x0701 => [(32, 8, 2 ^ 64 - 1)]
  | 0x0702 => [(5, 3, 0xFFFFFF)]
  | 0x0705 => [(1, 1, 0xFE), (2, 2, 0xFFFF)]
  | 0x0707 => [(6, 1, 0xFE)]
  | 0x0708 => [(0, 1, 0xF0), (2, 2, 0xFFFF)]
  | 0x0709 => [(2, 2, 0xFFFF)]
  | 0x070A => [(6, 2, 0xFFFF)]
  | 0x070C => [(0, 1, 0xFE), (1, 3, 0xFFFFFF)]
  | 0x0C01 => [(1, 1, 0xFC), (6, 2, 0xFFFF), (16, 8, 2 ^ 64 - 1)]
  | 0x0C02 => [(0, 1, 0xFE), (1, 3, 0xFFFFFF)]
  | 0x0C03 => [(1, 1, 0xFF), (6, 2, 0xFFFF)]
  | 0x0801 => [(5, 1, 0xFE), (22, 2, 0xFFFF)]
  | 0x0802 => [(0, 1, 0xFE), (1, 3, 0xFFFFFF)]
  | 0x0803 => [(5, 3, 0xFFFFFF)]
  | 0x0804 => [(3, 1, 0xFF), (6, 2, 0xFFFF)]
  | 0x0805 => [(0, 1, 0xFE), (1, 3, 0xFFFFFF)]
  | 0x0806 => [(2, 1, 0xF0), (3, 1, 0xFF), (6, 2, 0xFFFF)]
  | 0x0807 => [(0, 1, 0xFE), (1, 3, 0xFFFFFF)]
  | 0x0901 => [(1, 1, 0xF0), (44, 4, 0xFFFFFFFF)]
  | 0x0902 => [(1, 3, 0xFFFFFF)]
  | 0x0903 => [(1, 1, 0xFE), (2, 2, 0xFFFF)]
  | 0x0904 => [(5, 1, 0xFC), (28, 4, 0xFFFFFFFF)]
  | 0x0905 => [(5, 3, 0xFFFFFF)]
  | 0x0906 => [(1, 3, 0xFFFFFF)]
  | 0x0907 => [(0, 1, 0xFE), (1, 3, 0xFFFFFF)]
  | 0x0A01 => if bit (rd p 1 1) 0 then [(1, 1, 0xFC), (2, 126, 2 ^ 1008 - 1)]
    else [(1, 1, 0xFC), (10, 6, 2 ^ 48 - 1)] ++ (List.range 4).map (fun r => if r < rd p 2 1 then (17 + 12 * r, 3, 0xFFFFFF) else (16 + 12 * r, 12, 2 ^ 96 - 1)) ++
      (List.range 4).flatMap (fun k => if k < rd p 3 1 then [(66 + 16 * k, 1, 0xFE), (79 + 16 * k, 1, 0xFF)] else [(64 + 16 * k, 16, 2 ^ 128 - 1)])
  | 0x0A03 => [(1, 1, 0xFE), (2, 2, 0xFFFF)]
  | 0x0A04 => (List.range 4).map (fun k => (1 + 36 * k, 3, 0xFFFFFF))
  | 0x0A05 => [(3, 1, 0xFF)]
  | 0x0A06 => [(0, 1, 0xFE), (1, 3, 0xFFFFFF)]
  | 0x0B01 => [(1, 1, 0xFE), (3, 1, 0xFF), (18, 6, 2 ^ 48 - 1)]
  | 0x0B02 => [(36, 4, 0xFFFFFFFF), (52, 4, 0xFFFFFFFF)]
  | 0x0B03 => [(2, 2, 0xFFFF)]
  | 0x0B04 => [(2, 2, 0xFFFF)]
  | 0x0B05 => [(0, 1, 0xFE), (1, 3, 0xFFFFFF)]
  | 0x0D01 => [(3, 1, 0xF8), (4, 1, 0xCC), (7, 1, 0xFF), (28, 4, 0xFFFFFFFF), (45, 3, 0xFFFFFF)]
  | 0x0D02 => [(2, 2, 0xFFFF)]
  | 0x0D03 => [(1, 3, 0xFFFFFF)]
  | 0x0D04 => [(4, 4, 0xFFFFFFFF)]
  | 0x0D05 => [(1, 1, 0xF8), (3, 1, 0xFF), (28, 4, 0xFFFFFFFF)]
  | 0x0D06 => [(5, 1, 0xFE), (12, 4, 0xFFFFFFFF)]
  | 0x0D07 => [(2, 2, 0xFFFF)]
  | 0x0D08 => [(2, 2, 0xFFFF)]
  | 0x0D09 => [(2, 1, 0xFE), (3, 1, 0xFF)]
  | 0x0E02 => [(97, 3, 0xFFFFFF)]
  | 0x0E03 => [(1, 3, 0xFFFFFF)]
  | 0x0E05 => [(0, 1, 0xFC), (1, 1, 0xFF)]
  | 0x0E06 => [(1, 3, 0xFFFFFF)]
  | 0x0E07 => [(97, 3, 0xFFFFFF)]
  | 0x0E0D => [(0, 1, 0xFE), (1, 3, 0xFFFFFF)]
  | 0x0E0E => [(1, 1, 0xFE), (2, 2, 0xFFFF)]
  | 0x0F01 => [(0, 1, 0xFE), (1, 3, 0xFFFFFF)]
  | 0x0F02 => [(1, 1, 0xFF)]
  | 0x0F03 => [(1, 1, 0xFF)]
  | 0x0F04 => [(1, 1, 0xFF)]
  | 0x0F05 => [(2, 2, 0xFFFF)]
  | 0x0F06 => [(1, 3, 0xFFFFFF)]
  | 0x0F07 => [(0, 1, 0xFE), (1, 3, 0xFFFFFF)]
  | 0x0F08 => [(1, 1, 0xFF), (6, 2, 0xFFFF)]
  | 0x0F09 => [(10, 2, 0xFFFF)]
  | _ => []

/-- Every reserved field of the payload is zero (R457 check 3). -/
def reservedOk (op : Nat) (p : List Byte) : Bool :=
  (reservedFields op p).all (fun e => rd p e.1 e.2.1 &&& e.2.2 == 0)

/-- The status commands of group 0x0F: those that need OBSERVE (R535, Table 17.8). -/
def healthStatusOps : List Nat := [0x0F01, 0x0F02, 0x0F06, 0x0F07, 0x0F09]

/-- The commands that need OBSERVE (Table 16.5). -/
def observeOps : List Nat :=
  [0x0101, 0x0107, 0x0203, 0x0208, 0x0304, 0x0306, 0x0307, 0x0404, 0x0405, 0x0503, 0x0507, 0x0604, 0x0705, 0x070A,
    0x070C, 0x0802, 0x0805, 0x0807, 0x0903, 0x0907, 0x0A03, 0x0A06, 0x0B05, 0x0C02, 0x0C03, 0x0D09, 0x0E0F]
    ++ healthStatusOps

/-- The right a command needs (Table 16.5, Table 17.8): 0 OBSERVE, 1 CONTROL, 2 CONFIG, 3 SECURITY, 4 DEBUG, 5 POWER;
none for the commands that need no right. -/
def opRight (op : Nat) (p : List Byte) : Option Nat :=
  if op = 0x0106 then some (if rd p 0 1 = 0 then 0 else 2)
  else if observeOps.contains op then some 0
  else if [0x0102, 0x0103, 0x0108, 0x0801, 0x0806, 0x0C01, 0x0D04, 0x0D05, 0x0F03, 0x0F04, 0x0F08].contains op then some 2
  else if [0x0E02, 0x0E03, 0x0E04, 0x0E05, 0x0E06, 0x0E09, 0x0F05].contains op then some 3
  else if [0x0E0B, 0x0E0C].contains op then some 4
  else if [0x0E0D, 0x0E0E, 0x0104, 0x0105].contains op then some 5
  else if [0x0E01, 0x0E07, 0x0E08, 0x0E0A].contains op then none
  else some 1

/-- The commands whose sections give APPLY_AT a meaning (R457 check 6, R458). -/
def usesApplyAt (op : Nat) : Bool :=
  [0x0202, 0x0204, 0x0206, 0x0207, 0x0301, 0x0401, 0x0402, 0x0403, 0x0501, 0x0504, 0x0505, 0x0506, 0x0702, 0x0801, 0x0803, 0x0804, 0x0806,
    0x0905, 0x0E0E].contains op

/-! ### The checks (Table 15.5) -/

/-- The open session of a number. -/
def State.session? (s : State) (id : Nat) : Option Session := s.sec.sessions.find? (fun e => e.id == id)

/-- Check 4: AUTH_REF names a valid session, or is 0 on PCIe; over Ethernet it equals the frame's SESSION (R457, R445). -/
def authOk (c : Cmd) (s : State) : Bool :=
  match c.eth with
  | none => c.authRef == 0 || (s.session? c.authRef).isSome
  | some (_, sess) => c.authRef == sess && (sess == 0 || (s.session? sess).isSome)

/-- The rights the sender holds (R492, R494): the PCIe rights, those of the session, none for the handshake session. In
Blank the PCIe rights are all six bits. -/
def senderRights (c : Cmd) (s : State) : Nat :=
  match c.eth with
  | none =>
    if c.authRef = 0 then (if s.sec.lifecycle = 0 then 0x3F else s.sys.boot.pcieRights)
    else ((s.session? c.authRef).map Session.rights).getD 0
  | some (_, sess) => if sess = 0 then 0 else ((s.session? sess).map Session.rights).getD 0

/-- The sender may give the command: its right, and on the handshake session only the three commands of R494. -/
def rightOk (op : Nat) (c : Cmd) (s : State) : Bool :=
  match c.eth with
  | some (_, 0) => [0x0101, 0x0E01, 0x0E07].contains op
  | _ => match opRight op c.arg with
    | none => true
    | some b => bit (senderRights c s) b

/-- Commands a scrapped device accepts (Table 16.12). -/
def scrappedOps : List Nat := [0x0101, 0x0107, 0x0105, 0x0E0A, 0x0E01, 0x0E0B, 0x0E0C]

/-- The power state by which commands are judged: the target of a transition from its acceptance on (R497). -/
def State.judgedPower (s : State) : Nat :=
  match s.pwr.pend with
  | some p => p.target
  | none => s.pwr.st

/-- The power state permits the command (R497). -/
def powerOk (op : Nat) (c : Cmd) (s : State) : Bool :=
  match s.judgedPower with
  | 2 => [0x0101, 0x0107, 0x0106, 0x0105, 0x0104].contains op || op / 256 == 0x08 || op / 256 == 0x0E ||
      healthStatusOps.contains op
  | 3 => c.eth.isNone && [0x0101, 0x0105, 0x0E0E, 0x0E0F, 0x0E0A, 0x0E01, 0x0E0B, 0x0E0C].contains op
  | _ => true

/-- BOOT_STATE 5, 6 or 7 permits the command (R474, R475). -/
def bootOk (op : Nat) (s : State) : Bool :=
  if s.sys.bootState = 7 then [0x0101, 0x0105].contains op
  else if s.sys.bootState = 5 ∨ s.sys.bootState = 6 then [0x0101, 0x0107, 0x0105].contains op
  else true

/-- The newest unrevoked owner slot (R485). -/
def State.newestOwner (s : State) : Option Nat :=
  (s.sec.owners.zipIdx.reverse.find? (fun e => !e.1.revoked && !e.1.hash.isEmpty)).map Prod.snd

/-- The owner key can be verified with: the stored key's SHA-384 is the newest slot's fused hash (R483). -/
def State.ownerKeyOk (s : State) : Bool :=
  match s.newestOwner with
  | some n => let o := nth s.sec.owners n default
    (match o.storedKey with | some k => sha384 k == o.hash | none => false)
  | none => false

/-- A failed authentication is counted and reported: reason 0 signature, 1 nonce, 2 serial or kind, 3 signer not permitted (R485, R507). -/
def State.authFailed (s : State) (op reason : Nat) : State :=
  (s.modSec (fun k => { k with authFails := satAdd k.authFails 1 })).raiseNow 0x0E03 sevNotice srcMss (u16 op ++ u8 reason) (some [op])

/-- Check 5: the status of a refusal by rights, lifecycle, debug level, boot state or power state, none when permitted.
While BOOT_STATE is 5, 6 or 7 its own condition stands in place of the power state's. -/
def permit (op : Nat) (c : Cmd) (s : State) : Option Nat :=
  if !rightOk op c s then some stDenied
  else if s.sec.lifecycle = 3 && !scrappedOps.contains op then some stDenied
  else if s.dbg.level = 3 && [0x0402, 0x0E0E, 0x0D07].contains op then some stDenied
  else if 5 ≤ s.sys.bootState then (if bootOk op s then none else some stWrongState)
  else if !powerOk op c s then some stDenied
  else none

/-- Check 6: APPLY_AT zero or a valid stamp not in the past and no more than 86 400 s ahead (R458). -/
def applyCheck (op : Nat) (c : Cmd) (s : State) : Option Nat :=
  if !usesApplyAt op || c.applyAt = 0#96 then none
  else match s.instantOf c.applyAt with
    | none => some stBadArg
    | some x => if x < s.now then some stApplyLate
      else if s.now + 86400 * ticksPerSecond < x then some stBadArg else none

/-- `plan.define` answers a rejection at checks 2 and 3 with Table 2.9 as well: check 1 without a tone, or check 3 with the tone whose
reserved bytes are not zero (R44). -/
def rejectBody (op check : Nat) (p : List Byte) : List Byte :=
  if op ≠ 0x0201 then []
  else if check = 2 then u16 1 ++ u8 0xFF ++ zeros 25
  else u16 3 ++ u8 (if reservedOk op p then 0xFF else entryTone p) ++ zeros 25

/-- Checks 1 to 6 of Table 15.5: the rejection, or none. -/
def precheck (op : Nat) (c : Cmd) (s : State) : Option Resp :=
  if !opDefined op then some ⟨stBadOpcode, none, []⟩
  else if 4064 < c.len || c.len ≠ payloadLen op c.arg then some ⟨stBadLength, none, rejectBody op 2 c.arg⟩
  else if c.flags &&& 0xFFFE ≠ 0 || c.reserved ≠ 0 || !reservedOk op c.arg then some ⟨stBadArg, none, rejectBody op 3 c.arg⟩
  else if !authOk c s then some ⟨stAuthFail, none, []⟩
  else match permit op c s with
    | some st => some ⟨st, none, []⟩
    | none => (applyCheck op c s).map (fun st => ⟨st, none, []⟩)

/-- The most commands that may be pending (R461). -/
def maxPending : Nat := 256

/-- Where a command's token lies in its payload (Table 16.14). -/
def tokenAt (op : Nat) (p : List Byte) : Option Nat :=
  match op with
  | 0x0E02 => some 100
  | 0x0E03 => if rd p 0 1 = 0 then some 4 else none
  | 0x0E04 => some 0
  | 0x0E07 => some 100
  | 0x0E09 => some 0
  | 0x0E0B => some 0
  | _ => none

/-- A nonce is consumed by the first command that presents it, accepted or rejected (R484). -/
def State.presentNonce (s : State) (op : Nat) (c : Cmd) : State :=
  match tokenAt op c.arg with
  | some o => s.modSec (fun k => { k with nonces := k.nonces.filter (fun e => e.1 != (c.arg.drop (o + 24)).take 32) })
  | none => s

/-- A new command: the checks in order, then its own (R457); an ST_PENDING beyond the 256th is rejected (R461). -/
def judge (op : Nat) (h : Handler) (c : Cmd) (s : State) : Resp × State :=
  match precheck op c s with
  | some r => (r, if r.status = stBadOpcode ∨ r.status = stBadLength then s else s.presentNonce op c)
  | none =>
    let r := h c s
    if r.1.status = stPending && decide (maxPending ≤ s.hostPending.length) then reject s stNoResource else (r.1, r.2.presentNonce op c)

/-! ### Responses -/

/-- The 32-byte response header and the payload (Table 15.3). -/
def respBytes (seq : Nat) (r : Resp) (eff : BitVec 96) : List Byte :=
  u16 seq ++ u16 r.status ++ stampBytes eff ++ u16 r.body.length ++ zeros 14 ++ r.body

/-- The EFFECTIVE stamp of a response (R460): zero for ST_PENDING, the section's own instant where it names one, otherwise
the instant of acceptance or validation with NO_LINE. -/
def effective (r : Resp) (s : State) : BitVec 96 :=
  if r.status = stPending then 0#96 else r.eff.getD (s.devStamp s.now)

/-- Send a response frame of a session with the device's own counter (R445). -/
def State.sendFrame (s : State) (port sess : Nat) (data : List Byte) : State :=
  let n := ((s.session? sess).map Session.txCounter).getD 0
  let s1 := s.modSec (fun q => { q with sessions := q.sessions.map (fun e => if e.id = sess then { e with txCounter := e.txCounter + 1 } else e) })
  (s1.modPort port (fun p => { p with framesTx := satAdd p.framesTx 1 })).emit1 (.ethFrame port sess n data)

/-- Write a response of a mailbox: to its response area or RSP_ADDR with STATE 2, DONE and the completion cause (R451), or
in a frame to the sender with the BAR0 areas untouched (R453). -/
def State.respond (s : State) (c : Cmd) (bytes : List Byte) : State :=
  match c.eth with
  | some (port, sess) => s.sendFrame port sess bytes
  | none =>
    let m := s.mbOf c.mb
    let s1 := s.modMb c.mb (fun m => { m with
      st := 2, done := true
      rspArea := if m.rspAddr = 0#64 then ssetL 0#8 m.rspArea 0 bytes else m.rspArea })
    let s2 := if m.rspAddr = 0#64 then s1 else s1.emit1 (.hostWrite m.rspAddr.toNat bytes)
    if m.irqEn && !bit c.flags 0 then s2.cause m.vector else s2

/-- Answer a new command: the response becomes the mailbox's stored one and its sequence LAST_SEQ (R456). -/
def State.answer (s : State) (c : Cmd) (r : Resp) (eff : BitVec 96) : State :=
  let bytes := respBytes c.seq r eff
  (s.modMb c.mb (fun m => { m with lastSeq := some (c.seq % 65536), stored := bytes })).respond c bytes

/-- Run one command of a mailbox (R456): a duplicate gets the stored response again, an older sequence ST_STALE_SEQ, a new
one is judged and answered. -/
def State.serve (s : State) (op : Nat) (h : Handler) (c : Cmd) : State :=
  let m := s.mbOf c.mb
  let d := match m.lastSeq with
    | none => 1
    | some q => (c.seq + 65536 - q % 65536) % 65536
  if d = 0 then
    (s.modSys (fun y => { y with duplicates := satAdd y.duplicates 1 })).respond c m.stored
  else if 32768 ≤ d then
    (s.modSys (fun y => { y with stale := satAdd y.stale 1 })).respond c
      (respBytes c.seq ⟨stStaleSeq, none, []⟩ (s.devStamp s.now))
  else
    let r := judge op h c s
    r.2.answer c r.1 (effective r.1 s)

/-- The bytes of a command as they stand in a command area (Table 15.2). -/
def cmdBytes (op : Nat) (c : Cmd) : List Byte :=
  u16 op ++ u16 c.flags ++ u16 c.seq ++ u16 c.len ++ stampBytes c.applyAt ++ u32 c.authRef ++ u64 c.reserved ++ c.arg

/-- A host command (R450 to R454): placed in its mailbox's command area and started by a doorbell, or brought by an
authenticated frame. A doorbell on a mailbox not ready is held, one on a busy mailbox or behind a held one ignored and
counted (R452); a frame for a busy mailbox is answered ST_BUSY and changes no sequence (R454). While the CPC is halted commands wait (R503). -/
def State.hostCommand (s : State) (op : Nat) (h : Handler) (c : Cmd) : State :=
  let m := s.mbOf c.mb
  match c.eth with
  | none =>
    if m.held || m.st = 1 then s.modMb c.mb (fun m => { m with ignored := satAdd m.ignored 1 })
    else
      let s1 := s.modMb c.mb (fun m => { m with cmdArea := ssetL 0#8 m.cmdArea 0 (cmdBytes op c) })
      if m.st = 3 then s1.modMb c.mb (fun m => { m with held := true })
      else if s.dbg.cpcHalted then s1.modMb c.mb (fun m => { m with held := true, st := 1 })
      else s1.serve op h c
  | some (port, sess) =>
    if m.st = 3 || s.dbg.cpcHalted then s
    else if m.st = 1 then s.sendFrame port sess (respBytes c.seq ⟨stBusy, none, []⟩ (s.devStamp s.now))
    else s.serve op h c

/-! ### Token checks of several chapters stand in `Security`; the check of a variant's lines is here -/

/-- A command naming a line, quad or gate that the variant disables is rejected with ST_BAD_ARG (R3). -/
def State.badLine (s : State) (l : Nat) : Bool := !s.lineEnabled l

end Sys2Proof.Machine
end

