-- ==== Sys2Proof/Machine/Plan.lean ====
section
/-! DEFINITION. The plan compiler (R38 to R49): the fields of a plan, the fifteen checks of Table 2.3 with their figures,
and the commands `plan.define`, `plan.apply`, `plan.timeline` and `plan.status`. -/

namespace Sys2Proof.Machine

def Plan.coded (p : Plan) : Bool := p.tones.any (fun u => u.cls == 2)

/-! ### Figures (R39, R45) -/

/-- Shots per second: exact for an aligned plan, rounded up for an unaligned one. -/
def Plan.shots (p : Plan) : Nat := ceilDiv cellsPerSecond p.period

/-- The point count (R39). -/
def Plan.points (p : Plan) : Nat := (p.last - p.first + 1) / p.pitch

/-- Point samples per point per second: a coded tone yields one decoded sheet per four launches. -/
def Plan.samples (p : Plan) : Nat :=
  p.tones.foldl (fun n u => n + if u.cls = 2 then ceilDiv p.shots 4 else p.shots) 0

def Plan.lineRate (p : Plan) : Nat := p.points * p.samples

/-- Sheets per second, thermal sheets counted. -/
def Plan.sheets (p : Plan) : Nat :=
  p.tones.length * p.shots + if p.thermMode = 1 then ceilDiv p.shots p.thermN else 0

def Plan.cellBytes (p : Plan) : Nat := p.points * p.tones.length * 8

/-- The device's point rate over a configuration of plans (check 14). -/
def deviceRate (cfg : List (Option Plan)) : Nat :=
  cfg.foldl (fun n o => n + match o with | some p => p.lineRate | none => 0) 0

/-! ### Checks 3 to 9 -/

/-- Check 3 on the fixed part (Table 2.1). -/
def fixedOk (p : Plan) (raw : List Byte) : Bool :=
  decide (p.probe ≤ 1) && decide (1 ≤ p.tones.length ∧ p.tones.length ≤ 8) && decide (p.decim ≤ 3) &&
    decide (1000 ≤ p.period ∧ p.period ≤ 500000000) && decide (p.offset < p.period) && decide (p.first ≤ 524287) &&
    decide (p.first ≤ p.last ∧ p.last ≤ 524287) && decide (1 ≤ p.pitch ∧ p.pitch ≤ 64) && p.pitch % p.d == 0 &&
    decide (p.thermMode ≤ 2) && decide (1 ≤ p.gauge ∧ p.gauge ≤ 512) && decide (p.riseFd ≤ 31) &&
    decide (p.fallFd ≤ 31) &&
    (if p.thermMode = 1 then
      decide (1 ≤ p.thermN) && decide (p.thermSlot ≤ 63) && decide (p.thermCh < p.d) &&
        decide (p.thermStagger < p.period) && decide (1 ≤ p.thermWidth ∧ p.thermWidth ≤ 32768) && decide (1 ≤ p.thermAmp)
    else zeroAt raw 28 12)

def State.slotOf (s : State) (probe slot : Nat) : Slot := nth (nth s.cfg.slots probe []) slot default

/-- Check 7 on a tone: its slots are complete, and a coded tone's two have equal length. -/
def State.toneSlots (s : State) (p : Plan) (u : Tone) : Bool :=
  (s.slotOf p.probe u.slotA).st == 2 &&
    (u.cls != 2 || ((s.slotOf p.probe u.slotB).st == 2 &&
      (s.slotOf p.probe u.slotA).length == (s.slotOf p.probe u.slotB).length))

/-- Check 8: the declared bandwidth, in 100 kHz, fits 400/D MHz (R40). -/
def State.slotFits (s : State) (p : Plan) (slot : Nat) : Bool :=
  decide ((s.slotOf p.probe slot).bandwidth * p.d ≤ 4000)

def State.toneFits (s : State) (p : Plan) (u : Tone) : Bool :=
  s.slotFits p u.slotA && (u.cls != 2 || s.slotFits p u.slotB)

def State.maxWidth (s : State) (l : Nat) : Nat := (nth s.cfg.gates l default).maxWidth

/-! ### Check 10: return intervals (R42) -/

/-- One progression of a line's launches on its channel: tone number (8 for thermal), first cell, period, channel and
waveform length in cells. -/
structure Ret where
  tone : Nat
  first : Nat
  period : Nat
  channel : Nat
  cells : Nat
deriving DecidableEq, Repr, Inhabited

def State.returns (s : State) (p : Plan) : List Ret :=
  (p.tones.zipIdx.map (fun e => ⟨e.2, p.offset + e.1.stagger, p.period, e.1.channel, s.slotCells p.probe e.1.slotA⟩)) ++
    (if p.thermMode = 1 then
      [⟨8, p.offset + p.thermStagger, p.period * p.thermN, p.thermCh, s.slotCells p.probe p.thermSlot⟩] else [])

/-- Residue of a difference of two cells modulo `g`. -/
def resid (a b g : Nat) : Nat := (((b : Int) - (a : Int)) % (g : Int)).toNat

/-- The return interval of a launch of `a` holds a launch of `b` (counted cyclically over the grid). -/
def Ret.clash (last : Nat) (a b : Ret) : Bool :=
  a.channel == b.channel &&
    (if a = b then decide (a.period ≤ last + a.cells)
    else decide (resid a.first b.first (Nat.gcd a.period b.period) ≤ last + a.cells))

/-- The lowest-numbered tone among the launches of clashing pairs, 0xFF when they are thermal; none without a clash. -/
def clashTone (l : List (Nat × Nat)) : Option Nat :=
  match l with
  | [] => none
  | _ =>
    let t := l.flatMap (fun e => [e.1, e.2])
    some (((List.range 8).find? (fun n => t.contains n)).getD 0xFF)

def State.check10 (s : State) (p : Plan) : Option Nat :=
  let r := s.returns p
  clashTone ((r.flatMap (fun a => r.map (fun b => (a, b)))).filterMap
    (fun e => if Ret.clash p.last e.1 e.2 then some (e.1.tone, e.2.tone) else none))

/-! ### Check 15: the probe timeline (R46 to R49) -/

/-- One progression of launches on a probe: line, tone (8 thermal), first cell, period, what makes a shared launch
(slot, channel, amplitude, polarity), occupied DAC samples, and the gate's open ticks from the launch instant. -/
structure Occ where
  line : Nat
  tone : Nat
  first : Nat
  period : Nat
  slot : Nat
  channel : Nat
  amp : Nat
  neg : Bool
  samples : Nat
  rise : Nat
  fall : Nat
deriving DecidableEq, Repr, Inhabited

/-- The progressions of a line's plan on its probe; a coded tone has one per position of its sequence (R52). They are counted cyclically
over `cycle` shots: where the sequence does not return to its start over them, each shot of the cycle is a progression of its own (R49). -/
def State.occsOver (s : State) (p : Plan) (cycle : Nat) : List Occ :=
  let many := if cycle % 4 = 0 then 4 else cycle
  let g := 4 * (nth s.cfg.probes p.probe default).guard
  let red := fun (a q : Nat) => if p.aligned then a % q else a
  let rise := p.riseFd * 8
  (p.tones.zipIdx.flatMap (fun e =>
    let u := e.1
    let fall := u.width * ticksPerCell + p.fallFd * 8
    if u.cls = 2 then
      (List.range many).map (fun j =>
        let slot := if j % 2 = 0 then u.slotA else u.slotB
        ⟨p.line, e.2, red (p.offset + u.stagger) p.period + j * p.period, many * p.period, slot, u.channel, u.amp,
          decide (2 ≤ j % 4), (s.slotOf p.probe slot).length + g, rise, fall⟩)
    else
      [⟨p.line, e.2, red (p.offset + u.stagger) p.period, p.period, u.slotA, u.channel, u.amp, false,
        (s.slotOf p.probe u.slotA).length + g, rise, fall⟩])) ++
    (if p.thermMode = 1 then
      [⟨p.line, 8, red (p.offset + p.thermStagger) (p.period * p.thermN), p.period * p.thermN, p.thermSlot, p.thermCh,
        p.thermAmp, false, (s.slotOf p.probe p.thermSlot).length + g, rise, p.thermWidth * ticksPerCell + p.fallFd * 8⟩]
    else [])

/-- The launches of a line as its own grid makes them. -/
def State.occs (s : State) (p : Plan) : List Occ := s.occsOver p 4

/-- The shots over which check 15 counts: a multiple of 4 when every plan on the probe is aligned (check 6), otherwise the least common
multiple of the thermal intervals (R49). -/
def probeCycle (ps : List Plan) : Nat :=
  if ps.all Plan.aligned then 4 else ps.foldl (fun n q => if q.thermMode = 1 then Nat.lcm n q.thermN else n) 1

/-- Launches of different lines that the probe emits once (R47). -/
def Occ.shared (a b : Occ) : Bool :=
  a.line != b.line && a.slot == b.slot && a.channel == b.channel && a.amp == b.amp && a.neg == b.neg

/-- R47: some launch of `b` starts while a launch of `a` occupies the probe, the two not being shared. -/
def Occ.overlap (a b : Occ) : Bool :=
  if a = b then decide (4 * a.period < a.samples)
  else
    let g := Nat.gcd a.period b.period
    let d := resid a.first b.first g
    if d = 0 then !Occ.shared a b || decide (4 * g < a.samples) else decide (4 * d < a.samples)

/-- R48: a gate of `a`'s line is open while a launch of another line's `b` occupies the probe. Differences of launch
instants run over one residue class; the occupation overlaps the open gate for those strictly between two bounds. -/
def Occ.gateClash (skew : Int) (a b : Occ) : Bool :=
  if a.line = b.line then false
  else
    let g := Nat.gcd a.period b.period * ticksPerCell
    let d : Int := (resid a.first b.first (Nat.gcd a.period b.period) * ticksPerCell : Nat)
    let lo : Int := (a.rise : Int) - skew * 64 - (b.samples * 64 : Nat)
    let hi : Int := (a.fall : Int) - skew * 64
    let x : Int := lo + 1 + (d - (lo + 1)) % (g : Int)
    decide (x < hi)

/-- The launches of another line's `b` that no launch of a line with progressions `own` shares: none, all, or those of some residue classes. -/
def Occ.foreign (own : List Occ) (b : Occ) : List Occ :=
  let sh := own.filter (fun c => Occ.shared c b)
  if sh.any (fun c => b.period % c.period == 0 && b.first % c.period == c.first % c.period) then []
  else
    let m := sh.foldl (fun n c => Nat.lcm n c.period) b.period
    ((List.range (m / b.period)).map (fun i => { b with first := b.first + i * b.period, period := m })).filter
      (fun e => !sh.any (fun c => e.first % c.period == c.first % c.period))

/-- The lines of a configuration on a probe. -/
def probeLines (cfg : List (Option Plan)) (probe : Nat) : List Plan :=
  cfg.filterMap (fun o => o.bind (fun p => if p.probe = probe then some p else none))

/-- Check 15 for a line's plan within a configuration: the tone of R44 when it fails. With an unaligned plan on the probe
every line must have the same P (R49); a failure of that kind has no clashing pair, and the tone answered is 0xFF (DESIGN CHOICE: R44 names a
tone only among the launches of clashing pairs). -/
def State.check15 (s : State) (p : Plan) (cfg : List (Option Plan)) : Option Nat :=
  let ps := probeLines cfg p.probe
  if ps.any (fun q => !q.aligned) && ps.any (fun q => q.period != p.period) then some 0xFF
  else
    let all := ps.flatMap (fun q => s.occsOver q (probeCycle ps))
    let skew := (nth s.cfg.probes p.probe default).skew
    let bad := (all.flatMap (fun a => all.map (fun b => (a, b)))).filter
      (fun e => Occ.overlap e.1 e.2 || (Occ.foreign (all.filter (fun c => c.line == e.1.line)) e.2).any (Occ.gateClash skew e.1))
    match bad with
    | [] => none
    | _ =>
      let t := bad.flatMap (fun e => (if e.1.line = p.line then [e.1.tone] else []) ++ (if e.2.line = p.line then [e.2.tone] else []))
      some (((List.range 8).find? (fun n => t.contains n)).getD 0xFF)

/-! ### Table 2.3 -/

/-- Checks 4 to 9 and their tone. -/
def State.checks4to9 (s : State) (p : Plan) : Option (Nat × Nat × Nat) :=
  if (p.last - p.first + 1) % p.pitch ≠ 0 then some (4, stBadArg, 0xFF)
  else if (p.thermMode = 1 && p.aligned && p.shots % p.thermN != 0) || (p.thermMode = 2 && p.tones.any (fun u => u.cls != 0)) then
    some (5, stBadArg, 0xFF)
  else if p.aligned && p.coded && p.shots % 4 != 0 then some (6, stBadArg, 0xFF)
  else if !p.tones.all (s.toneSlots p) || (p.thermMode = 1 && (s.slotOf p.probe p.thermSlot).st != 2) then
    some (7, stSlotEmpty, badTone (fun t => s.toneSlots p (p.tone t)) p.tones.length)
  else if !p.tones.all (s.toneFits p) || (p.thermMode = 1 && !s.slotFits p p.thermSlot) then
    some (8, stOutOfBand, badTone (fun t => s.toneFits p (p.tone t)) p.tones.length)
  else if !p.tones.all (fun u => decide (u.width ≤ s.maxWidth p.line)) || (p.thermMode = 1 && decide (s.maxWidth p.line < p.thermWidth)) then
    some (9, stBadArg, badTone (fun t => decide ((p.tone t).width ≤ s.maxWidth p.line)) p.tones.length)
  else none

/-- Checks 10 to 15 of one plan within a configuration that holds it. -/
def State.checks10to15 (s : State) (p : Plan) (cfg : List (Option Plan)) : Option (Nat × Nat × Nat) :=
  match s.check10 p with
  | some t => some (10, stPlanConflict, t)
  | none =>
    if 524288 < p.sheets then some (11, stOverBudget, 0xFF)
    else if 7864320 < p.cellBytes then some (12, stOverBudget, 0xFF)
    else if 500000000 < p.lineRate then some (13, stOverBudget, 0xFF)
    else if 4000000000 < deviceRate cfg then some (14, stOverBudget, 0xFF)
    else (s.check15 p cfg).map (fun t => (15, stPlanConflict, t))

/-- The configuration `plan.define` judges: staged plans where they exist, plans in effect otherwise, and the plan
submitted for its line (R45, R49). -/
def State.stagedConfig (s : State) : List (Option Plan) :=
  s.cfg.plans.zipIdx.map (fun e => match (s.gridOf e.2).staged with | some p => some p | none => e.1)

/-- An apply is pending on a line. -/
def State.applyPending (s : State) (l : Nat) : Bool := (s.pendOf 0x0202 l).isSome

/-- All checks of Table 2.3 after the length: check number, status and tone of the first that fails (R44). -/
def State.planChecks (s : State) (raw : List Byte) : Option (Nat × Nat × Nat) :=
  let p := readPlan raw
  if s.badLine p.line then some (2, stBadArg, 0xFF)
  else if s.applyPending p.line then some (2, stBusy, 0xFF)
  else if !fixedOk p raw || entryTone raw ≠ 0xFF then some (3, stBadArg, entryTone raw)
  else match s.checks4to9 p with
    | some e => some e
    | none => s.checks10to15 p (s.stagedConfig.set p.line (some p))

/-- The response of Table 2.9. Figures are zero when check 1, 2, 3 or 4 fails (R44). A rate beyond 32 bits, which only a rejected plan has, is written
modulo 2^32 (DESIGN CHOICE: R45 computes it, and no rule says how a larger value is written). -/
def planResponse (check tone : Nat) (p : Plan) (rate : Nat) : List Byte :=
  u16 check ++ u8 tone ++ u8 0 ++
    (if 1 ≤ check ∧ check ≤ 4 then zeros 24
    else u32 p.points ++ u32 p.lineRate ++ u32 rate ++ u32 p.cellBytes ++ u32 p.sheets ++ u32 p.shots)

/-- `plan.define` (R38, R44): a plan that passes is staged; a rejected one leaves the staged plan unchanged. -/
def planDefine : Handler := fun c s =>
  let p := readPlan c.arg
  let rate := deviceRate (s.stagedConfig.set p.line (some p))
  match s.planChecks c.arg with
  | some (k, st, t) => (⟨st, none, planResponse k t p rate⟩, s)
  | none =>
    (⟨stOk, none, planResponse 0 0xFF p rate⟩, s.modGrid p.line (fun g => { g with staged := some p }))

/-! ### `plan.apply` -/

/-- The fields marked Stop of two plans are equal, the class only between coded and other (Table 2.1). -/
def sameStop (a b : Plan) : Bool :=
  a.probe == b.probe && a.decim == b.decim && a.period == b.period && a.offset == b.offset && a.first == b.first &&
    a.last == b.last && a.pitch == b.pitch && a.thermMode == b.thermMode && a.gauge == b.gauge && a.thermN == b.thermN &&
    a.thermCh == b.thermCh && a.thermStagger == b.thermStagger && a.tones.length == b.tones.length &&
    (List.range a.tones.length).all (fun t =>
      (a.tone t).stagger == (b.tone t).stagger && (a.tone t).channel == (b.tone t).channel &&
        ((a.tone t).cls == 2) == ((b.tone t).cls == 2))

/-- The fields marked Probe of two plans are equal. -/
def sameProbe (a b : Plan) : Bool :=
  a.thermSlot == b.thermSlot && a.thermWidth == b.thermWidth && a.thermAmp == b.thermAmp &&
    (List.range (max a.tones.length b.tones.length)).all (fun t =>
      (a.tone t).cls == (b.tone t).cls && (a.tone t).slotA == (b.tone t).slotA && (a.tone t).slotB == (b.tone t).slotB &&
        (a.tone t).width == (b.tone t).width && (a.tone t).amp == (b.tone t).amp)

/-- The plans in effect once the applies already pending and this one have taken effect (R63, R459). -/
def State.resulting (s : State) (lines : List Nat) : List (Option Plan) :=
  s.cfg.plans.zipIdx.map (fun e =>
    if lines.contains e.2 || s.applyPending e.2 then
      (match (s.gridOf e.2).staged with | some p => some p | none => e.1)
    else e.1)

/-- The first of checks 10 to 15 that fails on some named line: its line, number, status and tone. Checks are made in
order, each over the named lines from the lowest (R63). -/
def State.applyFault (s : State) (plans : List Plan) (cfg : List (Option Plan)) : Option (Plan × Nat × Nat × Nat) :=
  let bad := plans.filterMap (fun p => (s.checks10to15 p cfg).map (fun e => (p, e)))
  (List.range 16).findSome? (fun k => (bad.find? (fun e => e.2.1 == k)))

/-- `plan.apply` (R63, R64): judged in the order of R570. -/
def planApply : Handler := fun c s =>
  let mask := rd c.arg 0 2
  let lines := maskList 16 mask
  let staged := lines.filterMap (fun l => (s.gridOf l).staged)
  if mask = 0 || !s.maskEnabled mask then reject s stBadArg
  else if lines.any s.applyPending then reject s stBusy
  else if staged.length ≠ lines.length then reject s stWrongState
  else if lines.any (fun l => s.running l && (match (s.gridOf l).staged, s.plan? l with
      | some a, some b => !sameStop a b | _, _ => false)) then reject s stWrongState
  else
    let cfg := s.resulting lines
    match s.applyFault staged cfg with
    | some (p, k, st, t) => (⟨st, none, planResponse k t p (deviceRate cfg)⟩, s)
    | none => pendWith s c 0x0202 lines none

/-! ### `plan.timeline` and `plan.status` -/

/-- The coded position of a launch kind (Table 2.12). -/
def codeByte (s : State) (l : Nat) (p : Plan) (k : LaunchKind) (x : Nat) : Nat :=
  match k with
  | .tone t => if (p.tone t).cls = 2 then s.codePos l p t x else 0xFF
  | _ => 0xFF

def kindByte : LaunchKind → Nat
  | .tone t => t
  | .thermal => 8
  | .spot t => t

/-- `plan.timeline` (Table 2.12): the launches of one second, in sheet-index order. A staged unaligned plan takes SECOND as
its anchor second. -/
def planTimeline : Handler := fun c s =>
  let l := rd c.arg 0 1
  let which := rd c.arg 1 1
  let count := rd c.arg 2 2
  let second := rd c.arg 4 8
  let first := rd c.arg 12 4
  if s.badLine l || 1 < which || count < 1 || 500 < count then reject s stBadArg
  else
    let plan := if which = 0 then s.plan? l else (s.gridOf l).staged
    match plan with
    | none => reject s stWrongState
    | some p =>
      -- the grid of the second asked for, its cells counted from the plan's origin
      let virt : State := if which = 1 then s.modGrid l (fun g => { g with anchor := s.tb.secTick }) else s
      let at_ := if which = 1 then some s.tb.secTick else s.boundaryOf second
      let b := at_.getD s.tb.secTick
      if which = 0 && !p.aligned && (at_.isNone || decide (b < (s.gridOf l).anchor)) then reject s stWrongState
      else
        let w := virt.secondWindow l p b
        let hi := w.2 + cellsPerSecond
        let start := seekLaunch p (if at_.isSome && which = 0 then s.firstCell w.1 b else w.2) first
        let list := launchesFrom p.gridTrains hi count start
        if list.isEmpty then reject s stBadArg
        else okWith s (list.flatMap (fun e =>
          u32 (e.1 - w.2) ++ u8 (kindByte e.2) ++ u8 (codeByte virt l p e.2 (w.1 + e.1 * ticksPerCell)) ++ u16 0))

/-- STATE of `plan.status` (Table 2.18). -/
def State.planFlags (s : State) (l : Nat) : Nat :=
  b2n (s.plan? l).isSome + 2 * b2n (s.gridOf l).staged.isSome + 4 * b2n (s.applyPending l) + 8 * b2n (s.gridOf l).settling +
    16 * b2n (s.gridOf l).spot.isSome

/-- The counters of one line of `plan.status`. -/
def State.planCounters (s : State) (l : Nat) : List Byte :=
  let g := s.gridOf l
  u32 g.truncated ++ u32 g.suppressed ++ u32 g.inhibited ++ u32 (s.planFlags l)

/-- Forget the saturation reports of a status command's selector when its counters clear (R526). -/
def State.clearSat (s : State) (op sel : Nat) : State :=
  s.modHealth (fun h => { h with saturated := h.saturated.filter (fun e => !(e.1 == op && e.2.2 == sel)) })

/-- `plan.status` (Table 2.18), with read-and-clear. -/
def planStatus : Handler := fun c s =>
  let mask := rd c.arg 0 2
  let lines := maskList 16 mask
  if !s.maskEnabled mask then reject s stBadArg
  else
    let body := lines.flatMap s.planCounters
    let s1 := if bit (rd c.arg 2 2) 0 then
      lines.foldl (fun s l => (s.modGrid l (fun g => { g with truncated := 0, suppressed := 0, inhibited := 0 })).clearSat 0x0208 l) s
      else s
    okWith s1 body

end Sys2Proof.Machine
end

