-- ==== Sys2Proof/Machine/Probe.lean ====
section
/-! DEFINITION. Probe settings, waveform memory, gate bounds and spot shots: the commands `probe.config`, `probe.load`,
`plan.gate_limit` and `plan.spot`, and the effects of the first and third (R50, R51, R59, R68 to R72). -/

namespace Sys2Proof.Machine

def State.probeOf (s : State) (b : Nat) : ProbeCfg := nth s.cfg.probes b default

/-- A running line uses the probe. -/
def State.probeBusy (s : State) (b : Nat) : Bool :=
  (List.range 16).any (fun l => s.running l && (match s.plan? l with | some p => p.probe == b | none => false))

/-- `probe.config` (R71): a skew or guard change takes effect at acceptance, the idle code when the probe carries no
launch. -/
def probeConfig : Handler := fun c s =>
  let p := c.arg
  let b := rd p 0 1
  let idleOnly := bit (rd p 1 1) 0
  let skew := rdS p 2 2
  let guard := rd p 4 2
  let q := s.probeOf b
  if 1 < b || (!idleOnly && (skew < -256 || 255 < skew || 255 < guard)) then reject s stBadArg
  else if (s.pendOf 0x0204 b).isSome then reject s stBusy
  else if !idleOnly && (skew != q.skew || guard != q.guard) && s.probeBusy b then reject s stInUse
  else
    let s1 := if idleOnly then s
      else s.modCfg (fun r => { r with probes := upd r.probes b (fun q => { q with skew := skew, guard := guard }) })
    pendWith s1 c 0x0204 [b] none

/-- The idle codes a `probe.config` payload carries (Table 2.13). -/
def idleI (p : List Byte) : Int := sx 14 (field (rd p 6 2) 2 14)
def idleQ (p : List Byte) : Int := sx 14 (field (rd p 8 2) 2 14)

/-- The idle code changes at the first instant, from apply-at or acceptance, at which the probe carries no launch (R71). -/
def State.idleCodeChange (s : State) (b : Nat) : State :=
  match s.pendOf 0x0204 b with
  | some p =>
    let run := nth s.probeRun b default
    if p.applyAt.getD p.accepted ≤ s.now && (run.playing.isNone || decide (run.playUntil ≤ s.now)) then
      let s1 := s.modCfg (fun r => { r with probes := upd r.probes b (fun q => { q with idleI := idleI p.data, idleQ := idleQ p.data }) })
      (s1.strike 0x0204 b).applied p (srcProbe b) (s1.effStamp s1.now none) s1.now stOk
    else s
  | none => s

/-! ### `probe.load` (R50, R72) -/

/-- The words of a chunk. -/
def chunkWords (p : List Byte) (n : Nat) : List (BitVec 32) :=
  (List.range n).map (fun i => BitVec.ofNat 32 (rd p (24 + 4 * i) 4))

/-- The CRC-32C over a slot's words as they stand in a memory. A word that nothing has written since manufacture is zero (DESIGN CHOICE: R72 takes
whatever the memory holds and no rule gives its first content). -/
def slotCrc (mem : List (Nat × BitVec 32)) (base len : Nat) : Nat :=
  crc32c ((sgetL 0#32 mem base len).flatMap (fun w => u32 w.toNat))

/-- A staged plan or a plan in effect names a slot of a probe. -/
def Plan.names (p : Plan) (probe slot : Nat) : Bool :=
  p.probe == probe && (p.tones.any (fun u => u.slotA == slot || (u.cls == 2 && u.slotB == slot)) ||
    (p.thermMode == 1 && p.thermSlot == slot))

def State.slotNamed (s : State) (probe slot : Nat) : Bool :=
  s.cfg.plans.any (fun o => match o with | some p => p.names probe slot | none => false) ||
    s.grid.any (fun g => match g.staged with | some p => p.names probe slot | none => false)

/-- `probe.load` (Table 2.14, R72). BASE and LENGTH are judged only with FIRST, where alone they take effect (DESIGN CHOICE: Table 2.15 does not say
whether a later chunk's are). -/
def probeLoad : Handler := fun c s =>
  let p := c.arg
  let b := rd p 0 1
  let n := rd p 1 1
  let firstF := bit (rd p 2 2) 0
  let finalF := bit (rd p 2 2) 1
  let base := rd p 4 4
  let len := rd p 8 4
  let bw := rd p 12 2
  let count := rd p 14 2
  let off := rd p 16 4
  let crc := rd p 20 4
  let old := s.slotOf b n
  let slot : Slot := if firstF then ⟨base, len, bw, 1⟩ else old
  if 1 < b || 63 < n || 1000 < count then reject s stBadArg
  else if firstF && (131071 < base || len < 4 || 131072 < len || len % 4 != 0 || 131072 < base + len) then reject s stBadArg
  else if slot.st != 1 || slot.length < off + count then reject s stBadArg
  else if firstF && s.slotNamed b n then reject s stInUse
  else
    let mem := ssetL 0#32 (nth s.cfg.waves b []) (slot.base + off) (chunkWords p count)
    if finalF && slotCrc mem slot.base slot.length != crc then reject s stWaveCrc
    else
      let slot1 := if finalF then { slot with st := 2 } else slot
      okay (s.modCfg (fun r => { r with
        waves := r.waves.set b mem
        slots := upd r.slots b (fun l => l.set n slot1) }))

/-! ### `plan.gate_limit` (R59) -/

def planGateLimit : Handler := fun c s =>
  let p := c.arg
  let mask := rd p 0 2
  let duty := rd p 2 1
  let width := rd p 4 2
  if mask = 0 || !s.maskEnabled mask || duty < 1 || 100 < duty || width < 1 || 32768 < width then reject s stBadArg
  else pendWith s c 0x0206 (maskList 16 mask) none

/-- New bounds take effect at the first sheet boundary of the gate's running line at or after apply-at or acceptance, and
at apply-at or acceptance otherwise (R59). -/
def State.gateLimitEffect (s : State) (g : Nat) : State :=
  match s.pendOf 0x0206 g with
  | some p =>
    let from_ := p.applyAt.getD p.accepted
    let due := match s.running g, s.plan? g with
      | true, some q => ((s.nextGrid g q from_).map Prod.fst).getD from_
      | _, _ => from_
    if due ≤ s.now then
      let s1 := s.modCfg (fun r => { r with gates := r.gates.set g ⟨rd p.data 2 1, rd p.data 4 2⟩ })
      (s1.strike 0x0206 g).applied p (srcLine g) (s1.effStamp due (some g)) due stOk
    else s
  | none => s

/-! ### Spot shots (R68, R69) -/

/-- A progression of launches that keeps others off a probe, with the tick of its grid's origin. -/
structure Block where
  origin : Nat
  occ : Occ
deriving DecidableEq, Repr, Inhabited

/-- The occupation of a spot launch of a tone: its slot A, channel, amplitude and gate (R68). -/
def State.spotOcc (s : State) (l : Nat) (p : Plan) (t : Nat) : Occ :=
  let u := p.tone t
  ⟨l, t, 0, 1, u.slotA, u.channel, u.amp, false, (s.slotOf p.probe u.slotA).length + 4 * (s.probeOf p.probe).guard,
    p.riseFd * 8, u.width * ticksPerCell + p.fallFd * 8⟩

/-- The spot shots of a line, pending or made and still in progress, each with its plan. -/
def State.spotsOf (s : State) (l : Nat) : List (Nat × Nat × Plan) :=
  (match (s.gridOf l).spot, s.plan? l with | some e, some p => [(e.1, e.2, p)] | _, _ => []) ++
    (s.gridOf l).inFlight.filterMap (fun e => match e.kind with | .spot t => some (e.tick, t, e.plan) | _ => none)

/-- A spot shot as a progression that has only its one launch. -/
def State.spotBlock (s : State) (l : Nat) (e : Nat × Nat × Plan) : Block :=
  ⟨e.1, { s.spotOcc l e.2.2 e.2.1 with period := 2 ^ 62 }⟩

/-- What occupies a probe: the launches of every running line, on each line's own grid, and the spot shots of every line. -/
def State.probeBlocks (s : State) (probe : Nat) : List Block :=
  (List.range 16).flatMap (fun l =>
    ((s.spotsOf l).filter (fun e => e.2.2.probe == probe)).map (s.spotBlock l) ++
    match s.running l, s.plan? l with
    | true, some p => if p.probe = probe then (s.occs p).map (fun o => ⟨s.gridOrigin l p, o⟩) else []
    | _, _ => [])

/-- The first launch of a progression later than `x + lo` (ticks), as a tick. -/
def Block.after (b : Block) (x : Nat) (lo : Int) : Nat :=
  let y : Int := (x : Int) + lo + 1 - b.origin
  let c := ceilDiv y.toNat ticksPerCell
  b.origin + Train.next ⟨b.occ.first, b.occ.period, .thermal⟩ c * ticksPerCell

/-- The forbidden differences, in ticks, between a launch of a progression and a launch of `a`, as open bounds: occupation
against occupation (R47), each one's gate against the other's occupation (R48). -/
def clashBounds (skew : Int) (a b : Occ) : List (Int × Int) :=
  let oa : Int := (a.samples * 64 : Nat)
  let ob : Int := (b.samples * 64 : Nat)
  [(-ob, oa)] ++
    (if a.line = b.line then [] else
      [((a.rise : Int) - skew * 64 - ob, (a.fall : Int) - skew * 64),
        (skew * 64 - (b.fall : Int), oa + skew * 64 - (b.rise : Int))])

/-- The earliest later instant at which `a` could be launched when a progression blocks it at `x`; none when it does not. -/
def Block.blocked (skew : Int) (a : Occ) (x : Nat) (b : Block) : Option Nat :=
  (clashBounds skew a b.occ).findSome? (fun e =>
    let y := b.after x e.1
    if (y : Int) < (x : Int) + e.2 && !(y == x && Occ.shared a b.occ) then
      some (max (x + ticksPerCell) (((y : Int) - e.1).toNat)) else none)

/-- What R68 asks of a spot instant on its own line: no deckle of an earlier spot shot in progress, and on the line's grid the first launch not
before `x − DECKLE_LAST` after the return interval. Otherwise the first instant past that deckle. -/
def State.ownBlocked (s : State) (l : Nat) (p : Plan) (w x : Nat) : Option Nat :=
  match (s.spotsOf l).find? (fun e => decide (x < e.1 + (e.2.2.last + 1) * ticksPerCell) && decide (e.1 ≤ x + (p.last + w) * ticksPerCell)) with
  | some e => some (e.1 + (e.2.2.last + 1) * ticksPerCell)
  | none =>
  if s.running l then
    match s.nextGrid l p (x - p.last * ticksPerCell) with
    | some (y, _) => if y ≤ x + (p.last + w) * ticksPerCell then some (y + (p.last + 1) * ticksPerCell) else none
    | none => none
  else none

/-- R296: a launch-zero shot is deferred until no gate of another line opens within the 8 192 cells after it. -/
def State.gateBlocked (s : State) (l x : Nat) : Option Nat :=
  let past := fun (y : Nat) => if x ≤ y && decide (y ≤ x + 8192 * ticksPerCell) then some (y + ticksPerCell) else none
  (List.range 16).findSome? (fun k =>
    if k = l then none
    else match (s.spotsOf k).findSome? (fun e => past e.1) with
      | some y => some y
      | none =>
        match s.running k, s.plan? k with
        | true, some p => (s.nextGrid k p x).bind (fun e => past e.1)
        | _, _ => none)

/-- Search for the first free instant up to a bound, jumping past each blocker; fuel bounds the jumps. -/
def State.spotSearch (s : State) (l : Nat) (p : Plan) (a : Occ) (blocks : List Block) (alone : Bool) (w hi : Nat) :
    Nat → Nat → Option Nat
  | 0, _ => none
  | n + 1, x =>
    if hi < x then none
    else
      let skew := (s.probeOf p.probe).skew
      match s.ownBlocked l p w x, blocks.findSome? (Block.blocked skew a x), (if alone then s.gateBlocked l x else none) with
      | some y, _, _ => s.spotSearch l p a blocks alone w hi n (s.ceilCell y)
      | none, some y, _ => s.spotSearch l p a blocks alone w hi n (s.ceilCell y)
      | none, none, some y => s.spotSearch l p a blocks alone w hi n (s.ceilCell y)
      | none, none, none => some x

/-- The spot launch instant (R68): apply-at rounded up to a whole cell, or the next whole cell, deferred to the first free
instant within 1 s; none when there is none. `alone` adds R296's deferral. -/
def State.spotInstant (s : State) (l : Nat) (p : Plan) (t : Nat) (at_ : Option Nat) (alone : Bool) : Option Nat :=
  let x0 := s.ceilCell (max (at_.getD (s.now + 1)) (s.gridOf l).awakeAt)
  let hi := at_.getD s.now + ticksPerSecond
  s.spotSearch l p (s.spotOcc l p t) (s.probeBlocks p.probe) alone (s.slotCells p.probe (p.tone t).slotA) hi 16777216 x0

/-- `plan.spot` (R68, R69). -/
def planSpot : Handler := fun c s =>
  let l := rd c.arg 0 1
  let t := rd c.arg 1 1
  if s.badLine l then reject s stBadArg
  else match s.plan? l with
    | none => reject s stWrongState
    | some p =>
      if p.tones.length ≤ t then reject s stBadArg
      else if !s.emit.level || (s.gridOf l).spot.isSome then reject s stWrongState
      else match s.spotInstant l p t (c.at_ s) false with
        | none => reject s stPlanConflict
        | some x =>
          (⟨stOk, some (s.effStamp x (some l)), []⟩, s.modGrid l (fun g => { g with spot := some (x, t), spotAt := (c.at_ s, false) }))

/-! ### When a staged plan takes effect -/

/-- The staged plan of a line carries a probe change against the plan in effect, and the line runs (R65). -/
def State.probeChanges (s : State) (l : Nat) : Bool :=
  match s.running l, s.plan? l, (s.gridOf l).staged with
  | true, some a, some b => !sameProbe a b
  | _, _, _ => false

/-- The instant at which a pending apply takes effect on a line (R64, R65). -/
def State.planDue (s : State) (l : Nat) (p : Pend) : Nat :=
  let from_ := p.applyAt.getD p.accepted
  match s.running l, s.plan? l with
  | true, some a => if s.probeChanges l then s.nextShot l a 8 from_ else ((s.nextGrid l a from_).map Prod.fst).getD from_
  | _, _ => from_

end Sys2Proof.Machine
end

