-- ==== Sys2Proof/Machine/Rx.lean ====
section
/-! DEFINITION. The coherent receiver quads (R74 to R105): lane words, common-mode monitoring, sleep and wake, and the
commands `rx.config`, `rx.ref_config`, `rx.hold` and `rx.status`. -/

namespace Sys2Proof.Machine

def State.quadOf (s : State) (q : Nat) : QuadRun := nth s.quads q default
def State.quadCfg (s : State) (q : Nat) : QuadCfg := nth s.cfg.quads q QuadCfg.factory
def State.modQuad (s : State) (q : Nat) (f : QuadRun → QuadRun) : State := { s with quads := upd s.quads q f }
def State.modInput (s : State) (q i : Nat) (f : InputRun → InputRun) : State :=
  s.modQuad q (fun r => { r with inputs := upd r.inputs i f })
def QuadRun.inputOf (r : QuadRun) (i : Nat) : InputRun := nth r.inputs i InputRun.reset

/-! ### The monitor-block grid (section 3.4) -/

/-- One monitor block is 256 cells. -/
def blockTicks : Nat := 256 * ticksPerCell

/-- The last monitor-block boundary at or before an instant; blocks begin at second-relative cells that are multiples of
256. -/
def State.blockFloor (s : State) (x : Nat) : Nat := x - (s.secondAt x).2 % blockTicks

/-- The first monitor-block boundary at or after an instant. -/
def State.blockCeil (s : State) (x : Nat) : Nat :=
  if (s.secondAt x).2 % blockTicks = 0 then x else s.blockFloor x + blockTicks

/-! ### Readiness (R95 to R97) -/

/-- STATE of a quad: 0 asleep, 1 waking, 2 awake (Table 3.12). -/
def State.quadState (s : State) (q : Nat) : Nat :=
  match (s.quadOf q).ready with
  | none => 0
  | some r => if r ≤ s.now then 2 else 1

/-- How long a quad keeps what it was before: longer than a sheet takes to complete. -/
def quadKeep : Nat := 2 ^ 21 * ticksPerCell

/-- The ready instant of the awake spell in which an instant lies; none when the converters were not ready then. -/
def QuadRun.readySince (r : QuadRun) (x : Nat) : Option Nat :=
  match r.ready with
  | some a => if a ≤ x then some a else (r.spells.find? (fun e => decide (e.1 ≤ x) && decide (x < e.2))).map Prod.fst
  | none => (r.spells.find? (fun e => decide (e.1 ≤ x) && decide (x < e.2))).map Prod.fst

/-- The quad's converters were ready at an instant. -/
def State.readyAt (s : State) (q x : Nat) : Bool := ((s.quadOf q).readySince x).isSome

/-- A quad in use: its line has a plan in effect or a hold names it; Q16 is always in use. A quad that is not raises no event (R75). -/
def State.quadUsed (s : State) (q : Nat) : Bool := q == 16 || (s.plan? q).isSome || (s.quadOf q).held

/-- Wake an asleep quad for a ready instant; a new spell of monitoring begins (R87, Table 3.12). -/
def State.wake1 (s : State) (q ready : Nat) : State :=
  match (s.quadOf q).ready with
  | some _ => s
  | none => s.modQuad q (fun r => { r with
      ready := some ready, inputs := r.inputs.map (fun i => { i with cmMv := 0xFFFF, lastPass := none }) })

/-- Wake a quad; Q16 wakes no later than any line quad (R96). -/
def State.wakeQuad (s : State) (q ready : Nat) : State := (s.wake1 q ready).wake1 16 ready

/-- The wake takes 1 000 cells (Table 3.6). -/
def wakeTicks : Nat := 1000 * ticksPerCell

/-- The ready instant of a deckle whose first cell is sampled at an instant (R95). -/
def State.readyFor (s : State) (x : Nat) : Nat := s.blockFloor (x - 256 * ticksPerCell)

/-- The ready instant a wake that begins now reaches: the first monitor-block boundary at least 1 000 cells on. -/
def State.lateReady (s : State) : Nat := s.blockCeil (s.now + wakeTicks)

/-- The launch instants at or after which a line's next deckle is sought: grid launches of a line that runs or will run,
and its pending spot shot. -/
def State.nextDeckle (s : State) (l x : Nat) : Option Nat :=
  match s.plan? l with
  | none => none
  | some p =>
    let back := p.first * ticksPerCell
    let lo := x - back
    let before := fun (e : Nat) => match s.stopInstant l with | some x => decide (e < x) | none => true
    let grid := if (s.lineOf l).st = 2 || (s.lineOf l).st = 3 then
        ((s.nextGrid l p lo).filter (fun e => before e.1)).map (fun e => e.1 + back)
      else if (s.lineOf l).st = 1 then (s.nextGrid l p (max lo (s.lineOf l).from_)).map (fun e => e.1 + back) else none
    let spot := match (s.gridOf l).spot with
      | some (y, _) => if x ≤ y + back then some (y + back) else none
      | none => none
    match grid, spot with
    | some a, some b => some (min a b)
    | some a, none => some a
    | none, b => b

/-- A sheet whose quad is asleep and cannot wake in time begins its wake now (R97). -/
def State.wakeFor (s : State) (l firstCell : Nat) : State :=
  if s.readyFor firstCell < s.now + wakeTicks then s.wakeQuad l s.lateReady else s

/-- QUAD_WAKE: an asleep quad whose next deckle's wake instant has come wakes for that deckle's ready instant (R95); Q16
wakes with the earliest line quad (R96). -/
def State.quadWake (s : State) (q : Nat) : State :=
  if 2 ≤ s.pwr.st || !s.quadEnabled q then s
  else
    let lines := if q = 16 then (List.range 16).filter s.lineEnabled else [q]
    let firsts := lines.filterMap (fun l => s.nextDeckle l s.now)
    match firsts with
    | [] => s
    | a :: r =>
      let ready := s.readyFor (r.foldl min a)
      if s.now + wakeTicks < ready then s
      else
        let at_ := if s.now + wakeTicks = ready then ready else s.lateReady
        if q = 16 then s.wake1 16 at_ else s.wakeQuad q at_

/-- The end of the latest deckle of a line already launched. -/
def State.deckleEnd (s : State) (l : Nat) : Nat :=
  (s.gridOf l).inFlight.foldl (fun m e => max m (e.tick + (e.plan.last + 1) * ticksPerCell)) 0

/-- A line quad may power down at a block boundary: not held, no deckle sampled at or after it, and the next ready instant
more than 2 000 cells later (R96). -/
def State.mayPowerDown (s : State) (l x : Nat) : Bool :=
  !(s.quadOf l).held && decide (s.deckleEnd l ≤ x) &&
    (match s.nextDeckle l x with
      | none => true
      | some d => decide (x + 2000 * ticksPerCell < s.readyFor d))

/-- Put a quad to sleep at an instant. -/
def State.sleepQuad (s : State) (q x : Nat) : State :=
  s.modQuad q (fun r => match r.ready with
    | none => r
    | some a => { r with ready := none, spells := (a, x) :: r.spells.filter (fun e => decide (x < e.2 + quadKeep)) })

/-- QUAD_POWER_DOWN at the end of a monitor block (R96). -/
def State.quadPowerDown (s : State) (q : Nat) : State :=
  let x := s.blockFloor s.now
  if s.quadState q ≠ 2 then s
  else if q = 16 then
    let quiet := (List.range 16).all (fun l => !s.lineEnabled l ||
      (s.quadState l == 0 && !(s.quadOf l).held &&
        (match s.nextDeckle l x with | none => true | some d => decide (x + 2000 * ticksPerCell < s.readyFor d))))
    if quiet && !(s.quadOf 16).held then s.sleepQuad 16 x else s
  else if s.mayPowerDown q x then s.sleepQuad q x else s

/-! ### The lane word (R77, R82, R83, R92, R93) -/

/-- Full scale of a gain step in µV and its clamp threshold in µV (Table 3.3). -/
def fullScaleUv (g : Nat) : Nat := nth [1000000, 708000, 501000, 355000, 251000, 178000] g 1000000
def clampUv (g : Nat) : Nat := nth [600000, 425000, 301000, 213000, 151000, 107000] g 600000

/-- The lane code (R77). -/
def laneCode (gain : Nat) (vNv : Int) : Int := clampI (-2048) 2047 (rneDiv (4096 * vNv) (fullScaleUv gain * 1000))

/-- The gain step in force at an instant (R79). -/
def State.gainAtInstant (s : State) (q x : Nat) : Nat := pastAt (s.quadOf q).gains (s.quadCfg q).gain x

/-- GAIN_STEP: between a gain change and the end of the next complete monitor block (R80). -/
def State.gainMark (s : State) (q x : Nat) : Bool :=
  (s.quadOf q).gains.any (fun e => decide (e.1 ≤ x) && decide (x < s.blockCeil e.1 + blockTicks))

/-- LEAD at an instant of an input (R87, R88). -/
def InputRun.leadAt (i : InputRun) (x : Nat) : Bool :=
  i.spans.any (fun e => decide (e.1 ≤ x) && (match e.2 with | some y => decide (x ≤ y) | none => true))

/-- The role map at an instant. -/
def QuadRun.convsAt (r : QuadRun) (x : Nat) : List Conv := pastAt r.maps r.convs x

/-- The converter of a role in a map: the one that serves the input, or the spare for role 4. -/
def roleIn (m : List Conv) (role : Nat) : Option Nat :=
  if role = 4 then (List.range 5).find? (fun j => match nth m j default with | ⟨none, _⟩ => true | ⟨_, p⟩ => p)
  else (List.range 5).find? (fun j => decide (nth m j default = ⟨some role, false⟩))

/-- The converter of a role now. -/
def QuadRun.roleConv (r : QuadRun) (role : Nat) : Option Nat := roleIn r.convs role

/-- The converters' roles change at an instant; what they were is kept for words sampled before it. -/
def State.setConvs (s : State) (q x : Nat) (f : List Conv → List Conv) : State :=
  s.modQuad q (fun r => { r with convs := f r.convs, maps := pastPut r.maps x quadKeep r.convs })

/-- Clamp engaged at the sample, or within the 4 samples after it released (R92). -/
def clampFlag (gain : Nat) (vNv : Int) (last : Option Nat) (x : Nat) : Bool :=
  decide ((clampUv gain * 1000 : Nat) < vNv.natAbs) ||
    (match last with | some y => decide (y < x) && decide (x ≤ y + 4 * ticksPerCell) | none => false)

/-- The lane word of a role at a sampling instant (Table 3.4), by the role map at that instant. A role whose converter has no input (the spare's
while it stands apart, an unserved input's under R129) reads NOT_READY with CODE 0; for the spare apart this is a DESIGN CHOICE, since R82
gives that role no word. -/
def State.laneWord (s : State) (q role x : Nat) (vNv : Int) : BitVec 16 :=
  let r := s.quadOf q
  let g := s.gainAtInstant q x
  let m := r.convsAt x
  match (roleIn m role).bind (fun j => (nth m j default).input) with
  | none => 2#16
  | some i =>
    let inp := r.inputOf i
    if !s.readyAt q x then BitVec.ofNat 16 (2 + 4 * b2n (inp.leadAt x) + b2n (s.gainMark q x))
    else
      let code := laneCode g vNv
      let clip := code == -2048 || code == 2047 || clampFlag g vNv inp.clamped x
      BitVec.ofNat 16 (ux 12 code * 16 + 8 * b2n clip + 4 * b2n (inp.leadAt x) + b2n (s.gainMark q x))

/-- The first tick of a launch's deckle outside its blanket, and the tick after its deckle. -/
def Launch.openDeckle (e : Launch) : Nat × Nat :=
  (e.tick + max e.plan.first e.plan.blanket * ticksPerCell, e.tick + (e.plan.last + 1) * ticksPerCell)

/-- A sampling instant lies in a launch's deckle, outside its blanket (R93). -/
def Launch.counts (e : Launch) (x : Nat) : Bool := decide (e.openDeckle.1 ≤ x) && decide (x < e.openDeckle.2)

/-- A CLIP-flagged word of an input counts in every sheet in whose deckle it lies, and once in CLIPS (R93). -/
def State.countClip (s : State) (q i x : Nat) : State :=
  if q < 16 && (s.gridOf q).inFlight.any (fun e => e.counts x) then
    (s.modGrid q (fun g => { g with inFlight := g.inFlight.map (fun e => if e.counts x then { e with clips := upd e.clips i (· + 1) } else e) })).modInput
      q i (fun p => { p with clips := satAdd p.clips 1 })
  else s

/-- Keep what the next samples need, and count a clipped deckle word (R92, R93). -/
def State.keepWord (s : State) (q role x : Nat) (vNv : Int) (w : BitVec 16) : State :=
  match roleIn ((s.quadOf q).convsAt x) role with
  | none => s
  | some j =>
    let s1 := s.modQuad q (fun r => { r with words := upd r.words j (fun l => (x, w) :: l.filter (fun e => decide (x < e.1 + quadKeep))) })
    if role = 4 then s1
    else
      let clamped := decide ((clampUv (s.gainAtInstant q x) * 1000 : Nat) < vNv.natAbs)
      let s2 := if clamped then s1.modInput q role (fun i => { i with clamped := some x }) else s1
      if w.getLsbD 3 then s2.countClip q role x else s2

/-- The deckle cells of a launch sampled before its quad was ready (R97). -/
def State.cellsNotReady (s : State) (l : Nat) (e : Launch) : Nat :=
  let first := e.tick + e.plan.first * ticksPerCell
  let whole := e.plan.last + 1 - e.plan.first
  match (s.quadOf l).readySince (e.tick + e.plan.last * ticksPerCell) with
  | none => whole
  | some r => min whole (ceilDiv (r - first) ticksPerCell)

/-- What the quad reports of a launch when its sheet leaves: the clipped words of each input (R93) and the cells sampled before it was ready (R97),
both under the launch's stamp. -/
def State.closeSheet (s : State) (l : Nat) (e : Launch) (late : Nat) : State :=
  let stamp := match e.kind with
    | .spot _ => s.secStamp e.tick (some l) false
    | _ => sheetStampOf e.second e.index 0 0 l (s.flagsAt e.tick)
  let s1 := e.clips.zipIdx.foldl (fun s c =>
    if c.1 = 0 then s else s.raise 0x0303 sevNotice (srcQuad l) stamp e.tick (u8 c.2 ++ u32 (satTo 4 c.1)) (some [c.2])) s
  if late = 0 then s1
  else (s1.modQuad l (fun r => { r with wakeLate := satAdd r.wakeLate late })).raise 0x0305 sevNotice (srcQuad l) stamp e.tick (u32 (satTo 4 late)) none

/-- A thermal launch is closed once its last deckle word has been released: no engine completes its sheet. -/
def State.closeThermal (s : State) (q x : Nat) : State :=
  let gone := fun (e : Launch) => decide (e.kind = .thermal) && !e.clips.isEmpty && decide (e.tick + e.plan.last * ticksPerCell < x)
  let done := (s.gridOf q).inFlight.filter gone
  if q < 16 && !done.isEmpty then
    done.foldl (fun s e => s.closeSheet q e (s.cellsNotReady q e))
      (s.modGrid q (fun g => { g with inFlight := g.inFlight.map (fun e => if gone e then { e with clips := [] } else e) }))
  else s

/-! ### The common-mode monitor (R84 to R91) -/

/-- The windows and the MONITOR mask for a block that begins at an instant (R84). -/
def State.windowsAt (s : State) (q start : Nat) : Windows :=
  let k := s.quadCfg q
  pastAt (s.quadOf q).windows ⟨k.cmLo, k.cmHi, k.monitor⟩ start

/-- An input is monitored on a block that begins at an instant (R85): a change of MONITOR, as one of a window, counts from the first block that
begins at or after its effective instant (R84). -/
def State.monitored (s : State) (q i start : Nat) : Bool :=
  let mask := (s.windowsAt q start).monitor
  if q = 16 then decide (i ≤ 1) || bit mask (i - 2) else decide (i ≤ 3)

/-- The window in force for a block that begins at an instant (R84). -/
def State.windowFor (s : State) (q i start : Nat) : Nat × Nat :=
  (nth (s.windowsAt q start).lo i 700, nth (s.windowsAt q start).hi i 1100)

/-- A lead fault begins (R87, R89, R91): LEAD from the start of the last passing block or from the ready instant. -/
def State.leadFault (s : State) (q i start mv : Nat) (high : Bool) : State :=
  let inp := (s.quadOf q).inputOf i
  let from_ := inp.lastPass.getD ((s.quadOf q).ready.getD start)
  let s1 := s.modInput q i (fun p => { p with
    fault := some ⟨high, start, 0⟩, spans := ((from_, none) :: p.spans).take 8, leadFaults := satAdd p.leadFaults 1 })
  let s2 := s1.raise 0x0301 sevFault (srcQuad q)
    (if q < 16 then s1.lineStamp q start false else s1.secStamp start none false) start (u8 i ++ u8 (b2n high) ++ u16 (satTo 2 mv)) none
  let u := 4 * q + i
  let s3 := s2.detect kindLead u
  s3.testIfDue kindLead u

/-- The fault ends at the end of the 16th consecutive passing block (R88, R89). -/
def State.leadClear (s : State) (q i stop first : Nat) : State :=
  let s1 := s.modInput q i (fun p => { p with
    fault := none, spans := p.spans.map (fun e => if e.2.isNone then (e.1, some stop) else e) })
  s1.raise 0x0302 sevInfo (srcQuad q) (if q < 16 then s1.lineStamp q stop false else s1.secStamp stop none false) stop
    (u8 i ++ u32 (satTo 4 ((stop - first) / ticksPerUs))) none

/-- One evaluated block of an input. -/
def State.judgeBlock (s : State) (q start : Nat) (i mv : Nat) : State :=
  let w := s.windowFor q i start
  let s1 := s.modInput q i (fun p => { p with cmMv := satTo 2 mv })
  let inp := (s1.quadOf q).inputOf i
  if w.1 ≤ mv && mv ≤ w.2 then
    let s2 := s1.modInput q i (fun p => { p with
      lastPass := some start, fault := p.fault.map (fun f => { f with passes := f.passes + 1 }) })
    match inp.fault with
    | some f => if 16 ≤ f.passes + 1 then s2.leadClear q i (start + blockTicks) f.first else s2
    | none => s2
  else match inp.fault with
    | some _ => s1.modInput q i (fun p => { p with fault := p.fault.map (fun f => { f with passes := 0 }) })
    | none => s1.leadFault q i start mv (decide (w.2 < mv))

/-- MONITOR_BLOCK_END (R85): every monitored input with an awake serving converter is judged on a block that lies wholly in
the awake time. -/
def State.monitorBlock (s : State) (q : Nat) (means : List Nat) : State :=
  let stop := s.blockFloor s.now
  let start := stop - blockTicks
  -- a quad that has just powered down was awake to the end of its last block
  let awake := match (s.quadOf q).ready, (s.quadOf q).spells with
    | some r, _ => decide (r ≤ start)
    | none, e :: _ => decide (e.1 ≤ start) && decide (stop ≤ e.2)
    | none, [] => false
  if awake && blockTicks ≤ stop && !(2 ≤ s.pwr.st) then
      ((List.range 4).zip means).foldl (fun s e =>
        if s.monitored q e.1 start && ((s.quadOf q).roleConv e.1).isSome then s.judgeBlock q start e.1 e.2 else s) s
  else s

/-! ### Commands -/

def windowOk (p : List Byte) (i : Nat) : Bool :=
  let lo := rd p (4 + 4 * i) 2
  let hi := rd p (6 + 4 * i) 2
  decide (500 ≤ lo) && decide (hi ≤ 1300) && lo % 10 == 0 && hi % 10 == 0 && decide (lo + 100 ≤ hi)

/-- `rx.config` (R103, Table 3.9). -/
def rxConfig : Handler := fun c s =>
  let p := c.arg
  let q := rd p 0 1
  if !s.quadEnabled q || 5 < rd p 1 1 || (q < 16 && rd p 2 1 ≠ 0) || !(List.range 4).all (windowOk p) then reject s stBadArg
  else if (s.pendOf 0x0301 q).isSome then reject s stBusy
  else pendWith s c 0x0301 [q] none

/-- The effective instant of a pending `rx.config` (R103). -/
def State.rxDue (s : State) (q : Nat) (p : Pend) : Nat :=
  let from_ := p.applyAt.getD p.accepted
  if q < 16 && s.running q then
    match s.plan? q with
    | some pl => ((s.nextGrid q pl from_).map Prod.fst).getD from_
    | none => from_
  else from_

/-- H of a handover that fell due (R117, R119): the first sheet boundary of the line at or after the decision, or on Q16
the first monitor-block boundary after it; none while the line has no further boundary, as past that of a stop (R167). -/
def State.handoverInstant (s : State) (q d : Nat) : Option Nat :=
  if q = 16 then some (s.blockCeil (d + 1))
  else match s.running q, s.plan? q with
    | true, some p =>
      ((s.nextGrid q p (max d (s.gridOf q).planFrom)).map Prod.fst).filter (fun h => match s.stopInstant q with | some x => decide (h < x) | none => true)
    | _, _ => none

/-- The gain switches (R79, R80): a handover due at the same boundary is deferred and checked again (R81), the blocks partly gathered are
discarded (R111), and a quad that is not in use raises no event (R75). -/
def State.gainSwitch (s : State) (q x gain : Nat) : State :=
  let old := (s.quadCfg q).gain
  if old = gain then s
  else
    let cq := nth s.cal.quads q default
    let deferred := match cq.dueAt with | some d => decide (s.handoverInstant q d = some x) | none => false
    let s1 := s.modQuad q (fun r => { r with gains := pastPut r.gains x quadKeep old })
    let s2 := { s1 with cal := { s1.cal with quads := upd s1.cal.quads q (fun k =>
      { k with
        dueAt := if deferred then some (x + 1) else k.dueAt, recheck := k.recheck || deferred
        cells := [], gathFrom := k.gathFrom.map (max x) }) } }
    let s3 := (if q < 16 then s2.modLine q (fun r => { r with gainNext := true }) else s2).modCfg
      (fun r => { r with quads := upd r.quads q (fun k => { k with gain := gain }) })
    if !s3.quadUsed q then s3
    else s3.raise 0x0304 sevInfo (srcQuad q) (if q < 16 then s3.boundaryStamp q x else s3.secStamp x none false) x
      (u8 old ++ u8 gain ++ u8 (b2n deferred)) none

/-- RX_CONFIG_TAKES_EFFECT (R79, R84, R103). -/
def State.rxConfigEffect (s : State) (q : Nat) : State :=
  match s.pendOf 0x0301 q with
  | none => s
  | some p =>
    let x := s.rxDue q p
    if s.now < x then s
    else
      let lo := (List.range 4).map (fun i => rd p.data (4 + 4 * i) 2)
      let hi := (List.range 4).map (fun i => rd p.data (6 + 4 * i) 2)
      let old := s.quadCfg q
      let s1 := (s.strike 0x0301 q).gainSwitch q x (rd p.data 1 1)
      let s2 := if old.cmLo = lo && old.cmHi = hi && old.monitor == rd p.data 2 1 then s1
        else s1.modQuad q (fun r => { r with windows := pastPut r.windows x quadKeep ⟨old.cmLo, old.cmHi, old.monitor⟩ })
      let s3 := s2.modCfg (fun r => { r with quads := upd r.quads q (fun k =>
        { k with cmLo := lo, cmHi := hi, monitor := rd p.data 2 1 }) })
      s3.applied p srcDevice (s3.effStamp x (if q < 16 then some q else none)) x stOk

/-- `rx.ref_config` (R104). -/
def rxRefConfig : Handler := fun c s =>
  let d := rd c.arg 0 4
  if d < 16384 || 2097152 < d then reject s stBadArg
  else if (List.range 16).any s.running then reject s stInUse
  else okay (s.modCfg (fun r => { r with refDelay := d }))

/-- `rx.hold` (section 3.9): the mask replaces the previous one; a newly held quad wakes from acceptance. -/
def rxHold : Handler := fun c s =>
  let m := rd c.arg 0 4
  if 2 ^ 17 ≤ m || (List.range 17).any (fun q => bit m q && !s.quadEnabled q) then reject s stBadArg
  else
    let s1 := { s with quads := s.quads.zipIdx.map (fun e => { e.1 with held := bit m e.2 }) }
    okay ((List.range 17).foldl (fun s q => if bit m q then (if q = 16 then s.wake1 16 s.lateReady else s.wakeQuad q s.lateReady) else s) s1)

/-- MAP of a converter (Table 3.12). -/
def State.mapByte (s : State) (q j : Nat) : Nat :=
  let k := nth (s.quadOf q).convs j default
  (match k.input with | some i => i | none => 7) + 8 * b2n (k.parallel && k.input.isSome) +
    16 * b2n ((s.hUnit kindConverter (5 * q + j)).st == 3)

def State.rxBody (s : State) (q : Nat) : List Byte :=
  let r := s.quadOf q
  u8 (s.quadState q) ++ u8 (s.quadCfg q).gain ++ u8 (b2n r.held) ++ u8 0 ++
    (List.range 5).flatMap (fun j => u8 (s.mapByte q j)) ++ zeros 3 ++
    (List.range 4).flatMap (fun i =>
      let p := r.inputOf i
      u16 p.cmMv ++ u8 (match p.fault with | some f => 1 + 2 * b2n f.high | none => 0) ++ u8 0 ++ u32 p.clips ++ u32 p.leadFaults) ++
    u32 r.wakeLate

/-- `rx.status` (Table 3.12). -/
def rxStatus : Handler := fun c s =>
  let q := rd c.arg 0 1
  if !s.quadEnabled q then reject s stBadArg
  else
    let s1 := if bit (rd c.arg 1 1) 0 then
      (s.modQuad q (fun r => { r with wakeLate := 0, inputs := r.inputs.map (fun i => { i with clips := 0, leadFaults := 0 }) })).clearSat 0x0304 q
      else s
    okWith s1 (s.rxBody q)

end Sys2Proof.Machine
end

