-- ==== Sys2Proof/Machine/Cal.lean ====
section
/-! DEFINITION. The calender (R106 to R132): gathered blocks and their preconditions, limits, the rotation with its
handovers, emergency and in-place calibration, and the commands `cal.config`, `cal.status` and `cal.read`. -/

namespace Sys2Proof.Machine

def State.calOf (s : State) (q : Nat) : CalQuad := nth s.cal.quads q default
def State.calCfg (s : State) (q : Nat) : CalCfg := nth s.cfg.cal q CalCfg.factory
def State.modCal (s : State) (q : Nat) (f : CalQuad → CalQuad) : State :=
  { s with cal := { s.cal with quads := upd s.cal.quads q f } }
/-- A converter takes a role, or leaves it, now. -/
def State.modConvRole (s : State) (q j : Nat) (v : Conv) : State := s.setConvs q s.now (fun c => c.set j v)

/-- Places of a converter's and a pair's set at a gain step. -/
def convIx (q j g : Nat) : Nat := (5 * q + j) * 6 + g
def pairIx (q p g : Nat) : Nat := (2 * q + p) * 6 + g

def State.convSet (s : State) (q j g : Nat) : ConvSet := nth s.cfg.conv (convIx q j g) ConvSet.neutral
def State.pairSet (s : State) (q p g : Nat) : PairSet := nth s.cfg.pair (pairIx q p g) PairSet.neutral
def State.convMark (s : State) (q j g : Nat) : SetMark := nth s.cal.conv (convIx q j g) (SetMark.fresh 0)
def State.pairMark (s : State) (q p g : Nat) : SetMark := nth s.cal.pair (pairIx q p g) (SetMark.fresh 0)
def State.modConvMark (s : State) (q j g : Nat) (f : SetMark → SetMark) : State :=
  { s with cal := { s.cal with conv := upd s.cal.conv (convIx q j g) f } }
def State.modPairMark (s : State) (q p g : Nat) (f : SetMark → SetMark) : State :=
  { s with cal := { s.cal with pair := upd s.cal.pair (pairIx q p g) f } }
def State.setConv (s : State) (q j g : Nat) (v : ConvSet) : State := s.modCfg (fun r => { r with conv := r.conv.set (convIx q j g) v })
def State.setPair (s : State) (q p g : Nat) (v : PairSet) : State := s.modCfg (fun r => { r with pair := r.pair.set (pairIx q p g) v })

/-- Converters of a quad that are not retired. -/
def State.serviceable (s : State) (q : Nat) : List Nat :=
  (List.range 5).filter (fun j => !(s.hUnit kindConverter (5 * q + j)).gone)

/-! ### Gathering (R109 to R111) -/

/-- The 4.096 ms period of the second-relative grid, and its end for an instant (R111). -/
def calPeriodTicks : Nat := 2048000 * ticksPerCell
def State.calPeriodEnd (s : State) (x : Nat) : Nat := x - (s.secondAt x).2 % calPeriodTicks + calPeriodTicks

/-- A sheet's deckle interior holds a cell: 64 cells from either end and from the blanket (R109). -/
def Plan.interior (p : Plan) (c : Nat) : Bool := decide (max p.first p.blanket + 64 ≤ c) && decide (c + 64 ≤ p.last)

/-- Where a sampling instant lies for the gathering: the launch of the sheet whose deckle interior holds it and the 64-cell window there; none outside every
interior, in a blanket, or in a sheet that is thermal or already known dark or cut (R109). Every instant of Q16 qualifies. -/
def State.gatherPlace (s : State) (q x : Nat) : Option (Nat × Nat) :=
  if q = 16 then some (0, 0)
  else
    let fl := (s.gridOf q).inFlight
    if fl.any (fun e => decide (e.tick ≤ x) && decide (x < e.tick + e.plan.blanket * ticksPerCell)) then none
    else (fl.find? (fun e => decide (e.kind ≠ .thermal) && !e.dark && !e.cut && decide (e.tick ≤ x) &&
      e.plan.interior ((x - e.tick) / ticksPerCell))).map (fun e => (e.tick, ((x - e.tick) / ticksPerCell - e.plan.first) / 64))

/-- A released lane word joins the cell of its instant. -/
def State.gatherWord (s : State) (q role x : Nat) (w : BitVec 16) : State :=
  match roleIn ((s.quadOf q).convsAt x) role, s.gatherPlace q x with
  | some j, some place =>
    let serving := (List.range 4).map (roleIn ((s.quadOf q).convsAt x))
    let put := fun (cells : List GathCell) =>
      match cells with
      | c :: rest =>
        if c.x = x then { c with words := c.words.set j w } :: rest
        else ⟨x, place.1, place.2, serving, (List.replicate 5 2#16).set j w⟩ :: cells
      | [] => [⟨x, place.1, place.2, serving, (List.replicate 5 2#16).set j w⟩]
    s.modCal q (fun k => { k with cells := put k.cells })
  | _, _ => s

/-- Partly gathered blocks are discarded (R111). -/
def State.dropBlocks (s : State) (q x : Nat) : State := s.modCal q (fun k => { k with cells := [], gathFrom := k.gathFrom.map (max x) })

/-- The launches that still matter to a quad's gathering, with a new one. -/
def CalQuad.shoot (k : CalQuad) (v : Shot) (span : Nat) : CalQuad :=
  let oldest := match k.cells.getLast? with | some c => c.launch | none => v.tick
  { k with shots := v :: k.shots.filter (fun e => decide (oldest ≤ e.tick + span)) }

/-- A sheet's point samples are all INVALID: its launch was inhibited, truncated or suppressed (R58, R61), or for a coded tone another of its
group (R53). `shots` are newest first. -/
def badSheet (shots : List Shot) (tick : Nat) : Bool :=
  match shots.find? (fun h => h.tick == tick) with
  | none => false
  | some h =>
    if !h.coded then h.bad
    else
      let mine := shots.filter (fun e => e.tone == h.tone)
      let older := mine.filter (fun e => decide (e.tick ≤ tick))
      let newer := (mine.filter (fun e => decide (tick < e.tick))).reverse
      (older.zipIdx.takeWhile (fun e => decide (e.1.code + e.2 = h.code))).any (fun e => e.1.bad) ||
        (newer.zipIdx.takeWhile (fun e => decide (e.1.code = h.code + 1 + e.2))).any (fun e => e.1.bad)

/-- The block that a converter has gathered, if it is whole. -/
def State.gatheredBlock (s : State) (q j : Nat) : Option (List GathCell) :=
  let k := s.calOf q
  blockOf q j (nth k.gathFrom j 0) (k.cells.filter (fun c => q == 16 || !badSheet k.shots c.launch))

/-- A block has been taken: its converter gathers again from the next period on (R111), and cells that none still gathers are forgotten. -/
def State.takeBlock (s : State) (q j : Nat) (b : List GathCell) : State :=
  let stop := s.calPeriodEnd ((b.getLast?.map GathCell.x).getD s.now)
  s.modCal q (fun k =>
    let from_ := k.gathFrom.set j stop
    { k with gathFrom := from_, cells := k.cells.filter (fun c => (List.range 5).any (fun i =>
      (nth (s.quadOf q).convs i default).input.isSome && decide (nth from_ i 0 ≤ c.x))) })

/-- The sub-converter that samples at an instant (R94). -/
def State.subAt (s : State) (x : Nat) : Nat := (s.secondAt x).2 / ticksPerCell % 4

/-! ### Precondition tests (R112 to R115) -/

/-- EV_CAL_PRECONDITION and its count (R115). -/
def State.calPrecondition (s : State) (q i j : Nat) (e : Nat × Int) : State :=
  (s.modCal q (fun k => { k with fails := upd k.fails (e.1 - 1) (satAdd · 1) })).raiseNow 0x0306 sevNotice (srcQuad q)
    (u8 i ++ u8 j ++ u8 e.1 ++ leBytesS 4 e.2) (some [])

/-! ### Coefficients and their limits (R108, R121, Table 4.5) -/

/-- Each estimate within its bound replaces the held value. -/
def within (lo hi : Int) (old est : Int) : Int := if lo ≤ est && est ≤ hi then est else old

def outOf (lo hi : Int) (l : List Int) : Bool := l.any (fun e => decide (e < lo) || decide (hi < e))

def mergeList (lo hi : Int) (old est : List Int) : List Int := (old.zip est).map (fun e => within lo hi e.1 e.2)

/-- A converter's set after an accepted block; its skew moves only against the converter it parallels (Table 4.1). -/
def mergeConv (v : ConvSet) (b : CalBlock) (skew : Bool) : ConvSet where
  o := mergeList (-4096) 4096 v.o b.offs
  g := mergeList 29492 36044 v.g b.gains
  tau := mergeList (-256) 256 v.tau b.taus
  tauK := if skew then within (-512) 512 v.tauK b.tauK else v.tauK

def convBeyond (b : CalBlock) (skew : Bool) : Bool :=
  outOf (-4096) 4096 b.offs || outOf 29492 36044 b.gains || outOf (-256) 256 b.taus || (skew && outOf (-512) 512 [b.tauK])

def mergePair (v : PairSet) (b : CalBlock) : PairSet where
  eps := within 26215 40960 v.eps b.pairEps
  theta := within (-1820) 1820 v.theta b.pairTheta
  delta := within (-1024) 1024 v.delta b.pairDelta

/-- The pair coefficients beyond their limits: number and estimate (Table 4.12). -/
def pairBeyond (b : CalBlock) : List (Nat × Int) :=
  (if outOf 26215 40960 [b.pairEps] then [(0, b.pairEps)] else []) ++
    (if outOf (-1820) 1820 [b.pairTheta] then [(1, b.pairTheta)] else []) ++
    (if outOf (-1024) 1024 [b.pairDelta] then [(2, b.pairDelta)] else [])

/-- R108: the skews of a quad's converters are referred to their mean; what rounding leaves goes to the converter updated. -/
def State.centreSkews (s : State) (q j g : Nat) : State :=
  let l := s.serviceable q
  let sum := l.foldl (fun n k => n + (s.convSet q k g).tauK) 0
  let m := rneDiv sum l.length
  let s1 := l.foldl (fun s k => let v := s.convSet q k g; s.setConv q k g { v with tauK := v.tauK - m }) s
  let v := s1.convSet q j g
  s1.setConv q j g { v with tauK := v.tauK - (sum - m * l.length) }

def SetMark.accept (m : SetMark) (now : Nat) (beyond : Bool) : SetMark :=
  { m with
    accepted := m.accepted + 1, unconverged := m.unconverged && decide (m.accepted + 1 < 64), stale := false,
    limit := beyond, updated := now }

/-- The pair an input belongs to. -/
def pairOf (i : Nat) : Nat := i / 2

/-! ### The rotation -/

/-- Switch a free converter onto an input; it is usable after 2 µs (Table 4.3). -/
def State.moveSpare (s : State) (q j i : Nat) (phase : Nat) : State :=
  (s.modConvRole q j ⟨none, false⟩).modCal q (fun k => { k with
    phase := phase, spare := some j, input := some i, movingUntil := some (s.now + 2 * ticksPerUs), nextInput := i, blocks := 0,
    passRun := 0, passed := false, dueAt := none, recheck := false })

/-- The spare stands apart (R131). -/
def State.parkSpare (s : State) (q j next : Nat) : State :=
  (s.modConvRole q j ⟨none, false⟩).modCal q (fun k => { k with
    phase := 0, spare := some j, input := none, movingUntil := none, nextInput := next, blocks := 0, passRun := 0, dueAt := none,
    recheck := false })

/-- The next rotation step, when rotation is set (R131). -/
def State.nextStep (s : State) (q j next : Nat) : State :=
  if (s.calCfg q).rotate then s.moveSpare q j next 0 else s.parkSpare q j next

/-- The erring serving converter's replacement begins (R123): the spare is switched onto its input. -/
def State.startEmergency (s : State) (q : Nat) : State :=
  match (s.calOf q).erring, (s.calOf q).spare with
  | some j, some k =>
    match (nth (s.quadOf q).convs j default).input with
    | some i => s.moveSpare q k i 5
    | none => s
  | _, _ => s

/-- A converter whose test is due is withdrawn (R123): the spare itself at once, a server when its replacement has taken over. -/
def State.converterWithdraw (s : State) (q j : Nat) : State :=
  let k := s.calOf q
  if k.spare = some j && k.phase ≠ 2 then
    ((s.beginTest kindConverter (5 * q + j)).modConvRole q j ⟨none, false⟩).modCal q (fun k => { k with
      phase := 0, spare := none, input := none, movingUntil := none, blocks := 0, passRun := 0, dueAt := none, recheck := false })
  else
    let s1 := s.modCal q (fun k => { k with erring := some j })
    if k.phase = 2 then s1 else s1.startEmergency q

/-- A converter error (R121, R122, R123). -/
def State.converterError (s : State) (q j : Nat) : State :=
  let u := 5 * q + j
  let s1 := s.detect kindConverter u
  if s.testDue kindConverter u || !s1.testDue kindConverter u then s1 else s1.converterWithdraw q j

/-- The spare's sets return to what they were at the start of the step and convergence restarts (R122); FREEZE holds them (R131). -/
def State.rejectStep (s : State) (q i j g : Nat) : State :=
  let k := s.calOf q
  let n := k.rejections + 1
  let s0 := if (s.calCfg q).freeze then s
    else (((List.range 6).foldl (fun s h => s.setConv q j h (nth k.startSets h ConvSet.neutral)) s).centreSkews q j g)
  let s1 := s0.modCal q (fun k => { k with
    blocks := 0, passRun := 0, passed := false, rejections := n, rejected := satAdd k.rejected 1 })
  let s2 := s1.raiseNow 0x0308 sevNotice (srcQuad q) (u8 i ++ u8 j ++ u8 (min n 2)) none
  if 2 ≤ n then (s2.modCal q (fun k => { k with rejections := 0 })).converterError q j else s2

/-- The handover test of R116 on a block of the spare: the words of spare and server at the same instants, CLIP-flagged ones left out, each corrected with
its own set at the gain step in force (R125), and the skew left between the two, within 2/256 cell (in 1/4096 cell). -/
def State.handoverTest (s : State) (q i j g : Nat) (blk : List GathCell) (b : CalBlock) : Bool :=
  match (s.quadOf q).roleConv i with
  | none => false
  | some o =>
    let both := blk.filter (fun c => c.offers o)
    let words := fun (v : Nat) => ((correctedWords (s.convSet q v g) v s.subAt both).zip both).filter (fun e => !e.2.clip j && !e.2.clip o)
    decide (0 < (words o).length) && differenceOk (s.calCfg q).handover ((words j).map Prod.fst) ((words o).map Prod.fst) &&
      decide ((b.tauK - (s.convSet q j g).tauK).natAbs ≤ 32)

/-- An accepted block of the spare in Converge (R116, R122): `pass` is the handover test's outcome on it. A handover deferred by a gain change (R81) is due
from this block on when it passes, and otherwise falls due anew (DEDUCED: R81 says only that it is checked again). -/
def State.convergeBlock (s : State) (q i j g : Nat) (pass : Bool) : State :=
  let k := s.calOf q
  let n := k.blocks + 1
  let ok := decide (64 ≤ n) && pass
  let run := if ok then k.passRun + 1 else 0
  let done := k.passed || decide (4 ≤ run)
  let s1 := s.modCal q (fun k => { k with blocks := n, passRun := run, passed := done })
  if k.recheck then s1.modCal q (fun k => { k with recheck := false, dueAt := if ok then some s.now else none })
  else if k.dueAt.isSome then s1
  else if 4 ≤ run && !(s.calCfg q).freeze then s1.modCal q (fun k => { k with dueAt := some s.now })
  else if 2048 ≤ n && !done then s1.rejectStep q i j g
  else s1

/-- An accepted block of the outgoing converter in Deep: the 256th ends the phase (Table 4.3). -/
def State.deepBlock (s : State) (q i j : Nat) : State :=
  let n := (s.calOf q).blocks + 1
  if 256 ≤ n then s.nextStep q j ((i + 1) % 4) else s.modCal q (fun k => { k with blocks := n })

/-- What an accepted block publishes (R126 to R128, R114): OFFSET_RES of its converter, the skew left when it stands in parallel, and from a serving
converter's block the pair's IRR and the lane's noise floor. Residuals are against the sets that corrected the block. -/
def State.publish (s : State) (q i j g : Nat) (serving : Bool) (blk : List GathCell) (m : CalMeas) (b : CalBlock) : State :=
  let v := s.convSet q j g
  let p := s.pairSet q (pairOf i) g
  let w := ((correctedWords v j s.subAt blk).zip blk).filter (fun e => !e.2.clip j)
  let s1 := { s with cal := { s.cal with
    offRes := s.cal.offRes.set (convIx q j g) (offsetResidual (w.map Prod.fst))
    skewRes := if serving then s.cal.skewRes else s.cal.skewRes.set (convIx q j g) (satS 16 (rneDiv (b.tauK - v.tauK) 16))
    irr := if serving then s.cal.irr.set (pairIx q (pairOf i) g) (imageRejection b.pairEps p.eps (b.pairTheta - p.theta)) else s.cal.irr } }
  if serving && q < 16 then s1.modCal q (fun k => { k with noise := k.noise.set i ((rneDiv (m.noise.num * 2 ^ 20) m.noise.den).toNat, g) }) else s1

/-- The coefficients of a converter are held: under FREEZE (R131), or while it serves although its test is due (R123). -/
def State.convHeld (s : State) (q j : Nat) (serving : Bool) : Bool :=
  (s.calCfg q).freeze || (serving && ((s.calOf q).erring == some j || s.testDue kindConverter (5 * q + j)))

/-- The estimates of an accepted block enter the sets that are not held (R108, R121, R123, R124, R131), and STALE clears with the update (R127). -/
def State.updateSets (s : State) (q i j g : Nat) (serving : Bool) (b : CalBlock) : State :=
  let skew := !serving
  let s1 := if s.convHeld q j serving then s
    else
      let t := s.setConv q j g (mergeConv (s.convSet q j g) b skew)
      let t := if (s.calOf q).phase = 4 then t else t.centreSkews q j g
      let t := t.modConvMark q j g (fun m => m.accept s.now (convBeyond b skew))
      if serving then t.modCal q (fun k => { k with stale := k.stale.set i false }) else t
  let s2 := if serving && !(s.calCfg q).freeze then
      (s1.setPair q (pairOf i) g (mergePair (s1.pairSet q (pairOf i) g) b)).modPairMark q (pairOf i) g
        (fun m => m.accept s.now (!(pairBeyond b).isEmpty))
    else s1
  let s3 := if serving then
    (pairBeyond b).foldl (fun s e => s.raiseNow 0x030A sevDegraded (srcQuad q) (u8 (pairOf i) ++ u8 e.1 ++ leBytesS 4 e.2) none) s2
    else s2
  if convBeyond b skew then s3.converterError q j else s3

/-- A block that passed its tests (R112): figures, coefficients, and the step's count. -/
def State.acceptBlock (s : State) (q i j : Nat) (serving : Bool) (blk : List GathCell) (m : CalMeas) (b : CalBlock) : State :=
  let g := (s.quadCfg q).gain
  let pass := s.handoverTest q i j g blk b
  let s2 := (s.publish q i j g serving blk m b).updateSets q i j g serving b
  if !serving && (s2.calOf q).spare = some j && !(s2.testDue kindConverter (5 * q + j)) then
    if (s2.calOf q).phase = 1 || (s2.calOf q).phase = 5 then s2.convergeBlock q i j g pass
    else if (s2.calOf q).phase = 3 then s2.deepBlock q i j
    else s2
  else s2

/-- The decimation of a quad's line, for its usable bands (R114). -/
def State.quadDecim (s : State) (q : Nat) : Nat := match s.plan? q with | some p => p.d | none => 1

/-- CAL_BLOCK_GATHERED (R111, R112): the block a converter has gathered is tested; a failing one holds everything (R115). `b` are the firmware's estimates
from it. While the block is not whole, only time passes. -/
def State.calBlock (s : State) (q j : Nat) (b : CalBlock) : State :=
  let conv := nth (s.quadOf q).convs j default
  match conv.input, s.gatheredBlock q j with
  | some i, some blk =>
    if !s.quadEnabled q || (q = 16 && 2 ≤ i) then s
    else
      let m := measure (s.quadDecim q) i j blk
      let s0 := s.takeBlock q j blk
      match calFails q m with
      | e :: _ => s0.calPrecondition q i j e
      | [] => s0.acceptBlock q i j (!conv.parallel) blk m b
  | _, _ => s

/-- A host command waits for the boundary `h` on a quad, and goes first there (R10): a gain change (R81), or a plan. -/
def State.hostFirst (s : State) (q h : Nat) : Bool :=
  (match s.pendOf 0x0301 q with
    | some p => decide (s.rxDue q p ≤ h) && rd p.data 1 1 != (s.quadCfg q).gain
    | none => false) ||
  (q < 16 && (match s.pendOf 0x0202 q with | some p => decide (s.planDue q p ≤ h) | none => false))

/-- HANDOVER (R117, R118, R120): the spare takes the role; the outgoing converter stays in parallel. -/
def State.handover (s : State) (q : Nat) : State :=
  let k := s.calOf q
  match k.dueAt, k.spare, k.input with
  | some d, some j, some i =>
    match s.handoverInstant q d with
    | some h =>
      if h ≤ s.now && !k.recheck && !s.hostFirst q h then
        match (s.quadOf q).roleConv i with
        | some old =>
          let s1 := s.setConvs q h (fun c => (c.set j ⟨some i, false⟩).set old ⟨some i, true⟩)
          let s2 := s1.modCal q (fun k => { k with
            phase := 2, spare := some old, server := j, dueAt := none, blocks := 0, passRun := 0, passed := false, rejections := 0, handAt := h
            handovers := satAdd k.handovers 1 })
          -- the unit that serves and the one that stands by exchange their states in the hamper
          let s3 := (s2.modHUnit kindConverter (5 * q + j) (fun u => if u.st = 1 then { u with st := 0 } else u)).modHUnit
            kindConverter (5 * q + old) (fun u => if u.st = 0 then { u with st := 1 } else u)
          s3.raise 0x0307 sevInfo (srcQuad q) (if q < 16 then s3.boundaryStamp q h else s3.secStamp h none false) h
            (u8 i ++ u8 j ++ u8 old) (some [])
        | none => s
      else s
    | none => s
  | _, _, _ => s

/-- Sheets launched before the handover are still being sampled (R118). -/
def State.overlapping (s : State) (q : Nat) : Bool :=
  (List.range 16).any (fun l => (q == 16 || l == q) &&
    (s.gridOf l).inFlight.any (fun e => decide (e.tick < (s.calOf q).handAt) && decide (s.now < e.tick + (e.plan.last + 1) * ticksPerCell)))

/-- OVERLAP_END (R118, R123): the outgoing converter leaves the sheet path, for Deep or, when it erred, for its test. -/
def State.overlapEnd (s : State) (q : Nat) : State :=
  let k := s.calOf q
  if k.phase ≠ 2 || s.overlapping q then s
  else match k.spare with
    | none => s
    | some j =>
      if k.erring = some j then
        ((s.modConvRole q j ⟨none, false⟩).beginTest kindConverter (5 * q + j)).modCal q (fun k => { k with
          phase := 0, spare := none, input := none, erring := none, blocks := 0 })
      else
        let s1 := s.modCal q (fun k => { k with phase := 3, blocks := 0 })
        if k.erring.isSome then s1.startEmergency q else s1

/-- ROTATION_MOVE_READY: the moved converter parallels its input and its step begins (Table 4.3). -/
def State.moveReady (s : State) (q : Nat) : State :=
  let k := s.calOf q
  match k.movingUntil, k.spare, k.input with
  | some x, some j, some i =>
    if s.now < x then s
    else
      (s.modConvRole q j ⟨some i, true⟩).modCal q (fun k => { k with
        phase := if k.phase = 5 then 5 else 1, movingUntil := none, blocks := 0, passRun := 0
        passed := false, gathFrom := k.gathFrom.set j s.now
        startSets := (List.range 6).map (fun g => s.convSet q j g) })
  | _, _, _ => s

/-- The tick from which AGE of an input counts: its serving converter's last accepted update. -/
def State.ageFrom (s : State) (q i : Nat) : Nat :=
  match (s.quadOf q).roleConv i with
  | some j => (s.convMark q j (s.quadCfg q).gain).updated
  | none => 0

/-- AGE of an input's figures in seconds. -/
def State.calAge (s : State) (q i : Nat) : Nat := (s.now - s.ageFrom q i) / ticksPerSecond

/-- CAL_STALE (R127): STALE is set; the event, once, on a quad in use (R75). -/
def State.calStale (s : State) (q i : Nat) : State :=
  if s.quadEnabled q && i < 4 && (s.calCfg q).staleS < s.calAge q i && !(nth (s.calOf q).stale i false) then
    let s1 := s.modCal q (fun k => { k with stale := k.stale.set i true })
    if s.quadUsed q then s1.raiseNow 0x0309 sevNotice (srcQuad q) (u8 i ++ u32 (satTo 4 (s.calAge q i))) none else s1
  else s

/-- Calibration in place (R128): four serviceable converters, none to spare. -/
def State.enterInPlace (s : State) (q : Nat) : State :=
  let n := (s.serviceable q).length
  let s1 := s.modCal q (fun k => { k with phase := 4, spare := none, input := none, movingUntil := none, dueAt := none, erring := none })
  if (s.calOf q).inPlaceRaised then s1
  else (s1.modCal q (fun k => { k with inPlaceRaised := true })).raiseNow 0x030B sevDegraded (srcQuad q) (u8 n) none

/-- With fewer than four serviceable converters the remaining ones serve inputs 0 to 3 in order (R129). -/
def State.assignInOrder (s : State) (q : Nat) : State :=
  let l := s.serviceable q
  s.setConvs q s.now (fun _ => (List.range 5).map (fun j =>
    if l.contains j then ⟨some (l.takeWhile (· != j)).length, false⟩ else ⟨none, false⟩))

/-- A converter is retired, permanent (0) or wearing (1) (R123, R128, R129). -/
def State.retireConverter (s : State) (u cause : Nat) : State :=
  let q := u / 5
  let s1 := s.modHUnit kindConverter u (fun x => { x with st := 3 })
  let s2 := s1.modConvRole q (u % 5) ⟨none, false⟩
  let n := (s2.serviceable q).length
  if n = 4 then s2.enterInPlace q
  else if n < 4 then ((s2.assignInOrder q).enterInPlace q).reportNoSpare kindConverter u cause
  else s2

/-- A converter that passed its test becomes the spare, and rotation resumes at the next input (R123). -/
def State.returnConverter (s : State) (u : Nat) : State :=
  let q := u / 5
  let s1 := s.modHUnit kindConverter u (fun x => { x with st := 1 })
  if (s1.calOf q).spare.isSome then s1 else s1.nextStep q (u % 5) (((s1.calOf q).nextInput + 1) % 4)

/-- The role map of a quad at release from reset (section 3.1, R130, R515): K0 to K3 on inputs 0 to 3, K4 the spare, a
retired converter's input served by K4. -/
def State.bootQuad (s : State) (q : Nat) : State :=
  let l := s.serviceable q
  let s1 := { s with quads := s.quads.set q { QuadRun.reset with
    convs := (List.range 5).map (fun j =>
      if !l.contains j then ⟨none, false⟩
      else if j < 4 then ⟨some j, false⟩
      else match (List.range 4).find? (fun i => !l.contains i) with
        | some i => ⟨some i, false⟩
        | none => ⟨none, false⟩) } }
  let s2 := s1.modCal q (fun _ => { CalQuad.reset with spare := if l.length = 5 then some 4 else none })
  if l.length = 5 then s2.nextStep q 4 0
  else if l.length = 4 then s2.enterInPlace q
  else (s2.assignInOrder q).enterInPlace q

/-! ### Commands -/

/-- ROTATE as it now stands: cleared, it abandons a step in Converge and the spare stands apart; set, a spare that stands apart begins a step (R131). -/
def State.heedRotate (s : State) (q : Nat) : State :=
  let k := s.calOf q
  match k.spare with
  | some j =>
    if !(s.calCfg q).rotate && (k.phase = 1 || (k.phase = 0 && k.movingUntil.isSome)) then s.parkSpare q j (k.input.getD k.nextInput)
    else if (s.calCfg q).rotate && k.phase = 0 && k.movingUntil.isNone then s.moveSpare q j k.nextInput 0
    else s
  | none => s

/-- `cal.config` (R131, Table 4.9). -/
def calConfig : Handler := fun c s =>
  let p := c.arg
  let m := rd p 0 4
  let cfg : CalCfg := ⟨bit (rd p 4 1) 0, bit (rd p 4 1) 1, rd p 5 1, rd p 6 2⟩
  if m = 0 || 2 ^ 17 ≤ m || (maskList 17 m).any (fun q => !s.quadEnabled q) || cfg.handover < 40 || 60 < cfg.handover || cfg.staleS < 10 ||
      3600 < cfg.staleS then reject s stBadArg
  else
    okay ((maskList 17 m).foldl (fun s q => (s.modCfg (fun r => { r with cal := r.cal.set q cfg })).heedRotate q) s)

def State.qflags (s : State) (q i : Nat) : Nat :=
  let g := (s.quadCfg q).gain
  let pm := s.pairMark q (pairOf i) g
  match (s.quadOf q).roleConv i with
  | some j =>
    let m := s.convMark q j g
    b2n m.unconverged + 2 * b2n (nth (s.calOf q).stale i false || m.stale) + 4 * b2n ((s.calOf q).phase == 4) + 8 * b2n (m.limit || pm.limit)
  | none => 4 * b2n ((s.calOf q).phase == 4)

/-- IRR, OFFSET_RES and SKEW_RES of an input (R126): those of its serving converter's and its pair's sets at the gain step in force. On Q16 the pair
of LM and AX has no set, and its IRR reads 0. -/
def State.calFigures (s : State) (q i : Nat) : Nat × Int × Int :=
  let g := (s.quadCfg q).gain
  let irr := if q = 16 && 2 ≤ i then 0 else nth s.cal.irr (pairIx q (pairOf i) g) 0
  match (s.quadOf q).roleConv i with
  | some j => (irr, nth s.cal.offRes (convIx q j g) 0, nth s.cal.skewRes (convIx q j g) 0)
  | none => (irr, 0, 0)

def State.calBody (s : State) (q : Nat) : List Byte :=
  let k := s.calOf q
  u8 k.phase ++ u8 (k.spare.getD 0xFF) ++ u8 (k.input.getD 0xFF) ++ u8 (s.quadCfg q).gain ++ u32 k.blocks ++ u32 k.handovers ++
    u32 k.rejected ++ (List.range 5).flatMap (fun t => u32 (nth k.fails t 0)) ++
    (List.range 4).flatMap (fun i =>
      let f := s.calFigures q i
      u8 f.1 ++ u8 (s.qflags q i) ++ leBytesS 2 f.2.1 ++ leBytesS 2 f.2.2 ++ u16 0 ++ u32 (satTo 4 (s.calAge q i)) ++ u32 0)

/-- `cal.status` (Table 4.10). -/
def calStatus : Handler := fun c s =>
  let q := rd c.arg 0 1
  if !s.quadEnabled q then reject s stBadArg
  else
    let s1 := if bit (rd c.arg 1 1) 0 then
      (s.modCal q (fun k => { k with handovers := 0, rejected := 0, fails := [0, 0, 0, 0, 0] })).clearSat 0x0306 q else s
    okWith s1 (s.calBody q)

def markFlags (m : SetMark) : Nat := b2n m.unconverged + 2 * b2n m.stale + 4 * b2n m.restored

/-- `cal.read` (Table 4.11). -/
def calRead : Handler := fun c s =>
  let q := rd c.arg 0 1
  let t := rd c.arg 1 1
  let g := rd c.arg 2 1
  if !s.quadEnabled q || 5 < g || !(t ≤ 4 || t = 8 || (t = 9 && q < 16)) then reject s stBadArg
  else if t ≤ 4 then
    let v := s.convSet q t g
    let m := s.convMark q t g
    okWith s (u16 (markFlags m) ++ u16 0 ++ v.o.flatMap (leBytesS 2) ++ v.g.flatMap (leBytesS 2) ++ v.tau.flatMap (leBytesS 2) ++
      leBytesS 2 v.tauK ++ u16 0 ++ u32 (satTo 4 ((s.now - m.updated) / ticksPerSecond)))
  else
    let v := s.pairSet q (t - 8) g
    let m := s.pairMark q (t - 8) g
    okWith s (u16 (markFlags m) ++ u16 0 ++ leBytesS 2 v.eps ++ zeros 6 ++ leBytesS 2 v.theta ++ zeros 6 ++ leBytesS 2 v.delta ++ zeros 6 ++
      u16 0 ++ u16 0 ++ u32 (satTo 4 ((s.now - m.updated) / ticksPerSecond)))

end Sys2Proof.Machine
end

