-- ==== Sys2Proof/Machine/LineStages.lean ====
section
/-! DEFINITION. One sheet through stages 1 to 7 on the state: which lane words and reference cells it takes, its footprint flags, its
compressed words, and each point's phase and quality (R134 to R152). -/

namespace Sys2Proof.Machine

def State.lineCfg (s : State) (l : Nat) : LineCfg := nth s.cfg.lines l LineCfg.factory

/-! ### The words of a window -/

/-- The released words of a converter from tick `lo` on, one per cell; a word never released reads NOT_READY. -/
def wordsFrom (hist : List (Nat × BitVec 16)) (lo n : Nat) : Array (BitVec 16) :=
  (hist.filter (fun e => decide (lo ≤ e.1) && decide (e.1 < lo + n * ticksPerCell))).foldl
    (fun (a : Array (BitVec 16)) e => a.setIfInBounds ((e.1 - lo) / ticksPerCell) e.2) (Array.replicate n 2#16)

/-- The lanes of a converter over `n` cells from tick `lo`: sub-converter by second-relative cell (R94), gain in force at each sampling
instant (R79). A converter that none is reads NOT_READY (R129). -/
def State.lanes (s : State) (q j lo n : Nat) : List Lane :=
  let own := wordsFrom (nth (s.quadOf q).words j []) lo n
  (List.range n).map (fun k =>
    let x := lo + k * ticksPerCell
    ⟨own.getD k 2#16, (s.secondAt x).2 / ticksPerCell % 4, s.gainAtInstant q x⟩)

/-- Stage 1 of one pair of a quad over a window, from the words of one converter for I and one for Q (R118, R136). -/
def State.pairWords (s : State) (q p lo n : Nat) (ji jq : Nat) : List (Int × Bool) × List (Int × Bool) × List Lane × List Lane :=
  let is := s.lanes q ji lo n
  let qs := s.lanes q jq lo n
  let r := stage1 is qs (s.convSet q ji) (s.convSet q jq) (s.pairSet q p)
  (r.1, r.2, is, qs)

/-! ### The reference paths (R118, R137, R139) -/

/-- How far the reference path runs behind the lane words, in cells: the interpolators look ahead. -/
def refLag : Nat := 8

/-- The path formed from two converters' words. -/
def State.refPath? (s : State) (ii iq : Nat) : Option RefPath := s.ref2.find? (fun r => r.ii == ii && r.iq == iq)

/-- The cells of that path, newest first. -/
def State.refHist (s : State) (ii iq : Nat) : List (Nat × RefCell) := ((s.refPath? ii iq).map RefPath.hist).getD []

/-- The converters from whose words a path is formed at an instant: those that serve II and IQ, and where a converter stands in parallel on one of them the
pair with it in place (R118). The serving pair is first. -/
def refPairs (m : List Conv) : List (Nat × Nat) :=
  match roleIn m 0, roleIn m 1 with
  | some ii, some iq =>
    (ii, iq) :: (match roleIn m 4 with
      | some j => match nth m j default with
        | ⟨some 0, true⟩ => [(j, iq)]
        | ⟨some 1, true⟩ => [(ii, j)]
        | _ => []
      | none => [])
  | _, _ => []

/-- One cell of a path: R137 on its stage-1 words; on a cell that is NOT_READY, Q16 asleep, nothing moves. -/
def RefPath.put (r : RefPath) (y : Nat) (i q : Int × Bool) (li lq : Lane) (delay : Nat) : RefPath :=
  let z : Cx := ⟨i.1, q.1⟩
  let asleep := li.notReady || lq.notReady
  let run := if asleep then r.run else r.run.step z delay
  let cell : RefCell := ⟨run.phi, !asleep && weakRef z, li.lead || lq.lead, asleep, li.clip || lq.clip, b2n i.2 + b2n q.2⟩
  { r with run := run, hist := (y, cell) :: r.hist.filter (fun e => decide (y < e.1 + quadKeep)) }

/-- A path takes its next cell, `refLag` cells before `x`. A pair that has no path yet goes on from the serving one's. -/
def State.refCell (s : State) (x : Nat) (p : Nat × Nat) (serving : Nat × Nat) : State :=
  let y := x - refLag * ticksPerCell
  let has := fun (j : Nat) => (nth (s.quadOf 16).words j []).any (fun e => e.1 == x)
  let old : RefPath := match s.refPath? p.1 p.2 with
    | some r => r
    | none => match s.refPath? serving.1 serving.2 with
      | some r => ⟨p.1, p.2, r.run, r.hist⟩
      | none => ⟨p.1, p.2, ⟨0, 0, 0, 0⟩, []⟩
  let new_ := match old.hist with | e :: _ => decide (e.1 < y) | [] => true
  if !has p.1 || !has p.2 || !new_ then s
  else
    let w := s.pairWords 16 0 (y - refLag * ticksPerCell) (2 * refLag + 1) p.1 p.2
    let r := old.put y (nth w.1 refLag (0, false)) (nth w.2.1 refLag (0, false)) (nth w.2.2.1 refLag ⟨2#16, 0, 0⟩) (nth w.2.2.2 refLag ⟨2#16, 0, 0⟩)
      s.cfg.refDelay
    { s with ref2 := r :: s.ref2.filter (fun e => !(e.ii == p.1 && e.iq == p.2) &&
      (match e.hist with | c :: _ => decide (y < c.1 + quadKeep) | [] => false)) }

/-- The reference paths take a cell once both of a pair's words are released. -/
def State.refStep (s : State) (x : Nat) : State :=
  if s.cfg.refDelay = 0 || x < 2 * refLag * ticksPerCell then s
  else
    let pairs := refPairs ((s.quadOf 16).convsAt x)
    pairs.foldl (fun s p => s.refCell x p (pairs.headD (0, 0))) s

/-- A reference cell that was never formed. -/
def RefCell.absent : RefCell := ⟨0, false, false, true, false, 0⟩

def refsFrom (hist : List (Nat × RefCell)) (lo n : Nat) : Array RefCell :=
  (hist.filter (fun e => decide (lo ≤ e.1) && decide (e.1 < lo + n * ticksPerCell))).foldl
    (fun (a : Array RefCell) e => a.setIfInBounds ((e.1 - lo) / ticksPerCell) e.2) (Array.replicate n RefCell.absent)

/-- The reference instant's shift from a lane word's: REF_OFFSET + d/2, in 1/256 cell (R137). -/
def State.refShift (s : State) (cfg : LineCfg) : Int := cfg.refOffset + ((s.cfg.refDelay / 2 : Nat) : Int)

/-! ### The front end of one sheet -/

/-- F and W of a launch (R135), in cells. -/
def Plan.halfFilter (p : Plan) : Nat := if p.d = 1 then 0 else 12 * p.d

def LaunchKind.toneOf : LaunchKind → Nat
  | .tone t => t
  | .spot t => t
  | .thermal => 0

def State.tailCells (s : State) (p : Plan) (t : Nat) : Nat :=
  if (p.tone t).cls = 0 then 0 else s.slotCells p.probe (p.tone t).slotA - 1

/-- Stage 2's output over a window with its first sheet cell, the cells' marks, the window's ticks, and the saturations of stages 1 and 2 that no earlier
sheet has counted. -/
structure Front where
  at_ : Int
  x : Array Cx
  y : Array Cx
  /-- cells whose words make a point sample INVALID, or CLIPPED -/
  bad : Array Bool
  clip : Array Bool
  weak : Nat
  window : Nat × Nat
  sats1 : Nat
  sats2 : Nat
  /-- the first stage of these two in which a word of the window saturated, 0 for none -/
  stage : Nat
deriving DecidableEq, Repr, Inhabited

/-- Cells before the window that the interpolators of stage 1 look back over. -/
def guardCells : Nat := 16

/-- Stages 1 to 3 of a sheet (R135 to R141), with the settings and the converters of its launch (R19, R118). A saturated word is counted once for the
line, in the first sheet that takes it (R134). -/
def State.frontEnd (s : State) (l : Nat) (e : Launch) : Front :=
  let p := e.plan
  let cfg := e.cfg
  let f := p.halfFilter
  let w := s.tailCells p e.kind.toneOf
  let lo := p.first - (p.gauge + f)
  let n := p.last + w + f + 1 - lo
  let start := e.tick + lo * ticksPerCell
  let base := start - guardCells * ticksPerCell
  let m := n + 2 * guardCells
  let px := s.pairWords l 0 base m (nth e.convs 0 0xFF) (nth e.convs 1 0xFF)
  let py := s.pairWords l 1 base m (nth e.convs 2 0xFF) (nth e.convs 3 0xFF)
  let cut := fun {α : Type} (a : List α) => (a.drop guardCells).take n
  let useX := cfg.pol != 2
  let useY := cfg.pol != 1
  let lanes := (if useX then [cut px.2.2.1, cut px.2.2.2] else []) ++ (if useY then [cut py.2.2.1, cut py.2.2.2] else [])
  let sats := (if useX then [cut px.1, cut px.2.1] else []) ++ (if useY then [cut py.1, cut py.2.1] else [])
  -- stage 2
  let shift := s.refShift cfg
  let frac := (shift % (ticksPerCell : Int)).toNat
  let refBase := (((start : Nat) : Int) + shift - (frac : Int)).toNat
  let refs := refsFrom (s.refHist (nth e.convs 4 0xFF) (nth e.convs 5 0xFF)) refBase (n + 1)
  let used := if frac = 0 then n else n + 1
  let refOf := fun (k : Nat) => refs.getD k RefCell.absent
  let xs := ((cut px.1).zip (cut px.2.1)).map (fun a => (⟨a.1.1, a.2.1⟩ : Cx))
  let ys := ((cut py.1).zip (cut py.2.1)).map (fun a => (⟨a.1.1, a.2.1⟩ : Cx))
  let turn := fun (v : List Cx) => v.zipIdx.map (fun a =>
    if cfg.pnc then rotate a.1 (interpPhi (refOf a.2).phi (refOf (a.2 + 1)).phi frac) else (a.1, false))
  let rx := if useX then turn xs else xs.map (fun v => (v, false))
  let ry := if useY then turn ys else ys.map (fun v => (v, false))
  let refAny := fun (one : RefCell → Bool) (k : Nat) => cfg.pnc && (one (refOf k) || (frac != 0 && one (refOf (k + 1))))
  let arrs := lanes.map List.toArray
  let bad := (List.range n).map (fun k =>
    arrs.any (fun a => let z := a.getD k ⟨2#16, 0, 0⟩; z.lead || z.notReady) || refAny (fun c => c.weak || c.lead || c.notReady) k ||
      decide (lo + k < p.blanket))
  let satArr := sats.map List.toArray
  let ra := rx.toArray
  let rb := ry.toArray
  let turned := fun (k : Nat) => [(ra.getD k (Cx.zero, false)).2, (rb.getD k (Cx.zero, false)).2]
  let clip := (List.range n).map (fun k =>
    arrs.any (fun a => (a.getD k ⟨2#16, 0, 0⟩).clip) || satArr.any (fun a => (a.getD k (0, false)).2) || (turned k).any id ||
      refAny (fun c => c.clip || decide (0 < c.sats)) k)
  let weak := if cfg.pnc then ((List.range used).filter (fun k => (refOf k).weak)).length else 0
  let fresh := fun (k : Nat) => !(s.lineOf l).counted.any (fun v => decide (v.1 ≤ start + k * ticksPerCell) && decide (start + k * ticksPerCell ≤ v.2))
  let s1 := fun (k : Nat) => (satArr.filter (fun a => (a.getD k (0, false)).2)).length
  let sr := fun (k : Nat) => if cfg.pnc && decide (k < used) then (refOf k).sats else 0
  let s2 := fun (k : Nat) => ((turned k).filter id).length
  let sum := fun (f : Nat → Nat) (n : Nat) => ((List.range n).map (fun k => if fresh k then f k else 0)).sum
  { at_ := (lo : Int), x := (rx.map Prod.fst).toArray, y := (ry.map Prod.fst).toArray, bad := bad.toArray, clip := clip.toArray
    weak := weak, window := (start, start + (n - 1) * ticksPerCell), sats1 := sum s1 n + sum sr (n + 1), sats2 := sum s2 n
    stage := if (List.range (n + 1)).any (fun k => decide (0 < s1 k + sr k)) then 1 else if (List.range n).any (fun k => decide (0 < s2 k)) then 2 else 0 }

/-- How many cells of an array lie in `[a, b]` sheet cells and are marked; a range that begins before the window's first possible cell
counts as marked. -/
def prefixCounts (a : Array Bool) : Array Nat :=
  a.foldl (fun (acc : Array Nat) b => acc.push (acc.getD (acc.size - 1) 0 + b2n b)) #[0]

def anyIn (counts : Array Nat) (at_ a b : Int) : Bool :=
  let lo := (a - at_).toNat
  let hi := min (b - at_ + 1).toNat (counts.size - 1)
  decide (counts.getD lo 0 < counts.getD hi 0)

/-! ### Stages 4 and 5 -/

/-- The words of one polarisation at `n` cells from `from_`, one every D (R142 to R145): stage 4's with the cells a compression looks ahead, and
stage 5's, each with its own saturation mark. -/
def compressAt (p : Plan) (channel : Nat) (ref : Option (List Cx)) (x : Array Cx) (at_ from_ : Int) (n : Nat) :
    List (Cx × Bool) × List (Cx × Bool) :=
  let extra := match ref with | some r => r.length - 1 | none => 0
  let z4 := (List.range (n + extra)).map (fun j => stage4 p.d channel x at_ (from_ + ((j * p.d : Nat) : Int)))
  match ref with
  | none => (z4, z4.map (fun v => (v.1, false)))
  | some r => (z4, (List.range n).map (fun j => stage5 ((z4.drop j).take r.length) r))

/-- Stage 5's words with the mark that they or a stage-4 word in them saturated (R134); `span` stage-4 words enter each. -/
def markedWords (span : Nat) (z : List (Cx × Bool) × List (Cx × Bool)) : List (Cx × Bool) :=
  z.2.zipIdx.map (fun e => (e.1.1, e.1.2 || ((z.1.drop e.2).take span).any Prod.snd))

/-- Saturated words of two sequences whose first words lie `gap` cells apart, `d` cells from word to word: a word of both is counted once. -/
def satCount (late early : List (Cx × Bool)) (gap d : Nat) : Nat :=
  (late.filter Prod.snd).length +
    (early.zipIdx.filter (fun e => e.1.2 && !(decide (gap ≤ e.2 * d) && (e.2 * d - gap) % d == 0 && decide ((e.2 * d - gap) / d < late.length)))).length

/-- The words of one sheet after stage 5: both polarisations at the later and the earlier operand cells, with marks, the stage-4
words' powers at the later cells for the tracker, and the saturated words of stages 4 and 5. -/
structure Compressed where
  late : List (List (Cx × Bool))
  early : List (List (Cx × Bool))
  power : List Nat
  sats4 : Nat
  sats5 : Nat
deriving DecidableEq, Repr, Inhabited

/-- The stored words of a slot. -/
def State.slotWords (s : State) (probe slot : Nat) : List Cx :=
  let v := s.slotOf probe slot
  (sgetL 0#32 (nth s.cfg.waves probe []) v.base v.length).map waveSample

/-- Stages 4 and 5 of a sheet at all its operand cells (R144, R145): the slot by coded position (R146). -/
def State.compress (s : State) (e : Launch) (fr : Front) : Compressed :=
  let p := e.plan
  let t := p.tone e.kind.toneOf
  let ref := if t.cls = 0 then none
    else some (refOf (s.slotWords p.probe (if t.cls = 2 && e.code % 2 = 1 then t.slotB else t.slotA)) p.d)
  let n := (p.last - p.first + 1) / p.d
  let pol := e.cfg.pol
  let run := fun (x : Array Cx) (from_ : Int) => compressAt p t.channel ref x fr.at_ from_ n
  let none_ : List (Cx × Bool) × List (Cx × Bool) := ([], [])
  let lx := if pol != 2 then run fr.x (p.first : Int) else none_
  let ly := if pol != 1 then run fr.y (p.first : Int) else none_
  let ex := if pol != 2 then run fr.x ((p.first : Int) - (p.gauge : Int)) else none_
  let ey := if pol != 1 then run fr.y ((p.first : Int) - (p.gauge : Int)) else none_
  let pw := (List.range n).map (fun k => (nth lx.1 k (Cx.zero, false)).1.norm2 + (nth ly.1 k (Cx.zero, false)).1.norm2)
  let span := match ref with | some r => r.length | none => 1
  let mark := markedWords span
  { late := [mark lx, mark ly], early := [mark ex, mark ey], power := pw
    sats4 := satCount lx.1 ex.1 p.gauge p.d + satCount ly.1 ey.1 p.gauge p.d
    sats5 := satCount lx.2 ex.2 p.gauge p.d + satCount ly.2 ey.2 p.gauge p.d }

/-! ### Stages 6 and 7 -/

/-- The phasor of point `i` (R149, R151): `late` and `early` hold each polarisation's words. -/
def pointPhasor (late early : List (Array Cx)) (m i : Nat) : Cx :=
  (late.zip early).foldl (fun v e =>
    (List.range m).foldl (fun v k => v.add ((e.1.getD (i * m + k) Cx.zero).mulConj (e.2.getD (i * m + k) Cx.zero))) v) Cx.zero

/-- Phase and quality of every point (R151, R152). The phase of a zero phasor is a free value. -/
def pointsOf (free : Nat) (p : Plan) (late early : List (List Cx)) : List (Int × Nat) :=
  let la := late.map List.toArray
  let ea := early.map List.toArray
  let m := p.pitch / p.d
  (List.range p.points).map (fun i =>
    let v := pointPhasor la ea m i
    (if v = Cx.zero then wrapS 20 (Config.phaseOfZero free i) else argTurn20 v, quality v m))

/-- The points whose footprint is marked (R150): `F`, `W` of the launch. -/
def footprints (p : Plan) (f w : Nat) (at_ : Int) (marks : Array Bool) (before : Bool) : List Bool :=
  let counts := prefixCounts marks
  (List.range p.points).map (fun i =>
    let c : Int := ((p.first + i * p.pitch : Nat) : Int)
    let a := c - (p.gauge : Int) - (f : Int)
    let b := c + ((p.pitch + f + w : Nat) : Int) - (p.d : Int)
    (before && decide (a < 0)) || anyIn counts at_ (max a at_) b)

/-- Points one of whose stage-4 or stage-5 words saturated (R134). -/
def satPoints (p : Plan) (z : List (List (Cx × Bool))) : List Bool :=
  let m := p.pitch / p.d
  let arrs := z.map List.toArray
  (List.range p.points).map (fun i => arrs.any (fun a => (List.range m).any (fun k => (a.getD (i * m + k) (Cx.zero, false)).2)))

end Sys2Proof.Machine
end

