-- ==== Sys2Proof/Machine/FeltMap.lean ====
section
/-! DEFINITION. What lies where in DRAM: the felt pool, its shares and the slot geometry (R175 to R180), the device's own regions, the address
map (R392, R393) and the state of its blocks. -/

namespace Sys2Proof.Machine

def State.feltOf (s : State) (l : Nat) : FeltRing := nth s.felt l FeltRing.reset
def State.slowOf (s : State) (l : Nat) : SlowRun := nth s.slow l SlowRun.reset
def State.feltCfg (s : State) (l : Nat) : FeltCfg := nth s.cfg.felt l ⟨64, false⟩
def State.slowCfg (s : State) (l : Nat) : SlowCfg := nth s.cfg.slow l SlowCfg.factory
def State.modFelt (s : State) (l : Nat) (f : FeltRing → FeltRing) : State := { s with felt := upd s.felt l f }
def State.modSlow (s : State) (l : Nat) (f : SlowRun → SlowRun) : State := { s with slow := upd s.slow l f }

/-! ### The pool (R175 to R177) -/

/-- Bytes S of a state record (R198). -/
def SlowCfg.stateBytes (c : SlowCfg) : Nat :=
  ceilDiv (8 + 8 * c.k + c.bands.length * (4 * c.sec + 3)) 4 * 4 * 4

/-- Usable capacity U in MiB (R175) under a channel mask; three channels hold three quarters of it (R410). -/
def State.usableUnder (s : State) (mask : Nat) : Nat :=
  if mask % 16 = 15 then s.build.installedMib * 8 / 9 else s.build.installedMib * 3 / 4 * 8 / 9

def State.usableMib (s : State) : Nat := s.usableUnder s.memMask

def State.enabledLines (s : State) : List Nat := (List.range 16).filter s.lineEnabled

/-- STATE summed over the enabled lines, in MiB. -/
def State.stateMib (s : State) (slow : List SlowCfg) : Nat :=
  (s.enabledLines.map (fun l => (nth slow l SlowCfg.factory).stateBytes / 2)).sum

/-- Felt pages NP for given slow-time settings and capture region (R175). -/
def State.feltPages (s : State) (slow : List SlowCfg) (capMib : Nat) : Nat :=
  (s.usableMib - 1024 - capMib - s.stateMib slow) / 2

/-- Every enabled line's share is at least 136 pages (R177), with given usable capacity and capture region. -/
def State.sharesOf (s : State) (felt : List FeltCfg) (slow : List SlowCfg) (usable capMib : Nat) : Bool :=
  let pages := (usable - 1024 - capMib - s.stateMib slow) / 2
  s.enabledLines.all (fun l => decide (136 ≤ pages * (nth felt l ⟨64, false⟩).parts / 1024))

/-- The same with the capacity and the capture region in force, and with those that the next restore takes (R175, R410). -/
def State.sharesOk (s : State) (felt : List FeltCfg) (slow : List SlowCfg) : Bool :=
  s.sharesOf felt slow s.usableMib s.capMibNow && s.sharesOf felt slow (s.usableUnder s.cfg.mem.mask) s.cfg.capMib

/-- A line's share in pages (R176). -/
def State.sharePages (s : State) (l : Nat) : Nat := s.feltPages s.cfg.slow s.capMibNow * (s.feltCfg l).parts / 1024

/-! ### Geometry (R146, R180) -/

def blockBytes (half : Bool) : Nat := if half then 1056 else 2048

def strideOf (points : Nat) (half : Bool) : Nat := ceilDiv (1024 + ceilDiv points 16 * blockBytes half) 4096 * 4096

/-- The coded tones of a plan with their decimated cells of the processing window (R146), for each tone's tail. -/
def Plan.codedCells (p : Plan) (tail : Nat → Nat) : List (Nat × Nat) :=
  let f := p.halfFilter
  (p.tones.zipIdx.filter (fun e => e.1.cls == 2)).map (fun e => (e.2, ceilDiv (p.last + tail e.2 + f + 1 - (p.first - (p.gauge + f))) p.d))

/-- The decode region of a plan (R146, R179): 16 bytes for each of those cells. -/
def State.decodeBytes (s : State) (p : Plan) : Nat :=
  ceilDiv ((p.codedCells (s.tailCells p)).map (fun e => 16 * e.2)).sum 4096 * 4096

/-- NS of a share (R180). -/
def slotsOf (pages decode stride : Nat) : Nat := if stride = 0 then 0 else (pages * 2097152 - decode) / stride

def State.slotsNow (s : State) (l points decode : Nat) : Nat :=
  slotsOf (s.sharePages l) decode (strideOf points (s.feltCfg l).half)

/-! ### Where the device's own regions stand in DRAM (R175, R179, R198) -/

def mib : Nat := 1048576

/-- The trigger state (R247): 64 MiB in the middle of the device region. -/
def trigRegionBase : Nat := 512 * mib

/-! ### Where the regions stand -/

/-- STATE base of a line; of line 16, the end of the state records. -/
def State.stateBase (s : State) (l : Nat) : Nat :=
  (1024 + s.capMibNow + ((s.enabledLines.filter (fun k => decide (k < l))).map (fun k => (s.slowCfg k).stateBytes / 2)).sum) * mib

/-- The share of a line; of line 16, the first page in no share. -/
def State.shareBase (s : State) (l : Nat) : Nat :=
  s.stateBase 16 + ((s.enabledLines.filter (fun k => decide (k < l))).map s.sharePages).sum * 2 * mib

/-- The base of the slot of a quire: after the decode region, at a multiple of the stride (R179, R180). -/
def State.slotAddr (s : State) (l q : Nat) : Nat :=
  let f := s.feltOf l
  s.shareBase l + f.decode + q % max 1 f.ns * strideOf f.points (s.feltCfg l).half

def State.modMem (s : State) (f : MemRun → MemRun) : State := { s with mem := f s.mem }
def State.chanOf (s : State) (c : Nat) : ChanRun := nth s.mem.chans c default
def State.modChan (s : State) (c : Nat) (f : ChanRun → ChanRun) : State := s.modMem (fun m => { m with chans := upd m.chans c f })

/-! ### The address map (R392, R393) -/

/-- Channels in use, in ascending order. -/
def State.channels (s : State) : List Nat := maskList 4 s.memMask

/-- The usable capacity in bytes (R175, R410). -/
def State.usableBytes (s : State) : Nat := s.usableMib * 1048576

/-- Channel and channel offset of a device address (R392). -/
def State.channelOf (s : State) (a : Nat) : Nat × Nat :=
  let nc := s.channels.length
  let g := a / 4096
  (nth s.channels (g % nc) 0, g / nc * 4096 + a % 4096)

/-- The device address of a channel offset, its inverse. -/
def State.deviceAddr (s : State) (ch off : Nat) : Nat :=
  let nc := s.channels.length
  let k := (s.channels.findIdx? (· == ch)).getD 0
  (off / 4096 * nc + k) * 4096 + off % 4096

/-- Rows of a bank: the capacity of a channel over its ranks, sixteen banks and two sub-channels of 2 KiB pages. -/
def State.rowsPerBank (s : State) : Nat := s.build.installedMib / 4 * 1048576 / max 1 s.build.memRanks / 65536

/-- DRAM coordinates of a channel offset (R392): the row and the column. -/
def State.coordinates (s : State) (ch off : Nat) : RowAt × Nat :=
  (⟨ch, off / 65536 / s.rowsPerBank, off / 64 % 2, off / 4096 % 16, off / 65536 % s.rowsPerBank⟩, off / 128 % 32)

/-- The channel offset of column `k` of a row. -/
def State.rowOffset (s : State) (r : RowAt) (k : Nat) : Nat :=
  (r.rank * s.rowsPerBank + r.row) * 65536 + r.bank * 4096 + k * 128 + r.sub * 64

/-- The channel offset of the check bytes of the block at a channel offset (R393). -/
def State.checkOffset (s : State) (off : Nat) : Nat := s.usableBytes / s.channels.length + off / 64 * 8

def jobRegionBase : Nat := 768 * 1048576
def jobRegionEnd : Nat := 1024 * 1048576
def capRegionBase : Nat := 1024 * 1048576

def State.blockSt (s : State) (b : Nat) : Nat := sget 0 s.mem.blocks b
def State.setBlock (s : State) (b v : Nat) : State := s.modMem (fun m => { m with blocks := sset 0 m.blocks b v })

/-- The channel of a block is lost or excluded: its reads are poisoned, its writes discarded (R409). -/
def State.blockLost (s : State) (b : Nat) : Bool := (s.chanOf (s.channelOf (b * 64)).1).st == 3

/-- Something in DRAM is unsound or out of reach. -/
def State.memHurt (s : State) : Bool := !s.mem.blocks.isEmpty || s.mem.chans.any (fun c => c.st == 3)

/-- A block cannot be given back: it is unsound, or its channel is lost. -/
def State.blockBad (s : State) (b : Nat) : Bool := s.memHurt && (s.blockLost b || s.blockSt b != 0)

/-- A request reaches a channel, which it brings out of self-refresh, and its wait is counted (R408). -/
def State.wakeChannel (s : State) (c : Nat) : State :=
  let wakes := (s.chanOf c).st = 1 && s.pwr.st != 2
  s.modChan c (fun x => { x with
    st := if wakes then 0 else x.st, srWaits := if wakes then satAdd x.srWaits 1 else x.srWaits, lastReq := s.now
    srAfter := if s.cfg.mem.idleSr then some s.cfg.mem.idleSrUs else none })

/-- Requests reach the channels of an address range. -/
def State.touchDram (s : State) (a n : Nat) : State :=
  ((List.range (min ((a % 4096 + n + 4095) / 4096) s.channels.length)).map (fun k => (s.channelOf (a / 4096 * 4096 + 4096 * k)).1)).foldl
    State.wakeChannel s

/-- The blocks of DRAM that hold the sample of point `i` in the row of an FSN: its word, or its half-word and its row's side byte. -/
def State.sampleBlocks (s : State) (l fsn i : Nat) : List Nat :=
  let a := s.slotAddr l (fsn / 32) + 1024
  let j := fsn % 32
  if (s.feltCfg l).half then
    let b := a + 1056 * (i / 16)
    [(b + j) / 64, (b + 32 + 32 * j + 2 * (i % 16)) / 64]
  else [(a + 2048 * (i / 16) + 64 * j) / 64]

/-- The whole blocks that the writer has gathered with the row of an FSN (R398): a block of point samples for each group of 16 points, in the 16-bit
format one for two rows, and a block for two sheet records. -/
def State.writtenBlocks (s : State) (l fsn points : Nat) : List Nat :=
  let pair := fsn % 2 == 1
  (if pair then [(s.slotAddr l (fsn / 32) + fsn % 32 * 32) / 64] else []) ++
    (if pair || !(s.feltCfg l).half then (List.range (ceilDiv points 16)).filterMap (fun g => (s.sampleBlocks l fsn (16 * g)).getLast?) else [])

/-- Writes to a lost channel are discarded and counted (R409). -/
def State.lostWrite (s : State) (bs : List Nat) : State :=
  if s.mem.chans.any (fun c => c.st == 3) then
    bs.foldl (fun s b => if s.blockLost b then s.modChan (s.channelOf (b * 64)).1 (fun x => { x with lostWrites := satAdd x.lostWrites 1 }) else s) s
  else s

/-- Unsound blocks wholly inside a range are overwritten (R397). -/
def State.overwriteBlocks (s : State) (lo hi : Nat) : State :=
  s.modMem (fun m => { m with blocks := m.blocks.filter (fun e => decide (64 * e.1 < lo) || decide (hi < 64 * e.1 + 64)) })

/-! ### The decode region (R146, R396) -/

/-- The device address of the decode region of a coded tone. -/
def State.decodeBase (s : State) (l : Nat) (p : Plan) (t : Nat) : Nat :=
  s.shareBase l + 16 * (((p.codedCells (s.tailCells p)).filter (fun e => decide (e.1 < t))).map Prod.snd).sum

/-- The first launch of a coded group writes the tone's partial sums anew. -/
def State.decodeFresh (s : State) (l : Nat) (e : Launch) : State :=
  if !s.memHurt || e.code ≠ 0 then s
  else
    let a := s.decodeBase l e.plan e.kind.toneOf
    let n := ((e.plan.codedCells (s.tailCells e.plan)).filter (fun x => x.1 == e.kind.toneOf)).map Prod.snd
    s.overwriteBlocks a (a + 16 * n.sum)

/-- The points of a decoded sheet that cover a block of the decode region which DRAM cannot give back (Table 13.4). -/
def State.decodeLost (s : State) (l : Nat) (e : Launch) : List Bool :=
  let p := e.plan
  let a := s.decodeBase l p e.kind.toneOf
  let n := p.pitch / p.d
  let hurt := fun (first : Nat) => (List.range n).any (fun k => s.blockBad ((a + 16 * (first + k)) / 64))
  (List.range p.points).map (fun i => s.memHurt && (hurt ((p.gauge + p.halfFilter) / p.d + i * n) || hurt (p.halfFilter / p.d + i * n)))

end Sys2Proof.Machine
end

