-- ==== Sys2Proof/Machine/Line.lean ====
section
/-! DEFINITION. The line engines (R133, R153 to R174): stage 8, the sheet record, the fibre-end tracker, starting and stopping, the spare
engine, and the commands of group 0x04. -/

namespace Sys2Proof.Machine

/-! ### Stage 8 (R153 to R155) -/

/-- One output of stage 8 (Table 5.4). -/
structure Sample where
  dphi : Int
  q : Nat
  settling : Bool
  invalid : Bool
  clipped : Bool
  splice : Bool
deriving DecidableEq, Repr, Inhabited

def Sample.word (v : Sample) : BitVec 32 :=
  BitVec.ofNat 32 (ux 20 v.dphi * 4096 + v.q % 256 * 16 + 8 * b2n v.settling + 4 * b2n v.invalid + 2 * b2n v.clipped + b2n v.splice)

/-- How many point-producing sheets ago an entry was written, modulo 4 096. -/
def PtEntry.age (e : PtEntry) (seq : Nat) : Nat := (seq + 4096 - e.seq % 4096) % 4096

/-- The entries with INIT, newest first. -/
def liveByAge (es : List PtEntry) (seq : Nat) : List PtEntry :=
  (es.filter PtEntry.init).mergeSort (fun a b => decide (a.age seq ≤ b.age seq))

/-- Stage 8 of one point (R153): the entries of its tones, the tone, the line's count, the sample. -/
def stage8 (cfg : LineCfg) (es : List PtEntry) (t seq : Nat) (invalid clipped : Bool) (phi : Int) (q : Nat) :
    List PtEntry × Sample :=
  let settling := es.any PtEntry.fresh
  let e := nth es t PtEntry.restarted
  if invalid then (es.set t { e with init := false }, ⟨0, 0, settling, true, clipped, false⟩)
  else
    match liveByAge es seq with
    | [] =>
      let all := es.map (fun u => { u with fresh := true, faded := false, run := 0 })
      (all.set t { e with fresh := false, faded := false, run := 0, a := wrapS 20 (phi - e.o), init := true, seq := seq },
        ⟨0, q, true, false, clipped, false⟩)
    | n1 :: rest =>
      let a1 := n1.a
      let d1 := match rest with | n2 :: _ => wrapS 20 (a1 - n2.a) | [] => 0
      let r : PtEntry × Int × Bool :=
        if e.fresh then ({ e with o := wrapS 20 (phi - a1) }, 0, false)
        else if !e.init || (e.faded && decide (cfg.qMin ≤ q) && decide (cfg.recover ≤ e.run + 1)) then
          ({ e with o := wrapS 20 (phi - a1 - d1), faded := false, run := 0 }, d1, true)
        else
          let dphi := wrapS 20 (phi - e.o - a1)
          if q < cfg.qMin then ({ e with faded := true, run := 0 }, dphi, false)
          else if e.faded then ({ e with run := e.run + 1 }, dphi, false)
          else if t ≠ 0 then ({ e with o := wrapS 20 (e.o + rneDiv (wrapS 20 (dphi - d1)) (2 ^ (cfg.offsetTc + 1))) }, dphi, false)
          else (e, dphi, false)
      let v := r.1
      (es.set t { v with a := wrapS 20 (phi - v.o), init := true, fresh := false, seq := seq }, ⟨r.2.1, q, settling, false, clipped, r.2.2⟩)

/-- The entries of a point of `n` tones in the sparse cell memory (R161). -/
def pointEntries (m : List (Nat × PtEntry)) (n i : Nat) : List PtEntry := sgetL PtEntry.restarted m (i * n) n

/-- The 64-bit form of an entry (Table 5.7). -/
def PtEntry.word (e : PtEntry) : Nat :=
  ux 20 e.o * 2 ^ 44 + ux 20 e.a * 2 ^ 24 + e.seq % 4096 * 2 ^ 12 + b2n e.init * 2 ^ 11 + b2n e.fresh * 2 ^ 10 + b2n e.faded * 2 ^ 9 +
    e.run % 16 * 2 ^ 5

/-- Stage 8 over all points of a sheet, in increasing point order. -/
def stage8All (cfg : LineCfg) (tones t seq : Nat) (bad : List Nat) :
    List (Nat × PtEntry) → List (Nat × (Int × Nat) × Bool × Bool) → List (Nat × PtEntry) × List Sample
  | m, [] => (m, [])
  | m, (i, v, inv, clip) :: rest =>
    let hurt := bad.contains i
    let es := if hurt then List.replicate tones PtEntry.restarted else pointEntries m tones i
    let r := stage8 cfg es t seq (inv || hurt) clip v.1 v.2
    let m1 := ssetL PtEntry.restarted m (i * tones) (if hurt then es else r.1)
    let w := stage8All cfg tones t seq bad m1 rest
    (w.1, r.2 :: w.2)

/-! ### The fibre-end tracker (R163 to R165) -/

/-- The integer `k`-th root, by bisection below a bound. -/
def kroot (k : Nat) : Nat → Nat → Nat → Nat → Nat
  | 0, lo, _, _ => lo
  | n + 1, lo, hi, v =>
    let m := (lo + hi + 1) / 2
    if m ^ k ≤ v then kroot k n m hi v else kroot k n lo (m - 1) v

/-- 10^(dB/10) times 2^64. -/
def dbRatio (db : Nat) : Nat := kroot 10 80 0 (2 ^ 78) (10 ^ db * 2 ^ 640)

/-- Window powers of the stage-4 words (R163): sum and number of words of each 64-cell window. -/
def windowPowers (n64 : Nat) : Nat → List Nat → List (Nat × Nat)
  | 0, _ => []
  | k + 1, l => match l with
    | [] => []
    | _ => ((l.take n64).sum, (l.take n64).length) :: windowPowers n64 k (l.drop n64)

/-- The apparent end E in 1/256 cell (R163); `th` is the threshold times 2^64. -/
def apparentEnd (p : Plan) (powers : List Nat) (th : Nat) : Nat :=
  let w := windowPowers (64 / p.d) (powers.length + 1) powers
  let reaches := fun (e : Nat × Nat) => decide (th * e.2 ≤ e.1 * 2 ^ 64)
  let last := (w.zipIdx.filter (fun e => reaches e.1)).getLast?
  match last with
  | none => p.first * 256
  | some (a, k) =>
    if k + 1 = w.length then (p.last + 1) * 256
    else
      let b := nth w (k + 1) (0, 1)
      let num : Int := ((a.1 * b.2 * 2 ^ 64 : Nat) : Int) - ((th * a.2 * b.2 : Nat) : Int)
      let den : Nat := (a.1 * b.2 - b.1 * a.2) * 2 ^ 64
      (((p.first + 64 * k + 32) * 256 : Nat) + rneDiv (num * 16384) den).toNat

/-- The outcome of one tracked sheet. -/
inductive EndMove where
  | still
  | pending
  | acquired (e : Nat)
  | moved (old e firstIndex : Nat)
deriving DecidableEq, Repr, Inhabited

def agree (a b tol : Nat) : Bool := decide (a ≤ b + tol) && decide (b ≤ a + tol)

/-- R164: two consecutive sheets acquire or confirm; a deviation not confirmed is discarded. -/
def LineRun.track (r : LineRun) (tolCells e index : Nat) : LineRun × EndMove :=
  let tol := tolCells * 256
  match r.eRef with
  | none =>
    match r.lastE with
    | some (e0, _) => if agree e0 e tol then ({ r with eRef := some e, lastE := none, deviating := false }, .acquired e)
        else ({ r with lastE := some (e, index) }, .still)
    | none => ({ r with lastE := some (e, index) }, .still)
  | some x =>
    if agree x e tol then ({ r with lastE := none, deviating := false }, .still)
    else match r.lastE with
      | some (e0, i0) =>
        if agree e0 e tol && decide (x < e0) == decide (x < e) then
          ({ r with eRef := some e, lastE := none, deviating := false }, .moved x e i0)
        else ({ r with lastE := some (e, index), deviating := true }, .pending)
      | none => ({ r with lastE := some (e, index), deviating := true }, .pending)

/-! ### One finished sheet -/

/-- What a finished sheet hands on: its launch, tone, sheet record and samples; none of the last two for a launch that produces no
point samples. Stage 5 and stage 7 are the taps (section 5.9), with the marks of each point's footprint. -/
structure SheetOut where
  launch : Launch
  tone : Nat
  record : List Byte
  samples : List Sample
  produced : Bool
  stage5 : List (Cx × Cx)
  stage7 : List (Int × Nat)
  invalid : List Bool
  clipped : List Bool
deriving DecidableEq, Repr, Inhabited

/-- The stamp of a launch's sheet with CELL and FRACTION zero (Table 5.5); a spot shot has the second-relative form (R24). -/
def State.sheetStamp (s : State) (l : Nat) (e : Launch) : BitVec 96 :=
  match e.kind with
  | .spot _ => s.secStamp e.tick (some l) false
  | _ => sheetStampOf e.second e.index 0 0 l (s.flagsAt e.tick)

/-- One event of a sheet, stamped with its launch, coalescing by code and line where `join` is set (R174). -/
def State.sheetEvent (s : State) (l : Nat) (e : Launch) (code sev : Nat) (args : List Byte) (join : Bool) : State :=
  s.raise code sev (srcLine l) (s.sheetStamp l e) e.tick args (if join then some [] else none)

/-- Bookkeeping of the front end that holds for every sheet: weak references, saturations, clipped words, late wakes (R93, R97, R134,
R139). A sheet in which a word saturated raises the event, also where an earlier sheet has counted the word. -/
def State.frontEvents (s : State) (l : Nat) (e : Launch) (fr : Front) (sat4 sat5 : Nat) : State :=
  let s1 := if fr.weak = 0 then s
    else (s.modLine l (fun r => { r with refWeak := satAdd r.refWeak fr.weak })).sheetEvent l e 0x0405 sevNotice (u32 (satTo 4 fr.weak)) true
  let stage := if 0 < fr.stage then fr.stage else if 0 < sat4 then 4 else if 0 < sat5 then 5 else 0
  let s2 := s1.modLine l (fun r => { r with
    saturations := satAdd r.saturations (fr.sats1 + fr.sats2 + sat4 + sat5)
    counted := fr.window :: r.counted.filter (fun v => decide (fr.window.1 < v.2 + quadKeep)) })
  let s3 := if stage = 0 then s2 else s2.sheetEvent l e 0x0408 sevNotice (u8 stage) true
  s3.closeSheet l e (s.cellsNotReady l e)

/-- The noise floor of a line's lanes at a sheet's channel (R163), raised by END_DB: the four inputs' latest floors (R114) brought from codes of their
gain step to 1/64 LSB0 and from 500 MHz to 500/D MHz, times 2^64. -/
def State.endThreshold (s : State) (l : Nat) (e : Launch) : Nat :=
  let sum := ((nth s.cal.quads l default).noise.map (fun n => n.1 * (64 * (nominalGain n.2).toNat) ^ 2)).sum
  sum * dbRatio e.cfg.endDb / (1000000 * 2 ^ 20 * e.plan.d)

/-- The tracker on a point-producing sheet that is not DARK, with its events (R164, R165). -/
def State.trackEnd (s : State) (l : Nat) (e : Launch) (powers : List Nat) : State × EndMove :=
  let en := apparentEnd e.plan powers (s.endThreshold l e)
  let r := (s.lineOf l).track e.cfg.endTol en e.index
  let s1 := s.modLine l (fun _ => r.1)
  let inst := e.tick + en
  let stamp := sheetStampOf e.second e.index (en / 256) (en % 256) l (s.flagsAt inst + 4)
  let p := e.plan
  let beyond := fun (i x : Nat) => decide (x < (p.first + i * p.pitch + p.pitch - 1) * 256)
  match r.2 with
  | .acquired _ => (s1.raise 0x0403 sevInfo (srcLine l) stamp inst (u8 0 ++ u32 0xFFFFFFFF) none, r.2)
  | .moved old new_ first =>
    if new_ < old then
      let lost := ((List.range p.points).filter (fun i => beyond i new_ && !beyond i old)).length
      (s1.raise 0x0404 sevFault (srcLine l) stamp inst (u32 old ++ u32 first ++ u32 lost) none, r.2)
    else (s1.raise 0x0403 sevInfo (srcLine l) stamp inst (u8 1 ++ u32 old) none, r.2)
  | _ => (s1, r.2)

/-- The sheet record (Table 5.5). -/
def sheetRecord (stamp : BitVec 96) (tone engine flags : Nat) (v : List Sample) (eRef : Option Nat) : List Byte :=
  stampBytes stamp ++ u8 tone ++ u8 engine ++ u16 flags ++ u32 v.length ++ u32 (v.filter Sample.invalid).length ++
    u32 (v.filter Sample.clipped).length ++ u32 (eRef.getD 0xFFFFFFFF)

/-- A point-producing sheet through the tracker and stage 8, its record and counters (R153, R157, R158, R162). `words` are each point's
phase and quality, `inv` and `clip` its footprint's flags. -/
def State.produce (s : State) (l : Nat) (e : Launch) (words : List (Int × Nat)) (inv clip : List Bool) (powers : List Nat)
    (dark failed gainStep spared : Bool) (weak : Nat) (bad : List (Nat × Nat)) : State × List Byte × List Sample :=
  let p := e.plan
  let t := e.kind.toneOf
  let tr := if dark then (s, EndMove.still) else s.trackEnd l e powers
  let s1 := tr.1
  let r := s1.lineOf l
  let hurt := bad.filter (fun b => decide (b.1 < p.points) && decide (b.2 < p.tones.length))
  let beyond := fun (i : Nat) => match r.eRef with
    | some x => decide (x < (p.first + i * p.pitch + p.pitch - 1) * 256)
    | none => false
  let items := (words.zip (inv.zip clip)).zipIdx.map (fun w =>
    (w.2, w.1.1, w.1.2.1 || dark || failed || beyond w.2, w.1.2.2))
  let out := stage8All e.cfg p.tones.length t (r.seq % 4096) (hurt.map Prod.fst) r.points items
  let v := out.2
  let invalid := (v.filter Sample.invalid).length
  let s2 := s1.modLine l (fun r => { r with
    points := out.1, seq := (r.seq + 1) % 4096, sheets := satAdd r.sheets 1, invalidSamples := satAdd r.invalidSamples invalid
    clippedSamples := satAdd r.clippedSamples (v.filter Sample.clipped).length
    splices := satAdd r.splices (v.filter Sample.splice).length, stateErrors := satAdd r.stateErrors hurt.length })
  -- one event a sheet (R174), with the first error's arguments; each error is counted and is a detected error of the engine
  let s3 := match hurt with
    | b :: _ => hurt.foldl (fun s _ => s.detect kindLine e.engine) (s2.sheetEvent l e 0x0407 sevNotice (u32 b.1 ++ u8 b.2) true)
    | [] => s2
  let flags := b2n gainStep + 2 * b2n spared + 4 * b2n dark + 8 * b2n failed + 16 * b2n (decide (0 < weak)) +
    32 * b2n (match tr.2 with | .acquired _ => true | .moved _ _ _ => true | _ => false) + 64 * b2n (decide (tr.2 = .pending)) +
    128 * b2n (!e.cfg.pnc) + 256 * b2n (v.any Sample.settling)
  (s3, sheetRecord (s3.sheetStamp l e) t e.engine flags v (s3.lineOf l).eRef, v)

/-- The engine's words are those of a failed engine, or of a faulty one before the substitution (R168, R170). -/
def State.engineFailed (s : State) (l : Nat) (e : Launch) : Bool :=
  (s.lineOf l).engine == 0xFF || (match (s.lineOf l).unreliableBefore with | some h => decide (e.tick < h) | none => false)

/-- A launch of a coded tone joins its group; the position-3 launch answers the finished one (R146, R147). -/
def joinGroup (groups : List Group) (e : Launch) (sums : List (List Cx)) (inv clip : List Bool) (failed : Bool) (weak : Nat) :
    List Group × Option Group :=
  let t := e.kind.toneOf
  let others := groups.filter (fun g => g.tone != t)
  let zipOr := fun (a b : List Bool) => (a.zip b).map (fun e => e.1 || e.2)
  let neg := decide (2 ≤ e.code)
  if e.code = 0 then
    (⟨t, 1, sums, inv, clip, e.dark || e.cut, failed, e.gainStep, e.spared, weak⟩ :: others, none)
  else match groups.find? (fun g => g.tone == t && g.next == e.code) with
    | none => (others, none)
    | some g =>
      let g1 : Group := { g with
        next := g.next + 1
        sums := (g.sums.zip sums).map (fun a => (a.1.zip a.2).map (fun b => if neg then b.1.sub b.2 else b.1.add b.2))
        invalid := zipOr g.invalid inv, clipped := zipOr g.clipped clip, dark := g.dark || e.dark || e.cut, failed := g.failed || failed
        gainStep := g.gainStep || e.gainStep, spared := g.spared || e.spared, weak := g.weak + weak }
      if e.code = 3 then (others, some g1) else (g1 :: others, none)

/-- The sheet of a launch is complete: stages 1 to 7, its group if coded, and stage 8 unless it is a spot shot (R159, R160). -/
def State.finishSheet (s : State) (l : Nat) (e : Launch) (bad : List (Nat × Nat)) : State × SheetOut :=
  let p := e.plan
  let t := e.kind.toneOf
  let spot := match e.kind with | .spot _ => true | _ => false
  let fr := s.frontEnd l e
  let cp := s.compress e fr
  let w := s.tailCells p t
  let f := p.halfFilter
  let inv := footprints p f w fr.at_ fr.bad true
  let clip0 := footprints p f w fr.at_ fr.clip false
  let sat := satPoints p (cp.late ++ cp.early)
  let clip := (clip0.zip sat).map (fun a => a.1 || a.2)
  let failed := s.engineFailed l e
  let late := cp.late.map (List.map Prod.fst)
  let early := cp.early.map (List.map Prod.fst)
  let s0 := s.frontEvents l e fr cp.sats4 cp.sats5
  let s1 := { s0 with free := s0.free + 1 }
  let s2 := if e.restart then s1.modLine l (fun r => { r with points := [], groups := [] }) else s1
  let taps5 := (List.range (max (nth late 0 []).length (nth late 1 []).length)).map (fun k => (nth (nth late 0 []) k Cx.zero, nth (nth late 1 []) k Cx.zero))
  if spot || (p.tone t).cls ≠ 2 then
    let words := pointsOf s.free p late early
    -- the samples of a dark or cut spot, or of a failed engine's, are INVALID as a sheet's are (R69, R157, R170)
    if spot then (s2, ⟨e, t, [], [], false, taps5, words, inv.map (fun v => v || e.dark || e.cut || failed), clip⟩)
    else
      let r := s2.produce l e words inv clip cp.power (e.dark || e.cut) failed e.gainStep e.spared fr.weak bad
      (r.1, ⟨e, t, r.2.1, r.2.2, true, taps5, words, inv, clip⟩)
  else
    let j := joinGroup (s2.lineOf l).groups e (late ++ early) inv clip failed fr.weak
    let s3 := (s2.decodeFresh l e).modLine l (fun r => { r with groups := j.1 })
    match j.2 with
    | none => (s3, ⟨e, t, [], [], false, taps5, [], [], []⟩)
    | some g =>
      let dec := g.sums.map (List.map decodeWord)
      let words := pointsOf s.free p (dec.take 2) (dec.drop 2)
      let invalid := (g.invalid.zip (s2.decodeLost l e)).map (fun v => v.1 || v.2)
      let r := s3.produce l e words invalid g.clipped cp.power g.dark g.failed g.gainStep g.spared g.weak bad
      (r.1, ⟨e, t, r.2.1, r.2.2, true, taps5, words, invalid, g.clipped⟩)

/-- When the last lane word and the last reference word of a launch's sheet have been released (R83, R135). -/
def State.sheetReady (s : State) (e : Launch) : Nat :=
  let p := e.plan
  let stop := e.tick + (p.last + s.tailCells p e.kind.toneOf + p.halfFilter) * ticksPerCell
  let ahead := if e.cfg.pnc then (s.refShift e.cfg).toNat + (refLag + 1) * ticksPerCell else 0
  stop + ahead + 768 * ticksPerCell

/-- The launch in flight that a completed sheet names, when its sheet is next to complete: sheets leave in sheet-index order
(R153, R159). -/
def State.completing (s : State) (l tick : Nat) : Option Launch :=
  let fl := (s.gridOf l).inFlight.filter (fun e => match e.kind with | .thermal => false | _ => true)
  match fl.find? (fun e => e.tick == tick) with
  | none => none
  | some e =>
    let spot := match e.kind with | .spot _ => true | _ => false
    if s.now < s.sheetReady e then none
    else if !spot && fl.any (fun x => decide (x.tick < e.tick) && (match x.kind with | .spot _ => false | _ => true)) then none
    else some e

/-- A launch leaves the engine. -/
def State.dropLaunch (s : State) (l tick : Nat) : State :=
  s.modGrid l (fun g => { g with inFlight := g.inFlight.filter (fun e => e.tick != tick || decide (e.kind = .thermal)) })

/-! ### Starting and stopping (R166, R167, R173) -/

/-- A start, stop or plan apply is pending on a line. -/
def State.lineBusy (s : State) (l : Nat) : Bool :=
  (s.pendOf 0x0402 l).isSome || (s.pendOf 0x0403 l).isSome || s.applyPending l

/-- A unit the line's running needs lacks a spare (R514): its engine, so that ENGINE reads 0xFF (R173), or a converter of its quad. -/
def State.lineLacksSpare (s : State) (l : Nat) : Bool :=
  (s.lineOf l).engine == 0xFF || (List.range 5).any (fun j => s.lacksSpare kindConverter (5 * l + j))

/-- `line.start` (R166, R173). -/
def lineStart : Handler := fun c s =>
  let m := rd c.arg 0 2
  let lines := maskList 16 m
  if m = 0 || !s.maskEnabled m || rd c.arg 2 1 ≠ 0 then reject s stBadArg
  else if lines.any s.lineBusy then reject s stBusy
  else if lines.any (fun l => (s.plan? l).isNone || (s.lineOf l).st != 0) || s.cfg.refDelay = 0 then reject s stWrongState
  else if lines.any s.lineLacksSpare then reject s stNoSpare
  else if s.noDram then reject s stHwFault
  else
    let s1 := lines.foldl (fun s l =>
      let from_ := max ((c.at_ s).getD s.now) (s.gridOf l).awakeAt
      let t := s.modLine l (fun r => { r with st := 1, from_ := from_ })
      match t.nextDeckle l from_ with | some d => t.wakeFor l d | none => t) s
    pendWith s1 c 0x0402 lines none

/-- `line.stop` (R167, R173). -/
def lineStop : Handler := fun c s =>
  let m := rd c.arg 0 2
  let lines := maskList 16 m
  if m = 0 || !s.maskEnabled m || 1 < rd c.arg 2 1 then reject s stBadArg
  else if lines.any s.lineBusy then reject s stBusy
  else if lines.any (fun l => (s.lineOf l).st != 2) then reject s stWrongState
  else pendWith (lines.foldl (fun s l => s.modLine l (fun r => { r with st := 3 })) s) c 0x0403 lines none

/-- The instant of a pending start: the first grid launch at or after apply-at or acceptance (R166) for which the line's engine is powered (R496). -/
def State.startInstant (s : State) (l : Nat) (p : Pend) : Option Nat :=
  (s.plan? l).bind (fun pl => (s.nextGrid l pl (max (p.applyAt.getD p.accepted) (s.gridOf l).awakeAt)).map Prod.fst)

/-- A line starts at a launch instant with a line restart (R155, R164, R166). -/
def State.beginLine (s : State) (l x : Nat) : State :=
  let s1 := s.modLine l (fun r => { r with
    st := 2, restartNext := true, eRef := none, lastE := none, deviating := false, groups := [], stop := none })
  match s1.plan? l with
  | some p =>
    s1.raise 0x0401 sevInfo (srcLine l) (sheetStampOf (s1.secondAt x).1 (s1.sheetIndex l p x) 0 0 l (s1.flagsAt x)) x
      (u8 (s1.lineOf l).engine) none
  | none => s1

/-- LINE_STARTED. -/
def State.lineStarted (s : State) (l : Nat) : State :=
  match s.pendOf 0x0402 l with
  | none => s
  | some p =>
    match s.startInstant l p with
    | some x => if x ≤ s.now then (s.beginLine l x).strikeLast p l (s.effStamp x (some l)) x else s
    | none => s

/-- The launches in flight of one coded tone, oldest first, run through the group sequence from the position expected next: the position-3 launches of the groups
that are whole, and how many launches belong to groups left incomplete (R167). -/
def codedWalk : Nat → List Launch → List Launch × Nat
  | next, [] => ([], next)
  | next, e :: rest =>
    if e.code = next && (0 < next || e.code = 0) then
      if e.code = 3 then let r := codedWalk 0 rest; (e :: r.1, r.2) else codedWalk (next + 1) rest
    else if e.code = 0 then let r := codedWalk 1 rest; (r.1, r.2 + next)
    else let r := codedWalk 0 rest; (r.1, r.2 + next)

/-- The launches in flight of one tone, oldest first. -/
def State.toneInFlight (s : State) (l t : Nat) : List Launch :=
  ((s.gridOf l).inFlight.mergeSort (fun a b => decide (a.tick ≤ b.tick))).filter (fun x => decide (x.kind = .tone t))

/-- What a stop meets in the engine: the launches whose stamps the sheets in flight carry, in order, and the launches of coded groups left
incomplete (R167). -/
def State.stopWalk (s : State) (l : Nat) : List Launch × Nat :=
  match s.plan? l with
  | none => ([], 0)
  | some p =>
    let each := p.tones.zipIdx.map (fun e =>
      let mine := s.toneInFlight l e.2
      if e.1.cls = 2 then codedWalk ((((s.lineOf l).groups.find? (fun g => g.tone == e.2)).map Group.next).getD 0) mine else (mine, 0))
    ((each.flatMap Prod.fst).mergeSort (fun a b => decide (a.tick ≤ b.tick)), (each.map Prod.snd).sum)

/-- Sheets and launches that a stop discards: in immediate form every sheet in flight, in either form the launches of incomplete groups
(R167). -/
def State.stopDiscards (s : State) (l : Nat) (immediate : Bool) : Nat :=
  let w := s.stopWalk l
  (if immediate then w.1.length else 0) + w.2

/-- Drop the sheets in flight of a line (R167); the quad reports what it counted in each (R93, R97). -/
def State.dropSheets (s : State) (l : Nat) : State :=
  let tone := fun (e : Launch) => match e.kind with | .tone _ => true | _ => false
  ((s.gridOf l).inFlight.filter tone).foldl (fun s e => s.closeSheet l e (s.cellsNotReady l e))
    (s.modGrid l (fun g => { g with inFlight := g.inFlight.filter (fun e => !tone e) }))

/-- LINE_STOP_BOUNDARY on the engine: S is fixed, and in immediate form the sheets in flight are discarded (R167). -/
def State.stopBoundary (s : State) (l : Nat) : State :=
  match s.pendOf 0x0403 l, s.stopInstant l with
  | some p, some x =>
    if x ≤ s.now then
      let imm := rd p.data 2 1 == 1
      let n := s.stopDiscards l imm
      let s1 := s.modLine l (fun r => { r with
        stop := some ⟨imm, x, n⟩, discarded := satAdd r.discarded n, groups := if imm then [] else r.groups })
      let s2 := if imm then s1.dropSheets l else s1
      s2.strikeLast p l (s2.effStamp x (some l)) x
    else s
  | _, _ => s

/-- Nothing of a stopping line is left in the engine. -/
def State.engineDrained (s : State) (l : Nat) : Bool :=
  (s.lineOf l).stop.isSome && !(s.gridOf l).inFlight.any (fun e => match e.kind with | .tone _ => true | _ => false)

/-- The line is stopped: EV_LINE_STOPPED (R167). -/
def State.endLine (s : State) (l : Nat) : State :=
  match (s.lineOf l).stop with
  | none => s
  | some r =>
    (s.modLine l (fun q => { q with st := 0, stop := none, groups := [] })).raiseLine 0x0402 sevInfo l s.now
      (u8 (b2n r.immediate) ++ u32 (satTo 4 r.discarded)) none

/-! ### The spare engine (R168 to R170) -/

def readLineCfg (p : List Byte) : LineCfg :=
  ⟨bit (rd p 1 1) 0, rd p 2 1, rd p 3 1, rdS p 4 4, rd p 8 1, rd p 9 1, rd p 10 1, rd p 12 2⟩

/-- A change of PNC, POL or REF_OFFSET restarts the line (R172). -/
def LineCfg.restarts (a b : LineCfg) : Bool := a.pnc != b.pnc || a.pol != b.pol || a.refOffset != b.refOffset

/-- The effective instant of a pending `line.config` (R172). -/
def State.lineCfgDue (s : State) (l : Nat) (p : Pend) : Nat :=
  let from_ := p.applyAt.getD p.accepted
  match s.running l, s.plan? l with
  | true, some pl =>
    if (s.lineCfg l).restarts (readLineCfg p.data) then s.nextShot l pl 8 from_ else ((s.nextGrid l pl from_).map Prod.fst).getD from_
  | _, _ => from_

/-- A stop, an apply or a `line.config` of the line is due by an instant: it goes before what the device does of itself there (R10). -/
def State.hostDue (s : State) (l x : Nat) : Bool :=
  (match s.pendOf 0x0403 l, s.stopInstant l with | some _, some y => decide (y ≤ x) | _, _ => false) ||
    (match s.pendOf 0x0202 l with | some p => decide (s.planDue l p ≤ x) | none => false) ||
    (match s.pendOf 0x0401 l with | some p => decide (s.lineCfgDue l p ≤ x) | none => false)

/-- A substitution of the line's engine may act now: at a sheet boundary before the stop's, or at once on a line that does not run; a host command that is
due goes first (R10, R168). -/
def State.maySubstitute (s : State) (l : Nat) : Bool :=
  s.lineEnabled l && !s.hostDue l s.now &&
    (!s.running l || (s.isSheetBoundary l s.now && (match s.stopInstant l with | some x => decide (s.now < x) | none => true)))

/-- LINE_SPARED: LE16 takes a line whose engine is due for test, wearing or retired, at a sheet boundary, or at once on a line that does
not run. -/
def State.lineSpared (s : State) (l : Nat) (unreliable : Bool) : State :=
  let e := (s.lineOf l).engine
  let u := s.hUnit kindLine (if e = 0xFF then l else e)
  if (e ≠ l && e ≠ 0xFF) || !(u.wantsSpare || (e = l && u.st == 3)) || (s.hUnit kindLine 16).st ≠ 1 || !s.maySubstitute l ||
      (s.pwr.st = 1 && s.now < u.moveSince + 20 * ticksPerUs) then s
  else
    let s1 := s.modLine l (fun r => { r with
      engine := 16, restartNext := true, sparedNext := true, unreliableBefore := if unreliable then some s.now else none })
    let s3 := s1.spareTakes kindLine l 16
    s3.raise 0x0406 sevNotice (srcLine l) (s3.boundaryStamp l s3.now) s3.now (u8 e ++ u8 16 ++ u8 (if u.st = 4 then 1 else 0)) none

/-- LINE_UNSPARED: after a passed test the line returns to its own engine at the next sheet boundary (R169). -/
def State.lineUnspared (s : State) (l : Nat) : State :=
  if !(s.lineOf l).returnDue || !s.maySubstitute l then s
  else
    let s1 := s.modLine l (fun r => { r with
      engine := l, restartNext := true, sparedNext := true, unreliableBefore := none, returnDue := false })
    let s2 := ((s1.modHUnit kindLine 16 (fun v => { v with st := 1 })).modHUnit kindLine l (fun v => { v with st := 0 })).testIfDue kindLine 16
    s2.raise 0x0406 sevNotice (srcLine l) (s2.boundaryStamp l s2.now) s2.now (u8 16 ++ u8 l ++ u8 2) none

/-! ### Settings and status -/

def lineCfgOk (g : LineCfg) : Bool :=
  decide (g.pol ≤ 2) && decide (-262144 ≤ g.refOffset) && decide (g.refOffset ≤ 262143) && decide (4 ≤ g.offsetTc) &&
    decide (g.offsetTc ≤ 16) && decide (1 ≤ g.recover) && decide (g.recover ≤ 15) && decide (3 ≤ g.endDb) && decide (g.endDb ≤ 30) &&
    decide (1 ≤ g.endTol) && decide (g.endTol ≤ 4096)

/-- `line.config` (R172). -/
def lineConfig : Handler := fun c s =>
  let l := rd c.arg 0 1
  if s.badLine l || !lineCfgOk (readLineCfg c.arg) then reject s stBadArg
  else if (s.pendOf 0x0401 l).isSome then reject s stBusy
  else pendWith s c 0x0401 [l] none

/-- The settings change (R172); answers whether a line restart follows. -/
def State.lineCfgEffect (s : State) (l : Nat) : State × Bool :=
  match s.pendOf 0x0401 l with
  | none => (s, false)
  | some p =>
    let x := s.lineCfgDue l p
    if s.now < x then (s, false)
    else
      let new_ := readLineCfg p.data
      let again := s.running l && (s.lineCfg l).restarts new_
      let s1 := (s.modCfg (fun r => { r with lines := r.lines.set l new_ })).strike 0x0401 l
      let s2 := if again then s1.modLine l (fun r => { r with restartNext := true }) else s1
      (s2.applied p srcDevice (s2.effStamp x (some l)) x stOk, again)

/-- The compression shift of a tone (R145). -/
def State.shiftOf (s : State) (p : Plan) (t : Nat) : Nat :=
  if p.tones.length ≤ t || (p.tone t).cls = 0 then 0 else ceilLog2 (compLength (s.slotCells p.probe (p.tone t).slotA) p.d)

def State.lineBody (s : State) (l : Nat) : List Byte :=
  let r := s.lineOf l
  let endState := match r.eRef with | none => 0 | some _ => if r.deviating then 2 else 1
  u8 r.st ++ u8 r.engine ++ u8 endState ++ u8 0 ++ u32 (r.eRef.getD 0xFFFFFFFF) ++
    (List.range 8).flatMap (fun t => u8 (match s.plan? l with | some p => s.shiftOf p t | none => 0)) ++ u32 r.sheets ++
    u32 r.invalidSamples ++ u32 r.clippedSamples ++ u32 r.splices ++ u32 r.refWeak ++ u32 r.stateErrors ++ u32 r.discarded ++
    u32 r.saturations

/-- `line.status` (Table 5.14). -/
def lineStatus : Handler := fun c s =>
  let l := rd c.arg 0 1
  if s.badLine l then reject s stBadArg
  else
    let s1 := if bit (rd c.arg 1 1) 0 then
      (s.modLine l (fun r => { r with
        sheets := 0, invalidSamples := 0, clippedSamples := 0, splices := 0, refWeak := 0, stateErrors := 0, discarded := 0
        saturations := 0 })).clearSat 0x0404 l
      else s
    okWith s1 (s.lineBody l)

/-- `line.read_state` (Table 5.15). -/
def lineReadState : Handler := fun c s =>
  let l := rd c.arg 0 1
  let n := rd c.arg 2 2
  let first := rd c.arg 4 4
  if s.badLine l then reject s stBadArg
  else match s.plan? l with
    | none => reject s (if n < 1 || 500 < n then stBadArg else stWrongState)
    | some p =>
      let t := p.tones.length
      if n * t < 1 || 500 < n * t || p.points < first + n then reject s stBadArg
      else okWith s ((List.range n).flatMap (fun k => (pointEntries (s.lineOf l).points t (first + k)).flatMap (fun e => u64 e.word)))

end Sys2Proof.Machine
end

