-- ==== Sys2Proof/Machine/Felt.lean ====
section
/-! DEFINITION. The felt (R178 to R186, R201 to R203): packing, the writer, readers and holds, and the commands `felt.resize`, `felt.reader` and `felt.status`. -/

namespace Sys2Proof.Machine

/-! ### Packing (R182, R183) -/

def wordDphi (w : BitVec 32) : Int := sx 20 (field w.toNat 12 20)
def wordQ (w : BitVec 32) : Nat := field w.toNat 4 8
def wordFlags (w : BitVec 32) : Nat := field w.toNat 0 4
def wordInvalid (w : BitVec 32) : Bool := bit w.toNat 2

/-- The row exponent e (R182). -/
def rowExponent (l : List (BitVec 32)) : Nat :=
  ((List.range 9).find? (fun e => l.all (fun w =>
    wordInvalid w || (let m := rneDiv (wordDphi w) (2 ^ e); decide (-2048 ≤ m) && decide (m ≤ 2047))))).getD 8

/-- The side byte and half-words of one row of a block (Tables 6.2, 6.3). -/
def packRow (l : List (BitVec 32)) : Nat × List Nat :=
  let e := rowExponent l
  let good := l.filter (fun w => !wordInvalid w)
  let qr := match good with | [] => 0 | w :: r => (r.foldl (fun m v => min m (wordQ v)) (wordQ w)) / 16
  (e * 16 + qr, l.map (fun w =>
    (if wordInvalid w then 0 else ux 12 (clampI (-2048) 2047 (rneDiv (wordDphi w) (2 ^ e)))) * 16 + wordFlags w))

/-- Expand a half-word (R183). -/
def expandHalf (side h : Nat) : BitVec 32 :=
  if bit h 2 then BitVec.ofNat 32 (h % 16)
  else BitVec.ofNat 32 (ux 20 (sx 12 (h / 16) * (2 ^ (side / 16) : Nat)) * 4096 + 16 * (side % 16) * 16 + h % 16)

/-- What a consumer reads of a row of a block written in the 16-bit format. -/
def throughHalf (l : List (BitVec 32)) : List (BitVec 32) := let p := packRow l; p.2.map (expandHalf p.1)

/-- A list in pieces of `n`. -/
def chunks {α : Type} (n : Nat) : Nat → List α → List (List α)
  | 0, _ => []
  | k + 1, l => match l with | [] => [] | _ => l.take n :: chunks n k (l.drop n)

/-- Points 16b to 16b + 15 of a row; a short last block is filled with INVALID words (R181). -/
def blockWords (l : List (BitVec 32)) (b : Nat) : List (BitVec 32) := ((l.drop (16 * b)).take 16 ++ List.replicate 16 4#32).take 16

/-- A row as its consumers read it, in the line's format (R183). -/
def asRead (half : Bool) (l : List (BitVec 32)) : List (BitVec 32) :=
  if half then ((chunks 16 (l.length + 1) l).flatMap (fun b => (throughHalf (blockWords b 0)).take b.length)) else l

def FeltRow.words (r : FeltRow) : List (BitVec 32) := asRead r.half r.samples

/-! ### Readers and the writer (R178, R179, R185) -/

/-- Move a reader that lies below the oldest FSN (R185, R202): EV_READER_CLIPPED, and its stream loses the sheets skipped (R440). -/
def State.clipReader (s : State) (l r oldest cause skipped : Nat) : State :=
  let s1 := s.modFelt l (fun f => { f with readers := f.readers.set r (some oldest), clips := satAdd f.clips 1 })
  let s2 := s1.raiseLine 0x0501 sevNotice l s1.now (u8 r ++ u8 cause ++ u32 (satTo 4 skipped)) none
  (List.range 256).foldl (fun s k => match nth s.cfg.streams k none with
    | some d => if d.source = 1 && d.line = l && d.reader = r then s.streamLose k (fun i => decide (i.ident < oldest)) (some skipped) else s
    | none => s) s2

/-- Every open reader below `oldest` is clipped; holds below it break (R185, R202). -/
def State.overtake (s : State) (l oldest cause : Nat) : State :=
  let s1 := (List.range 16).foldl (fun s r =>
    match nth (s.feltOf l).readers r none with
    | some x => if x < oldest then s.clipReader l r oldest cause (oldest - x) else s
    | none => s) s
  s1.modFelt l (fun f =>
    let n := (f.holds.filter (fun h => !h.broken && decide (h.lo < oldest))).length
    { f with
      oldest := max f.oldest oldest
      rows := f.rows.filter (fun r => decide (oldest ≤ r.fsn))
      holds := f.holds.map (fun h => if h.lo < oldest then { h with broken := true } else h)
      holdsBroken := satAdd f.holdsBroken n })

/-- Ready jobs no longer wanted are dropped. -/
def State.dropJobs (s : State) (f : JobKind → Bool) : State :=
  { s with tiles := { s.tiles with ready := s.tiles.ready.filter (fun j => !f j.kind) } }

/-- The slow-time settings that a quire of a line is processed under (R207). -/
def State.slowCfgFor (s : State) (l q : Nat) : SlowCfg :=
  match (s.slowOf l).old.find? (fun e => decide (q < e.1)) with
  | some e => e.2
  | none => s.slowCfg l

/-- Inputs in an output interval (R187). -/
def SlowCfg.interval (c : SlowCfg) : Nat := 2 ^ (if c.fast then c.k + 2 else c.k)

/-- A quire is lost to the slow-time processing: the chains restart at the next quire processed, with the phase zeroed where the lost quire
held such a mark (R188, R200). -/
def State.loseQuire (s : State) (l q : Nat) : State :=
  match (s.slowOf l).queue.find? (fun j => j.quire == q) with
  | none => s
  | some j =>
    let n := max 1 (32 / (s.slowCfgFor l q).interval)
    let s1 := (s.modSlow l (fun r => { r with
      queue := r.queue.filter (fun j => j.quire != q), overruns := satAdd r.overruns 1, chainFor := max r.chainFor (max j.mark 1) })).dropJobs
        (fun k => match k with | .slow a b _ => a == l && b == q | _ => false)
    let s2 := s1.abortItems (fun d => d.source == 2 && d.line == l) 3 n l j.first j.last
    s2.raiseLine 0x0503 sevNotice l s2.now (u32 q) (some [])

/-- Format the ring (R179): it empties, FSN returns to 0, readers and holds are clipped with cause 2, and the quires not yet processed are
lost with their data (R200). -/
def State.formatRing (s : State) (l points decode : Nat) : State :=
  let old := (s.feltOf l).fsn
  let s0 := ((s.slowOf l).queue.foldl (fun s j => s.loseQuire l j.quire) s).modSlow l (fun r => { r with chainFor := 2, old := [] })
  let s1 := (List.range 16).foldl (fun s r =>
    match nth (s.feltOf l).readers r none with
    | some x => s.clipReader l r 0 2 (old - x)
    | none => s) s0
  s1.modFelt l (fun f =>
    { f with
      formatted := true, points := points, decode := decode, ns := s.slotsNow l points decode, fsn := 0, oldest := 0, begun := none, rows := []
      holds := f.holds.map (fun h => { h with broken := true })
      holdsBroken := satAdd f.holdsBroken (f.holds.filter (fun h => !h.broken)).length })

/-- `line.start` lays or aligns the ring (R178, R179); the chains restart with the first sheet (R188). -/
def State.feltStart (s : State) (l : Nat) : State :=
  match s.plan? l with
  | none => s
  | some p =>
    let f := s.feltOf l
    let d := s.decodeBytes p
    let s1 := if !f.started || f.points ≠ p.points || f.decode ≠ d then s.formatRing l p.points d
      else s.modFelt l (fun f => { f with fsn := ceilDiv f.fsn 32 * 32 })
    (s1.modFelt l (fun f => { f with started := true })).modSlow l (fun r => { r with restartAtNext := 2 })

/-- The next sheet to be written begins a quire not yet begun. -/
def FeltRing.atBoundary (f : FeltRing) : Bool := f.formatted && f.fsn % 32 == 0 && decide (f.begun ≠ some (f.fsn / 32))

/-- FELT_QUIRE_BEGIN (R185): the writer begins a slot; the oldest quire beyond NS is overwritten. A chain restart waiting for a quire
boundary falls on its first row (R188). -/
def State.beginQuire (s : State) (l : Nat) : State :=
  let f := s.feltOf l
  if !f.atBoundary then s
  else
    let q := f.fsn / 32
    let ns := s.slotsNow l f.points f.decode
    let oldest := if ns ≤ q then 32 * (q + 1 - ns) else 0
    let s0 := s.modFelt l (fun f => { f with begun := some q, ns := ns })
    -- the slot is written anew: what was unsound in it is overwritten (R397)
    let lo := s0.slotAddr l q
    let hi := lo + strideOf f.points (s.feltCfg l).half
    let s1 := s0.overwriteBlocks lo hi
    let s2 := if (s1.feltOf l).oldest < oldest then s1.overtake l oldest 0 else s1
    s2.modSlow l (fun r => { r with restartAtNext := max r.restartAtNext r.markNext, markNext := 0 })

/-- A sheet of the felt as the item of a stream: the sheet record, then its point samples (Table 14.8). -/
def FeltRow.item (r : FeltRow) (l : Nat) : Item :=
  ⟨r.record ++ r.words.flatMap (fun w => u32 w.toNat), BitVec.ofNat 96 (rd r.record 0 12), r.tick, l, r.fsn, none⟩

/-- A sheet record and its samples are written to the next row (R178). -/
def State.feltWrite (s : State) (l tick : Nat) (record : List Byte) (samples : List (BitVec 32)) (restart : Bool) : State :=
  let s1 := s.beginQuire l
  let f := s1.feltOf l
  if !f.formatted then s
  else
    let again := max (b2n restart) (s1.slowOf l).restartAtNext
    let row : FeltRow := ⟨f.fsn, tick, record, samples, (s1.feltCfg l).half, again⟩
    let at_ := s1.slotAddr l (f.fsn / 32)
    let s0 := (s1.touchDram at_ (strideOf f.points (s1.feltCfg l).half)).lostWrite (s1.writtenBlocks l f.fsn f.points)
    let s2 := s0.modFelt l (fun f => { f with fsn := f.fsn + 1, rows := f.rows ++ [row] })
    let s3 := s2.modSlow l (fun r => { r with restartAtNext := 0 })
    s3.deliver (fun d => d.source == 1 && d.line == l) (row.item l)

/-- The rows of a quire that the ring holds. -/
def FeltRing.quireRows (f : FeltRing) (q : Nat) : List FeltRow := f.rows.filter (fun r => r.fsn / 32 == q)

/-- The settings a `slow.config` payload gives (Table 6.14). -/
def readSlowCfg (p : List Byte) (started : Bool) : SlowCfg where
  fast := rd p 1 1 == 1
  k := rd p 2 1
  fsh := rd p 3 1
  shifts := (List.range 10).map (fun j => rd p (4 + j) 1)
  sec := rd p 15 1
  bands := (List.range (rd p 14 1)).map (fun b => ⟨rd p (16 + 48 * b) 1, (List.range 10).map (fun j => rdS p (20 + 48 * b + 4 * j) 4)⟩)
  started := started

/-- The slow-time settings with every pending `slow.config` in effect (R459). -/
def State.pendingSlow (s : State) : List SlowCfg :=
  s.cfg.slow.zipIdx.map (fun e => match s.pendOf 0x0504 e.2 with
    | some q => readSlowCfg q.data e.1.started
    | none => e.1)

/-! ### `felt.resize` (R201 to R203) -/

def resizeParts (p : List Byte) (l : Nat) : Nat := rd p (4 + 4 * l) 2
def resizeHalf (p : List Byte) (l : Nat) : Bool := rd p (6 + 4 * l) 1 == 1

/-- The weights a resize leaves on the lines it names, from the given ones. -/
def resizedFelt (felt : List FeltCfg) (p : List Byte) (lines : List Nat) : List FeltCfg :=
  felt.zipIdx.map (fun e => if lines.contains e.2 then ⟨resizeParts p e.2, resizeHalf p e.2⟩ else e.1)

/-- The weights with every pending resize in effect (R459). -/
def State.pendingFelt (s : State) : List FeltCfg :=
  s.cfg.felt.zipIdx.map (fun e => match s.pendOf 0x0501 e.2 with
    | some q => ⟨resizeParts q.data e.2, resizeHalf q.data e.2⟩
    | none => e.1)

/-- Slots a line would have under given weights. -/
def State.slotsUnder (s : State) (l : Nat) (felt : List FeltCfg) : Nat :=
  let f := s.feltOf l
  let g := nth felt l ⟨64, false⟩
  slotsOf (s.feltPages s.cfg.slow s.capMibNow * g.parts / 1024) f.decode (strideOf f.points g.half)

/-- The quire q_w of R202: at acceptance the writer's current quire plus one; on a stopped line the one the next start begins. -/
def State.shrinkQuire (s : State) (l : Nat) : Nat :=
  let f := s.feltOf l
  if s.running l && !f.atBoundary then f.fsn / 32 + 1 else ceilDiv f.fsn 32

/-- The new OLDEST of a shrink to `ns` slots (R202). -/
def shrinkOldest (q ns : Nat) : Nat := 32 * (q + 1 - ns)

/-- Readers or holds of a line lie below an FSN. -/
def FeltRing.anyBelow (f : FeltRing) (x : Nat) : Bool :=
  f.readers.any (fun r => match r with | some y => decide (y < x) | none => false) ||
    f.holds.any (fun h => !h.broken && decide (h.lo < x))

def FeltRing.anyUse (f : FeltRing) : Bool := f.readers.any Option.isSome || f.holds.any (fun h => !h.broken)

/-- The line's part of a resize: whether its format changes, and whether the change is refused without FORCE. -/
def State.resizeInUse (s : State) (p : List Byte) (felt : List FeltCfg) (l : Nat) : Bool :=
  let f := s.feltOf l
  if resizeHalf p l != (s.feltCfg l).half then f.anyUse
  else
    let ns := s.slotsUnder l felt
    f.formatted && decide (ns < f.ns) && f.anyBelow (shrinkOldest (s.shrinkQuire l) ns)

/-- Put a resize into effect on one line: weight, format, ring, and EV_FELT_RESIZED (R201 to R203). -/
def State.resizeLine (s : State) (l : Nat) (p : List Byte) : State :=
  let old := (s.feltOf l).ns
  let change := resizeHalf p l != (s.feltCfg l).half
  let q := if s.running l then (s.feltOf l).fsn / 32 else ceilDiv (s.feltOf l).fsn 32
  let s1 := s.modCfg (fun r => { r with felt := r.felt.set l ⟨resizeParts p l, resizeHalf p l⟩ })
  let f := s1.feltOf l
  let ns := if f.formatted then s1.slotsNow l f.points f.decode else 0
  let s2 :=
    if change then (match s1.plan? l with
      | some p => s1.formatRing l p.points (s1.decodeBytes p)
      | none => s1.formatRing l f.points f.decode)
    else
      let s2 := s1.modFelt l (fun f => { f with ns := ns })
      if ns < old then s2.overtake l (shrinkOldest q ns) 1 else s2
  s2.raiseLine 0x0502 sevInfo l s2.now (u32 old ++ u32 (s2.feltOf l).ns) none

/-- `felt.resize` (Tables 6.10, 6.11). Lines whose format changes are changed at acceptance; the others wait for their quire boundary. -/
def feltResize : Handler := fun c s =>
  let p := c.arg
  let m := rd p 0 2
  let lines := maskList 16 m
  let felt := resizedFelt s.pendingFelt p lines
  let force := bit (rd p 2 1) 0
  if m = 0 || !s.maskEnabled m || lines.any (fun l => decide (1024 < resizeParts p l) || decide (1 < rd p (6 + 4 * l) 1)) ||
      decide (1024 < (s.enabledLines.map (fun l => (nth felt l ⟨64, false⟩).parts)).sum) then reject s stBadArg
  else if lines.any (fun l => (s.pendOf 0x0501 l).isSome) then reject s stBusy
  else if lines.any (fun l => resizeHalf p l != (s.feltCfg l).half && (s.lineOf l).st != 0) then reject s stWrongState
  else if !force && lines.any (s.resizeInUse p felt) then reject s stInUse
  else if !s.sharesOk felt s.pendingSlow then reject s stNoResource
  else
    let now_ := lines.filter (fun l => resizeHalf p l != (s.feltCfg l).half)
    let later := lines.filter (fun l => !now_.contains l)
    let s1 := now_.foldl (fun s l => s.resizeLine l p) s
    if later.isEmpty then
      let r := pendWith s1 c 0x0501 [16] none
      match r.2.pendOf 0x0501 16 with
      | some q => (r.1, r.2.strikeLast q 16 (r.2.effStamp r.2.now none) r.2.now)
      | none => r
    else pendWith s1 c 0x0501 later none

/-- FELT_RESIZE_TAKES_EFFECT: at the line's first quire boundary at or after apply-at or acceptance, at that instant when it does not run
(R201). -/
def State.feltResizeEffect (s : State) (l : Nat) : State :=
  match s.pendOf 0x0501 l with
  | none => s
  | some p =>
    let from_ := p.applyAt.getD p.accepted
    if s.now < from_ || (s.running l && !(s.feltOf l).atBoundary) then s
    else
      let s1 := s.resizeLine l p.data
      s1.strikeLast p l (s1.effStamp s1.now (some l)) s1.now

/-- The bound below which no reader may be placed while a shrink is pending (R202). -/
def State.shrinkBound (s : State) (l : Nat) : Nat :=
  match s.pendOf 0x0501 l with
  | none => 0
  | some p =>
    let ns := s.slotsUnder l (resizedFelt s.cfg.felt p.data [l])
    if (s.feltOf l).formatted && decide (ns < (s.feltOf l).ns) then shrinkOldest (s.shrinkQuire l) ns else 0

/-! ### `felt.reader` and `felt.status` -/

/-- The start of the newest complete quire; OLDEST when none is complete. -/
def FeltRing.newestQuire (f : FeltRing) : Nat :=
  match f.rows.reverse.find? (fun r => r.fsn % 32 == 31 && (f.quireRows (r.fsn / 32)).length == 32) with
  | some r => r.fsn / 32 * 32
  | none => f.oldest

/-- A stream attached to a felt reader (R436). -/
def State.readerAttached (s : State) (l r : Nat) : Bool :=
  s.streams.zipIdx.any (fun e => e.1.isSome && (match nth s.cfg.streams e.2 none with
    | some d => d.source == 1 && d.line == l && d.reader == r
    | none => false))

def State.readerBody (s : State) (l pos : Nat) : List Byte := u64 pos ++ u64 (s.feltOf l).oldest ++ u64 (s.feltOf l).fsn

/-- `felt.reader` (Table 6.12): the three operations of the table's rows FELT_READER_OPEN, FELT_READER_MOVE and FELT_READER_CLOSE. -/
def feltReader : Handler := fun c s =>
  let l := rd c.arg 0 1
  let r := rd c.arg 1 1
  let op := rd c.arg 2 1
  let x := rd c.arg 4 8
  if s.badLine l || 15 < r || 4 < op then reject s stBadArg
  else
    let f := s.feltOf l
    let cur := nth f.readers r none
    let place := fun (y : Nat) => (⟨stOk, none, s.readerBody l y⟩, s.modFelt l (fun f => { f with readers := f.readers.set r (some y) }))
    let inRange := fun (y : Nat) => decide (f.oldest ≤ y) && decide (y ≤ f.fsn) && decide (s.shrinkBound l ≤ y)
    match op, cur with
    | 4, none => reject s stWrongState
    | 4, some y =>
      if s.readerAttached l r then reject s stInUse
      else (⟨stOk, none, s.readerBody l y⟩, s.modFelt l (fun f => { f with readers := f.readers.set r none }))
    | 3, none => reject s stWrongState
    | 3, some _ => if inRange x then place x else reject s stWrongState
    | _, some _ => reject s stWrongState
    | 0, none => if inRange f.oldest then place f.oldest else reject s stWrongState
    | 1, none => if inRange f.newestQuire then place f.newestQuire else reject s stWrongState
    | _, none => if inRange x then place x else reject s stWrongState

/-- Pages in no share (Table 6.13). -/
def State.freePages (s : State) : Nat := s.feltPages s.cfg.slow s.capMibNow - (s.enabledLines.map s.sharePages).sum

/-- DEPTH in µs (R184). -/
def State.feltDepth (s : State) (l : Nat) : Nat :=
  match s.running l, s.plan? l with
  | true, some p => if p.samples = 0 then 0xFFFFFFFF else satTo 4 ((s.feltOf l).ns * 32 * 1000000 / p.samples)
  | _, _ => 0xFFFFFFFF

def State.feltBody (s : State) (l : Nat) : List Byte :=
  let f := s.feltOf l
  u8 (b2n (s.feltCfg l).half) ++ u8 (if !f.formatted then 0 else if s.running l then 2 else 1) ++ u16 (s.feltCfg l).parts ++
    u32 (s.sharePages l) ++ u32 (if f.formatted then strideOf f.points (s.feltCfg l).half else 0) ++ u32 f.ns ++ u32 f.decode ++
    u32 (s.feltDepth l) ++ u64 f.oldest ++ u64 f.fsn ++
    u16 (maskOf ((List.range 16).filter (fun r => (nth f.readers r none).isSome))) ++
    u16 (f.holds.filter (fun h => !h.broken)).length ++ u32 f.clips ++ u32 f.holdsBroken ++ u32 s.freePages

/-- `felt.status` (Table 6.13). -/
def feltStatus : Handler := fun c s =>
  let l := rd c.arg 0 1
  if s.badLine l then reject s stBadArg
  else
    let s1 := if bit (rd c.arg 1 1) 0 then (s.modFelt l (fun f => { f with clips := 0, holdsBroken := 0 })).clearSat 0x0503 l else s
    okWith s1 (s.feltBody l)

end Sys2Proof.Machine
end

