-- ==== Sys2Proof/Machine/FeltView.lean ====
section
/-! DEFINITION. The device's own regions of DRAM as their addresses hold them: the slots of the felt (R180, R181), the decode regions (R146,
R179), the slow-time state records (R198) and the
trigger state (R247). Their contents are those of the rings, groups and chains of State; this file gives each its
byte. The trigger state lies in the device region; the other regions follow the capture region in line order, the state records first; the pool's shares follow them, and quire q of a ring
stands in slot q mod NS. -/

namespace Sys2Proof.Machine

/-- The quire that the slot of a number holds: the newest one begun of that remainder, if it has not been overwritten or discarded. -/
def FeltRing.heldIn (f : FeltRing) (slot : Nat) : Option Nat :=
  match f.begun with
  | none => none
  | some b =>
    let q := b - (b + f.ns - slot) % max 1 f.ns
    if slot < f.ns && slot ≤ b && q % max 1 f.ns == slot && decide (f.oldest ≤ 32 * q + 31) then some q else none

/-! ### Their bytes -/

/-- Byte `k` of a little-endian value. -/
def byteAt (v k : Nat) : Byte := BitVec.ofNat 8 (v >>> (8 * k))

/-- Byte `x` of the slot of a quire (Table 6.1). -/
def FeltRing.slotByte (f : FeltRing) (half : Bool) (q x : Nat) : Byte :=
  let row := fun (j : Nat) => f.rows.find? (fun r => r.fsn == 32 * q + j)
  let samples := fun (j b : Nat) => blockWords (match row j with | some r => r.samples | none => []) b
  if x < 1024 then (match row (x / 32) with | some r => nth r.record (x % 32) 0 | none => 0)
  else
    let y := x - 1024
    let b := y / blockBytes half
    let z := y % blockBytes half
    if ceilDiv f.points 16 ≤ b then 0
    else if !half then byteAt (nth (samples (z / 64) b) (z % 64 / 4) 0#32).toNat (z % 4)
    else if z < 32 then BitVec.ofNat 8 (packRow (samples z b)).1
    else byteAt (nth (packRow (samples ((z - 32) / 32) b)).2 ((z - 32) % 32 / 2) 0) (z % 2)

/-- Byte `x` of a line's decode region: for each coded tone in turn 16 bytes a decimated cell, X then Y, I then Q (R146). A cell that no
open group has reached reads zero. -/
def Plan.decodeByte (p : Plan) (groups : List Group) : List (Nat × Nat) → Nat → Byte
  | [], _ => 0
  | (t, cells) :: rest, x =>
    if 16 * cells ≤ x then p.decodeByte groups rest (x - 16 * cells)
    else match groups.find? (fun g => g.tone == t) with
      | none => 0
      | some g =>
        let y := x % 16 / 8
        let k := x / 16
        let part := fun (base : Nat) (at_ : Nat) => if k < at_ then none else (nth g.sums (base + y) [])[k - at_]?
        let v := ((part 0 ((p.gauge + p.halfFilter) / p.d)).or (part 2 (p.halfFilter / p.d))).getD Cx.zero
        byteAt (ux 32 (if x % 8 < 4 then v.re else v.im)) (x % 4)

/-- The words of a state record (Table 6.8). -/
def ChainPt.record (c : ChainPt) : List Nat :=
  let w := ux 32
  let lo := fun (v : Int) => ux 20 v
  let stages := (c.odd.zip c.even).flatMap (fun e => e.1.map w ++ e.2.map w)
  let bands := c.bands.flatMap (fun b =>
    b.secs.flatMap (fun s => [w s.x1, w s.x2, w s.y1, w s.y2]) ++ [b.eacc % 2 ^ 20, b.eacc / 2 ^ 20 % 2 ^ 20, b.eacc / 2 ^ 40 % 2 ^ 20])
  [c.settleLeft % 16 + 16 * b2n c.anyValid + 32 * b2n c.anyInvalid + 64 * b2n c.clipped + 128 * b2n c.splice + 256 * b2n c.settling,
    c.phase, c.qmin, 0, lo c.iacc, ux 36 c.iacc / 2 ^ 20, lo c.box, ux 32 c.box / 2 ^ 20] ++ stages ++ bands

/-- Byte `x` of a line's state records. -/
def State.stateByte (s : State) (l x : Nat) : Byte :=
  let n := max 1 (s.slowCfg l).stateBytes
  match (s.slowOf l).chains[x / n]? with
  | some c => byteAt (nth c.record (x % n / 4) 0) (x % 4)
  | none => 0

/-- Byte `x` of a line's share. -/
def State.shareByte (s : State) (l x : Nat) : Byte :=
  let f := s.feltOf l
  let half := (s.feltCfg l).half
  if x < f.decode then
    match s.plan? l with
    | none => 0
    | some p => p.decodeByte (s.lineOf l).groups (p.codedCells (s.tailCells p)) x
  else
    let y := x - f.decode
    match f.heldIn (y / max 1 (strideOf f.points half)) with
    | some q => f.slotByte half q (y % strideOf f.points half)
    | none => 0

/-- The byte of a device address from the state records on. -/
def State.regionByte (s : State) (a : Nat) : Byte :=
  match s.enabledLines.reverse.find? (fun l => decide (s.shareBase l ≤ a)) with
  | some l => if a < s.shareBase l + s.sharePages l * 2 * mib then s.shareByte l (a - s.shareBase l) else 0
  | none =>
    match s.enabledLines.reverse.find? (fun l => decide (s.stateBase l ≤ a)) with
    | some l => s.stateByte l (a - s.stateBase l)
    | none => 0

/-- Byte `x` of the trigger state (R247): 4 MiB for each point condition, and there 8 bytes for each point, BASE, RUN and whether BASE is held. -/
def State.trigByte (s : State) (x : Nat) : Byte :=
  match (nth s.trig.conds (x / (4 * mib)) CondRun.reset).spans.getLast? with
  | none => 0
  | some e =>
    let p := sget (⟨0, none⟩ : PtTrig) e.pts (x % (4 * mib) / 8)
    byteAt (ux 32 (p.base.getD 0) + p.run % 256 * 2 ^ 32 + b2n p.base.isSome * 2 ^ 40) (x % 8)

/-- The byte that stands at a device address. -/
def State.storedByte (s : State) (a : Nat) : Byte :=
  if trigRegionBase ≤ a && a < trigRegionBase + 64 * mib then s.trigByte (a - trigRegionBase)
  else if a < (1024 + s.capMibNow) * mib then sget 0 s.dram a
  else s.regionByte a

/-- `n` bytes of device addresses as they stand in DRAM, whatever their soundness. -/
def State.storedBytes (s : State) (a n : Nat) : List Byte :=
  if a + n ≤ trigRegionBase || (trigRegionBase + 64 * mib ≤ a && a + n ≤ (1024 + s.capMibNow) * mib) then sgetL 0 s.dram a n
  else (List.range n).map (fun k => s.storedByte (a + k))

end Sys2Proof.Machine
end

