-- ==== Sys2Proof/Machine/Dram.lean ====
section
/-! DEFINITION. The DRAM subsystem (R389 to R414): the Reed–Solomon code, reads and writes of device addresses, row
remapping, latency, refresh, self-refresh, channel loss, and the commands of group 0x0C. -/

namespace Sys2Proof.Machine

/-! ### RS(72,64) over GF(2^8) (R394) -/

/-- Multiplication by α in the field of 0x11D. -/
def gfX (a : Nat) : Nat := if 128 ≤ a then (2 * a % 256) ^^^ 0x1D else 2 * a

/-- Product of two field elements, `n` bits of the second. -/
def gfMulGo : Nat → Nat → Nat → Nat
  | 0, _, _ => 0
  | n + 1, a, b => (if b % 2 = 1 then a else 0) ^^^ gfMulGo n (gfX a) (b / 2)

def gfMul (a b : Nat) : Nat := gfMulGo 8 a b

/-- Multiply a polynomial (highest coefficient first) by x − r. -/
def polyRoot (p : List Nat) (r : Nat) : List Nat := List.zipWith (fun a b => a ^^^ gfMul b r) (p ++ [0]) (0 :: p)

/-- The generator without its leading coefficient: the product of x − α^i, i = 0 to 7. -/
def rsGen : List Nat := (([1, 2, 4, 8, 16, 32, 64, 128].foldl polyRoot [1])).drop 1

/-- One data byte through the division register. -/
def rsStep (r : List Nat) (d : Nat) : List Nat :=
  let f := d ^^^ nth r 0 0
  List.zipWith (fun a g => a ^^^ gfMul f g) (r.drop 1 ++ [0]) rsGen

/-- The eight check bytes of 64 data bytes. -/
def rsCheck (data : List Byte) : List Byte :=
  (data.foldl (fun r b => rsStep r b.toNat) (List.replicate 8 0)).map (BitVec.ofNat 8)

/-- The pattern by which a poisoned block's check bytes differ (R397): positions in the codeword of 72. -/
def poisonPattern : List (Nat × Byte) := [(64, 0x5A), (65, 0x5A), (66, 0x5A)]

/-- A pattern of symbol errors as the 72 differences it makes. -/
def errVector (e : List (Nat × Byte)) : List Byte := (List.range 72).map (fun k => (e.filter (fun x => x.1 == k)).foldl (fun v x => v ^^^ x.2) 0)

/-- The stored codeword of a block (R394, R397). -/
def codeword (data : List Byte) (poisoned : Bool) : List Byte :=
  List.zipWith (fun a b => a ^^^ b) (data ++ rsCheck data) (errVector (if poisoned then poisonPattern else []))

/-! ### Reads and writes of device addresses -/

/-- The blocks an address range touches. -/
def blocksOf (a n : Nat) : List Nat := if n = 0 then [] else (List.range ((a + n - 1) / 64 - a / 64 + 1)).map (fun k => a / 64 + k)

/-- Read `n` bytes; the bytes of poisoned blocks read zero, and the poisoned blocks are answered beside them. -/
def State.dramRead (s : State) (a n : Nat) : List Byte × List Nat :=
  let bs := blocksOf a n
  let bad := bs.filter (fun b => s.blockLost b || s.blockSt b ≠ 0)
  ((s.storedBytes a n).zipIdx.map (fun e => if bad.contains ((a + e.2) / 64) then 0 else e.1), bad)

/-- A row falls due for its test: an error of its channel's row unit is counted (R400, R510). -/
def State.rowDue (s : State) (r : RowAt) : State :=
  let s1 := s.modHUnit kindRow r.channel (fun u => { u with errors := satAdd u.errors 1 })
  if s.mem.rowsDue.contains r || s.mem.remaps.any (fun x => x.at_ == r) then s1
  else s1.modMem (fun m => { m with rowsDue := m.rowsDue ++ [r] })

/-- The read of an unsound block of a channel in use is counted (R395, R397): a poisoned one in POISON_READS, an uncorrectable one in UNCORRECTABLE with
its event and its row's test. -/
def State.badRead (s : State) (port b : Nat) : State :=
  let ch := s.channelOf (b * 64)
  if s.blockLost b then s
  else if s.blockSt b = 2 then s.modChan ch.1 (fun x => { x with poisonReads := satAdd x.poisonReads 1 })
  else if s.blockSt b = 1 then
    ((s.modChan ch.1 (fun x => { x with uncorrectable := satAdd x.uncorrectable 1 })).raiseNow 0x0C02 sevFault (srcChannel ch.1)
      (u32 (ch.2 / 64) ++ u8 port) (some [])).rowDue (s.coordinates ch.1 ch.2).1
  else s

/-- A port's read of a range, with what it does to the channels: the bytes, and the blocks that are poisoned to the requester (R396). -/
def State.readBy (s : State) (port a n : Nat) : State × List Byte × List Nat :=
  let q := s.dramRead a n
  (q.2.foldl (fun s b => s.badRead port b) (s.touchDram a n), q.1, q.2)

/-- A port reads a whole range of which only unsound blocks matter: each is counted. -/
def State.readRange (s : State) (port lo hi : Nat) : State :=
  (s.mem.blocks.filter (fun e => decide (lo < 64 * e.1 + 64) && decide (64 * e.1 < hi))).foldl (fun s e => s.badRead port e.1) (s.touchDram lo (hi - lo))

/-- Write bytes of one block (R397, R398, R409): a whole block clears its state; a part is read, merged and written, and of an unsound block it
leaves a poisoned one with zeros where the source was lost. -/
def State.writeInBlock (s : State) (port a : Nat) (data : List Byte) : State :=
  let b := a / 64
  let c := (s.channelOf a).1
  if s.blockLost b then
    (s.modChan c (fun x => { x with lostWrites := satAdd x.lostWrites 1 })).setBlock b 2
  else
    let s1 := s.wakeChannel c
    if data.length = 64 then { s1.setBlock b 0 with dram := ssetL 0 s1.dram a data }
    else if s.blockSt b = 0 then { s1 with dram := ssetL 0 s1.dram a data }
    else { (s1.badRead port b).setBlock b 2 with dram := ssetL 0 (ssetL 0 s1.dram (b * 64) (zeros 64)) a data }

/-- Write bytes from an address on, block by block. -/
def State.dramWriteGo (s : State) (port : Nat) : Nat → Nat → List Byte → State
  | 0, _, _ => s
  | n + 1, a, data =>
    match data with
    | [] => s
    | _ =>
      let k := 64 - a % 64
      (s.writeInBlock port a (data.take k)).dramWriteGo port n (a + k) (data.drop k)

/-- A write of a port of Table 13.5. -/
def State.writeBy (s : State) (port a : Nat) (data : List Byte) : State := s.dramWriteGo port (data.length / 64 + 2) a data

/-- A write of the HOST port. -/
def State.dramWrite (s : State) (a : Nat) (data : List Byte) : State := s.writeBy 4 a data

/-- Write a block poisoned (R397). -/
def State.poisonBlock (s : State) (b : Nat) : State := { s.setBlock b 2 with dram := ssetL 0 s.dram (b * 64) (zeros 64) }

/-! ### Rows under test (R400 to R402) -/

/-- Sub-channel whose rows a spare serves: the first 512 of a channel's spares lie in SC0. -/
def spareSub (k : Nat) : Nat := k / 512

def State.remapsOf (s : State) (c : Nat) : List Remap := s.mem.remaps.filter (fun r => r.at_.channel == c)

/-- The lowest-numbered free spare row of a channel and sub-channel. -/
def State.freeSpare (s : State) (c sub : Nat) : Option Nat :=
  (List.range 1024).find? (fun k => spareSub k == sub && !(s.remapsOf c).any (fun r => r.spare == k))

/-- ROW_REMAP (R400 step 1): a row whose test is due goes to a free spare; its uncorrectable blocks become poisoned. -/
def State.rowRemap (s : State) (r : RowAt) : State :=
  if !s.mem.rowsDue.contains r then s
  else match s.freeSpare r.channel r.sub with
    | none => s
    | some k =>
      let s0 := s.modHUnit kindRow r.channel (fun u => { u with st := 0, noSpare := false })
      let s1 := s0.modMem (fun m => { m with rowsDue := m.rowsDue.erase r, remaps := m.remaps ++ [⟨k, r, false, s.now⟩] })
      let blocks := (List.range 32).map (fun col => s1.deviceAddr r.channel (s1.rowOffset r col) / 64)
      (blocks.filter (fun b => s1.blockSt b == 1)).foldl (fun s b => s.poisonBlock b) s1

/-- Transients of a row within the last 86 400 s (R513). -/
def State.rowTransientCount (s : State) (r : RowAt) : Nat :=
  (s.mem.rowTransients.filter (fun e => e.1 == r && decide (s.elapsed < e.2 + 86400))).length

/-- ROW_TEST_DONE (R400 steps 3 and 4): a passed test frees the remap unless the row is wearing, a failed one makes it permanent. -/
def State.rowTestDone (s : State) (c spare : Nat) (pass : Bool) : State :=
  match s.mem.remaps.find? (fun r => r.at_.channel == c && r.spare == spare && !r.permanent) with
  | none => s
  | some r =>
    let s1 := if pass then s.modMem (fun m => { m with rowTransients := m.rowTransients ++ [(r.at_, s.elapsed)] }) else s
    let wearing := pass && decide (8 ≤ s1.rowTransientCount r.at_)
    let s2 := s1.modMem (fun m =>
      if pass && !wearing then { m with remaps := m.remaps.erase r }
      else { m with remaps := m.remaps.map (fun x => if x == r then { x with permanent := true } else x) })
    let s3 := s2.modHealth (fun h => if pass then { h with transients := satAdd h.transients 1 } else { h with permanents := satAdd h.permanents 1 })
    let s4 := s3.raiseNow 0x0F02 sevNotice (srcChannel c)
      (u8 kindRow ++ u16 c ++ u8 (b2n (!pass)) ++ u32 ((s.now - r.since) / ticksPerUs)) none
    let s5 := if wearing then s4.raiseNow 0x0F03 sevNotice (srcChannel c) (u8 kindRow ++ u16 c ++ u8 (satTo 1 (s1.rowTransientCount r.at_))) none else s4
    s5.raiseNow 0x0C03 sevNotice (srcChannel c) (u32 r.at_.row ++ u16 spare ++ u8 (if !pass then 1 else if wearing then 2 else 0)) none

/-! ### Decoding a read (R395 to R399) -/

/-- A block of a channel decoded for a port with the given symbol errors (R395): what the requester gets and whether poisoned. -/
def State.decodeBlock (s : State) (port a : Nat) (errors : List (Nat × Byte)) : State × List Byte × Bool :=
  let b := a / 64
  let ch := s.channelOf a
  let c := ch.1
  let row := (s.coordinates c ch.2).1
  if s.blockLost b then (s, zeros 64, true)
  else
    let stored := s.blockSt b
    let e := errVector (errors ++ (if stored = 2 then poisonPattern else []))
    let n := (e.filter (fun x => x != 0)).length
    let data := s.storedBytes (b * 64) 64
    let bad := fun (s : State) => (s.setBlock b 1).badRead port b
    let fixed := fun (s : State) (k : Nat) =>
      let s1 := (s.modChan c (fun x => { x with corrected := satAdd x.corrected 1 })).raiseNow 0x0C01 sevNotice (srcChannel c)
        (u32 (ch.2 / 64) ++ u8 k ++ u8 port) (some [])
      s1.rowDue row
    if stored = 1 then (bad s, zeros 64, true)
    else if e = errVector poisonPattern then (s.modChan c (fun x => { x with poisonReads := satAdd x.poisonReads 1 }), zeros 64, true)
    else if n = 0 then (s, data, false)
    else if n ≤ 2 then (fixed s n, data, false)
    else if n ≤ 6 then (bad s, zeros 64, true)
    else
      let s1 := { s with free := s.free + 1 }
      match Config.beyondCode s.free with
      | none => (bad s1, zeros 64, true)
      | some (l, k) =>
        let d := fit 64 (l.map (BitVec.ofNat 8))
        let s2 := { s1.setBlock b 0 with dram := ssetL 0 s1.dram (b * 64) d }
        (fixed s2 (1 + k % 2), d, false)

/-- DRAM_READ_DECODE: the read of the block of a device address, for a port of Table 13.5. -/
def State.readDecode (s : State) (port a : Nat) (errors : List (Nat × Byte)) : State :=
  if s.usableBytes ≤ a || !s.mem.available then s
  else
    let s1 := s.wakeChannel (s.channelOf a).1
    let r := s1.decodeBlock port a errors
    r.1.emit1 (.busRead r.2.1 r.2.2)

/-- SCRUB: the channel's next block is read at the maintenance class; not in P2, P3 or self-refresh (R399, R408). -/
def State.scrub (s : State) (c : Nat) (errors : List (Nat × Byte)) : State :=
  if !s.channels.contains c || decide (2 ≤ s.pwr.st) || (s.chanOf c).st != 0 || !s.mem.available then s
  else
    let blocks := s.usableBytes / s.channels.length / 64
    let k := (s.chanOf c).scrubPos
    let s1 := s.modChan c (fun x => { x with scrubPos := (k + 1) % max 1 blocks })
    (s1.decodeBlock 5 (s1.deviceAddr c (k * 64)) errors).1

/-! ### Refresh, training and loss -/

/-- REFRESH: a per-bank refresh is issued, unless the channel refreshes itself or is not in use (R407, R408); `rate` is the multiplier last read from
the DRAM's mode register. -/
def State.refresh (s : State) (c bank rate : Nat) : State :=
  if !s.channels.contains c || (s.chanOf c).st != 0 then s
  else s.modChan c (fun x => { x with
    refreshes := upd x.refreshes bank (· + 1), refreshRate := if [1, 2, 4].contains rate then rate else x.refreshRate })

/-- CHANNEL_LOST (R409). -/
def State.channelLost (s : State) (c cause : Nat) : State :=
  if !s.channels.contains c || (s.chanOf c).st = 3 then s
  else (s.modChan c (fun x => { x with st := 3, retraining := none })).raiseNow 0x0C06 sevFault (srcChannel c) (u8 cause) none

/-- WCK_DRIFT_CHECK (R391): beyond one eighth of a unit interval the write timing is retrained and the update counted; when it fails a
full retraining begins. -/
def State.driftCheck (s : State) (c drift : Nat) (ok : Bool) : State :=
  if !s.channels.contains c || (s.chanOf c).st != 0 || drift ≤ 125 then s
  else s.modChan c (fun x => { x with
    retrains := satAdd x.retrains 1, retraining := if ok then x.retraining else some (x.retraining.getD s.now) })

/-- FULL_RETRAINING_DONE (R391, R409). -/
def State.retrained (s : State) (c us : Nat) (pass : Bool) : State :=
  match (s.chanOf c).retraining with
  | none => s
  | some _ =>
    let s1 := (s.modChan c (fun x => { x with retraining := none })).raiseNow 0x0C05 sevNotice (srcChannel c) (u32 us ++ u8 (b2n (!pass))) none
    if pass then s1 else s1.channelLost c 0

/-- SELF_REFRESH_ENTRY (R408). -/
def State.srEntry (s : State) (c : Nat) : State :=
  match (s.chanOf c).srAfter with
  | some us =>
    if s.channels.contains c && (s.chanOf c).st == 0 && decide ((s.chanOf c).lastReq + us * ticksPerUs ≤ s.now) then
      s.modChan c (fun x => { x with st := 1, srEntries := satAdd x.srEntries 1 })
    else s
  | none => s

/-- SELF_REFRESH_EXIT: a request to the channel. -/
def State.srExit (s : State) (c : Nat) : State := if (s.chanOf c).st = 1 then s.wakeChannel c else s

/-- The latency target in ns of a port for a request accepted at an instant (Table 13.5, R413). -/
def State.latencyTarget (s : State) (port x : Nat) : Nat :=
  if port = 0 then 2000 else 1000 * nth (pastAt s.mem.past s.cfg.mem x).targets (port - 1) 0

/-- REQUEST_LATE (R403): a request that reaches its target is counted and reported. -/
def State.requestLate (s : State) (port c ns : Nat) : State :=
  let s1 := s.modChan c (fun x => { x with maxLatency := max x.maxLatency (satTo 4 ns) })
  if 4 < port || ns < s.latencyTarget port (s.now - ns * ticksPerUs / 1000) then s1
  else
    (s1.modMem (fun m => { m with late := upd m.late port (fun n => satAdd n 1) })).raiseNow 0x0C04 sevNotice srcDevice
      (u8 port ++ u32 (satTo 4 ns)) (some [port])

/-! ### Commands -/

def readMemCfg (p : List Byte) : MemCfg := ⟨rd p 0 1, bit (rd p 1 1) 0, rd p 2 2, rd p 4 2, (List.range 4).map (fun k => rd p (8 + 2 * k) 2)⟩

def memCfgOk (g : MemCfg) : Bool :=
  [0x0F, 0x0E, 0x0D, 0x0B, 0x07].contains g.mask && decide (1 ≤ g.idleSrUs) && decide (g.idleSrUs ≤ 1000) && decide (1 ≤ g.scrubH) &&
    decide (g.scrubH ≤ 168) &&
    (g.targets.zip [(1, 64), (1, 64), (10, 1000), (5, 1000)]).all (fun e => decide (e.2.1 ≤ e.1) && decide (e.1 ≤ e.2.2))

/-- Every share holds at least 136 pages under a mask (R177, R410). -/
def State.sharesUnder (s : State) (mask : Nat) : Bool := s.sharesOf s.pendingFelt s.pendingSlow (s.usableUnder mask) s.cfg.capMib

/-- `mem.config` (R413). -/
def memConfig : Handler := fun c s =>
  let g := readMemCfg c.arg
  if !memCfgOk g then reject s stBadArg
  else if g.mask ≠ s.cfg.mem.mask && !s.sharesUnder g.mask then reject s stNoResource
  else okay ((s.modCfg (fun k => { k with mem := g })).modMem (fun m => { m with
    forceFull := bit (rd c.arg 1 1) 1, past := pastPut m.past s.now ticksPerSecond s.cfg.mem }))

def State.chanBody (s : State) (c : Nat) : List Byte :=
  let x := s.chanOf c
  let r := s.remapsOf c
  u8 (if !s.channels.contains c then 2 else x.st) ++ u8 (b2n x.cached) ++ u8 s.build.memRanks ++ u8 x.refreshRate ++
    u16 (r.filter Remap.permanent).length ++ u16 (r.filter (fun e => !e.permanent)).length ++ u32 x.corrected ++ u32 x.uncorrectable ++
    u32 x.poisonReads ++ u32 x.lostWrites ++ u32 x.srEntries ++ u32 x.srWaits ++ u32 x.retrains ++ u32 x.maxLatency

def State.memBody (s : State) : List Byte :=
  u32 s.build.installedMib ++ u32 s.usableMib ++ u16 s.build.memRate ++ u8 s.memMask ++ u8 s.cfg.mem.mask ++ s.mem.late.flatMap u32 ++
    (List.range 4).flatMap s.chanBody

/-- `mem.status` (Table 13.11). -/
def memStatus : Handler := fun c s =>
  let s1 := if bit (rd c.arg 0 1) 0 then
    (s.modMem (fun m => { m with
      late := [0, 0, 0, 0, 0]
      chans := m.chans.map (fun x => { x with
        corrected := 0, uncorrectable := 0, poisonReads := 0, lostWrites := 0, srEntries := 0, srWaits := 0, retrains := 0
        maxLatency := 0 }) })).clearSat 0x0C02 0
    else s
  okWith s1 s.memBody

/-- `mem.remaps` (Table 13.12). -/
def memRemaps : Handler := fun c s =>
  let ch := rd c.arg 0 1
  let first := rd c.arg 2 2
  let n := rd c.arg 4 2
  if 3 < ch || 1023 < first || n < 1 || 256 < n || 1024 < first + n then reject s stBadArg
  else okWith s ((List.range n).flatMap (fun k =>
    match (s.remapsOf ch).find? (fun r => r.spare == first + k) with
    | none => zeros 8
    | some r => u8 (if r.permanent then 2 else 1) ++ u8 (r.at_.sub + 2 * r.at_.rank) ++ u16 r.at_.bank ++ u32 r.at_.row))


end Sys2Proof.Machine
end

