-- ==== Sys2Proof/Machine/Slow.lean ====
section
/-! DEFINITION. The slow-time processing (R187 to R200, R204, R205, R207): the chain's arithmetic to the bit, the slow sheets of a quire,
starting, stopping and losses, and the commands `slow.config`, `slow.start`, `slow.stop` and `slow.status`. -/

namespace Sys2Proof.Machine

/-! ### The chain -/

/-- The settling length L (R192, R193). -/
def settleOf : Nat → Nat
  | 0 => 0
  | k + 1 => ceilDiv (settleOf k + 9) 2

def SlowCfg.settle (c : SlowCfg) : Nat := if c.fast then 1 else settleOf c.k

def SecState.zero : SecState := ⟨0, 0, 0, 0⟩

/-- A record as a restart leaves it, with the integrated phase given (R188). -/
def ChainPt.restarted (c : SlowCfg) (iacc : Int) : ChainPt where
  settleLeft := c.settle
  anyValid := false
  anyInvalid := false
  clipped := false
  splice := false
  settling := false
  phase := 0
  qmin := 255
  iacc := iacc
  box := 0
  odd := List.replicate c.k [0, 0, 0, 0, 0]
  even := List.replicate c.k [0, 0, 0]
  bands := List.replicate c.bands.length ⟨List.replicate c.sec SecState.zero, 0⟩

/-- The sum of a half-band stage (Table 6.5): the newest odd input and the five before it, the three newest even inputs. -/
def halfSum (x : Int) (odd even : List Int) : Int :=
  6029 * x - 31510 * nth odd 0 0 + 156553 * nth odd 1 0 + 156553 * nth odd 2 0 - 31510 * nth odd 3 0 + 6029 * nth odd 4 0 + 262144 * nth even 2 0

/-- One output of a half-band stage (R191). -/
def halfBand (x : Int) (odd even : List Int) (sh : Nat) : Int × Bool := roundSat 20 (halfSum x odd even) (2 ^ (18 + sh))

/-- One second-order section (R195). -/
def section_ (s : SecState) (co : List Int) (x : Int) : SecState × Int × Bool :=
  let acc := nth co 0 0 * x + nth co 1 0 * s.x1 + nth co 2 0 * s.x2 - nth co 3 0 * s.y1 - nth co 4 0 * s.y2
  let y := roundSat 20 acc (2 ^ 18)
  (⟨x, s.x1, y.1, s.y1⟩, y.1, y.2)

/-- The sections of a band in cascade. -/
def sections : List SecState → List Int → Int → List SecState × Int × Bool
  | [], _, x => ([], x, false)
  | s :: r, co, x =>
    let a := section_ s co x
    let b := sections r (co.drop 5) a.2.1
    (a.1 :: b.1, b.2.1, a.2.2 || b.2.2)

/-- A band takes a sample at its tap: its energy advances by the square of its last section's output (R195). -/
def BandState.take (b : BandState) (co : List Int) (x : Int) : BandState × Bool :=
  let r := sections b.secs co x
  (⟨r.1, (b.eacc + (r.2.1 * r.2.1).toNat) % 2 ^ 60⟩, r.2.2)

/-- The band-energy code (R196). -/
def bandCode (eacc nb : Nat) : Nat :=
  if eacc = 0 then 0
  else
    let m := eacc.log2
    let f := if 12 ≤ m then (eacc >>> (m - 12)) % 4096 else (eacc <<< (12 - m)) % 4096
    let e : Int := (m : Int) - (nb.log2 : Int)
    (clampI 1 1048575 (4096 * (e + 16) + f)).toNat

/-- Feed the bands whose tap is `tap`; answers the bands and those that saturated. -/
def feedBands (cfg : List BandCfg) (bs : List BandState) (tap : Nat) (x : Int) : List BandState × List Nat :=
  let r := (cfg.zip bs).zipIdx.map (fun e =>
    if e.1.1.tap = tap then (let t := e.1.2.take e.1.1.coefs x; (t.1, t.2, e.2)) else (e.1.2, false, e.2))
  (r.map Prod.fst, (r.filter (fun e => e.2.1)).map (fun e => 16 + e.2.2))

/-- Stages `k` to the last, from an input of stage `k` (R191): an odd-numbered input makes an output. Answers the record, the last stage's
output if it made one, and the stages and bands that saturated. -/
def cascade (c : SlowCfg) : Nat → Nat → ChainPt → Int → ChainPt × Option Int × List Nat
  | 0, _, p, x => (p, some x, [])
  | n + 1, k, p, x =>
    let odd := nth p.odd (k - 1) []
    let even := nth p.even (k - 1) []
    if bit p.phase (k - 1) then
      let y := halfBand x odd even (nth c.shifts (k - 1) 0)
      let p1 := { p with odd := p.odd.set (k - 1) (x :: odd.take 4) }
      let b := feedBands c.bands p1.bands k y.1
      let r := cascade c n (k + 1) { p1 with bands := b.1 } y.1
      (r.1, r.2.1, (if y.2 then [k] else []) ++ b.2 ++ r.2.2)
    else ({ p with even := p.even.set (k - 1) (x :: even.take 2) }, none, [])

/-- The flags of an output (R189), as the low four bits of Table 6.7. -/
def outFlags (settling invalid clipped splice : Bool) : Nat := 8 * b2n settling + 4 * b2n invalid + 2 * b2n clipped + b2n splice

/-- One input of a point (R187 to R197): the record after it, an output sample at the end of an interval, and the stages that
saturated. -/
def ChainPt.input (c : SlowCfg) (p : ChainPt) (w : BitVec 32) : ChainPt × Option (List (BitVec 32)) × List Nat :=
  let inv := wordInvalid w
  let x := if inv then 0 else wordDphi w
  let p1 := { p with
    anyValid := p.anyValid || !inv, anyInvalid := p.anyInvalid || inv, clipped := p.clipped || bit w.toNat 1, splice := p.splice || bit w.toNat 0
    settling := p.settling || bit w.toNat 3, qmin := if inv then p.qmin else min p.qmin (wordQ w), iacc := wrapS 36 (p.iacc + x)
    box := wrapS 32 (p.box + x) }
  let b := feedBands c.bands p1.bands 0 x
  let p2 := { p1 with bands := b.1 }
  let r := if c.fast then (p2, none, []) else cascade c c.k 1 p2 x
  let p3 := r.1
  let sats := b.2 ++ r.2.2
  let done := decide (p3.phase + 1 = c.interval)
  if !done then
    ({ p3 with phase := p3.phase + 1, clipped := p3.clipped || !sats.isEmpty }, none, sats)
  else
    let fastY := roundSat 20 p3.box (2 ^ c.fsh)
    let y := if c.fast then fastY.1 else r.2.1.getD 0
    let all := sats ++ (if c.fast && fastY.2 then [0] else [])
    let invalid := !p3.anyValid
    let flags := outFlags (decide (0 < p3.settleLeft) || p3.settling) invalid (p3.clipped || !all.isEmpty)
      (p3.splice || (p3.anyValid && p3.anyInvalid))
    let yw := if invalid then 0 else ux 20 y * 4096 + p3.qmin % 256 * 16
    let bandWords := (c.bands.zip p3.bands).map (fun e =>
      let nb := if c.fast then 2 ^ (c.k + 2) else 2 ^ (c.k - e.1.tap)
      BitVec.ofNat 32 ((if invalid then 0 else bandCode e.2.eacc nb) * 4096 + flags))
    let out := [BitVec.ofNat 32 (yw + flags), BitVec.ofNat 32 (ux 32 (rneDiv p3.iacc 16))] ++ bandWords
    ({ p3 with
        settleLeft := p3.settleLeft - 1, anyValid := false, anyInvalid := false, clipped := false, splice := false, settling := false
        phase := 0, qmin := 255, box := 0, bands := p3.bands.map (fun b => { b with eacc := 0 }) }, some out, all)

/-- Restart every point's chain (R188): 2 also zeroes the integrated phase. -/
def restartChains (c : SlowCfg) (n mark : Nat) (l : List ChainPt) : List ChainPt :=
  if mark = 2 then List.replicate n (ChainPt.restarted c 0)
  else (List.range n).map (fun i => ChainPt.restarted c (match l[i]? with | some p => p.iacc | none => 0))

/-- The sheet record of a slow sheet (R197): that of the interval's last input with the counts and SETTLING of the outputs. -/
def slowRecord (rec : List Byte) (outs : List (List (BitVec 32))) : List Byte :=
  let first := outs.map (fun o => nth o 0 0#32)
  rec.take 14 ++ u16 (field (rd rec 14 2) 0 8 + 256 * b2n (first.any (fun w => bit w.toNat 3))) ++ u32 outs.length ++
    u32 (first.filter wordInvalid).length ++ u32 (first.filter (fun w => bit w.toNat 1)).length ++ (rec.drop 28).take 4

/-- One felt row through every point's chain. A point whose sample DRAM has lost restarts its chain there and enters as INVALID (R230). -/
def slowRow (c : SlowCfg) (bad : Nat → Nat → Bool) (chains : List ChainPt) (zeroed : Bool) (zpts : List Nat) (r : FeltRow) :
    List ChainPt × Option SlowSheet × List Nat :=
  let ch := if r.chain = 0 then chains else restartChains c r.words.length r.chain chains
  let res := (ch.zip r.words).zipIdx.map (fun e =>
    if bad r.fsn e.2 then (ChainPt.restarted c e.1.1.iacc).input c 4#32 else e.1.1.input c e.1.2)
  let outs := res.filterMap (fun e => e.2.1)
  let pts := (res.zipIdx.filter (fun e => e.1.2.1.isSome)).map Prod.snd
  (res.map (fun e => e.1),
    if outs.isEmpty then none else some ⟨zeroed || r.chain == 2, zpts, pts, r.fsn, 0, r.tick, slowRecord r.record outs, outs⟩,
    res.flatMap (fun e => e.2.2))

/-- The rows of a quire in order; the mark of a zeroed phase goes with the next slow sheet. Answers the records, the mark still held, the
slow sheets and the saturations. -/
def slowRows (c : SlowCfg) (bad : Nat → Nat → Bool) : List ChainPt → Bool → List Nat → List FeltRow → List ChainPt × (Bool × List Nat) × List SlowSheet × List Nat
  | ch, z, zp, [] => (ch, (z, zp), [], [])
  | ch, z, zp, r :: rest =>
    let a := slowRow c bad ch z zp r
    let b := slowRows c bad a.1 (if a.2.1.isSome then false else z || r.chain == 2) (if a.2.1.isSome then [] else zp) rest
    (b.1, b.2.1, a.2.1.toList ++ b.2.2.1, a.2.2 ++ b.2.2.2)

/-! ### Quires and their jobs -/

/-- Jobs become ready in order (R210). -/
def State.addJobs (s : State) (l : List JobKind) : State :=
  { s with tiles := { s.tiles with ready := s.tiles.ready ++ l.map (fun k => ⟨k, s.now, none⟩) } }

/-- A point condition of the line is armed. -/
def State.pointArmed (s : State) (l : Nat) : Bool :=
  (List.range 16).any (fun c => bit s.cfg.armed c && (match nth s.cfg.conds c none with | some d => d.line == l | none => false))

def SlowSheet.item (v : SlowSheet) (l : Nat) : Item :=
  ⟨v.record ++ v.outs.flatMap (fun o => o.flatMap (fun w => u32 w.toNat)), BitVec.ofNat 96 (rd v.record 0 12), v.tick, l, v.number, none⟩

/-- A stop of the line's slow-time processing is pending and has come into force (R204). -/
def State.slowStopping (s : State) (l : Nat) : Bool :=
  match s.pendOf 0x0506 l with
  | some p => decide (p.applyAt.getD p.accepted ≤ s.now)
  | none => false

/-- QUIRE_COMPLETE: the quire's slow-time jobs become ready (R178, R205). -/
def State.quireReady (s : State) (l q : Nat) : State :=
  if !(s.slowCfg l).started || s.slowStopping l || (s.slowOf l).queue.any (fun j => j.quire == q) then s
  else
    let rows := (s.feltOf l).quireRows q
    let st := fun (o : Option FeltRow) => match o with | some r => BitVec.ofNat 96 (rd r.record 0 12) | none => s.devStamp s.now
    let job : QuireJob := ⟨q, s.now, (rows.map FeltRow.chain).foldl max 0, st rows.head?, st rows.getLast?⟩
    (s.modSlow l (fun r => { r with queue := r.queue ++ [job] })).addJobs
      ((List.range (ceilDiv (s.feltOf l).points 256)).map (fun g => .slow l q g))

def State.quireComplete (s : State) (l : Nat) : State :=
  let f := s.feltOf l
  if f.fsn % 32 = 0 && decide (0 < f.fsn) && (f.quireRows (f.fsn / 32 - 1)).length == 32 then s.quireReady l (f.fsn / 32 - 1) else s

/-- EV_SLOW_SATURATED for every saturation (R191, R193, R208). -/
def State.slowSaturated (s : State) (l : Nat) (stages : List Nat) : State :=
  stages.foldl (fun s k =>
    (s.modSlow l (fun r => { r with saturations := satAdd r.saturations 1 })).raiseLine 0x0505 sevNotice l s.now (u8 k) (some [])) s

/-- The number of each slow sheet since the chains were last restarted (R370): they restart at each row so marked, the last of them before a
sheet counting. Answers the sheets numbered and the count that stands afterwards. -/
def numberSheets (rows : List FeltRow) : Nat → List SlowSheet → List SlowSheet × Nat
  | n, [] => ([], if rows.any (fun r => decide (r.chain ≠ 0)) then 0 else n)
  | n, v :: rest =>
    let m := if rows.any (fun r => decide (r.chain ≠ 0 ∧ r.fsn ≤ v.fsn)) then 0 else n
    let out := numberSheets (rows.filter (fun r => decide (v.fsn < r.fsn))) (m + 1) rest
    ({ v with number := m } :: out.1, out.2)

/-- A job of a kind is ready or running. -/
def State.jobsLeft (s : State) (is : JobKind → Bool) : Bool :=
  s.tiles.ready.any (fun j => is j.kind) || s.tiles.tiles.any (fun t => match t.job with | some (j, _) => is j.kind | none => false)

/-- A slow-time job of a quire is ready or running. -/
def State.slowJobsLeft (s : State) (l q : Nat) : Bool := s.jobsLeft (fun k => match k with | .slow a b _ => a == l && b == q | _ => false)

/-- DRAM cannot give the sample of a point back. -/
def State.sampleLost (s : State) (l fsn i : Nat) : Bool :=
  s.memHurt && (s.sampleBlocks l fsn i).any s.blockBad

/-- DRAM cannot give the sheet record of a row back. -/
def State.recordLost (s : State) (l fsn : Nat) : Bool :=
  s.blockBad ((s.slotAddr l (fsn / 32) + fsn % 32 * 32) / 64)

/-- SLOW_QUIRE_RELEASED: once every job of the head of the queue is done its slow sheets go to the streams and the triggers (R197, R200,
R232). -/
def State.releaseQuire (s : State) (l : Nat) : State :=
  match (s.slowOf l).queue with
  | [] => s
  | j :: rest =>
    let f := s.feltOf l
    if 32 * j.quire < f.oldest || s.slowJobsLeft l j.quire then s
    else
      let c := s.slowCfgFor l j.quire
      let rows := f.quireRows j.quire
      let start := if (s.slowOf l).chains.length = f.points then (s.slowOf l).chains else List.replicate f.points (ChainPt.restarted c 0)
      let pre := match rows with
        | r :: _ => if (s.slowOf l).chainFor = 0 || r.chain ≠ 0 then start else restartChains c f.points (s.slowOf l).chainFor start
        | [] => start
      let run := s.slowOf l
      let out := slowRows c (s.sampleLost l) pre (run.zeroed || (run.chainFor == 2)) run.zeroedPts rows
      let sheets := numberSheets rows (if run.chainFor = 0 then run.count else 0) out.2.2.1
      let s1 := s.modSlow l (fun r => { r with
        count := sheets.2, chains := out.1, chainFor := 0, queue := rest, old := r.old.filter (fun e => decide (j.quire + 1 < e.1)), quires := satAdd r.quires 1, zeroed := out.2.1.1, zeroedPts := out.2.1.2
        lagUs := satTo 4 ((s.now - j.completeAt) / ticksPerUs), forTriggers := r.forTriggers ++ sheets.1 })
      let slot := s.slotAddr l j.quire
      let s0 := if s.memHurt then s1.readRange 1 slot (slot + strideOf f.points (s.feltCfg l).half) else s1
      let s2 := s0.slowSaturated l out.2.2.2
      let s3 := sheets.1.foldl (fun s v => s.deliver (fun d => d.source == 2 && d.line == l) (v.item l)) s2
      if s.pointArmed l then
        s3.addJobs ((List.range (ceilDiv f.points 4096)).map (fun g => .trigger l j.quire g))
      else s3

/-- SLOW_OVERRUN: the head of the queue has been overwritten and is lost (R200). -/
def State.slowOverrun (s : State) (l : Nat) : State :=
  match (s.slowOf l).queue with
  | [] => s
  | j :: _ => if (s.feltOf l).oldest ≤ 32 * j.quire then s else s.loseQuire l j.quire

/-- Discard every quire not yet released, with an ABORTED record in the line's slow streams (R204, R205); answers how many. -/
def State.discardQuires (s : State) (l : Nat) : State × Nat :=
  let q := (s.slowOf l).queue
  let n := q.length
  let at_ := s.devStamp s.now
  let items := (q.map (fun j => max 1 (32 / (s.slowCfgFor l j.quire).interval))).sum
  let s1 := (s.modSlow l (fun r => { r with queue := [] })).dropJobs (fun k => match k with | .slow a _ _ => a == l | _ => false)
  (s1.abortItems (fun d => d.source == 2 && d.line == l) 3 items l ((q.head?.map QuireJob.first).getD at_)
    ((q.getLast?.map QuireJob.last).getD at_), n)

/-- The line has stopped (R205): in drain form the partial quire is taken, in immediate form work in flight is discarded. -/
def State.slowLineStopped (s : State) (l : Nat) (immediate : Bool) : State :=
  let f := s.feltOf l
  if !(s.slowCfg l).started then s
  else if immediate then
    let r := s.discardQuires l
    r.1.modSlow l (fun x => { x with lineStop := some (3, r.2) })
  else
    let s1 := if f.fsn % 32 ≠ 0 && !(f.quireRows (f.fsn / 32)).isEmpty then s.quireReady l (f.fsn / 32) else s
    s1.modSlow l (fun x => { x with lineStop := some (2, 0) })

/-- SLOW_STOPPED: the drain or the discard of a line stop or of `slow.stop` is complete (R204, R205). -/
def State.slowStopped (s : State) (l : Nat) : State :=
  match (s.slowOf l).lineStop with
  | some (cause, n) =>
    if cause = 2 && !(s.slowOf l).queue.isEmpty then s
    else (s.modSlow l (fun r => { r with lineStop := none })).raiseLine 0x0504 sevInfo l s.now (u8 cause ++ u32 n) none
  | none =>
    match s.pendOf 0x0506 l with
    | none => s
    | some p =>
      let x := p.applyAt.getD p.accepted
      let imm := rd p.data 2 1 == 1
      if s.now < x || (!imm && !(s.slowOf l).queue.isEmpty) then s
      else
        let r := if imm then s.discardQuires l else (s, 0)
        let s1 := r.1.modCfg (fun k => { k with slow := upd k.slow l (fun c => { c with started := false }) })
        let s2 := s1.raiseLine 0x0504 sevInfo l s1.now (u8 (b2n imm) ++ u32 r.2) none
        s2.strikeLast p l (s2.effStamp s2.now (some l)) s2.now

/-! ### `slow.config`, `slow.start`, `slow.stop`, `slow.status` -/

def slowCfgOk (p : List Byte) : Bool :=
  let c := readSlowCfg p true
  decide (rd p 1 1 ≤ 1) && decide (c.k ≤ 10) && (!c.fast || decide (1 ≤ c.k)) && decide (c.fsh ≤ 12) && (c.fast || c.fsh == 0) &&
    c.shifts.zipIdx.all (fun e => if e.2 < c.k then decide (e.1 ≤ 3) else e.1 == 0) && decide (c.bands.length ≤ 4) &&
    (if c.bands.isEmpty then c.sec == 0 else decide (1 ≤ c.sec) && decide (c.sec ≤ 2)) &&
    c.bands.all (fun b => (if c.fast then b.tap == 0 else decide (b.tap ≤ c.k)) &&
      b.coefs.zipIdx.all (fun e => decide (-524288 ≤ e.1) && decide (e.1 ≤ 524287) && (decide (e.2 < 5 * c.sec) || e.1 == 0)))

/-- C of R199 in units of 1/4096 cycle, exact. -/
def SlowCfg.cost4096 (c : SlowCfg) : Nat :=
  if c.fast then (5 + (c.bands.map (fun _ => 3 * c.sec + 1)).sum) * 1024
  else (4 * 1024 + 6 * (1024 - 1024 / 2 ^ c.k) + (c.bands.map (fun b => (3 * c.sec + 1) * 1024 / 2 ^ b.tap)).sum)

/-- COST = C × 1 000 (Table 6.15), rounded to nearest. -/
def SlowCfg.cost1000 (c : SlowCfg) : Nat := (rneDiv ((c.cost4096 * 1000 : Nat) : Int) 4096).toNat

/-- E (Table 6.15). -/
def SlowCfg.gainExp (c : SlowCfg) : Int :=
  if c.fast then (c.k : Int) - (c.fsh : Int) else ((c.shifts.take c.k).map (fun v => (1 : Int) - (v : Int))).sum

def SlowCfg.response (c : SlowCfg) : List Byte :=
  u32 c.cost1000 ++ u16 c.stateBytes ++ u8 c.settle ++ leBytesS 1 c.gainExp ++ u32 (if c.fast then 0 else 5 * (2 ^ c.k - 1)) ++ u32 c.interval

/-- `slow.config` (R207, Table 6.16); `inUse` says that an armed or soon armed point condition of the line names a band number that would no
longer exist. -/
def slowConfigWith (inUse : State → Nat → Nat → Bool) : Handler := fun c s =>
  let l := rd c.arg 0 1
  if s.badLine l || !slowCfgOk c.arg then reject s stBadArg
  else
    let cfg := readSlowCfg c.arg (s.slowCfg l).started
    if (s.pendOf 0x0504 l).isSome then reject s stBusy
    else if inUse s l cfg.bands.length then reject s stInUse
    else if !s.sharesOk s.pendingFelt (s.pendingSlow.set l cfg) then reject s stNoResource
    else if 6 * 4096 < cfg.cost4096 then reject s stOverBudget
    else
      let r := pendWith s c 0x0504 [l] none
      (⟨stPending, none, cfg.response⟩, r.2)

/-- SLOW_CONFIG_TAKES_EFFECT: at a quire boundary of a running line, at apply-at or acceptance otherwise; the chains restart with the next
quire begun, and the quires begun before are processed under the settings they were begun under (R188, R207). -/
def State.slowConfigEffect (s : State) (l : Nat) : State :=
  match s.pendOf 0x0504 l with
  | none => s
  | some p =>
    let x := p.applyAt.getD p.accepted
    if s.now < x || (s.running l && !(s.feltOf l).atBoundary) then s
    else
      let s1 := (s.modCfg (fun r => { r with slow := upd r.slow l (fun k => readSlowCfg p.data k.started) })).strike 0x0504 l
      let s2 := s1.modSlow l (fun r => { r with markNext := 2, old := r.old ++ [(ceilDiv (s.feltOf l).fsn 32, s.slowCfg l)] })
      s2.applied p srcDevice (s2.effStamp s2.now (some l)) s2.now stOk

/-- A start, stop or configuration of the slow-time processing is pending on a line. -/
def State.slowBusy (s : State) (l : Nat) : Bool :=
  (s.pendOf 0x0504 l).isSome || (s.pendOf 0x0505 l).isSome || (s.pendOf 0x0506 l).isSome

/-- A pending `slow.start` comes into force: at a quire boundary of a running line, at apply-at or acceptance otherwise (R204). -/
def State.slowStartEffect (s : State) (l : Nat) : State :=
  match s.pendOf 0x0505 l with
  | none => s
  | some p =>
    let x := p.applyAt.getD p.accepted
    if s.now < x || (s.running l && !(s.feltOf l).atBoundary) then s
    else
      let s1 := s.modCfg (fun k => { k with slow := upd k.slow l (fun c => { c with started := true }) })
      let s2 := s1.modSlow l (fun r => { r with markNext := 2 })
      s2.strikeLast p l (s2.effStamp s2.now (some l)) s2.now

/-- `slow.start`. -/
def slowStart : Handler := fun c s =>
  let m := rd c.arg 0 2
  let lines := maskList 16 m
  if m = 0 || !s.maskEnabled m || rd c.arg 2 1 ≠ 0 then reject s stBadArg
  else if lines.any s.slowBusy then reject s stBusy
  else if lines.any (fun l => (s.slowCfg l).started) then reject s stWrongState
  else
    let r := pendWith s c 0x0505 lines none
    (r.1, (lines.filter (fun l => !s.running l)).foldl (fun s l => s.slowStartEffect l) r.2)

/-- `slow.stop`. -/
def slowStop : Handler := fun c s =>
  let m := rd c.arg 0 2
  let lines := maskList 16 m
  if m = 0 || !s.maskEnabled m || 1 < rd c.arg 2 1 then reject s stBadArg
  else if lines.any s.slowBusy then reject s stBusy
  else if lines.any (fun l => !(s.slowCfg l).started) then reject s stWrongState
  else pendWith s c 0x0506 lines none

def State.slowBody (s : State) (l : Nat) : List Byte :=
  let r := s.slowOf l
  let c := s.slowCfg l
  u8 (if (s.pendOf 0x0506 l).isSome then 2 else b2n c.started) ++ u8 (b2n c.fast) ++ u8 c.k ++ u8 c.bands.length ++ u32 r.quires ++
    u32 r.overruns ++ u32 r.saturations ++ u32 r.stateErrors ++ u32 r.lagUs

/-- `slow.status` (Table 6.18). -/
def slowStatus : Handler := fun c s =>
  let l := rd c.arg 0 1
  if s.badLine l then reject s stBadArg
  else
    let s1 := if bit (rd c.arg 1 1) 0 then
      (s.modSlow l (fun r => { r with quires := 0, overruns := 0, saturations := 0, stateErrors := 0 })).clearSat 0x0507 l else s
    okWith s1 (s.slowBody l)

/-- A state record that DRAM protection reports uncorrectable (R188): the point's chain restarts, its accumulator at zero. -/
def State.slowStateError (s : State) (l i : Nat) : State :=
  let c := match (s.slowOf l).queue with | j :: _ => s.slowCfgFor l j.quire | [] => s.slowCfg l
  (s.modSlow l (fun r => { r with
    chains := upd r.chains i (fun _ => ChainPt.restarted c 0), stateErrors := satAdd r.stateErrors 1
    zeroedPts := r.zeroedPts ++ [i] })).raiseLine 0x0506 sevNotice l s.now (u32 i) (some [])

end Sys2Proof.Machine
end

