-- ==== Sys2Proof/Machine/TileIsa.lean ====
section
/-! DEFINITION. The instruction set of the vector tiles (R212 to R230): registers, arithmetic, addresses, moves, control, block repeat, the
block mover, and the run of a kernel from its entry to DONE or to an abort. -/

namespace Sys2Proof.Machine

/-! ### Registers -/

def TileRegs.dOf (r : TileRegs) (i : Nat) : Nat := nth r.d (i % 16) 0
def TileRegs.dS (r : TileRegs) (i : Nat) : Int := sx 20 (r.dOf i)
def TileRegs.aOf (r : TileRegs) (n : Nat) : Int := nth r.a n 0
def TileRegs.setD (r : TileRegs) (i v : Nat) : TileRegs := { r with d := r.d.set (i % 16) (v % 2 ^ 20) }
def TileRegs.setDS (r : TileRegs) (i : Nat) (v : Int) : TileRegs := r.setD i (ux 20 v)

/-- Store an exact accumulator result modulo 2^56, with its lane's AOVL (R213). -/
def TileRegs.setA (r : TileRegs) (n lane : Nat) (v : Int) : TileRegs :=
  { r with
    a := r.a.set n (wrapS 56 v)
    aovl := if v < -(2 ^ 55) ∨ 2 ^ 55 ≤ v then r.aovl.set lane true else r.aovl }

/-- Saturate to 20 bits, with the lane's SATL (R214). -/
def TileRegs.satD (r : TileRegs) (i lane : Nat) (v : Int) : TileRegs :=
  let w := satS 20 v
  { r.setDS i w with satl := if w = v then r.satl else r.satl.set lane true }

def flagBits (l : List Bool) : Nat := maskOf ((List.range 4).filter (fun k => nth l k false))

/-- ST (Table 7.2). -/
def TileRegs.stWord (r : TileRegs) : Nat :=
  flagBits r.satl + 16 * flagBits r.aovl + 256 * b2n r.z + 512 * b2n r.n + 1024 * r.depth

/-- BMST (Table 7.8), with the descriptors outstanding. -/
def TileRegs.bmst (r : TileRegs) (outstanding : Nat) : Nat :=
  outstanding + 8 * b2n r.fault + 16 * b2n r.poison + 32 * (r.seq % 16) + 512 * (r.poisonSeq % 16) + 8192 * (r.poisonRow % 4096)

/-- A control register's value (the creg codes of section 7.7). -/
def TileRegs.creg (r : TileRegs) (outstanding c : Nat) : Nat :=
  if c < 4 then nth r.xa c 0
  else if c < 8 then nth r.ya (c - 4) 0
  else if c < 16 then nth r.m (c - 8) 0
  else if c < 20 then nth r.lc (c - 16) 0
  else if c < 24 then nth r.ls (c - 20) 0
  else if c < 28 then nth r.le (c - 24) 0
  else if c = 28 then r.stWord
  else if c = 29 then r.bmst outstanding
  else if c = 30 then r.sr
  else nth r.cf (c - 31) 0

/-- Write a control register, cut to its width; of ST only SATL and AOVL, and the read-only registers not at all. -/
def TileRegs.setCreg (r : TileRegs) (c v : Nat) : TileRegs :=
  if c < 4 then { r with xa := r.xa.set c (v % 65536) }
  else if c < 8 then { r with ya := r.ya.set (c - 4) (v % 65536) }
  else if c < 16 then { r with m := r.m.set (c - 8) (v % 2 ^ 32) }
  else if c < 28 then r
  else if c = 28 then { r with satl := (List.range 4).map (fun k => bit v k), aovl := (List.range 4).map (fun k => bit v (4 + k)) }
  else if c = 29 then r
  else if c = 30 then { r with sr := v % 64 }
  else { r with cf := r.cf.set (c - 31) (v % 65536) }

/-! ### The ALU operations (Table 7.5); `o` holds the operands as they stood before the instruction -/

/-- Fold over the four lanes. -/
def lanes (r : TileRegs) (f : TileRegs → Nat → TileRegs) : TileRegs := [0, 1, 2, 3].foldl f r

/-- One D operation of 0x20–0x2D on one lane. -/
def dOp (o r : TileRegs) (opc a b c sh lane : Nat) : TileRegs :=
  let x := o.dOf a
  let y := o.dOf b
  match opc with
  | 0x20 => r.setDS c (o.dS a + o.dS b)
  | 0x21 => r.satD c lane (o.dS a + o.dS b)
  | 0x22 => r.setDS c (o.dS a - o.dS b)
  | 0x23 => r.satD c lane (o.dS a - o.dS b)
  | 0x24 => r.setD c (x &&& y)
  | 0x25 => r.setD c (x ||| y)
  | 0x26 => r.setD c (x ^^^ y)
  | 0x27 => r.setD c (x &&& (0xFFFFF ^^^ y))
  | 0x28 => r.setDS c (min (o.dS a) (o.dS b))
  | 0x29 => r.setDS c (max (o.dS a) (o.dS b))
  | 0x2A => r.setD c x
  | 0x2B => r.setD c (x * 2 ^ sh)
  | 0x2C => r.setD c (x / 2 ^ sh)
  | _ => r.setDS c (o.dS a / (2 ^ sh : Nat))

/-- The ALU operation of a parallel instruction (R223). -/
def alu (o : TileRegs) (opc a b c n sh : Nat) (quad : Bool) : TileRegs :=
  let prod := fun (k : Nat) => o.dS (a + k) * o.dS b
  let vprod := fun (k : Nat) => o.dS (a + k) * o.dS (b + k)
  match opc with
  | 0x01 => lanes o (fun r k => r.setA k k (o.aOf k + prod k))
  | 0x02 => lanes o (fun r k => r.setA k k (o.aOf k - prod k))
  | 0x03 => lanes o (fun r k => r.setA k k (prod k))
  | 0x04 => lanes o (fun r k => r.setA k k (o.dS (c + k) * (2 ^ sh : Nat) + prod k))
  | 0x05 => lanes o (fun r k => r.setA k k (o.aOf k + vprod k))
  | 0x06 => lanes o (fun r k => r.setA k k (vprod k))
  | 0x07 => o.setA n 0 (o.aOf n + vprod 0 + vprod 1 + vprod 2 + vprod 3)
  | 0x08 => (o.setA n 0 (o.aOf n + (o.dS a * o.dS b - o.dS (a + 1) * o.dS (b + 1)))).setA (n + 1) 0
      (o.aOf (n + 1) + (o.dS a * o.dS (b + 1) + o.dS (a + 1) * o.dS b))
  | 0x09 => (o.setA n 0 (o.aOf n + (o.dS a * o.dS b + o.dS (a + 1) * o.dS (b + 1)))).setA (n + 1) 0
      (o.aOf (n + 1) + (o.dS (a + 1) * o.dS b - o.dS a * o.dS (b + 1)))
  | 0x10 => lanes o (fun r k => r.satD (a + k) k (rneShift (o.aOf k) sh))
  | 0x11 => o.satD a 0 (rneShift (o.aOf n) sh)
  | 0x12 => o.setA n 0 (rneShift (o.aOf n) sh)
  | 0x13 => o.setA n 0 (o.aOf n * (2 ^ sh : Nat))
  | 0x14 => o.setDS a (o.aOf n / (2 ^ sh : Nat))
  | 0x15 => let s := o.dS b
            if s < 0 then o.setDS a (o.aOf n * (2 ^ s.natAbs : Nat)) else o.setDS a (o.aOf n / (2 ^ s.natAbs : Nat))
  | 0x16 => if o.aOf n = 0 then { o.setDS a (-1) with z := true } else { o.setD a (ux 56 (o.aOf n)).log2 with z := false }
  | 0x17 => o.setA n 0 (o.dS a * (2 ^ sh : Nat))
  | 0x18 => o.setA n 0 (o.aOf n + o.dS a * (2 ^ sh : Nat))
  | 0x19 => o.setA n 0 ((o.dOf a : Int) + o.dOf (a + 1) * 2 ^ 20 + o.dS (a + 2) * 2 ^ 40)
  | 0x1A => let v := ux 56 (o.aOf n)
            ((o.setD a (field v 0 20)).setD (a + 1) (field v 20 20)).setDS (a + 2) (sx 16 (field v 40 16))
  | 0x1B => lanes o (fun r k => if bit sh k then { r with a := r.a.set k 0 } else r)
  | 0x2E => { o with z := decide (o.dS a = o.dS b), n := decide (o.dS a < o.dS b) }
  | _ =>
    if 0x20 ≤ opc ∧ opc ≤ 0x2D then
      (if quad then lanes o (fun r k => dOp o r opc (a + k) (b + k) (c + k) sh k) else dOp o o opc a b c sh 0)
    else o

/-! ### Addresses and moves (R219 to R222) -/

/-- An address after its update by a modifier (R219). -/
def modify (addr m floor : Nat) : Nat :=
  let step := sx 16 (m % 65536)
  let len := m / 65536 % 65536
  if len ≠ 0 ∧ floor ≤ addr ∧ addr < floor + len ∧ floor + len ≤ 65536 then
    (floor + (((addr : Int) - floor + step) % (len : Int))).toNat
  else ux 16 ((addr : Int) + step)

/-- The update UPD of an address register; `base` is 0 for X and 4 for Y. -/
def updateAddr (o : TileRegs) (base addr upd : Nat) : Nat :=
  match upd with
  | 0 => addr
  | 1 => (addr + 1) % 65536
  | 2 => (addr + 65535) % 65536
  | 3 => (addr + 4) % 65536
  | u => modify addr (nth o.m (base + u - 4) 0) (nth o.cf (base + u - 4) 0)

/-- What a move does: D words loaded, memory words stored, the address register's new value, saturated lanes. -/
structure MoveOut where
  loads : List (Nat × Nat)
  stores : List (Nat × Nat)
  addr : Option (Nat × Nat)
  sats : List Nat

def rowAddr (a : Nat) : Nat := a / 4 * 4

/-- A move field (Table 7.6) on a memory. -/
def move (o : TileRegs) (mem : List (Nat × Nat)) (regs : List Nat) (base f : Nat) : MoveOut :=
  let ar := field f 11 2
  let reg := field f 4 4
  let addr := nth regs ar 0
  let next := some (ar, updateAddr o base addr (field f 8 3))
  let row := rowAddr addr
  match field f 13 3 with
  | 1 => ⟨[(reg, sget 0 mem addr)], [], next, []⟩
  | 2 => ⟨(List.range 4).map (fun k => (4 * (reg % 4) + k, sget 0 mem (row + k))), [], next, []⟩
  | 3 => ⟨[], [(addr, o.dOf reg)], next, []⟩
  | 4 => ⟨[], (List.range 4).map (fun k => (row + k, o.dOf (4 * (reg % 4) + k))), next, []⟩
  | 5 =>
    let v := (List.range 4).map (fun k => rneShift (o.aOf k) o.sr)
    ⟨[], v.zipIdx.map (fun e => (row + e.2, ux 20 (satS 20 e.1))), next, (v.zipIdx.filter (fun e => satS 20 e.1 != e.1)).map Prod.snd⟩
  | _ => ⟨[], [], none, []⟩

def MoveOut.regs (m : MoveOut) (r : TileRegs) (x : Bool) : TileRegs :=
  let r1 := m.loads.foldl (fun r e => r.setD e.1 e.2) r
  let r2 := m.sats.foldl (fun (r : TileRegs) k => { r with satl := r.satl.set k true }) r1
  match m.addr with
  | none => r2
  | some (i, v) => if x then { r2 with xa := r2.xa.set i v } else { r2 with ya := r2.ya.set i v }

def putWords (m : List (Nat × Nat)) (l : List (Nat × Nat)) : List (Nat × Nat) := l.foldl (fun m e => sset 0 m e.1 e.2) m

/-- The system region of the tile's data memories (Table 7.4). -/
def sysRegion : Nat := 0x4000

/-! ### The block mover (R227 to R230) -/

/-- Bytes of an element (Table 7.10). -/
def elemBytes (mode : Nat) : Nat := match mode with | 3 => 2 | 4 => 1 | _ => 4

def Mv.size (m : Mv) : Nat := m.elems * m.rows * elemBytes m.mode
def Mv.step (m : Mv) : Nat := if m.pitch = 0 then m.elems * elemBytes m.mode else m.pitch

/-- A descriptor read from eight words of X memory (Table 7.9). -/
def readMv (w : List Nat) (seq began delay : Nat) : Mv :=
  let g := fun (i : Nat) => nth w i 0
  let m : Mv := ⟨bit (g 1) 15, field (g 1) 12 3, bit (g 1) 16, bit (g 1) 17, (g 0 + field (g 1) 0 12 * 2 ^ 20) * 16, field (g 2) 0 16,
    field (g 3) 0 12, field (g 4) 0 12, g 5, sx 20 (g 6), sx 20 (g 7), seq, began, began⟩
  { m with ends := began + delay + ceilDiv m.size 16 }

/-- The tile word of element `e` of row `j`. -/
def Mv.word (m : Mv) (j e : Nat) : Nat :=
  ux 16 ((m.base : Int) + (j : Int) * m.rowStep + ((e / 4 : Nat) : Int) * m.groupStep + ((e % 4 : Nat) : Int))

/-- The elements in order: row, DRAM address, tile word. -/
def Mv.cells (m : Mv) : List (Nat × Nat × Nat) :=
  (List.range m.rows).flatMap (fun j => (List.range m.elems).map (fun e => (j, m.addr + j * m.step + e * elemBytes m.mode, m.word j e)))

/-- Every byte lies in the permitted range. -/
def Mv.inRange (m : Mv) (lo hi : Nat) : Bool :=
  (List.range m.rows).all (fun j => decide (lo ≤ m.addr + j * m.step) && decide (m.addr + j * m.step + m.elems * elemBytes m.mode ≤ hi))

/-- The tile words a loaded element gives: X word, Y word (Table 7.10). -/
def loadElem (mode : Nat) (yMem : Bool) (v : Nat) : Option Nat × Option Nat :=
  match mode with
  | 0 => if yMem then (none, some (v % 2 ^ 20)) else (some (v % 2 ^ 20), none)
  | 1 => (some (field v 12 20), some (field v 0 12))
  | 2 => (some (field v 0 20), some (ux 20 (sx 12 (field v 20 12))))
  | 3 => (some (ux 20 (sx 12 (field v 4 12))), some (field v 0 4))
  | 4 => if yMem then (none, some (v % 256)) else (some (v % 256), none)
  | _ => (none, none)

/-- The element a store writes from an X and a Y word. -/
def storeElem (mode : Nat) (yMem signExt : Bool) (x y : Nat) : List Byte :=
  let w := if yMem then y else x
  match mode with
  | 0 => u32 (if signExt then ux 32 (sx 20 w) else w)
  | 1 => u32 (x * 4096 + y % 4096)
  | 2 => u32 (x + y % 4096 * 2 ^ 20)
  | 3 => u16 (x % 4096 * 16 + y % 16)
  | 4 => u8 (w % 256)
  | _ => []

/-! ### A run -/

/-- A run in progress: the device with the stores made so far, the tile, cycles passed, the mover queue, whether a store was made, and
the delays of the mover's descriptors still to come, which the environment gives. -/
structure Run where
  s : State
  regs : TileRegs
  x : List (Nat × Nat)
  y : List (Nat × Nat)
  cycles : Nat
  queue : List Mv
  committed : Bool
  delays : List Nat

/-- A store's bytes: all of them, or those up to the end of the 64-byte block in progress (R234). -/
def Mv.storeBytes (m : Mv) (r : Run) : List (Nat × Byte) :=
  m.cells.flatMap (fun e => (storeElem m.mode m.yMem m.signExt (sget 0 r.x e.2.2) (sget 0 r.y e.2.2)).zipIdx.map (fun b => (e.2.1 + b.2, b.1)))

/-- Consecutive bytes gathered into runs, so that whole blocks are written whole. -/
def gather : List (Nat × Byte) → List (Nat × List Byte)
  | [] => []
  | (a, b) :: r =>
    match gather r with
    | (a', l) :: rest => if a' = a + 1 then (a, b :: l) :: rest else (a, [b]) :: (a', l) :: rest
    | [] => [(a, [b])]

/-- The mover of a host job reads these ranges (Table 13.5): each unsound block is counted once. -/
def State.noteCells (s : State) (l : List (Nat × Nat)) : State :=
  let s1 := match l.head?, l.getLast? with
    | some a, some b => (s.touchDram a.1 a.2).touchDram b.1 b.2
    | _, _ => s
  (l.flatMap (fun e => (s.dramRead e.1 e.2).2)).eraseDups.foldl (fun s b => s.badRead 4 b) s1

def State.putBytes (s : State) (l : List (Nat × Byte)) : State := (gather l).foldl (fun s e => s.dramWrite e.1 e.2) s

/-- A finished descriptor takes effect; a load into the system region by a host job aborts with cause 4 (R217). -/
def Run.finish (r : Run) (m : Mv) : Run × Option RunEnd :=
  if 5 ≤ m.mode then (r, none)
  else if m.store then ({ r with s := r.s.putBytes (m.storeBytes r), committed := true }, none)
  else
    let s1 := r.s.noteCells (m.cells.map (fun e => (e.2.1, elemBytes m.mode)))
    let words := m.cells.map (fun e =>
      let d := r.s.dramRead e.2.1 (elemBytes m.mode)
      -- a word any of whose bytes DRAM cannot give reads zero whole (R230)
      (e.1, e.2.2, loadElem m.mode m.yMem (if d.2.isEmpty then leNat d.1 else 0), !d.2.isEmpty))
    if words.any (fun e => decide (e.2.1 < sysRegion)) then ({ r with s := s1 }, some (.abort 4))
    else
      let xs := words.filterMap (fun e => e.2.2.1.1.map (fun v => (e.2.1, v)))
      let ys := words.filterMap (fun e => e.2.2.1.2.map (fun v => (e.2.1, v)))
      let regs := match words.find? (fun e => e.2.2.2) with
        | some e => if r.regs.poison then r.regs else { r.regs with poison := true, poisonSeq := m.seq, poisonRow := e.1 }
        | none => r.regs
      ({ r with s := s1, x := putWords r.x xs, y := putWords r.y ys, regs := regs }, none)

/-- The mover up to the present cycle, at most four descriptors. -/
def Run.pump : Nat → Run → Run × Option RunEnd
  | 0, r => (r, none)
  | n + 1, r =>
    match r.queue with
    | [] => (r, none)
    | m :: rest =>
      if r.cycles < m.began then (r, none)
      else if !m.inRange jobRegionBase jobRegionEnd then ({ r with regs := { r.regs with fault := true } }, some (.abort 3))
      else if r.cycles < m.ends then (r, none)
      else
        let f := ({ r with queue := rest }).finish m
        match f.2 with
        | some e => (f.1, some e)
        | none => Run.pump n f.1

/-- Where execution continues after the instruction at PC: loop ends are evaluated innermost first (R225). -/
def advance : Nat → TileRegs → TileRegs
  | 0, r => { r with pc := (r.pc + 1) % 8192 }
  | n + 1, r =>
    if 0 < r.depth ∧ nth r.le (r.depth - 1) 0 = r.pc then
      let k := r.depth - 1
      let c := (nth r.lc k 0 + 65535) % 65536
      let r1 := { r with lc := r.lc.set k c }
      if c ≠ 0 then { r1 with pc := nth r.ls k 0 } else advance n { r1 with depth := k }
    else { r with pc := (r.pc + 1) % 8192 }

/-- Open a repeat level (R225). -/
def openLoop (r : TileRegs) (count end_ : Nat) : TileRegs :=
  if count = 0 then { r with pc := (end_ + 1) % 8192 }
  else
    let k := r.depth
    { r with
      depth := k + 1, ls := r.ls.set k ((r.pc + 1) % 8192), le := r.le.set k end_, lc := r.lc.set k count, pc := (r.pc + 1) % 8192 }

/-- A branch condition. -/
def condHolds (r : TileRegs) (c : Nat) : Bool :=
  match c with
  | 0 => true
  | 1 => r.z
  | 2 => !r.z
  | 3 => r.n
  | 4 => !r.n
  | 5 => r.satl.any id
  | 6 => r.poison
  | _ => r.fault

/-- A parallel instruction: the operation and both moves from the old operands (R216), then all results at once. -/
def Run.parallel (r : Run) (w : Nat) : Run × Option RunEnd :=
  let o := r.regs
  let mx := move o r.x o.xa 0 (field w 16 16)
  let my := move o r.y o.ya 4 (field w 0 16)
  if (mx.stores ++ my.stores).any (fun e => decide (e.1 < sysRegion)) then (r, some (.abort 4))
  else
    let r1 := alu o (field w 56 8) (field w 52 4) (field w 48 4) (field w 44 4) (field w 42 2) (field w 36 6) (bit w 35)
    let r2 := my.regs (mx.regs r1 true) false
    ({ r with regs := advance 4 r2, x := putWords r.x mx.stores, y := putWords r.y my.stores, cycles := r.cycles + 1 }, none)

/-- A control instruction (Table 7.7), branch targets and loop ends relative to the slot's base. -/
def Run.control (r : Run) (base w : Nat) : Run × Option RunEnd :=
  let g := r.regs
  let next := fun (g : TileRegs) => ({ r with regs := advance 4 g, cycles := r.cycles + 1 }, (none : Option RunEnd))
  let jump := fun (g : TileRegs) (pc : Nat) => ({ r with regs := { g with pc := pc % 8192 }, cycles := r.cycles + 3 }, (none : Option RunEnd))
  let target := base + field w 0 13
  match field w 56 8 with
  | 0x80 => next (g.setD (field w 52 4) (field w 0 20))
  | 0x81 => next (g.setCreg (field w 50 6) (field w 0 32))
  | 0x82 =>
    if bit w 45 then next (g.setCreg (field w 50 6) (ux 32 (g.dS (field w 46 4))))
    else next (g.setD (field w 46 4) (g.creg r.queue.length (field w 50 6)))
  | 0x83 => ({ r with regs := openLoop g (field w 16 16) target, cycles := r.cycles + 1 }, none)
  | 0x84 => ({ r with regs := openLoop g (g.dOf (field w 48 4) % 65536) target, cycles := r.cycles + 1 }, none)
  | 0x85 => if condHolds g (field w 52 4) then jump g target else next g
  | 0x86 => jump { g with stack := (g.pc + 1) % 8192 :: g.stack } target
  | 0x87 =>
    match g.stack with
    | a :: rest => jump { g with stack := rest } a
    | [] => jump g (Config.emptyReturn r.cycles)
  | 0x88 =>
    match r.queue with
    | [a, b, c, d] => ({ r with cycles := max (r.cycles + 1) a.ends, queue := [a, b, c, d] }, none)
    | q =>
      let a := rowAddr (field w 0 16)
      let began := (q.getLast?.map Mv.ends).getD (r.cycles + 1)
      let m := readMv ((List.range 8).map (fun k => sget 0 r.x ((a + k) % 65536))) (g.seq + 1) (max began (r.cycles + 1)) (r.delays.headD 0)
      ({ r with
          queue := q ++ [m], delays := r.delays.drop 1, regs := advance 4 { g with seq := (g.seq + 1) % 16 }
          cycles := r.cycles + 1 }, none)
  | 0x89 =>
    let n := field w 0 3
    if r.queue.length ≤ n then next g
    else ({ r with cycles := max (r.cycles + 1) ((nth (r.queue.map Mv.ends) (r.queue.length - n - 1) 0)) }, none)
  | 0x8A =>
    match r.queue.getLast? with
    | none => ({ r with cycles := r.cycles + 1 }, some (.done (field w 0 20)))
    | some m => ({ r with cycles := max (r.cycles + 1) m.ends }, none)
  | _ => next g

/-- The instruction at a program address: a loaded kernel's; a word the specification does not place reads zero. -/
def fetchKernel (ks : List (Option Kernel)) (pc : Nat) : Nat × Nat :=
  match ks.findSome? (fun o => o.bind (fun k => if k.base ≤ pc ∧ pc < k.base + k.instrs.length then some (nth k.instrs (pc - k.base) 0, k.base)
    else none)) with
  | some e => e
  | none => (0, 0)

/-- One instruction, with the mover brought up to the cycle; the cycle limit is judged after it (R234). -/
def Run.step (r : Run) (limit : Nat) : Run × Option RunEnd :=
  let p := Run.pump 5 r
  match p.2 with
  | some e => (p.1, some e)
  | none =>
    let f := fetchKernel p.1.s.cfg.kernels p.1.regs.pc
    let q := if f.1 / 2 ^ 63 = 0 then p.1.parallel f.1 else p.1.control f.2 f.1
    match q.2 with
    | some (.abort c) => (q.1, some (.abort c))
    | e => if limit ≤ q.1.cycles then (q.1, some (.abort 2)) else (q.1, e)

/-- What an abort leaves of the mover queue: the store in progress completes its current 64-byte block (R234). -/
def Run.drain (r : Run) : Run :=
  match r.queue with
  | [] => r
  | m :: _ =>
    if !m.store || r.cycles ≤ m.began || !m.inRange jobRegionBase jobRegionEnd then { r with queue := [] }
    else
      let all := m.storeBytes r
      let busy := m.ends - ceilDiv m.size 16
      let k := (r.cycles - busy) * 16
      let head := all.take k
      let rest := all.drop k
      let tail := match rest with
        | e :: _ => if k = 0 then [] else rest.takeWhile (fun x => x.1 / 64 == e.1 / 64)
        | [] => []
      { r with s := r.s.putBytes (head ++ tail), queue := [], committed := r.committed || decide (0 < k) }

/-! ### Verification of a kernel (R226, R236) -/

/-- The fields an operation uses: DA, DB, DC, AN, SH, QUAD, and the largest SH. -/
def aluUses (opc : Nat) : Option (Bool × Bool × Bool × Bool × Option Nat × Bool) :=
  match opc with
  | 0x00 => some (false, false, false, false, none, false)
  | 0x01 | 0x02 | 0x03 | 0x05 | 0x06 => some (true, true, false, false, none, false)
  | 0x04 => some (true, true, true, false, some 35, false)
  | 0x07 | 0x08 | 0x09 => some (true, true, false, true, none, false)
  | 0x10 => some (true, false, false, false, some 40, false)
  | 0x11 => some (true, false, false, true, some 63, false)
  | 0x12 | 0x13 => some (false, false, false, true, some 63, false)
  | 0x14 => some (true, false, false, true, some 36, false)
  | 0x15 => some (true, true, false, true, none, false)
  | 0x16 | 0x19 | 0x1A => some (true, false, false, true, none, false)
  | 0x17 | 0x18 => some (true, false, false, true, some 63, false)
  | 0x1B => some (false, false, false, false, some 63, false)
  | 0x2A => some (true, false, true, false, none, true)
  | 0x2B | 0x2C | 0x2D => some (true, false, true, false, some 19, true)
  | 0x2E => some (true, true, false, false, none, false)
  | o => if 0x20 ≤ o ∧ o ≤ 0x29 then some (true, true, true, false, none, true) else none

def moveOk (f : Nat) : Bool :=
  match field f 13 3 with
  | 0 => f == 0
  | 1 | 3 => field f 0 4 == 0
  | 2 | 4 => field f 0 4 == 0 && field f 6 2 == 0
  | 5 => field f 0 8 == 0
  | _ => false

/-- D registers an operation writes. -/
def aluWrites (opc a c : Nat) (quad : Bool) : List Nat :=
  let span := fun (i n : Nat) => (List.range n).map (fun k => (i + k) % 16)
  match opc with
  | 0x10 => span a 4
  | 0x11 | 0x14 | 0x15 | 0x16 => [a]
  | 0x1A => span a 3
  | o => if 0x20 ≤ o ∧ o ≤ 0x2D then (if quad then span c 4 else [c]) else []

def moveWrites (f : Nat) : List Nat :=
  match field f 13 3 with
  | 1 => [field f 4 4]
  | 2 => (List.range 4).map (fun k => 4 * field f 4 2 + k)
  | _ => []

/-- One instruction's own form: opcode, unused fields, cregs, double writes. -/
def instrOk (w : Nat) : Bool :=
  let opc := field w 56 8
  let unused := fun (used : Nat) => (w % 2 ^ 56) &&& ((2 ^ 56 - 1) ^^^ used) == 0
  let f := fun (hi lo : Nat) => (2 ^ (hi - lo + 1) - 1) * 2 ^ lo
  if opc < 0x80 then
    match aluUses opc with
    | none => false
    | some (da, db, dc, an, sh, q) =>
      (da || field w 52 4 == 0) && (db || field w 48 4 == 0) && (dc || field w 44 4 == 0) && (an || field w 42 2 == 0) &&
        (match sh with | none => field w 36 6 == 0 | some m => decide (field w 36 6 ≤ m)) && (q || !bit w 35) && field w 32 3 == 0 &&
        (!(opc == 0x08 || opc == 0x09) || field w 42 2 % 2 == 0) && moveOk (field w 16 16) && moveOk (field w 0 16) &&
        (aluWrites opc (field w 52 4) (field w 44 4) (bit w 35) ++ moveWrites (field w 16 16) ++ moveWrites (field w 0 16)).Nodup
  else
    match opc with
    | 0x80 => unused (f 55 52 + f 19 0)
    | 0x81 => unused (f 55 50 + f 31 0) && decide (field w 50 6 ≤ 38) && !(decide (16 ≤ field w 50 6) && decide (field w 50 6 ≤ 27)) &&
        field w 50 6 != 29 && (field w 50 6 != 28 || field w 8 24 == 0)
    | 0x82 => unused (f 55 45) && decide (field w 50 6 ≤ 38) &&
        (!bit w 45 || (!(decide (16 ≤ field w 50 6) && decide (field w 50 6 ≤ 27)) && field w 50 6 != 29 && field w 50 6 != 28))
    | 0x83 => unused (f 31 16 + f 12 0)
    | 0x84 => unused (f 51 48 + f 12 0)
    | 0x85 => unused (f 55 52 + f 12 0) && decide (field w 52 4 ≤ 7)
    | 0x86 => unused (f 12 0)
    | 0x87 => unused 0
    | 0x88 => unused (f 15 0)
    | 0x89 => unused (f 2 0) && decide (field w 0 3 ≤ 3)
    | 0x8A => unused (f 19 0)
    | _ => false

def isRep (w : Nat) : Bool := field w 56 8 == 0x83 || field w 56 8 == 0x84
def isJump (w : Nat) : Bool := field w 56 8 == 0x85 || field w 56 8 == 0x86

/-- The loops of a kernel: the index of each REP and its end. -/
def loopsOf (l : List Nat) : List (Nat × Nat) := (l.zipIdx.filter (fun e => isRep e.1)).map (fun e => (e.2, field e.1 0 13))

def inBody (p : Nat) (e : Nat × Nat) : Bool := decide (e.1 < p) && decide (p ≤ e.2)

/-- R226: loops lie in the kernel, nest, go no deeper than four, end at no jump, and no jump crosses into another set of loop bodies. -/
def loopsOk (l : List Nat) : Bool :=
  let ls := loopsOf l
  ls.all (fun e => decide (e.1 < e.2) && decide (e.2 < l.length)) &&
    ls.all (fun e => ls.all (fun g => !inBody g.1 e || decide (g.2 ≤ e.2))) &&
    ls.all (fun e => decide ((ls.filter (fun g => inBody (e.1 + 1) g)).length ≤ 4)) &&
    ls.all (fun e => !([0x83, 0x84, 0x85, 0x86, 0x87, 0x8A] : List Nat).contains (field (nth l e.2 0) 56 8)) &&
    l.zipIdx.all (fun e => !isJump e.1 || (decide (field e.1 0 13 < l.length) && ls.all (fun g => inBody e.2 g == inBody (field e.1 0 13) g)))

/-- Instruction indices reachable within one subprogram from an index: a call continues after itself. -/
def reach (l : List Nat) : Nat → List Nat → List Nat → List Nat
  | 0, seen, _ => seen
  | _, seen, [] => seen
  | n + 1, seen, p :: todo =>
    if seen.contains p || l.length ≤ p then reach l n seen todo
    else
      let w := nth l p 0
      let next := match field w 56 8 with
        | 0x85 => if field w 52 4 = 0 then [field w 0 13] else [field w 0 13, p + 1]
        | 0x87 | 0x8A => []
        | 0x83 | 0x84 => [p + 1, field w 0 13 + 1]
        | _ => [p + 1]
      reach l n (p :: seen) (next ++ todo)

/-- The static depth of calls from an index does not exceed `n` (R226). -/
def callsOk (l : List Nat) : Nat → Nat → Bool
  | 0, p => (reach l (3 * l.length + 3) [] [p]).all (fun i => field (nth l i 0) 56 8 != 0x86)
  | n + 1, p => (reach l (3 * l.length + 3) [] [p]).all (fun i => field (nth l i 0) 56 8 != 0x86 || callsOk l n (field (nth l i 0) 0 13))

/-- The header and contents of an image (Table 7.12); none when a field is out of range or the length does not match. -/
def readKernel (b : List Byte) (base : Nat) : Option Kernel :=
  let n := rd b 6 2
  let nx := rd b 10 2
  let ny := rd b 12 2
  let limit := rd b 16 4
  let words := fun (o k : Nat) => (List.range k).map (fun i => rd b (o + 4 * i) 4)
  let xs := words (208 + 8 * n) nx
  let ys := words (208 + 8 * n + 4 * nx) ny
  if rd b 0 4 ≠ 0x4B4E4C31 || rd b 4 2 ≠ 1 || n < 1 || 3072 < n || 16384 < nx || 16384 < ny || !zeroAt b 14 2 || limit < 64 || 100032 < limit ||
      limit % 64 ≠ 0 || !zeroAt b 24 40 || b.length ≠ 208 + 8 * n + 4 * nx + 4 * ny || n ≤ rd b 8 2 || (xs ++ ys).any (fun v => decide (2 ^ 20 ≤ v))
  then none
  else some ⟨rd b 20 4, base, rd b 8 2, limit, (List.range n).map (fun i => rd b (208 + 8 * i) 8), xs, ys⟩

/-- R236 but for DIGEST and SIGNATURE. -/
def Kernel.verified (k : Kernel) : Bool := k.instrs.all instrOk && loopsOk k.instrs && callsOk k.instrs 4 k.entry

end Sys2Proof.Machine
end

