-- ==== Sys2Proof/Machine/Tile.lean ====
section
/-! DEFINITION. Tiles, jobs and dispatch (R209 to R211, R231 to R241): the dispatcher, completion, aborts, sparing, and the commands of group
0x06. -/

namespace Sys2Proof.Machine

def State.tileOf (s : State) (p : Nat) : Tile := nth s.tiles.tiles p Tile.reset
def State.modPool (s : State) (f : TilePool → TilePool) : State := { s with tiles := f s.tiles }
def State.modTile (s : State) (p : Nat) (f : Tile → Tile) : State := s.modPool (fun q => { q with tiles := upd q.tiles p f })

/-- One cycle of a tile at 1.0 GHz. -/
def cycleTicks : Nat := ticksPerNs

def JobKind.code : JobKind → Nat
  | .slow _ _ _ => 0
  | .trigger _ _ _ => 1
  | .host _ _ _ _ => 2

/-- The JOB tag: the host's JOB_ID, or the quire's low bits with the group. -/
def JobKind.tag : JobKind → Nat
  | .slow _ q g => (q * 256 + g) % 2 ^ 32
  | .trigger _ q g => (q * 256 + g) % 2 ^ 32
  | .host _ id _ _ => id

/-! ### Dispatch (R210) -/

/-- A running job covers the same points of the same line as a slow-time job. -/
def State.sameRunning (s : State) (l g : Nat) : Bool :=
  s.tiles.tiles.any (fun t => match t.job with
    | some (⟨.slow a _ b, _, _⟩, _) => a == l && b == g
    | _ => false)

/-- A slow-time job that an earlier one for the same points holds back. -/
def State.heldBack (s : State) (j : Job) : Bool :=
  match j.kind with
  | .slow l q g => s.sameRunning l g || s.tiles.ready.any (fun k => match k.kind with
      | .slow a r b => a == l && b == g && decide (r < q)
      | _ => false)
  | _ => false

/-- Of two jobs the one that became ready first; the first of them when both did at once. -/
def Job.earlier (a b : Job) : Job := if b.readyAt < a.readyAt then b else a

/-- The ready job to start next on a tile: by class, then in order of readiness (R210); a job returned by an abort goes to another tile
(R234). -/
def State.nextJob (s : State) (p : Nat) : Option Job :=
  [0, 1, 2].findSome? (fun c =>
    match s.tiles.ready.filter (fun j => j.kind.code == c && j.notOn != some p && !s.heldBack j) with
    | [] => none
    | j :: r => some (r.foldl Job.earlier j))

/-- A free active tile: in the map, serviceable, with no job, and not to be vacated for a test or as wearing (R210, R238). -/
def State.tileFree (s : State) (p : Nat) : Bool :=
  let u := s.hUnit kindTile p
  s.tiles.map.contains (some p) && (s.tileOf p).job.isNone && u.serves && (!u.wantsSpare || (s.spareFor kindTile p).isNone)

/-- The words of a value split at bit 20. -/
def split20 (v : Nat) : List Nat := [v % 2 ^ 20, v / 2 ^ 20]

/-- A line's armed point conditions that evaluate a quire (R272). -/
def State.quireConds (s : State) (l q : Nat) : List (Nat × EvalSpan) :=
  (s.trig.conds.take 16).zipIdx.filterMap (fun e =>
    ((e.1.spans.filter (fun x => x.cond.line == l && decide (x.from_ ≤ q) &&
      (match x.until_ with | some t => decide (q < t) | none => true))).head?).map (fun x => (e.2, x)))

/-- A kind-3 condition holds no BASE for any of 4 096 points from `4096 g`, or their accumulators were zeroed in the quire (R246). -/
def State.rebaseDue (s : State) (l q g : Nat) (e : EvalSpan) : Bool :=
  e.cond.kind == 3 && ((s.slowOf l).forTriggers.any (fun v => v.fsn / 32 == q && v.zeroed) ||
    (e.pts.filter (fun p => p.1 / 4096 == g)).all (fun p => p.2.base.isNone))

/-- The job descriptor, 64 words (Tables 7.11 and 8.3). What the specification gives a system kernel no value for (its cycle limit, its staging
addresses and its configuration index) is a free value. -/
def State.jobWords (s : State) (k : JobKind) : List Nat :=
  let tag := split20 k.tag
  let open_ := fun (i : Nat) => Config.jobWord k.code i k.tag % 2 ^ 20
  match k with
  | .slow l q g =>
    let f := s.feltOf l
    let half := b2n (s.feltCfg l).half
    let blocks := ceilDiv f.points 16
    let rows := (f.quireRows q)
    let n := (s.slowCfgFor l q).stateBytes
    let lost := if ((s.slowOf l).queue.head?.map QuireJob.quire) = some q then (s.slowOf l).chainFor else 0
    [0, open_ 1] ++ tag ++ [l, half, rows.length] ++ split20 (s.slotAddr l q / 16) ++ [16 * g, min 16 (blocks - 16 * g)] ++
      split20 ((s.stateBase l + 256 * g * n) / 16) ++ [n / 16, open_ 14, open_ 15, open_ 16, open_ 17,
      max ((rows.head?.map FeltRow.chain).getD 0) lost] ++ split20 (q % 2 ^ 40) ++ List.replicate 43 0
  | .trigger l q g =>
    let n := (s.feltOf l).points
    let sheets := ((s.slowOf l).forTriggers.filter (fun v => v.fsn / 32 == q)).length
    let conds := s.quireConds l q
    [1, open_ 1] ++ tag ++ [l, sheets] ++ split20 (4096 * g) ++ [min 4096 (n - 4096 * g), open_ 9, open_ 10, open_ 11] ++
      split20 ((trigRegionBase + 8 * 4096 * g) / 16) ++ [maskOf (conds.map Prod.fst), open_ 15, open_ 16, open_ 17,
      maskOf ((conds.filter (fun e => s.rebaseDue l q g e.2)).map Prod.fst)] ++ split20 (q % 2 ^ 40) ++ List.replicate 43 0
  | .host slot _ args _ =>
    let limit := match nth s.cfg.kernels slot none with | some k => k.limit | none => 0
    [2, limit / 64] ++ tag ++ List.replicate 17 0 ++ split20 (jobRegionBase / 16) ++ [0] ++ args.flatMap split20 ++ List.replicate 24 0

/-! ### Host kernels as time passes (R229) -/

/-- The tile whose host kernel is due for its next instruction: the one furthest behind, the lowest-numbered of several. -/
def State.nextTile (s : State) : Option (Nat × Nat) :=
  s.tiles.tiles.zipIdx.foldl (fun m e =>
    match e.1.job with
    | some (⟨.host _ _ _ _, _, _⟩, start) =>
      let x := start + e.1.run.cycles * cycleTicks
      if e.1.run.ended.isSome || s.now ≤ x then m
      else (match m with | some (_, y) => if x < y then some (e.2, x) else m | none => some (e.2, x))
    | _ => m) none

/-- The run of the host job on a tile. -/
def State.hostRun (s : State) (p : Nat) : Run :=
  let t := s.tileOf p
  ⟨s, t.regs, t.x, t.y, t.run.cycles, t.run.queue, t.run.committed, t.run.delays⟩

/-- Put a run back on its tile. -/
def Run.settle (r : Run) (p : Nat) (e : Option RunEnd) : State :=
  r.s.modTile p (fun t => { t with regs := r.regs, x := r.x, y := r.y, run := ⟨r.cycles, r.queue, r.committed, r.delays, e⟩ })

/-- One instruction of the host kernel on a tile. -/
def State.stepTile (s : State) (p : Nat) : State :=
  let limit := match (s.tileOf p).job with
    | some (⟨.host slot _ _ _, _, _⟩, _) => (match nth s.cfg.kernels slot none with | some k => k.limit | none => 0)
    | _ => 0
  let r := (s.hostRun p).step limit
  r.1.settle p r.2

/-- Instructions of the host kernels in the order of their instants, up to the present one. -/
def State.runTilesGo : Nat → State → State
  | 0, s => s
  | n + 1, s =>
    match s.nextTile with
    | some (p, _) => State.runTilesGo n (s.stepTile p)
    | none => s

/-- Bring every running host kernel up to the present instant: 36 tiles of at most 100 032 cycles (R237). -/
def State.runTiles (s : State) : State := State.runTilesGo 3601200 s

/-- JOB_DISPATCH: the next ready job starts on a free active tile (R210, R212, R231, R235). A host kernel's initial data take `setup` cycles. -/
def State.dispatch (s0 : State) (p setup : Nat) (delays : List Nat) : State :=
  let s := s0.runTiles
  if !s.tileFree p || 2 ≤ s.pwr.st || s.dbg.cpcHalted then s
  else match s.nextJob p with
    | none => s
    | some j =>
      let kernel := match j.kind with | .host slot _ _ _ => nth s.cfg.kernels slot none | _ => none
      let xs := match kernel with | some k => k.xinit | none => []
      let ys := match kernel with | some k => k.yinit | none => []
      let pc := match kernel with | some k => k.base + k.entry | none => 0
      let s1 := s.modPool (fun q => { q with ready := q.ready.erase j })
      s1.modTile p (fun t => { t with
        regs := TileRegs.entry pc
        x := ssetL 0 t.x 0x4000 xs
        y := ssetL 0 (ssetL 0 t.y 0x4000 ys) 0xFFC0 (s.jobWords j.kind)
        job := some (j, s.now)
        run := if kernel.isSome then ⟨setup, [], false, delays, none⟩ else TileRun.reset })

/-! ### How a job ends (R233, R234) -/

/-- A tile is freed with its completion record. -/
def State.freeTile (s : State) (p : Nat) (c : Completion) : State :=
  match (s.tileOf p).job with
  | none => s
  | some (_, start) =>
    (s.modTile p (fun t => { t with job := none, last := some c })).modPool (fun q => { q with
      busy := (q.busy.filter (fun e => decide (s.now < e.2 + ticksPerSecond))) ++ [(start, s.now)] })

/-- EV_TILE_JOB_DONE and the end of the command (R234, R460). -/
def State.hostDone (s : State) (p id serial status cycles : Nat) : State :=
  let s1 := s.modPool (fun q => { q with hostJobs := satAdd q.hostJobs 1 })
  let s2 := s1.raiseNow 0x0603 sevInfo (srcTile p) (u32 id ++ u16 status ++ u32 cycles) none
  match s2.pendOf 0x0603 serial with
  | none => s2
  | some c => (s2.strike 0x0603 serial).applied c srcDevice (s2.effStamp s2.now none) s2.now status

/-- JOB_DONE (R233): the running job has come to DONE. A host kernel has been run to its end; a system kernel's results are those of the
rules it carries out (R232), its code, cycles and BMST those the tile gives. -/
def State.jobDone (s0 : State) (p : Nat) (f : TileFacts) : State :=
  let s := s0.runTiles
  match (s.tileOf p).job with
  | none => s
  | some (j, start) =>
    match j.kind with
    | .host _ id _ serial =>
      let t := s.tileOf p
      match t.run.ended with
      | some (.done code) =>
        if s.now < start + t.run.cycles * cycleTicks then s
        else (s.freeTile p ⟨p, 2, id, code, t.run.cycles, t.regs.bmst 0, 0⟩).hostDone p id serial stOk t.run.cycles
      | _ => s
    | k =>
      if s.now < start + f.cycles * cycleTicks then s
      else s.freeTile p ⟨p, k.code, k.tag, f.code, f.cycles, f.bmst % 2 ^ 25, 0⟩

/-- EV_TILE_ABORT (R234, R241). -/
def State.abortEvent (s : State) (p cause : Nat) (k : JobKind) (pc : Nat) : State :=
  (s.modPool (fun q => { q with aborts := satAdd q.aborts 1 })).raiseNow 0x0601 sevNotice (srcTile p)
    (u8 cause ++ u8 k.code ++ u16 pc ++ u32 k.tag) (some [])

/-- The status of an aborted host job (R234). -/
def abortStatus (cause : Nat) : Nat := if cause = 2 then stOverBudget else if cause = 1 || cause = 5 then stHwFault else stDenied

/-- The trigger evaluation of a group of a quire is lost (R248). -/
def State.loseTrigger (s : State) (l q g : Nat) : State :=
  let n := min 4096 ((s.feltOf l).points - 4096 * g)
  let s1 := { s with trig := { s.trig with lines := upd s.trig.lines l (fun x => { x with
    lost := x.lost ++ [(q, g)], lostEvals := satAdd x.lostEvals n }) } }
  s1.raiseLine 0x0705 sevNotice l s1.now (u32 q ++ u32 n) (some [])

/-- An uncommitted job is ready again, for another tile (R234). -/
def State.redispatch (s : State) (p : Nat) (j : Job) : State :=
  s.modPool (fun x => { x with ready := { j with notOn := some p } :: x.ready, redispatches := satAdd x.redispatches 1 })

/-- The job on a tile is aborted with a cause (R234). Causes 2 to 4 of a host job are those its program comes to. -/
def State.abortJob (s0 : State) (p cause : Nat) (f : TileFacts) : State :=
  let s := s0.runTiles
  match (s.tileOf p).job with
  | none => s
  | some (j, start) =>
    let outside := cause == 1 || cause == 5
    let done := fun (s : State) => if outside then s.detect kindTile p else s
    match j.kind with
    | .host _ id _ serial =>
      let r := s.hostRun p
      if !outside && (s.tileOf p).run.ended ≠ some (.abort cause) then s
      else
        let q := (if outside then { r with cycles := (s.now - start) / cycleTicks } else r).drain
        let s1 := (q.settle p none).freeTile p ⟨p, 2, id, 0, q.cycles, q.regs.bmst 0, cause⟩
        done ((s1.abortEvent p cause j.kind q.regs.pc).hostDone p id serial (abortStatus cause) q.cycles)
    | .slow l q _ =>
      let s1 := (s.freeTile p ⟨p, 0, j.kind.tag, 0, f.cycles, f.bmst % 2 ^ 25, cause⟩).abortEvent p cause j.kind f.pc
      done (if f.committed then s1.loseQuire l q else s1.redispatch p j)
    | .trigger l q g =>
      let s1 := (s.freeTile p ⟨p, 1, j.kind.tag, 0, f.cycles, f.bmst % 2 ^ 25, cause⟩).abortEvent p cause j.kind f.pc
      done (if f.committed then s1.loseTrigger l q g else s1.redispatch p j)

/-- TILE_ABORT; a withdrawal (cause 5) comes about within the tile's sparing and on a tile due for its test. -/
def State.tileAbort (s : State) (p cause : Nat) (f : TileFacts) : State :=
  if cause < 1 || 5 < cause || (cause = 5 && (s.hUnit kindTile p).due.isNone && (s.hUnit kindTile p).st ≠ 4) then s
  else s.abortJob p cause f

/-- TILE_SPARED (R238): a spare takes the logical number of a tile due for its test, wearing or retired, and the test begins. -/
def State.tileSpared (s : State) (p : Nat) (f : TileFacts) : State :=
  let u := s.hUnit kindTile p
  -- a tile retired without a spare has lost its number: the lowest one unserved is filled again
  let number := if u.gone && u.noSpare then s.tiles.map.findIdx? Option.isNone else s.tiles.map.findIdx? (· == some p)
  match number, s.spareFor kindTile p with
  | some n, some q =>
    if !u.wantsSpare && u.st ≠ 3 then s
    else
      let s1 := if (s.tileOf p).job.isSome then s.abortJob p 5 f else s
      let s2 := s1.modPool (fun x => { x with map := x.map.set n (some q) })
      (s2.spareTakes kindTile p q).raiseNow 0x0602 sevNotice (srcTile p) (u8 n ++ u8 q ++ u8 u.spareCause) none
  | _, _ => s

/-! ### Commands -/

/-- The first base in the user region with room for `n` instructions beside the other slots' kernels. -/
def freeBase (ks : List (Option Kernel)) (n : Nat) : Option Nat :=
  let used := ks.filterMap (fun o => o.map (fun k => (k.base, k.base + k.instrs.length)))
  let starts := 0x1400 :: used.map Prod.snd
  let fits := starts.filter (fun b => decide (b + n ≤ 0x2000) && used.all (fun e => decide (b + n ≤ e.1) || decide (e.2 ≤ b)))
  match fits with
  | [] => none
  | a :: r => some (r.foldl min a)

/-- A job of a slot is queued or running. -/
def State.slotBusy (s : State) (slot : Nat) : Bool :=
  s.jobsLeft (fun k => match k with | .host a _ _ _ => a == slot | _ => false)

/-- `tile.kernel_load` (R236, Table 7.14). -/
def tileKernelLoad : Handler := fun c s =>
  let p := c.arg
  let slot := rd p 0 1
  let first := bit (rd p 1 1) 0
  let final := bit (rd p 1 1) 1
  let n := rd p 2 2
  let off := rd p 4 4
  let load := nth s.tiles.loads slot none
  if 3 < slot || 4000 < n || (!first && load.isNone) then reject s stBadArg
  else
    let len := if first then rd p 8 4 else (load.map KernelLoad.length).getD 0
    if len < off + n then reject s stBadArg
    else if first && s.slotBusy slot then reject s stInUse
    else
      let image := ssetL 0 (if first then [] else (load.map KernelLoad.image).getD []) off ((p.drop 12).take n)
      let s1 := s.modPool (fun q => { q with loads := q.loads.set slot (some ⟨len, image⟩) })
      if !final then okay s1
      else
        let s2 := s1.modPool (fun q => { q with loads := q.loads.set slot none })
        let others := s.cfg.kernels.zipIdx.map (fun e => if e.2 = slot then none else e.1)
        let bytes := sgetL 0 image 0 (min len 160208)
        match readKernel (bytes ++ zeros (b2n (decide (160208 < len)))) 0 with
        | none => reject s stKernelBad
        | some k =>
          if !k.verified || sha384 (bytes.take 64 ++ bytes.drop 208) != (bytes.drop 64).take 48 then
            (match freeBase others k.instrs.length with | none => reject s stNoResource | some _ => reject s stKernelBad)
          else match freeBase others k.instrs.length with
            | none => reject s stNoResource
            | some b =>
              if s.sec.lifecycle ≠ 0 && !(s.ownerKeyOk && c.facts.sigOk) then reject (s.authFailed 0x0601 0) stAuthFail
              else
                let s3 := s2.modCfg (fun g => { g with kernels := g.kernels.set slot (some { k with base := b }) })
                okay (s3.raiseNow 0x0604 sevInfo srcCpc (u8 slot ++ u32 k.id) none)

/-- `tile.kernel_unload`. -/
def tileKernelUnload : Handler := fun c s =>
  let slot := rd c.arg 0 1
  if 3 < slot || (nth s.cfg.kernels slot none).isNone then reject s stBadArg
  else if s.slotBusy slot then reject s stInUse
  else okay (s.modCfg (fun g => { g with kernels := g.kernels.set slot none }))

/-- Host jobs queued and not yet started. -/
def State.hostQueued (s : State) : Nat := (s.tiles.ready.filter (fun j => j.kind.code == 2)).length

/-- `tile.run` (Table 7.15). -/
def tileRun : Handler := fun c s =>
  let p := c.arg
  let slot := rd p 0 1
  if 3 < slot || (nth s.cfg.kernels slot none).isNone then reject s stBadArg
  else if 64 ≤ s.hostQueued then reject s stBusy
  else if !s.mem.available then reject s stHwFault
  else
    let n := s.tiles.serial
    let job := JobKind.host slot (rd p 4 4) ((List.range 8).map (fun i => rd p (8 + 4 * i) 4)) n
    let r := pendWith s c 0x0603 [n] none
    (r.1, (r.2.addJobs [job]).modPool (fun q => { q with serial := q.serial + 1 }))

/-- PSTATE of a physical tile (Table 7.16). -/
def State.tileState (s : State) (p : Nat) : Nat :=
  match (s.hUnit kindTile p).st with
  | 1 => 1
  | 2 => 2
  | 3 => 3
  | _ => 0

/-- Active-tile occupancy over the last second, in 1/1 000. -/
def State.tileBusy (s : State) : Nat :=
  let lo := s.now - ticksPerSecond
  let span := fun (a b : Nat) => min b s.now - max a lo
  let past := (s.tiles.busy.map (fun e => span e.1 e.2)).sum
  let now_ := (s.tiles.tiles.map (fun t => match t.job with | some (_, a) => span a s.now | none => 0)).sum
  let n := (s.tiles.map.filter Option.isSome).length
  if n = 0 then 0 else (past + now_) * 1000 / (n * ticksPerSecond)

def State.tileBody (s : State) : List Byte :=
  s.tiles.map.flatMap (fun o => u8 (o.getD 0xFF)) ++ (List.range 36).flatMap (fun p => u8 (s.tileState p)) ++
    s.cfg.kernels.flatMap (fun o => match o with | none => zeros 8 | some k => u32 k.id ++ u16 k.base ++ u16 k.instrs.length) ++
    u64 jobRegionBase ++ u32 s.tiles.aborts ++ u32 s.tiles.redispatches ++ u32 s.tiles.hostJobs ++ u32 s.tileBusy

/-- `tile.status` (Table 7.16). -/
def tileStatus : Handler := fun c s =>
  let s1 := if bit (rd c.arg 0 1) 0 then
    (s.modPool (fun q => { q with aborts := 0, redispatches := 0, hostJobs := 0 })).clearSat 0x0604 0 else s
  okWith s1 s.tileBody

end Sys2Proof.Machine
end

