-- ==== Sys2Proof/Machine/TimeBase.lean ====
section
/-! DEFINITION. The time base (R278 to R290, R306, R307, R568): discipline, thermos, holdover, steps, and the commands
`tb.config` and `tb.status`. The effects that a step has on the lines stand with the lines. -/

namespace Sys2Proof.Machine

/-! ### Shared operations -/

/-- One microsecond and forty nanoseconds in ticks. -/
def usTicks : Nat := ticksPerUs

def State.tiuOf (s : State) (u : Nat) : Tiu := nth s.tiu.units u default

def State.modUnit (s : State) (u : Nat) (f : Tiu → Tiu) : State := s.modTiu (fun q => { q with units := upd q.units u f })

/-- A unit takes an event stamp when one is free (R291): the first active unit that has no arming and no stamp in hand. -/
def State.freeUnit (s : State) : Option Nat :=
  (List.range 5).find? (fun u =>
    let x := nth s.tiu.units u default
    (s.hUnit kindTiu u).serves && x.arming.isNone && decide (x.busyUntil ≤ s.now))

/-- Stamp an edge (R291, R294): to 1/256 cell with a locked free unit, to the cell otherwise; an edge that finds no unit is
counted in NO_UNIT. Answers the stamped instant, whether the fraction is valid, and whether a unit took it. -/
def State.takeStamp (s : State) (t : Nat) : Nat × Bool × Bool × State :=
  match s.freeUnit with
  | some u =>
    let ok := (nth s.tiu.units u default).locked
    let s1 := s.modTiu (fun q => { q with units := upd q.units u (fun x => { x with busyUntil := s.now + 20 * ticksPerCell }) })
    (if ok then t else s.floorCell t, ok, true, s1)
  | none => (s.floorCell t, false, false, s.modTiu (fun q => { q with noUnit := satAdd q.noUnit 1 }))

/-! ### The steering word (R278) -/

/-- A steering word `dt` ticks on its way towards a value: no faster than SLEW_PPB a second. -/
def steerMoved (slewPpb dt : Nat) (old goal : Int) : Int :=
  let lim : Int := slewPpb * 1000 * dt / ticksPerSecond
  clampI (old - lim) (old + lim) goal

/-- The steering word now. -/
def State.steerNow (s : State) : Int := steerMoved s.cfg.tb.slewPpb (s.now - s.tb.steerSince) s.tb.steer s.tb.steerGoal

/-- The steering word is to become `base + corr`, within ±10 ppm of REFCLK_10M: it moves there under SLEW_PPB; `corr` is the part that removes an
offset and is taken back (R278, Table 9.7). -/
def State.steerTo (s : State) (base corr : Int) : State :=
  let w := s.steerNow
  let g := clampI (-10000000) 10000000 (base + corr)
  s.modTb (fun b => { b with steer := w, steerSince := s.now, steerGoal := g, steerCorr := if corr = 0 then 0 else g - base })

/-- The steering word without the part that removes an offset. -/
def TimeBase.steerBase (b : TimeBase) : Int := b.steerGoal - b.steerCorr

/-- Ticks of one true second on the sample clock, the device's own steering taken out (R284). -/
def State.trueSecond (s : State) : Int := (ticksPerSecond : Int) + rneDiv (s.steerNow * ticksPerSecond) (10 ^ 12)

/-- The signed distance of an instant from the nearest second boundary of the device's scale. -/
def State.offsetOf (s : State) (x : Int) : Int :=
  let r : Int := (x - s.tb.secTick) % (ticksPerSecond : Int)
  if 2 * r ≤ (ticksPerSecond : Int) then r else r - ticksPerSecond

/-- The boundary of the device's scale nearest to an instant, as a tick. -/
def State.nearestBoundary (s : State) (x : Int) : Nat := (x - s.offsetOf x).toNat

/-- Picoseconds of a tick count: 7.8125 ps each. -/
def ticksToPs (d : Int) : Int := rneDiv (d * 125) 16

/-- Give the servo the offset of the device's boundary nearest to an instant that a second truly begins at (R284, R300); a second measurement of one
boundary takes the first one's place. -/
def State.measure (s : State) (x : Int) : State :=
  let m := s.nearestBoundary x
  let d := s.offsetOf x
  s.modTb (fun b => { b with
    measuredPrev := if b.measured.map Prod.fst = some m then b.measuredPrev else b.measured
    measured := some (m, d)
    measureNew := true
    offsetPs := ticksToPs d })

/-- The offset an edge would give, kept for the edge that confirms it: alone it is no measurement (R284). -/
def State.measureFirst (s : State) (x : Int) : State :=
  s.modTb (fun b => { b with measured := some (s.nearestBoundary x, s.offsetOf x), measuredPrev := none, measureNew := false })

/-- The source has been regained: the offset found is the one last measured (R288). -/
def State.regain (s : State) : State := s.modTb (fun b => { b with regained := true, regainPs := if b.regained then b.regainPs else b.offsetPs })

/-- The selected source is locked (R284, R288, R302). -/
def State.sourceLocked (s : State) : Bool :=
  match s.cfg.tb.source with
  | 0 => true
  | 1 => s.tb.ppsLocked && s.tb.ptpValid
  | 2 => s.tb.ppsLocked
  | 3 => s.tb.ptpValid
  | _ => s.tb.trailLocked && !s.trail.tooDeep

/-- Disciplined: a selected source is locked and there is no holdover (R281). -/
def State.disciplined (s : State) : Bool := s.cfg.tb.source != 0 && s.sourceLocked && s.tb.holdover.isNone

/-- The mean of the steering word over the last sixty seconds (R288). -/
def State.steerMean (s : State) : Int :=
  let l := s.tb.steerHist.take 60
  if l.isEmpty then s.steerNow else rneDiv (l.foldl (· + ·) 0) l.length

/-- Enter holdover (R288): the steering word is held at its mean, the cause reported. A holdover already running goes on. -/
def State.enterHoldover (s : State) (cause : Nat) : State :=
  match s.tb.holdover with
  | some _ => s
  | none =>
    ((s.steerTo s.steerMean 0).modTb (fun b => { b with holdover := some (cause, s.now), regained := false })).raiseNow
      0x0805 sevDegraded srcTimeBase (u8 cause) none

/-- Leave holdover with EV_TB_HOLDOVER_END (R288). -/
def State.endHoldover (s : State) : State :=
  match s.tb.holdover with
  | some (_, since) =>
    (s.modTb (fun b => { b with holdover := none })).raiseNow 0x0806 sevInfo srcTimeBase
      (u32 ((s.now - since) / ticksPerSecond) ++ leBytesS 4 (rneDiv s.tb.regainPs 1000)) none
  | none => s

/-- Count a second number that the second source reports for a boundary, once a second; a second without a report ends a run of consecutive ones
(R286, R568). -/
def State.reportSecond (s : State) (boundary reported : Nat) : State :=
  if s.tb.secCounted = some boundary then s
  else
    let d : Int := (reported : Int) - (s.secondAt boundary).1
    let next := s.tb.secCounted.map (· + ticksPerSecond) == some boundary
    let runs := fun (n : Nat) => if next then n + 1 else 1
    s.modTb (fun b => { b with
      secCounted := some boundary
      secDelta := d
      disagree := if d = 0 then 0 else runs b.disagree
      agree := if d = 0 then runs b.agree else 0
      secondFixed := b.secondFixed || (decide (d = 0) && decide (3 ≤ runs b.agree)) })

/-- Three seconds of disagreeing numbers schedule a step of SECOND alone (R286). -/
def State.secondStep (s : State) : State :=
  if 3 ≤ s.tb.disagree && s.tb.pendStep.isNone then
    let at_ := s.boundaryAtOrBefore s.now + ticksPerSecond
    s.modTb (fun b => { b with
      pendStep := some ⟨at_, false, at_, (((s.secondAt at_).1 : Int) + b.secDelta).toNat⟩
      disagree := 0 })
  else s

/-! ### PPS (R284) -/

/-- The boundaries of consecutive edges that agree with one another within 1.0 µs, with a new one: those up to the last that disagrees with it
are dropped. -/
def acquire (sec : Int) (l : List Nat) (b : Nat) : List Nat :=
  let off := l.zipIdx.filter (fun e => decide (usTicks < ((b : Int) - e.1 - (l.length - e.2 : Nat) * sec).natAbs))
  l.drop ((off.getLast?.map (fun e => e.2 + 1)).getD 0) ++ [b]

/-- An edge at PPS_IN (R284, R291). While the source is locked an edge within the window is accepted; before, one that agrees with the edge before it is. -/
def State.ppsEdge (s : State) (rising : Bool) : State :=
  if rising != (s.cfg.tb.ppsEdge == 0) then s
  else
    let q := s.takeStamp s.now
    let s1 := q.2.2.2.tiuEvent 1 0 s.now
    if s.cfg.tb.source ≠ 1 ∧ s.cfg.tb.source ≠ 2 then s1
    else
      let b : Int := (q.1 : Int) - s.cfg.tb.ppsDelay
      let sec := s.trueSecond
      let feed := fun (s : State) =>
        if q.2.2.1 then s.measure b
        else s.modTb (fun x => { x with servoDiscarded := satAdd x.servoDiscarded 1 })
      match s.tb.ppsLocked, s.tb.ppsLast with
      | true, some last =>
        let k : Int := max 1 (rneDiv (b - last) ticksPerSecond)
        if (b - last - k * sec).natAbs ≤ usTicks then
          feed (s1.modTb (fun x => { x with
            ppsLast := some b.toNat
            ppsMissed := satAdd x.ppsMissed ((k - 1).toNat - x.ppsOutRun)
            ppsOutRun := 0 }))
        else s1.modTb (fun x => { x with ppsOutOfWindow := satAdd x.ppsOutOfWindow 1, ppsOutRun := x.ppsOutRun + 1 })
      | _, _ =>
        let acq := acquire sec s.tb.ppsAcq b.toNat
        let s2 := s1.modTb (fun x => { x with ppsAcq := acq })
        let s3 := if 2 ≤ acq.length then feed s2 else if q.2.2.1 then s2.measureFirst b else s2
        if 10 ≤ acq.length then
          (s3.modTb (fun x => { x with ppsLocked := true, ppsLast := some b.toNat, ppsAcq := [], ppsOutRun := 0 })).regain
        else s3

/-- Three consecutive expected edges missing or out of window lose the source (R284, R288). -/
def State.ppsLost (s : State) : State :=
  match s.tb.ppsLocked, s.tb.ppsLast with
  | true, some last =>
    if decide ((last : Int) + 3 * s.trueSecond + usTicks ≤ s.now) && (s.cfg.tb.source == 1 || s.cfg.tb.source == 2) then
      (s.modTb (fun x => { x with
        ppsLocked := false, ppsAcq := [], regained := false, ppsOutRun := 0
        ppsMissed := satAdd x.ppsMissed (3 - x.ppsOutRun) })).enterHoldover 0
    else s
  | _, _ => s

/-! ### PTP (R289) -/

/-- Nanoseconds in ticks, and a correction of 2^-16 ns in ticks. -/
def nsTicks (n : Nat) : Int := (n * ticksPerNs : Nat)
def corrTicks (c : Int) : Int := rneDiv (c * ticksPerNs) 65536

/-- The order of two transmitters' data sets (PRESUMED: the comparison of IEEE 1588-2019): between different grandmasters priority 1, class, accuracy,
variance, priority 2 and identity; for one grandmaster the steps removed, then the sender. -/
def PtpMaster.better (a b : PtpMaster) : Bool :=
  let key := fun (m : PtpMaster) =>
    if a.ann.grandmaster = b.ann.grandmaster then [m.ann.stepsRemoved, m.sender]
    else [m.ann.priority1, m.ann.clockClass, m.ann.accuracy, m.ann.variance, m.ann.priority2, m.ann.grandmaster]
  match ((key a).zip (key b)).find? (fun e => e.1 != e.2) with
  | some e => decide (e.1 < e.2)
  | none => false

/-- The Announce interval of a transmitter, in ticks. -/
def PtpMaster.interval (m : PtpMaster) : Nat :=
  if 0 ≤ m.ann.logInterval then ticksPerSecond * 2 ^ m.ann.logInterval.toNat else ticksPerSecond / 2 ^ (-m.ann.logInterval).toNat

/-- A transmitter may be chosen (PRESUMED: the defaults of IEEE 1588-2019): two Announce messages within four intervals, the latest no older than three. -/
def State.ptpQualified (s : State) (m : PtpMaster) : Bool :=
  decide (s.now < m.last + 3 * m.interval) && (match m.before with | some x => decide (m.last ≤ x + 4 * m.interval) | none => false) &&
    decide (m.ann.stepsRemoved < 255)

/-- The best time transmitter among those heard (R289); another choice ends what was in hand with the one before. -/
def State.ptpChoose (s : State) : State :=
  let l := s.tb.ptp.masters.filter s.ptpQualified
  let best := (l.find? (fun m => l.all (fun n => !n.better m))).map PtpMaster.sender
  if best = s.tb.ptp.best then s
  else s.modTb (fun b => { b with ptp := { b.ptp with best := best, wait := none, sync := none, req := none, delay := none } })

/-- An Announce is heard. -/
def State.ptpAnnounce (s : State) (sender : Nat) (a : PtpAnnounce) : State :=
  let before := (s.tb.ptp.masters.find? (fun m => m.sender == sender)).map PtpMaster.last
  s.modTb (fun b => { b with ptp := { b.ptp with
    masters := (⟨sender, a, s.now, before⟩ :: b.ptp.masters.filter (fun m => m.sender != sender)).take 16 } })

/-- A Sync's origin time is known: the second it names would have begun at tick `m0`, less the path delay. The device sends its Delay_Req; with a path
delay the offset goes to the servo under SOURCE 3, and the second number is reported. -/
def State.ptpSynced (s : State) (arrival second nanos : Nat) (corr : Int) : State :=
  let m0 : Int := (arrival : Int) - nsTicks nanos - corr
  let p := s.tb.ptp
  let seq := (p.reqSeq + 1) % 65536
  let s1 := (s.modTb (fun b => { b with
    ptpValid := true, ptpLast := some s.now
    ptp := { b.ptp with wait := none, sync := some (second, m0), reqSeq := seq, req := some (seq, s.now, second, m0) } })).emit1
      (.ptpDelayReq s.cfg.tb.ptpPort seq s.now)
  let x : Int := m0 - p.delay.getD 0
  let s2 := if s.cfg.tb.source = 3 && p.delay.isSome then (s1.measure x).regain
    else if s.cfg.tb.source = 1 && s1.tb.ppsLocked then s1.regain else s1
  if s.cfg.tb.source = 1 ∨ s.cfg.tb.source = 3 then s2.reportSecond (s2.nearestBoundary x) second else s2

/-- A received IEEE 1588 message (R289): one on the other port, or an Announce without the PTP timescale, is counted and ignored; another domain or
transport is ignored; Sync, Follow_Up and Delay_Resp are taken from the best transmitter alone. -/
def State.ptpRx (s0 : State) (m : PtpMsg) : State :=
  let s := s0.ptpChoose
  let ignored := s.modTb (fun b => { b with ptpIgnored := satAdd b.ptpIgnored 1 })
  if m.port ≠ s.cfg.tb.ptpPort then ignored
  else if m.domain ≠ s.cfg.tb.ptpDomain ∨ m.transport ≠ s.cfg.tb.ptpTransport then s
  else match m.kind with
    | .announce a => if a.timescale then (s.ptpAnnounce m.sender a).ptpChoose else ignored
    | .sync seq twoStep second nanos c =>
      if s.tb.ptp.best ≠ some m.sender then s
      else
        let s1 := s.modTb (fun b => { b with ptpSync := satAdd b.ptpSync 1 })
        if twoStep then s1.modTb (fun b => { b with ptp := { b.ptp with wait := some (seq, s.now, corrTicks c) } })
        else s1.ptpSynced s.now second nanos (corrTicks c)
    | .followUp seq second nanos c =>
      match s.tb.ptp.wait with
      | some w => if s.tb.ptp.best = some m.sender && w.1 = seq then s.ptpSynced w.2.1 second nanos (w.2.2 + corrTicks c) else s
      | none => s
    | .delayResp seq toUs second nanos c =>
      match s.tb.ptp.req with
      | some r =>
        if s.tb.ptp.best = some m.sender && toUs && r.1 = seq then
          let m1 : Int := (r.2.1 : Int) - (nsTicks nanos - corrTicks c) - ((second : Int) - r.2.2.1) * ticksPerSecond
          s.modTb (fun b => { b with ptp := { b.ptp with req := none, delay := some (rneDiv (r.2.2.2 - m1) 2) } })
        else s
      | none => s
    | .other => s

/-- No valid Sync for 3 s loses the PTP part (R284, R288). -/
def State.ptpTimeout (s : State) : State :=
  match s.tb.ptpValid, s.tb.ptpLast with
  | true, some last =>
    if last + 3 * ticksPerSecond ≤ s.now && (s.cfg.tb.source == 1 || s.cfg.tb.source == 3) then
      (s.modTb (fun b => { b with ptpValid := false, regained := false })).enterHoldover 1
    else s
  | _, _ => s

/-! ### The servo (R278, R285) -/

/-- Round an offset to whole cells, in ticks: a step moves the cell count by whole cells. -/
def wholeCells (d : Int) : Int := rneDiv d ticksPerCell * ticksPerCell

/-- Measurements of two consecutive seconds (R285). -/
def twoMeasured (b : TimeBase) : Bool :=
  match b.measured, b.measuredPrev with
  | some m, some p => decide (((m.1 : Int) - p.1 - (ticksPerSecond : Int)).natAbs ≤ ticksPerSecond / 2)
  | _, _ => false

/-- The steering word is held (R280, R288): REFCLK_10M is lost or the synthesiser not locked to it, or a holdover's source is not locked or, after a
cause other than 3, not regained. -/
def State.steerHeld (s : State) : Bool :=
  !s.tb.refclk || !s.tb.synthLocked ||
    (match s.tb.holdover with | some (cause, _) => !s.sourceLocked || (cause != 3 && !s.tb.regained) | none => false)

/-- The step that the latest two measurements call for (R285): at the next boundary of the present scale the count moves by whole cells. -/
def State.phaseStep (s : State) (cells : Int) : PendStep :=
  let x := s.boundaryAtOrBefore s.now + ticksPerSecond
  let sec := (s.secondAt x).1
  if 0 < cells then ⟨x, true, (((x : Int) + cells) - ticksPerSecond).toNat, sec - 1⟩ else ⟨x, true, ((x : Int) + cells).toNat, sec⟩

/-- The servo's run once per second (R285, R286). A measurement serves one run: its offset is steered out when it is no larger than STEP_NS; otherwise, or
before the time base is set, measurements in two consecutive seconds schedule a step at the next boundary; before the time base is set a zero offset
schedules one too, which fixes the phase and moves nothing (R568). While the steering word is held the servo does neither. -/
def State.servo (s : State) : State :=
  let s0 := s.modTb (fun b => { b with steerHist := (s.steerNow :: b.steerHist).take 101, measureNew := false })
  if s.cfg.tb.source = 0 then (if s.steerHeld then s0 else s0.steerTo 0 0).modTb (fun b => { b with phaseFixed := true })
  else
    let s1 := s0.secondStep
    let b := s.tb
    match b.measured, b.measureNew with
    | some (_, d), true =>
      let cells := wholeCells d
      let step := decide (s.cfg.tb.stepNs * 1000 < (ticksToPs d).natAbs) || (!b.timeSet && (decide (cells ≠ 0) || !b.phaseFixed))
      if !s.tb.refclk || !s.tb.synthLocked || (b.timeSet && s.steerHeld) then s1
      else if step then
        if twoMeasured b && s1.tb.pendStep.isNone then s1.modTb (fun b => { b with pendStep := some (s.phaseStep cells) }) else s1
      else if s.steerHeld then s1
      else s1.steerTo b.steerBase (-(ticksToPs d))
    | _, _ => if s.steerHeld then s1 else s1.steerTo b.steerBase 0

/-! ### Thermos (R281 to R283) -/

/-- The steering word changed by no more than `lim` in each of the last ten windows of 10 s. -/
def windowsCalm (h : List Int) (lim : Nat) : Bool :=
  decide (101 ≤ h.length) &&
    (List.range 10).all (fun i => decide ((nth h (10 * i) 0 - nth h (10 * i + 10) 0).natAbs ≤ lim))

/-- Seconds of REFCLK_10M presence counted (R281). -/
def State.warmElapsed (s : State) : Nat := if s.tb.refclk then (s.now - s.tb.presentSince) / ticksPerSecond else 0

/-- The thermos declares the time base warm (R281). -/
def State.thermosWarm (s : State) : State :=
  if !s.tb.warm && s.tb.refclk && decide (s.cfg.tb.warmS ≤ s.warmElapsed) &&
      (!s.disciplined || windowsCalm s.tb.steerHist (s.cfg.tb.warmPpb * 10)) then
    (s.modTb (fun b => { b with warm := true, warmFrom := some (s.boundaryAtOrAfter s.now) })).raiseNow
      0x0803 sevInfo srcTimeBase (u32 (satTo 4 s.warmElapsed)) none
  else s

/-- A steering excursion makes the time base not warm (R282). -/
def State.thermosNotWarm (s : State) : State :=
  if s.tb.warm && s.disciplined && decide (11 ≤ s.tb.steerHist.length) &&
      decide (40 * s.cfg.tb.warmPpb < (nth s.tb.steerHist 0 0 - nth s.tb.steerHist 10 0).natAbs) then
    (s.modTb (fun b => { b with warm := false, warmFrom := none, presentSince := s.now, steerHist := b.steerHist.take 60 })).raiseNow
      0x0804 sevNotice srcTimeBase (u8 1) none
  else s

/-- REFCLK_10M is lost (R280, R282, R288). -/
def State.refclkLost (s : State) : State :=
  if !s.tb.refclk then s
  else
    let warm := s.tb.warm
    let s1 := (s.modTb (fun b => { b with
      refclk := false, refLostAt := s.now, synthLocked := false, warm := false, warmFrom := none })).raiseNow
      0x0801 sevFault srcTimeBase [] none
    let s2 := if warm then s1.raiseNow 0x0804 sevNotice srcTimeBase (u8 0) none else s1
    s2.enterHoldover 3

/-- REFCLK_10M has returned and the synthesiser has relocked (R280): the warm-up starts again. -/
def State.refclkRestored (s : State) : State :=
  if s.tb.refclk then s
  else
    (s.modTb (fun b => { b with refclk := true, synthLocked := true, presentSince := s.now })).raiseNow
      0x0802 sevInfo srcTimeBase (u32 (satTo 4 ((s.now - s.tb.refLostAt) / ticksPerUs))) none

/-- The conditions of R288 under which holdover ends at a second boundary. -/
def State.holdoverOver (s : State) : Bool :=
  match s.tb.holdover with
  | some (cause, _) =>
    s.isBoundary s.now && s.tb.refclk && s.tb.synthLocked &&
      (s.cfg.tb.source == 0 ||
        (s.sourceLocked && (cause == 3 || s.tb.regained) && decide (s.tb.offsetPs.natAbs ≤ 50000)))
  | none => false

/-! ### Setting (R568) -/

/-- Phase and second number have both been fixed: the time base is set. -/
def State.timeFixed (s : State) : State :=
  s.modTb (fun b => { b with timeSet := b.timeSet || ((b.phaseFixed || s.cfg.tb.source == 0) && b.secondFixed) })

/-- The time base is set at a boundary at which phase and second number have both been fixed. -/
def State.setTime (s : State) : State :=
  if s.isBoundary s.now then s.timeFixed else s

/-- A reading of the scale in ticks: SECOND and the count within it. -/
def readingTicks (r : Nat × Nat) : Nat := r.1 * ticksPerSecond + r.2

/-- A step goes back: the scale reads less after it than before. -/
def PendStep.back (p : PendStep) (before : Nat × Nat) : Bool :=
  decide ((p.newSecond : Int) * ticksPerSecond + ((p.at_ : Int) - p.newSecTick) < readingTicks before)

/-- The reading that the scale before the latest step gave at the first instant of the present one. -/
def TimeBase.readBefore (b : TimeBase) : Int := (b.prevVal : Int) * ticksPerSecond + ((b.scaleFrom : Int) - b.prevTick)

/-- A PPS_OUT pulse begins now (R290): at a boundary, but not at a backward step, whether that is about to be made or has just been made; and at a forward
step, for the new second. -/
def State.ppsOutDue (s : State) : Bool :=
  let read := s.secondAt s.now
  if s.tb.scaleFrom = s.now then decide (s.tb.readBefore ≤ readingTicks read)
  else s.isBoundary s.now && (match s.tb.pendStep with | some p => !(decide (p.at_ ≤ s.now) && p.back read) | none => true)

/-- PPS_OUT rises at each boundary while enabled and powered (R290). -/
def State.ppsOutRise (s : State) : State :=
  if s.cfg.tb.ppsOut && decide (s.pwr.st ≤ 2) && s.ppsOutDue then
    (s.modTb (fun b => { b with ppsOutHigh := true, ppsOutSince := s.now })).tiuEvent 6 0 s.now
  else s

/-- The pulse ends PPS_OUT_WIDTH after its leading edge (R290). -/
def State.ppsOutFall (s : State) : State :=
  if s.tb.ppsOutHigh && decide (s.tb.ppsOutSince + s.cfg.tb.ppsOutWidth * ticksPerMs ≤ s.now) then
    s.modTb (fun b => { b with ppsOutHigh := false })
  else s

/-! ### Commands -/

def readTbCfg (p : List Byte) : TbCfg :=
  ⟨rd p 0 1, rd p 1 1, rd p 2 1, rd p 3 1, rd p 4 1, bit (rd p 5 1) 0, rd p 6 2, rdS p 8 4, rd p 12 4, rd p 16 2,
    rd p 18 2, rd p 20 2⟩

/-- The ranges of Table 9.9. -/
def tbCfgOk (g : TbCfg) : Bool :=
  decide (g.source ≤ 4) && decide (g.ppsEdge ≤ 1) && decide (g.ptpPort ≤ 1) && decide (g.ptpTransport ≤ 1) &&
    decide (1 ≤ g.ppsOutWidth ∧ g.ppsOutWidth ≤ 500) && decide (-16777216 ≤ g.ppsDelay ∧ g.ppsDelay ≤ 16777215) &&
    decide (100 ≤ g.stepNs ∧ g.stepNs ≤ 1000000000) && decide (g.warmS ≤ 7200) &&
    decide (1 ≤ g.warmPpb ∧ g.warmPpb ≤ 10000) && decide (1 ≤ g.slewPpb ∧ g.slewPpb ≤ 5000)

/-- The node is configured as root, or as a trail member (R298, R309). -/
def TrailCfg.root (g : TrailCfg) : Bool := bit g.flags 0
def TrailCfg.member (g : TrailCfg) : Bool := g.flags % 16 / 2 != 0
def TrailCfg.port (g : TrailCfg) (p : Nat) : Bool := bit g.flags (p + 1)

/-- `tb.config` (R307, Table 9.10). -/
def tbConfig : Handler := fun c s =>
  let g := readTbCfg c.arg
  if !tbCfgOk g then reject s stBadArg
  else if (s.pendOp 0x0801).isSome then reject s stBusy
  else if (g.source = 4 && s.cfg.trail.root) || (g.source ≠ 4 && s.cfg.trail.member && !s.cfg.trail.root) then
    reject s stWrongState
  else pendWith s c 0x0801 [0] none

/-- The cause that the EV_TB_HOLDOVER of a change of SOURCE carries: that of the part not yet valid; none when every part
is (R307). -/
def changeCause (source : Nat) (pps ptp : Bool) : Option Nat :=
  match source with
  | 1 => if !pps then some 0 else if !ptp then some 1 else none
  | 2 => if !pps then some 0 else none
  | 3 => some 1
  | 4 => some 2
  | _ => none

/-- The settings of `tb.config` take effect at the first second boundary at or after apply-at (R307). -/
def State.tbConfigEffect (s : State) : State :=
  match s.pendOp 0x0801 with
  | none => s
  | some p =>
    let due := s.boundaryAtOrAfter (p.applyAt.getD p.accepted)
    if s.now < due then s
    else
      let g := readTbCfg p.data
      let old := s.cfg.tb
      let s1 := (((s.steerTo s.tb.steerBase s.tb.steerCorr).dropOp 0x0801).modCfg (fun r => { r with tb := g })).modTb (fun b =>
        if g.ptpPort = old.ptpPort && g.ptpDomain = old.ptpDomain && g.ptpTransport = old.ptpTransport then b else { b with ptp := PtpRun.reset })
      let s2 := if g.ppsOut then s1 else s1.modTb (fun b => { b with ppsOutHigh := false })
      let usesPps := fun n => n == 1 || n == 2
      let s3 := if g.source = old.source then s2
        else
          let s4 := s2.modTb (fun b => { b with
            ppsLocked := b.ppsLocked && usesPps g.source && usesPps old.source
            ppsAcq := [], trailLocked := false, ptpValid := b.ptpValid && g.source != 3
            regained := false, measured := none, measuredPrev := none, measureNew := false, agree := 0, disagree := 0 })
          if g.source = 0 then
            let s5 := s4.steerTo 0 0
            match s5.tb.holdover with
            | some (3, _) => s5
            | some _ => s5.endHoldover
            | none => s5
          else match changeCause g.source s4.tb.ppsLocked s4.tb.ptpValid with
            | some cause =>
              if s4.tb.holdover.isNone then s4.enterHoldover cause
              else (s4.modTb (fun b => { b with holdover := b.holdover.map (fun h => (if h.1 = 3 then 3 else cause, h.2)) })).raiseNow
                0x0805 sevDegraded srcTimeBase (u8 cause) none
            | none => s4
      s3.applied p srcDevice (s3.effStamp due none) due stOk

/-- STATE of `tb.status` (Table 9.11): 0 not set, 1 acquiring, 2 locked, 3 holdover, 4 free-run. -/
def State.tbState (s : State) : Nat :=
  if s.tb.holdover.isSome then 3
  else if s.cfg.tb.source = 0 then 4
  else if s.sourceLocked then 2
  else if s.tb.timeSet || s.tb.measured.isSome || !s.tb.ppsAcq.isEmpty then 1 else 0

def State.tbBody (s : State) : List Byte :=
  let b := s.tb
  u8 s.tbState ++ u8 s.cfg.tb.source ++
    u8 (b2n b.refclk + 2 * b2n b.synthLocked + 4 * b2n (b.warm && !s.notWarmFlag) + 8 * b2n s.holdoverFlag) ++ u8 0 ++
    leBytesS 4 (satS 32 b.offsetPs) ++ leBytesS 4 s.steerNow ++ u32 (satTo 4 s.warmElapsed) ++
    u32 (match b.holdover with | some h => satTo 4 ((s.now - h.2) / ticksPerSecond) | none => 0) ++
    u32 b.steps ++ u32 b.ppsMissed ++ u32 b.ppsOutOfWindow ++ u32 b.servoDiscarded ++ u32 b.ptpSync ++ u32 b.ptpIgnored

/-- `tb.status` (Table 9.11), with read-and-clear. -/
def tbStatus : Handler := fun c s =>
  let s1 := if bit (rd c.arg 0 1) 0 then
    (s.modTb (fun b => { b with
      steps := 0, ppsMissed := 0, ppsOutOfWindow := 0, servoDiscarded := 0, ptpSync := 0, ptpIgnored := 0 })).clearSat 0x0802 0
    else s
  okWith s1 s.tbBody

end Sys2Proof.Machine
end

