-- ==== Sys2Proof/Machine/Tiu.lean ====
section
/-! DEFINITION. The time-interval units (R291 to R297, R308): allocation, armings, results, self-check, and the commands
`tiu.measure`, `tiu.launch_zero` and `tiu.status`. -/

namespace Sys2Proof.Machine

/-- Active units. -/
def State.activeUnits (s : State) : Nat := ((List.range 5).filter (fun u => (s.hUnit kindTiu u).serves)).length

/-- The arming limit of R291: active units less two, never more than two. -/
def State.armLimit (s : State) : Nat := min 2 (s.activeUnits - 2)

/-- Armings in place, a running launch-zero measurement with its shots counting as one. -/
def State.armings (s : State) : Nat :=
  (s.tiu.units.filter (fun x => match x.arming with | some a => !a.zero | none => false)).length + b2n s.tiu.launchRun.isSome

/-- Interval armings accepted and not yet placed. -/
def State.armPending (s : State) : Nat := (s.pend.filter (fun p => p.op == 0x0803)).length

/-- Why no further arming can be accepted now: the arming limit is reached, and it is only because a unit's EV_NO_SPARE is unresolved that it is
(R291, R295, R514). -/
def State.armRefusal (s : State) : Option Nat :=
  let n := s.armings + s.armPending
  let lost := ((List.range 5).filter (fun u => !(s.hUnit kindTiu u).serves && s.lacksSpare kindTiu u)).length
  if n < s.armLimit then none else if n < min 2 (s.activeUnits + lost - 2) then some stNoSpare else some stNoResource

/-- A source code and its argument are in range (Table 9.3). -/
def tiuSrcOk (s : State) (code arg : Nat) (start : Bool) : Bool :=
  match code with
  | 0 => decide (arg ≤ 3)
  | 3 => s.lineEnabled arg
  | 5 => decide (arg ≤ 2)
  | 7 => start
  | n => decide (n ≤ 6)

/-- `tiu.measure` (R308). -/
def tiuMeasure : Handler := fun c s =>
  let p := c.arg
  if !tiuSrcOk s (rd p 0 1) (rd p 1 1) true || !tiuSrcOk s (rd p 2 1) (rd p 3 1) false || 1 < rd p 4 1 ||
      rd p 8 4 < 1 || 2000000000 < rd p 8 4 then reject s stBadArg
  else match s.armRefusal with
    | some st => reject s st
    | none => if c.applyAt = 0#96 && s.freeUnit.isNone then reject s stNoResource else pendWith s c 0x0803 [0] none

/-- The arming a payload describes, placed at an instant; source 7 starts it at that instant's cell boundary (Table 9.3). -/
def State.readArming (s : State) (p : Pend) (at_ : Nat) : Arming :=
  ⟨rd p.data 0 1, rd p.data 1 1, rd p.data 2 1, rd p.data 3 1, rd p.data 4 1 == 1, rd p.data 8 4, at_, p.mb, p.seq, false,
    if rd p.data 0 1 = 7 then some (s.floorCell at_) else none, []⟩

/-- An arming is placed on a free active unit at apply-at or acceptance; when the limit or the units leave none, the
command ends with ST_NO_RESOURCE (R291, R308). -/
def State.armEffect (s : State) : State :=
  match s.pendOp 0x0803 with
  | none => s
  | some p =>
    let due := p.applyAt.getD p.accepted
    if s.now < due then s
    else
      let s1 := s.dropOp 0x0803
      match s.freeUnit, decide (s.armings < s.armLimit) with
      | some u, true =>
        (s1.modUnit u (fun x => { x with arming := some (s.readArming p due) })).applied p srcDevice (s1.effStamp due none) due stOk
      | _, _ => s1.applied p srcDevice (s1.effStamp due none) due stNoResource

/-- The result word of Table 9.4. -/
def resultWord (interval : Int) (unit_ : Nat) (unlocked aborted timeout below : Bool) : Nat :=
  ux 40 interval * 2 ^ 24 + unit_ % 16 * 16 + b2n unlocked * 8 + b2n aborted * 4 + b2n timeout * 2 + b2n below

/-- An arming ends: the unit is free. EV_TIU_DONE carries the word and the command's sequence (R293); a shot of a launch-zero measurement gives its
interval to the measurement, and without one it is a miss (R296). -/
def State.tiuDone (s : State) (u : Nat) (a : Arming) (word : Nat) (interval : Option Int) : State :=
  let s1 := s.modUnit u (fun x => { x with arming := none })
  if a.zero then
    s1.modTiu (fun q => { q with launchRun := q.launchRun.map (fun r => { r with hits := r.hits ++ interval.toList }) })
  else s1.raiseNow 0x0808 sevInfo (srcTiu u) (u64 word ++ u16 a.seq) none

/-- The result of a start and a stop (R292, R293): below two fraction steps it is zero, and out of lock it is to the whole cell. -/
def State.tiuMeasured (s : State) (u : Nat) (a : Arming) (start stop : Nat) : State :=
  let locked := (s.tiuOf u).locked
  let raw : Int := (stop : Int) - start
  let d : Int := if locked then raw else wholeCells raw
  if raw.natAbs < 2 then
    (s.modTiu (fun q => { q with belowRes := satAdd q.belowRes 1 })).tiuDone u a (resultWord 0 u (!locked) false false true) (some 0)
  else s.tiuDone u a (resultWord d u (!locked) false false false) (some d)

/-- TIU_RESULT (R292): the arming's first start and first stop have come; `start` and `stop` are the edges of sources that no row brings. In ordered mode a
stop before the start is ignored and counted. -/
def State.tiuResult (s : State) (u start stop : Nat) : State :=
  match (s.tiuOf u).arming with
  | none => s
  | some a =>
    let given := fun (src x : Nat) => if tiuHidden src && decide (a.armedAt ≤ x) then some x else none
    match a.startAt.or (given a.start start) with
    | none => s
    | some x =>
      let early := fun (y : Nat) => !a.signed && decide (y < x)
      let count := fun (s : State) (n : Nat) => s.modTiu (fun q => { q with wrongOrder := satAdd q.wrongOrder n })
      if tiuHidden a.stop then
        if stop < a.armedAt || a.armedAt + a.timeout * ticksPerCell < max x stop then s
        else if early stop then count s 1 else s.tiuMeasured u a x stop
      else
        match a.stops.find? (fun y => !early y) with
        | some y => if a.armedAt + a.timeout * ticksPerCell < x then s else (count s (a.stops.filter early).length).tiuMeasured u a x y
        | none => s

/-- An arming with no result within TIMEOUT cells ends (R292). -/
def State.tiuTimeout (s : State) (u : Nat) : State :=
  match (s.tiuOf u).arming with
  | none => s
  | some a =>
    if a.armedAt + a.timeout * ticksPerCell ≤ s.now then
      (s.modTiu (fun q => { q with timeouts := satAdd q.timeouts (b2n (!a.zero)) })).tiuDone u a
        (resultWord 0 u (!(s.tiuOf u).locked) false true false) none
    else s

/-- An arming on a withdrawn unit ends with ABORTED (R295). -/
def State.tiuAbort (s : State) (u : Nat) : State :=
  match (s.tiuOf u).arming with
  | none => s
  | some a => s.tiuDone u a (resultWord 0 u (!(s.tiuOf u).locked) true false false) none

/-! ### Launch zero (R296, R297) -/

/-- `tiu.launch_zero` (R296, Table 9.13): its first spot shot is scheduled at once, and the comparator takes its threshold. -/
def tiuLaunchZero : Handler := fun c s =>
  let p := c.arg
  let l := rd p 0 1
  let t := rd p 1 1
  let shots := rd p 2 1
  let thresh := rd p 4 2
  let lz := rdS p 8 4
  if s.badLine l || shots < 1 || 64 < shots || thresh < 10 || 500 < thresh || thresh % 10 != 0 || lz < -2097152 ||
      2097152 < lz || (match s.plan? l with | some q => decide (q.tones.length ≤ t) | none => false) then reject s stBadArg
  else if s.tiu.launchRun.isSome then reject s stBusy
  else match s.plan? l with
    | none => reject s stWrongState
    | some q =>
      if !s.emit.level || (s.gridOf l).spot.isSome then reject s stWrongState
      else match s.armRefusal with
        | some st => reject s st
        | none =>
          match s.spotInstant l q t (c.at_ s) true with
          | none => reject s stPlanConflict
          | some x =>
            let s1 := (s.modGrid l (fun g => { g with spot := some (x, t), spotAt := (c.at_ s, true) })).modTiu
              (fun u => { u with launchRun := some ⟨l, t, shots, lz, shots, []⟩, thresh := thresh })
            pendWith s1 c 0x0804 [l] none

/-- Least and greatest of a list. -/
def spread (l : List Int) : Int :=
  match l with
  | [] => 0
  | a :: r => r.foldl max a - r.foldl min a

/-- LAUNCH_ZERO_DONE of a line: once every shot of its measurement has been fired and measured or missed, the launch zero is the mean interval plus BOARD_LZ, rounded to 1/256 cell; with
nothing but misses the result is withheld (R296). The event's stamp is to the whole cell of the instant of this row (DESIGN CHOICE: R29 counts launch-zero
measurements among the fractional stamps and names no instant). -/
def State.launchZeroDone (s : State) (line : Nat) : State :=
  match s.tiu.launchRun, s.pendOp 0x0804 with
  | some r, some p =>
    if r.line ≠ line || 0 < r.left || s.tiu.units.any (fun u => match u.arming with | some a => a.zero | none => false) then s
    else
      let misses := r.shots - r.hits.length
      let s1 := (s.modTiu (fun q => { q with launchRun := none })).dropOp 0x0804
      let done := fun (s2 : State) => s2.applied p srcDevice (s.effStamp s.now (some r.line)) s.now stOk
      if r.hits.isEmpty then
        done (s1.raiseLine 0x0809 sevInfo r.line s.now (leBytesS 4 0 ++ u8 r.shots ++ u8 misses ++ u16 0) none)
      else
        let lz := rneDiv (r.hits.foldl (· + ·) 0 + r.boardLz * r.hits.length) r.hits.length
        done ((s1.modCfg (fun q => { q with launchZero := q.launchZero.set r.line lz })).raiseLine 0x0809 sevInfo r.line s.now
          (leBytesS 4 lz ++ u8 r.shots ++ u8 misses ++ u16 (satTo 2 (spread r.hits).toNat)) none)
  | _, _ => s

/-- A shot of the measurement is launched: a free unit takes its ordered arming from source 3 to source 4, 8 192 cells long (R296); without a unit it is
a miss. -/
def State.armShot (s : State) (l x : Nat) : State :=
  match s.freeUnit, s.pendOp 0x0804 with
  | some u, some p => s.modUnit u (fun v => { v with arming := some ⟨3, l, 4, 0, false, 8192, x, p.mb, p.seq, true, some x, []⟩ })
  | _, _ => s

/-- A shot of a launch-zero measurement has left its line's queue: the next is scheduled; shots for which no instant is found within 1 s, or whose plan is
gone, count as misses (R296). -/
def State.nextZeroShot (s : State) (l : Nat) : State :=
  match s.tiu.launchRun with
  | none => s
  | some r =>
    let left := fun (n : Nat) => s.modTiu (fun q => { q with launchRun := some { r with left := n } })
    if r.left ≤ 1 then left 0
    else match (match s.plan? l with | some p => s.spotInstant l p r.tone none true | none => none) with
      | some x => (left (r.left - 1)).modGrid l (fun g => { g with spot := some (x, r.tone), spotAt := (none, true) })
      | none => left 0

/-! ### The self-check of the units (R294, R295) -/

/-- TIU_SELF_CHECK (R294): an idle active unit or the spare has measured an interval of 64 cells; the lock of the delay-line loop is watched in a busy unit
too. -/
def State.tiuCheck (s : State) (u measured : Nat) (loopLocked : Bool) : State :=
  let h := s.hUnit kindTiu u
  if 4 < u || !(h.serves || h.st == 1) then s
  else
    let off := (s.tiuOf u).arming.isNone && decide (2 < ((measured : Int) - 64 * 256).natAbs)
    let s1 := if !loopLocked && (s.tiuOf u).locked then s.raiseNow 0x080A sevFault (srcTiu u) [] none else s
    let s2 := s1.modUnit u (fun x => { x with locked := loopLocked })
    if !(off || !loopLocked) then s2
    else if h.st = 1 then (s2.detect kindTiu u).testIfDue kindTiu u else s2.detect kindTiu u

/-- TIU_SPARED: the spare takes the place of a unit due for test, retired or wearing; an arming on the withdrawn unit is aborted. -/
def State.tiuSpared (s : State) (u : Nat) : State :=
  let h := s.hUnit kindTiu u
  if !h.wantsSpare || !(h.serves || h.st == 3 || h.st == 5) then s
  else match s.spareFor kindTiu u with
    | none => s
    | some j =>
      ((s.tiuAbort u).spareTakes kindTiu u j).raiseNow 0x080B sevNotice (srcTiu u) (u8 u ++ u8 j ++ u8 h.spareCause) none

/-! ### `tiu.status` -/

/-- USTATE of a unit (Table 9.14). -/
def State.ustate (s : State) (u : Nat) : Nat :=
  let x := s.tiuOf u
  min (s.hUnit kindTiu u).st 3 * b2n (decide ((s.hUnit kindTiu u).st ≤ 3)) + 4 * b2n (x.arming.isSome || decide (s.now < x.busyUntil)) + 8 * b2n x.locked

def State.tiuBody (s : State) : List Byte :=
  (List.range 5).flatMap (fun u => u8 (s.ustate u)) ++ zeros 3 ++ u32 s.tiu.wrongOrder ++ u32 s.tiu.belowRes ++
    u32 s.tiu.timeouts ++ u32 s.tiu.noUnit ++
    (List.range 16).flatMap (fun l => leBytesS 4 (nth s.cfg.launchZero l (-2147483648)))

def tiuStatus : Handler := fun c s =>
  let s1 := if bit (rd c.arg 0 1) 0 then
    (s.modTiu (fun q => { q with wrongOrder := 0, belowRes := 0, timeouts := 0, noUnit := 0 })).clearSat 0x0805 0
    else s
  okWith s1 s.tiuBody

end Sys2Proof.Machine
end

