-- ==== Sys2Proof/Machine/TrailLink.lean ====
section
/-! DEFINITION. The trail link (R298 to R305, R309): frames, the hop exchange, discipline from SYNC, topology, forwarding,
and the commands `trail.config` and `trail.status`. -/

namespace Sys2Proof.Machine

/-! ### Frames (Tables 9.5 and 9.6) -/

/-- The register's initial value of the frame check: the specification names CRC-16/CCITT and no variant (PRESUMED: all
ones, the common one). -/
def trailCrcInit : Nat := 0xFFFF

/-- The depth of the node (R298): 0 for the root, else what SYNC from the parent gave; 15 where it is not known or too deep (DESIGN CHOICE: Table 9.5
gives four bits and no code for it). -/
def State.ownDepth (s : State) : Nat := if s.cfg.trail.root then 0 else s.trail.depth.getD 15

/-- A frame from TYPE to the CRC: TYPE, sender and depth, payload, CRC-16 over all of them. -/
def State.trailFrame (s : State) (type : Nat) (payload : List Byte) : List Byte :=
  let body := u8 type ++ u16 (s.cfg.trail.nodeId % 4096 + 4096 * (s.ownDepth % 16)) ++ payload
  body ++ u16 (crc16 trailCrcInit body)

/-- The CRC of a received frame checks. -/
def frameOk (b : List Byte) : Bool :=
  decide (5 ≤ b.length) && rd b (b.length - 2) 2 == crc16 trailCrcInit (b.take (b.length - 2))

def frameType (b : List Byte) : Nat := rd b 0 1
def frameNode (b : List Byte) : Nat := rd b 1 2 % 4096
def frameDepth (b : List Byte) : Nat := rd b 1 2 / 4096

/-- A port carries frames: enabled, its link up, and the device not in P3 (R299, R305, R309). -/
def State.trailUp (s : State) (p : Nat) : Bool :=
  s.cfg.trail.port p && nth s.trail.linkUp p false && decide (s.pwr.st ≤ 2)

/-- A node deeper than 12 forwards nothing on its downward ports (R298). -/
def State.mayForward (s : State) (p : Nat) : Bool := s.trailUp p && !(s.trail.tooDeep && decide (1 ≤ p))

/-- When a frame other than SYNC may start on a port (R299, R303): at the instant asked for, unless that lies within the 360 ns before a second boundary or
while the SYNC of a boundary, 12 bytes of 10 ns, occupies a downward port; then after the boundary, or its SYNC. -/
def State.frameStart (s : State) (p x : Nat) : Nat :=
  let sync := if 1 ≤ p && s.mayForward p then 120 * ticksPerNs else 0
  let next := s.boundaryAtOrAfter x
  if x < s.boundaryAtOrBefore x + sync then s.boundaryAtOrBefore x + sync
  else if x < next && next ≤ x + 360 * ticksPerNs then next + sync
  else x

/-- The start of a frame arrives at a port: an edge that interval armings see (Table 9.3). -/
def State.frameIn (s : State) (p : Nat) : State := s.tiuEvent 5 p s.now

/-! ### SYNC (R299, R300) -/

/-- At each second boundary a SYNC leaves every downward port whose link is up (R299): the second now beginning and the two
flags, each the OR of the node's own and the one it received. -/
def State.syncTx (s : State) : State :=
  if s.isBoundary s.now then
    let payload := leBytes 5 (s.secondAt s.now).1 ++ u8 (b2n s.holdoverFlag + 2 * b2n s.notWarmFlag)
    [1, 2].foldl (fun s p => if s.mayForward p then s.emit1 (.trailFrame p s.now (s.trailFrame 0x01 payload)) else s) s
  else s

/-- A SYNC or other frame with a bad CRC (R302). -/
def State.badFrame (s : State) : State := s.modTrail (fun r => { r with crcErrors := satAdd r.crcErrors 1 })

/-- The median hop delay (R300). -/
def State.dDown (s : State) : Int := medianI s.trail.hops

/-- A received SYNC (R298, R300, R302): parent and depth, the flags, the offset θ = a − B − d_down to the servo, and the second number. The source is locked
and regained with the first θ measured: stamped by a unit, with a hop delay known. -/
def State.syncRx (s0 : State) (rx : TrailRx) : State :=
  let s := s0.frameIn rx.port
  if rx.port ≠ 0 || !s.trailUp 0 then s0
  else if !frameOk rx.bytes || frameType rx.bytes ≠ 1 then
    s.badFrame.modTrail (fun r => { r with syncMissed := satAdd r.syncMissed 1, syncMissRun := r.syncMissRun + 1 })
  else
    let pd := frameDepth rx.bytes
    let deep := decide (12 ≤ pd)
    let q := s.takeStamp s.now
    -- the SYNC frames missing since the last one and not counted yet (Table 9.16)
    let gap := match s.trail.lastSync with
      | some x => (s.now - x + ticksPerSecond / 2) / ticksPerSecond - 1 - s.trail.syncMissRun
      | none => 0
    let s1 := q.2.2.2.modTrail (fun r => { r with
      syncMissed := satAdd r.syncMissed gap
      parent := some (frameNode rx.bytes), parentDepth := some pd
      depth := if deep then none else some (pd + 1)
      upHoldover := bit (rd rx.bytes 8 1) 0, upNotWarm := bit (rd rx.bytes 8 1) 1
      syncMissRun := 0, lastSync := some s.now
      tooDeep := deep })
    let s2 := if deep && !s.trail.tooDeep then s1.raiseNow 0x080D sevDegraded srcTrail (u8 (pd + 1)) none else s1
    if s.cfg.tb.source ≠ 4 || deep then s2
    else
      let a : Int := (q.1 : Int) - s.dDown
      let theta := s.offsetOf a
      let s3 := s2.modTrail (fun r => { r with theta := theta })
      let s4 := if !q.2.2.1 then s3.modTb (fun b => { b with servoDiscarded := satAdd b.servoDiscarded 1 })
        else if s.trail.hops.isEmpty then s3
        else ((s3.measure a).modTb (fun b => { b with trailLocked := true })).regain
      (s4.reportSecond (s.nearestBoundary a) (rd rx.bytes 3 5)).secondStep

/-- The trail source is lost (R302): three SYNC frames missing or bad, alignment lost for more than 1 µs, or a parent deeper
than 11. -/
def State.trailLost (s : State) : State :=
  let late := match s.trail.lastSync with
    | some x => decide (x + 3 * ticksPerSecond + ticksPerUs ≤ s.now)
    | none => false
  let unaligned := match s.trail.alignLostAt with
    | some x => decide (x + ticksPerUs < s.now)
    | none => false
  let deep := match s.trail.parentDepth with
    | some d => decide (12 ≤ d)
    | none => false
  if s.cfg.tb.source = 4 && s.tb.trailLocked && (late || unaligned || deep || decide (3 ≤ s.trail.syncMissRun)) then
    ((s.modTrail (fun r => { r with
      syncMissed := if late then satAdd r.syncMissed (3 - r.syncMissRun) else r.syncMissed
      syncMissRun := if late then max 3 r.syncMissRun else r.syncMissRun })).modTb
      (fun b => { b with trailLocked := false, regained := false })).enterHoldover 2
  else s

/-! ### The hop exchange (R300) -/

/-- The child's DELAY_REQ at second-relative cell 250 000 000; an exchange still open is lost. -/
def State.delayReqTx (s : State) : State :=
  if s.trailUp 0 && (s.secondAt s.now).2 == 250000000 * ticksPerCell then
    let skipped := s.trail.t1.isSome
    let s1 := s.modTrail (fun r => { r with
      t1 := some s.now, reqSeq := (r.reqSeq + 1) % 256
      delaySkipped := if skipped then satAdd r.delaySkipped 1 else r.delaySkipped })
    s1.emit1 (.trailFrame 0 s.now (s1.trailFrame 0x02 (u8 s1.trail.reqSeq)))
  else s

/-- The parent stamps a DELAY_REQ and replies at the first whole cell at or after t2 + 250 cells, with t2 and t3. -/
def State.delayReqRx (s0 : State) (rx : TrailRx) : State :=
  let s := s0.frameIn rx.port
  if rx.port = 0 || !s.trailUp rx.port then s0
  else if !frameOk rx.bytes || frameType rx.bytes ≠ 2 then s.badFrame
  else
    let q := s.takeStamp s.now
    let t2 := q.1
    let t3 := s.frameStart rx.port (s.ceilCell (t2 + 250 * ticksPerCell))
    let r2 := (s.secondAt t2).2
    let r3 := (s.secondAt t3).2
    let payload := u8 (rd rx.bytes 3 1) ++ leBytes 5 r2 ++ u32 (r3 / ticksPerCell)
    q.2.2.2.emit1 (.trailFrame rx.port t3 (s.trailFrame 0x03 payload))

/-- One exchange's offset and parent-to-child delay (R300), each rounded to 1/256 cell as R34 rounds. -/
def exchange (t1 t2 t3 t4 asym : Int) : Int × Int :=
  (rneDiv ((t4 - t3) - (t2 - t1) + asym) 2, rneDiv ((t2 - t1) + (t4 - t3) - asym) 2)

/-- The child stamps the reply and updates the sixteen delays whose median it keeps. -/
def State.delayRespRx (s0 : State) (rx : TrailRx) : State :=
  let s := s0.frameIn rx.port
  if rx.port ≠ 0 || !s.trailUp 0 then s0
  else if !frameOk rx.bytes || frameType rx.bytes ≠ 3 then s.badFrame
  else match s.trail.t1 with
    | none => s.modTrail (fun r => { r with delaySkipped := satAdd r.delaySkipped 1 })
    | some t1 =>
      let q := s.takeStamp s.now
      if rd rx.bytes 3 1 ≠ s.trail.reqSeq || !q.2.2.1 then
        q.2.2.2.modTrail (fun r => { r with t1 := none, delaySkipped := satAdd r.delaySkipped 1 })
      else
        let e := exchange ((s.secondAt t1).2 : Nat) (rd rx.bytes 4 5 : Nat) (rd rx.bytes 9 4 * ticksPerCell : Nat)
          ((s.secondAt q.1).2 : Nat) s.cfg.trail.asym
        q.2.2.2.modTrail (fun r => { r with t1 := none, hops := (e.2 :: r.hops).take 16 })

/-! ### Topology (R298, R299) -/

/-- Nodes below this one, from the TOPO frames of its children. -/
def State.subtree (s : State) : Nat :=
  s.trail.topo.foldl (fun n o => n + match o with | some e => e.2.1 | none => 0) 0

/-- TOPO upwards at second-relative cell 100 000 000 (R299): nodes in the subtree with this one, greatest depth in it. -/
def State.topoTx (s : State) : State :=
  if s.trailUp 0 && (s.secondAt s.now).2 == 100000000 * ticksPerCell then
    let deepest := s.trail.topo.foldl (fun n o => match o with | some e => max n e.2.2 | none => n) s.ownDepth
    s.emit1 (.trailFrame 0 s.now (s.trailFrame 0x05 (u16 (s.subtree + 1) ++ u8 deepest)))
  else s

/-- A received TOPO: subtree and depth of a child; the root reports two ports whose TOPO frames carry one NODE_ID. -/
def State.topoRx (s0 : State) (rx : TrailRx) : State :=
  let s := s0.frameIn rx.port
  if rx.port = 0 || 2 < rx.port || !s.trailUp rx.port then s0
  else if !frameOk rx.bytes || frameType rx.bytes ≠ 5 then s.badFrame
  else
    let id := frameNode rx.bytes
    let s1 := s.modTrail (fun r => { r with topo := r.topo.set (rx.port - 1) (some (id, rd rx.bytes 3 2, rd rx.bytes 5 1)) })
    let other := match nth s.trail.topo (2 - rx.port) none with
      | some e => e.1 == id
      | none => false
    if s.cfg.trail.root && other then
      (s1.modTrail (fun r => { r with conflict := true })).raiseNow 0x080E sevFault srcTrail (u16 id ++ u8 0b110) none
    else s1

/-! ### Links and broadcasts (R299, R303) -/

/-- A port's link comes up or goes down. -/
def State.trailLink (s : State) (p : Nat) (up : Bool) : State :=
  if 2 < p || !s.cfg.trail.port p || nth s.trail.linkUp p false == up then s
  else
    (s.modTrail (fun r => { r with
      linkUp := r.linkUp.set p up
      alignLostAt := if p = 0 then (if up then none else some s.now) else r.alignLostAt
      topo := if up || p == 0 then r.topo else r.topo.set (p - 1) none })).raiseNow
      0x080C sevNotice srcTrail (u8 p ++ u8 (b2n up)) (some [])

/-- A node forwards every BCAST it receives, unchanged, on each of its other ports whose link is up, a bad CRC included
(R303). -/
def State.forwardBcast (s : State) (rx : TrailRx) : State :=
  [0, 1, 2].foldl (fun s p => if p ≠ rx.port && s.mayForward p then s.emit1 (.trailFrame p (s.frameStart p s.now) rx.bytes) else s) s

/-! ### Commands -/

def readTrailCfg (p : List Byte) : TrailCfg := ⟨rd p 0 2, rd p 2 1, rdS p 4 2⟩

/-- A `tb.config` selecting SOURCE 4 is pending (R309). -/
def State.pendTrailSource (s : State) : Bool := s.pend.any (fun p => p.op == 0x0801 && rd p.data 0 1 == 4)

/-- `trail.config` (R309). -/
def trailConfig : Handler := fun c s =>
  let g := readTrailCfg c.arg
  if 4095 < g.nodeId || g.asym < -512 || 512 < g.asym || (g.root && g.port 0) then reject s stBadArg
  else if (s.pendOp 0x0806).isSome then reject s stBusy
  else if (g.root && s.cfg.tb.source == 4) || (!g.root && g.port 0 && s.cfg.tb.source != 4 && !s.pendTrailSource) then
    reject s stWrongState
  else pendWith s c 0x0806 [0] none

/-- The settings take effect at the first second boundary at or after apply-at (R309). -/
def State.trailConfigEffect (s : State) : State :=
  match s.pendOp 0x0806 with
  | none => s
  | some p =>
    let due := s.boundaryAtOrAfter (p.applyAt.getD p.accepted)
    if s.now < due then s
    else
      let g := readTrailCfg p.data
      let s1 := ((s.dropOp 0x0806).modCfg (fun r => { r with trail := g })).modTrail (fun r => { r with
        depth := if g.root then some 0 else if g.port 0 then r.depth else none
        tooDeep := r.tooDeep && !g.root && g.port 0
        parentDepth := if g.port 0 then r.parentDepth else none
        parent := if g.port 0 then r.parent else none
        linkUp := r.linkUp.zipIdx.map (fun e => e.1 && g.port e.2) })
      s1.applied p srcDevice (s1.effStamp due none) due stOk

/-- LINK of a port (Table 9.16). -/
def State.linkByte (s : State) (p : Nat) : Nat :=
  if !s.cfg.trail.port p then 0 else if s.trailUp p then 2 else 1

def State.trailBody (s : State) : List Byte :=
  let r := s.trail
  u8 (s.linkByte 0) ++ u8 (s.linkByte 1) ++ u8 (s.linkByte 2) ++ u8 (if s.cfg.trail.root then 0 else r.depth.getD 0xFF) ++ u16 (r.parent.getD 0xFFFF) ++
    u16 s.subtree ++ u32 (ux 32 s.dDown) ++ leBytesS 4 r.theta ++ u32 r.crcErrors ++ u32 r.syncMissed ++ u32 r.bcastRx ++
    u32 r.bcastTx ++ u32 r.delaySkipped

def trailStatus : Handler := fun c s =>
  let s1 := if bit (rd c.arg 0 1) 0 then
    (s.modTrail (fun r => { r with crcErrors := 0, syncMissed := 0, bcastRx := 0, bcastTx := 0, delaySkipped := 0 })).clearSat 0x0807 0
    else s
  okWith s1 s.trailBody

end Sys2Proof.Machine
end

