-- ==== Sys2Proof/Machine/Trigger.lean ====
section
/-! DEFINITION. Trigger conditions (R242 to R254): how a condition is met, the point conditions' evaluation, edges, lane crossings, broadcasts,
TRIG_OUT, and the commands `trig.*` and `cap.force`. -/

namespace Sys2Proof.Machine

def State.modTrig (s : State) (f : TrigState → TrigState) : State := { s with trig := f s.trig }
def State.condOf (s : State) (c : Nat) : CondRun := nth s.trig.conds c CondRun.reset
def State.modCond (s : State) (c : Nat) (f : CondRun → CondRun) : State := s.modTrig (fun t => { t with conds := upd t.conds c f })
def State.ltOf (s : State) (l : Nat) : LineTrig := nth s.trig.lines l LineTrig.reset
def State.modLt (s : State) (l : Nat) (f : LineTrig → LineTrig) : State := s.modTrig (fun t => { t with lines := upd t.lines l f })
def State.condDef? (s : State) (c : Nat) : Option CondDef := nth s.cfg.conds c none
def State.isArmed (s : State) (c : Nat) : Bool := bit s.cfg.armed c
def State.setArmed (s : State) (c : Nat) (v : Bool) : State := s.modCfg (fun g => { g with armed := setField g.armed c 1 (b2n v) })

/-! ### A condition is met (R242 to R244, R253, R254) -/

/-- A hit reaches the TRIG_OUT outputs whose mask names the condition. -/
def State.pulseOuts (s : State) (c : Nat) : State :=
  s.modTrig (fun t => { t with outDue := t.outDue.zipIdx.map (fun e => e.1 || bit ((nth s.cfg.trigOut e.2 ⟨false, 500, 0⟩).mask) c) })

/-- A hit reaches the trail link when the condition has a broadcast action. -/
def State.queueBcast (s : State) (c : Nat) (d : CondDef) (stamp : BitVec 96) : State :=
  if d.actions &&& 6 = 0 then s else s.modTrig (fun t => { t with bcast := t.bcast ++ [(c, stamp)] })

/-- A hit reaches the raw sets whose causes name the condition. -/
def State.rawHit (s : State) (h : RawHit) : State :=
  s.modTrig (fun t => { t with sets := t.sets.map (fun r =>
    if r.st ≠ 0 && bit r.cfg.causes h.cond then { r with triggers := r.triggers ++ [h] } else r) })

/-- A hit makes a point capture on its line (R255): its trigger row is found when captures are formed. -/
def State.lineHit (s : State) (l : Nat) (h : Hit) : State := s.modLt l (fun x => { x with hits := x.hits ++ [h] })

/-- The lines that carry a range of a zone. -/
def ZoneDef.lines (d : ZoneDef) : List Nat := (List.range 16).filter (fun l => d.ranges.any (fun r => r.line == l))

/-- A line is a vibration source of a zone (R347). -/
def State.vibration (s : State) (d : ZoneDef) (l : Nat) : Bool :=
  d.lines.contains l && (d.supervise || d.rules.any (fun r => r.kind == 0 && decide (r.cond < 16) &&
    (match s.condDef? r.cond with | some c => c.line == l | none => false)))

/-- A line is a thermal source of a zone (R347). -/
def ZoneDef.thermal (d : ZoneDef) (l : Nat) : Bool := d.lines.contains l && d.rules.any (fun r => r.kind == 1 || r.kind == 2)

/-- Give something to evaluate to every defined zone that it concerns, while zones are evaluated (R352, R353). -/
def State.toZones (s : State) (sel : ZoneDef → Bool) (i : ZoneIn) : State :=
  if !s.panel.evaluating then s
  else { s with zones := s.zones.zipIdx.map (fun e => match nth s.cfg.zones e.2 none with
    | some d => if sel d then { e.1 with inbox := e.1.inbox ++ [i] } else e.1
    | none => e.1) }

/-- A condition 16 to 31 is met (R242): counted, and given to its actions, to the raw sets and to the zones. `lines` limits the lines on which a
point capture applies. -/
def State.meet (s : State) (c : Nat) (inst : Nat) (stamp : BitVec 96) (node : Nat) (sample : Option Nat) (lines : Nat) : State :=
  match s.condDef? c with
  | none => s
  | some d =>
    let s1 := (s.modCond c (fun r => { r with hits := satAdd r.hits 1 })).pulseOuts c
    let s2 := (s1.queueBcast c d stamp).rawHit ⟨c, inst, stamp, node, sample⟩
    let s3 := s2.toZones (fun d => d.rules.any (fun r => r.kind == 0 && r.cond == c)) (.hit c stamp inst)
    if bit d.actions 0 && decide (d.line < 16) && bit lines d.line then
      s3.lineHit d.line ⟨c, d.first, d.last, d.pad, d.pre, d.post, stamp, inst, node, none⟩
    else s3

/-- Conditions are evaluated: defined, armed, and not in P2 or P3 (R242, R270). -/
def State.evaluates (s : State) (c : Nat) : Bool := s.isArmed c && (s.condDef? c).isSome && decide (s.pwr.st < 2)

/-- The stamp of a condition's trigger instant (R24, R243). -/
def State.hitStamp (s : State) (d : CondDef) (x : Nat) (frac : Bool) : BitVec 96 :=
  if d.line < 16 then s.lineStamp d.line x frac else s.secStamp x none frac

/-! ### Edges at TRIG_IN (R249, R250) -/

/-- TRIG_IN_EDGE: a level change held for a time; qualified when held for 10 ns with the polarity its condition selects (DESIGN CHOICE: rising where
none is defined), and a glitch within 50 ns of the input's last qualified edge. A qualified edge is an event of the interval armings (Table 9.3). -/
def State.trigEdge (s : State) (n : Nat) (rising : Bool) (heldNs : Nat) : State :=
  if 3 < n then s
  else
    let c := 16 + n
    let s0 := s.modTrig (fun t => { t with levels := t.levels.set n rising })
    let edge := match s.condDef? c with | some d => d.edge | none => 0
    if heldNs < 10 || (edge = 0 && !rising) || (edge = 1 && rising) then s0
    else if (match (s.condOf c).lastEdge with | some x => decide (s.now < x + 50 * ticksPerNs) | none => false) then
      if s.evaluates c then s0.modCond c (fun r => { r with glitches := satAdd r.glitches 1 }) else s0
    else
      let s1 := (s0.modCond c (fun r => { r with lastEdge := some s.now })).tiuEvent 0 n s.now
      match s.condDef? c, s.evaluates c with
      | some d, true =>
        let q := s1.takeStamp s.now
        let s2 := if q.2.2.1 then q.2.2.2
          else (q.2.2.2.modCond c (fun r => { r with noFraction := satAdd r.noFraction 1 })).raiseNow 0x0707 sevNotice srcDevice (u8 n) (some [])
        s2.meet c q.1 (s2.hitStamp d q.1 q.2.1) s.cfg.trail.nodeId none 0xFFFF
      | _, _ => s1

/-! ### Lane conditions (R251, R252) -/

def wordCode (w : BitVec 16) : Int := sx 12 (field w.toNat 4 12)

/-- The crossing fraction f (R252). -/
def crossFrac (level a b : Int) : Nat :=
  (clampI 1 256 (if a < b then rneDiv (256 * (level - a)) (b - a).toNat else rneDiv (256 * (a - level)) (a - b).toNat)).toNat

/-- One released word of a role reaches a lane condition. -/
def State.laneCond (s : State) (c : Nat) (d : CondDef) (x : Nat) (w : BitVec 16) : State :=
  let bad := bit w.toNat 2 || bit w.toNat 1
  if bad then s.modCond c (fun r => { r with prevWord := none })
  else
    let v := wordCode w
    let r := s.condOf c
    let prev := match r.prevWord with
      | some (y, a) => if y + ticksPerCell = x then some a else none
      | none => none
    let rise := match prev with | some a => decide (a < d.level) && decide (d.level ≤ v) && d.edge != 1 && r.riseReady | none => false
    let fall := match prev with | some a => decide (a > d.level) && decide (d.level ≥ v) && d.edge != 0 && r.fallReady | none => false
    let s1 := s.modCond c (fun r => { r with
      prevWord := some (x, v)
      riseReady := if rise then false else r.riseReady || decide (v ≤ d.level - (d.hyst : Int))
      fallReady := if fall then false else r.fallReady || decide (v ≥ d.level + (d.hyst : Int)) })
    if rise || fall then
      let inst := x - ticksPerCell + crossFrac d.level (prev.getD 0) v
      s1.meet c inst (s1.hitStamp d inst true) s.cfg.trail.nodeId (some x) 0xFFFF
    else s1

/-- A released lane word of a role of a quad reaches the lane conditions that name it. -/
def State.laneConds (s : State) (q role x : Nat) (w : BitVec 16) : State :=
  (List.range 8).foldl (fun s k =>
    let c := 20 + k
    match s.condDef? c with
    | some d => if s.evaluates c && d.band == q && d.role == role then s.laneCond c d x w else s
    | none => s) s

/-! ### Broadcasts (R253, R303, R304) -/

/-- The instant a received stamp names, its fraction included; the present instant when this node's grid has no such instant. -/
def State.stampInst (s : State) (v : BitVec 96) : Nat :=
  match s.instantOf v with
  | some x => x + (if bit v.toNat 2 then field v.toNat 8 8 else 0)
  | none => s.now

/-- BCAST_RX: forwarded in every case; with a good CRC it meets condition 28 or 29 (R303). -/
def State.bcastRx (s0 : State) (rx : TrailRx) : State :=
  let s := s0.frameIn rx.port
  if 2 < rx.port || !s.trailUp rx.port then s0
  else
    let s1 := s.forwardBcast rx
    if !frameOk rx.bytes || frameType rx.bytes ≠ 4 || rx.bytes.length ≠ 19 then s1.badFrame
    else
      let s2 := s1.modTrail (fun r => { r with bcastRx := satAdd r.bcastRx 1 })
      let c := 28 + rd rx.bytes 3 1
      let v := BitVec.ofNat 96 (rd rx.bytes 5 12)
      if 29 < c || !s2.evaluates c then s2 else s2.meet c (s2.stampInst v) v (frameNode rx.bytes) none 0xFFFF

/-- BCAST_ORIGINATE (R253, R304): the first waiting broadcast of a condition leaves on every port whose link is up. -/
def State.bcastOriginate (s : State) (c : Nat) : State :=
  match s.trig.bcast.find? (fun e => e.1 == c), s.condDef? c with
  | some e, some d =>
    let s1 := s.modTrig (fun t => { t with bcast := t.bcast.erase e })
    let ports := [0, 1, 2].filter (fun p => s1.mayForward p)
    if ports.isEmpty then s1
    else
      let frame := s1.trailFrame 0x04 (u8 (if bit d.actions 2 then 1 else 0) ++ u8 c ++ stampBytes e.2)
      let s2 := s1.modTrail (fun r => { r with bcastTx := satAdd r.bcastTx 1 })
      ports.foldl (fun s p => s.emit1 (.trailFrame p (s.frameStart p s.now) frame)) s2
  | some e, none => s.modTrig (fun t => { t with bcast := t.bcast.erase e })
  | none, _ => s

/-! ### TRIG_OUT (R254) -/

/-- TRIG_OUT_ASSERT: a hit that reached the output asserts it, or restarts its width. -/
def State.outAssert (s : State) (o : Nat) : State :=
  if !nth s.trig.outDue o false then s
  else
    let w := (nth s.cfg.trigOut o ⟨false, 500, 0⟩).width
    s.modTrig (fun t => { t with outDue := t.outDue.set o false, outUntil := t.outUntil.set o (some (s.now + w * ticksPerCell)) })

/-- TRIG_OUT_WIDTH_END. -/
def State.outEnd (s : State) (o : Nat) : State :=
  match nth s.trig.outUntil o none with
  | some x => if x ≤ s.now then s.modTrig (fun t => { t with outUntil := t.outUntil.set o none }) else s
  | none => s

/-! ### Point conditions (R245 to R248) -/

/-- One output of a point against a condition's test (Table 8.2); none when it sets BASE. Answers the point's state and whether the condition
is met. -/
def evalPoint (d : CondDef) (p : PtTrig) (out : List (BitVec 32)) : PtTrig × Bool :=
  let w := nth out 0 0#32
  if wordInvalid w || (bit w.toNat 3 && !d.settlingOk) then ({ p with run := 0 }, false)
  else
    let judge := fun (met : Bool) =>
      if !met then ({ p with run := 0 }, false)
      else if d.confirm ≤ p.run + 1 then ({ p with run := 0 }, true)
      else ({ p with run := p.run + 1 }, false)
    let be : Option Int := (out[2 + d.band]?).map (fun b => ((field b.toNat 12 20 : Nat) : Int))
    match d.kind with
    | 0 => judge (match be with | some v => decide (d.level ≤ v) | none => false)
    | 1 => judge (match be with | some v => decide (v ≤ d.level) | none => false)
    | 2 => judge (decide (d.level ≤ ((wordDphi w).natAbs : Int)))
    | _ =>
      let i := sx 32 (nth out 1 0#32).toNat
      match p.base with
      | none => ({ p with base := some i }, false)
      | some b => judge (decide (d.level ≤ ((wrapS 32 (i - b)).natAbs : Int)))

def PtTrig.zero : PtTrig := ⟨0, none⟩

/-- One slow sheet against one arming: the points' state and the points met, those of lost groups left out. -/
def EvalSpan.row (e : EvalSpan) (v : SlowSheet) (lost : List Nat) : EvalSpan × List Nat :=
  let pts0 := if e.cond.kind = 3 then
      (if v.zeroed then e.pts.filterMap (fun x => if x.2.run = 0 then none else some (x.1, { x.2 with base := none }))
       else v.zeroedPts.foldl (fun m i => sset PtTrig.zero m i { sget PtTrig.zero m i with base := none }) e.pts)
    else e.pts
  let go := (v.pts.zip v.outs).foldl (fun (a : List (Nat × PtTrig) × List Nat) q =>
    if q.1 < e.cond.first || e.cond.last < q.1 || lost.contains (q.1 / 4096) then a
    else
      let r := evalPoint e.cond (sget PtTrig.zero a.1 q.1) q.2
      (sset PtTrig.zero a.1 q.1 r.1, if r.2 then a.2 ++ [q.1] else a.2)) (pts0, [])
  ({ e with pts := go.1 }, go.2)

/-- An arming evaluates a quire (R272). -/
def EvalSpan.covers (e : EvalSpan) (q : Nat) : Bool := decide (e.from_ ≤ q) && (match e.until_ with | some t => decide (q < t) | none => true)

/-- One slow sheet against one condition, whichever of its armings covers the quire. -/
def CondRun.row (r : CondRun) (v : SlowSheet) (lost : List Nat) : CondRun × Option (CondDef × List Nat) :=
  match r.spans.find? (fun e => e.covers (v.fsn / 32)) with
  | none => (r, none)
  | some e =>
    let x := e.row v lost
    ({ r with spans := r.spans.map (fun y => if y == e then x.1 else y) }, some (e.cond, x.2))

/-- The stamp of a point's output (R190): the slow sheet's, with CELL at the point's cell. -/
def State.pointStamp (s : State) (l i : Nat) (v : SlowSheet) : BitVec 96 × Nat :=
  let cell := match s.plan? l with | some p => p.first + i * p.pitch | none => 0
  let w := rd v.record 0 12
  (BitVec.ofNat 96 (setField w 16 20 cell), v.tick + cell * ticksPerCell)

/-- One slow sheet of a line through its point conditions: hits counted, given to the outputs, the trail, the captures and the zones. -/
def State.decideRow (s : State) (l : Nat) (v : SlowSheet) (lost : List Nat) : State :=
  let mine := (List.range 16).filter (fun c => (s.condOf c).spans.any (fun e => e.cond.line == l))
  let start : State × List (Nat × List Nat) := (s, [])
  let r := mine.foldl (fun (a : State × List (Nat × List Nat)) c =>
    let x := (a.1.condOf c).row v lost
    let s1 := a.1.modCond c (fun _ => x.1)
    match x.2 with
    | none => (s1, a.2)
    | some (d, pts) =>
      if pts.isEmpty then (s1, a.2 ++ [(c, [])])
      else
        let s2 := (s1.modCond c (fun k => { k with hits := satAdd k.hits pts.length })).pulseOuts c
        let head := s2.pointStamp l (pts.headD 0) v
        let s3 := s2.queueBcast c d head.1
        let s4 := if bit d.actions 0 then
            pts.foldl (fun s i =>
              let st := s.pointStamp l i v
              s.lineHit l ⟨c, i, i, d.pad, d.pre, d.post, st.1, st.2, s.cfg.trail.nodeId, some v.fsn⟩) s3
          else s3
        (s4, a.2 ++ [(c, pts)])) start
  let bad := ((v.pts.zip v.outs).filter (fun q => wordInvalid (nth q.2 0 4#32))).map Prod.fst
  r.1.toZones (fun d => r.1.vibration d l) (.row l ⟨v.tick, BitVec.ofNat 96 (rd v.record 0 12), maskOf (r.2.map Prod.fst), r.2, bad, lost⟩)

/-- POINT_HITS_DECIDED (R247): the oldest quire whose slow sheets were released is evaluated, its trigger jobs being done. -/
def State.decideHits (s : State) (l : Nat) : State :=
  match (s.slowOf l).forTriggers with
  | [] => s
  | v :: _ =>
    let q := v.fsn / 32
    let sheets := (s.slowOf l).forTriggers.filter (fun x => x.fsn / 32 == q)
    let lost := ((s.ltOf l).lost.filter (fun e => e.1 == q)).map Prod.snd
    let jobs := fun (k : JobKind) => match k with | .trigger a b _ => a == l && b == q | _ => false
    if s.jobsLeft jobs && decide (s.pwr.st < 2) then s
    else
    let s0 := (s.modSlow l (fun r => { r with forTriggers := r.forTriggers.filter (fun x => x.fsn / 32 != q) })).dropJobs jobs
    let s1 := s0.modTrig (fun t => { t with conds := t.conds.map (fun c => { c with spans := c.spans.map (fun e =>
      if e.cond.line = l then { e with pts := e.pts.filter (fun p => !lost.contains (p.1 / 4096)) } else e) }) })
    let s2 := if decide (2 ≤ s.pwr.st) then s1 else sheets.foldl (fun s v => s.decideRow l v lost) s1
    let s3 := s2.modTrig (fun t => { t with conds := t.conds.map (fun c => { c with spans := c.spans.filter (fun e =>
      e.cond.line != l || (match e.until_ with | some x => decide (q + 1 < x) | none => true)) }) })
    s3.modLt l (fun x => { x with decided := q + 1, lost := x.lost.filter (fun e => e.1 != q) })

/-- A ring was formatted: quires begin anew for the line's conditions (R179, R272). -/
def State.trigFormat (s : State) (l : Nat) : State :=
  (s.modTrig (fun t => { t with conds := t.conds.map (fun c => { c with
      spans := (c.spans.filter (fun e => e.cond.line != l || e.until_.isNone)).map (fun e => if e.cond.line = l then { e with from_ := 0 } else e) }) })).modLt l
    (fun x => { x with decided := 0, lost := [] })

/-! ### `trig.define`, `trig.arm`, `trig.rebase`, `trig.out`, `trig.status` -/

def readCond (p : List Byte) : CondDef :=
  ⟨rd p 1 1, rd p 2 1, rd p 3 1, rd p 4 4, rd p 8 4, rdS p 12 4, rd p 16 1, rd p 17 1, rd p 18 1, rd p 19 1, rd p 20 1, rd p 21 1 == 1, rd p 22 2,
    rd p 24 4, rd p 28 4⟩

/-- The fields of a definition are in range (Table 8.13, R271). -/
def State.condOk (s : State) (c : Nat) (d : CondDef) (settling : Nat) : Bool :=
  let point := decide (c < 16)
  let lane := decide (20 ≤ c) && decide (c ≤ 27)
  let needs := point || bit d.actions 0 || c == 30
  decide (c ≤ 31) && (if point then decide (d.kind ≤ 3) else d.kind == 0) && (if needs then s.lineEnabled d.line else d.line == 0xFF) &&
    decide (d.actions ≤ 7) && d.actions &&& 6 != 6 && !(bit d.actions 0 && (lane || c == 30)) &&
    !(d.actions &&& 6 != 0 && (c == 28 || c == 29)) && decide (d.first ≤ d.last) && decide (d.last < 524288) && decide (d.pad ≤ 4096) &&
    decide (d.pre ≤ 32768) && decide (d.post ≤ 32768) &&
    (!point || (decide (1 ≤ d.confirm) && decide (d.confirm ≤ 16) && decide (settling ≤ 1) &&
      (decide (2 ≤ d.kind) || decide (d.band < (s.slowCfg d.line).bands.length)) && (d.kind != 3 || decide (1 ≤ d.level)))) &&
    (!(decide (16 ≤ c) && decide (c ≤ 27)) || decide (d.edge ≤ 2) || (decide (28 ≤ c))) &&
    (!lane || (decide (-2048 ≤ d.level) && decide (d.level ≤ 2047) && decide (d.role ≤ 4) && s.quadEnabled d.band))

/-- `trig.define` (R271). -/
def trigDefine : Handler := fun c s =>
  let k := rd c.arg 0 1
  let d := readCond c.arg
  if !s.condOk k d (rd c.arg 21 1) then reject s stBadArg
  else if s.isArmed k then reject s stWrongState
  else okay (s.modCfg (fun g => { g with conds := g.conds.set k (some d) }))

/-- `trig.arm` (R272). -/
def trigArm : Handler := fun c s =>
  let m := rd c.arg 0 4
  let mode := rd c.arg 4 1
  let cs := maskList 32 m
  if m = 0 || 2 < mode then reject s stBadArg
  else if cs.any (fun k => (s.pendOf 0x0702 k).isSome) then reject s stBusy
  else if cs.any (fun k => match s.condDef? k with
      | none => true
      | some d => mode == 0 && decide (k < 16) && decide (d.kind < 2) && decide ((s.slowCfg d.line).bands.length ≤ d.band)) then
    reject s stWrongState
  else pendWith s c 0x0702 cs none

/-- The quire from which an arming counts: the one that begins now on a running line, the first after the next start otherwise. -/
def State.armQuire (s : State) (l : Nat) : Nat :=
  let f := s.feltOf l
  if s.running l then f.fsn / 32 else ceilDiv f.fsn 32

/-- A point condition takes effect only at a quire boundary of its running line. -/
def State.armReady (s : State) (c x : Nat) : Bool :=
  decide (x ≤ s.now) && (match s.condDef? c with
    | some d => !(decide (c < 16) && s.running d.line) || (s.feltOf d.line).atBoundary
    | none => true)

/-- Arm or disarm one condition: RUN and BASE are cleared by arming, new hits stop by disarming (R246, R272). -/
def State.armOne (s : State) (c mode : Nat) : State :=
  match s.condDef? c with
  | none => s
  | some d =>
    let q := s.armQuire d.line
    let closed := fun (l : List EvalSpan) => l.map (fun e => if e.until_.isNone then { e with until_ := some q } else e)
    if mode = 0 then
      (s.setArmed c true).modCond c (fun r => { r with
        spans := if c < 16 then closed r.spans ++ [⟨d, q, none, []⟩] else []
        prevWord := none, riseReady := true, fallReady := true })
    else (s.setArmed c false).modCond c (fun r => { r with spans := closed r.spans })

/-- `trig.rebase` (R246). -/
def trigRebase : Handler := fun c s =>
  let m := rd c.arg 0 4
  let cs := maskList 32 m
  if m = 0 || cs.any (fun k => decide (15 < k) || (match s.condDef? k with | some d => d.kind != 3 | none => true)) then reject s stBadArg
  else if cs.any (fun k => (s.pendOf 0x0703 k).isSome) then reject s stBusy
  else pendWith s c 0x0703 cs none

/-- TRIG_REBASE_TAKES_EFFECT. -/
def State.rebaseEffect (s : State) (c : Nat) : State :=
  match s.pendOf 0x0703 c with
  | none => s
  | some p =>
    if !s.armReady c p.accepted then s
    else
      let s1 := s.modCond c (fun r => { r with spans := r.spans.map (fun e =>
        if e.until_.isNone then { e with pts := e.pts.filterMap (fun x => if x.2.run = 0 then none else some (x.1, { x.2 with base := none })) } else e) })
      s1.strikeLast p c (s1.effStamp s1.now none) s1.now

/-- `trig.out` (R254). -/
def trigOut : Handler := fun c s =>
  let o := rd c.arg 0 1
  let w := rd c.arg 2 2
  if 1 < o || 1 < rd c.arg 1 1 || w < 4 then reject s stBadArg
  else okay (s.modCfg (fun g => { g with trigOut := g.trigOut.set o ⟨rd c.arg 1 1 == 1, w, rd c.arg 4 4⟩ }))

def State.trigBody (s : State) (c : Nat) : List Byte :=
  let r := s.condOf c
  let head := u32 r.hits ++ u32 r.captures ++ u32 r.missed ++ u32 r.glitches ++ u32 r.noFraction ++ u32 r.late ++ u8 (b2n (s.isArmed c))
  if 16 ≤ c then head
  else
    let x := match s.condDef? c with | some d => s.ltOf d.line | none => LineTrig.reset
    head ++ zeros 3 ++ u32 x.lostEvals ++ u32 x.notMade ++ u32 x.mergedAll

/-- `trig.status`. -/
def trigStatus : Handler := fun c s =>
  let k := rd c.arg 0 1
  if 31 < k then reject s stBadArg
  else
    let s1 := if !bit (rd c.arg 1 1) 0 then s
      else
        let s1 := (s.modCond k (fun r => { r with hits := 0, captures := 0, missed := 0, glitches := 0, noFraction := 0, late := 0 })).clearSat 0x0705 k
        match s1.condDef? k with
        | some d => if k < 16 then s1.modLt d.line (fun x => { x with lostEvals := 0, notMade := 0, mergedAll := 0 }) else s1
        | none => s1
    okWith s1 (s.trigBody k)

/-- `cap.force` (R243): condition 31 is met at the sampling instant of the next lane word released. -/
def capForce : Handler := fun c s =>
  let m := rd c.arg 0 2
  if !s.maskEnabled m then reject s stBadArg
  else if !s.isArmed 31 then reject s stWrongState
  else if s.noDram then reject s stHwFault
  else
    let x := ceilDiv s.now ticksPerCell * ticksPerCell - 768 * ticksPerCell
    -- its stamp is that of the line on which it makes a capture, if there is one (R243)
    let v := match s.condDef? 31 with
      | some d => if d.line < 16 && bit m d.line then s.hitStamp d x false else s.secStamp x none false
      | none => s.secStamp x none false
    (⟨stOk, some v, []⟩, if s.evaluates 31 then s.meet 31 x v s.cfg.trail.nodeId none m else s)

/-- An armed or soon armed point condition of the line names a band that would no longer exist (R207). -/
def State.bandsInUse (s : State) (l bands : Nat) : Bool :=
  (List.range 16).any (fun c => (s.isArmed c || (match s.pendOf 0x0702 c with | some p => rd p.data 4 1 == 0 | none => false)) &&
    (match s.condDef? c with | some d => d.line == l && decide (d.kind < 2) && decide (bands ≤ d.band) | none => false))

/-- `slow.config` (R207). -/
def slowConfig : Handler := slowConfigWith State.bandsInUse

end Sys2Proof.Machine
end

