-- ==== Sys2Proof/Machine/Capture.lean ====
section
/-! DEFINITION. Captures (R255 to R276): the capture region, formation of point captures, copying and readiness, storms, disarming, raw sets
and their segments, and the commands `cap.*`. -/

namespace Sys2Proof.Machine

/-! ### The pool and its region (Tables 8.8 to 8.10) -/

def State.recOf? (s : State) (i : Nat) : Option CapRec := s.trig.recs.find? (fun r => r.index == i)
def State.modRec (s : State) (i : Nat) (f : CapRec → CapRec) : State :=
  s.modTrig (fun t => { t with recs := t.recs.map (fun r => if r.index = i then f r else r) })

/-- Heap pages of the capture region (Table 8.8): the first begins 132 KiB into it. -/
def State.heapPages (s : State) : Nat := s.capMibNow * 256 - 33

def pageAddr (page : Nat) : Nat := capRegionBase + 132 * 1024 + page * 4096

def State.pagesUsed (s : State) : List (Nat × Nat) := (s.trig.recs.map (fun r => (r.page, r.page + r.pages)))

/-- First fit of `n` contiguous pages. -/
def firstFit (used : List (Nat × Nat)) (total n : Nat) : Option Nat :=
  let fits := (0 :: used.map Prod.snd).filter (fun b => decide (b + n ≤ total) && used.all (fun e => decide (b + n ≤ e.1) || decide (e.2 ≤ b)))
  match fits with
  | [] => none
  | a :: r => some (r.foldl min a)

/-- The lowest free record index. -/
def State.freeIndex (s : State) : Option Nat := (List.range 4096).find? (fun i => !s.trig.recs.any (fun r => r.index == i))

/-- A stamp's bytes in a header; zeros for none. -/
def missedBytes (m : Option Missed) : List Byte :=
  match m with
  | some x => stampBytes x.stamp ++ u32 x.count
  | none => zeros 16

/-- The header's bytes 0 to 115 (Table 8.10). -/
def CapRec.head (r : CapRec) : List Byte :=
  u16 (b2n r.raw) ++ u16 r.flags ++ u32 r.seq ++ u32 r.causes ++ u8 r.primary ++ u8 r.line ++ u16 r.node ++ stampBytes r.trigger ++
    u8 r.source ++ u8 r.set ++ u8 r.quad ++ u8 r.lanes ++ stampBytes r.firstStamp ++ stampBytes r.lastStamp ++ u32 r.pre ++ u32 r.post ++
    u32 r.firstIndex ++ u32 r.count ++ missedBytes r.missed ++ u32 r.rowBytes ++ u32 r.rows ++ u64 r.fsn ++ u32 r.rowsLost ++ u32 0 ++
    u32 (r.rows * r.rowBytes)

/-- The record-table entry (Table 8.9). -/
def CapRec.entry (r : CapRec) : List Byte :=
  u8 (if r.ready then 2 else 1) ++ u8 (b2n r.raw) ++ u16 r.flags ++ u32 r.seq ++ u64 (pageAddr r.page) ++ u32 r.bytes ++ stampBytes r.trigger

def State.writeEntry (s : State) (r : CapRec) : State := s.writeBy 2 (capRegionBase + 32 * r.index) r.entry

/-- A record is freed. -/
def State.freeRec (s : State) (i : Nat) : State :=
  (s.modTrig (fun t => { t with recs := t.recs.filter (fun r => r.index != i) })).writeBy 2 (capRegionBase + 32 * i) (zeros 32)

/-- The bytes of a ready record, as its stream delivers them: header and data. -/
def State.recBytes (s : State) (r : CapRec) : List Byte := (s.dramRead (pageAddr r.page) r.bytes).1

/-- A record is complete (R261, R266): header with its CRC, EV_CAP_MADE, and delivery. -/
def State.recReady (s : State) (i : Nat) : State :=
  match s.recOf? i with
  | none => s
  | some r =>
    let r1 := { r with ready := true, bytes := 128 + r.rows * r.rowBytes }
    let a := pageAddr r.page
    let data := (s.dramRead (a + 128) (r.rows * r.rowBytes)).1
    let head := r1.head
    let s1 := ((s.modRec i (fun _ => r1)).writeBy 3 a (head ++ u32 (crc32c (head ++ data)) ++ zeros 8)).writeEntry r1
    let src := if r.line < 16 then srcLine r.line else srcQuad 16
    let stamp := if r.line < 16 then s.lineStamp r.line s.now false else s.devStamp s.now
    let s2 := s1.raise 0x0701 sevInfo src stamp s.now (u16 i ++ u32 r.causes ++ u32 r.seq) (some [])
    s2.deliver (fun d => d.source == 4) ⟨s2.recBytes r1, r.trigger, s.now, r.line, i, none⟩

/-! ### Forming point captures (R255 to R259, R267) -/

/-- Sheets of a line launched at or before an instant are still in the engine. -/
def State.sheetsBefore (s : State) (l x : Nat) : Bool :=
  (s.gridOf l).inFlight.any (fun e => decide (e.tick ≤ x) && (match e.kind with | .tone _ => true | _ => false))

/-- The trigger row of a hit (R255): its own, or the latest sheet launched at or before its instant, once every such sheet is written. -/
def State.hitRow (s : State) (l : Nat) (h : Hit) : Option Nat :=
  match h.row with
  | some r => some r
  | none =>
    if s.sheetsBefore l h.inst then none
    else (((s.feltOf l).rows.filter (fun r => decide (r.tick ≤ h.inst))).getLast?).map FeltRow.fsn

/-- Captures of the line's trigger rows up to this FSN may be formed (R256): those of quires whose trigger jobs are complete, or, when no
trigger job follows, of complete quires; on a stopped line with nothing left to process, of every row. -/
def State.formable (s : State) (l : Nat) : Nat :=
  let f := s.feltOf l
  let jobs := s.pointArmed l && (s.slowCfg l).started
  let left := !(s.slowOf l).queue.isEmpty || !(s.slowOf l).forTriggers.isEmpty
  if (s.lineOf l).st = 0 && !(jobs && left) then f.fsn
  else if jobs then 32 * (s.ltOf l).decided
  else f.fsn / 32 * 32

/-- A region of hits (R256). -/
structure Region where
  lo : Nat
  hi : Nat
  pre : Nat
  post : Nat
  hits : List Hit

/-- Merge hits sorted by their low bound. -/
def regionsOf : List (Nat × Nat × Hit) → List Region
  | [] => []
  | (lo, hi, h) :: rest =>
    match regionsOf rest with
    | r :: more =>
      if r.lo ≤ hi + 1 then ⟨lo, max hi r.hi, max h.pre r.pre, max h.post r.post, h :: r.hits⟩ :: more
      else ⟨lo, hi, h.pre, h.post, [h]⟩ :: r :: more
    | [] => [⟨lo, hi, h.pre, h.post, [h]⟩]

/-- Merge again until no two regions touch: a long window may reach past a later start. -/
def settleRegions : Nat → List Region → List Region
  | 0, l => l
  | n + 1, l =>
    let go := l.foldl (fun (acc : List Region) r =>
      match acc with
      | a :: more => if r.lo ≤ a.hi + 1 then ⟨a.lo, max a.hi r.hi, max a.pre r.pre, max a.post r.post, a.hits ++ r.hits⟩ :: more else r :: acc
      | [] => [r]) []
    if go.length = l.length then go.reverse else settleRegions n go.reverse

/-- The windows of hits on a line of `n` points, sorted. -/
def windowsOf (n : Nat) (hs : List Hit) : List (Nat × Nat × Hit) :=
  ((hs.map (fun h => (h.first - h.pad, min (n - 1) (h.last + h.pad), h))).filter (fun e => decide (e.1 ≤ e.2.1))).mergeSort
    (fun a b => decide (a.1 ≤ b.1))

def allInOne (l : List Region) : List Region :=
  match l with
  | [] => []
  | a :: r => [r.foldl (fun x y => ⟨min x.lo y.lo, max x.hi y.hi, max x.pre y.pre, max x.post y.post, x.hits ++ y.hits⟩) a]

/-- A capture open on the line that covers a hit on a trigger row (R259). -/
def State.missedBy (s : State) (l row : Nat) (h : Hit) : Bool :=
  s.trig.recs.any (fun r => !r.ready && !r.raw && r.line == l && bit r.causes h.cond && decide (r.trow < row) && decide (row ≤ r.hi) &&
    decide (h.first ≤ r.firstIndex + r.count - 1) && decide (r.firstIndex ≤ h.last))

def Missed.join (m : Option Missed) (stamp : BitVec 96) (inst : Nat) : Missed :=
  match m with
  | none => ⟨stamp, inst, 1⟩
  | some x => if inst < x.inst then ⟨stamp, inst, satAdd x.count 1⟩ else { x with count := satAdd x.count 1 }

/-- A missed hit on a line: counted, and kept for that line's next capture of the condition (R259). -/
def State.miss (s : State) (l : Nat) (h : Hit) : State :=
  s.modCond h.cond (fun r =>
    let held := match r.missedRec with | some (k, m) => if k = l then some m else none | none => none
    { r with missed := satAdd r.missed 1, missedRec := some (l, Missed.join held h.stamp h.inst) })

/-- The storm record's header in the storm table (Tables 8.8, 8.10). -/
def State.writeStorm (s : State) (l : Nat) : State :=
  let a := capRegionBase + 128 * 1024 + 128 * l
  match nth s.trig.storms l none with
  | none => s.writeBy 3 a (zeros 128)
  | some t =>
    let primary := ((List.range 32).find? (fun c => bit t.causes c)).getD 0
    let head := u16 2 ++ u16 0 ++ u32 0 ++ u32 t.causes ++ u8 primary ++ u8 l ++ u16 t.node ++ stampBytes t.first ++ u8 0 ++ u8 0 ++ u8 0xFF ++
      u8 0 ++ stampBytes t.first ++ stampBytes t.last ++ u32 0 ++ u32 0 ++ u32 t.lowest ++ u32 t.highest ++ zeros 16 ++ u32 0 ++ u32 0 ++ u64 0 ++
      u32 0 ++ u32 t.notMade ++ u32 0
    s.writeBy 3 a (head ++ u32 (crc32c head) ++ zeros 8)

/-- A capture not made enters its line's storm record (R267). -/
def State.notMade (s : State) (l causes node : Nat) (stamp : BitVec 96) (lo hi : Nat) : State :=
  let s1 := s.modLt l (fun x => { x with notMade := satAdd x.notMade 1 })
  let opens := match nth s.trig.storms l none with | some t => !t.open_ | none => true
  let t : Storm := match nth s.trig.storms l none with
    | none => ⟨true, node, stamp, stamp, lo, hi, causes, 1⟩
    | some t => { t with open_ := true, node := if causes % 2 ^ ((maskList 32 t.causes).headD 32) = 0 then t.node else node, last := stamp, lowest := min t.lowest lo, highest := max t.highest hi, causes := t.causes ||| causes
                         notMade := satAdd t.notMade 1 }
  let s2 := (s1.modTrig (fun x => { x with storms := x.storms.set l (some t) })).writeStorm l
  if opens then s2.raiseLine 0x0702 sevNotice l s2.now (u32 causes ++ u32 lo) none else s2

/-- The line makes a capture: its open storm closes (R267). -/
def State.closeStorm (s : State) (l : Nat) : State :=
  match nth s.trig.storms l none with
  | some t =>
    if t.open_ then
      (s.modTrig (fun x => { x with storms := x.storms.set l (some { t with open_ := false }) })).raiseLine 0x0703 sevInfo l s.now
        (u32 t.notMade ++ u32 t.lowest ++ u32 t.highest) none
    else s
  | none => s

/-- The missed records that the conditions named in CAUSES hold for a line: the earliest stamp and the sum of the counts, and all are cleared (R259). -/
def State.takeMissed (s : State) (line : Nat) (conds : List Nat) : State × Option Missed :=
  let mine := fun (r : CondRun) => match r.missedRec with | some (k, _) => k == line | none => false
  let l := conds.filterMap (fun c => if mine (s.condOf c) then (s.condOf c).missedRec.map Prod.snd else none)
  let m := match l with
    | [] => none
    | a :: r => some (r.foldl (fun (x : Missed) y => ⟨if y.inst < x.inst then y.stamp else x.stamp, min x.inst y.inst, satAdd x.count y.count⟩) a)
  (conds.foldl (fun s c => s.modCond c (fun r => if mine r then { r with missedRec := none } else r)) s, m)

/-- One region of a trigger row makes a point capture, or is entered in the storm record (R257, R258, R267). -/
def State.makeCapture (s : State) (l row : Nat) (r : Region) : State :=
  let f := s.feltOf l
  let conds := (List.range 32).filter (fun c => r.hits.any (fun h => h.cond == c))
  let causes := maskOf conds
  let prime := (r.hits.find? (fun h => h.cond == conds.headD 0)).getD default
  let lo := max (row - r.pre) (min f.oldest row)
  let stopped := decide ((s.lineOf l).st = 0)
  let last := if stopped then min (row + r.post) (max row (f.fsn - 1)) else row + r.post
  let count := r.hi - r.lo + 1
  let rowBytes := 32 + 4 * count
  let bytes := 128 + (last - lo + 1) * rowBytes
  let pages := ceilDiv bytes 4096
  match s.freeIndex, firstFit s.pagesUsed s.heapPages pages, decide (bytes ≤ 268435456) with
  | some i, some p, true =>
    let points := (r.hits.flatMap (fun h => if h.first = h.last then [h.first] else [h.first, h.last])).eraseDups
    let m := s.takeMissed l conds
    let flags := b2n (decide (row - r.pre < lo) || decide (row < r.pre)) + 2 * b2n (decide (last < row + r.post)) + 4 * b2n (decide (1 < points.length)) +
      16 * b2n m.2.isSome
    let rec_ : CapRec :=
      { index := i, ready := false, raw := false, flags := flags, seq := s.trig.seq, page := p, pages := pages, bytes := bytes
        trigger := prime.stamp, causes := causes, primary := prime.cond, line := l, node := prime.node, source := 0, set := 0, quad := 0xFF, lanes := 0
        firstStamp := 0#96, lastStamp := 0#96, firstIndex := r.lo, count := count, missed := m.2, rowBytes := rowBytes, rows := 0, fsn := lo
        rowsLost := 0, pre := row - lo, post := last - row, trow := row, lo := lo, hi := last, next := lo, delivered := false }
    let s1 := m.1.modTrig (fun t => { t with recs := t.recs ++ [rec_], seq := (t.seq + 1) % 2 ^ 32 })
    let s2 := conds.foldl (fun s c => s.modCond c (fun k => { k with captures := satAdd k.captures 1 })) s1
    -- a hold below the bound of a pending shrink is broken when it is made (R202)
    let broken := decide (lo < s2.shrinkBound l)
    ((s2.closeStorm l).modFelt l (fun f => { f with
      holds := f.holds ++ [⟨i, lo, last, broken⟩], holdsBroken := satAdd f.holdsBroken (b2n broken) })).writeEntry rec_
  | _, _, _ => s.notMade l causes prime.node prime.stamp r.lo r.hi

/-- CAPTURE_FORMED (R256): the captures of the line's earliest trigger row whose time has come. -/
def State.formCapture (s : State) (l : Nat) : State :=
  let placed := (s.ltOf l).hits.filterMap (fun h => (s.hitRow l h).map (fun r => (r, h)))
  let lost := (s.ltOf l).hits.filter (fun h => (s.hitRow l h).isNone && !s.sheetsBefore l h.inst && (s.lineOf l).st == 0)
  let ready := placed.filter (fun e => decide (e.1 < s.formable l))
  match ready with
  | [] => s.modLt l (fun x => { x with hits := x.hits.filter (fun h => !lost.contains h) })
  | e :: rest =>
    let row := rest.foldl (fun m x => min m x.1) e.1
    let mine := (ready.filter (fun x => x.1 == row)).map Prod.snd
    let s1 := s.modLt l (fun x => { x with hits := x.hits.filter (fun h => !mine.contains h && !lost.contains h) })
    let missed := mine.filter (s.missedBy l row)
    let fresh := mine.filter (fun h => !s.missedBy l row h)
    let s2 := missed.foldl (fun s h => s.miss l h) s1
    let n := (s.feltOf l).points
    let regions := settleRegions fresh.length (regionsOf (windowsOf n fresh))
    let s3 := if 64 < regions.length then s2.modLt l (fun x => { x with mergedAll := satAdd x.mergedAll 1 }) else s2
    (if 64 < regions.length then allInOne regions else regions).foldl (fun s r => s.makeCapture l row r) s3

/-! ### Copying (R257, R260, R261) -/

/-- The capture's hold is released. -/
def State.dropHold (s : State) (l i : Nat) : State := s.modFelt l (fun f => { f with holds := f.holds.filter (fun h => h.capture != i) })

/-- The row's bytes in a capture's window: the sheet record and the point samples (R257). -/
def FeltRow.window (r : FeltRow) (first count : Nat) : List Byte := r.record ++ ((r.words.drop first).take count).flatMap (fun w => u32 w.toNat)

/-- The words of a row's copy that DRAM cannot give: of the sheet record, words 0 to 7, and of the point samples after it. -/
def State.lostWords (s : State) (l fsn first count : Nat) : List Nat :=
  (if s.recordLost l fsn then List.range 8 else []) ++
    ((List.range count).filter (fun k => s.sampleLost l fsn (first + k))).map (fun k => 8 + k)

/-- The blocks of DRAM that hold word `k` of a row's copy. -/
def State.copiedBlocks (s : State) (l fsn first k : Nat) : List Nat :=
  if k < 8 then [(s.slotAddr l (fsn / 32) + fsn % 32 * 32) / 64] else s.sampleBlocks l fsn (first + (k - 8))

/-- A row is copied into the record, or passed over as lost; the record is ready after its last row. -/
def State.copyRow (s : State) (i : Nat) : State :=
  match s.recOf? i with
  | none => s
  | some r =>
    let f := s.feltOf r.line
    if r.ready || r.raw || r.hi < r.next || f.fsn ≤ r.next then s
    else
      let s1 := match f.rows.find? (fun x => x.fsn == r.next) with
        | none => s.modRec i (fun r => { r with rowsLost := satAdd r.rowsLost 1, next := r.next + 1 })
        | some x =>
          let stamp := BitVec.ofNat 96 (rd x.record 0 12)
          let to_ := pageAddr r.page + 128 + r.rows * r.rowBytes
          -- what DRAM has lost of the row is written poisoned (R396, R397)
          let lost := s.lostWords r.line r.next r.firstIndex r.count
          let bytes := (x.window r.firstIndex r.count).zipIdx.map (fun e => if lost.contains (e.2 / 4) then 0 else e.1)
          let s1 := (s.modRec i (fun r => { r with
            next := r.next + 1, rows := r.rows + 1, lastStamp := stamp, firstStamp := if r.rows = 0 then stamp else r.firstStamp
            fsn := if r.rows = 0 then x.fsn else r.fsn })).writeBy 3 to_ bytes
          let s2 := lost.foldl (fun s k => s.setBlock ((to_ + 4 * k) / 64) 2) s1
          if lost.isEmpty then s2 else (lost.flatMap (fun k => s.copiedBlocks r.line r.next r.firstIndex k)).eraseDups.foldl (fun s b => s.badRead 3 b) s2
      if r.hi ≤ r.next then (s1.recReady i).dropHold r.line i else s1

/-- Broken holds of a line are reported (R260): copying continues with the rows still held. -/
def State.sweepHolds (s : State) (l : Nat) : State :=
  let broken := (s.feltOf l).holds.filter Hold.broken
  broken.foldl (fun s h =>
    match s.recOf? h.capture with
    | none => s.dropHold l h.capture
    | some r =>
      let gone := min (max (s.feltOf l).oldest r.next) (r.hi + 1) - r.next
      let whole := decide ((s.feltOf l).fsn ≤ r.next) && (s.feltOf l).rows.isEmpty
      let n := if whole then r.hi + 1 - r.next else gone
      let s1 := (s.dropHold l h.capture).modRec r.index (fun r => { r with
        flags := r.flags ||| 8, rowsLost := satAdd r.rowsLost n, next := r.next + n })
      let s2 := s1.raiseLine 0x0704 sevNotice l s1.now (u16 r.index ++ u32 n) (some [])
      if r.hi < r.next + n then s2.recReady r.index else s2) s

/-- A line stop ends its open captures at the last row the felt received (R260). -/
def State.clipCaptures (s : State) (l : Nat) : State :=
  let top := (s.feltOf l).fsn - 1
  let open_ := s.trig.recs.filter (fun r => !r.ready && !r.raw && r.line == l && decide (top < r.hi))
  open_.foldl (fun s r =>
    let hi := max top r.trow
    let s1 := s.modRec r.index (fun r => { r with hi := hi, post := hi - r.trow, flags := r.flags ||| 2 })
    if hi < r.next then (s1.recReady r.index).dropHold l r.index else s1) s

/-- A condition was disarmed immediately: the open captures it is a cause of are discarded if all their causes are disarmed (R272). -/
def State.discardDisarmed (s : State) (c : Nat) : State :=
  let gone := s.trig.recs.filter (fun r => !r.ready && !r.raw && bit r.causes c && r.causes &&& s.cfg.armed == 0)
  gone.foldl (fun s r =>
    let s1 := (s.freeRec r.index).dropHold r.line r.index
    s1.abortItems (fun d => d.source == 4) 4 1 r.line r.trigger r.trigger) s

/-- TRIG_ARM_TAKES_EFFECT (R272). -/
def State.armEffectOf (s : State) (c : Nat) : State :=
  match s.pendOf 0x0702 c with
  | none => s
  | some p =>
    let x := p.applyAt.getD p.accepted
    if !s.armReady c x then s
    else
      let mode := rd p.data 4 1
      let s1 := s.armOne c mode
      let s2 := if mode = 2 then s1.discardDisarmed c else s1
      s2.strikeLast p c (s2.effStamp s2.now none) s2.now

/-! ### Raw sets (R262 to R265) -/

def State.setOf (s : State) (n : Nat) : RawSet := nth s.trig.sets n RawSet.reset
def State.modSet (s : State) (n : Nat) (f : RawSet → RawSet) : State := s.modTrig (fun t => { t with sets := upd t.sets n f })

/-- Roles of a lane set, in order. -/
def RawDef.roles (d : RawDef) : List Nat := maskList 5 d.lanes

/-- Bytes of a sample (Table 8.7). -/
def RawDef.sampleBytes (d : RawDef) : Nat :=
  match d.source with
  | 1 => 2 * d.roles.length
  | 2 => 16
  | 3 => 32 + 16 * d.count
  | _ => 32 + 4 * d.count

/-- Bytes of a segment in the store (R262). -/
def RawDef.segmentBytes (d : RawDef) : Nat := ceilDiv (128 + d.length * d.sampleBytes) 64 * 64

/-- Write rate in bytes per second (R262): sheet sources at the sheet rate of the line's plan (R45), spot sets at zero. -/
def State.rawRate (s : State) (d : RawDef) : Nat :=
  match d.source with
  | 1 | 2 => d.sampleBytes * cellsPerSecond
  | _ =>
    if d.spot then 0
    else match s.plan? d.quad with
      | none => 0
      | some p => d.sampleBytes * p.sheets

def RawSeg.fresh (d : RawDef) (now : Nat) (m : Option Missed) : RawSeg := ⟨d, now, 0, [], [], none, m⟩

/-- The segment is complete: its post-trigger samples are written (R263). -/
def RawSeg.full (g : RawSeg) : Bool := match g.trig with | some t => t.taken && decide (t.post ≤ t.after) | none => false

/-- A sample enters the armed segment's ring of LENGTH samples (R263). -/
def RawSeg.write (g : RawSeg) (x : Nat) (stamp : BitVec 96) (bytes : List Byte) : RawSeg :=
  if g.full then g
  else
    let t := g.trig.map (fun t =>
      if t.taken then { t with after := t.after + 1 }
      else if t.sample ≤ x then { t with taken := true, sample := x, pre := min t.pre g.written } else t)
    let all := (x, stamp, bytes) :: g.ring
    { g with
      written := g.written + 1, ring := all.take g.cfg.length, trig := t
      dropped := if g.cfg.source ≤ 2 then [] else (all.drop g.cfg.length).map Prod.fst ++ g.dropped }

def State.sampleStamp (s : State) (d : RawDef) (x : Nat) : BitVec 96 := if d.quad < 16 then s.lineStamp d.quad x false else s.devStamp x

/-- A sample reaches a set. -/
def State.rawWrite (s : State) (n x : Nat) (stamp : BitVec 96) (bytes : List Byte) : State :=
  s.modSet n (fun r => { r with seg := r.seg.map (fun g => g.write x stamp bytes) })

/-- A released lane word reaches the lane sets of its quad: a sample is whole when every role of the set has given its word of the cell. -/
def State.rawLane (s : State) (q role x : Nat) (w : BitVec 16) : State :=
  (List.range 4).foldl (fun s n =>
    let r := s.setOf n
    if r.seg.isNone || r.cfg.source != 1 || r.cfg.quad != q || !r.cfg.roles.contains role then s
    else
      let words := (if r.cell = x then r.roleWords else []) ++ [(role, w)]
      let s1 := s.modSet n (fun r => { r with cell := x, roleWords := words })
      if r.cfg.roles.all (fun k => words.any (fun e => e.1 == k)) then
        s1.rawWrite n x (s1.sampleStamp r.cfg x) (r.cfg.roles.flatMap (fun k =>
          u16 (((words.find? (fun e => e.1 == k)).map (fun e => e.2.toNat)).getD 2)))
      else s1) s

/-- The lane word of a role at an instant, NOT_READY when none was released. -/
def State.wordAt (s : State) (q role x : Nat) : BitVec 16 :=
  match roleIn ((s.quadOf q).convsAt x) role with
  | some j => (((nth (s.quadOf q).words j []).find? (fun e => e.1 == x)).map Prod.snd).getD 2#16
  | none => 2#16

/-- A 32-bit tap word of an 18-bit value with lane flags. -/
def tap18 (v : Int) (w : BitVec 16) : List Byte := u32 (ux 18 v * 2 ^ 14 + field w.toNat 0 4)

/-- The settings under which the stage-2 tap runs at a cell: those of the latest launch in flight made by then (R19), otherwise those in force. -/
def State.tapCfg (s : State) (l y : Nat) : LineCfg :=
  match ((s.gridOf l).inFlight.filter (fun e => decide (e.tick ≤ y))).getLast? with
  | some e => e.cfg
  | none => s.lineCfg l

/-- The stage-2 tap of a line at a cell (Table 8.7): one Jones pair, rotated by the reference where phase-noise correction is on. -/
def State.stage2Sample (s : State) (l y : Nat) : List Byte :=
  let conv := fun (q i : Nat) => (roleIn ((s.quadOf q).convsAt y) i).getD 0xFF
  let base := y - guardCells * ticksPerCell
  let m := 2 * guardCells + 1
  let px := s.pairWords l 0 base m (conv l 0) (conv l 1)
  let py := s.pairWords l 1 base m (conv l 2) (conv l 3)
  let at_ := fun (p : List (Int × Bool) × List (Int × Bool) × List Lane × List Lane) =>
    (⟨(nth p.1 guardCells (0, false)).1, (nth p.2.1 guardCells (0, false)).1⟩ : Cx)
  let cfg := s.tapCfg l y
  let shift := s.refShift cfg
  let frac := (shift % (ticksPerCell : Int)).toNat
  let refs := refsFrom (s.refHist (conv 16 0) (conv 16 1)) (((y : Int) + shift - (frac : Int)).toNat) 2
  let phi := interpPhi (refs.getD 0 RefCell.absent).phi (refs.getD 1 RefCell.absent).phi frac
  let turn := fun (v : Cx) => if cfg.pnc then (rotate v phi).1 else v
  let x := turn (at_ px)
  let z := turn (at_ py)
  tap18 x.re (s.wordAt l 0 y) ++ tap18 x.im (s.wordAt l 1 y) ++ tap18 z.re (s.wordAt l 2 y) ++ tap18 z.im (s.wordAt l 3 y)

/-- The stage-2 sets of a line take the cell whose lane and reference words have all been formed, while the quad is awake. -/
def State.rawStage2 (s : State) (l x : Nat) : State :=
  let ahead := (max 0 (s.refShift (s.tapCfg l x))).toNat / ticksPerCell + refLag + guardCells + 2
  if x < ahead * ticksPerCell then s
  else
    let y := x - ahead * ticksPerCell
    (List.range 4).foldl (fun s n =>
      let r := s.setOf n
      if r.seg.isSome && r.cfg.source == 2 && r.cfg.quad == l && s.readyAt l y then
        s.rawWrite n y (s.sampleStamp r.cfg y) (s.stage2Sample l y)
      else s) s

/-- A finished sheet reaches the sheet sets of its line (Table 8.7). -/
def State.rawSheet (s : State) (l : Nat) (o : SheetOut) : State :=
  let spot := match o.launch.kind with | .spot _ => true | _ => false
  let p := o.launch.plan
  let record := if o.produced then o.record
    else sheetRecord (if spot then s.secStamp o.launch.tick (some l) false else s.sheetStamp l o.launch) o.tone o.launch.engine
      (4 * b2n (o.launch.dark || o.launch.cut)) [] (s.lineOf l).eRef
  (List.range 4).foldl (fun s n =>
    let r := s.setOf n
    let d := r.cfg
    if r.seg.isNone || d.quad != l || d.spot != spot || (d.tone != 0xFF && d.tone != o.tone) then s
    else
      let rowOf := fun (l : List (List Byte)) (w : Nat) => ((l.drop d.first).take d.count).flatten ++ zeros (w * (d.first + d.count - max d.first l.length))
      if d.source = 3 then
        let cells := o.stage5.zipIdx.map (fun e =>
          let x := o.launch.tick + (p.first + e.2 * p.d) * ticksPerCell
          let f := fun (v : Int) (role : Nat) => u32 (ux 20 v * 4096 + field (s.wordAt l role x).toNat 0 4)
          f e.1.1.re 0 ++ f e.1.1.im 1 ++ f e.1.2.re 2 ++ f e.1.2.im 3)
        s.rawWrite n o.launch.tick (BitVec.ofNat 96 (rd record 0 12)) (record ++ (rowOf cells 16).take (16 * d.count))
      else if d.source = 4 && !o.stage7.isEmpty then
        let pts := o.stage7.zipIdx.map (fun e =>
          u32 (ux 20 e.1.1 * 4096 + e.1.2 % 256 * 16 + 4 * b2n (nth o.invalid e.2 false) + 2 * b2n (nth o.clipped e.2 false)))
        s.rawWrite n o.launch.tick (BitVec.ofNat 96 (rd record 0 12)) (record ++ (rowOf pts 4).take (4 * d.count))
      else s) s

/-- A launch makes a sheet that a sheet set takes (Table 8.7): of its tone and kind, and for the stage-7 tap a whole one. -/
def RawDef.takes (d : RawDef) (e : Launch) : Bool :=
  match e.kind with
  | .tone t => !d.spot && (d.tone == 0xFF || d.tone == t) && (d.source == 3 || (e.plan.tone t).cls != 2 || e.code == 3)
  | .spot t => d.spot && (d.tone == 0xFF || d.tone == t)
  | _ => false

/-- The trigger sample's instant for a hit on a set (R263): for a sheet set the latest sheet launched by then, in the engine or taken since the
segment was armed; none when there is none. -/
def State.sampleFor (s : State) (r : RawSet) (h : RawHit) : Option Nat :=
  if r.cfg.source ≤ 2 then some (h.sample.getD (ceilDiv h.inst ticksPerCell * ticksPerCell))
  else
    let flying := ((s.gridOf r.cfg.quad).inFlight.filter (fun e => r.cfg.takes e && decide (e.tick ≤ h.inst))).map Launch.tick
    let taken := match r.seg with | some g => (g.ring.map Prod.fst ++ g.dropped).filter (fun x => decide (x ≤ h.inst)) | none => []
    match flying ++ taken with
    | [] => none
    | x :: l => some (l.foldl max x)

/-- δ of R263: how many samples were written after the one of an instant. -/
def RawSeg.delta (g : RawSeg) (x : Nat) : Nat :=
  let kept := (g.ring.filter (fun e => decide (x < e.1))).length
  if 2 < g.cfg.source then kept + (g.dropped.filter (fun y => decide (x < y))).length
  else match g.ring.getLast? with
    | some e => if x < e.1 then kept + (e.1 - x) / ticksPerCell - 1 else kept
    | none => kept

/-- RAW_TRIGGER (R255, R263, R264): the oldest hit of a condition on its way to the set places its trigger sample, joins the segment's causes,
is missed during re-arm, or is late. -/
def State.rawTrigger (s : State) (n c : Nat) : State :=
  let r := s.setOf n
  match r.triggers.find? (fun h => h.cond == c) with
  | none => s
  | some h =>
    let s1 := s.modSet n (fun r => { r with triggers := r.triggers.erase h })
    let missIt := fun (s : State) => s.modSet n (fun r =>
      match r.rearm with
      | some m => { r with missed := satAdd r.missed 1, rearm := some (some (Missed.join m h.stamp h.inst)) }
      | none => { r with missed := satAdd r.missed 1 })
    match r.seg with
    | none => if r.st = 0 then s1 else missIt s1
    | some g =>
      let x := (s.sampleFor r h).getD s.now
      match g.trig with
      | some t =>
        if t.sample = x || (!t.taken && r.cfg.source ≤ 2 && x ≤ t.sample && t.sample < x + ticksPerCell) then
          let t1 := if c < t.primary then { t with causes := t.causes ||| 2 ^ c, primary := c, stamp := h.stamp, node := h.node }
            else { t with causes := t.causes ||| 2 ^ c }
          s1.modSet n (fun r => { r with seg := some { g with trig := some t1 } })
        else missIt s1
      | none =>
        let post := r.cfg.length - r.cfg.pre - 1
        let delta := g.delta x
        let written := match g.ring with | e :: _ => decide (x ≤ e.1) | [] => false
        if !written then
          let t1 := ⟨x, false, 0, r.cfg.pre, post, false, 2 ^ c, c, h.stamp, h.node⟩
          s1.modSet n (fun r => { r with seg := some { g with trig := some t1 }, rearm := some none })
        else if r.cfg.length ≤ delta || g.written ≤ delta then
          ((s1.modSet n (fun r => { r with late := satAdd r.late 1 })).modCond c (fun k => { k with late := satAdd k.late 1 })).raiseNow 0x0706
            sevNotice srcDevice (u8 n ++ u8 c ++ u32 (satTo 4 delta)) (some [])
        else
          let before := g.written - 1 - delta
          let late := decide (post < delta)
          let pre := if late then min (r.cfg.length - 1 - delta) before else min r.cfg.pre before
          let t1 := ⟨x, true, delta, pre, if late then delta else post, late, 2 ^ c, c, h.stamp, h.node⟩
          s1.modSet n (fun r => { r with seg := some { g with trig := some t1 }, rearm := some none })

/-- Segments of the set in the store: the armed one and those closed. -/
def RawSet.inStore (r : RawSet) : Nat := r.closed.length + b2n r.seg.isSome

/-- RAW_SEGMENT_CLOSE (R263, R264): a full segment closes; without a free segment the set stalls. -/
def State.rawClose (s : State) (n : Nat) : State :=
  let r := s.setOf n
  match r.seg with
  | none => s
  | some g =>
    if !g.full then s
    else
      let more := (r.cfg.total = 0 || r.segsClosed + 1 < r.cfg.total) && r.stop.isNone
      let stall := more && decide (r.cfg.segments ≤ r.closed.length + 1)
      let s1 := s.modSet n (fun r => { r with
        seg := none, closed := r.closed ++ [g], segsClosed := r.segsClosed + 1, made := satAdd r.made 1, roleWords := []
        rearm := if more then some (r.rearm.getD none) else none, st := if stall then 2 else r.st })
      if stall then s1.raiseNow 0x0708 sevNotice srcDevice (u8 n) (some []) else s1

/-- RAW_REARM (R264): the next segment is armed once a free segment exists. -/
def State.rawRearm (s : State) (n : Nat) : State :=
  let r := s.setOf n
  match r.seg, r.rearm with
  | none, some m =>
    if r.st ≠ 0 && decide (r.closed.length < r.cfg.segments) && r.stop.isNone then
      s.modSet n (fun r => { r with seg := some (RawSeg.fresh r.cfg s.now m), rearm := none, st := 1 })
    else s
  | _, _ => s

/-- The samples of a closed segment that make its record, oldest first. -/
def RawSeg.chosen (g : RawSeg) : List (Nat × BitVec 96 × List Byte) :=
  match g.trig with
  | none => []
  | some t => (g.ring.take (t.pre + 1 + t.post)).reverse

/-- RAW_COPY_OUT (R265, R266): the oldest closed segment becomes a pool record and its store segment is freed. -/
def State.rawCopy (s : State) (n : Nat) : State :=
  let r := s.setOf n
  match r.closed with
  | [] => s
  | g :: rest =>
    let d := g.cfg
    let t := g.trig.getD default
    let l := g.chosen
    let bytes := 128 + l.length * d.sampleBytes
    match s.freeIndex, firstFit s.pagesUsed s.heapPages (ceilDiv bytes 4096) with
    | some i, some p =>
      let conds := maskList 32 t.causes
      let rec_ : CapRec :=
        { index := i, ready := false, raw := true, flags := b2n (decide (t.pre < d.pre)) + 16 * b2n g.missed.isSome + 32 * b2n t.late
          seq := s.trig.seq, page := p, pages := ceilDiv bytes 4096, bytes := bytes, trigger := t.stamp, causes := t.causes, primary := t.primary
          line := if d.quad < 16 then d.quad else 0xFF, node := t.node, source := d.source, set := n, quad := if d.source = 1 then d.quad else 0xFF
          lanes := if d.source = 1 then d.lanes else 0, firstStamp := (l.head?.map (fun e => e.2.1)).getD 0#96
          lastStamp := (l.getLast?.map (fun e => e.2.1)).getD 0#96, firstIndex := if 3 ≤ d.source then d.first else 0
          count := if 3 ≤ d.source then d.count else 0, missed := g.missed, rowBytes := d.sampleBytes, rows := l.length, fsn := 0, rowsLost := 0
          pre := t.pre, post := t.post, trow := 0, lo := 0, hi := 0, next := 0, delivered := false }
      let s1 := s.modTrig (fun t => { t with recs := t.recs ++ [rec_], seq := (t.seq + 1) % 2 ^ 32 })
      let s2 := (s1.modSet n (fun r => { r with closed := rest })).writeBy 3 (pageAddr p + 128) (l.flatMap (fun e => e.2.2))
      let s3 := conds.foldl (fun s c => s.modCond c (fun k => { k with captures := satAdd k.captures 1 })) s2
      s3.recReady i
    | _, _ => s

/-- CAP_RAW_DONE (R265, R275): a set ends by TOTAL, or by a drain or an immediate stop. -/
def State.rawDone (s : State) (n : Nat) : State :=
  let r := s.setOf n
  let finish := fun (s : State) (mode discarded : Nat) =>
    let s1 := s.modSet n (fun r => { r with st := 0, seg := none, stop := none, rearm := none, triggers := [], roleWords := [] })
    let s2 := s1.raiseNow 0x0709 sevInfo srcDevice (u8 n ++ u8 mode ++ u32 r.segsClosed ++ u32 discarded) none
    match s2.pendOf 0x0708 n with
    | some p => if mode = 0 then s2 else s2.strikeLast p n (s2.effStamp s2.now none) s2.now
    | none => s2
  match r.stop with
  | some 2 => finish s 2 r.discarded
  | some _ =>
    if r.seg.any (fun g => g.trig.isSome) || !r.closed.isEmpty then s else finish s 1 (r.discarded + b2n r.seg.isSome)
  | none => if r.st ≠ 0 && 0 < r.cfg.total && decide (r.cfg.total ≤ r.segsClosed) then finish s 0 r.discarded else s

/-! ### Commands -/

/-- `cap.config` (R273). -/
def capConfig : Handler := fun c s =>
  let m := rd c.arg 0 4
  if m < 256 || 16384 < m || m % 64 ≠ 0 then reject s stBadArg
  else if !s.sharesOf s.pendingFelt s.pendingSlow (s.usableUnder s.cfg.mem.mask) m then reject s stNoResource
  else okay (s.modCfg (fun g => { g with capMib := m }))

def readRaw (p : List Byte) : RawDef :=
  ⟨rd p 1 1, rd p 2 1, rd p 3 1, rd p 4 2, bit (rd p 6 1) 0, rd p 7 1, rd p 8 4, rd p 12 4, rd p 16 4, rd p 20 4, rd p 24 4, rd p 28 4⟩

def State.rawOk (s : State) (d : RawDef) : Bool :=
  let sheet := decide (3 ≤ d.source)
  decide (1 ≤ d.source) && decide (d.source ≤ 4) && (if d.source = 1 then s.quadEnabled d.quad else s.lineEnabled d.quad) &&
    (if d.source = 1 then decide (0 < d.lanes) && decide (d.lanes < 32) else d.lanes == 0) && decide (1 ≤ d.segments) && decide (d.segments ≤ 4096) &&
    (sheet || !d.spot) && (if sheet then decide (d.tone ≤ 7) || d.tone == 0xFF else d.tone == 0) && decide (2 ≤ d.length) && decide (d.pre < d.length) &&
    (if sheet then decide (1 ≤ d.count) && decide (d.count ≤ 65536) else d.first == 0 && d.count == 0) && d.causes % 65536 == 0

/-- `cap.raw_arm` (R262, R274). -/
def capRawArm : Handler := fun c s =>
  let n := rd c.arg 0 1
  let d := readRaw c.arg
  let others := (List.range 4).filter (fun k => k != n && (s.setOf k).st != 0)
  let sum := fun (f : RawDef → Nat) => f d + (others.map (fun k => f (s.setOf k).cfg)).sum
  if 3 < n || !s.rawOk d then reject s stBadArg
  else if (s.setOf n).st ≠ 0 || (2 ≤ d.source && (s.plan? d.quad).isNone) then reject s stWrongState
  else if 33554432 < sum (fun d => d.segments * d.segmentBytes) || 4096 < sum RawDef.segments then reject s stNoResource
  else if 16000000000 < sum s.rawRate then reject s stOverBudget
  else if s.noDram then reject s stHwFault
  else okay (s.modSet n (fun r => { RawSet.reset with
    st := 1, cfg := d, seg := some (RawSeg.fresh d s.now none), closed := r.closed, made := r.made, missed := r.missed, late := r.late }))

/-- Raw sets stop (R275): an untriggered segment is discarded; in immediate form everything of the set is. -/
def State.stopSets (s : State) (sets : List Nat) (mode : Nat) : State :=
  sets.foldl (fun s n =>
    let r := s.setOf n
    let lost := if mode = 1 then r.inStore else b2n (r.seg.any (fun g => g.trig.isNone))
    let s1 := s.modSet n (fun r => { r with
      stop := some (mode + 1), discarded := r.discarded + lost, rearm := none, triggers := []
      seg := if mode = 1 then none else r.seg.filter (fun g => g.trig.isSome), closed := if mode = 1 then [] else r.closed })
    if mode = 1 then s1.abortItems (fun d => d.source == 4) 4 lost r.cfg.quad (s.devStamp s.now) (s.devStamp s.now) else s1) s

/-- `cap.raw_stop` (R275). -/
def capRawStop : Handler := fun c s =>
  let m := rd c.arg 0 1
  let sets := maskList 4 m
  let mode := rd c.arg 1 1
  if m = 0 || 15 < m || 1 < mode then reject s stBadArg
  else if sets.any (fun n => (s.pendOf 0x0708 n).isSome) then reject s stBusy
  else if sets.any (fun n => (s.setOf n).st = 0) then reject s stWrongState
  else pendWith (s.stopSets sets mode) c 0x0708 sets none

/-- SEQ order modulo 2^32 from a number. -/
def seqAfter (from_ q : Nat) : Nat := (q + 2 ^ 32 - from_ % 2 ^ 32) % 2 ^ 32

/-- `cap.list` (R266). -/
def capList : Handler := fun c s =>
  let from_ := rd c.arg 0 4
  let n := rd c.arg 4 2
  if n < 1 || 100 < n then reject s stBadArg
  else
    let l := ((s.trig.recs.filter (fun r => r.ready && decide (seqAfter from_ r.seq < 2 ^ 31))).mergeSort
      (fun a b => decide (seqAfter from_ a.seq ≤ seqAfter from_ b.seq))).take n
    okWith s (u16 l.length ++ zeros 2 ++ l.flatMap (fun r => u16 r.index ++ zeros 2 ++ r.entry))

/-- A stream has still to deliver a record (R276, R441). -/
def State.delivering (s : State) (i : Nat) : Bool :=
  s.streams.zipIdx.any (fun e => match e.1, nth s.cfg.streams e.2 none with
    | some r, some d => d.source == 4 && (r.waiting.any (fun x => x.2.ident == i && x.2.lost.isNone) || r.closed.any (fun q => q.ends.any (fun x => x.2.ident == i)))
    | _, _ => false)

/-- `cap.release` (R276). -/
def capRelease : Handler := fun c s =>
  let m := rd c.arg 0 2
  let n := rd c.arg 2 2
  let ix := (List.range n).map (fun k => rd c.arg (4 + 2 * k) 2)
  if 100 < n || ix.any (fun i => decide (4095 < i)) || !s.maskEnabled m then reject s stBadArg
  else if ix.any (fun i => match s.recOf? i with | some r => !r.ready | none => true) then reject s stWrongState
  else if ix.any s.delivering then reject s stInUse
  else
    let s1 := ix.foldl (fun s i =>
      (s.freeRec i).modTrig (fun t => t)) s
    okay ((maskList 16 m).foldl (fun s l => (s.modTrig (fun t => { t with storms := t.storms.set l none })).writeStorm l) s1)

/-- Runs of free heap pages. -/
def freeRuns (used : List (Nat × Nat)) (total : Nat) : List Nat :=
  let l := used.mergeSort (fun a b => decide (a.1 ≤ b.1))
  let r := l.foldl (fun (a : Nat × List Nat) e => (max a.1 e.2, a.2 ++ [e.1 - a.1])) (0, [])
  r.2 ++ [total - r.1]

def State.capBody (s : State) : List Byte :=
  let runs := freeRuns s.pagesUsed s.heapPages
  u32 s.capMibNow ++ u32 s.cfg.capMib ++ u16 (s.trig.recs.filter (fun r => !r.ready)).length ++
    u16 (s.trig.recs.filter CapRec.ready).length ++ u32 runs.sum ++ u32 (runs.foldl max 0) ++
    u16 (maskOf ((List.range 16).filter (fun l => (nth s.trig.storms l none).isSome))) ++ zeros 2 ++
    s.trig.sets.flatMap (fun r => u8 r.st ++ zeros 3 ++ u32 r.made ++ u32 r.missed ++ u32 r.late)

/-- `cap.status`. -/
def capStatus : Handler := fun c s =>
  let s1 := if bit (rd c.arg 0 1) 0 then
    (s.modTrig (fun t => { t with sets := t.sets.map (fun r => { r with made := 0, missed := 0, late := 0 }) })).clearSat 0x070C 0 else s
  okWith s1 s.capBody

end Sys2Proof.Machine
end

