-- ==== Sys2Proof/Machine/Therm.lean ====
section
/-! DEFINITION. The thermal slices (R311 to R326): taken sheets, intervals, switching, the temperature trace, sparing, and the commands
`therm.*`. -/

namespace Sys2Proof.Machine

def State.modTherm (s : State) (f : Therm → Therm) : State := { s with therm := f s.therm }
def State.sliceOf (s : State) (k : Nat) : SliceRun := nth s.therm.slices k default
def State.modSlice (s : State) (k : Nat) (f : SliceRun → SliceRun) : State := s.modTherm (fun t => { t with slices := upd t.slices k f })
def State.lthermOf (s : State) (l : Nat) : LineTherm := nth s.therm.lines l LineTherm.reset
def State.modLtherm (s : State) (l : Nat) (f : LineTherm → LineTherm) : State := s.modTherm (fun t => { t with lines := upd t.lines l f })
def State.thermCfg? (s : State) (l : Nat) : Option ThermCfg := nth s.cfg.therm l none
def State.ringOf (s : State) (k : Nat) : Nat := nth s.cfg.rings k 0

/-- The logical slice connected, or being connected, to a line. -/
def State.sliceAt (s : State) (l : Nat) : Option Nat :=
  (List.range 4).find? (fun k => (s.sliceOf k).line == some l && (s.sliceOf k).phys.isSome)

/-- Thermal work runs in P0 and P1 only (R339). -/
def State.thermOn (s : State) : Bool := decide (s.pwr.st < 2)

/-! ### Taken sheets (R314, R315) -/

/-- A launch of the line is one that a slice measures: the thermal launch in mode 1, the tone of the configuration in mode 2. -/
def ThermCfg.wants (g : ThermCfg) (p : Plan) (k : LaunchKind) : Bool :=
  match k with
  | .thermal => p.thermMode == 1
  | .tone t => p.thermMode == 2 && t == g.tone
  | .spot _ => false

/-- A grid launch is seen by the slice connected to its line. -/
def State.thermSee (s : State) (l : Nat) (e : Launch) : State :=
  match s.thermCfg? l, s.sliceAt l with
  | some g, some k =>
    let c := s.sliceOf k
    if g.wants e.plan e.kind && decide (c.connectedAt ≤ e.tick) && !c.leave then
      let back := e.tick + e.plan.thermN / 2 * e.plan.period * ticksPerCell
      s.modSlice k (fun c => { c with cand := c.cand ++ [⟨e.tick, e.second, e.index, e.dark || e.cut, g.background && e.plan.thermMode == 1, back⟩] })
    else s
  | _, _ => s

/-- Emission was forbidden at an instant (R61). -/
def State.darkAt (s : State) (x : Nat) : Bool :=
  (match s.emit.inhibitedSince with | some a => decide (a ≤ x) | none => false) ||
    s.emit.past.any (fun e => decide (e.1 ≤ x) && decide (x < e.2))

/-- The sheet cell after the last that a measurement samples. -/
def ThermCfg.endCell (g : ThermCfg) : Nat := max (g.first + g.bins * g.tbin) (g.darkFirst + g.darkCount)

/-- Codes by bin, and the dark window's: a sheet's codes stand bin after bin, the dark window's after them. -/
def ThermCfg.binCodes (g : ThermCfg) (codes : List Int) : List (List Int) := (chunks (g.tbin / 2) g.bins (codes.take (g.bins * (g.tbin / 2))))
def ThermCfg.darkCodes (g : ThermCfg) (codes : List Int) : List Int := (codes.drop (g.bins * (g.tbin / 2))).take (g.darkCount / 2)

/-- A sample is clipped at its code's extremes (R313). -/
def clippedCode (c : Int) : Bool := c == -8192 || c == 8191

def addLists (n : Nat) (a b : List Int) : List Int := (List.range n).map (fun i => nth a i 0 + nth b i 0)
def orLists (n : Nat) (a b : List Bool) : List Bool := (List.range n).map (fun i => nth a i false || nth b i false)

/-- A taken sheet, with its background sheet's codes when there is one, enters the accumulators (R319). -/
def Interval.take (v : Interval) (g : ThermCfg) (e : ThermSheet) (as st : List Int) (back : Option (List Int × List Int)) : Interval :=
  let a := g.binCodes as
  let t := g.binCodes st
  let da := g.darkCodes as
  let dt := g.darkCodes st
  let n := g.bins
  let ba := (back.map (fun x => g.binCodes x.1)).getD []
  let bt := (back.map (fun x => g.binCodes x.2)).getD []
  let clip := fun (l : List (List Int)) => l.map (fun c => c.any clippedCode)
  { v with
    taken := v.taken + 1
    accAs := addLists n v.accAs (a.map sumI), accSt := addLists n v.accSt (t.map sumI)
    bgAs := addLists n v.bgAs (ba.map sumI), bgSt := addLists n v.bgSt (bt.map sumI)
    darkAs := v.darkAs + sumI da, darkSt := v.darkSt + sumI dt, darkSq := v.darkSq + sumI (da.map (fun x => x * x))
    clips := orLists n v.clips (orLists n (orLists n (clip a) (clip t)) (orLists n (clip ba) (clip bt)))
    darkClip := v.darkClip || da.any clippedCode || dt.any clippedCode
    first := some (v.first.getD e), last := some e }

/-- The interval has all its sheets. -/
def Interval.full (v : Interval) (g : ThermCfg) : Bool := decide (g.interval ≤ v.taken)

/-- An interval is in progress on a slice: a sheet of it has been taken, or a thermal sheet waits for its background sheet. -/
def SliceRun.inProgress (c : SliceRun) : Bool := decide (0 < c.iv.taken) || c.held.isSome

/-- Sheets not taken for darkness (R314). -/
def State.thermDiscard (s : State) (k l n : Nat) : State :=
  (s.modSlice k (fun c => { c with held := none, iv := { c.iv with discarded := c.iv.discarded + n } })).modLtherm l
    (fun x => { x with discarded := satAdd x.discarded n })

/-- The first sheet, or pair, after a switch is discarded (R318); any other is taken. -/
def State.thermTake (s : State) (k l : Nat) (g : ThermCfg) (e : ThermSheet) (as st : List Int) (back : Option (List Int × List Int)) : State :=
  if (s.sliceOf k).discardNext then
    (s.modSlice k (fun c => { c with held := none, discardNext := false })).modLtherm l (fun x => { x with switchDiscards := satAdd x.switchDiscards 1 })
  else s.modSlice k (fun c => { c with held := none, iv := c.iv.take g e as st back })

/-- THERMAL_SHEET_TAKEN: the oldest sheet the slice has seen, or the background sheet of the one held, is complete. -/
def State.thermSheet (s : State) (l : Nat) (as st : List Int) (background : Bool) : State :=
  match s.thermCfg? l, s.sliceAt l with
  | some g, some k =>
    let c := s.sliceOf k
    let reach := g.endCell * ticksPerCell
    if !s.thermOn || c.iv.full g || c.leave then s
    else if background then
      match c.held with
      | some (e, a, t) =>
        if s.now < e.backTick + reach then s
        else if s.darkAt e.backTick then s.thermDiscard k l 2
        else s.thermTake k l g e a t (some (as, st))
      | none => s
    else
      match c.cand, c.held with
      | e :: rest, none =>
        if s.now < e.tick + reach || (match c.closeAt with | some x => decide (x.1 ≤ e.tick) | none => false) then s
        else
          let s1 := s.modSlice k (fun c => { c with cand := rest })
          if e.dark then s1.thermDiscard k l (if e.pair then 2 else 1)
          else if e.pair then s1.modSlice k (fun c => { c with held := some (e, as, st) })
          else s1.thermTake k l g e as st none
      | _, _ => s
  | _, _ => s

/-! ### From ratio to temperature (R321 to R324) -/

/-- One bin's means over a common denominator: anti-Stokes, Stokes, the denominator (R321). -/
def Interval.means (v : Interval) (g : ThermCfg) (b : Nat) : Int × Int × Nat :=
  let m : Int := (g.tbin / 2 : Nat)
  let md : Int := (g.darkCount / 2 : Nat)
  if (match v.first with | some e => e.pair | none => g.background) then (nth v.accAs b 0 - nth v.bgAs b 0, nth v.accSt b 0 - nth v.bgSt b 0, v.taken * (g.tbin / 2))
  else (nth v.accAs b 0 * md - v.darkAs * m, nth v.accSt b 0 * md - v.darkSt * m, v.taken * (g.tbin / 2) * (g.darkCount / 2))

/-- The confidence figure of a valid bin (R324), from the exact ratio snr² = as² n m / σ². -/
def Interval.confidence (v : Interval) (g : ThermCfg) (as : Int) (den : Nat) : Nat :=
  let n := v.taken * (g.darkCount / 2)
  -- σ² = (dark_sq n md − dark_as²) / (n md)²
  let var := (v.darkSq * (n : Int) - v.darkAs * v.darkAs).toNat
  if var = 0 then 255
  else
    let num := as.natAbs * as.natAbs * (v.taken * (g.tbin / 2)) * n * n
    let d := den * den * var
    if num ≤ d then 1 else min 255 (roundHalfLog2 (num ^ 16) (d ^ 16)).toNat

/-- The exact temperature code of a bin as a fraction, in units of 1/1024 °C (R321): none when 1/T is not positive. `t` is the reference
temperature's code, `lref` and `lr` the logarithms in units of 2^-96. -/
def exactCode (g : ThermCfg) (t lref lr : Int) (b : Nat) : Option (Int × Nat) :=
  match f32 g.gamma, f32 g.dalpha with
  | some (gn, gd), some (an, ad) =>
    let f : Int := (fixScale : Int)
    let off : Int := an * (g.tbin : Int) * (2 * (g.refBin : Int) + (g.refBins : Int) - 1 - 2 * (b : Int)) * f / (2 * (ad : Int))
    let inv := f * 102400 / (100 * t + 27970560) + (lref - lr + off) * (gd : Int) / gn
    if inv ≤ 0 then none else some (102400 * f - 27970560 * inv, (100 * inv).toNat)
  | _, _ => none

/-- The words of a bin: temperature word, then the two means of RAW. -/
structure BinOut where
  word : BitVec 32
  as : Nat
  st : Nat
deriving DecidableEq, Repr, Inhabited

def thermWord (t : Int) (conf : Nat) (settling invalid clipped splice : Bool) : BitVec 32 :=
  BitVec.ofNat 32 (ux 20 t * 2 ^ 12 + conf * 16 + 8 * b2n settling + 4 * b2n invalid + 2 * b2n clipped + b2n splice)

/-- Every bin of an interval. `t` is the reference temperature, none when stale; `beyond` says of a bin that it lies past the fibre end;
`pick` the free choice within one code. -/
def Interval.bins (v : Interval) (g : ThermCfg) (t : Option Int) (beyond : Nat → Bool) (fresh : Bool) (pick : Nat → Int) : List BinOut :=
  let ms := (List.range g.bins).map (v.means g)
  let ok := ms.map (fun e => decide (0 < e.1) && decide (0 < e.2.1))
  let lr := (ms.zip ok).map (fun e => if e.2 then lnFix e.1.1.toNat e.1.2.1.toNat else 0)
  let refs := (List.range g.refBins).filter (fun i => nth ok (g.refBin + i) false)
  let lref : Int := if refs.isEmpty then 0 else sumI (refs.map (fun i => nth lr (g.refBin + i) 0)) / (refs.length : Int)
  let splice := decide (0 < v.discarded)
  (List.range g.bins).map (fun b =>
    let m := nth ms b (0, 0, 1)
    let good := nth ok b false
    let clip := nth v.clips b false || v.darkClip
    let bad := thermWord 0 0 fresh true clip splice
    let word := match t with
      | none => bad
      | some t =>
        if !good || refs.isEmpty || beyond b then bad
        else match exactCode g t lref (nth lr b 0) b with
          | none => bad
          | some (n, d) =>
            let c := withinOne n d (pick b)
            if c < -524288 || 524287 < c then bad else thermWord c (v.confidence g m.1 m.2.2) fresh false clip splice
    ⟨word, if good then ux 32 (rneDiv (256 * m.1) m.2.2) else 0, if good then ux 32 (rneDiv (256 * m.2.1) m.2.2) else 0⟩)

/-! ### Traces (R320, R322, R325) -/

/-- The reference temperature at an interval's close (R322): none when stale. -/
def State.refTemp (s : State) (g : ThermCfg) : Option Int :=
  if g.fixedRef then some g.tFixed
  else match (nth s.therm.front.chans g.refSensor RefChan.reset).valid with
    | some (x, t) => if s.now ≤ x + g.refAge * ticksPerSecond then some t else none
    | none => none

def thermSel (l : Nat) (d : StreamDef) : Bool := d.source == 3 && d.line == l

/-- The stamp of a taken sheet, at cell FIRST (Table 10.4). -/
def State.thermStamp (s : State) (l : Nat) (g : ThermCfg) (e : ThermSheet) : BitVec 96 :=
  sheetStampOf e.second e.index g.first 0 l (s.flagsAt (e.tick + g.first * ticksPerCell))

/-- The trace of a slice's interval, released to the streams and kept for the zones. -/
def State.formTrace (s : State) (k l : Nat) (g : ThermCfg) : State :=
  let c := s.sliceOf k
  let v := c.iv
  match v.first, v.last with
  | some e0, some e1 =>
    let t := s.refTemp g
    let short := !v.full g
    let eRef := (s.lineOf l).eRef
    let beyond := fun b => match eRef with | some x => decide (x < (g.first + b * g.tbin) * 256) | none => false
    let free := s.free
    let outs := v.bins g t beyond (s.lthermOf l).fresh (Config.temperatureCode free)
    let words := outs.map BinOut.word
    let stamp := s.thermStamp l g e1
    let flags := b2n g.raw + 2 * b2n g.background + 4 * b2n g.fixedRef + 8 * b2n t.isNone + 16 * b2n short + 32 * b2n c.spared
    let head := stampBytes stamp ++ u8 l ++ u8 (c.phys.getD 0xFF) ++ u16 flags ++ u32 v.taken ++ u32 v.discarded ++
      leBytesS 4 (t.getD (Config.noReference free)) ++ u32 g.bins ++ stampBytes (s.thermStamp l g e0) ++ u16 g.tbin ++ u16 0
    let body := words.flatMap (fun w => u32 w.toNat) ++ (if g.raw then outs.flatMap (fun o => u32 o.as ++ u32 o.st) else [])
    let inst := e1.tick + g.first * ticksPerCell
    let s1 := { s with free := s.free + 1 }
    let geom := match s.plan? l with | some p => (p.first, p.pitch) | none => (0, 0)
    let trace : Trace := ⟨inst, words, g.first, g.tbin, geom.1, geom.2⟩
    let prev := if (s.lthermOf l).fresh then none else (s.lthermOf l).trace
    let s2 := (s1.modLtherm l (fun x => { x with
      traces := satAdd x.traces 1, short := if short then satAdd x.short 1 else x.short, fresh := false, staleRaised := t.isNone
      trace := some trace, number := x.number + 1 })).modSlice k (fun c => { c with spared := false })
    let s3 := (s2.deliver (thermSel l) ⟨head ++ body, stamp, inst, l, (s.lthermOf l).number, none⟩).toZones (fun d => d.thermal l) (.trace l trace prev)
    if t.isNone && !(s.lthermOf l).staleRaised then
      let age := match (nth s.therm.front.chans g.refSensor RefChan.reset).valid with
        | some (x, _) => satTo 4 ((s.now - x) / ticksPerSecond)
        | none => 0xFFFFFFFF
      s3.raiseLine 0x0902 sevNotice l s.now (u8 g.refSensor ++ u32 age) none
    else s3
  | _, _ => s

/-- An interval in progress is discarded without a trace (R320). -/
def State.discardInterval (s : State) (k : Nat) : State :=
  let c := s.sliceOf k
  let s1 := s.modSlice k (fun c => { c with iv := Interval.empty, held := none, cand := [], closeAt := none })
  match c.line with
  | none => s1
  | some l =>
    if !c.inProgress then s1
    else
      let s2 := s1.modLtherm l (fun x => { x with discardedIntervals := satAdd x.discardedIntervals 1 })
      match s.thermCfg? l, c.iv.first, c.iv.last with
      | some g, some a, some b => s2.abortItems (thermSel l) 5 1 l (s.thermStamp l g a) (s.thermStamp l g b)
      | _, _, _ => s2

/-! ### The rings (R317, R318) -/

/-- A line is measured: running, with a thermal plan and a thermal configuration. -/
def State.thermLine (s : State) (l : Nat) : Bool :=
  s.running l && (s.lineOf l).stop.isNone && (s.thermCfg? l).isSome &&
    (match s.plan? l with | some p => p.thermMode == 1 || p.thermMode == 2 | none => false)

/-- The next line of a logical slice's ring after a line, in increasing order, wrapping. -/
def State.nextOfRing (s : State) (k : Nat) (after : Option Nat) : Option Nat :=
  let ring := (maskList 16 (s.ringOf k)).filter s.thermLine
  match after with
  | none => ring.head?
  | some l => match ring.find? (fun x => decide (l < x)) with
    | some x => some x
    | none => ring.head?

/-- The slice's interval is over: it goes on with its line when the ring brings the same line next, or must stay on it after a plan change;
otherwise it leaves (R317, R320). -/
def State.intervalOver (s : State) (k : Nat) (stay : Bool) : State :=
  let c := s.sliceOf k
  let again := (stay || s.nextOfRing k c.line == c.line) && (match c.line with | some l => s.thermLine l | none => false)
  s.modSlice k (fun c => { c with
    iv := Interval.empty, held := none, closeAt := none, leave := !again
    cand := if again then (match c.closeAt with | some x => c.cand.filter (fun e => decide (x.1 ≤ e.tick)) | none => c.cand) else [] })

/-- A slice's place in a pending `therm.route` is done (R342). -/
def State.routeDone (s : State) (k : Nat) : State :=
  match s.pendOf 0x0902 k with
  | some p => s.strikeLast p k (s.effStamp s.now none) s.now
  | none => s

/-- THERMAL_INTERVAL_CLOSE: all sheets taken, or an event closes it early once the sheets launched before it are in. -/
def State.thermClose (s : State) (l : Nat) : State :=
  match s.thermCfg? l, s.sliceAt l with
  | some g, some k =>
    let c := s.sliceOf k
    let early := match c.closeAt with | some x => !c.cand.any (fun e => decide (e.tick < x.1)) | none => false
    if c.leave then s
    else if c.iv.full g || early then
      let s1 := if 0 < c.iv.taken then s.formTrace k l g else s
      ((s1.intervalOver k (match c.closeAt with | some x => x.2 | none => false))).routeDone k
    else s
  | _, _ => s

/-- An event closes the interval of the slice on a line early (R320). -/
def State.thermEarly (s : State) (l x : Nat) (stay : Bool) : State :=
  match s.sliceAt l with
  | some k => s.modSlice k (fun c => if c.closeAt.isSome || c.leave then c else { c with closeAt := some (x, stay) })
  | none => s

/-- The line stops (R320): immediate form discards its interval, drain form closes it. -/
def State.thermStop (s : State) (l x : Nat) (immediate : Bool) : State :=
  match s.sliceAt l with
  | some k =>
    if immediate then (s.discardInterval k).modSlice k (fun c => { c with leave := true }) else s.thermEarly l x false
  | none => s

/-- A slice that was gated is powered again for work that reaches it now (R496, Table 16.7). -/
def State.wakeSlice (s : State) (k : Nat) : State :=
  if s.pwr.st = 1 then s.modSlice k (fun c => { c with wakeAt := s.now + 100 * ticksPerUs }) else s

/-- Connect a slice to a line through a switch that begins now, or once the slice is powered (Table 10.2, R318, R496). -/
def State.switchTo (s : State) (k l : Nat) : State :=
  s.modSlice k (fun c => { c with
    line := some l, switching := true, connectedAt := max s.now c.wakeAt + 450 * ticksPerNs
    settleAt := max s.now c.wakeAt + 2450 * ticksPerNs, leave := false
    discardNext := true, cand := [], held := none, closeAt := none, iv := Interval.empty })

/-- The slice may switch: its interval is over, or it has no line that it could measure. -/
def State.mayLeave (s : State) (k : Nat) : Bool :=
  let c := s.sliceOf k
  c.leave || !c.inProgress && c.closeAt.isNone && (match c.line with
    | none => true
    | some l => !s.thermLine l || !bit (s.ringOf k) l)

/-- THERMAL_SWITCH of a logical slice, with the converters' check at it (R317, R509). -/
def State.thermSwitch (s : State) (k : Nat) (refError : Bool) : State :=
  let c := s.sliceOf k
  match c.phys, s.nextOfRing k c.line with
  | some p, some l =>
    if 3 < k || !s.thermOn || !s.mayLeave k || c.switching then s
    else
      let s1 := if c.line = some l then s.modSlice k (fun c => { c with leave := false }) else s.switchTo k l
      if refError && c.line != some l then s1.detect kindSlice p else s1
  | _, _ => s

/-- THERMAL_SWITCH_SETTLED. -/
def State.thermSettled (s : State) (k : Nat) : State :=
  let c := s.sliceOf k
  if c.switching && decide (c.settleAt ≤ s.now) then s.modSlice k (fun c => { c with switching := false }) else s

/-! ### Sparing (R326) -/

/-- The logical slice a physical slice serves. -/
def State.logicalOf (s : State) (p : Nat) : Option Nat := (List.range 4).find? (fun k => (s.sliceOf k).phys == some p)

/-- THERM_SPARED: the spare takes the logical slice of a physical slice that is due for test, wearing or retired. -/
def State.thermSpared (s : State) (p : Nat) : State :=
  let u := s.hUnit kindSlice p
  let logical := if u.st = 5 && u.noSpare then (List.range 4).find? (fun k => (s.sliceOf k).phys.isNone) else s.logicalOf p
  match logical, s.spareFor kindSlice p with
  | some k, some n =>
    if !u.wantsSpare && u.st ≠ 3 then s
    else
      let s1 := (s.discardInterval k).modSlice k (fun c => { c with phys := some n, spared := true }) |>.wakeSlice k
      let s2 := match s1.nextOfRing k none, (s1.sliceOf k).line with
        | some _, some l => if s1.thermLine l && bit (s1.ringOf k) l then s1.switchTo k l else s1.modSlice k (fun c => { c with leave := true })
        | _, _ => s1
      (s2.spareTakes kindSlice p n).raiseNow 0x0901 sevNotice (srcSlice p) (u8 k ++ u8 n ++ u8 u.spareCause) none
  | _, _ => s

/-- With no spare left the logical slice is unserved (R326): its interval is discarded and its test can run. -/
def State.sliceUnserved (s : State) (p : Nat) : State :=
  match s.logicalOf p with
  | some k => (s.discardInterval k).modSlice k (fun c => { c with phys := none, line := none, leave := false, switching := false })
  | none => s

/-- Intervals in progress are discarded on leaving P0 and P1 (R339). -/
def State.thermHalt (s : State) : State := [0, 1, 2, 3].foldl (fun s k => s.discardInterval k) s

/-! ### Commands -/

def readTherm (p : List Byte) : ThermCfg :=
  let f := rd p 1 1
  ⟨bit f 0, bit f 1, bit f 2, rd p 2 1, rd p 3 1, rd p 4 4, rd p 8 4, rd p 12 2, rd p 14 2, rd p 16 4, rd p 20 4, rd p 24 4, rd p 28 2, rd p 30 2,
    rd p 32 4, rd p 36 4, rdS p 40 4⟩

/-- The fields of Table 10.9 are in range, and the windows fit (R341, R314). -/
def ThermCfg.ok (g : ThermCfg) (plan : Option Plan) : Bool :=
  decide (g.tone ≤ 7) && decide (g.refSensor ≤ 7) && decide (g.first ≤ 524287) && decide (1 ≤ g.bins) && decide (g.bins ≤ 65536) &&
    decide (2 ≤ g.tbin) && decide (g.tbin ≤ 512) && g.tbin % 2 == 0 && decide (64 ≤ g.darkCount) && decide (g.darkCount ≤ 8192) &&
    g.darkCount % 2 == 0 && decide (1 ≤ g.interval) && decide (g.interval ≤ 16777216) && decide (1 ≤ g.refBins) && decide (g.refBins ≤ 4096) &&
    decide (1 ≤ g.refAge) && decide (g.refAge ≤ 3600) && f32In g.gamma 100 2000 1 && f32In g.dalpha (-1) 1 10000 &&
    decide (-524288 ≤ g.tFixed) && decide (g.tFixed ≤ 524287) && decide (g.first + g.bins * g.tbin ≤ 524288) &&
    decide (g.darkFirst + g.darkCount ≤ 524288) &&
    (decide (g.darkFirst + g.darkCount ≤ g.first) || decide (g.first + g.bins * g.tbin ≤ g.darkFirst)) && decide (g.refBin + g.refBins ≤ g.bins) &&
    !(g.background && (match plan with | some p => p.thermMode == 1 && decide (p.thermN < 2) | none => false))

/-- `therm.config` (R341). -/
def thermConfig : Handler := fun c s =>
  let l := rd c.arg 0 1
  let clear := bit (rd c.arg 1 1) 3
  if s.badLine l || (!clear && !(readTherm c.arg).ok (s.plan? l)) then reject s stBadArg
  else if (s.pendOf 0x0901 l).isSome then reject s stBusy
  else pendWith s c 0x0901 [l] none

/-- THERM_CONFIG_TAKES_EFFECT: once no interval of the line is in progress. -/
def State.thermCfgEffect (s : State) (l : Nat) : State :=
  match s.pendOf 0x0901 l with
  | none => s
  | some p =>
    if (match s.sliceAt l with | some k => (s.sliceOf k).inProgress | none => false) then s
    else
      let g := if bit (rd p.data 1 1) 3 then none else some (readTherm p.data)
      let s1 := (s.modCfg (fun r => { r with therm := r.therm.set l g })).modLtherm l (fun x => { x with fresh := true })
      let s2 := match s1.sliceAt l with | some k => s1.modSlice k (fun c => { c with cand := c.cand.filter (fun e => decide (s.now ≤ e.tick)) }) | none => s1
      s2.strikeLast p l (s2.effStamp s.now (some l)) s.now

/-- `therm.route` (R342). -/
def thermRoute : Handler := fun c s =>
  let mode := rd c.arg 0 1
  let masks := (List.range 4).map (fun k => rd c.arg (4 + 2 * k) 2)
  let twice := (List.range 16).any (fun l => decide (1 < (masks.filter (fun m => bit m l)).length))
  let all := masks.foldl (· ||| ·) 0
  let changed := (List.range 4).filter (fun k => nth masks k 0 != s.ringOf k)
  if 1 < mode || twice || !s.maskEnabled all then reject s stBadArg
  else if (s.pendOp 0x0902).isSome then reject s stBusy
  else if (maskList 16 all).any (fun l => (s.thermCfg? l).isNone) then reject s stWrongState
  else if changed.any (fun k => nth masks k 0 != 0 && (s.sliceOf k).phys.isNone) then reject s stNoSpare
  else
    let woken := changed.filter (fun k => s.ringOf k == 0)
    let s1 := woken.foldl State.wakeSlice (s.modCfg (fun g => { g with rings := masks }))
    let open_ := changed.filter (fun k => (s.sliceOf k).inProgress || (s.sliceOf k).closeAt.isSome)
    if mode = 1 || open_.isEmpty then
      let s2 := changed.foldl (fun s k => (s.discardInterval k).modSlice k (fun c => { c with leave := true })) s1
      let r := pendWith s2 c 0x0902 [0] none
      (r.1, r.2.routeDone 0)
    else
      let s2 := changed.foldl (fun s k =>
        if open_.contains k then s.modSlice k (fun c => { c with closeAt := some ((c.closeAt.map Prod.fst).getD s.now, false) })
        else s.modSlice k (fun c => { c with leave := true })) s1
      pendWith s2 c 0x0902 open_ none

def State.thermBody (s : State) (l : Nat) : List Byte :=
  let x := s.lthermOf l
  let ring := ((List.range 4).find? (fun k => bit (s.ringOf k) l)).getD 0xFF
  let at_ := s.sliceAt l
  let c := match at_ with | some k => s.sliceOf k | none => default
  let st := if at_.isNone || c.leave then 0 else if c.switching then 1 else 2
  let pst := fun (p : Nat) => let v := (s.hUnit kindSlice p).st; if 1 ≤ v && v ≤ 3 then v else 0
  u8 ring ++ u8 st ++ u16 0 ++ u32 (if at_.isSome then c.iv.taken else 0) ++ u32 x.traces ++ u32 x.discarded ++ u32 x.switchDiscards ++ u32 x.short ++
    u32 x.discardedIntervals ++ (List.range 4).flatMap (fun k => u8 ((s.sliceOf k).phys.getD 0xFF)) ++ (List.range 5).flatMap (fun p => u8 (pst p))

/-- `therm.status`. -/
def thermStatus : Handler := fun c s =>
  let l := rd c.arg 0 1
  if s.badLine l then reject s stBadArg
  else
    let s1 := if bit (rd c.arg 1 1) 0 then
        (s.modLtherm l (fun x => { x with traces := 0, discarded := 0, switchDiscards := 0, short := 0, discardedIntervals := 0 })).clearSat 0x0903 l
      else s
    okWith s1 (s.thermBody l)

end Sys2Proof.Machine
end

