-- ==== Sys2Proof/Machine/Ref.lean ====
section
/-! DEFINITION. The reference sensor front end (R327 to R339): conversions and their decimation chains, temperatures, scans and urgent
conversions, the record ring, and the commands `ref.*`. -/

namespace Sys2Proof.Machine

def State.front (s : State) : RefFront := s.therm.front
def State.modFront (s : State) (f : RefFront → RefFront) : State := s.modTherm (fun t => { t with front := f t.front })
def State.refChan (s : State) (n : Nat) : RefChan := nth s.therm.front.chans n RefChan.reset
def State.modChanRef (s : State) (n : Nat) (f : RefChan → RefChan) : State := s.modFront (fun r => { r with chans := upd r.chans n f })
def State.refCfg (s : State) (n : Nat) : RefChCfg := nth s.cfg.refCh n RefChCfg.factory

/-! ### Times (R328, R329, R330) -/

/-- A modulator cycle of 400 ns in ticks. -/
def modCycle : Nat := 400 * ticksPerNs

def RefChCfg.paired (c : RefChCfg) : Bool := c.type == 1 || c.type == 2 || c.type == 4
def RefChCfg.ratio (c : RefChCfg) : Nat := 2 ^ c.osr
/-- Modulator bits of one conversion. -/
def RefChCfg.bits (c : RefChCfg) : Nat := (if c.single then c.navg else 5 + c.navg) * 2 * c.ratio
/-- Step 6 of Table 10.6. -/
def RefChCfg.run (c : RefChCfg) : Nat := c.bits * modCycle
/-- A conversion or a pair, from its start to its last output. -/
def RefChCfg.duration (c : RefChCfg) : Nat := 72 * ticksPerUs + c.run + (if c.paired then 10 * ticksPerUs + c.run else 0)
/-- The excitation on-time of an NTC conversion, from step 3 on. -/
def RefChCfg.onTime (c : RefChCfg) : Nat := 50 * ticksPerUs + c.run

/-- The first modulator clock edge at or after an instant: edges stand at multiples of 400 ns from a second boundary. -/
def State.modEdge (s : State) (x : Nat) : Nat := x + (modCycle - (s.secondAt x).2 % modCycle) % modCycle

/-- The on-time a scan gives a channel in any 10 s. -/
def scanOn (c : RefChCfg) (scan : List Nat) (ms n : Nat) : Nat := (scan.filter (· == n)).length * c.onTime * ceilDiv 10000 (max 1 ms)

/-- An NTC channel stays within 1 % over 10 s, given an on-time besides the scan's (R330). -/
def dutyOk (c : RefChCfg) (scan : List Nat) (ms n extra : Nat) : Bool := c.type != 3 || decide (scanOn c scan ms n + extra ≤ 100 * ticksPerMs)

/-- A scan fits its PERIOD and its channels their duty (R344). -/
def scanFits (cfg : Nat → RefChCfg) (scan : List Nat) (ms : Nat) : Bool :=
  decide ((scan.map (fun n => (cfg n).duration)).sum ≤ (ms - 1) * ticksPerMs) && scan.all (fun n => dutyOk (cfg n) scan ms n 0)

/-! ### The decimation chains (R331, R332) -/

def bitVal (b : Bool) : Int := if b then 1 else -1

/-- Output `j` of the sinc² decimator by `osr`: the triangular-weighted sum of the bits, shifted to a range of ±2^23. -/
def sinc2 (bits : List Bool) (lg j : Nat) : Int :=
  let n := 2 ^ lg
  let lo := (j - 1) * n + (if j = 0 then 0 else 1)
  let seg := (bits.drop lo).take ((j + 1) * n - lo)
  let sum := sumI (seg.zipIdx.map (fun e => ((n - ((lo + e.2 : Nat) - (j * n : Nat) : Int).natAbs : Nat) : Int) * bitVal e.1))
  sum * (2 ^ (23 - 2 * lg) : Nat)

/-- The half-band stage over sinc² outputs in pairs: each output and whether it saturated 24 bits. -/
def halfStage : List Int → List Int → List Int → List (Int × Bool)
  | e :: o :: rest, odd, even =>
    let ev := e :: even.take 2
    roundSat 24 (halfSum o odd ev) (2 ^ 19) :: halfStage rest (o :: odd.take 4) ev
  | _, _, _ => []

/-- The outputs of a conversion in normal mode. -/
def normalOutputs (c : RefChCfg) (bits : List Bool) : List (Int × Bool) :=
  halfStage ((List.range (bits.length / c.ratio)).map (sinc2 bits c.osr)) [] []

/-- The outputs of a conversion: those of the half-band stage, or the one boxcar of single-cycle settling. -/
def RefChCfg.outputsOf (c : RefChCfg) (bits : List Bool) : List (Int × Bool) :=
  if c.single then [roundSat 24 (sumI (bits.map bitVal) * 2 ^ 23) bits.length] else normalOutputs c bits

/-- The outputs without SETTLING. -/
def RefChCfg.validOutputs (c : RefChCfg) (l : List (Int × Bool)) : List (Int × Bool) := if c.single then l else l.drop 5

def RefChCfg.codeOf (c : RefChCfg) (l : List (Int × Bool)) : Int :=
  let v := c.validOutputs l
  rneDiv (sumI (v.map Prod.fst)) v.length

/-- The variance of a list of codes, as a fraction. -/
def variance (l : List Int) : Nat × Nat :=
  let n : Int := (l.length : Nat)
  ((n * sumI (l.map (fun x => x * x)) - sumI l * sumI l).toNat, max 1 (l.length * l.length))

/-- The confidence figure of a result (R337): min(255, round_even(8 log2(2^23 / s))), s at least 1. -/
def refConfidence (v : Nat × Nat) : Nat :=
  let num := if v.1 ≤ v.2 then 2 ^ 46 else 2 ^ 46 * v.2
  let den := if v.1 ≤ v.2 then 1 else v.1
  min 255 (roundHalfLog2 (num ^ 8) (den ^ 8)).toNat

/-! ### Temperatures (R333) -/

/-- The Callendar–Van Dusen ratio R(T)/R0 at T = k/1024 °C, times 10^15 × 2^40. -/
def cvd (k : Int) : Int :=
  1000000000000000 * 2 ^ 40 + 3908300000000 * k * 2 ^ 30 - 577500000 * k * k * 2 ^ 20 - (if k < 0 then 4183 * (k - 102400) * k * k * k else 0)

/-- The greatest k in a range whose ratio does not exceed `num / den`, by bisection. -/
def cvdFloor (num : Int) (den : Nat) : Nat → Int → Int → Int
  | 0, lo, _ => lo
  | n + 1, lo, hi =>
    let m := (lo + hi + 1) / 2
    if cvd m * (den : Int) ≤ num * (1000000000000000 * 2 ^ 40) then cvdFloor num den n m hi else cvdFloor num den n lo (m - 1)

/-- The temperature code of a platinum sensor: the ratio R/R0 as a fraction; any code within one of the exact value, by the free choice. -/
def platinumCode (num : Int) (den : Nat) (pick : Int) : Int :=
  let k := cvdFloor num den 22 (-524290) 524289
  let exact := decide (cvd k * (den : Int) = num * (1000000000000000 * 2 ^ 40))
  clampI (if exact then k - 1 else k) (k + 1) pick

/-- The temperature code of an NTC sensor of resistance `num / den` ohms (Steinhart–Hart): none when the formula gives no positive 1/T. -/
def ntcCode (c : RefChCfg) (num : Int) (den : Nat) : Option Int :=
  match f32 c.shA, f32 c.shB, f32 c.shC with
  | some (an, ad), some (bn, bd), some (cn, cd) =>
    if num ≤ 0 then none
    else
      let f : Int := (fixScale : Int)
      let l := lnFix num.toNat den
      let inv := an * f / (ad : Int) + bn * l / (bd : Int) + cn * (l * l / f * l / f) / (cd : Int)
      if inv ≤ 0 then none else some (rneDiv (1024 * f * f * 100 - 27970560 * inv * f) (100 * inv * f).toNat)
  | _, _, _ => none

/-! ### Records (R337) -/

/-- The DRAM address of record 0 of the ring: a free place in the device region below the job region. -/
def refBase : Nat := 64 * (Config.refRing % ((jobRegionBase - 131072) / 64 + 1))

def refRecord (stamp : BitVec 96) (channel kind flags : Nat) (code : Int) (word : BitVec 32) (res seq : Nat) : List Byte :=
  stampBytes stamp ++ u8 channel ++ u8 kind ++ u8 flags ++ u8 0 ++ leBytesS 4 code ++ u32 word.toNat ++ u32 res ++ u32 seq

def refSel (d : StreamDef) : Bool := d.source == 5

/-- One record goes into the ring and to the streams. -/
def State.putRef (s : State) (inst channel kind flags : Nat) (code : Int) (word : BitVec 32) (res : Nat) : State :=
  let stamp := s.secStamp inst none false
  let r := s.front
  let bytes := refRecord stamp channel kind flags code word res r.seq
  let s1 := (s.writeBy 2 (refBase + 32 * (r.write % 4096)) bytes).modFront (fun r => { r with write := (r.write + 1) % 8192, seq := (r.seq + 1) % 2 ^ 32 })
  s1.deliver refSel ⟨bytes, stamp, inst, 0xFF, r.seq, none⟩

/-! ### Conversions -/

/-- A conversion starts. -/
def State.startConv (s : State) (n x : Nat) (urgent : Bool) : State :=
  let c := s.refCfg n
  let s1 := s.modFront (fun r => { r with conv := some ⟨n, x, c, urgent, r.sdm, false, false, false⟩ })
  if urgent && c.type == 3 then s1.modChanRef n (fun k => { k with urgentOn := (x, c.onTime) :: k.urgentOn.filter (fun e => decide (x < e.1 + 10 * ticksPerSecond)) })
  else s1

/-- The next conversion, free from instant `x` on: a pending urgent one first, then the scan's next entry (R335, R336). -/
def State.nextConv (s : State) (x : Nat) : State :=
  match s.pendOp 0x0906 with
  | some p =>
    let y := s.modEdge (max x p.accepted)
    ((s.dropOp 0x0906).startConv (rd p.data 0 1) y true).applied p srcDevice (s.effStamp y none) y stOk
  | none => match s.front.rest with
    | n :: rest => (s.modFront (fun r => { r with rest := rest })).startConv n x false
    | [] => s

/-- A failed check of a conversion (R334): the flag, the count and EV_REF_LEAD once for the check in this conversion. -/
def State.leadCheck (s : State) (check cmMv : Nat) : State :=
  match s.front.conv with
  | none => s
  | some v =>
    if (if check = 0 then v.leadCm else v.compliance) then s
    else
      let s1 := s.modFront (fun r => { r with conv := some (if check = 0 then { v with leadCm := true } else { v with compliance := true }) })
      let s2 := s1.modChanRef v.channel (fun k => { k with leadFaults := satAdd k.leadFaults 1, faultSince := some (k.faultSince.getD s.now) })
      s2.raiseNow 0x0903 sevFault (srcHs v.channel) (u8 check ++ u16 cmMv) none

def RefChCfg.cmBad (c : RefChCfg) (cmMv : Nat) : Bool := decide (cmMv < c.cmLo) || decide (c.cmHi < cmMv)

/-- REF_LEAD: a check fails during the conversion of a channel. -/
def State.refLead (s : State) (n check cmMv : Nat) : State :=
  match s.front.conv with
  | some v => if v.channel = n && ((check == 0 && v.cfg.cmBad cmMv) || check == 1) then s.leadCheck check cmMv else s
  | none => s

/-- The active modulator gives no valid result: its error stands without a spare (R338). -/
def State.sdmDead (s : State) : Bool := s.lacksSpare kindModulator s.front.sdm

/-- The outputs of one of a conversion's runs are recorded one by one, with RECORD_OUTPUTS (R337). -/
def State.putOutputs (s : State) (v : RefConv) (x flags : Nat) (l : List (Int × Bool)) : State :=
  if !v.cfg.outputs then s
  else l.zipIdx.foldl (fun s e =>
    let inst := x + (if v.cfg.single then v.cfg.bits else (e.2 + 1) * 2 * v.cfg.ratio) * modCycle
    s.putRef inst v.channel 0 flags e.1.1 (BitVec.ofNat 32 (8 * b2n (!v.cfg.single && decide (e.2 < 5)))) 0xFFFFFFFF) s

/-- REF_CONVERSION_DONE: the conversion or pair in progress has its last output; the results are formed and the next conversion begins. -/
def State.convDone (s : State) (w : RefConversion) : State :=
  match s.front.conv with
  | none => s
  | some v0 =>
    let c := v0.cfg
    let stop := v0.start + c.duration
    if v0.channel ≠ w.channel || s.now < stop || w.plus.length ≠ c.bits || w.minus.length ≠ (if c.paired then c.bits else 0) then s
    else
      let sA := if c.cmBad w.cmMv then s.leadCheck 0 w.cmMv else s
      let sB := if w.compliance then sA.leadCheck 1 w.cmMv else sA
      let v := sB.front.conv.getD v0
      let plus := c.outputsOf w.plus
      let minus := if c.paired then c.outputsOf w.minus else []
      let cp := c.codeOf plus
      let code := if c.paired then rneDiv (cp - c.codeOf minus) 2 else cp
      let clamp := w.clamp || (plus ++ minus).any Prod.snd
      let bad := v.leadCm || v.compliance || v.spoiled || s.sdmDead
      let base := 2 * b2n v.leadCm + 4 * b2n v.compliance + 8 * b2n clamp + 16 * b2n v.urgent + 32 * b2n (v.sdm == 1) + 64 * b2n c.single
      let x1 := v.start + 72 * ticksPerUs
      let x2 := x1 + c.run + 10 * ticksPerUs
      let s1 := (sB.putOutputs v x1 base plus).putOutputs v x2 (base + 1) minus
      -- the result
      let den := 2 ^ 23 * 2 ^ c.gain
      let mOhm := code * (c.rRef : Int)
      let pick := Config.temperatureCode s1.free 0
      let t : Option Int := match c.type with
        | 1 => some (platinumCode mOhm (den * 100000) pick)
        | 2 => some (platinumCode mOhm (den * 1000000) pick)
        | 3 => ntcCode c mOhm (den * 1000)
        | _ => some 0
      let out := match t with | some x => decide (x < -524288) || decide (524287 < x) | none => true
      let invalid := bad || out
      let codes := (code :: (s1.refChan v.channel).codes).take 16
      let va := variance ((c.validOutputs plus).map Prod.fst)
      let vb := variance ((c.validOutputs minus).map Prod.fst)
      let var := if c.single then variance codes else if va.1 * vb.2 < vb.1 * va.2 then vb else va
      let tc : Int := if bad then 0 else match t with | some x => clampI (-524288) 524287 x | none => 0
      let word := thermWord tc (if invalid then 0 else refConfidence var) false invalid clamp s1.front.splice
      let res := if invalid then 0xFFFFFFFF else if mOhm < 0 then Config.negativeResistance code % 2 ^ 32 else (rneDiv mOhm den).toNat
      let s2 := ({ s1 with free := s1.free + 1 }).putRef stop v.channel 1 base code word res
      let passed := !(v.leadCm || v.compliance)
      let fault := (s2.refChan v.channel).faultSince
      let s3 := s2.modChanRef v.channel (fun k => { k with
        codes := codes, valid := if invalid then k.valid else some (stop, tc)
        clamps := if clamp then satAdd k.clamps 1 else k.clamps, faultSince := if passed then none else k.faultSince })
      let s4 := match fault with
        | some x => if passed then s3.raiseNow 0x0904 sevInfo (srcHs v.channel) (u32 (satTo 4 ((s.now - x) / ticksPerMs))) none else s3
        | none => s3
      (s4.modFront (fun r => { r with conv := none, splice := false })).nextConv stop

/-! ### Scans (R335, R338, R344) -/

/-- The instant starts a scan of a PERIOD. -/
def State.scanInstant (s : State) (ms : Nat) : Bool :=
  let p := s.secondAt s.now
  if ms = 0 then false
  else if 1000 % ms = 0 then p.2 % (ms * ticksPerMs) == 0
  else p.2 == 0 && p.1 % (ms / 1000) == 0

/-- The spare modulator takes over from the next conversion (R338); the conversion in progress is INVALID. -/
def State.sdmWithdraw (s : State) : State :=
  let m := s.front.sdm
  match s.spareFor kindModulator m with
  | none => s
  | some n =>
    if !(s.hUnit kindModulator m).wantsSpare then s
    else
      let s1 := (s.spareTakes kindModulator m n).modFront (fun r => { r with
        sdm := n, splice := true, conv := r.conv.map (fun v => { v with spoiled := true }) })
      s1.raiseNow 0x0906 sevNotice srcDevice (u8 m ++ u8 n) none

/-- REF_MODULATOR_CHECK: an error of the active modulator starts its test, which the other carries when it is free (R338). -/
def State.sdmCheck (s : State) (refError : Bool) : State :=
  if refError then (s.detect kindModulator s.front.sdm).sdmWithdraw else s

/-- A pending `ref.scan` takes effect at a scan start under its new PERIOD. -/
def State.scanEffect (s : State) : State :=
  match s.pendOp 0x0905 with
  | none => s
  | some p =>
    if s.now < p.applyAt.getD p.accepted || !s.scanInstant (rd p.data 0 4) then s
    else
      let list := (List.range (rd p.data 4 1)).map (fun k => rd p.data (8 + k) 1)
      ((s.modCfg (fun g => { g with scanMs := rd p.data 0 4, scan := list })).dropOp 0x0905).applied p srcDevice (s.effStamp s.now none) s.now stOk

/-- REF_SCAN_START. -/
def State.scanStart (s : State) (refError : Bool) : State :=
  if !s.thermOn then s
  else
    let s0 := s.scanEffect
    if s0.cfg.scan.isEmpty || !s0.scanInstant s0.cfg.scanMs then s0
    else
      let left := s0.front.rest.length
      let s1 := if left = 0 then s0
        else (s0.modFront (fun r => { r with skipped := satAdd r.skipped left })).raiseNow 0x0905 sevNotice srcDevice (u8 left) (some [])
      let s2 := (s1.modFront (fun r => { r with scans := satAdd r.scans 1, rest := s1.cfg.scan })).sdmCheck refError
      if s2.front.conv.isSome then s2 else s2.nextConv s.now

/-- Conversions cease on leaving P0 and P1; an urgent one still pending begins on return (R339). -/
def State.refHalt (s : State) : State := s.modFront (fun r => { r with conv := none, rest := [] })
def State.refResume (s : State) : State := if s.front.conv.isNone && (s.pendOp 0x0906).isSome then s.nextConv s.now else s

/-! ### Commands -/

def readRefCh (p : List Byte) : RefChCfg :=
  ⟨rd p 1 1, rd p 2 1, rd p 3 1, rd p 4 1, bit (rd p 5 1) 0, bit (rd p 5 1) 1, rd p 6 1, rd p 7 1, rd p 8 4, rd p 12 4, rd p 16 4, rd p 20 4,
    rd p 24 2, rd p 26 2⟩

def RefChCfg.ok (c : RefChCfg) : Bool :=
  decide (c.type ≤ 4) && decide (c.current ≤ 6) && decide (c.gain ≤ 5) && decide (c.refres ≤ 1) && decide (5 ≤ c.osr) && decide (c.osr ≤ 11) &&
    decide (1 ≤ c.navg) && decide (c.navg ≤ 255) && decide (1000 ≤ c.rRef) && decide (c.rRef ≤ 4000000000) && decide (c.cmLo ≤ 1450) &&
    decide (c.cmLo + 100 ≤ c.cmHi) && decide (c.cmHi ≤ 1450)

/-- The scan in effect and the one pending, each with its PERIOD (R459). -/
def State.scansNow (s : State) : List (List Nat × Nat) :=
  (s.cfg.scan, s.cfg.scanMs) :: (match s.pendOp 0x0905 with
    | some p => [((List.range (rd p.data 4 1)).map (fun k => rd p.data (8 + k) 1), rd p.data 0 4)]
    | none => [])

/-- A scan names a channel. -/
def State.scanNames (s : State) (n : Nat) : Bool := s.scansNow.any (fun e => e.1.contains n)

/-- `ref.config` (R343). -/
def refConfig : Handler := fun c s =>
  let n := rd c.arg 0 1
  let g := readRefCh c.arg
  let cfg := fun k => if k = n then g else s.refCfg k
  let urgent := ((s.refChan n).urgentOn.filter (fun e => decide (s.now < e.1 + 10 * ticksPerSecond))).length * g.onTime
  if 7 < n || !g.ok then reject s stBadArg
  else if g.type = 0 && (s.scanNames n || s.cfg.therm.any (fun t => match t with | some t => t.refSensor == n | none => false) ||
      s.pend.any (fun p => p.op == 0x0901 && !bit (rd p.data 1 1) 3 && rd p.data 3 1 == n)) then
    reject s stInUse
  else if s.scansNow.any (fun e => e.1.contains n && (!scanFits cfg e.1 e.2 || !dutyOk g e.1 e.2 n urgent)) then reject s stOverBudget
  else okay (s.modCfg (fun r => { r with refCh := r.refCh.set n g }))

/-- `ref.scan` (R335, R344). -/
def refScan : Handler := fun c s =>
  let ms := rd c.arg 0 4
  let n := rd c.arg 4 1
  let list := (List.range n).map (fun k => rd c.arg (8 + k) 1)
  if ms < 10 || 60000 < ms || 16 < n || list.any (fun x => decide (7 < x)) || (1000 % ms != 0 && ms % 1000 != 0) then reject s stBadArg
  else if (s.pendOp 0x0905).isSome then reject s stBusy
  else if list.any (fun x => (s.refCfg x).type == 0) then reject s stWrongState
  else if s.sdmDead then reject s stNoSpare
  else if !scanFits s.refCfg list ms then reject s stOverBudget
  else pendWith s c 0x0905 [0] none

/-- `ref.urgent` (R336): with no conversion in progress it starts at the next modulator clock edge. -/
def refUrgent : Handler := fun c s =>
  let n := rd c.arg 0 1
  let g := s.refCfg n
  let recent := (((s.refChan n).urgentOn.filter (fun e => decide (s.now < e.1 + 10 * ticksPerSecond))).map Prod.snd).sum
  if 7 < n then reject s stBadArg
  else if (s.pendOp 0x0906).isSome then reject s stBusy
  else if g.type = 0 then reject s stWrongState
  else if s.sdmDead then reject s stNoSpare
  else if s.scansNow.any (fun e => !dutyOk g e.1 e.2 n (recent + g.onTime)) then reject s stOverBudget
  else
    let r := pendWith s c 0x0906 [0] none
    (r.1, if s.front.conv.isSome || !s.thermOn then r.2 else r.2.nextConv s.now)

def State.refBody (s : State) : List Byte :=
  let r := s.front
  let mst := fun (k : Nat) => let v := (s.hUnit kindModulator k).st; if 1 ≤ v && v ≤ 3 then v else 0
  u8 (mst 0) ++ u8 (mst 1) ++ u16 0 ++ u32 r.write ++ u64 refBase ++ u32 r.scans ++ u32 r.skipped ++ r.chans.flatMap (fun c => u32 c.leadFaults) ++
    r.chans.flatMap (fun c => u32 c.clamps)

/-- `ref.status`. -/
def refStatus : Handler := fun c s =>
  let s1 := if bit (rd c.arg 0 1) 0 then
      (s.modFront (fun r => { r with scans := 0, skipped := 0, chans := r.chans.map (fun k => { k with leadFaults := 0, clamps := 0 }) })).clearSat 0x0907 0
    else s
  okWith s1 s.refBody

end Sys2Proof.Machine
end

