-- ==== Sys2Proof/Machine/Streams.lean ====
section
/-! DEFINITION. Streams (R436 to R442): which items a bale profile takes, records and their closing, overruns, delivery, and the end of a
stream. Bales are made in Bale.lean, records moved in Dma.lean. -/

namespace Sys2Proof.Machine

def State.streamRun (s : State) (k : Nat) : Option StreamRun := nth s.streams k none
def State.streamDef (s : State) (k : Nat) : Option StreamDef := nth s.cfg.streams k none
def State.modStream (s : State) (k : Nat) (f : StreamRun → StreamRun) : State := { s with streams := upd s.streams k (fun r => r.map f) }

/-! ### Token buckets (R423, R424) -/

/-- DONE differs from POSTED, index and wrap bit taken together (R416). -/
def Ctx.hasWork (c : Ctx) : Bool := c.postedIdx != c.doneIdx || c.postedWrap != c.doneWrap

/-- Twice the transfer rate in GT/s of a negotiated PCIe generation. -/
def pcieRate2 (speed : Nat) : Nat := nth [0, 5, 10, 16, 32, 64] speed 0

/-- Tokens a context gains in one tick, in 2^-22 byte. -/
def State.tokenRate (s : State) (c : Ctx) : Nat :=
  if c.cfg.kind = 3 then c.cfg.share * 400 else c.cfg.share * 7 * s.pcie.width * pcieRate2 s.pcie.speed

/-- One byte in token units. -/
def tokenByte : Nat := 4194304

/-- Tokens that have come to a context by now, on those in the bucket when they were last settled. -/
def State.tokensBy (s : State) (c : Ctx) : Nat := c.tokens + s.tokenRate c * (s.now - c.tokensAt)

/-- A context has something to move: descriptors of kind 0 or 1; on kind 2 also a closed record, on kind 3 one alone. -/
def State.inHand (s : State) (c : Ctx) : Bool :=
  let data := match c.stream with
    | some k => match s.streamRun k with
      | some r => !r.closed.isEmpty
      | none => false
    | none => false
  c.configured && c.st != 0 && c.st != 4 && (decide (c.cfg.kind = 3) || c.hasWork) && (decide (c.cfg.kind < 2) || data)

/-- The bucket settled to now: tokens that come while the context has nothing to move fill it to BURST at most; those that come while it moves a
transfer are spent as they come, and stand against that transfer until it is complete (R424). -/
def State.settleBucket (s : State) (i : Nat) : State :=
  s.modCtx i (fun c => { c with tokens := if s.inHand c then s.tokensBy c else min (c.cfg.burst * tokenByte) (s.tokensBy c), tokensAt := s.now })

/-! ### What a profile takes (R366, Table 12.1) -/

/-- The geometry of an item and its preamble's length, none for an item that is delivered unbaled. -/
def itemGeom (source : Nat) (i : Item) : Option (Geom × Nat) :=
  let n := i.bytes.length
  let some_ := fun (g : Geom) (pre : Nat) => if 0 < g.points then some (g, pre) else none
  match source with
  | 1 => some_ ⟨1, i.line, [0], 32, (n - 32) / 4⟩ 0
  | 2 =>
    let points := rd i.bytes 16 4
    some_ ⟨2, i.line, ([0, 2] ++ List.replicate 8 1).take ((n - 32) / 4 / max 1 points), 32, points⟩ 0
  | 3 => if bit (rd i.bytes 14 2) 0 then none else some_ ⟨6, i.line, [0], 48, rd i.bytes 28 4⟩ 0
  | 4 =>
    let count := rd i.bytes 68 4
    if rd i.bytes 0 1 = 0 then some_ ⟨3, i.line, [0], 32, count⟩ 128
    else match rd i.bytes 28 1 with
      | 3 => some_ ⟨4, i.line, [1, 1, 1, 1], 32, count⟩ 128
      | 4 => some_ ⟨5, i.line, [0], 32, count⟩ 128
      | _ => none
  | _ => none

/-- A stream's next item goes into a bale. -/
def StreamDef.bales (d : StreamDef) (i : Item) : Bool := decide (d.profile < 16) && i.lost.isNone && (itemGeom d.source i).isSome

/-- A lane that takes bales (R380). -/
def State.laneServes (s : State) (n : Nat) : Bool := decide (n < 4) && (s.hUnit kindBale n).serves
/-- A lane that is not retired. -/
def State.laneLeft (s : State) (n : Nat) : Bool := !(s.hUnit kindBale n).gone
def State.anyLane (s : State) : Bool := (List.range 4).any s.laneLeft

/-! ### Records (R437 to R439) -/

/-- A record: the header of Table 14.9, the payload, and zeros to a multiple of 8 bytes (R438). -/
def recordBytes (kind seq stream source line : Nat) (stamp : BitVec 96) (items : Nat) (payload : List Byte) : List Byte :=
  u16 kind ++ u16 0 ++ u32 payload.length ++ u32 seq ++ u16 stream ++ u8 source ++ u8 line ++ stampBytes stamp ++ u32 items ++ payload ++
    zeros ((8 - payload.length % 8) % 8)

/-- Where each item of a payload ends within its record. -/
def itemEnds : Nat → List Item → List (Nat × Item)
  | _, [] => []
  | o, i :: rest => (o + i.bytes.length, i) :: itemEnds (o + i.bytes.length) rest

/-- A record is closed: it joins those to be moved, and the stream's count advances. -/
def State.closeRecord (s : State) (k kind line : Nat) (stamp : BitVec 96) (items : Nat) (payload : List Byte) (ends : List (Nat × Item)) : State :=
  let source := (s.streamDef k).elim 0 StreamDef.source
  let s0 := match s.streamRun k with | some r => s.settleBucket r.ctx | none => s
  s0.modStream k (fun r => { r with
    closed := r.closed ++ [⟨kind, recordBytes kind r.recSeq k source line stamp items payload, ends⟩]
    recSeq := (r.recSeq + 1) % 2 ^ 32, lastReady := s.now })

/-- The ABORTED record of a mark (R439). -/
def State.closeAborted (s : State) (k : Nat) (i : Item) : State :=
  match i.lost with
  | none => s
  | some (cause, n, last) => s.closeRecord k 2 i.line i.stamp n (u8 cause ++ zeros 3 ++ stampBytes last) []

/-- The waiting items that would form the next record: the longest run at the head, at most ITEMS_MAX, of items that are neither marks nor
baled. -/
def StreamDef.nextItems (d : StreamDef) (w : List (Nat × Item)) : List (Nat × Item) :=
  (w.takeWhile (fun e => e.2.lost.isNone && !d.bales e.2)).take d.itemsMax

/-- STREAM_RECORD_CLOSE (R437, R439, R442): the first thing that can be closed is closed. A record of items closes when it is full, FLUSH_US after
its first item, when the stream stops, or before a mark or a bale. What a profile should take when no lane is left is marked ABORTED (R380). With
everything before it closed, a detaching stream closes its END record. -/
def State.streamClose (s : State) (k : Nat) : State :=
  match s.streamRun k, s.streamDef k with
  | some r, some d =>
    match r.waiting with
    | [] => if r.detach.isSome && !r.ended then (s.closeRecord k 3 (if d.source = 0 || 4 ≤ d.source then 0xFF else d.line) (s.devStamp s.now) 0 [] []).modStream k
          (fun r => { r with ended := true })
        else s
    | (x, i) :: rest =>
      if i.lost.isSome then (s.closeAborted k i).modStream k (fun r => { r with waiting := rest })
      else if d.bales i then
        if s.anyLane then s
        else
          let l := r.waiting.takeWhile (fun e => d.bales e.2)
          let last := (l.getLast?.map (fun e => e.2.stamp)).getD i.stamp
          if d.itemsMax ≤ l.length || decide (x + d.flushUs * ticksPerUs ≤ s.now) || r.detach.isSome || l.length < r.waiting.length then
            let n := min l.length d.itemsMax
            (s.closeAborted k ⟨[], i.stamp, s.now, i.line, i.ident, some (6, n, last)⟩).modStream k (fun r => { r with
              waiting := r.waiting.drop n, baleRow := 0, baleGroup := 0 })
          else s
      else
        let l := d.nextItems r.waiting
        if l.length = d.itemsMax || decide (x + d.flushUs * ticksPerUs ≤ s.now) || r.detach.isSome || l.length < r.waiting.length then
          let items := l.map Prod.snd
          (s.closeRecord k 0 i.line i.stamp items.length (items.flatMap Item.bytes) (itemEnds 32 items)).modStream k (fun r => { r with
            waiting := r.waiting.drop l.length })
        else s
  | _, _ => s

/-! ### Overruns (R440, Table 14.8) -/

/-- How many of the oldest items a source no longer holds, given the sizes of those undelivered: 16 MiB of slow sheets of a line, 8 traces of a
line, 4 096 reference records. -/
def overrunCount (source : Nat) (sizes : List Nat) : Nat :=
  match source with
  | 2 => (List.range (sizes.length + 1)).find? (fun n => decide ((sizes.drop n).sum ≤ 16777216)) |>.getD sizes.length
  | 3 => sizes.length - 8
  | 5 => sizes.length - 4096
  | _ => 0

/-- STREAM_OVERRUN (R440): a stream that has fallen behind its source continues at the oldest item still held. -/
def State.streamOverrun (s : State) (k : Nat) : State :=
  match s.streamRun k, s.streamDef k with
  | some r, some d =>
    let items := (r.reopen.waiting.filter (fun e => e.2.lost.isNone)).map Prod.snd
    let n := overrunCount d.source (items.map (fun i => i.bytes.length))
    if d.source = 1 then s.streamLose k (fun i => decide (i.ident < (s.feltOf d.line).oldest)) none
    else if n = 0 then s
    else
      let gone := items.take n
      s.streamLose k (fun i => gone.contains i) none
  | _, _ => s

/-! ### Delivery (R441) -/

/-- An item is delivered: a felt reader advances past the sheet, a capture record is marked, or released with AUTO_RELEASE. -/
def State.itemDelivered (s : State) (d : StreamDef) (i : Item) : State :=
  match d.source with
  | 1 => s.modFelt d.line (fun f => { f with readers := upd f.readers d.reader (fun x => x.map (fun p => max p (i.ident + 1))) })
  | 4 => if bit d.flags 0 then s.freeRec i.ident else s.modRec i.ident (fun r => { r with delivered := true })
  | _ => s

/-- The stream has moved `n` bytes of its closed records: whole records leave the list, and items that end within what has moved are delivered. -/
def State.streamMoved (s : State) (k : Nat) (d : StreamDef) : Nat → Nat → State
  | 0, _ => s
  | fuel + 1, n =>
    match s.streamRun k with
    | none => s
    | some r => match r.closed with
      | [] => s
      | c :: rest =>
        let to_ := r.headOff + n
        let done := c.ends.filter (fun e => decide (r.headOff < e.1 ∧ e.1 ≤ to_))
        let s1 := done.foldl (fun s e => s.itemDelivered d e.2) s
        if to_ < c.bytes.length then s1.modStream k (fun r => { r with headOff := to_ })
        else
          let s2 := (s1.modStream k (fun r => { r with closed := rest, headOff := 0 })).modCtx r.ctx (fun x => { x with
            records := satAdd x.records 1, aborted := if c.kind = 2 then satAdd x.aborted 1 else x.aborted })
          s2.streamMoved k d fuel (to_ - c.bytes.length)

/-- The bytes ready to be moved. -/
def StreamRun.ready (r : StreamRun) : List Byte := (r.closed.flatMap Closed.bytes).drop r.headOff

/-! ### Detaching (R429, R442) -/

/-- Undelivered items are discarded: everything but a record of which a part has moved. Answers how many. -/
def StreamRun.discard (r : StreamRun) : StreamRun × List Item :=
  let keep := r.closed.take (b2n (decide (0 < r.headOff)))
  let gone := (r.closed.drop (b2n (decide (0 < r.headOff)))).flatMap (fun c => c.ends.map Prod.snd) ++
    (r.waiting.filter (fun e => e.2.lost.isNone)).map Prod.snd
  ({ r with closed := keep, waiting := [], baleRow := 0, baleGroup := 0 }, gone)

/-- The mark of discarded items, cause 1: the first and last stamp, or the instant of the discard when no item is known (Table 14.9). -/
def State.discardMark (s : State) (l : List Item) (line : Nat) : Item :=
  match l.head?, l.getLast? with
  | some a, some b => ⟨[], a.stamp, s.now, a.line, a.ident, some (1, l.length, b.stamp)⟩
  | _, _ => ⟨[], s.devStamp s.now, s.now, line, 0, some (1, 0, s.devStamp s.now)⟩

/-- EV_STREAM_DETACHED, EV_APPLIED for a pending `stream.detach`, and the stream is attached no more (R442). -/
def State.streamEnd (s : State) (k mode discarded : Nat) : State :=
  match s.streamRun k with
  | none => s
  | some r =>
    let s1 := ({ s with streams := s.streams.set k none }).raiseNow 0x0D02 sevInfo srcDma (u8 k ++ u8 r.ctx ++ u8 mode ++ u32 (satTo 4 discarded)) none
    match s1.pendOf 0x0D08 k with
    | some p => (s1.strike 0x0D08 k).applied p srcDevice (s1.devStamp s1.now) s1.now stOk
    | none => s1

end Sys2Proof.Machine
end

