-- ==== Sys2Proof/Machine/Bale.lean ====
section
/-! DEFINITION. The compression engine (R365 to R388): releasing bales for streams and host jobs, verification, stops for space, decode jobs, and
the commands of group 0x0B. -/

namespace Sys2Proof.Machine

def State.profile? (s : State) (n : Nat) : Option Profile := nth s.cfg.profiles n none
def State.modBale (s : State) (f : BaleRun → BaleRun) : State := { s with bale := f s.bale }
def State.job? (s : State) (id : Nat) : Option BaleJob := s.bale.jobs.find? (fun j => j.id == id)
def State.modJob (s : State) (id : Nat) (f : BaleJob → BaleJob) : State :=
  s.modBale (fun b => { b with jobs := b.jobs.map (fun j => if j.id = id then f j else j) })

/-- Lanes in service. -/
def State.lanesActive (s : State) : Nat := ((List.range 4).filter s.laneServes).length

/-- EV_BALE_LANE (R380, Table 12.11): a lane goes under test (2) or is retired (3). -/
def State.reportLane (s : State) (lane st : Nat) : State :=
  s.raiseNow 0x0B03 sevDegraded srcCompression (u8 lane ++ u8 st ++ u8 s.lanesActive) none

/-- A lane's test begins (R379, R380). -/
def State.laneTest (s : State) (lane : Nat) : State :=
  if s.testDue kindBale lane then (s.beginTest kindBale lane).reportLane lane 2 else s

/-- A failed compare (R379): counted, reported with the bale's SEQ and the first differing byte, and the lane's test begins. -/
def State.verifyFailed (s : State) (lane seq at_ : Nat) : State :=
  let s1 := (s.modBale (fun b => { b with verifyFails := satAdd b.verifyFails 1 })).raiseNow 0x0B02 sevNotice srcCompression
    (u8 lane ++ u32 seq ++ u32 at_) (some [])
  (s1.detect kindBale lane).laneTest lane

/-- The counters of a released bale. -/
def State.countBale (s : State) (bytes : Nat) (o : BaleOut) : State :=
  s.modBale (fun b => { b with
    bales := satAdd b.bales 1, rawBlocks := satAdd b.rawBlocks o.rawBlocks, saturated := satAdd b.saturated o.sats
    inBytes := (b.inBytes + o.orig.length) % 2 ^ 64, outBytes := (b.outBytes + bytes) % 2 ^ 64 })

/-- The rows that one bale may begin under the second bound of R371: the first, from point group `g0` on, and those after it. -/
def rowsUnder (g : Geom) (pre g0 : Nat) : Nat :=
  let skipped := if g0 = 0 then 0 else g.recBytes + 64 * g.words * g0
  max 1 ((268435456 + skipped - pre) / g.rowBytes)

/-! ### Streams -/

/-- A bale that a stream could release: its geometry, preamble, rows with the number of the first, whether all rows it may have are there, and
whether it covers one record of many rows. -/
structure StreamBale where
  geom : Geom
  pre : List Byte
  first : Nat
  rows : List BRow
  ready : Bool
  single : Bool
deriving DecidableEq, Repr, Inhabited

def wordsOf : Nat → List Byte → List Nat
  | 0, _ => []
  | n + 1, b => rd b 0 4 :: wordsOf n (b.drop 4)

/-- One row of original data as record and words. -/
def rowOf (g : Geom) (b : List Byte) : BRow := ⟨b.take g.recBytes, wordsOf (g.points * g.words) (b.drop g.recBytes)⟩

/-- Rows that follow each other in one bale: of one geometry, and for the felt of consecutive sheet numbers. -/
def sameRun (source : Nat) (g : Geom) : Nat → List (Nat × Item) → List Item
  | _, [] => []
  | n, e :: rest =>
    if e.2.lost.isNone && decide ((itemGeom source e.2).map Prod.fst = some g) && (source != 1 || e.2.ident == n) then
      e.2 :: sameRun source g (n + 1) rest
    else []

/-- The bale at the head of a stream (R371): one record or trace, or rows up to ROWS_PER_BALE; the felt ends a bale at a quire boundary. -/
def State.streamBale (s : State) (k : Nat) : Option (StreamRun × StreamDef × Profile × StreamBale) :=
  match s.streamRun k, s.streamDef k with
  | some r, some d => match r.waiting, s.profile? d.profile with
    | (_, i) :: _, some p =>
      if !d.bales i then none
      else match itemGeom d.source i with
        | none => none
        | some (g, pre) =>
          if d.source = 4 then
            let n := min (rd i.bytes 92 4 - r.baleRow) (rowsUnder g (if r.baleRow = 0 && r.baleGroup == 0 then pre else 0) r.baleGroup)
            let rows := (List.range n).map (fun k => rowOf g (i.bytes.drop (pre + (r.baleRow + k) * g.rowBytes)))
            some (r, d, p, ⟨g, if r.baleRow = 0 && r.baleGroup == 0 then i.bytes.take pre else [], r.baleRow, rows, true, true⟩)
          else
            let bound := min (rowsUnder g 0 r.baleGroup) (if d.source = 3 then 1 else if d.source = 1 then max 32 (p.rows / 32 * 32) - i.ident % 32
              else p.rows + b2n (decide (0 < r.baleGroup)))
            let run := sameRun d.source g i.ident r.waiting
            let stopped := r.detach.isSome || (s.lineOf d.line).st == 0
            some (r, d, p, ⟨g, [], i.ident, (run.take bound).map (fun i => rowOf g i.bytes),
              decide (bound ≤ run.length ∨ run.length < r.waiting.length) || stopped, false⟩)
    | _, _ => none
  | _, _ => none

/-- The items of a stream after a bale: those whose last row is in it leave the list and are delivered with it; the next bale begins at the row
and group where this one ended. -/
def State.baleTaken (s : State) (k : Nat) (v : StreamBale) (bale : List Byte) (o : BaleOut) (suspend : Bool) : State :=
  match s.streamRun k with
  | none => s
  | some r =>
    let items := r.waiting.map Prod.snd
    let first := items.headD default
    let whole := if v.single then (if r.baleRow + o.rowsDone = rd first.bytes 92 4 && o.group == 0 then 1 else 0) else o.rowsDone
    let n := if v.single then 1 else o.blocks
    let ends := (items.take whole).map (fun i => (32 + bale.length, i))
    (s.closeRecord k 1 first.line first.stamp n bale ends).modStream k (fun x => { x with
      waiting := x.waiting.drop whole, baleSeq := (x.baleSeq + 1) % 2 ^ 32, suspended := suspend
      baleRow := if v.single && whole == 0 then x.baleRow + o.rowsDone else 0
      baleGroup := o.group })

/-- A bale whose raw rewrite failed its compare as well (R379): its rows are marked by an ABORTED record. -/
def State.baleLost (s : State) (k : Nat) (v : StreamBale) : State :=
  s.modStream k (fun r =>
    let n := if v.single then 1 else v.rows.length
    let gone := (r.waiting.take n).map Prod.snd
    let a := gone.headD default
    let b := gone.getLast?.getD default
    { r with
      waiting := (s.now, ⟨[], a.stamp, s.now, a.line, a.ident, some (6, gone.length, b.stamp)⟩) :: r.waiting.drop n
      baleRow := 0, baleGroup := 0, baleSeq := (r.baleSeq + 1) % 2 ^ 32 })

/-- A lane finishes a stream's bale and releases it; `room` is the output space when it is short. -/
def State.streamRelease (s : State) (lane k : Nat) (room : Option Nat) (firstDiff : Option Nat) (rawFails : Bool) : State :=
  match s.streamBale k with
  | none => s
  | some (r, _, p, v) =>
    let make := fun (raw : Bool) => makeBale v.geom (p.codingFor v.geom) raw v.pre r.baleGroup v.first r.baleSeq (room.getD (2 ^ 40)) v.rows
    if !s.laneServes lane || r.suspended || (room.isNone && !v.ready) then s
    else
      let failed := if p.coding.verify = 0 then none else firstDiff
      match make failed.isSome with
      | none => if room.isSome then s.modStream k (fun r => { r with suspended := true }) else s
      | some (bytes, o) =>
        if room.isSome && !o.full then s
        else match failed with
        | none => ((s.countBale bytes.length o).baleTaken k v bytes o o.full)
        | some at_ =>
          let s1 := s.verifyFailed lane r.baleSeq at_
          if rawFails then s1.baleLost k v else (s1.countBale bytes.length o).baleTaken k v bytes o o.full

/-! ### Host jobs -/

/-- The rows of the next bale of an encode job (a row that continues was begun in the bale before, R371), its preamble, and the device blocks of its input that read poisoned (R396). -/
def State.jobBale (s : State) (j : BaleJob) (p : Profile) : List Byte × List BRow × List Nat :=
  let start := j.row = 0 && j.group == 0
  let pre := if start then j.pre else 0
  let n := min (j.rows - j.row) (min (p.rows + b2n (decide (0 < j.group))) (rowsUnder j.geom pre j.group))
  let base := jobRegionBase + j.input
  let a := base + j.pre + j.row * j.geom.rowBytes
  let d := s.dramRead a (n * j.geom.rowBytes)
  let q := s.dramRead base pre
  (q.1, (List.range n).map (fun k => rowOf j.geom (d.1.drop (k * j.geom.rowBytes))), (d.2 ++ q.2).eraseDups)

/-- Bytes are written to a job's output space; poisoned when their source was (R396, R397). -/
def State.jobWrite (s : State) (j : BaleJob) (bytes : List Byte) (bad : Bool) : State :=
  let a := jobRegionBase + j.out + j.outPos
  let s1 := s.dramWrite a bytes
  if bad then (blocksOf a bytes.length).foldl (fun s b => s.poisonBlock b) s1 else s1

/-- A bale of an encode job is released into its output space (R381). -/
def State.jobTaken (s : State) (j : BaleJob) (bytes : List Byte) (o : BaleOut) (bad : List Nat) : State :=
  ((bad.foldl (fun s b => s.badRead 4 b) (s.countBale bytes.length o)).jobWrite j bytes (!bad.isEmpty)).modJob j.id (fun j => { j with
    outPos := j.outPos + bytes.length, produced := j.produced + bytes.length, consumed := j.consumed + o.orig.length
    seq := (j.seq + 1) % 2 ^ 32, row := j.row + o.rowsDone, group := o.group
    result := if j.result.isNone && decide (j.row + o.rowsDone = j.rows) then some stOk else j.result })

/-- A lane finishes a bale of an encode job. With `space` the bale is the one that the output space ends (R382). -/
def State.jobRelease (s : State) (lane id : Nat) (space : Bool) (firstDiff : Option Nat) (rawFails : Bool) : State :=
  match s.job? id with
  | none => s
  | some j =>
    let cancelled := decide (j.result = some stBaleCancelled)
    if j.decode || j.stopped || !s.laneServes lane || (j.result.isSome && !(space && cancelled)) then s
    else match s.profile? j.profile with
      | none => s
      | some p =>
        let d := s.jobBale j p
        let room := j.outLen - j.outPos
        let failed := if p.coding.verify = 0 then none else firstDiff
        let stop := fun (s : State) => (s.modJob id (fun j => { j with result := if cancelled then j.result else some stBaleNoSpace })).modBale
          (fun b => { b with noSpace := satAdd b.noSpace 1 })
        match makeBale j.geom (p.codingFor j.geom) failed.isSome d.1 j.group j.row j.seq room d.2.1 with
        | none => if space then stop s else s
        | some (bytes, o) =>
          if o.full != space then s
          else
            let s1 := match failed with | some at_ => s.verifyFailed lane j.seq at_ | none => s
            if failed.isSome && rawFails then s1.modJob id (fun j => { j with result := some stHwFault })
            else
              let s2 := s1.jobTaken j bytes o d.2.2
              if space then stop s2 else s2

/-! ### Decode jobs (R377, R383, R386) -/

/-- How a decode job ends from where it stands: status, the data that fit, input consumed, and the offset and done blocks of the bale in hand. -/
structure DecodeOut where
  status : Nat
  data : List Byte
  consumed : Nat
  baleAt : Nat
  blocks : Nat
deriving DecidableEq, Repr, Inhabited

/-- The blocks of a bale from the one in hand on, while they fit: data, and whether all did; a row's record goes with its first group. -/
def fitBlocks (room : Nat) : List BlockOut → List Byte × Nat × Bool
  | [] => ([], 0, true)
  | x :: rest =>
    if x.bytes.length ≤ room then
      let r := fitBlocks (room - x.bytes.length) rest
      (x.bytes ++ r.1, 1 + r.2.1, r.2.2)
    else
      let n := (List.range (x.groups.length + 1)).foldl (fun m k =>
        if 0 < k && decide (x.record.length + 4 * (x.groups.take k).flatten.length ≤ room) then k else m) 0
      (if n = 0 then [] else x.record ++ (x.groups.take n).flatten.flatMap u32, 0, false)

/-- Bale after bale from an offset of the input. -/
def decodeFrom (input : List Byte) : Nat → Nat → Nat → Nat → Bool → List Byte → DecodeOut
  | 0, at_, _, _, _, out => ⟨stOk, out, at_, at_, 0⟩
  | fuel + 1, at_, skip, room, preDone, out =>
    let b := input.drop at_
    if b.isEmpty then ⟨stOk, out, at_, at_, 0⟩
    else match readBale b with
      | none => ⟨stBaleFormat, out, at_, at_, 0⟩
      | some (h, l) =>
        let pre := (b.drop 64).take h.pre
        let whole := pre ++ l.flatMap BlockOut.bytes
        if bit h.flags 0 && crc32c whole != h.watermark then ⟨stBaleWatermark, out, at_, at_, 0⟩
        else
          let mine := if preDone then [] else pre
          let sizes := fun n => ((l.take n).map BlockOut.size).sum
          if room < mine.length then ⟨stBaleNoSpace, out, at_, at_, 0⟩
          else
            let f := fitBlocks (room - mine.length) (l.drop skip)
            let out1 := out ++ mine ++ f.1
            if f.2.2 then decodeFrom input fuel (at_ + 64 + h.payload) 0 (room - mine.length - f.1.length) false out1
            else
              let n := skip + f.2.1
              ⟨stBaleNoSpace, out1, if n = 0 then at_ else at_ + 64 + h.pre + sizes n, at_, n⟩

/-- The outcome of a decode job in the output space it has. -/
def State.decodeJob (s : State) (j : BaleJob) : DecodeOut × List Nat :=
  let d := s.dramRead (jobRegionBase + j.input) j.inLen
  (decodeFrom d.1 (j.inLen + 1) j.baleAt j.blocks (j.outLen - j.outPos) (decide (0 < j.blocks)) [], d.2)

/-- A decode job runs to its end or to the stop that its output space makes. -/
def State.jobDecode (s : State) (id : Nat) (space : Bool) : State :=
  match s.job? id with
  | none => s
  | some j =>
    if !j.decode || j.stopped || j.result.isSome || !(List.range 4).any s.laneServes then s
    else
      let r := s.decodeJob j
      if decide (r.1.status = stBaleNoSpace) != space then s
      else
        (((r.2.foldl (fun s b => s.badRead 4 b) s).jobWrite j r.1.data (!r.2.isEmpty)).modJob id (fun j => { j with
          result := some r.1.status, outPos := j.outPos + r.1.data.length, produced := j.produced + r.1.data.length
          consumed := r.1.consumed, baleAt := r.1.baleAt, blocks := r.1.blocks })).modBale (fun b =>
            if space then { b with noSpace := satAdd b.noSpace 1 } else b)

/-- BALE_RELEASE (R365). -/
def State.baleRelease (s : State) (lane : Nat) (stream : Bool) (ix : Nat) (firstDiff : Option Nat) (rawFails : Bool) : State :=
  if stream then s.streamRelease lane ix none firstDiff rawFails else s.jobRelease lane ix false firstDiff rawFails

/-- BALE_NO_SPACE (R381 to R383): the next group does not fit. A stream's bale ends there, is verified, and its context suspends. -/
def State.baleNoSpace (s : State) (lane : Nat) (stream : Bool) (ix room : Nat) (firstDiff : Option Nat) (rawFails : Bool) : State :=
  if stream then
    let before := s.streamRun ix
    let s1 := s.streamRelease lane ix (some room) firstDiff rawFails
    if s1.streamRun ix = before then s1 else s1.modBale (fun b => { b with noSpace := satAdd b.noSpace 1 })
  else if (s.job? ix).any BaleJob.decode then s.jobDecode ix true
  else s.jobRelease lane ix true firstDiff rawFails

/-- Free bytes over the output space after the last released bale of a cancelled job (R387). -/
def State.freeTail (s : State) (j : BaleJob) : State :=
  let n := j.outLen - j.outPos
  { s.jobWrite j ((List.range n).map (fun k => BitVec.ofNat 8 (Config.baleTail s.free k))) false with free := s.free + 1 }

/-- With no lane left, a job in hand ends with ST_HW_FAULT (R380, R386). -/
def State.jobUnserved (s : State) (id : Nat) : State :=
  if s.anyLane then s else s.modJob id (fun j => { j with result := if j.result.isNone && !j.stopped then some stHwFault else j.result })

/-- BALE_JOB_DONE (R386, R387): the job ends with its status; a job stopped for space keeps its context. -/
def State.baleJobDone (s : State) (id : Nat) : State :=
  let s0 := (s.jobUnserved id).jobDecode id false
  match s0.job? id with
  | none => s
  | some j =>
    match j.result, j.stopped with
    | some st, false =>
      let s1 := if st = stBaleCancelled then s0.freeTail j else s0
      let s2 := if st = stBaleNoSpace then s1.modJob id (fun j => { j with result := none, stopped := true })
        else s1.modBale (fun b => { b with jobs := b.jobs.filter (fun x => x.id != id) })
      let s3 := s2.raiseNow 0x0B01 sevInfo srcCompression (u16 id ++ u16 st ++ u32 (satTo 4 j.consumed) ++ u32 (satTo 4 j.produced)) none
      match s3.pendOf j.op id with
      | some p => (s3.strike j.op id).applied p srcDevice (s3.devStamp s3.now) s3.now st
      | none => s3
    | _, _ => s

/-! ### Commands (R384 to R387) -/

/-- The bale source that decides which quantisation a stream admits (Table 14.8). A capture stream carries point captures, which admit word 0, and
raw segments, which admit none: it is judged by the former, and the latter are baled unquantised (DEDUCED). -/
def streamBaleSource (source : Nat) : Nat :=
  match source with
  | 1 => 1
  | 2 => 2
  | 3 => 6
  | _ => 3

/-- A profile is named by a stream definition or a held job (R385). -/
def State.profileUsed (s : State) (n : Nat) : Bool :=
  s.cfg.streams.any (fun d => match d with | some d => d.profile == n | none => false) || s.bale.jobs.any (fun j => !j.decode && j.profile == n)

/-- `bale.profile` (Table 12.8). -/
def baleProfile : Handler := fun c s =>
  let n := rd c.arg 0 1
  let verify := rd c.arg 2 1
  let orders := (List.range 6).map (fun j => rd c.arg (4 + j) 1)
  let qbits := (List.range 6).map (fun j => rd c.arg (10 + j) 1)
  let rows := rd c.arg 16 2
  if 15 < n then reject s stBadArg
  else if bit (rd c.arg 1 1) 0 then
    if (s.profile? n).isNone then reject s stWrongState
    else if s.profileUsed n then reject s stInUse
    else okay (s.modCfg (fun g => { g with profiles := g.profiles.set n none }))
  else if 2 < verify || orders.any (fun x => decide (2 < x)) || qbits.any (fun x => decide (8 < x)) || rows < 1 || 4096 < rows then reject s stBadArg
  else okay (s.modCfg (fun g => { g with profiles := g.profiles.set n (some ⟨⟨verify, orders, qbits⟩, rows⟩) }))

/-- The job region's size. -/
def jobRegionBytes : Nat := jobRegionEnd - jobRegionBase

def rangesMeet (a n b m : Nat) : Bool := decide (a < b + m) && decide (b < a + n)

/-- The job that `bale.run` declares (Table 12.9). -/
def readBaleJob (c : Cmd) (op : Nat) : BaleJob :=
  let p := c.arg
  { id := rd p 2 2, op := op, mb := c.mb, cmdSeq := c.seq, decode := rd p 1 1 == 1, profile := rd p 0 1
    geom := ⟨0, 0xFF, (List.range (rd p 4 1)).map (fun j => rd p (6 + j) 1), rd p 5 1, rd p 12 4⟩, rows := rd p 16 4, pre := rd p 20 4
    input := rd p 24 8, inLen := rd p 32 4, out := rd p 40 8, outLen := rd p 48 4, outPos := 0, row := 0, group := 0, baleAt := 0, blocks := 0
    consumed := 0, produced := 0, seq := 0, result := none, stopped := false }

/-- The fields of an encode are in range. -/
def encodeArgsOk (p : List Byte) (j : BaleJob) : Bool :=
  let w := rd p 4 1
  decide (1 ≤ w) && decide (w ≤ 6) && [0, 32, 48].contains j.geom.recBytes && j.geom.types.all (fun t => decide (t ≤ 2)) &&
    (List.range 6).all (fun k => decide (k < w) || rd p (6 + k) 1 == 0) && decide (1 ≤ j.geom.points) && decide (j.geom.points ≤ 524288) &&
    decide (1 ≤ j.rows) && decide (j.pre ≤ 4096) && decide (j.profile < 16) && j.inLen == j.pre + j.rows * j.geom.rowBytes

/-- `bale.run`: both operations share the payload; OP says which. -/
def baleRun : Handler := fun c s =>
  let p := c.arg
  let j := readBaleJob c 0x0B02
  let rangesOk := decide (j.input + j.inLen ≤ jobRegionBytes) && decide (j.out + j.outLen ≤ jobRegionBytes) &&
    !rangesMeet j.input j.inLen j.out j.outLen
  let argsOk := decide (rd p 1 1 ≤ 1) && rangesOk && (if j.decode then zeroAt p 4 20 else encodeArgsOk p j)
  let fits := match s.profile? j.profile with | some q => q.fits 0 j.geom.types | none => true
  if !argsOk || (!j.decode && !fits) then reject s stBadArg
  else if !j.decode && (s.profile? j.profile).isNone then reject s stWrongState
  else if (s.job? j.id).isSome then reject s stInUse
  else if 16 ≤ s.bale.jobs.length then reject s stNoResource
  else if s.noDram || !s.anyLane then reject s stHwFault
  else pendWith (s.modBale (fun b => { b with jobs := b.jobs ++ [j] })) c 0x0B02 [j.id] none

/-- `bale.resume`. -/
def baleResume : Handler := fun c s =>
  let id := rd c.arg 0 2
  let out := rd c.arg 4 8
  let n := rd c.arg 12 4
  let clash := match s.job? id with | some j => rangesMeet j.input j.inLen out n | none => false
  if jobRegionBytes < out + n || clash then reject s stBadArg
  else match s.job? id with
    | none => reject s stWrongState
    | some j =>
      if !j.stopped then reject s stWrongState
      else if s.noDram || !s.anyLane then reject s stHwFault
      else pendWith (s.modJob id (fun j => { j with
        stopped := false, out := out, outLen := n, outPos := 0, op := 0x0B03, mb := c.mb, cmdSeq := c.seq })) c 0x0B03 [id] none

/-- `bale.cancel` (R387): a stopped job drops its context at once; another stops at its next group boundary and is reported then. -/
def baleCancel : Handler := fun c s =>
  let id := rd c.arg 0 2
  match s.job? id with
  | none => reject s stWrongState
  | some j =>
    if j.stopped then okay (s.modBale (fun b => { b with jobs := b.jobs.filter (fun x => x.id != id) }))
    else okay (s.modJob id (fun j => { j with result := if j.result.isSome then j.result else some stBaleCancelled }))

/-- Bale contexts with work in hand. -/
def State.baleWork (s : State) : Nat :=
  (s.bale.jobs.filter (fun j => !j.stopped)).length + ((List.range 256).filter (fun k => match s.streamBale k with
    | some (r, _, _, v) => v.ready && !r.suspended
    | none => false)).length

/-- LSTATE of a lane (Table 12.10). The lanes that serve are taken in ascending order for the work in hand. -/
def State.laneState (s : State) (n : Nat) : Nat :=
  let u := (s.hUnit kindBale n).st
  let st := if u = 2 then 2 else if u = 3 then 3 else 0
  st + 4 * b2n (s.laneServes n && decide (((List.range n).filter s.laneServes).length < s.baleWork))

def State.baleBody (s : State) : List Byte :=
  (List.range 4).flatMap (fun n => u8 (s.laneState n)) ++ u16 s.bale.jobs.length ++
    u16 (maskOf ((List.range 16).filter (fun n => (s.profile? n).isSome))) ++ u32 s.bale.bales ++ u32 s.bale.rawBlocks ++ u32 s.bale.verifyFails ++
    u32 s.bale.noSpace ++ u32 s.bale.saturated ++ u32 0 ++ u64 s.bale.inBytes ++ u64 s.bale.outBytes

/-- `bale.status` (Table 12.10). -/
def baleStatus : Handler := fun c s =>
  let s1 := if bit (rd c.arg 0 1) 0 then (s.modBale (fun b => ⟨b.jobs, 0, 0, 0, 0, 0, 0, 0⟩)).clearSat 0x0B05 0 else s
  okWith s1 s.baleBody

end Sys2Proof.Machine
end

