-- ==== Sys2Proof/Machine/Dma.lean ====
section
/-! DEFINITION. DMA contexts, their descriptors and halts, MSI-X, the Ethernet ports, and the commands of group 0x0D (R415 to R449). -/

namespace Sys2Proof.Machine

/-! ### Contexts -/

/-- The state of a context that is neither idle, halted nor detaching: running while there are descriptors, else waiting for them. -/
def Ctx.running (c : Ctx) : Nat := if c.cfg.kind = 3 || c.hasWork then 1 else 2

/-- A context that is not idle takes its running state again, unless it is halted or its stream is detaching. -/
def Ctx.refresh (c : Ctx) : Ctx := if c.st = 0 ∨ 4 ≤ c.st then c else { c with st := c.running }

/-- Register 0x04: DONE_INDEX and DONE_WRAP. -/
def Ctx.doneReg (c : Ctx) : Nat := c.doneIdx + 65536 * b2n c.doneWrap

/-- CONTEXT_DOORBELL (R416, R419): a write of POSTED. After END a further posting is a new chain from HEAD with DONE_WRAP toggled. A suspended
bale context of its stream continues (R382). -/
def State.doorbell (s : State) (n : Nat) (v : BitVec 32) : State :=
  let s1 := (s.settleBucket n).modCtx n (fun c =>
    let c1 := { c with postedIdx := v.toNat % 65536, postedWrap := bit v.toNat 16 }
    let c2 := if c1.ended && c1.hasWork then { c1 with ended := false, doneIdx := 0, doneWrap := !c1.doneWrap, fetchAddr := c1.cfg.head, expectSeq := 0 } else c1
    if c2.configured && decide (c2.cfg.kind < 2) && c2.st == 0 && c2.hasWork then { c2 with st := 1 } else c2.refresh)
  match (s1.ctxOf n).stream with
  | some k => s1.modStream k (fun r => { r with suspended := false })
  | none => s1

/-- A descriptor as fetched (Table 14.3). -/
def readDesc (addr : Nat) (b : List Byte) : Desc := ⟨addr, rd b 0 8, rd b 8 8, rd b 16 4, rd b 20 2, rd b 22 2, rd b 24 8⟩

def Desc.ring (d : Desc) : Bool := bit d.flags 0
def Desc.last (d : Desc) : Bool := bit d.flags 1
def Desc.irq (d : Desc) : Bool := bit d.flags 2

def CtxCfg.srcW (g : CtxCfg) : Nat := 2 ^ (g.widths % 4)
def CtxCfg.dstW (g : CtxCfg) : Nat := 2 ^ (g.widths / 16 % 4)

/-- The chain rule of R418. -/
def Ctx.chainOk (c : Ctx) (d : Desc) : Bool :=
  d.seq == c.expectSeq && (!d.ring || d.next == c.cfg.head) && (d.seq != 0xFFFF || d.ring || d.last)

/-- The format rule of Table 14.5. -/
def Ctx.formatOk (c : Ctx) (d : Desc) : Bool :=
  decide (d.flags < 8) && decide (1 ≤ d.length) && decide (d.length ≤ 16777216) && (d.last || d.next % 32 == 0) && !(d.ring && d.last) &&
    (decide (2 ≤ c.cfg.kind) || d.length % c.cfg.srcW == 0)

/-- Bytes that reach the destination (R420). -/
def Ctx.destBytes (c : Ctx) (d : Desc) : Nat := d.length * c.cfg.dstW / c.cfg.srcW

/-- The device range of a descriptor of kind 0 or 1 is allowed (R422). -/
def State.rangeOk (s : State) (c : Ctx) (d : Desc) : Bool :=
  let n := if c.cfg.kind = 0 then c.destBytes d else d.length
  let inside := fun lo hi => decide (lo ≤ d.devAddr) && decide (d.devAddr + n ≤ hi)
  inside jobRegionBase jobRegionEnd || (c.cfg.kind == 1 && inside capRegionBase (capRegionBase + s.capMibNow * 1048576))

/-- A context halts (R426, R427): the first failure's details are latched, EV_DMA_HALTED is raised, and the halt is a cause on its vector. -/
def State.haltCtx (s : State) (n cause addr : Nat) (write dev : Bool) : State :=
  let c := s.ctxOf n
  if c.st = 4 then s
  else
    let s1 := (s.modCtx n (fun c => { c with
      st := 4, cause := cause, failAddr := addr, failDesc := c.expectSeq, failWrite := write, failDev := dev, halts := satAdd c.halts 1 })).raiseNow
        0x0D01 sevFault srcDma (u8 n ++ u8 cause ++ u16 c.expectSeq ++ u64 addr) none
    (s1.cause c.cfg.vector).modVector c.cfg.vector (fun v => { v with haltPending := true })

/-! ### Rates (R423, R424) -/

/-- Contexts of one link. -/
def Ctx.sameLink (a b : Ctx) : Bool := if a.cfg.kind = 3 then b.cfg.kind == 3 && a.cfg.port == b.cfg.port else b.cfg.kind != 3

/-- A context may move `n` bytes now (R424): ctx 0 always; a context of share 0 when no context of its link that is ready to move has tokens. -/
def State.mayMove (s : State) (i n : Nat) : Bool :=
  let c := s.ctxOf i
  if i = 0 then true
  else if c.cfg.share = 0 then
    !((List.range 256).any (fun j => j != i && j != 0 && (s.ctxOf j).configured && c.sameLink (s.ctxOf j) && decide (0 < (s.ctxOf j).cfg.share) &&
      s.inHand (s.ctxOf j) && decide (0 < s.tokensBy (s.ctxOf j))))
  else decide (n * tokenByte ≤ s.tokensBy c)

/-- The bytes are taken from the bucket, which holds at most BURST. -/
def State.spend (s : State) (i n : Nat) : State :=
  s.modCtx i (fun c => { c with
    tokens := min (c.cfg.burst * tokenByte) (s.tokensBy c - n * tokenByte), tokensAt := s.now, bytes := (c.bytes + n) % 2 ^ 64
    st := if c.st = 3 then c.running else c.st })

/-- A context that lacks tokens shows STATE 3. -/
def State.limited (s : State) (i : Nat) : State := s.modCtx i (fun c => { c with st := if c.st = 1 then 3 else c.st })

/-- TOKEN_BUCKET_REFILL (R424). -/
def State.refillTokens (s : State) (i : Nat) : State :=
  (s.settleBucket i).modCtx i (fun c => { c with
    st := if c.st = 3 && decide (0 < c.tokens) then c.running else c.st })

/-! ### Completing a descriptor (R417 to R422, R428) -/

/-- Width conversion of R420: the destination bytes and how many elements changed value. -/
def convertWidth (sx_ : Bool) (sw dw : Nat) : Nat → List Byte → List Byte × Nat
  | 0, _ => ([], 0)
  | n + 1, b =>
    match b with
    | [] => ([], 0)
    | _ =>
      let v := rd b 0 sw
      let i : Int := if sx_ then sx (8 * sw) v else v
      let w := ux (8 * dw) i
      let changed := decide (dw < sw) && (if sx_ then decide (sx (8 * dw) w ≠ i) else decide (w ≠ v))
      let r := convertWidth sx_ sw dw n (b.drop sw)
      (leBytes dw w ++ r.1, b2n changed + r.2)

def CtxCfg.convert (g : CtxCfg) (b : List Byte) : List Byte × Nat :=
  if g.srcW = g.dstW then (b, 0) else convertWidth (bit g.flags 1) g.srcW g.dstW (b.length / g.srcW) b

/-- The descriptor is done (R419, R421): DONE moves on, the WB write and the interrupt cause follow. -/
def State.descDone (s : State) (i : Nat) (d : Desc) : State :=
  let s1 := s.modCtx i (fun c =>
    let c1 := { c with skip := false, descriptors := satAdd c.descriptors 1, fetchAddr := d.next }
    let c2 := if d.ring then { c1 with doneIdx := 0, doneWrap := !c1.doneWrap, expectSeq := 0 }
      else { c1 with doneIdx := (d.seq + 1) % 65536, expectSeq := (d.seq + 1) % 65536, ended := d.last }
    c2.refresh)
  let c := s1.ctxOf i
  let s2 := if bit c.cfg.flags 2 then s1.emit1 (.hostWrite c.cfg.wbAddr (u32 c.doneReg)) else s1
  if d.irq then s2.cause c.cfg.vector else s2

/-- The data of a read of device memory leaves for the host in TLPs of 512 bytes; those with uncorrectable data carry EP (R396). -/
def State.toHost (s : State) (i addr : Nat) (src : Nat) (bad : List Nat) (c : Ctx) (data : List Byte) : State :=
  if bad.isEmpty then s.emit1 (.hostWrite addr data)
  else
    (List.range (ceilDiv data.length 512)).foldl (fun s k =>
      let lo := src + 512 * k * c.cfg.srcW / c.cfg.dstW
      let hi := src + min (512 * (k + 1)) data.length * c.cfg.srcW / c.cfg.dstW
      let part := (data.drop (512 * k)).take 512
      if bad.any (fun b => decide (lo < 64 * b + 64 ∧ 64 * b < hi)) then
        (s.emit1 (.hostPoisoned (addr + 512 * k) part)).modCtx i (fun c => { c with poisoned := satAdd c.poisoned 1 })
      else s.emit1 (.hostWrite (addr + 512 * k) part)) s

/-- Bytes 8 to 15 of a completed kind-2 descriptor (R421). -/
def State.writeStatus (s : State) (d : Desc) (used status : Nat) : State := s.emit1 (.hostWrite (d.addr + 8) (u32 used ++ u32 status))

/-- The record bytes that a skipped buffer would have held are lost (R428): every record of which they hold a part, in whose place stands an
ABORTED record of cause 1. -/
def lostRecords : Nat → List Closed → Nat
  | _, [] => 0
  | room, c :: rest => if room = 0 then 0 else 1 + lostRecords (room - c.bytes.length) rest

def State.streamSkip (s : State) (k room : Nat) : State :=
  match s.streamRun k, s.streamDef k with
  | some r, some d =>
    let n := lostRecords (room + r.headOff) r.closed
    let items := ((r.closed.take n).flatMap Closed.ends).filter (fun e => e.2.lost.isNone)
    let gone := items.map Prod.snd
    match r.closed.head?, decide (0 < n) with
    | some c, true =>
      let m := s.discardMark gone (if d.source = 0 then 0xFF else d.line)
      let last := match m.lost with | some (_, _, x) => x | none => m.stamp
      let rec_ : Closed := ⟨2, recordBytes 2 (rd c.bytes 8 4) k d.source m.line m.stamp gone.length (u8 1 ++ zeros 3 ++ stampBytes last), []⟩
      let s1 := s.modStream k (fun r => { r with closed := rec_ :: r.closed.drop n, headOff := 0 })
      if gone.isEmpty then s1
      else (s1.modCtx r.ctx (fun c => { c with itemsLost := satAdd c.itemsLost gone.length })).raiseNow 0x0D03 sevNotice srcDma
        (u8 k ++ u8 1 ++ u32 (satTo 4 gone.length)) (some [k])
    | _, _ => s
  | _, _ => s

/-- A kind-2 buffer completes with `n` bytes of the stream's records. -/
def State.fillBuffer (s : State) (i k : Nat) (def_ : StreamDef) (d : Desc) (n status : Nat) : State :=
  match s.streamRun k with
  | none => s
  | some r =>
    let bytes := r.ready.take n
    if !s.mayMove i n then s.limited i
    else
      let s1 := ((s.spend i n).emit1 (.hostWrite d.hostAddr bytes)).writeStatus d n status
      (s1.streamMoved k def_ (r.closed.length + 1) n).descDone i d

/-- A descriptor fetched at the context's place is processed; the checks of R417, R418 and R422 come first and halt the context. -/
def State.process (s : State) (i : Nat) (b data : List Byte) (flush : Bool) : State :=
  let c := s.ctxOf i
  let d := readDesc c.fetchAddr b
  if !c.configured || 3 ≤ c.cfg.kind || !c.hasWork || c.ended || c.st == 0 || c.st == 4 || !s.pcie.up || b.length ≠ 32 then s
  else if !c.chainOk d then s.haltCtx i 1 c.fetchAddr false false
  else if !c.formatOk d then s.haltCtx i 2 c.fetchAddr false false
  else if c.cfg.kind = 2 then
    match c.stream with
    | none => s
    | some k => match s.streamRun k, s.streamDef k with
      | some r, some def_ =>
        let n := r.ready.length
        if c.skip then ((s.streamSkip k d.length).writeStatus d 0 3).descDone i d
        else if d.length ≤ n then s.fillBuffer i k def_ d d.length 1
        else if flush && decide (0 < n) && r.waiting.isEmpty && decide (r.lastReady + def_.flushUs * ticksPerUs ≤ s.now) then
          s.fillBuffer i k def_ d n 5
        else s
      | _, _ => s
  else if flush then s
  else if c.skip then s.descDone i d
  else if !s.rangeOk c d then s.haltCtx i 7 d.devAddr (c.cfg.kind == 0) true
  else if !s.mayMove i (c.destBytes d) then s.limited i
  else
    let s0 := s.spend i (c.destBytes d)
    if c.cfg.kind = 0 then
      let v := c.cfg.convert (fit d.length data)
      ((s0.dramWrite d.devAddr v.1).modCtx i (fun c => { c with narrowed := satAdd c.narrowed v.2 })).descDone i d
    else
      let q := s0.readBy 4 d.devAddr d.length
      let v := c.cfg.convert q.2.1
      ((q.1.toHost i d.hostAddr d.devAddr q.2.2 c v.1).modCtx i (fun c => { c with narrowed := satAdd c.narrowed v.2 })).descDone i d

/-- DMA_HALTED (R426, R427): a request of a context at work fails, for a cause of Table 14.5. A context of kind 3 has no descriptors and asks
nothing of the host: only an internal target can fail it. -/
def State.dmaHalt (s : State) (i cause addr : Nat) (write dev : Bool) : State :=
  let c := s.ctxOf i
  if !c.configured || c.st == 0 || cause < 1 || 7 < cause || (if c.cfg.kind = 3 then c.stream.isNone || cause != 6 else !c.hasWork) then s
  else if cause ≤ 2 then s.haltCtx i cause c.fetchAddr false false
  else if cause ≤ 5 then s.haltCtx i cause addr false false
  else s.haltCtx i cause addr write dev

/-! ### MSI-X (R433) -/

/-- A vector's message may leave: enough causes, the oldest old enough, or a halt; never sooner than MIN_GAP after the one before. -/
def Vector.due (v : Vector) (now : Nat) : Bool :=
  !v.masked && (match v.causes with
    | [] => false
    | x :: _ => decide (max 1 v.count ≤ v.causes.length) || decide (x + v.maxDelay * ticksPerUs ≤ now) || v.haltPending) &&
    (match v.lastSent with | some x => decide (x + v.minGap * ticksPerUs ≤ now) | none => true)

/-- MSIX_MESSAGE. -/
def State.msix (s : State) (n : Nat) : State :=
  let v := nth s.vectors n default
  if n < 64 && v.due s.now && s.pcie.up then
    (s.modVector n (fun v => { v with causes := [], haltPending := false, lastSent := some s.now })).emit1 (.msix n v.addr v.data)
  else s

/-! ### Ethernet (R443, R444) -/

def State.portCfg (s : State) (p : Nat) : PortCfg := nth s.cfg.ports p default
def State.portRun (s : State) (p : Nat) : PortRun := nth s.ports p default
def PortCfg.enabled (g : PortCfg) : Bool := bit g.flags 0

/-- A port that can send. -/
def State.portOpen (s : State) (p : Nat) : Bool :=
  (s.portCfg p).enabled && (s.portRun p).up && decide ((s.portRun p).pausedUntil ≤ s.now)

/-- The payload of a full fragment (R444). -/
def PortCfg.fragment (g : PortCfg) : Nat := (g.mtu - 60) / 8 * 8

/-- Bytes on the wire of a fragment of `n` bytes: packet header, UDP, IPv4, Ethernet with a tag when used, FCS, preamble with SFD, and the gap. -/
def PortCfg.wire (g : PortCfg) (n : Nat) : Nat := n + 32 + 8 + 20 + 14 + (if bit g.flags 2 then 4 else 0) + 4 + 8 + 12

/-- STREAM_PACKET_SENT (R444): the next fragment of the context's first record leaves the port. -/
def State.packetSent (s : State) (i : Nat) : State :=
  let c := s.ctxOf i
  match c.stream with
  | none => s
  | some k => match s.streamRun k, s.streamDef k with
    | some r, some d => match r.closed with
      | [] => s
      | q :: _ =>
        let g := s.portCfg c.cfg.port
        let n := min g.fragment (q.bytes.length - r.headOff)
        if c.cfg.kind ≠ 3 || !s.portOpen c.cfg.port || c.st == 0 || c.st == 4 then s
        else if !s.mayMove i (g.wire n) then s.limited i
        else
          let head := u32 0x54565244 ++ u8 1 ++ u8 (b2n (r.headOff == 0) + 2 * b2n (r.headOff + n == q.bytes.length)) ++ u16 s.cfg.trail.nodeId ++
            u16 k ++ u16 0 ++ u32 r.pktSeq ++ (q.bytes.drop 8).take 4 ++ u32 r.headOff ++ u32 q.bytes.length ++ u32 n
          let s1 := ((s.spend i (g.wire n)).modStream k (fun r => { r with pktSeq := (r.pktSeq + 1) % 2 ^ 32 })).modPort c.cfg.port (fun p => { p with
            framesTx := satAdd p.framesTx 1 })
          (s1.emit1 (.udpPacket c.cfg.port i (head ++ (q.bytes.drop r.headOff).take n))).streamMoved k d 2 n
    | _, _ => s

/-- A port's link goes up or down (R310 of ports is the trail's; here Table 14.18). -/
def State.ethLink (s : State) (p : Nat) (up : Bool) : State :=
  if 2 ≤ p || (s.portRun p).up == up || (up && !(s.portCfg p).enabled) then s
  else (s.modPort p (fun x => { x with up := up })).raiseNow 0x0D04 sevNotice (srcPort p) (u8 (b2n up) ++ u8 (s.portCfg p).fec) (some [])

/-- ARP_REQUEST (R443): the device answers for its own address. -/
def State.arp (s : State) (p : Nat) (ip : BitVec 32) : State :=
  if !(s.portCfg p).enabled || !(s.portRun p).up then s
  else
    let s1 := s.modPort p (fun x => { x with framesRx := satAdd x.framesRx 1 })
    if ip.toNat = (s.portCfg p).ip then
      (s1.modPort p (fun x => { x with framesTx := satAdd x.framesTx 1 })).emit1 (.arpReply p ip)
    else s1

/-- PAUSE_FRAME_RX (R443): the port holds back for `quanta` of 512 bit times at 25 Gbit/s; without PAUSE_RX the frame is dropped. -/
def State.pauseFrame (s : State) (p quanta : Nat) : State :=
  if !(s.portCfg p).enabled || !(s.portRun p).up then s
  else if bit (s.portCfg p).flags 1 then
    s.modPort p (fun x => { x with
      framesRx := satAdd x.framesRx 1, pauseRx := satAdd x.pauseRx 1, pausedUntil := s.now + ceilDiv (quanta * 65536) 25 })
  else s.modPort p (fun x => { x with framesRx := satAdd x.framesRx 1, droppedRx := satAdd x.droppedRx 1 })

/-- ETH_FRAME_DROPPED (R443): a frame of another kind, or one whose check sequence fails. -/
def State.frameDropped (s : State) (p : Nat) (fcsOk : Bool) : State :=
  if !(s.portCfg p).enabled || !(s.portRun p).up then s
  else if fcsOk then s.modPort p (fun x => { x with framesRx := satAdd x.framesRx 1, droppedRx := satAdd x.droppedRx 1 })
  else s.modPort p (fun x => { x with fcsErrors := satAdd x.fcsErrors 1 })

/-! ### The PCIe link (R434, R435) -/

/-- The ABORTED and END records of a stream that ends with its context (R429, R439, R442), "as buffer space allows": on a port they need none and
leave at once, while it can send; an aborted context of kind 2 has no buffers. -/
def State.abortPackets (s : State) (i k : Nat) : State :=
  match s.streamRun k, s.streamDef k with
  | some r, some d =>
    if (s.ctxOf i).cfg.kind = 3 then
      let m := s.discardMark r.discard.2 (if d.source = 0 || 4 ≤ d.source then 0xFF else d.line)
      let s1 := s.modStream k (fun r => { r with waiting := [(s.now, m)], closed := [], headOff := 0, detach := some 1 })
      (((s1.streamClose k).streamClose k).packetSent i).packetSent i
    else s
  | _, _ => s

/-- A context returns to idle (R429): its stream ends as an immediate detach does, POSTED and DONE become zero. -/
def State.abortCtx (s : State) (i : Nat) : State :=
  let c := s.ctxOf i
  let s0 := match c.stream with | some k => s.abortPackets i k | none => s
  let s1 := s0.modCtx i (fun c => { c with
    st := 0, cause := 0, postedIdx := 0, postedWrap := false, doneIdx := 0, doneWrap := false, stream := none, fetchAddr := c.cfg.head
    expectSeq := 0, ended := false, skip := false })
  match c.stream with
  | none => s1
  | some k => match s.streamRun k with
    | none => s1
    | some r => s1.streamEnd k 1 (r.discarded + r.discard.2.length)

/-- A vector's moderation register at its reset value (Table 14.7). -/
def Vector.unmoderated (v : Vector) : Vector := { v with maxDelay := 0, count := 0, minGap := 0 }

/-- PCIE_LINK_RESET (R435): link down, hot reset or function-level reset. -/
def State.pcieReset (s : State) (cause : Nat) : State :=
  let s1 := (List.range 256).foldl (fun s i => if (s.ctxOf i).cfg.kind < 3 && (s.ctxOf i).st != 0 then s.abortCtx i else s) s
  let link : Pcie := { s1.pcie with winBase := 0, up := cause == 2 && s1.pcie.up }
  let s2 := { s1 with vectors := s1.vectors.map Vector.unmoderated, pcie := link }
  s2.raiseNow 0x0D06 sevNotice srcPcie (u8 cause ++ u8 s.pcie.speed ++ u8 s.pcie.width) none

/-- PCIE_LINK_UP (R432). -/
def State.pcieUp (s : State) (speed width : Nat) : State :=
  let v := min 5 (max 1 speed)
  let w := if [1, 2, 4, 8].contains width then width else 8
  let s1 := (List.range 256).foldl (fun s i => if (s.ctxOf i).cfg.kind < 3 then s.settleBucket i else s) s
  ({ s1 with pcie := { s1.pcie with up := true, speed := v, width := w } }).raiseNow 0x0D06 sevNotice srcPcie (u8 3 ++ u8 v ++ u8 w) none

/-! ### Commands (R446 to R448) -/

def readCtxCfg (p : List Byte) : CtxCfg :=
  ⟨rd p 1 1, rd p 2 1, rd p 3 1, rd p 4 1, rd p 5 1, rd p 6 1, rd p 8 8, rd p 16 8, rd p 24 4, rd p 32 6, rd p 38 2, rd p 40 4, rd p 44 1⟩

/-- The shares of the contexts on the link of a setting, that of context `i` being the new one. -/
def State.shareSum (s : State) (i : Nat) (g : CtxCfg) : Nat :=
  let new_ : Ctx := { s.ctxOf i with cfg := g }
  g.share + ((List.range 256).map (fun j =>
    let x := s.ctxOf j
    if j = i || !x.configured || !new_.sameLink x then 0 else x.cfg.share)).sum

def ctxArgsOk (i : Nat) (p : List Byte) (g : CtxCfg) : Bool :=
  let eth := g.kind == 3
  decide (g.kind ≤ 3) && (i != 0 || g.kind == 2) && decide (g.vector < 64) && decide (g.widths % 4 ≤ 2) && decide (g.widths / 16 % 4 ≤ 2) &&
    (decide (g.kind < 2) || g.widths == 0) && g.head % 32 == 0 && decide (4096 ≤ g.burst) && decide (g.burst ≤ 1048576) &&
    (!eth || (decide (9216 ≤ g.burst) && g.head == 0 && decide (g.port ≤ 1) && decide (g.dscp ≤ 63))) &&
    (eth || (zeroAt p 5 1 && zeroAt p 32 13))

/-- `dma.config` (R447): the context starts a new chain from HEAD with a full bucket. -/
def dmaConfig : Handler := fun c s =>
  let i := rd c.arg 0 1
  let g := readCtxCfg c.arg
  let x := s.ctxOf i
  if !ctxArgsOk i c.arg g then reject s stBadArg
  else if x.st ≠ 0 || x.stream.isSome then reject s stWrongState
  else if 256 < s.shareSum i g then reject s stOverBudget
  else okay (s.modCtx i (fun x => { x with
    cfg := g, configured := true, postedIdx := 0, postedWrap := false, doneIdx := 0, doneWrap := false, fetchAddr := g.head, expectSeq := 0
    ended := false, skip := false, tokens := g.burst * tokenByte, tokensAt := s.now }))

/-- `dma.resume` (R428). -/
def dmaResume : Handler := fun c s =>
  let i := rd c.arg 0 1
  let mode := rd c.arg 1 1
  let x := s.ctxOf i
  if 1 < mode then reject s stBadArg
  else if x.st = 4 && mode == 1 && decide (x.cause ≤ 2) then reject s stBadArg
  else if x.st ≠ 4 then reject s stWrongState
  else
    let leaving : Bool := match x.stream with
      | some k => (s.streamRun k).any (fun r => r.detach.isSome)
      | none => false
    okay ((s.settleBucket i).modCtx i (fun x => { x with st := if leaving then 5 else x.running, cause := 0, skip := mode == 1 }))

/-- `dma.abort` (R429). -/
def dmaAbort : Handler := fun c s =>
  let i := rd c.arg 0 1
  if (s.ctxOf i).st = 0 then reject s stWrongState else okay (s.abortCtx i)

/-- `dma.link`. -/
def dmaLink : Handler := fun c s =>
  let us := rd c.arg 0 4
  if us < 1 || 64000 < us then reject s stBadArg else okay (s.modCfg (fun g => { g with cplTimeout := us }))

def readPortCfg (p : List Byte) : PortCfg := ⟨rd p 1 1, rd p 2 1, rd p 4 2, rd p 6 2, rd p 8 6, rd p 14 2, rd p 16 4, rd p 20 4, rd p 24 4⟩

/-- `dma.port` (R448): a change of FEC, MTU or ENABLE restarts the link. -/
def dmaPort : Handler := fun c s =>
  let n := rd c.arg 0 1
  let g := readPortCfg c.arg
  let old := s.portCfg n
  if 1 < n || 2 < g.fec || g.mtu < 1500 || 9000 < g.mtu then reject s stBadArg
  else if s.cfg.tb.ptpPort = n && old.enabled && !g.enabled then reject s stInUse
  else
    let s1 := s.modCfg (fun k => { k with ports := k.ports.set n g })
    okay (if old.fec ≠ g.fec || old.mtu ≠ g.mtu || old.enabled != g.enabled then s1.ethLink n false else s1)

/-- `stream.define` (Table 14.16). -/
def streamDefine : Handler := fun c s =>
  let p := c.arg
  let k := rd p 0 1
  let d : StreamDef := ⟨rd p 1 1, rd p 2 1, rd p 3 1, rd p 4 1, rd p 5 1, rd p 6 2, rd p 8 4⟩
  let remove := d.source == 0xFF
  let ok := remove || (decide (d.source ≤ 5) && (decide (d.source = 0 ∨ 4 ≤ d.source) || s.lineEnabled d.line) && (d.source != 1 || decide (d.reader < 16)) &&
    (decide (d.profile < 16) || d.profile == 0xFF) && (!(d.source == 0 || d.source == 5) || d.profile == 0xFF) && (d.flags == 0 || d.source == 4) &&
    decide (1 ≤ d.itemsMax) && decide (d.itemsMax ≤ 1024) && decide (10 ≤ d.flushUs) && decide (d.flushUs ≤ 1000000))
  if !ok then reject s stBadArg
  else if (s.streamRun k).isSome then reject s stInUse
  else okay (s.modCfg (fun g => { g with streams := g.streams.set k (if remove then none else some d) }))

/-- The source instance of a definition (R436). -/
def StreamDef.sourceKey (d : StreamDef) : Nat × Nat × Nat :=
  match d.source with
  | 1 => (1, d.line, d.reader)
  | 2 => (2, d.line, 0)
  | 3 => (3, d.line, 0)
  | n => (n, 0, 0)

/-- What a stream delivers first of what is already there (R436): the felt from the reader's position, ready captures not yet delivered in SEQ
order. -/
def State.firstItems (s : State) (d : StreamDef) : List (Nat × Item) :=
  match d.source with
  | 1 =>
    let f := s.feltOf d.line
    let pos := (nth f.readers d.reader none).getD f.fsn
    (f.rows.filter (fun r => decide (pos ≤ r.fsn))).map (fun r => (s.now, r.item d.line))
  | 4 =>
    let l := (s.trig.recs.filter (fun r => r.ready && !r.delivered)).mergeSort (fun a b => decide (seqAfter s.trig.seq a.seq ≤ seqAfter s.trig.seq b.seq))
    l.map (fun r => (s.now, ⟨s.recBytes r, r.trigger, s.now, r.line, r.index, none⟩))
  | _ => []

/-- `stream.attach` (R436). -/
def streamAttach : Handler := fun c s =>
  let k := rd c.arg 0 1
  let i := rd c.arg 1 1
  let x := s.ctxOf i
  match s.streamDef k with
  | none => reject s stWrongState
  | some d =>
    let prof := s.profile? d.profile
    let types := if d.source = 2 then [0, 2] else [0]
    if d.profile < 16 && (prof.any (fun p => !p.fits (streamBaleSource d.source) types)) then reject s stBadArg
    else if x.st ≠ 0 || !x.configured || (x.cfg.kind != 2 && x.cfg.kind != 3) || ((d.source == 0) != (i == 0)) ||
        (d.source == 1 && (nth (s.feltOf d.line).readers d.reader none).isNone) || (decide (d.profile < 16) && prof.isNone) then reject s stWrongState
    else if (s.streamRun k).isSome || (List.range 256).any (fun j => (s.streamRun j).isSome &&
        (match s.streamDef j with | some e => e.sourceKey == d.sourceKey | none => false)) then reject s stInUse
    else
      let run : StreamRun := ⟨i, 0, 0, s.firstItems d, [], 0, s.now, none, false, 0, 0, 0, 0, false⟩
      okay (({ s with streams := s.streams.set k (some run) }).modCtx i (fun x => { x with stream := some k, st := x.running }))

/-- A stream begins to detach (R442): in drain form what is ready is still delivered, in immediate form it is discarded. -/
def State.detachStream (s : State) (k mode : Nat) : State :=
  match s.streamRun k with
  | none => s
  | some r =>
    let s1 := if mode = 0 then s.modStream k (fun r => { r with detach := some 0 })
      else
        let q := r.discard
        let line := match s.streamDef k with | some d => if d.source = 0 || 4 ≤ d.source then 0xFF else d.line | none => 0xFF
        s.modStream k (fun _ => { q.1 with waiting := [(s.now, s.discardMark q.2 line)], detach := some 1, discarded := q.2.length })
    s1.modCtx r.ctx (fun x => { x with st := if x.st = 4 then 4 else 5 })

/-- `stream.detach` (R442). -/
def streamDetach : Handler := fun c s =>
  let k := rd c.arg 0 1
  let mode := rd c.arg 1 1
  if 1 < mode then reject s stBadArg
  else if (s.pendOf 0x0D08 k).isSome then reject s stBusy
  else if (s.streamRun k).isNone then reject s stWrongState
  else pendWith (s.detachStream k mode) c 0x0D08 [k] none

/-- STREAM_DETACHED (R442): the END record has been moved. -/
def State.streamDetached (s : State) (k : Nat) : State :=
  match s.streamRun k with
  | none => s
  | some r =>
    match r.detach with
    | none => s
    | some mode =>
      if !r.ended || !r.closed.isEmpty || !r.waiting.isEmpty then s
      else (s.modCtx r.ctx (fun x => { x with st := 0, stream := none })).streamEnd k mode r.discarded

def State.ctxBody (s : State) (i : Nat) : List Byte :=
  let c := s.ctxOf i
  u8 c.st ++ u8 c.cfg.kind ++ u8 (c.stream.getD 0xFF) ++ u8 c.cause ++ u64 c.bytes ++ u32 c.descriptors ++ u32 c.halts ++ u32 c.records ++
    u32 c.aborted ++ u32 c.itemsLost ++ u32 c.narrowed ++ u32 c.poisoned ++ u32 s.pcie.winDenied

def State.portBody (s : State) (p : Nat) : List Byte :=
  let x := s.portRun p
  u8 (if !(s.portCfg p).enabled then 0 else if x.up then 2 else 1) ++ zeros 3 ++ u32 x.framesTx ++ u32 x.framesRx ++ u32 x.droppedRx ++
    u32 x.fcsErrors ++ u32 x.authFails ++ u32 x.pauseRx

/-- `dma.status` (Table 14.17). -/
def dmaStatus : Handler := fun c s =>
  let n := rd c.arg 0 2
  let clear := bit (rd c.arg 2 1) 0
  if 257 < n then reject s stBadArg
  else if n < 256 then
    let s1 := if clear then
        ({ s.modCtx n (fun x => { x with
            bytes := 0, descriptors := 0, halts := 0, records := 0, aborted := 0, itemsLost := 0, narrowed := 0, poisoned := 0 }) with
          pcie := { s.pcie with winDenied := 0 } }).clearSat 0x0D09 n
      else s
    okWith s1 (s.ctxBody n)
  else
    let s1 := if clear then
        (s.modPort (n - 256) (fun x => { x with
          framesTx := 0, framesRx := 0, droppedRx := 0, fcsErrors := 0, authFails := 0, pauseRx := 0 })).clearSat 0x0D09 n
      else s
    okWith s1 (s.portBody (n - 256))

end Sys2Proof.Machine
end

