-- ==== Sys2Proof/Machine/HealthRows.lean ====
section
/-! DEFINITION. The hamper's rows (R509 to R537): outcomes of targeted tests, units without a spare, SRAM and die-to-die repairs, self-test
segments, sensors, fuse repair, and the commands of group 0x0F. -/

namespace Sys2Proof.Machine

/-! ### Returning to service and retiring -/

/-- The unit has work of its own that no spare carries. -/
def State.holdsWork (s : State) (k i : Nat) : Bool :=
  if k = kindConverter then
    let c := nth (s.quadOf (i / 5)).convs (i % 5) default
    c.input.isSome && !c.parallel
  else if k = kindLine then (s.lineOf i).engine == i
  else if k = kindTile then s.tiles.map.contains (some i)
  else if k = kindSlice then (s.logicalOf i).isSome
  else if k = kindModulator then s.front.sdm == i
  else if k = kindD2d then s.health.d2dMap.contains i
  else false

/-- A die-to-die lane due for test gives its place to a spare of its group at the next frame boundary (R518). -/
def State.d2dWithdraw (s : State) (lane : Nat) : State :=
  match s.spareFor kindD2d lane, s.health.d2dMap.findIdx? (· == lane) with
  | some n, some g =>
    if !(s.hUnit kindD2d lane).wantsSpare then s
    else
      let s1 := s.modHealth (fun h => { h with d2dMap := h.d2dMap.set g n })
      (s1.spareTakes kindD2d lane n).raiseNow 0x0F0B sevNotice srcMss (u8 (lane / 34) ++ u8 lane ++ u8 n ++ u8 (s.hUnit kindD2d lane).spareCause)
        none
  | _, _ => s

/-- The converter of a quad whose test waits for a spare, and the emergency that it begins (R123, R511). -/
def State.converterNext (s : State) (q : Nat) : State :=
  match (List.range 5).find? (fun j => s.testDue kindConverter (5 * q + j) && s.holdsWork kindConverter (5 * q + j)) with
  | some j => s.converterWithdraw q j
  | none => s

/-- EV_REPAIR (Table 17.10): 0 soft row, 1 soft column, 2 fuse; result 0 done, 1 failed. -/
def State.repairEvent (s : State) (kind m index result : Nat) : State :=
  s.raiseNow 0x0F07 sevNotice srcMss (u8 kind ++ u16 m ++ u16 index ++ u8 result) none

/-- The row or column under test of a macro. -/
def State.sramUnder (s : State) (m : Nat) : Option (Nat × Nat) := (s.health.sramTest.find? (fun e => e.1 == m)).map Prod.snd

/-- The march of a macro's row or column is over: it is kept as a soft repair, or the spare is freed (R516). -/
def State.sramTested (s : State) (m : Nat) (keep : Bool) : State :=
  match s.sramUnder m with
  | none => s.modHUnit kindMacro m (fun u => { u with st := 0 })
  | some (kind, index) =>
    let s1 := s.modHealth (fun h => { h with sramTest := h.sramTest.filter (fun e => e.1 != m) })
    let s2 := s1.modHUnit kindMacro m (fun u => { u with
      st := 0
      rowsUsed := if keep || kind ≠ 0 then u.rowsUsed else u.rowsUsed - 1
      colsUsed := if keep || kind ≠ 1 then u.colsUsed else u.colsUsed - 1 })
    if keep then (s2.modHealth (fun h => { h with repairs := h.repairs ++ [⟨kind, m, index, false⟩] })).repairEvent kind m index 0 else s2

/-- A unit that passed its test returns to service, or becomes the spare of its kind (R123, R169, R238, R295, R326, R380, R516, R518). -/
def State.returnUnit (s : State) (k i : Nat) : State :=
  let to_ := fun (v : Nat) => s.modHUnit k i (fun u => { u with st := v })
  let held := if s.holdsWork k i then 0 else 1
  if k = kindConverter then (s.returnConverter i).converterNext (i / 5)
  else if k = kindLine then
    if i = 16 then to_ 1
    else if (s.lineOf i).engine = 16 then s.modLine i (fun r => { r with returnDue := true })
    else to_ 0
  else if k = kindTiu then to_ (b2n (s.spareFor kindTiu i).isNone)
  else if k = kindMacro then s.sramTested i false
  else if k = kindBale then (to_ 0).reportLane i 0
  else if k = kindLead then to_ 0
  else if k = kindModulator then (to_ held).sdmWithdraw
  else if k = kindD2d then
    (List.range 34).foldl (fun s j => if s.testDue kindD2d (i / 34 * 34 + j) then s.d2dWithdraw (i / 34 * 34 + j) else s) (to_ held)
  else to_ held

/-- A unit whose test failed, or that is wearing and carried, is retired; the spare keeps its work (R510 step 5, R513). A TIU retired while a spare
is free gives its place to it. -/
def State.retireUnit (s : State) (k i cause : Nat) : State :=
  let s0 := s.modHealth (fun h => { h with permanents := satAdd h.permanents 1 })
  let s1 := s0.modHUnit k i (fun u => { u with st := 3, moveSince := s.now })
  if k = kindConverter then s0.retireConverter i cause
  else if k = kindMacro then s0.sramTested i true
  else if k = kindBale then (s1.reportNoSpare k i cause).reportLane i 3
  else if k = kindLead then s1.reportNoSpare k i cause
  else if k = kindTiu then
    match s1.spareFor kindTiu i with
    | some j => (s1.modHUnit k j (fun v => { v with st := 0 })).raiseNow 0x080B sevNotice (srcTiu i) (u8 i ++ u8 j ++ u8 cause) none
    | none => s1
  else s1

/-- A unit that has no spare to move to: the hamper holds none of its kind, or it holds its own work and no spare is free (R513). -/
def State.noneFree (s : State) (k i : Nat) : Bool := k == kindBale || k == kindLead || (s.holdsWork k i && (s.spareFor k i).isNone)

/-- A transient is recorded; with the 8th within 86 400 s the unit is wearing, and is retired or kept in that state (R513). -/
def State.passTransient (s : State) (k i : Nat) : State :=
  -- a tile that was wearing before its test becomes a spare when it passes (R238)
  let worn := k = kindTile && decide (8 ≤ s.recentTransients (s.hUnit k i))
  let s1 := (s.modHUnit k i (fun u => { u with transients := s.elapsed :: u.transients.filter (fun e => decide (s.elapsed < e + 86400)) })).modHealth
    (fun h => { h with transients := satAdd h.transients 1 })
  let n := s1.recentTransients (s1.hUnit k i)
  if n < 8 || worn then s1.returnUnit k i
  else
    let s2 := s1.raiseNow 0x0F03 sevNotice (unitSource k i) (u8 k ++ u16 i ++ u8 (satTo 1 n)) none
    if s2.noneFree k i then
      let s3 := s2.modHUnit k i (fun u => { u with st := 4, moveSince := s.now })
      let s4 := if k = kindBale then s3.reportLane i 0 else s3
      s4.reportNoSpare k i 1
    else s2.retireUnit k i 1

/-- TARGETED_TEST_DONE (R510, R512): outside its conditions a test counts for nothing and runs again after 1 s. -/
def State.testDone (s : State) (k i : Nat) (pass conditions : Bool) : State :=
  let u := s.hUnit k i
  if u.st ≠ 2 || k = kindRow || unitCount k ≤ i || (k = kindLine && (s.lineOf i).returnDue) || s.now < u.testSince || s.pwr.st = 3 then s
  else if !conditions || !s.tb.synthLocked then
    (s.reportTest k i 2).modHUnit k i (fun v => { v with testSince := s.now + ticksPerSecond })
  else
    let s1 := s.reportTest k i (if !pass then 1 else if u.onDemand then 3 else 0)
    let unit_ := k * 65536 + i
    let s2 := match s1.pendOf 0x0F03 unit_ with
      | some p => (s1.strike 0x0F03 unit_).applied p srcDevice (s1.effStamp s1.now none) s1.now stOk
      | none => s1
    if !pass then s2.retireUnit k i 0 else if u.onDemand || k = kindLead then s2.returnUnit k i else s2.passTransient k i

/-! ### NO_SPARE (R514) -/

/-- A row of a channel waits for its test and no spare row is free (R401). -/
def State.rowWaits (s : State) (c : Nat) : Bool := s.mem.rowsDue.any (fun r => r.channel == c && (s.freeSpare c r.sub).isNone)

/-- A macro's test waits for a spare row or column. -/
def State.macroWaits (s : State) (m : Nat) : Bool := s.testDue kindMacro m && decide (2 ≤ (s.hUnit kindMacro m).rowsUsed ∧ 2 ≤ (s.hUnit kindMacro m).colsUsed)

/-- What a unit lacks a spare for: its cause of Table 17.10, or nothing. Tiles, line engines and converters wait without a report while only a
test is due (R123, R170, R239). -/
def State.spareCauseOf (s : State) (k i : Nat) : Option Nat :=
  let u := s.hUnit k i
  if u.noSpare || unitCount k ≤ i then none
  else if k = kindRow then (if s.rowWaits i then some 2 else none)
  else if k = kindMacro then (if s.macroWaits i || s.health.bootNoSpare.contains i then some 3 else none)
  else if (s.spareFor k i).isSome then none
  else if u.st = 4 then some 1
  else if u.st = 3 then (if s.holdsWork k i then some 0 else none)
  else if u.due.isSome && (k = kindTiu || k = kindSlice || k = kindModulator || k = kindD2d) && u.serves then some 2
  else none

/-- What a unit without a spare leaves behind: the line keeps its grid on no engine (R170), the logical tile and the logical slice have no unit
(R239, R326), the TIU's arming is aborted (R295). -/
def State.vacate (s : State) (k i : Nat) : State :=
  if k = kindLine then
    if (s.lineOf i).engine = i then s.modLine i (fun r => { r with engine := 0xFF, restartNext := true }) else s
  else if k = kindTile then s.modPool (fun p => { p with map := p.map.map (fun e => if e = some i then none else e) })
  else if k = kindSlice then s.sliceUnserved i
  else if k = kindTiu then s.tiuAbort i
  else s

/-- NO_SPARE. -/
def State.noSpareRow (s : State) (k i cause : Nat) : State :=
  if s.spareCauseOf k i = some cause then
    let s1 := if cause = 1 then s else s.vacate k i
    (s1.reportNoSpare k i cause).modHealth (fun h => { h with bootNoSpare := if k = kindMacro then h.bootNoSpare.filter (· != i) else h.bootNoSpare })
  else s

/-! ### SRAM macros and die-to-die lanes (R516, R518) -/

/-- The macro's test begins on the row or column of its newest error: a column when the recorded errors share one and a spare column is free,
otherwise a row, otherwise a column (R516). -/
def State.sramBegin (s : State) (m : Nat) : State :=
  let u := s.hUnit kindMacro m
  let errs := s.health.sramErrs.filter (fun e => e.1 == m)
  match errs.getLast?, s.testDue kindMacro m, decide (s.pwr.st < 2) with
  | some (_, row, _, b), true, true =>
    let shared := decide (2 ≤ errs.length) && errs.all (fun e => e.2.2.2 == b)
    let pick : Option (Nat × Nat) :=
      if shared && decide (u.colsUsed < 2) then some (1, b) else if u.rowsUsed < 2 then some (0, row) else if u.colsUsed < 2 then some (1, b) else none
    match pick with
    | none => s
    | some (kind, index) =>
      let s1 := s.modHealth (fun h => { h with
        sramTest := h.sramTest ++ [(m, kind, index)]
        sramErrs := h.sramErrs.filter (fun e => !(e.1 == m && (if kind = 1 then e.2.2.2 == b else e.2.1 == row))) })
      (s1.beginTest kindMacro m).modHUnit kindMacro m (fun v => { v with rowsUsed := v.rowsUsed + (1 - kind), colsUsed := v.colsUsed + kind })
  | _, _, _ => s

/-- SRAM_ERROR (R516): an uncorrectable word, or the fourth corrected error of a row within 86 400 s, is a detected error of the macro. -/
def State.sramError (s : State) (m row b : Nat) (uncorrectable : Bool) : State :=
  if 1152 ≤ m then s
  else
    let s1 := s.modHealth (fun h => { h with
      sramErrs := h.sramErrs.filter (fun e => decide (s.elapsed < e.2.2.1 + 86400)) ++ [(m, row, s.elapsed, b)]
      sramCorrected := if uncorrectable then h.sramCorrected else satAdd h.sramCorrected 1 })
    let s2 := if uncorrectable then s1 else s1.raiseNow 0x0F0C sevNotice srcMss (u16 m ++ u16 row ++ u8 b) (some [m])
    let n := (s2.health.sramErrs.filter (fun e => e.1 == m && e.2.1 == row)).length
    if uncorrectable || 4 ≤ n then (s2.detect kindMacro m).sramBegin m else s2

/-- D2D_LANE_ERROR (R518): part of an uncorrectable frame, or 16 corrected symbols within 1 s, is a detected error of the lane. -/
def State.d2dError (s : State) (lane symbols : Nat) (uncorrectable : Bool) : State :=
  if !s.health.d2dMap.contains lane then s
  else
    let s1 := s.modHealth (fun h => { h with
      d2dCorrected := satAdd h.d2dCorrected symbols
      d2dErrs := h.d2dErrs.filter (fun e => decide (s.now < e.2 + ticksPerSecond)) ++ List.replicate (min symbols 16) (lane, s.now) })
    if uncorrectable || 16 ≤ (s1.health.d2dErrs.filter (fun e => e.1 == lane)).length then
      ((s1.modHealth (fun h => { h with d2dErrs := h.d2dErrs.filter (fun e => e.1 != lane) })).detect kindD2d lane).d2dWithdraw lane
    else s1

/-! ### Self-test segments (R519 to R523, Table 17.3) -/

/-- Cycles of a segment. -/
def segmentCycles (n : Nat) : Nat :=
  nth [120000000, 900000000, 80000000, 400000000, 220000000, 150000000, 60000000, 300000000, 100000000, 20000000] (n - 1) 0

/-- A segment without an accepted END in the latest run: incomplete, or run outside its conditions (R520, R521). -/
def Segment.incomplete (g : Segment) : Bool := g.st == 3 || g.st == 4

/-- The segment that runs next: at shutdown each in order, at boot those left incomplete and not yet rerun. -/
def State.segmentNext (s : State) : Option Nat :=
  match s.health.testRun with
  | some (boot, _) => (s.health.segments.findIdx? (fun g => if boot then g.incomplete && !g.began else !g.began)).map (· + 1)
  | none => none

/-- A RUN marker at shutdown: every segment of the run is yet to complete (R520). -/
def State.beginRun (s : State) : State :=
  s.modHealth (fun h => { h with
    testRun := some (false, s.now)
    segments := h.segments.map (fun g => { g with st := 3, stale := false, atBoot := false, began := false, ended := false, cycles := 0, fails := 0 }) })

/-- A failing row found by a memory segment becomes a soft repair where a spare of the macro is free; otherwise R514 applies with cause 3 at the
next boot, or in the boot that reran the segment (R522). -/
def State.softRepair (s : State) (boot : Bool) (e : Nat × Nat) : State :=
  if 1152 ≤ e.1 then s
  else if (s.hUnit kindMacro e.1).rowsUsed < 2 then
    ((s.modHUnit kindMacro e.1 (fun u => { u with rowsUsed := u.rowsUsed + 1 })).modHealth (fun h => { h with
      repairs := h.repairs ++ [⟨0, e.1, e.2, false⟩] })).repairEvent 0 e.1 e.2 0
  else if boot then s.reportNoSpare kindMacro e.1 3
  else s.modHealth (fun h => { h with bootNoSpare := if h.bootNoSpare.contains e.1 then h.bootNoSpare else h.bootNoSpare ++ [e.1] })

/-- A unit whose signature differs is SUSPECT; in a boot it is tested before work reaches it (R515, R522). -/
def State.suspect (s : State) (boot : Bool) (e : Nat × Nat) : State :=
  let u := s.hUnit e.1 e.2
  if unitCount e.1 ≤ e.2 || !(u.st == 0 || u.st == 1 || u.st == 4) then s
  else
    let s1 := s.modHUnit e.1 e.2 (fun v => { v with st := 6 })
    if boot then s1.beginTest e.1 e.2 else s1

/-- How many segments stand at a state. -/
def State.segmentsAt (s : State) (v : Nat) : Nat := (s.health.segments.filter (fun g => g.st == v)).length

/-- EV_SELFTEST_DONE when nothing of the run is left (Table 17.10). -/
def State.endRun (s : State) : State :=
  match s.health.testRun, s.segmentNext with
  | some (boot, since), none =>
    (s.modHealth (fun h => { h with testRun := none })).raiseNow 0x0F06 sevInfo srcMss
      (u8 (s.segmentsAt 1) ++ u8 (s.segmentsAt 2) ++ u8 (s.segmentsAt 3) ++ u8 (s.segmentsAt 4) ++ u32 (satTo 4 ((s.now - since) / ticksPerMs)) ++
        u8 (b2n boot)) none
  | _, _ => s

/-- SELFTEST_SEGMENT_DONE: a result counts only with its END marker, the full cycle count and its conditions held. -/
def State.segmentDone (s : State) (o : SegmentOutcome) : State :=
  match s.health.testRun with
  | none => s
  | some (boot, _) =>
    if s.segmentNext ≠ some o.segment then s
    else
      let second := (s.secondAt s.now).1
      let put := fun (g : Segment) => s.modHealth (fun h => { h with segments := h.segments.set (o.segment - 1) g })
      let old := nth s.health.segments (o.segment - 1) default
      let run : Segment := { old with began := true, atBoot := boot, stale := false, cycles := o.cycles, second := second, fails := 0, ended := o.ended }
      if !o.ended || o.cycles ≠ segmentCycles o.segment then (put { run with st := 3 }).endRun
      else if !o.conditions then (put { run with st := 4 }).endRun
      else
        let n := satTo 2 (o.suspects.length + o.fails.length + b2n (!o.restored))
        let st := if n = 0 then 1 else 2
        let s1 := put { run with st := st, fails := n, accepted := some (st, n, second) }
        (o.fails.foldl (fun s e => s.softRepair boot e) (o.suspects.foldl (fun s e => s.suspect boot e) s1)).endRun

/-- The reruns of a boot begin (R523): under QUICK_START a segment with an accepted result takes it, marked STALE. -/
def State.beginReruns (s : State) (quick : Bool) : State :=
  let s1 := s.modHealth (fun h => { h with
    segments := h.segments.map (fun g =>
      match g.incomplete && quick, g.accepted with
      | true, some (st, n, x) => { g with st := st, fails := n, second := x, stale := true, began := false }
      | _, _ => { g with began := false }) })
  if s1.health.segments.any Segment.incomplete then s1.modHealth (fun h => { h with testRun := some (true, s.now) }) else s1

/-! ### Sensors (R527) -/

/-- One reading against its bounds: EV_HEALTH_LIMIT on leaving them, and on coming back by 2 °C or 1 % of nominal, each time once; `hyst` is that
distance in hundredths of the sensor's unit. -/
def State.senseOne (s : State) (n : Nat) (old : Sensor) (lo hi v : Int) (hyst : Int) : State × Sensor :=
  let x : Sensor := { old with value := v, peak := max old.peak v }
  let event := fun (high : Bool) (st : Nat) =>
    s.raiseNow 0x0F04 sevDegraded srcMss (u8 n ++ leBytesS 2 v ++ u8 (b2n high) ++ u8 st) (some [n])
  if v < lo || hi < v then
    let high := decide (hi < v)
    if old.outside && old.high == high then (s, x) else (event high 0, { x with outside := true, high := high })
  else if old.outside && 100 * lo + hyst ≤ 100 * v && 100 * v + hyst ≤ 100 * hi then (event old.high 1, { x with outside := false })
  else (s, x)

/-- The conditions of a valid test (R512): VDD_CORE within 0.7275 to 0.7725 V on its four monitors and the synthesiser locked. -/
def State.conditionsNow (s : State) : Bool :=
  s.tb.synthLocked && (s.health.rails.take 4).all (fun r => decide (728 ≤ r.value ∧ r.value ≤ 772))

/-- A test that ran outside its conditions runs again once they have held for 1 s (R512): a reading outside them puts the run off. -/
def State.putOffReruns (s : State) : State :=
  let later := fun (u : Unit_) => if u.st == 2 && decide (s.now < u.testSince) then { u with testSince := s.now + ticksPerSecond } else u
  if s.conditionsNow then s
  else s.modHealth (fun h => { h with units := h.units.map (fun l => l.map later), macros := h.macros.map (fun e => (e.1, later e.2)) })

/-- SENSOR_SAMPLE: the readings taken at this instant, thermal in 0.25 °C every 10 ms, rails in mV every 1 ms. -/
def State.sensorSample (s : State) (thermal rails : List Int) : State :=
  let s1 := ((List.range 24).zip thermal).foldl (fun (s : State) e =>
    let b := nth s.cfg.thermBounds e.1 (0, 0)
    let r := s.senseOne e.1 (nth s.health.thermal e.1 default) b.1 b.2 e.2 800
    r.1.modHealth (fun h => { h with thermal := h.thermal.set e.1 r.2 })) s
  let s2 := ((List.range 16).zip rails).foldl (fun (s : State) e =>
    let b := nth s.cfg.railBounds e.1 (0, 0)
    let r := s.senseOne (32 + e.1) (nth s.health.rails e.1 default) b.1 b.2 e.2 (railNominal e.1)
    r.1.modHealth (fun h => { h with rails := h.rails.set e.1 r.2 })) s1
  s2.putOffReruns

/-! ### Commands of group 0x0F -/

/-- A unit of Table 17.1 that the variant has: those of a disabled line or quad are not named (R3). -/
def State.unitNamed (s : State) (k i : Nat) : Bool :=
  decide (k ≤ 10) && decide (i < unitCount k) &&
    (if k = kindConverter then s.quadEnabled (i / 5) else if k = kindLine then i == 16 || s.lineEnabled i
     else if k = kindLead then s.quadEnabled (i / 4) else true)

/-- How many units of a kind stand so; those the variant disables are not part of the device (R2). -/
def State.kindCount (s : State) (k : Nat) (f : Unit_ → Bool) : Nat :=
  ((List.range (nth s.health.units k []).length).filter (fun i => s.unitNamed k i && f (s.hUnit k i))).length

def State.macroSum (s : State) (f : Unit_ → Nat) : Nat := s.health.macros.foldl (fun n e => n + f e.2) 0

/-- Units with an unresolved EV_NO_SPARE (Table 17.9). -/
def State.noSpareCount (s : State) : Nat :=
  ((List.range 11).map (fun k => s.kindCount k Unit_.noSpare)).foldl (· + ·) 0 + (s.health.macros.filter (fun e => e.2.noSpare)).length

/-- The response of `health.status` (Table 17.9). -/
def State.healthBody (s : State) : List Byte :=
  let h := s.health
  (List.range 11).flatMap (fun k =>
    if k = kindRow || k = kindMacro then u32 0
    else u8 (s.kindCount k (fun u => u.serves || u.st == 1)) ++ u8 (s.kindCount k (fun u => u.st == 1)) ++ u8 (s.kindCount k (fun u => u.st == 2)) ++
      u8 (s.kindCount k Unit_.gone)) ++
    u32 (4096 - s.mem.remaps.length) ++ u32 (2304 - s.macroSum Unit_.rowsUsed) ++ u32 (2304 - s.macroSum Unit_.colsUsed) ++ u32 h.sramCorrected ++
    u32 h.d2dCorrected ++ u32 h.transients ++ u32 h.permanents ++ u16 s.noSpareCount ++
    u8 (b2n s.panel.pins.fault + 2 * b2n (h.segments.any Segment.stale) + 4 * b2n (decide (0 < h.fuseFailed))) ++ u8 0 ++ u16 (512 - h.fusesUsed) ++
    u16 (satTo 2 (h.repairs.filter (fun r => !r.fused)).length) ++ u32 h.logDropped

/-- `health.status`. -/
def healthStatus : Handler := fun c s =>
  let s1 := if bit (rd c.arg 0 1) 0 then
    (s.modHealth (fun h => { h with sramCorrected := 0, d2dCorrected := 0, transients := 0, permanents := 0, logDropped := 0 })).clearSat 0x0F01 0
    else s
  okWith s1 s.healthBody

/-- `health.units`. -/
def healthUnits : Handler := fun c s =>
  let k := rd c.arg 0 1
  let first := rd c.arg 2 2
  let n := rd c.arg 4 2
  if 10 < k || n < 1 || 64 < n || !(List.range n).all (fun j => s.unitNamed k (first + j)) then reject s stBadArg
  else
    okWith s ((List.range n).flatMap (fun j =>
      let u := s.hUnit k (first + j)
      u8 u.st ++ u8 (satTo 1 (s.recentTransients u)) ++ u8 u.rowsUsed ++ u8 u.colsUsed ++ u32 u.errors))

/-- A nominal spare that carries work (Table 17.1): it cannot be tested on demand (R536). -/
def State.spareAtWork (s : State) (k i : Nat) : Bool :=
  let u := s.hUnit k i
  u.serves && ((k == kindLine && i == 16) || (k == kindTile && decide (32 ≤ i)) || (k == kindTiu && i == 4) || (k == kindSlice && i == 4) ||
    (k == kindModulator && i == 1) || (k == kindD2d && decide (32 ≤ i % 34)))

/-- `health.test` (R536): the unit's work moves and the test runs as for a detected error. -/
def healthTest : Handler := fun c s =>
  let k := rd c.arg 0 1
  let i := rd c.arg 2 2
  let u := s.hUnit k i
  if !(k ≤ 5 || k = 8) || !s.unitNamed k i then reject s stBadArg
  else if u.st = 2 || u.due.isSome then reject s stBusy
  else if u.st = 3 || u.st = 5 || s.spareAtWork k i then reject s stWrongState
  else if u.st ≠ 1 && (s.spareFor k i).isNone then reject s stNoSpare
  else
    let p := pendWith s c 0x0F03 [k * 65536 + i] none
    let s1 := p.2.modHUnit k i (fun v => { v with due := some (2, true), moveSince := s.now })
    let s2 := if k = kindConverter then s1.converterWithdraw (i / 5) (i % 5)
      else if u.st = 1 then s1.testIfDue k i
      else if k = kindModulator then s1.sdmWithdraw
      else if k = kindD2d then s1.d2dWithdraw i
      else s1
    (p.1, s2)

/-- `health.accept` (R514): the unit's EV_NO_SPARE is resolved and the unit stays degraded. -/
def healthAccept : Handler := fun c s =>
  let k := rd c.arg 0 1
  let i := rd c.arg 2 2
  if !s.unitNamed k i then reject s stBadArg
  else if !(s.hUnit k i).noSpare then reject s stWrongState
  else okay (s.modHUnit k i (fun u => { u with noSpare := false, accepted := true }))

/-- `health.fuse_repair` (R524). -/
def healthFuseRepair : Handler := fun c s =>
  let n := rd c.arg 0 2
  if n < 1 || 512 < n then reject s stBadArg
  else if (s.pendOp 0x0F05).isSome then reject s stBusy
  else if !s.conditionsNow then reject s stWrongState
  else if 512 ≤ s.health.fusesUsed then reject s stRepairFull
  else pendWith s c 0x0F05 [n] none

/-- One entry is programmed and read back (R524). -/
def State.fuseOne (s : State) (e : Repair × Bool) : State :=
  if 512 ≤ s.health.fusesUsed then s
  else
    let s1 := s.modHealth (fun h => { h with
      fusesUsed := h.fusesUsed + 1
      fuseFailed := if e.2 then h.fuseFailed else satAdd h.fuseFailed 1
      repairs := if e.2 then h.repairs.map (fun r => if r == e.1 then { r with fused := true } else r) else h.repairs })
    s1.repairEvent 2 e.1.macroIx e.1.index (b2n (!e.2))

/-- FUSE_REPAIR_DONE: the oldest soft repairs up to the count named have been programmed; none while PWR_WARN holds programs back (R531). -/
def State.fuseDone (s : State) (ok : List Bool) : State :=
  match s.pendOp 0x0F05 with
  | none => s
  | some p =>
    if s.norHeld then s
    else
      let soft := (s.health.repairs.filter (fun r => !r.fused)).take (p.units.headD 0)
      let marks := soft.zip (ok ++ List.replicate soft.length true)
      let s1 := marks.foldl (fun s e => s.fuseOne e) s
      (s1.dropOp 0x0F05).applied p srcMss (s1.effStamp s1.now none) s1.now (if marks.all Prod.snd then stOk else stFuseFail)

def Segment.body (g : Segment) : List Byte :=
  u8 g.st ++ u8 (b2n g.stale + 2 * b2n g.atBoot) ++ u16 g.fails ++ u32 g.cycles ++ u32 (g.second % 2 ^ 32) ++ u32 0

/-- `health.results`. -/
def healthResults : Handler := fun c s =>
  let n := rd c.arg 0 1
  if 10 < n then reject s stBadArg
  else if n = 0 then okWith s (s.health.segments.flatMap Segment.body)
  else okWith s (nth s.health.segments (n - 1) default).body

/-- `health.sensors`: peaks start again from the present readings. -/
def healthSensors : Handler := fun c s =>
  let h := s.health
  let s1 := if bit (rd c.arg 0 1) 0 then
    s.modHealth (fun h => { h with thermal := h.thermal.map (fun x => { x with peak := x.value }) }) else s
  okWith s1 (h.thermal.flatMap (fun x => leBytesS 2 x.value) ++ h.rails.flatMap (fun x => leBytesS 2 x.value) ++
    h.thermal.flatMap (fun x => leBytesS 2 x.peak))

/-- `health.limits`. -/
def healthLimits : Handler := fun c s =>
  let n := rd c.arg 0 1
  let lo := rdS c.arg 2 2
  let hi := rdS c.arg 4 2
  if !(n ≤ 23 || (32 ≤ n && n ≤ 47)) || hi ≤ lo then reject s stBadArg
  else okay (s.modCfg (fun r =>
    if n ≤ 23 then { r with thermBounds := r.thermBounds.set n (lo, hi) } else { r with railBounds := r.railBounds.set (n - 32) (lo, hi) }))

/-- The 64 bytes of a log entry (Table 17.6). -/
def LogEntry.bytes (e : LogEntry) : List Byte :=
  let b := fit 32 e.record ++ u64 e.seq ++ u32 e.boot ++ zeros 16
  b ++ u32 (crc32c b)

/-- `health.log_read`. -/
def healthLogRead : Handler := fun c s =>
  let from_ := rd c.arg 0 8
  let n := rd c.arg 8 2
  if n < 1 || 60 < n then reject s stBadArg
  else
    let l := (s.log.entries.filter (fun e => decide (from_ ≤ e.seq))).take n
    okWith s (u16 l.length ++ zeros 6 ++ l.flatMap LogEntry.bytes)

end Sys2Proof.Machine
end

