-- ==== Sys2Proof/Machine/Synth.lean ====
section
/-! DEFINITION. The probe synthesiser (R40, R41, R50, R52): from a waveform word to the DAC codes. A channel's centre lies a multiple of 1/64 turn
per DAC sample from the carrier, so the oscillator takes sixty-four phases. -/

namespace Sys2Proof.Machine

/-- cos(2πk/64) for k from 0 to 16, in units of 2^-62. -/
def cosQuarter : List Int :=
  [4611686018427387904, 4589479489746651964, 4523073764714963030, 4413108366765438139, 4260642322793532497, 4067143964149113252,
    3834476785802888710, 3564881499871150442, 3260954456333195553, 2925622638761716784, 2562115475870945497, 2173933740352748318,
    1764815834521887442, 1338701787458110889, 899695310372275547, 452024275624069880, 0]

/-- cos(2πk/64) of any phase k, in units of 2^-62. -/
def cos64 (k : Nat) : Int :=
  let j := k % 64
  if j ≤ 16 then nth cosQuarter j 0
  else if j ≤ 32 then -(nth cosQuarter (32 - j) 0)
  else if j ≤ 48 then -(nth cosQuarter (j - 32) 0)
  else nth cosQuarter (64 - j) 0

def sin64 (k : Nat) : Int := cos64 (k + 48)

/-- The oscillator's phase at DAC sample `n` of a launch, in 1/64 turn: zero at its first sample, then at f_c = (c + 0.5) × 500/D − 250 MHz (R40, R41). -/
def ncoPhase (d c n : Nat) : Nat := (((n : Int) * (2 * c + 1 - d) * (8 / d : Nat)) % 64).toNat

/-- I and Q of a waveform word (Table 2.4). -/
def waveI (w : BitVec 32) : Int := sx 14 (field w.toNat 18 14)
def waveQ (w : BitVec 32) : Int := sx 14 (field w.toNat 2 14)

/-- A component after the shift, scaled by AMPLITUDE in 2^-16, rounded to nearest and saturated to 14 bits (R41), then negated with the coded polarity
(R52); −(−8 192) saturates. The shift itself is exact: no rule gives the oscillator a precision (DESIGN CHOICE). -/
def dacCode (amp : Nat) (neg : Bool) (x : Int) : Int :=
  let y := satS 14 (rneShift (amp * x) 78)
  if neg then satS 14 (-y) else y

/-- The DAC codes of one sample: the word turned by the oscillator, then scaled. -/
def dacSample (d c amp : Nat) (neg : Bool) (n : Nat) (w : BitVec 32) : Int × Int :=
  let k := ncoPhase d c n
  (dacCode amp neg (waveI w * cos64 k - waveQ w * sin64 k), dacCode amp neg (waveI w * sin64 k + waveQ w * cos64 k))

end Sys2Proof.Machine
end

