-- ==== Sys2Proof/Machine/Zone.lean ====
section
/-! DEFINITION. Zones (R346 to R355), the zone status port (R356 to R358), VREF_Z (R360), and the commands `zone.*` and `panel.*`. -/

namespace Sys2Proof.Machine

def State.modZone (s : State) (n : Nat) (f : ZoneRun → ZoneRun) : State := { s with zones := upd s.zones n f }
def State.modPanel (s : State) (f : Panel → Panel) : State := { s with panel := f s.panel }
def State.zoneDef? (s : State) (n : Nat) : Option ZoneDef := nth s.cfg.zones n none

/-! ### Coverage (R346, R350) -/

/-- A point of a line belongs to the zone. -/
def ZoneDef.has (d : ZoneDef) (l i : Nat) : Bool := d.ranges.any (fun r => r.line == l && decide (r.first ≤ i) && decide (i ≤ r.last))

/-- A bin of a trace belongs to the zone: its cells overlap those of a point of the zone. -/
def ZoneDef.hasBin (d : ZoneDef) (l : Nat) (t : Trace) (b : Nat) : Bool :=
  let lo := t.first + b * t.tbin
  let hi := lo + t.tbin - 1
  d.ranges.any (fun r => r.line == l && decide (t.planFirst + r.first * t.pitch ≤ hi) && decide (lo ≤ t.planFirst + r.last * t.pitch + t.pitch - 1))

/-- The zone's points on a line that exist under the plan in effect. -/
def State.zonePoints (s : State) (d : ZoneDef) (l : Nat) : List Nat :=
  match s.plan? l with
  | some p => (List.range p.points).filter (d.has l)
  | none => []

/-- The zone's bins of a trace: index and word. -/
def ZoneDef.bins (d : ZoneDef) (l : Nat) (t : Trace) : List (Nat × BitVec 32) :=
  (t.words.zipIdx.filter (fun e => d.hasBin l t e.2)).map (fun e => (e.2, e.1))

/-- At least FAULT_PCT % of `n` are INVALID; with none the source is judged 100 % INVALID. -/
def ZoneDef.tooBad (d : ZoneDef) (bad n : Nat) : Bool := n == 0 || decide (d.faultPct * n ≤ bad * 100)

/-! ### Rules (R348) -/

/-- One evaluation of a rule for a key (line or condition): whether it meets; answers the rule's place and whether it fires. -/
def RuleRun.eval (r : RuleRun) (d : ZRule) (key now : Nat) (meets : Bool) : RuleRun × Bool :=
  let n := if meets then min d.confirm (sget 0 r.counts key + 1) else 0
  let fires := meets && n == d.confirm
  ({ r with
      counts := sset 0 r.counts key n
      on := if fires then true else if d.holdMs = 0 then false else r.on
      latched := r.latched || (fires && d.latch), fired := if fires then now else r.fired }, fires)

def wordT (w : BitVec 32) : Int := sx 20 (field w.toNat 12 20)

/-- The bins of a thermal rule that meet its level (Table 11.1). -/
def ZRule.binsMeeting (r : ZRule) (bins : List (Nat × BitVec 32)) (t : Trace) (prev : Option Trace) : Option Nat :=
  match r.kind, prev with
  | 1, _ => some (bins.filter (fun e => !wordInvalid e.2 && decide (r.level ≤ wordT e.2))).length
  | 2, some q =>
    some (bins.filter (fun e =>
      let w := nth q.words e.1 4#32
      !wordInvalid e.2 && !wordInvalid w && decide (q.inst < t.inst) &&
        decide (r.level * ((t.inst - q.inst : Nat) : Int) ≤ (wordT e.2 - wordT w) * 60 * (ticksPerSecond : Int)))).length
  | _, _ => none

/-- What one item makes of one rule: none when it is no evaluation of the rule, otherwise its key and whether it meets. A row on which the
rule's condition lost points of the zone, and which does not meet, is none (R349). -/
def State.ruleInput (s : State) (d : ZoneDef) (r : ZRule) (i : ZoneIn) : Option (Nat × Bool) :=
  match i with
  | .row l x =>
    if r.kind = 0 && decide (r.cond < 16) && bit x.evaluated r.cond && (match s.condDef? r.cond with | some c => c.line == l | none => false) then
      let n := (((x.hits.find? (fun e => e.1 == r.cond)).map Prod.snd).getD []).filter (d.has l)
      let meets := decide (r.level ≤ (n.length : Int))
      if !meets && x.lost.any (fun g => d.ranges.any (fun q => q.line == l && decide (q.first / 4096 ≤ g) && decide (g ≤ q.last / 4096))) then none
      else some (r.cond, meets)
    else none
  | .trace l t prev => (r.binsMeeting (d.bins l t) t prev).map (fun n => (l, decide (r.binsMin ≤ n)))
  | .hit c _ _ => if r.kind = 0 && r.cond == c then some (c, true) else none

/-- Hits of a condition 16 to 31 more than HOLD_MS apart are not consecutive. -/
def RuleRun.hitGap (r : RuleRun) (d : ZRule) (i : ZoneIn) : RuleRun :=
  match i with
  | .hit c _ x =>
    let far := match r.lastHit with | some y => decide (0 < d.holdMs) && decide (y + d.holdMs * ticksPerMs < x) | none => false
    { r with lastHit := some x, counts := if far then sset 0 r.counts c 0 else r.counts }
  | _ => r

/-- Every rule of a zone on one item: the rules' places and the rules that fired. -/
def State.evalRules (s : State) (d : ZoneDef) (rs : List RuleRun) (i : ZoneIn) : List RuleRun × List Nat :=
  let go := rs.zipIdx.map (fun e =>
    match d.rules[e.2]? with
    | none => (e.1, false)
    | some r => match s.ruleInput d r i with
      | none => (e.1, false)
      | some (key, meets) => (e.1.hitGap r i).eval r key s.now meets)
  (go.map Prod.fst, (go.zipIdx.filter (fun e => e.1.2)).map Prod.snd)

/-! ### Faults and state (R350, R351) -/

/-- The sources of a zone, with what is known of each. -/
def State.sourcesOf (s : State) (d : ZoneDef) (z : ZoneRun) : List ZSource :=
  let keep := fun (l : Nat) (th : Bool) => (z.sources.find? (fun q => q.line == l && q.thermal == th)).getD ⟨l, th, none, none⟩
  d.lines.flatMap (fun l => (if s.vibration d l then [keep l false] else []) ++ (if d.thermal l then [keep l true] else []))

/-- A source delivers an evaluation. -/
def State.sourceSeen (s : State) (d : ZoneDef) (z : ZoneRun) (i : ZoneIn) : List ZSource :=
  let mark := fun (l : Nat) (th bad : Bool) => (s.sourcesOf d z).map (fun q =>
    if q.line = l && q.thermal == th then { q with last := some s.now, bad := if bad then some (q.bad.getD s.now) else none } else q)
  match i with
  | .row l x =>
    let pts := s.zonePoints d l
    mark l false (d.tooBad (pts.filter (fun p => x.bad.contains p)).length pts.length)
  | .trace l t _ =>
    let bins := d.bins l t
    mark l true (d.tooBad (bins.filter (fun e => wordInvalid e.2)).length bins.length)
  | .hit _ _ _ => s.sourcesOf d z

/-- Conditions 1 to 3 of R350 as they stand. -/
def State.faultBits (s : State) (d : ZoneDef) (z : ZoneRun) : Bool × Bool × Bool :=
  let src := s.sourcesOf d z
  (src.any (fun q => match q.bad with | some x => decide (x + d.faultS * ticksPerSecond ≤ s.now) | none => false),
    src.any (fun q => decide ((q.last.getD z.since) + d.silentS * ticksPerSecond ≤ s.now)),
    d.rules.any (fun r => r.kind == 0 && !s.isArmed r.cond))

/-- The fault timing moves on: the fault of conditions 1 and 2 lasts until neither has held for FAULT_S. -/
def State.judgeFault (s : State) (d : ZoneDef) (z : ZoneRun) : ZoneRun × Bool :=
  let f := s.faultBits d z
  let now12 := f.1 || f.2.1
  let from_ := if now12 then none else some (z.clearFrom.getD s.now)
  let lasts := now12 || (z.fault12 && (match from_ with | some x => decide (s.now < x + d.faultS * ticksPerSecond) | none => true))
  ({ z with
      fault12 := lasts, clearFrom := if lasts then from_ else none
      causes := b2n f.1 + 2 * b2n f.2.1 + 4 * b2n f.2.2 }, lasts || f.2.2)

/-- LEVEL of the zone word (Table 11.2). -/
def State.zoneLevel (s : State) (d : ZoneDef) : Nat :=
  if d.levelSrc = 0 then 0
  else
    let ts := d.lines.flatMap (fun l => match (s.lthermOf l).trace with
      | some t => ((d.bins l t).filter (fun e => !wordInvalid e.2)).map (fun e => wordT e.2)
      | none => [])
    match ts with
    | [] => 0
    | a :: rest => (clampI 0 255 (rneDiv (rest.foldl max a) 1024 + 64)).toNat

/-- What a recomputation is made for: its stamp and instant, the rules that fired, the rule whose hold ended, an acknowledgement, and whether
it is an evaluation. -/
structure ZoneWhy where
  stamp : BitVec 96
  inst : Nat
  fired : List Nat
  ack : Bool
  evaluation : Bool
deriving DecidableEq, Repr, Inhabited

/-- The recomputation of a zone after its rules (R351, R352, R364): `old` is the zone before this evaluation, `z` with its rules and sources
brought up to date. -/
def State.recompute (s : State) (n : Nat) (d : ZoneDef) (old z : ZoneRun) (w : ZoneWhy) : State :=
  let jf := s.judgeFault d z
  let z1 := jf.1
  let fault := jf.2
  let act := (z1.rules.zipIdx.filter (fun e => e.1.active)).map Prod.snd
  let targets := act.map (fun k => (nth d.rules k default).target)
  let unknown := (s.sourcesOf d z1).any (fun q => q.last.isNone)
  let wasUnknown := (s.sourcesOf d old).any (fun q => q.last.isNone)
  let st := if targets.contains 3 then 3 else if fault then 4 else if targets.contains 2 then 2 else if unknown then 0 else 1
  let z2 : ZoneRun := { z1 with
    state := st, faultPresent := fault, watchPresent := targets.contains 2, latchedBit := act.any (fun k => (nth z1.rules k RuleRun.reset).latched)
    notEval := z1.notEval && !w.evaluation, level := s.zoneLevel d
    faults := if fault && !old.faultPresent then satAdd z1.faults 1 else z1.faults
    firings := satAdd z1.firings w.fired.length, stopped := z1.stopped && !w.evaluation }
  if z2.word = old.word then s.modZone n (fun _ => z2)
  else
    let z3 : ZoneRun := { z2 with seq := !old.seq }
    if st = old.state then s.modZone n (fun _ => z3)
    else
      let z4 : ZoneRun := { z3 with
        changeSeq := (z3.changeSeq + 1) % 65536, stamp := w.stamp, alarms := if st = 3 then satAdd z3.alarms 1 else z3.alarms }
      let dropped := ((old.rules.zip z1.rules).zipIdx.filter (fun e => e.1.1.active && !e.1.2.active)).map Prod.snd
      let cands := (w.fired.filter (fun k => (nth d.rules k default).target == st)) ++ (if fault != old.faultPresent then [4] else []) ++
        (if w.ack then [5] else []) ++ (if old.stopped && w.evaluation then [7] else []) ++ (if wasUnknown && !unknown then [8] else []) ++
        dropped.map (· + 9)
      let cause := cands.foldl min (cands.headD 6)
      (s.modZone n (fun _ => z4)).raise 0x0A01 sevNotice srcDevice w.stamp w.inst
        (u8 n ++ u8 old.state ++ u8 st ++ u16 z4.word ++ u8 cause) (some [n])

/-- The stamp and instant of an item (Table 11.3): second-relative for thermal and non-point causes. -/
def State.itemStamp (s : State) (i : ZoneIn) : BitVec 96 × Nat :=
  match i with
  | .row _ x => (x.stamp, x.inst)
  | .trace l t _ => (s.secStamp t.inst (some l) false, t.inst)
  | .hit _ v x => (if stampForm v then v else s.secStamp x none false, x)

/-- The item at the head of a zone's inbox comes from the source named. -/
def ZoneIn.fits (i : ZoneIn) (src : ZoneSource) : Bool :=
  match i, src with
  | .row l _, .row m => l == m
  | .trace l _ _, .trace m => l == m
  | .hit c _ _, .hit k => c == k
  | _, _ => false

/-- ZONE_EVALUATION: the oldest item that waits on the zone is evaluated (R352). -/
def State.zoneEvaluate (s : State) (n : Nat) (src : ZoneSource) : State :=
  match s.zoneDef? n, (s.zoneOf n).inbox with
  | some d, i :: rest =>
    if !i.fits src || !s.zonesOn then s
    else
      let z := s.zoneOf n
      let r := s.evalRules d z.rules i
      let v := s.itemStamp i
      s.recompute n d z { z with inbox := rest, rules := r.1, sources := s.sourceSeen d z i } ⟨v.1, v.2, r.2, false, true⟩
  | _, _ => s

/-- ZONE_HOLD_END: the hold of a rule ends, applied as an evaluation at that instant (R348, R352). -/
def State.zoneHoldEnd (s : State) (n k : Nat) : State :=
  match s.zoneDef? n with
  | none => s
  | some d =>
    let z := s.zoneOf n
    let r := nth z.rules k RuleRun.reset
    let x := r.fired + (nth d.rules k default).holdMs * ticksPerMs
    if d.rules.length ≤ k || !r.on || (nth d.rules k default).holdMs = 0 || s.now < x || !s.zonesOn then s
    else s.recompute n d z { z with rules := z.rules.set k { r with on := false } } ⟨s.secStamp x none false, x, [], false, true⟩

/-- ZONE_FAULT_TIMER: the zone's fault conditions are judged at an instant without an evaluation. -/
def State.zoneJudge (s : State) (n : Nat) : State :=
  match s.zoneDef? n with
  | some d => if s.zonesOn then s.recompute n d (s.zoneOf n) (s.zoneOf n) ⟨s.secStamp s.now none false, s.now, [], false, false⟩ else s
  | none => s

/-- A condition was armed or disarmed: condition 3 of R350 is judged at once on the zones whose rules name it. -/
def State.zonesOfCond (s : State) (c : Nat) : State :=
  (List.range 256).foldl (fun s n => match s.zoneDef? n with
    | some d => if d.rules.any (fun r => r.kind == 0 && r.cond == c) then s.zoneJudge n else s
    | none => s) s

/-! ### The zone status port (R356 to R358) -/

/-- The 17 bits of an answer: the word from bit 15 down, and P. -/
def zspBits (w : Nat) : List Bool :=
  let l := (List.range 16).map (fun k => bit w (15 - k))
  l ++ [decide ((l.filter id).length % 2 = 1)]

/-- ZSP_TRANSACTION: `edges` falling edges of ZSP_CLK before ZSP_CS_N rises. The eighth ends the address; P is driven on the twenty-fourth. -/
def State.zsp (s : State) (n edges : Nat) : State :=
  if 24 ≤ edges then
    (s.modPanel (fun p => { p with reads := satAdd p.reads 1 })).emit1 (.zspBits (zspBits (s.zoneOf (n % 256)).word ++ List.replicate (edges - 24) false))
  else
    let driven := edges - 7
    let s1 := s.modPanel (fun p => { p with aborted := satAdd p.aborted 1 })
    let s2 := if edges < 8 then s1 else s1.emit1 (.zspBits ((zspBits (s.zoneOf (n % 256)).word).take driven))
    s2.raiseNow 0x0A03 sevNotice srcDevice (u8 (min edges 8) ++ u8 driven) (some [])

/-- VREF_Z_MEASURE (R360). -/
def State.vrefMeasure (s : State) (mv : Nat) : State :=
  let s1 := s.modPanel (fun p => { p with vrefMv := mv })
  if mv < 1000 || 3300 < mv then s1.raiseNow 0x0A02 sevDegraded srcDevice (u16 (satTo 2 mv)) none else s1

/-! ### Commands -/

def readZone (p : List Byte) : ZoneDef where
  supervise := bit (rd p 1 1) 1
  levelSrc := rd p 4 1
  faultPct := rd p 5 1
  faultS := rd p 6 2
  silentS := rd p 8 2
  ranges := (List.range (rd p 2 1)).map (fun r => ⟨rd p (16 + 12 * r) 1, rd p (20 + 12 * r) 4, rd p (24 + 12 * r) 4⟩)
  rules := (List.range (rd p 3 1)).map (fun k =>
    let o := 64 + 16 * k
    ⟨rd p o 1, rd p (o + 1) 1, bit (rd p (o + 2) 1) 0, rd p (o + 3) 1, rdS p (o + 4) 4, rd p (o + 8) 4, rd p (o + 12) 2, rd p (o + 14) 1⟩)

/-- The fields of Table 11.8 are in range (R362). -/
def State.zoneOk (s : State) (d : ZoneDef) : Bool :=
  decide (1 ≤ d.ranges.length) && decide (d.ranges.length ≤ 4) && decide (d.rules.length ≤ 4) && decide (d.levelSrc ≤ 1) && decide (1 ≤ d.faultPct) &&
    decide (d.faultPct ≤ 100) && decide (1 ≤ d.faultS) && decide (d.faultS ≤ 3600) && decide (1 ≤ d.silentS) && decide (d.silentS ≤ 3600) &&
    d.ranges.all (fun r => s.lineEnabled r.line && decide (r.first ≤ r.last) && decide (r.last ≤ 524287)) &&
    d.rules.all (fun r => decide (r.kind ≤ 2) && (r.target == 2 || r.target == 3) && decide (r.holdMs ≤ 3600000) && decide (1 ≤ r.confirm) &&
      decide (r.confirm ≤ 16) && (if r.kind = 0 then
        decide (r.cond ≤ 31) && decide (1 ≤ r.level) && decide (r.level ≤ 65535) && (decide (r.cond < 16) || r.level == 1) &&
          (decide (16 ≤ r.cond) || (match s.condDef? r.cond with | some c => d.lines.contains c.line | none => true))
      else decide (1 ≤ r.binsMin)))

/-- `zone.define` (R362): the zone begins anew, and the definition is reported with cause 6. -/
def zoneDefine : Handler := fun c s =>
  let n := rd c.arg 0 1
  let remove := bit (rd c.arg 1 1) 0
  let d := readZone c.arg
  if !remove && !s.zoneOk d then reject s stBadArg
  else
    let old := s.zoneOf n
    let st := if remove then 5 else 0
    let stamp := s.secStamp s.now none false
    let z0 : ZoneRun := { ZoneRun.reset (!remove) s.now with
      notEval := old.notEval, stopped := old.stopped, seq := old.seq, changeSeq := old.changeSeq, stamp := old.stamp, alarms := old.alarms
      faults := old.faults, firings := old.firings }
    let z1 := if z0.word = old.word then z0 else { z0 with seq := !old.seq }
    let z2 := if st = old.state then z1 else { z1 with changeSeq := (z1.changeSeq + 1) % 65536, stamp := stamp }
    let s1 := (s.modCfg (fun g => { g with zones := g.zones.set n (if remove then none else some d) })).modZone n (fun _ => z2)
    okay (s1.raise 0x0A01 sevNotice srcDevice stamp s.now (u8 n ++ u8 old.state ++ u8 st ++ u16 z2.word ++ u8 6) (some [n]))

/-- `zone.ack` (R363): the latches of the named zones are released. -/
def zoneAck : Handler := fun c s =>
  let m := rd c.arg 0 32
  if m = 0 then reject s stBadArg
  else okay ((List.range 256).foldl (fun s n =>
    match s.zoneDef? n with
    | some d =>
      if !bit m n then s
      else
        let z := s.zoneOf n
        let z1 : ZoneRun := { z with rules := z.rules.map (fun r => { r with latched := false }) }
        if s.zonesOn then s.recompute n d z z1 ⟨s.secStamp s.now none false, s.now, [], true, false⟩ else s.modZone n (fun _ => z1)
    | none => s) s)

def State.zoneBody (s : State) (n : Nat) : List Byte :=
  let z := s.zoneOf n
  z.entry ++ u8 (maskOf ((z.rules.zipIdx.filter (fun e => e.1.active)).map Prod.snd)) ++ u8 z.causes ++ u16 0 ++ u32 z.alarms ++ u32 z.faults ++
    u32 z.firings

/-- `zone.status`. -/
def zoneStatus : Handler := fun c s =>
  let n := rd c.arg 0 1
  let s1 := if bit (rd c.arg 1 1) 0 then (s.modZone n (fun z => { z with alarms := 0, faults := 0, firings := 0 })).clearSat 0x0A03 n else s
  okWith s1 (s.zoneBody n)

/-- `panel.pins`. -/
def panelPins : Handler := fun c s =>
  let a := (List.range 4).map (fun k => (rd c.arg (36 * k) 1, rd c.arg (36 * k + 4) 32))
  if a.any (fun e => decide (31 < e.1)) then reject s stBadArg
  else okay (s.modCfg (fun g => { g with pins := ⟨a, rd c.arg 144 32⟩ }))

/-- `panel.zout`. -/
def panelZout : Handler := fun c s =>
  let o := rd c.arg 0 1
  let codes := (List.range 5).map (fun k => rd c.arg (4 + 2 * k) 2)
  if 7 < o || 2 < rd c.arg 2 1 || codes.any (fun x => decide (4095 < x)) then reject s stBadArg
  else okay (s.modCfg (fun g => { g with zout := g.zout.set o ⟨rd c.arg 1 1, rd c.arg 2 1, codes⟩ }))

def State.panelBody (s : State) : List Byte :=
  let p := s.pinsNow
  u8 (maskOf ((p.alarm.zipIdx.filter (fun e => e.1)).map Prod.snd) + 16 * b2n p.fault) ++ u8 0 ++ u16 (satTo 2 s.panel.vrefMv) ++ u32 s.panel.reads ++
    u32 s.panel.aborted

/-- `panel.status`. -/
def panelStatus : Handler := fun c s =>
  let s1 := if bit (rd c.arg 0 1) 0 then (s.modPanel (fun p => { p with reads := 0, aborted := 0 })).clearSat 0x0A06 0 else s
  okWith s1 s.panelBody

end Sys2Proof.Machine
end

