-- ==== Sys2Proof/Machine/Launches.lean ====
section
/-! DEFINITION. Launches, gates and the interlock (R16 to R20, R51 to R62, R68, R69, R569), and plans taking effect (R17, R18, R64 to R67). -/

namespace Sys2Proof.Machine

/-! ### The duty limiter (R57) -/

/-- On-time within the window of 1 ms that ends at an instant. -/
def onTime (spans : List (Nat × Nat)) (x : Nat) : Nat :=
  (spans.map (fun e => min e.2 x - max e.1 (x - ticksPerMs))).sum

/-- The least step from `lo` to `hi` at which a condition that stays true holds; `hi` when none below it does. -/
def firstStep (ok : Nat → Bool) : Nat → Nat → Nat → Nat
  | 0, _, hi => hi
  | n + 1, lo, hi =>
    if hi ≤ lo then hi
    else
      let m := (lo + hi) / 2
      if ok m then firstStep ok n lo m else firstStep ok n (m + 1) hi

/-- The duty bound in ticks of the 1 ms window: DUTY counts 0.1 %. -/
def GateLimit.ticks (g : GateLimit) : Nat := g.duty * ticksPerUs

/-- On-time reached when the limiter closes a gate: the maximum pulse width, or the duty limit's on-time in the window (DESIGN CHOICE: Table 2.19
says only "gate on-time reached", and in the duty case the window's on-time is what R57 compares). -/
def GateLimit.reached (g : GateLimit) (byWidth : Bool) : Nat := if byWidth then g.maxWidth else g.ticks / ticksPerCell

/-- A gate opened for a launch from `rise` to `fall` under its bounds (R57): the gate, and until when it is open for this launch, 0 when
no on-time remains. -/
def Gate.open_ (g : Gate) (lim : GateLimit) (rise fall : Nat) : Gate × Nat :=
  let g1 := if g.openUntil ≤ rise then g.close rise else g
  let start := g1.openSince.getD rise
  let total := fun (x : Nat) => onTime g1.onTimes x + (x - start)
  if lim.ticks ≤ total rise then (g1, 0)
  else
    let widthEnd := start + lim.maxWidth * ticksPerCell
    let steps := (fall - rise) / 8
    let k := firstStep (fun k => decide (lim.ticks ≤ total (rise + 8 * k))) 24 0 (steps + 1)
    let dutyEnd := rise + 8 * k
    let stop := min fall (min widthEnd dutyEnd)
    let reached := lim.reached (decide (widthEnd ≤ dutyEnd))
    ({ g1 with
        openSince := some start, openUntil := max g1.openUntil stop
        truncs := if stop < fall then g1.truncs ++ [(stop, reached)] else g1.truncs }, stop)

/-! ### The probe (R41, R46, R47, R51) -/

/-- The waveform slot of a launch: SLOT_A, or SLOT_B at the odd positions of the coded sequence (R52). A spot shot of a coded tone plays SLOT_A with
positive polarity, as position 0 does (DESIGN CHOICE: R68 says only that it uses the tone's waveform). -/
def Launch.slot (e : Launch) : Nat :=
  match e.kind with
  | .thermal => e.plan.thermSlot
  | .tone t => if (e.plan.tone t).cls = 2 && e.code % 2 == 1 then (e.plan.tone t).slotB else (e.plan.tone t).slotA
  | .spot t => (e.plan.tone t).slotA

def Launch.channel (e : Launch) : Nat :=
  match e.kind with | .thermal => e.plan.thermCh | .tone t => (e.plan.tone t).channel | .spot t => (e.plan.tone t).channel
def Launch.amp (e : Launch) : Nat :=
  match e.kind with | .thermal => e.plan.thermAmp | .tone t => (e.plan.tone t).amp | .spot t => (e.plan.tone t).amp
def Launch.width (e : Launch) : Nat :=
  match e.kind with | .thermal => e.plan.thermWidth | .tone t => (e.plan.tone t).width | .spot t => (e.plan.tone t).width
def Launch.negated (e : Launch) : Bool :=
  match e.kind with | .tone t => (e.plan.tone t).cls == 2 && decide (2 ≤ e.code) | _ => false

/-- The first DAC sample of a launch, in half nanoseconds (R46). -/
def State.dacStart (s : State) (e : Launch) : Nat := ((e.tick / 64 : Nat) + (s.probeOf e.plan.probe).skew).toNat

/-- The codes the probe's I and Q DACs take for a launch, sample by sample (R41). -/
def State.dacCodes (s : State) (e : Launch) : List (Int × Int) :=
  let slot := s.slotOf e.plan.probe e.slot
  (sgetL 0#32 (nth s.cfg.waves e.plan.probe []) slot.base slot.length).zipIdx.map
    (fun w => dacSample e.plan.d e.channel e.amp e.negated w.2 w.1)

/-- The probe plays a launch's waveform; a shared launch is emitted once (R47). -/
def State.playProbe (s : State) (e : Launch) : State :=
  let b := e.plan.probe
  let n := s.dacStart e
  let stop := (n + (s.slotOf b e.slot).length) * 64
  let run := nth s.probeRun b default
  if run.playing = some (e.slot, n) then s
  else
    ({ s with probeRun := upd s.probeRun b (fun p => { p with playing := some (e.slot, n), playUntil := stop }) }).emit1
      (.dacPlay b n (s.dacCodes e))

/-! ### One launch -/

def State.bumpGrid (s : State) (l : Nat) (f : LineGrid → LineGrid) : State := s.modGrid l f

/-- A launch fires or is inhibited (R56, R57, R61): the state, and the launch with what became of its gate. -/
def State.fire (s : State) (l : Nat) (e : Launch) : State × Launch :=
  if s.dark then
    (s.bumpGrid l (fun g => { g with inhibited := satAdd g.inhibited 1 }), { e with dark := true })
  else
    let rise := e.tick + e.plan.riseFd * 8
    let fall := e.tick + e.width * ticksPerCell + e.plan.fallFd * 8
    let o := (nth s.gateRun l default).open_ (nth s.cfg.gates l default) rise fall
    let s1 := ({ s with gateRun := s.gateRun.set l o.1 }).playProbe e
    if o.2 = 0 then
      let s2 := s1.bumpGrid l (fun g => { g with suppressed := satAdd g.suppressed 1 })
      let stamp := match e.kind with | .spot _ => s2.secStamp rise (some l) false | _ => sheetStampOf e.second e.index 0 0 l (s2.flagsAt rise)
      (s2.raise 0x0202 sevNotice (srcLine l) stamp rise [] (some []), { e with cut := true })
    else
      (s1.emit1 (.gatePulse l e.tick e.plan.riseFd (o.2 / 8 * 8) 0), { e with cut := decide (o.2 < fall), gateUntil := o.2 })

/-- The converters that serve a line's inputs and the reference's two (R118), 0xFF for an input that none serves (R129). -/
def State.servingConvs (s : State) (l : Nat) : List Nat :=
  ((List.range 4).map (fun i => ((s.quadOf l).roleConv i).getD 0xFF)) ++ ((List.range 2).map (fun i => ((s.quadOf 16).roleConv i).getD 0xFF))

/-- A launch of a line at the present instant under a plan, with the settings bound to it (R19); spot shots take no sheet index (R20). -/
def State.launchNow (s : State) (l : Nat) (p : Plan) (k : LaunchKind) : Launch :=
  let r := s.lineOf l
  let tone := match k with | .tone _ => true | _ => false
  let coded := match k with | .tone t => (p.tone t).cls == 2 | _ => false
  { tick := s.now
    second := (s.secondAt s.now).1
    index := match k with | .spot _ => 0 | _ => s.sheetIndex l p s.now
    kind := k
    code := match k with | .tone t => if coded then s.codePos l p t s.now else 0 | _ => 0
    dark := false
    cut := false
    -- a line without an engine names its own (DESIGN CHOICE: Table 5.5 gives ENGINE 0 to 16 and no value for none)
    engine := if r.engine = 0xFF then l else r.engine
    plan := p
    cfg := s.lineCfg l
    restart := tone && r.restartNext
    gainStep := tone && r.gainNext
    spared := tone && r.sparedNext
    clips := [0, 0, 0, 0]
    convs := s.servingConvs l
    gateUntil := 0 }

/-- The calender notes a launch of a tone (R109). -/
def State.shootCal (s : State) (l : Nat) (e : Launch) (t : Nat) : State :=
  s.modCal l (fun k => k.shoot ⟨e.tick, t, (e.plan.tone t).cls == 2, e.code, e.dark || e.cut⟩ (8 * e.plan.superPeriod.1 * ticksPerCell))

/-- A thermal launch is forgotten when its deckle and the release of its words are past. -/
def Launch.over (e : Launch) (now : Nat) : Bool :=
  (match e.kind with | .thermal => true | _ => false) && decide (e.tick + (e.plan.last + 1024) * ticksPerCell ≤ now)

/-- GRID_LAUNCH (R16, R18, R20, R54, R57, R61). -/
def State.gridLaunch (s : State) (l : Nat) : State :=
  match s.plan? l with
  | none => s
  | some p =>
    match s.gridAt l p s.now with
    | none => s
    | some k =>
      let again := match (s.gridOf l).lastLaunch with | some a => decide (s.now ≤ a.1) | none => false
      let stopped := match s.stopInstant l with | some x => decide (x ≤ s.now) | none => false
      if !s.running l || !s.lineEnabled l || again || stopped || decide (s.now < (s.gridOf l).planFrom) then s
      else
        let o := s.fire l (s.launchNow l p k)
        let e := o.2
        let s1 := o.1.modGrid l (fun g => { g.record e.tick e.second e.index with
          inFlight := g.inFlight.filter (fun x => !x.over s.now) ++ [e] })
        let s2 := match k with
          | .tone t => (s1.shootCal l e t).modLine l (fun r => { r with restartNext := false, gainNext := false, sparedNext := false })
          | _ => s1
        (s2.tiuEvent 3 l s.now).thermSee l e

/-- SPOT_LAUNCH (R68, R69): a dark one when emission is forbidden; it meets condition 30 of its line (R243). -/
def State.spotLaunch (s : State) (l : Nat) : State :=
  match (s.gridOf l).spot, s.plan? l with
  | some (x, t), some p =>
    if s.now < x then s
    else
      let o := s.fire l (s.launchNow l p (.spot t))
      let s1 := o.1.modGrid l (fun g => { g with spot := none, inFlight := g.inFlight ++ [o.2] })
      match s1.condDef? 30 with
      | some d => if s1.evaluates 30 && d.line == l then s1.meet 30 s1.now (s1.secStamp s1.now (some l) false) s1.cfg.trail.nodeId (some s1.now) 0xFFFF else s1
      | none => s1
  | some _, none => s.modGrid l (fun g => { g with spot := none })
  | none, _ => s

/-- DUTY_TRUNCATED (R57, R58, R73): the limiter has closed the line's gate. -/
def State.dutyTruncated (s : State) (l : Nat) : State :=
  let g := nth s.gateRun l default
  let due := g.truncs.filter (fun e => decide (e.1 ≤ s.now))
  let s1 := { s with gateRun := s.gateRun.set l { g with truncs := g.truncs.filter (fun e => decide (s.now < e.1)) } }
  due.foldl (fun s e =>
    (s.bumpGrid l (fun g => { g with truncated := satAdd g.truncated 1 })).raiseLine 0x0201 sevNotice l e.1 (u32 e.2) (some [])) s1

/-! ### EMIT_PERMIT (R60, R61, R569) -/

/-- The sheets of a line whose gate a falling edge closes early are INVALID and counted (R61). -/
def State.cutLaunches (s : State) (l : Nat) : State :=
  let open_ := fun (e : Launch) => decide (s.now < e.gateUntil)
  let n := ((s.gridOf l).inFlight.filter open_).length
  let hurt := ((s.gridOf l).inFlight.filter open_).map Launch.tick
  let s0 := s.modCal l (fun k => { k with shots := k.shots.map (fun v => if hurt.contains v.tick then { v with bad := true } else v) })
  let s1 := s0.modGrid l (fun g => { g with
    inhibited := satAdd g.inhibited n
    inFlight := g.inFlight.map (fun e => if open_ e then { e with cut := true, gateUntil := s.now } else e) })
  { s1 with
    gateRun := upd s1.gateRun l (fun g => { g with truncs := g.truncs.filter (fun e => decide (e.1 ≤ s.now)) })
    therm := { s1.therm with slices := s1.therm.slices.map (fun c =>
      if c.line == some l then { c with cand := c.cand.map (fun x => if hurt.contains x.tick then { x with dark := true } else x) } else c) } }

/-- EMIT_PERMIT_FALL: an inhibition begins when emission was permitted, and not when the fall comes during qualification (R569). -/
def State.emitFall (s : State) : State :=
  if !s.emit.level then s
  else
    let s1 := (List.range 16).foldl (fun s l => s.cutLaunches l) s
    if s.emit.qualifyFrom.isSome then { s1 with emit := { s1.emit with level := false, qualifyFrom := none } }
    else ({ s1 with emit := { s1.emit with level := false, inhibitedSince := some s1.now } }).raiseNow 0x0203 sevNotice srcDevice [] none

/-- EMIT_PERMIT_RISE: 10 µs of qualification begin. -/
def State.emitRise (s : State) : State :=
  if s.emit.level then s else { s with emit := { s.emit with level := true, qualifyFrom := some s.now } }

/-- The end of qualification. -/
def qualifyTicks : Nat := 10 * ticksPerUs

/-- EMIT_QUALIFIED: the level has stayed high for 10 µs. A qualification that no inhibition precedes, the first after power-up, is reported too, with
the time since its rise (DESIGN CHOICE: Table 2.7 records the event at every end of qualification, and R569 gives it a duration only
from an inhibition's first fall). -/
def State.emitQualified (s : State) : State :=
  match s.emit.qualifyFrom with
  | none => s
  | some q =>
    if !s.emit.level || decide (s.now < q + qualifyTicks) then s
    else
      let stop := q + qualifyTicks
      let since := s.emit.inhibitedSince.getD q
      ({ s with emit := { s.emit with qualifyFrom := none, inhibitedSince := none, past := ((since, stop) :: s.emit.past).take 64 } }).raise
        0x0204 sevInfo srcDevice (s.devStamp stop) stop (u32 (satTo 4 ((stop - since) / ticksPerUs))) none

/-! ### Plans taking effect (R17, R18, R64 to R67) -/

/-- A line keeps an unaligned plan on a probe through an apply: one in effect, which the apply does not name or replaces by another such (R17). -/
def State.keepsUnaligned (s : State) (k probe : Nat) (p : Pend) : Bool :=
  let fits := fun (o : Option Plan) => match o with | some a => !a.aligned && a.probe == probe | none => false
  fits (s.plan? k) && (!p.units.contains k || fits (s.gridOf k).staged)

/-- The anchor second's boundary for a plan that takes effect (R17). -/
def State.anchorFor (s : State) (l : Nat) (q : Plan) (p : Pend) : Nat :=
  let g := s.gridOf l
  let own := match s.plan? l with | some a => !a.aligned | none => false
  let other := (List.range 16).find? (fun k => k != l && s.keepsUnaligned k q.probe p)
  if q.aligned then g.anchor
  else match other with
    | some k => (s.gridOf k).anchor
    | none => if own then g.anchor else s.boundaryAtOrBefore (p.applyAt.getD p.accepted)

/-- The effective stamp of a plan's apply (R64): for an unaligned plan its SECOND is the anchor second, and its cell that of the effect within
the effect's own second (R17; DESIGN CHOICE where the two seconds differ). -/
def State.planStamp (s : State) (l : Nat) (q : Plan) (anchor x : Nat) : BitVec 96 :=
  if q.aligned then s.effStamp x (some l)
  else secondStampOf (s.secondAt anchor).1 ((s.secondAt x).2 / ticksPerCell) 0 (some l) (s.flagsAt x)

/-- The staged plan takes effect on a line when its instant has come; `change` tells the probe changes from the others (R64 to R67). -/
def State.planEffect (s : State) (l : Nat) (change : Bool) : State :=
  match s.pendOf 0x0202 l, (s.gridOf l).staged with
  | some p, some q =>
    let x := s.planDue l p
    if s.now < x || s.probeChanges l != change then s
    else
      let a := s.anchorFor l q p
      let s1 := (s.modCfg (fun r => { r with plans := r.plans.set l (some q) })).modGrid l
        (fun g => { g with
          staged := none, anchor := a, planFrom := x, settling := g.settling || change
          awakeAt := if (s.plan? l).isNone && s.pwr.st == 1 then x + 20 * ticksPerUs else g.awakeAt })
      let s2 := (s1.thermEarly l x true).dropBlocks l x
      let s3 := if change then
          let stamp := sheetStampOf (s2.secondAt x).1 (s2.sheetIndex l q x) 0 0 l (s2.flagsAt x)
          (s2.modLine l (fun r => { r with restartNext := true })).raise 0x0205 sevInfo (srcLine l) stamp x (stampBytes stamp) none
        else s2
      (s3.strike 0x0202 l).applied p (srcLine l) (s3.planStamp l q a x) x stOk
  | _, _ => s

end Sys2Proof.Machine
end

