-- ==== Sys2Proof/Machine/LineRows.lean ====
section
/-! DEFINITION. The rows in which several chapters act at once: lane words, finished sheets, starts and stops of lines, quire boundaries. -/

namespace Sys2Proof.Machine

/-- LANE_WORD_RELEASE (R83): the word of the cell sampled 768 cells ago goes to the calender, the lane conditions, the raw sets, the reference paths
and the stage-2 tap. -/
def State.laneWordRelease (s : State) (q role : Nat) (vNv : Int) : State :=
  let back := 768 * ticksPerCell
  if !s.quadEnabled q || 4 < role || s.now < back || decide (2 ≤ s.pwr.st) then s
  else
    let x := (s.now - back) / ticksPerCell * ticksPerCell
    let w := s.laneWord q role x vNv
    let s0 := ((s.keepWord q role x vNv w).gatherWord q role x w).closeThermal q x
    let s1 := (s0.laneConds q role x w).rawLane q role x w
    let s2 := if q = 16 then s1.refStep x else s1
    if q < 16 && role == 3 then s2.rawStage2 q x else s2

/-! ### Quire boundaries -/

/-- Conditions armed or re-based at a quire boundary (R246, R272). -/
def State.boundaryConds (s : State) (l : Nat) : State :=
  (List.range 16).foldl (fun s c => match s.condDef? c with
    | some d => if d.line = l then (s.armEffectOf c).rebaseEffect c else s
    | none => s) s

/-- A felt resize with its effects on the triggers and the holds (R179, R201, R260). -/
def State.resizeEffect (s : State) (l : Nat) : State :=
  let s1 := s.feltResizeEffect l
  let s2 := if (s.feltOf l).fsn ≠ 0 && (s1.feltOf l).fsn == 0 then s1.trigFormat l else s1
  s2.sweepHolds l

/-- What waits for the quire boundary takes effect, then the writer begins the slot (R185). -/
def State.quireBegin (s : State) (l : Nat) : State :=
  if !(s.feltOf l).atBoundary then s
  else
    let s1 := ((s.slowConfigEffect l).slowStartEffect l).resizeEffect l
    ((s1.boundaryConds l).beginQuire l).sweepHolds l

/-- A point-producing sheet of the line is ready to be written: what makes the writer begin a quire. -/
def State.sheetDue (s : State) (l : Nat) : Bool :=
  (s.gridOf l).inFlight.any (fun e => (match e.kind with | .tone _ => true | _ => false) && decide (s.sheetReady e ≤ s.now))

/-- An effect that waits, on a running line, for the writer to begin a quire (R201). -/
def State.atQuireBegin (s : State) (l : Nat) (f : State → State) : State := if s.running l && !s.sheetDue l then s else f s

/-- FELT_QUIRE_BEGIN (R185). A `slow.start` on a line that does not run needs no boundary (R204). -/
def State.quireBeginRow (s : State) (l : Nat) : State :=
  let s1 := s.atQuireBegin l (fun s => s.slowStartEffect l)
  if s1.sheetDue l then s1.quireBegin l else s1

/-- FELT_RESIZE_TAKES_EFFECT (R201). -/
def State.resizeRow (s : State) (l : Nat) : State := s.atQuireBegin l (fun s => s.resizeEffect l)

/-- SLOW_CONFIG_TAKES_EFFECT (R207). -/
def State.slowConfigRow (s : State) (l : Nat) : State := s.atQuireBegin l (fun s => s.slowConfigEffect l)

/-! ### A finished sheet -/

/-- The probe change's settling is over (R66): every chain has settled on sheets launched since, or without slow-time processing no sample
carries SETTLING. -/
def State.settleOver (s : State) (l : Nat) (samples : List Sample) : State :=
  if (s.gridOf l).settling && !(s.slowCfg l).started && !samples.any Sample.settling then s.modGrid l (fun g => { g with settling := false }) else s

/-- SHEET_COMPLETE (R159): the sheet record and its samples leave the engine towards the felt. -/
def State.sheetComplete (s : State) (l : Nat) (i : SheetInput) : State :=
  match s.completing l i.launch with
  | none => s
  | some e =>
    let o := s.finishSheet l e i.badEntries
    let s0 := (o.1.dropLaunch l i.launch).rawSheet l o.2
    -- the chains restart with the first sheet that leaves after the restart, a coded group's decoded sheet among them (R188)
    let s1 := if e.restart then s0.modSlow l (fun r => { r with restartAtNext := max r.restartAtNext 1 }) else s0
    if !o.2.produced then s1
    else
      let s2 := (s1.quireBegin l).feltWrite l e.tick o.2.record (o.2.samples.map Sample.word) false
      let s3 := s2.modLine l (fun r => { r with lastRecord := o.2.record })
      (s3.sweepHolds l).settleOver l o.2.samples

/-- SLOW_QUIRE_RELEASED (R200), with the end of a probe change's settling (R66). -/
def State.quireReleased (s : State) (l : Nat) : State :=
  let s1 := s.releaseQuire l
  let late := match (s.slowOf l).queue with
    | j :: _ => (s.feltOf l).quireRows j.quire |>.any (fun r => decide ((s.gridOf l).planFrom ≤ r.tick))
    | [] => false
  if (s.gridOf l).settling && late && (s1.slowOf l).chains.all (fun c => c.settleLeft == 0) then s1.modGrid l (fun g => { g with settling := false })
  else s1

/-! ### Starts and stops -/

/-- A calibration handover that waited for the line counts its passing blocks anew (R119). -/
def State.calWaits (s : State) (q : Nat) : State :=
  s.modCal q (fun k => if k.dueAt.isSome then { k with dueAt := none, passRun := 0, recheck := false } else k)

/-- LINE_STARTED (R166): with a line restart, the felt ring laid or aligned (R178, R179), and what waited for the line's quire boundary. -/
def State.lineStartedRow (s : State) (l : Nat) : State :=
  let s1 := s.lineStarted l
  if (s.lineOf l).st ≠ 1 || (s1.lineOf l).st ≠ 2 then s
  else
    let s2 := s1.feltStart l
    let s3 := if (s2.feltOf l).fsn = 0 then s2.trigFormat l else s2
    (s3.calWaits l).sweepHolds l

/-- LINE_STOP_BOUNDARY (R167): no launch at or after S; in immediate form the sheets in flight are discarded with an ABORTED record in every stream
the line feeds: in those of the felt ITEMS counts the sheets, in those of the slow-time processing the slow sheets they would have made. -/
def State.stopBoundaryRow (s : State) (l : Nat) : State :=
  let fl := (s.stopWalk l).1
  let s1 := s.stopBoundary l
  match (s.lineOf l).stop, (s1.lineOf l).stop with
  | none, some r =>
    let s2 := s1.thermStop l r.at_ r.immediate
    if r.immediate then
      match fl.head?, fl.getLast? with
      | some a, some b =>
        let mark := fun (s' : State) (source n : Nat) =>
          s'.abortItems (fun d => d.source == source && d.line == l) 2 n l (s.sheetStamp l a) (s.sheetStamp l b)
        let s3 := mark s2 1 fl.length
        if (s.slowCfg l).started then mark s3 2 (ceilDiv fl.length (s.slowCfg l).interval) else s3
      | _, _ => s2
    else s2
  | _, _ => s1

/-- LINE_STOPPED (R167): the drain or discard is complete; the felt's and the slow-time processing's part follow (R205), open captures end
(R260) and the quad may power down (R96). -/
def State.lineStoppedRow (s : State) (l : Nat) : State :=
  if !s.engineDrained l then s
  else
    let imm := match (s.lineOf l).stop with | some r => r.immediate | none => false
    ((((s.endLine l).dropBlocks l s.now).slowLineStopped l imm).clipCaptures l).quadPowerDown l

/-- SPOT_LAUNCH with the next shot of a launch-zero measurement (R296). -/
def State.spotLaunchRow (s : State) (l : Nat) : State :=
  let s1 := s.spotLaunch l
  let fired := (s1.gridOf l).inFlight.length != (s.gridOf l).inFlight.length
  if (s.gridOf l).spot.isNone || (s1.gridOf l).spot.isSome then s1
  else
    let s2 := if fired then s1.tiuEvent 3 l s.now else s1
    if (s.gridOf l).spotAt.2 then (if fired then s2.armShot l s.now else s2).nextZeroShot l else s2

/-- An effect on a condition that waits for its line's quire boundary when it is a point condition (R246, R272). -/
def State.atCondQuire (s : State) (c : Nat) (f : State → State) : State :=
  match s.condDef? c with
  | some d => if c < 16 then s.atQuireBegin d.line f else f s
  | none => f s

/-- TRIG_ARM_TAKES_EFFECT with the zones that name the condition (R272, R353). -/
def State.armRow (s : State) (c : Nat) : State := (s.atCondQuire c (fun s => s.armEffectOf c)).zonesOfCond c

/-- TRIG_REBASE_TAKES_EFFECT (R246). -/
def State.rebaseRow (s : State) (c : Nat) : State := s.atCondQuire c (fun s => s.rebaseEffect c)

end Sys2Proof.Machine
end

