-- ==== Sys2Proof/Machine/Boot.lean ====
section
/-! DEFINITION. Reset, boot and restore (R472 to R474, R479, R488, R490, R515, R516, R523, R534, R544, R545). -/

namespace Sys2Proof.Machine

/-! ### What a reset leaves (R306, R462, R467, R479, R493, R502, R506, R517) -/

/-- A unit across a reset: the health record keeps retirements, suspicions, wear and the transient history (R513, R515, R522). -/
def Unit_.rebooted (r u : Unit_) : Unit_ :=
  { r with st := if u.gone then 3 else if u.st = 4 || u.st = 6 then u.st else r.st, transients := u.transients, accepted := u.accepted }

/-- Spare rows or columns of a macro in use by its repairs, fused and soft (R516, R524). -/
def repairsOf (l : List Repair) (kind m : Nat) : Nat := (l.filter (fun r => r.kind == kind && r.macroIx == m)).length

/-- A macro across a reset: soft and fused repairs are loaded before its first access (R517, R524). -/
def Health.rebootMacro (h : Health) (m : Nat) (u : Unit_) : Unit_ :=
  { Unit_.fresh with transients := u.transients, accepted := u.accepted, rowsUsed := repairsOf h.repairs 0 m, colsUsed := repairsOf h.repairs 1 m }

/-- The health record, repair map, fuses and self-test results are in NOR; pending tests and counters are lost (R512, R517, R535). -/
def Health.reboot (h : Health) : Health where
  units := (unitsAtReset.zip h.units).map (fun e => (e.1.zip e.2).map (fun p => p.1.rebooted p.2))
  macros := h.macros.foldl (fun l e => sset Unit_.fresh l e.1 (h.rebootMacro e.1 e.2)) []
  sramErrs := []
  repairs := h.repairs
  fuseFailed := h.fuseFailed
  fusesUsed := h.fusesUsed
  segments := h.segments
  testRun := none
  thermal := h.thermal.map (fun x => ⟨x.value, x.value, false, false⟩)
  rails := h.rails.map (fun x => ⟨x.value, x.value, false, false⟩)
  smbAlert := h.smbAlert
  sramCorrected := 0
  d2dCorrected := 0
  transients := 0
  permanents := 0
  logDropped := 0
  saturated := []
  d2dMap := Health.reset.d2dMap
  d2dErrs := []
  sramTest := []
  bootNoSpare := h.bootNoSpare
  alertCond := h.alertCond

/-- Fuses and NOR of the security chapter stay; sessions, nonces, counters and a firmware load in progress go (R484, R489, R493, R506). -/
def Security.reboot (c : Security) : Security := { c with load := none, nonces := [], sessions := [], authFails := 0 }

/-- The remap table, the rows' transients and the training cache are in NOR (R390, R402, R517). -/
def MemRun.reboot (m : MemRun) : MemRun :=
  { MemRun.reset with remaps := m.remaps.filter (fun r => r.permanent), rowTransients := m.rowTransients, cacheValid := m.cacheValid, forceFull := m.forceFull }

/-- A snapshot that is cut short leaves its bank invalid (R471). -/
def Sys.cutSnapshot (y : Sys) : Sys :=
  match y.snapshot with
  | some p => { y with snapshot := none, banks := upd y.banks p.bank (fun b => { b with valid := false }) }
  | none => y

/-- How the next boot comes about: its cause, the source to restore, and the flags that apply to it (R477, R479). -/
structure BootWhy where
  cause : Nat
  source : Option Nat
  quick : Option Bool
  noResume : Bool
deriving DecidableEq, Repr, Inhabited

/-- Every unit outside the always-on domain is reset (R479). The always-on memory, NOR, fuses, the thermos, the LTUNE codes, the interlock's input
and the supplies keep their state; the event queue is lost and its records are counted (R467). -/
def State.afterReset (s : State) (why : BootWhy) : State :=
  let b := State.blank s.build s.now
  let y := s.sys.cutSnapshot
  let lost := satTo 2 (s.ev.held.length + s.ev.p2buf.length)
  { b with
    pending := s.pending, out := s.out, free := s.free
    sys := { b.sys with
      cause := why.cause, restoreFrom := why.source, bootQuick := why.quick, bootNoResume := why.noResume, banks := y.banks, rest := y.rest
      boot := y.boot, lostAtReset := lost, watchdogCount := y.watchdogCount }
    log := s.log, warn := s.warn, flagHist := s.flagHist
    tb := TimeBase.start s.now s.tb.refclk s.tb.refLostAt s.tb.presentSince
    gateRun := s.gateRun, emit := s.emit, sec := s.sec.reboot
    pwr := { b.pwr with st := b2n y.boot.trim, railsUp := s.pwr.railsUp }
    health := s.health.reboot, ltune := s.ltune, mem := s.mem.reboot }

/-- The sessions that a reset or a lifecycle transition ends (R493, Table 16.17). -/
def State.sessionsEnded (s : State) (l : List Session) (state : Nat) : State :=
  l.foldl (fun s e => s.raiseNow 0x0E04 sevInfo srcMss (u32 e.id ++ u8 state ++ u8 e.rights) none) s

/-- An open debug level closes (R502). -/
def State.debugClosed (s : State) (old cause : Nat) : State :=
  if old = 0 then s else s.raiseNow 0x0E05 sevNotice srcMss (u8 old ++ u8 0 ++ u8 cause) none

/-- A reset: what it ends is reported by the boot that follows. -/
def State.resetWith (s : State) (why : BootWhy) : State := ((s.afterReset why).sessionsEnded s.sec.sessions 3).debugClosed s.dbg.level 3

/-- A core reset keeps the PCIe link, its configuration space and the MSI-X table; the host sees it as under R435 (R479). -/
def State.coreReset (s : State) (why : BootWhy) : State :=
  let s1 := s.resetWith why
  let s2 := { s1 with
    pcie := { s.pcie with winBase := 0, winDenied := 0 }
    vectors := s.vectors.map (fun (v : Vector) => { v.unmoderated with causes := [], haltPending := false, lastSent := none }) }
  s2.raiseNow 0x0D06 sevNotice srcPcie (u8 2 ++ u8 s.pcie.speed ++ u8 s.pcie.width) none

/-- RESET_BEGINS: a reset asked for by `sys.reset` or `sys.restore`, at least 1 ms after its response (R477, R479). -/
def State.resetBegins (s : State) : State :=
  match s.sys.resetPend with
  | none => s
  | some p =>
    if s.now < p.notBefore then s
    else
      let why : BootWhy := ⟨p.cause, p.source, p.quickStart, p.noResume⟩
      if p.full then s.resetWith why else s.coreReset why

/-- RESET_N_LOW (R545): held low for 10 µs it is a full reset; shorter pulses do nothing. -/
def State.resetPin (s : State) (lowNs : Nat) : State := if 10000 ≤ lowNs then s.resetWith ⟨2, none, none, false⟩ else s

/-- WATCHDOG_RESET (R474, Table 15.19): a core reset with cause 4. -/
def State.watchdog (s : State) : State :=
  (s.modSys (fun y => { y with watchdogCount := y.watchdogCount + 1 })).coreReset ⟨4, none, none, false⟩

/-- POWER_LOSS (R533): all but NOR and fuses is lost; emission is off with its supplies, and the always-on domain forgets. -/
def State.powerLoss (s : State) : State :=
  let s1 := s.afterReset ⟨0, none, none, false⟩
  { s1 with
    emit := Emit.reset, pwr := { s1.pwr with railsUp := false }
    warn := { s1.warn with level := false, clearSince := none, withheld := [] }
    health := { s1.health with smbAlert := false, alertCond := false } }

/-- POWER_UP (R544, R554): every rail has been within range for 1 ms; the LTUNE codes took 0x8000 as VDD_AON rose, and the thermos begins. -/
def State.powerUp (s : State) : State :=
  if s.pwr.railsUp then s
  else
    { s with pwr := { s.pwr with railsUp := true }, ltune := [0x8000, 0x8000], tb := TimeBase.start s.now true 0 s.now }

/-! ### Release from reset (R474 steps 1 to 3) -/

/-- A slot's image is bootable (R488): its format, digest and signature as the MSS finds them, its ROLLBACK at least the counter. -/
def State.bootable (s : State) (slot : Nat) (verifies : Bool) : Bool :=
  let f := nth s.sec.fw slot default
  f.loaded && verifies && s.build.vendorKeyOk && decide (s.sec.rollback ≤ f.rollback) && decide (f.rollback ≤ 64)

/-- EV_SEC_FW (Table 16.17). -/
def State.fwEvent (s : State) (op slot version : Nat) : State :=
  s.raiseNow 0x0E02 sevNotice srcMss (u8 op ++ u8 slot ++ u32 version) none

def State.fwVersion (s : State) (slot : Nat) : Nat := (nth s.sec.fw slot default).version

/-- The slots a boot tries, in order: the trial's, then the preferred one, then the other (R488, R490). -/
def State.fwOrder (s : State) : List Nat :=
  let p := s.sec.preferred
  if s.sec.trialPending then [1 - p, p] else [p, 1 - p]

/-- Slots tried in vain are reported (R488); the first bootable one runs. -/
def State.chooseFw (s : State) (ok : Nat → Bool) : State × Option Nat :=
  let order := s.fwOrder
  let bad := order.takeWhile (fun n => !s.bootable n (ok n))
  (bad.foldl (fun s n => s.fwEvent 3 n (s.fwVersion n)) s, order.find? (fun n => s.bootable n (ok n)))

/-- EV_NO_SPARE at boot for a retired unit that no spare replaces, once and for all when it was accepted (R514, R515). -/
def State.bootLacks (s : State) (k i : Nat) : State :=
  if (s.hUnit k i).accepted then s.modHUnit k i (fun u => { u with st := 5 }) else s.reportNoSpare k i 0

/-- One retired unit is vacated before restore (R515): a spare takes its place in the map of release from reset, or it lacks one. -/
def State.bootVacate (s : State) (k i : Nat) : State :=
  let spare := s.spareFor k i
  let active := fun (s : State) (j : Nat) => s.modHUnit k j (fun u => { u with st := 0 })
  if !(s.hUnit k i).gone then s
  else if k = kindLine then
    if 16 ≤ i then s
    else match spare with
      | some _ => (active s 16).modLine i (fun r => { r with engine := 16 })
      | none => (s.modLine i (fun r => { r with engine := 0xFF })).bootLacks k i
  else if k = kindTile then
    match s.tiles.map.findIdx? (· == some i), spare with
    | some n, some j => (active s j).modPool (fun p => { p with map := p.map.set n (some j) })
    | some n, none => (s.modPool (fun p => { p with map := p.map.set n none })).bootLacks k i
    | none, _ => s
  else if k = kindTiu then
    if 4 ≤ i then s
    else match spare with
      | some j => active s j
      | none => s.bootLacks k i
  else if k = kindSlice then
    match s.logicalOf i, spare with
    | some n, some j => (active s j).modSlice n (fun c => { c with phys := some j })
    | some n, none => (s.modSlice n (fun c => { c with phys := none })).bootLacks k i
    | none, _ => s
  else if k = kindModulator then
    if i ≠ s.front.sdm then s
    else match spare with
      | some j => (active s j).modFront (fun r => { r with sdm := j })
      | none => s.bootLacks k i
  else if k = kindD2d then
    match s.health.d2dMap.findIdx? (· == i), spare with
    | some n, some j => (active s j).modHealth (fun h => { h with d2dMap := h.d2dMap.set n j })
    | some _, none => s.bootLacks k i
    | none, _ => s
  else if k = kindConverter then
    if (s.serviceable (i / 5)).length < 4 then s.bootLacks k i else s
  else s.bootLacks k i

/-- The kinds whose units are held one by one. -/
def bootKinds : List Nat := [0, 1, 2, 3, 4, 5, 8, 9, 10]

/-- The retirement list is applied and every suspect unit is put to its test (R515). -/
def State.applyRetirements (s : State) : State :=
  let units := bootKinds.flatMap (fun k => (List.range (unitCount k)).map (fun i => (k, i)))
  let s1 := units.foldl (fun s e => s.bootVacate e.1 e.2) s
  let s2 := units.foldl (fun s e => if (s.hUnit e.1 e.2).st = 6 then s.beginTest e.1 e.2 else s) s1
  ((List.range 17).filter s2.quadEnabled).foldl (fun s q => s.bootQuad q) s2

/-- Power-loss records without a CLEARED mark are reported (R534). -/
def State.reportLosses (s : State) : State :=
  let open_ := s.warn.losses.filter (fun r => !r.cleared)
  let s1 := open_.foldl (fun s r => s.raise 0x0F08 sevNotice srcDevice r.stamp 0
    (u8 (b2n r.warned) ++ u8 r.interrupted ++ u16 (satTo 2 r.notLogged) ++ u32 r.boot) none) s
  { s1 with warn := { s1.warn with losses := [] } }

/-- RELEASE_FROM_RESET (Table 15.14, steps 1 to 3): the rest image is invalidated, SECOND counts from 0, the firmware is chosen and started, or with
no bootable slot BOOT_STATE becomes 7. -/
def State.release (s : State) (f : BootFacts) : State :=
  if !s.pwr.inReset || !s.pwr.railsUp then s
  else
    let s1 := { s with
      pwr := { s.pwr with inReset := false }
      tb := { TimeBase.start s.now s.tb.refclk s.tb.refLostAt s.tb.presentSince with synthLocked := s.tb.refclk }
      sys := { s.sys with rest := { s.sys.rest with valid := false }, boot := { s.sys.boot with bootCount := (s.sys.boot.bootCount + 1) % 2 ^ 32 } } }
    let s2 := s1.reportLosses
    -- a trial that ended without a commit falls back (R490)
    let s3 := if s2.sec.trialRunning then
      (s2.modSec (fun c => { c with trialRunning := false })).fwEvent 3 s2.sec.running (s2.fwVersion s2.sec.running) else s2
    let trial := s3.sec.trialPending
    let c := s3.chooseFw (fun n => if n = 0 then f.slotAOk else f.slotBOk)
    match c.2 with
    | none => (c.1.modSec (fun x => { x with trialPending := false })).modSys (fun y => { y with bootState := 7 })
    | some n =>
      let s4 := c.1.modSec (fun x => { x with
        running := n, trialPending := false, trialRunning := trial && decide (n ≠ x.preferred), trialSince := s.now })
      (s4.modSys (fun y => { y with bootState := 1 })).applyRetirements

/-! ### The configuration to restore (R470, R472) -/

/-- A bank as it stands; with the device secret erased its signature verifies no more (R470, R487). -/
def State.bankOf (s : State) (n : Nat) : Bank :=
  let b := nth s.sys.banks n default
  if s.sec.secretErased then { b with valid := false } else b

/-- The bank that would be newest: of higher GENERATION, A when they are equal. -/
def State.newestBank (s : State) : Nat := if (s.bankOf 0).generation < (s.bankOf 1).generation then 1 else 0

/-- The newest valid bank. -/
def State.newestValid (s : State) : Option Nat :=
  match (s.bankOf 0).valid, (s.bankOf 1).valid with
  | true, true => some s.newestBank
  | true, false => some 0
  | false, true => some 1
  | false, false => none

/-- The source of this boot's restore: 0 A, 1 B, 2 factory. -/
def State.restoreBank (s : State) : Nat :=
  match s.sys.restoreFrom with
  | some 1 => if (s.bankOf 0).valid then 0 else s.newestValid.getD 2
  | some 2 => if (s.bankOf 1).valid then 1 else s.newestValid.getD 2
  | some 3 => 2
  | _ => s.newestValid.getD 2

/-- What a source holds. -/
def State.bankContent (s : State) (src : Nat) : Bank := if src < 2 then s.bankOf src else Bank.blank s.build

/-- QUICK_START for this boot (R479, R523). -/
def State.quickStart (s : State) : Bool := s.sys.bootQuick.getD (bit (s.bankContent s.restoreBank).flags 2)

/-- DRAM training is over (R390, R411): the mode, the channels that failed, and EV_MEM_TRAINED. `changed` are the channels on which the mode
registers name another DRAM than the cache: they rule the cache out, and their remap tables are cleared (R402). -/
def State.trainDram (s : State) (mask : Nat) (cached : Bool) (ms : Nat) (failed changed : List Nat) : State :=
  let fromCache := cached && s.mem.cacheValid && !s.mem.forceFull && changed.isEmpty
  let used := maskList 4 mask
  let bad := used.filter failed.contains
  let s1 := { s with
    memMask := mask
    mem := { s.mem with
      remaps := s.mem.remaps.filter (fun r => !changed.contains r.at_.channel)
      rowTransients := s.mem.rowTransients.filter (fun e => !changed.contains e.1.channel)
      cacheValid := true, forceFull := false, available := bad.isEmpty
      chans := (List.range 4).map (fun c => { ChanRun.reset with
        cached := fromCache, st := if !used.contains c then 2 else if bad.contains c then 3 else 0, lastReq := s.now
        srAfter := if s.cfg.mem.idleSr then some s.cfg.mem.idleSrUs else none }) } }
  let s2 := bad.foldl (fun s c => s.raiseNow 0x0C06 sevFault (srcChannel c) (u8 0) none) s1
  s2.raiseNow 0x0C07 sevInfo srcDevice (u8 (b2n fromCache) ++ u16 (satTo 2 ms) ++ u8 (used.length - bad.length)) none

/-- DRAM_TRAINED (Table 15.14 step 5): BOOT_STATE 2, then 3 with the reruns of incomplete self-test segments (R523). -/
def State.dramTrained (s : State) (cached : Bool) (ms : Nat) (failed changed : List Nat) : State :=
  if s.sys.bootState ≠ 1 || s.pwr.inReset then s
  else
    let s1 := s.trainDram (s.bankContent s.restoreBank).image.mem.mask cached ms failed changed
    (s1.modSys (fun y => { y with bootState := 3 })).beginReruns s.quickStart

/-! ### Restore (R17, R130, R240, R269, R353, R446) -/

/-- Settings enter into force as at every restore: coefficient sets marked STALE, user kernels verified again, conditions armed only under the
resume flag, unaligned plans on a new anchor second, defined zones at UNKNOWN, streams unattached. -/
def State.restoreCfg (s : State) (image : Retained) (saved resume : Bool) (kernelSigs : Nat) : State :=
  let anchor := s.boundaryAtOrBefore s.now
  let mark := if saved then SetMark.reloaded s.now else SetMark.fresh s.now
  let kernels := image.kernels.zipIdx.map (fun e =>
    if s.sec.lifecycle = 0 || (s.sec.lifecycle ≠ 3 && s.ownerKeyOk && bit kernelSigs e.2) then e.1 else none)
  let dropped := (image.kernels.zip kernels).filter (fun e => e.1.isSome && e.2.isNone)
  let s1 := { s with
    cfg := { image with
      kernels := kernels
      armed := 0 }
    memMask := image.mem.mask, capMibNow := image.capMib
    cal := { s.cal with conv := List.replicate 510 mark, pair := List.replicate 198 mark }
    grid := s.grid.zipIdx.map (fun e => match nth image.plans e.2 none with
      | some p => if p.aligned then e.1 else { e.1 with anchor := anchor }
      | none => e.1)
    zones := image.zones.map (fun d => ZoneRun.reset d.isSome s.now)
    felt := List.replicate 16 FeltRing.reset, slow := List.replicate 16 SlowRun.reset }
  -- a kernel that fails is dropped and reported as a failed authentication of its load (R240)
  let s2 := dropped.foldl (fun s _ => s.authFailed 0x0601 0) s1
  if resume then (maskList 32 image.armed).foldl (fun s c => s.armOne c 0) s2 else s2

/-- A line may be started after a restore (R173, R473). -/
def State.mayStart (s : State) (l : Nat) : Bool :=
  s.lineEnabled l && (s.plan? l).isSome && (s.lineOf l).st == 0 && s.cfg.refDelay != 0 && !s.lineLacksSpare l && !s.lineBusy l && s.mem.available &&
    s.sec.lifecycle != 3

/-- Lines are started by the device itself, as by `line.start`, at their first grid launch. -/
def State.ownStart (s : State) (lines : List Nat) : State :=
  if lines.isEmpty then s
  else
    let s1 := lines.foldl (fun s l =>
      let t := s.modLine l (fun r => { r with st := 1, from_ := s.now })
      match t.nextDeckle l s.now with | some d => t.wakeFor l d | none => t) s
    { s1 with pend := s1.pend ++ [⟨0x0402, ownMb, 0, s1.now, none, none, lines, u16 (maskOf lines) ++ u16 0⟩] }

/-- Each mailbox is ready once settings are restored; one that holds a doorbell is busy until its command has run (R452, Table 15.14 step 6). -/
def State.mailboxesReady (s : State) : State := { s with mbs := s.mbs.map (fun m => { m with st := b2n m.held }) }

/-- EV_BOOT (Table 15.19): how the boot came about, the source with any fallback, the lines started, the events lost at the reset. -/
def State.bootEvent (s : State) (src generation lines : Nat) : State :=
  let newest := s.newestBank
  let fallback := b2n (!(s.bankOf newest).valid) + 2 * b2n (!(s.bankOf (1 - newest)).valid)
  s.raiseNow 0x0102 sevNotice srcDevice
    (u8 s.sys.cause ++ u8 src ++ u8 fallback ++ u16 lines ++ u32 (generation % 2 ^ 32) ++ u16 (satTo 2 s.sys.lostAtReset)) none

/-- RESTORE_COMPLETE (R472, R473, Table 15.14 step 6). -/
def State.restoreComplete (s : State) (kernelSigs : Nat) : State :=
  if s.sys.bootState ≠ 3 || s.health.testRun.isSome || s.health.units.any (fun l => l.any (fun u => u.st == 2)) then s
  else
    let src := s.restoreBank
    let b := s.bankContent src
    let resume := bit b.flags 0
    let s1 := (List.range 17).foldl State.heedRotate (s.restoreCfg b.image (decide (src < 2)) resume kernelSigs)
    let lines := if resume && s1.emit.level && !s1.sys.bootNoResume then (maskList 16 b.running).filter s1.mayStart else []
    let wait := bit b.flags 1
    let s2 := s1.mailboxesReady.modSys (fun y => { y with
      bootState := 4, restoreSource := src, generation := b.generation
      resume := if lines.isEmpty then none else some ⟨maskOf lines, wait, s1.now + b.waitS * ticksPerSecond⟩ })
    s2.bootEvent src b.generation (maskOf lines)

/-- RESUME_LINES_START (R473): at once, or under WAIT_TIME when the time base has been set or WAIT_S seconds have passed. -/
def State.resumeLines (s : State) : State :=
  match s.sys.resume with
  | none => s
  | some r =>
    if r.waitTime && !s.tb.timeSet && decide (s.now < r.until_) then s
    else (s.modSys (fun y => { y with resume := none })).ownStart ((maskList 16 r.mask).filter s.mayStart)

end Sys2Proof.Machine
end

