-- ==== Sys2Proof/Machine/StepRows.lean ====
section
/-! DEFINITION. Steps of the time base (R27, R28, R285 to R287, R480, R568): what a step does to the grid, the lines and the pending
commands. -/

namespace Sys2Proof.Machine

/-- An apply-at judged on the new time scale (R287): the same second and cell; an instant the step skipped falls due at the step. -/
def State.rescaled (s old : State) (at_ x : Nat) : Nat :=
  let p := old.secondAt x
  match s.boundaryOf p.1 with
  | some b => max at_ (b + p.2)
  | none => at_

/-- A step moves the launches of a line that has a plan (R28). -/
def Plan.movedBy (p : Plan) (phase : Bool) : Bool := phase || !p.aligned

/-- The quad of a line whose launches a step moves is ready for the first deckle of the new grid as R95 gives it: R97 names no step among the
occasions of a late wake. -/
def State.wakeAtStep (s : State) (at_ l : Nat) : State :=
  match s.nextDeckle l at_ with
  | none => s
  | some d => if s.readyFor d < at_ + wakeTicks then s.wakeQuad l (s.readyFor d) else s

/-- A line crosses a step (R27, R28). -/
def State.stepLine (s : State) (at_ : Nat) (phase : Bool) (discards : Nat) (l : Nat) : State :=
  match s.plan? l with
  | none => s
  | some p =>
    let s1 := if p.aligned then s else s.modGrid l (fun g => { g with anchor := s.boundaryAtOrBefore at_ })
    if p.movedBy phase && s.running l then
      ((s1.modGrid l (fun g => { g with planFrom := at_ })).modLine l
        (fun r => { r with restartNext := true, discarded := satAdd r.discarded discards })).wakeAtStep at_ l
    else s1

/-- A spot shot that waits for its instant across a step: its apply-at is judged on the new scale, and it keeps clear of the new grid (R68, R287). -/
def State.stepSpot (s old : State) (at_ l : Nat) : State :=
  match (s.gridOf l).spot, s.plan? l with
  | some (x, t), some p =>
    let from_ := match (s.gridOf l).spotAt.1 with
      | some a => if at_ ≤ a then s.rescaled old at_ a else max at_ x
      | none => max at_ x
    let s1 := s.modGrid l (fun g => { g with spot := none })
    let y := (s1.spotInstant l p t (some from_) (s.gridOf l).spotAt.2).getD from_
    s1.modGrid l (fun g => { g with spot := some (y, t), spotAt := ((s.gridOf l).spotAt.1.map (fun _ => from_), g.spotAt.2) })
  | _, _ => s

/-- The time scale changes at an instant: `tick` carries the number `second` on the new scale (R27). -/
def State.stepScale (s : State) (at_ tick second : Nat) (phase : Bool) : State :=
  let before := s.secStamp (at_ - ticksPerCell) none false
  let losses := (List.range 16).map (fun l => match s.plan? l with
    | some p => if p.movedBy phase && s.running l then s.stopDiscards l false else 0
    | none => 0)
  let shift : Int := ((tick : Int) - at_) + (((s.secondAt at_).1 : Int) - second) * ticksPerSecond + (s.secondAt at_).2
  let s1 := s.modTb (fun b => { b with
    secTick := tick, secVal := second, prevTick := b.secTick, prevVal := b.secVal, scaleFrom := at_, pendStep := none, steps := satAdd b.steps 1
    phaseFixed := b.phaseFixed || phase, secondFixed := b.secondFixed || !phase, measured := none, measuredPrev := none, measureNew := false
    offsetPs := if phase then b.offsetPs - ticksToPs shift else b.offsetPs })
  let s2 := { s1 with
    pend := s1.pend.map (fun (p : Pend) => match p.applyAt with
      | some x => if at_ ≤ x then { p with applyAt := some (s1.rescaled s at_ x) } else p
      | none => p)
    lines := s1.lines.map (fun (r : LineRun) => if r.st = 1 && at_ ≤ r.from_ then { r with from_ := s1.rescaled s at_ r.from_ } else r) }
  -- the second numbers reported so far are those of the nearest boundaries of the new scale; the step that fixes the last of phase and second number
  -- sets the time base at its own boundary (R568)
  let s3 := (s2.modTb (fun b => { b with secCounted := b.secCounted.map (fun x => s2.nearestBoundary x) })).timeFixed
  let s4 := (List.range 16).foldl (fun s5 l => (s5.stepLine at_ phase (nth losses l 0) l).stepSpot s at_ l) s3
  s4.raise 0x0807 sevNotice srcTimeBase (s4.secStamp at_ none false) at_ (stampBytes before) none

/-- A servo step that finds every value as the device's own count has it: it fixes the phase, and no step is made or reported (R568). -/
def State.fixPhase (s : State) : State :=
  (s.modTb (fun b => { b with pendStep := none, phaseFixed := true, measured := none, measuredPrev := none, measureNew := false })).setTime

/-- TB_STEP: a scheduled step is made at its boundary (R285, R286). -/
def State.tbStep (s : State) : State :=
  match s.tb.pendStep with
  | none => s
  | some p =>
    if s.now < p.at_ then s
    else if p.newSecTick = p.at_ && s.secondAt p.at_ == (p.newSecond, 0) then s.fixPhase
    else s.stepScale p.at_ p.newSecTick p.newSecond p.phase

/-- `sys.time` (Table 15.17, R480): a read answers the stamp of validation; a set names the first boundary at least 100 ms on. -/
def sysTime : Handler := fun c s =>
  let op := rd c.arg 0 1
  let second := rd c.arg 4 8
  if 1 < op || (op = 0 && second ≠ 0) then reject s stBadArg
  else if op = 0 then okWith s (stampBytes (s.devStamp s.now))
  else if 2 ^ 40 ≤ second then reject s stBadArg
  else if s.tb.pendSet.isSome then reject s stBusy
  else if s.cfg.tb.source ≠ 0 && s.cfg.tb.source ≠ 2 then reject s stWrongState
  else pendWith (s.modTb (fun b => { b with pendSet := some ⟨second, s.now + 100 * ticksPerMs⟩ })) c 0x0106 [0] none

/-- The boundary of the device's count that a `sys.time` set names, once it has come: under SOURCE 0 a boundary of that count, under
SOURCE 2 the one that the first qualified edge marks (R480). -/
def State.namedBoundary (s : State) (p : PendSet) : Option Nat :=
  if s.cfg.tb.source = 2 then
    let edge := match s.tb.ppsLast with | some e => some e | none => s.tb.ppsAcq.getLast?
    match edge with
    | some e => if p.notBefore ≤ e && decide (max e (s.nearestBoundary e) ≤ s.now) then some (s.nearestBoundary e) else none
    | none => none
  else if s.isBoundary s.now && decide (p.notBefore ≤ s.now) then some s.now
  else none

/-- SYS_TIME_SET_BOUNDARY: SECOND takes the value when it differs, and the set counts towards setting the time base (R480, R568). -/
def State.timeSetBoundary (s : State) : State :=
  match s.tb.pendSet, s.pendOp 0x0106 with
  | some p, some c =>
    match s.namedBoundary p with
    | none => s
    | some b =>
      let s1 := if (s.secondAt b).1 = p.second then s else s.stepScale b b p.second false
      let s2 := ((s1.modTb (fun t => { t with pendSet := none, secondFixed := true })).dropOp 0x0106).timeFixed
      s2.applied c srcDevice (secondStampOf p.second 0 0 none (s2.flagsAt b)) b stOk
  | _, _ => s

/-- HOLDOVER_END at a boundary (R288). -/
def State.holdoverEnd (s : State) : State := if s.holdoverOver then s.endHoldover else s

end Sys2Proof.Machine
end

