-- ==== Sys2Proof/Machine/System.lean ====
section
/-! DEFINITION. The system commands (R468 to R480): identity page, status mirror, snapshots, shutdown and resets, event release, heartbeat, and the
warning of a power failure (R531, R532). -/

namespace Sys2Proof.Machine

/-! ### Identity page and status mirror (R468, R469) -/

/-- The CPC firmware runs. -/
def State.cpcRuns (s : State) : Bool :=
  decide (1 ≤ s.sys.bootState) && decide (s.sys.bootState ≤ 5) && !s.pwr.inReset && s.pwr.railsUp && decide (s.pwr.st < 3) && !s.dbg.cpcHalted

/-- The words of Table 15.10 at offsets 0x000 to 0x018. -/
def State.identityWords (s : State) : List Nat :=
  [0x36315A44,
    s.lineCount + b2n s.build.commercial * 256 + (2 ^ s.lineCount - 1) * 65536,
    s.build.rxRev % 65536 + s.build.procRev % 65536 * 65536,
    s.fwVersion s.sec.running,
    s.sys.bootState + s.pwr.st * 16 + s.dbg.level * 256 + s.sec.lifecycle * 4096 + b2n s.emit.level * 65536 + b2n s.tb.timeSet * 131072 +
      b2n s.panel.pins.fault * 262144,
    s.sys.heartbeat,
    s.sys.boot.bootCount]

def State.identityBytes (s : State) : List Byte := s.identityWords.flatMap u32

/-- The 64-byte entry of a line in the status mirror (Table 15.11); that of a disabled line reads zero. -/
def State.mirrorEntry (s : State) (l : Nat) : List Byte :=
  if !s.lineEnabled l then zeros 64
  else
    let r := s.lineOf l
    let rec_ := fit 32 r.lastRecord
    let flags := b2n (s.plan? l).isSome + 2 * b2n (bit (rd rec_ 14 2) 8) + 4 * b2n ((s.quadOf l).inputs.any (fun p => p.fault.isSome)) + 8 * b2n (s.slowCfg l).started
    (s.lineBody l).take 3 ++ u8 flags ++ u32 (r.eRef.getD 0xFFFFFFFF) ++ rec_.take 12 ++ (rec_.drop 20).take 4 ++ zeros 40

/-- `sys.identify` (Table 15.16). -/
def sysIdentify : Handler := fun _ s =>
  let version := fun (n : Nat) => let f := nth s.sec.fw n default; if f.loaded then f.version else 0
  okWith s (s.identityBytes ++ fit 16 s.build.serial ++ u32 (version 0) ++ u32 (version 1) ++ u8 s.sec.running ++ u8 s.sys.restoreSource ++
    u16 s.cfg.trail.nodeId ++ u64 s.sys.generation ++ u32 s.build.installedMib ++ u32 s.build.norMib ++ u8 s.sys.cause ++ zeros 3)

/-! ### Snapshots (R470, R471, R476) -/

/-- The lines running now. -/
def State.runningLines (s : State) : List Nat := (List.range 16).filter s.running

/-- The settings in force as a bank's content: GENERATION one above the newest valid bank's, or 1 (R471, Table 15.13). -/
def State.capture (s : State) (flags waitS running : Nat) : Bank :=
  let generation := match s.newestValid with | some n => (s.bankOf n).generation + 1 | none => 1
  ⟨true, flags, generation % 2 ^ 64, waitS, running, s.devStamp s.now, s.fwVersion s.sec.running, s.cfg⟩

/-- The bank that does not hold the newest valid configuration; A when none is valid. -/
def State.snapshotBank (s : State) : Nat := match s.newestValid with | some n => 1 - n | none => 0

/-- The writing of a bank begins: until its MAGIC is written it is invalid. -/
def State.beginSnapshot (s : State) (flags waitS running mb seq : Nat) (shutdown : Bool) : State :=
  let n := s.snapshotBank
  let p : SnapPend := ⟨n, s.capture flags waitS running, mb, seq, shutdown⟩
  s.modSys (fun y => { y with snapshot := some p, banks := upd y.banks n (fun b => { b with valid := false }) })

/-- `sys.snapshot` (R476). -/
def sysSnapshot : Handler := fun c s =>
  let flags := rd c.arg 0 2
  let wait := rd c.arg 2 2
  if bit flags 1 && (wait < 1 || 3600 < wait) then reject s stBadArg
  else if s.sys.snapshot.isSome then reject s stBusy
  else pendWith (s.beginSnapshot flags wait (maskOf s.runningLines) c.mb c.seq false) c 0x0102 [0] none

/-! ### Stops and detaches the device makes of its own (R478, R487, R498, R500) -/

/-- Starts that have not come about are withdrawn. -/
def State.withdrawStarts (s : State) : State :=
  ((List.range 16).filter (fun l => (s.lineOf l).st == 1)).foldl (fun s l => (s.modLine l (fun r => { r with st := 0 })).strike 0x0402 l) s

/-- Every running line is stopped as by `line.stop`, every raw set as by `cap.raw_stop`. -/
def State.ownStop (s : State) (mode : Nat) (applyAt : Option Nat) : State :=
  let s0 := s.withdrawStarts.modSys (fun y => { y with resume := none })
  let lines := (List.range 16).filter (fun l => (s0.lineOf l).st == 2)
  let sets := (List.range 4).filter (fun n => (s0.setOf n).st != 0 && (s0.setOf n).stop.isNone)
  let s1 := (lines.foldl (fun s l => s.modLine l (fun r => { r with st := 3 })) s0).stopSets sets mode
  let own := fun (op : Nat) (units : List Nat) (data : List Byte) => if units.isEmpty then [] else
    [({ op := op, mb := ownMb, seq := 0, accepted := s.now, applyAt := applyAt, due := none, units := units, data := data } : Pend)]
  { s1 with pend := s1.pend ++ own 0x0403 lines (u16 (maskOf lines) ++ u8 mode ++ u8 0) ++ own 0x0708 sets (u8 (maskOf sets) ++ u8 mode ++ u16 0) }

/-- The streams attached to contexts other than ctx 0. -/
def State.otherStreams (s : State) : List Nat :=
  (List.range 256).filter (fun k => match s.streamRun k with | some r => r.ctx != 0 | none => false)

/-- Every stream but that of ctx 0 is detached as by `stream.detach`. -/
def State.ownDetach (s : State) (mode : Nat) : State :=
  (s.otherStreams.filter (fun k => match s.streamRun k with | some r => r.detach.isNone | none => false)).foldl (fun s k => s.detachStream k mode) s

/-- The stops are over: no line runs, slow-time processing has drained, no raw set is at work. -/
def State.stopsDone (s : State) : Bool :=
  s.lines.all (fun r => r.st == 0) && s.slow.all (fun r => r.queue.isEmpty) && (List.range 4).all (fun n => (s.setOf n).st == 0)

/-- What ctx 0 can still deliver has been delivered; `all` waits for the records held in the event queue too. A context that is not running
delivers nothing. -/
def State.ctx0Drained (s : State) (all : Bool) : Bool :=
  match (s.ctxOf 0).stream with
  | none => true
  | some k => match s.streamRun k with
    | none => true
    | some r => (s.ctxOf 0).st != 1 || (r.waiting.isEmpty && r.closed.isEmpty && (!all || s.ev.held.isEmpty))

/-- The on-die buffer of P2 enters the event queue (R498, R467). -/
def State.flushDie (s : State) : State :=
  s.ev.p2buf.foldl (fun s r => s.enterEvent false r) { s with ev := { s.ev with p2buf := [] } }

/-! ### Powering off (R500) -/

/-- The hamper across an entry into P3: its counters and sensors stay with the MSS, the units start again as after a reset. -/
def Health.rested (h : Health) : Health :=
  { h.reboot with
    -- errors stay counted (R512)
    units := (h.reboot.units.zip h.units).map (fun e => (e.1.zip e.2).map (fun (p : Unit_ × Unit_) => { p.1 with errors := p.2.errors }))
    sramCorrected := h.sramCorrected, d2dCorrected := h.d2dCorrected, transients := h.transients, permanents := h.permanents
    logDropped := h.logDropped, saturated := h.saturated, thermal := h.thermal, rails := h.rails }

/-- Contexts are aborted, sessions and the debug level closed, and all but the always-on domain and the PCIe SERDES loses power: POWER reads 3. -/
def State.powerOff (s : State) : State :=
  let s1 := (List.range 256).foldl (fun s i => if (s.ctxOf i).st = 0 then s else s.abortCtx i) s
  let b := State.blank s.build s.now
  let y := s1.sys
  { b with
    pending := s1.pending, out := s1.out, free := s1.free, cfg := s1.cfg
    sys := { b.sys with
      bootState := y.bootState, heartbeat := y.heartbeat, cause := y.cause, restoreSource := y.restoreSource, generation := y.generation
      banks := y.banks, rest := y.rest, boot := y.boot, resetPend := y.resetPend, stale := y.stale, duplicates := y.duplicates
      watchdogCount := y.watchdogCount }
    mbs := s1.mbs, log := s1.log, warn := s1.warn, flagHist := s1.flagHist, tb := { s1.tb with ppsOutHigh := false, ppsOutRun := 0, pendStep := none, pendSet := none }
    gateRun := s1.gateRun, emit := s1.emit, pcie := s1.pcie, vectors := s1.vectors
    ctxs := s1.ctxs, ev := { EvQueue.reset with eventsLost := s1.ev.eventsLost, late := s1.ev.late }
    sec := { s1.sec with sessions := [], nonces := [], load := none }
    pwr := { s1.pwr with st := 3, pend := none }
    health := s1.health.rested, ltune := s1.ltune, mem := { s1.mem.reboot with available := false }
    zones := s1.zones, panel := s1.panel, memMask := s1.memMask, capMibNow := s1.capMibNow }

/-! ### Shutdown (R478) -/

/-- The full self-test is in progress, or a segment of it waits. -/
def State.testing (s : State) : Bool := s.health.testRun.isSome

/-- Step 5: EV_APPLIED with the outcome of the snapshot. -/
def State.shutdownApplied (s : State) (d : Shutdown) : State :=
  let s1 := s.modSys (fun y => { y with shutdown := some { d with stage := 4 } })
  match s1.pendOp 0x0104 with
  | some p => (s1.dropOp 0x0104).applied p srcDevice (s1.effStamp s1.now none) s1.now (if d.norFailed then stNorFail else stOk)
  | none => s1

/-- The shutdown goes on as far as what it waits for is done: stops, then detaches, snapshot, self-test, report (R478). -/
def State.shutdownStep (s : State) : State :=
  match s.sys.shutdown with
  | none => s
  | some d =>
    match d.stage with
    | 0 => if s.stopsDone then (s.ownDetach d.mode).modSys (fun y => { y with shutdown := some { d with stage := 1 } }) else s
    | 1 =>
      if s.otherStreams.isEmpty then
        let s1 := s.modSys (fun y => { y with shutdown := some { d with stage := 2 } })
        if bit d.flags 0 then s1.beginSnapshot (b2n (bit d.flags 1) + 4 * b2n (bit d.flags 3)) 0 d.running d.mb d.seq true else s1
      else s
    | 2 =>
      if s.sys.snapshot.isSome then s
      else
        let s1 := s.modSys (fun y => { y with shutdown := some { d with stage := 3 } })
        if bit d.flags 2 then s1 else s1.beginRun
    | 3 => if s.testing then s else s.shutdownApplied d
    | _ => s

/-- As many steps as can be taken at one instant. -/
def State.shutdownAdvance (s : State) : State := s.shutdownStep.shutdownStep.shutdownStep.shutdownStep

/-- `sys.shutdown` (R478). -/
def sysShutdown : Handler := fun c s =>
  let mode := rd c.arg 0 1
  let flags := rd c.arg 1 1
  if 1 < mode then reject s stBadArg
  else if s.sys.snapshot.isSome then reject s stBusy
  else
    let r := pendWith s c 0x0104 [0] none
    let s1 := r.2.modSys (fun y => { y with
      bootState := 5, shutdown := some { mode := mode, flags := flags, mb := c.mb, seq := c.seq, norFailed := false, stage := 0, running := maskOf s.runningLines } })
    (r.1, (s1.flushDie.ownStop mode none).shutdownAdvance)

/-- SHUTDOWN_COMPLETE: ctx 0 is drained, BOOT_STATE becomes 6 and the device enters P3. -/
def State.shutdownComplete (s : State) : State :=
  let s1 := s.shutdownAdvance
  match s1.sys.shutdown with
  | some d =>
    if d.stage = 4 && s1.ctx0Drained true then
      (((s1.raiseNow 0x0E06 sevInfo srcDevice (u8 s1.pwr.st ++ u8 3 ++ u16 s1.sys.boot.kept) none).modSys (fun y => { y with
        bootState := 6, shutdown := none })).sessionsEnded s1.sec.sessions 3).debugClosed s1.dbg.level 3 |>.powerOff
    else s1
  | none => s1

/-- SNAPSHOT_COMMITTED (R471, R476): read-back passed, or the bank stays invalid and the other stands; withheld under PWR_WARN (R531). -/
def State.snapshotCommitted (s : State) (ok : Bool) : State :=
  match s.sys.snapshot with
  | none => s
  | some p =>
    if s.norHeld then s
    else
      let s1 := s.modSys (fun y => { y with snapshot := none, banks := if ok then y.banks.set p.bank p.content else y.banks })
      if p.shutdown then (s1.modSys (fun y => { y with shutdown := y.shutdown.map (fun (d : Shutdown) => { d with norFailed := !ok }) })).shutdownAdvance
      else match s1.pendOp 0x0102 with
        | some q => (s1.dropOp 0x0102).applied q srcDevice (s1.effStamp s1.now none) s1.now (if ok then stOk else stNorFail)
        | none => s1

/-! ### Resets on command (R477, R479) -/

/-- A reset is scheduled, no earlier than 1 ms after the response. -/
def State.schedule (s : State) (full : Bool) (cause : Nat) (source : Option Nat) (quick : Option Bool) (noResume : Bool) : State :=
  s.modSys (fun y => { y with resetPend := some ⟨full, s.now + ticksPerMs, cause, source, quick, noResume⟩ })

/-- `sys.restore` (R477). -/
def sysRestore : Handler := fun c s =>
  let source := rd c.arg 0 1
  if 3 < source then reject s stBadArg
  else if s.sys.snapshot.isSome then reject s stBusy
  else if (source = 1 && !(s.bankOf 0).valid) || (source = 2 && !(s.bankOf 1).valid) then reject s stBankInvalid
  else okay (s.schedule false 3 (some source) none (bit (rd c.arg 1 1) 0))

/-- `sys.reset` (R479). -/
def sysReset : Handler := fun c s =>
  let kind := rd c.arg 0 1
  let flags := rd c.arg 1 1
  if 1 < kind then reject s stBadArg
  else okay (s.schedule (kind == 1) (1 + kind) none (some (bit flags 0)) (bit flags 1))

/-! ### Counters and the event hold -/

def State.sysBody (s : State) : List Byte :=
  (s.mbs.flatMap (fun m => u32 m.ignored)) ++ u32 s.sys.stale ++ u32 s.sys.duplicates ++ u16 s.hostPending.length ++ u16 s.ev.held.length ++
    u32 s.ev.eventsLost ++ u32 s.ev.late

/-- `sys.status` (Table 15.18). -/
def sysStatus : Handler := fun c s =>
  let s1 := if bit (rd c.arg 0 1) 0 then
      (({ s with
          mbs := s.mbs.map (fun (m : Mailbox) => { m with ignored := 0 })
          ev := { s.ev with eventsLost := 0, late := 0 } }).modSys (fun y => { y with stale := 0, duplicates := 0 })).clearSat 0x0107 0
    else s
  okWith s1 s.sysBody

/-- `sys.events`. -/
def sysEvents : Handler := fun c s =>
  let ms := rd c.arg 0 2
  if ms < 1 || 1000 < ms then reject s stBadArg else okay (s.modCfg (fun g => { g with holdMs := ms }))

/-! ### Events leave the queue (R465) -/

/-- The stream of ctx 0 takes records. -/
def State.eventsFlow (s : State) : Bool :=
  match (s.ctxOf 0).stream with
  | some k => (s.streamRun k).any (fun r => r.detach.isNone) && (decide (s.pwr.st < 2) || (s.pwr.st == 2 && !s.onDie))
  | none => false

/-- EVENT_RELEASE: the earliest record leaves once its hold is over. -/
def State.eventRelease (s : State) : State :=
  match s.ev.held with
  | [] => s
  | r :: rest =>
    if !s.eventsFlow || s.now < r.due then s
    else
      let s1 := { s with ev := { s.ev with held := rest, lastReleased := some (max r.inst (s.ev.lastReleased.getD 0)) } }
      s1.deliver (fun d => d.source == 0) ⟨evBytes r, r.stamp, r.inst, 0xFF, 0, none⟩

/-- HEARTBEAT_TICK. -/
def State.heartbeat (s : State) : State :=
  if s.cpcRuns then s.modSys (fun y => { y with heartbeat := (y.heartbeat + 1) % 2 ^ 32 }) else s

/-! ### Power-fail warning (R531, R532) -/

/-- The NOR operations in progress: snapshot, firmware load, log erase, fuse repair, self-test. -/
def State.interrupted (s : State) : Nat :=
  b2n s.sys.snapshot.isSome + 2 * b2n s.sec.load.isSome + 8 * b2n (s.pendOp 0x0F05).isSome + 16 * b2n s.testing

/-- PWR_WARN_RISE: no NOR write is begun any more, and the power-loss record is programmed. -/
def State.warnRise (s : State) : State :=
  if s.warn.level || !s.pwr.railsUp then s
  else
    let mark : LossRec := ⟨s.devStamp s.now, s.sys.boot.bootCount, s.interrupted, s.log.droppedPending, true, false⟩
    { s with warn := { s.warn with level := true, since := s.now, clearSince := none, losses := s.warn.losses ++ [mark] } }

/-- The newest record of the warning is marked CLEARED. -/
def clearNewest (l : List LossRec) : List LossRec := l.modify (l.length - 1) (fun r => { r with cleared := true })

/-- PWR_WARN_CLEAR: low for 10 ms with the rails valid; what was withheld is written. -/
def State.warnClear (s : State) : State :=
  if !s.warn.level || !s.pwr.railsUp then s
  else
    let held := s.warn.withheld
    let s1 := { s with warn := { s.warn with level := false, withheld := [], losses := clearNewest s.warn.losses } }
    let s2 := held.foldl (fun s r => s.logRecord r) s1
    s2.raiseNow 0x0F0A sevNotice srcDevice (u32 (satTo 4 ((s.now - s.warn.since) / ticksPerMs))) none

end Sys2Proof.Machine
end

