-- ==== Sys2Proof/Machine/Security.lean ====
section
/-! DEFINITION. Security and debug access (R482 to R494, R502 to R506): tokens, lifecycle, firmware slots, sessions, rights, debug levels. -/

namespace Sys2Proof.Machine

/-! ### Closing what a transition closes (R486, R502, R504) -/

/-- The debug level closes; closing D3 calls for a core reset, which RESET_BEGINS then makes. -/
def State.closeDebug (s : State) (cause : Nat) : State :=
  if s.dbg.level = 0 then s
  else
    let s1 := s.debugClosed s.dbg.level cause
    let s2 := { s1 with dbg := { Debug.reset with cpcEpoch := s1.dbg.cpcEpoch } }
    if s.dbg.level = 3 && s2.sys.resetPend.isNone then s2.modSys (fun y => { y with resetPend := some ⟨false, s.now, 1, none, none, false⟩ }) else s2

/-- Every session ends (R493). -/
def State.closeSessions (s : State) : State := (s.sessionsEnded s.sec.sessions 3).modSec (fun k => { k with sessions := [] })

/-- A lifecycle transition (R486): EV_SEC_LIFECYCLE; every session and every open debug level closes. -/
def State.transition (s : State) (new_ cause : Nat) : State :=
  let s1 := s.modSec (fun k => { k with lifecycle := new_, serviceUntil := if new_ = 2 then k.serviceUntil else 0 })
  ((s1.raiseNow 0x0E01 sevNotice srcMss (u8 s.sec.lifecycle ++ u8 new_ ++ u8 cause) none).closeSessions).closeDebug 3

/-! ### Tokens (Table 16.2, R484, R485) -/

/-- The fields of a token but its signature. -/
structure Token where
  magic : Nat
  kind : Nat
  signer : Nat
  reserved : Nat
  serial : List Byte
  nonce : List Byte
  duration : Nat
  arg : List Byte

def readToken (b : List Byte) : Token :=
  ⟨rd b 0 4, rd b 4 1, rd b 5 1, rd b 6 2, (b.drop 8).take 16, (b.drop 24).take 32, rd b 56 4, (b.drop 60).take 68⟩

/-- The fields are in range and the reserved ones zero, for the token's own KIND. -/
def Token.wellFormed (t : Token) : Bool :=
  let zero := fun (l : List Byte) => l.all (fun x => x == 0)
  decide (t.signer ≤ 1) && t.reserved == 0 &&
    (if [2, 4, 5].contains t.kind then decide (1 ≤ t.duration) && decide (t.duration ≤ 2592000) else t.duration == 0) &&
    (match t.kind with
      | 1 => zero (t.arg.drop 48)
      | 4 => decide (1 ≤ rd t.arg 0 1) && decide (rd t.arg 0 1 ≤ 3) && zero (t.arg.drop 1)
      | 5 => decide (rd t.arg 0 1 ≤ 0x3F) && zero (t.arg.drop 1)
      | 6 => decide (rd t.arg 0 1 ≤ 0x3F) && zero (t.arg.drop 1)
      | _ => zero t.arg)

/-- The outstanding nonces. -/
def State.nonceLive (s : State) (n : List Byte) : Bool := s.sec.nonces.any (fun e => e.1 == n && decide (s.now < e.2))

/-- The signature verifies against the signer's key: the newest unrevoked owner slot's, or the vendor's (R485). -/
def State.signatureOk (s : State) (signer : Nat) (ok : Bool) : Bool := ok && (if signer = 0 then s.ownerKeyOk else s.build.vendorKeyOk)

/-- What is wrong with a token, none when it is accepted: the reason of EV_SEC_AUTH_FAIL. -/
def State.tokenFault (s : State) (t : Token) (kind : Nat) (signers : List Nat) (sigOk : Bool) : Option Nat :=
  if t.magic ≠ 0x4E4B5441 || t.kind ≠ kind || t.serial != fit 16 s.build.serial then some 2
  else if !s.nonceLive t.nonce then some 1
  else if !signers.contains t.signer then some 3
  else if !s.signatureOk t.signer sigOk then some 0
  else none

/-- A command whose token is refused: ST_AUTH_FAIL for the signature, ST_TOKEN_BAD otherwise. -/
def State.refuseToken (s : State) (op reason : Nat) : Resp × State :=
  reject (s.authFailed op reason) (if reason = 0 then stAuthFail else stTokenBad)

/-- A command with a token: its act when the token is accepted. -/
def State.withToken (s : State) (op kind : Nat) (signers : List Nat) (t : Token) (c : Cmd) (act : Resp × State) : Resp × State :=
  match s.tokenFault t kind signers c.facts.sigOk with
  | some r => s.refuseToken op r
  | none => act

/-- `sec.challenge` (R484). -/
def secChallenge : Handler := fun c s =>
  let n := fit 32 c.facts.random
  let live := s.sec.nonces.filter (fun e => decide (s.now < e.2))
  let kept := if 8 ≤ live.length then live.drop (live.length - 7) else live
  okWith (s.modSec (fun k => { k with nonces := kept ++ [(n, s.now + 120 * ticksPerSecond)] })) n

/-- NONCE_EXPIRY. -/
def State.nonceExpiry (s : State) : State := s.modSec (fun k => { k with nonces := k.nonces.filter (fun e => decide (s.now < e.2)) })

/-! ### Lifecycle (Table 16.3, R483, R486, R487) -/

/-- The key is written into the boot record beside its slot, then the slot's hash is fused. -/
def State.storeKey (s : State) (slot : Nat) (key : List Byte) : State :=
  s.modSec (fun k => { k with owners := upd k.owners slot (fun o => { o with storedKey := some key }) })

/-- The slot is fused and those before it are revoked. -/
def State.fuseOwner (s : State) (slot : Nat) (hash : List Byte) : State :=
  s.modSec (fun k => { k with owners := k.owners.zipIdx.map (fun e =>
    if e.2 = slot then { e.1 with hash := hash } else if e.2 < slot then { e.1 with revoked := true } else e.1) })

/-- Programming, and what the fuses read back when it fails (R486). -/
def State.enrolAt (s : State) (slot : Nat) (key : List Byte) (progOk : Bool) : Resp × State :=
  let s1 := s.storeKey slot key
  if progOk then okay ((s1.fuseOwner slot (sha384 key)).transition 1 0) else reject s1 stFuseFail

/-- `sec.enroll`. -/
def secEnroll : Handler := fun c s =>
  let key := c.arg.take 97
  let t := readToken (c.arg.drop 100)
  let same := match s.newestOwner with | some n => (nth s.sec.owners n default).hash == sha384 key | none => false
  if s.sec.lifecycle = 0 || same then
    if c.eth.isSome then reject s stDenied
    else match s.newestOwner with
      | some n => okay (s.storeKey n key)
      | none => s.enrolAt 0 key c.facts.progOk
  else
    let next := match s.newestOwner with | some n => n + 1 | none => 0
    if !t.wellFormed then reject s stBadArg
    else if 3 < next then reject s stNoResource
    else if t.kind = 1 && t.arg.take 48 != sha384 key then s.refuseToken 0x0E02 2
    else s.withToken 0x0E02 1 [0] t c (s.enrolAt next key c.facts.progOk)

/-- `sec.service`: enter with an owner's token, leave without one. -/
def secService : Handler := fun c s =>
  let t := readToken (c.arg.drop 4)
  match rd c.arg 0 1 with
  | 0 =>
    if !t.wellFormed then reject s stBadArg
    else if s.sec.lifecycle ≠ 1 then reject s stWrongState
    else s.withToken 0x0E03 2 [0] t c (if c.facts.progOk then
      okay ((s.modSec (fun k => { k with serviceUntil := s.elapsed + t.duration })).transition 2 0) else reject s stFuseFail)
  | 1 =>
    if s.sec.lifecycle ≠ 2 then reject s stWrongState
    else if c.facts.progOk then okay (s.transition 1 0) else reject s stFuseFail
  | _ => reject s stBadArg

/-- SERVICE_EXPIRY (R487). -/
def State.serviceExpiry (s : State) : State :=
  if s.sec.lifecycle = 2 && decide (s.sec.serviceUntil ≤ s.elapsed) then s.transition 1 1 else s

/-- What scrapping stops: every line, raw set and stream, in immediate form. -/
def State.scrapStops (s : State) : State :=
  let s1 := (s.ownStop 1 none).ownDetach 1
  match (s1.ctxOf 0).stream with
  | some k => if (s1.streamRun k).any (fun r => r.detach.isNone) then s1.detachStream k 1 else s1
  | none => s1

/-- What scrapping erases: the device secret, the owner slots and their stored keys, both banks and the rest image. -/
def State.scrapErase (s : State) : State :=
  let blank := Bank.blank s.build
  let s1 := s.modSec (fun k => { k with
    secretErased := true, owners := k.owners.map (fun (o : OwnerSlot) => { o with revoked := true, storedKey := none }) })
  s1.modSys (fun y => { y with banks := y.banks.map (fun _ => blank), rest := blank, snapshot := none })

/-- A snapshot in progress ends with its bank erased. -/
def State.dropSnapshot (s : State) : State :=
  match s.pendOp 0x0102 with
  | some p => (s.dropOp 0x0102).applied p srcDevice (s.effStamp s.now none) s.now stNorFail
  | none => s

/-- `sec.scrap`. -/
def secScrap : Handler := fun c s =>
  let t := readToken c.arg
  let act := if c.facts.progOk then okay ((s.scrapStops.dropSnapshot.scrapErase).transition 3 0) else reject s.scrapStops stFuseFail
  if s.sec.lifecycle = 0 then
    if c.eth.isSome then reject s stDenied
    else if !c.arg.all (fun x => x == 0) then reject s stBadArg
    else act
  else if !t.wellFormed then reject s stBadArg
  else s.withToken 0x0E04 3 [0] t c act

/-! ### Firmware slots (R488 to R491) -/

/-- Bytes of a firmware slot (Table 18.12). -/
def State.slotBytes (s : State) : Nat := if s.build.norMib = 64 then 11 * 1048576 else 17 * 1048576

/-- The image's header is sound and its digest matches (Table 16.4). -/
def imageOk (img : List Byte) (length : Nat) : Bool :=
  rd img 0 4 == 0x57465A44 && zeroAt img 9 7 && rd img 16 4 == length && decide (length ≤ 16777216) && zeroAt img 164 348 &&
    sha384 (img.take 20 ++ img.drop 512) == (img.drop 20).take 48

/-- The verification of FINAL: a status, and the slot's image when it is loaded. -/
def State.fwVerify (s : State) (l : FwLoad) (sigOk : Bool) : Nat × State :=
  let img := sgetL 0xFF l.image 0 (512 + l.length)
  let s1 := s.modSec (fun k => { k with load := none })
  if !imageOk img l.length then (stFwBad, s1)
  else if !(sigOk && s.build.vendorKeyOk) then (stAuthFail, s1)
  else if rd img 8 1 < s.sec.rollback || 64 < rd img 8 1 then (stFwRollback, s1)
  else
    let f : FwSlot := ⟨img, true, rd img 4 4, rd img 8 1⟩
    (stOk, (s1.modSec (fun k => { k with fw := k.fw.set l.slot f })).fwEvent 0 l.slot f.version)

/-- `sec.fw_load` (R489, R562). -/
def secFwLoad : Handler := fun c s =>
  let p := c.arg
  let first := bit (rd p 0 1) 0
  let final := bit (rd p 0 1) 1
  let n := rd p 2 2
  let off := rd p 4 4
  let slot := 1 - s.sec.running
  let len := if first then rd p 8 4 else (s.sec.load.map FwLoad.length).getD 0
  let put := fun (image : List (Nat × Byte)) => ssetL 0xFF image off ((p.drop 12).take n)
  if 4000 < n || (!first && s.sec.load.isNone) || 512 + len < off + n then reject s stBadArg
  else if s.sec.load.any FwLoad.erasing then reject s stBusy
  else if first then
    if s.slotBytes < 512 + len then reject s stNoResource
    else
      pendWith (s.modSec (fun k => { k with
        fw := k.fw.set slot ⟨[], false, 0, 0⟩, trialPending := false
        load := some { slot := slot, length := len, image := put [], erasing := true, final := if final then some c.facts.sigOk else none } })) c 0x0E05 [0] none
  else match s.sec.load with
    | none => reject s stBadArg
    | some l =>
      let l1 : FwLoad := { l with image := put l.image }
      if final then
        let r := s.fwVerify l1 c.facts.sigOk
        (⟨r.1, none, []⟩, r.2)
      else okay (s.modSec (fun k => { k with load := some l1 }))

/-- FW_ERASE_DONE (R489); an erase is suspended while PWR_WARN is high (R531). -/
def State.fwEraseDone (s : State) : State :=
  match s.sec.load with
  | none => s
  | some l =>
    if !l.erasing || s.norHeld then s
    else
      let s1 := s.modSec (fun k => { k with load := some { l with erasing := false, final := none } })
      let r := match l.final with | some sig => s1.fwVerify l sig | none => (stOk, s1)
      match r.2.pendOp 0x0E05 with
      | some p => (r.2.dropOp 0x0E05).applied p srcDevice (r.2.effStamp r.2.now none) r.2.now r.1
      | none => r.2

/-- `sec.fw_control` (R490, R491): activate the loaded slot for one boot, or commit the trial that runs. When the fuses of the rollback counter fail,
the steps that read back are the command's own fact. -/
def secFwControl : Handler := fun c s =>
  let other := 1 - s.sec.running
  match rd c.arg 0 1 with
  | 0 =>
    if !(nth s.sec.fw other default).loaded then reject s stWrongState
    else okay ((s.modSec (fun k => { k with trialPending := other != k.preferred })).fwEvent 1 other (s.fwVersion other))
  | 1 =>
    if !s.sec.trialRunning then reject s stWrongState
    else
      let goal := max s.sec.rollback (min 64 (nth s.sec.fw s.sec.running default).rollback)
      let reached := if c.facts.progOk then goal else min goal (s.sec.rollback + rd c.facts.random 0 1)
      let s1 := (s.modSec (fun k => { k with preferred := k.running, trialRunning := false, rollback := reached })).fwEvent 2 s.sec.running
        (s.fwVersion s.sec.running)
      if c.facts.progOk then okay s1 else reject s1 stFuseFail
  | _ => reject s stBadArg

/-- TRIAL_BOOT_TIMEOUT (R490): a trial that has not reached BOOT_STATE 4 after 5 s is reset, and the next boot takes the slot before it. -/
def State.trialTimeout (s : State) : State :=
  if s.sec.trialRunning && decide (s.sys.bootState < 4) && !s.pwr.inReset && decide (s.sec.trialSince + 5 * ticksPerSecond ≤ s.now) then s.watchdog else s

/-! ### Sessions and rights (R492, R493) -/

/-- A SESSION that is not zero and not in use, from a random number on. -/
def State.newSession (s : State) (r : Nat) : Nat :=
  (((List.range 18).map (fun k => (r + k) % 2 ^ 32)).find? (fun n => n != 0 && (s.session? n).isNone)).getD 1

/-- `sec.session_open`; the keys and the signature are what the key engine derived. -/
def secSessionOpen : Handler := fun c s =>
  let t := readToken (c.arg.drop 100)
  if s.sec.lifecycle = 0 then reject s stDenied
  else if !t.wellFormed then reject s stBadArg
  else if 16 ≤ s.sec.sessions.length then reject s stNoResource
  else
    let id := s.newSession (rd c.facts.random 0 4)
    let rights := rd t.arg 0 1
    let made : Session := ⟨id, rights, s.elapsed + t.duration, none, 0, fit 72 (c.facts.keyBytes.drop 193)⟩
    let act := okWith ((s.modSec (fun k => { k with sessions := k.sessions ++ [made] })).raiseNow 0x0E04 sevInfo srcMss (u32 id ++ u8 0 ++ u8 rights) none)
      (u32 id ++ fit 97 c.facts.keyBytes ++ zeros 3 ++ fit 96 (c.facts.keyBytes.drop 97))
    s.withToken 0x0E07 5 (if s.sec.lifecycle = 1 then [0] else [0, 1]) t c act

/-- A session ends: closed or expired. -/
def State.endSession (s : State) (id state : Nat) : State :=
  (s.sessionsEnded (s.sec.sessions.filter (fun e => e.id == id)) state).modSec (fun k => { k with sessions := k.sessions.filter (fun e => e.id != id) })

/-- `sec.session_close`. -/
def secSessionClose : Handler := fun c s =>
  let id := rd c.arg 0 4
  if (s.session? id).isNone then reject s stWrongState else okay (s.endSession id 1)

/-- SESSION_EXPIRY. -/
def State.sessionExpiry (s : State) (id : Nat) : State :=
  match s.session? id with
  | some e => if e.expiry ≤ s.elapsed then s.endSession id 2 else s
  | none => s

/-- `sec.rights` (R492). -/
def secRights : Handler := fun c s =>
  let t := readToken c.arg
  if !t.wellFormed then reject s stBadArg
  else s.withToken 0x0E09 6 [0] t c (okay (s.modSys (fun y => { y with boot := { y.boot with pcieRights := rd t.arg 0 1 } })))

/-- `sec.status` (Table 16.15). -/
def secStatus : Handler := fun _ s =>
  let k := s.sec
  let loaded := fun (n : Nat) => (nth k.fw n default).loaded
  let rights := if k.lifecycle = 0 then 0x3F else s.sys.boot.pcieRights
  okWith s (u8 k.lifecycle ++ u8 (s.newestOwner.getD 0xFF) ++ u8 k.rollback ++
    u8 (k.preferred + 4 * b2n k.trialPending + 8 * b2n (loaded 0) + 16 * b2n (loaded 1)) ++ u8 rights ++ u8 k.sessions.length ++ zeros 2 ++
    u32 (if k.lifecycle = 2 then k.serviceUntil - s.elapsed else 0) ++ u32 k.authFails ++ fit 97 s.build.identityKey ++ zeros 3 ++ fit 96 s.build.vendorSig)

/-! ### Debug levels (R502 to R506, Tables 16.9 to 16.13) -/

/-- Who may open a level in a lifecycle state: none not available, an empty list without a token (Table 16.12). -/
def debugSigners (lifecycle level : Nat) : Option (List Nat) :=
  match lifecycle, level with
  | 0, 3 => some [1]
  | 0, _ => some []
  | 1, 3 => none
  | 1, _ => some [0]
  | 2, 3 => some [1]
  | 2, _ => some [0, 1]
  | _, _ => some [1]

/-- A level the power state permits (Table 16.13), and D3 only with no line running and no stream attached (R504). -/
def State.debugFits (s : State) (level : Nat) : Bool :=
  match s.judgedPower, level with
  | 2, 3 => false
  | 3, 2 => false
  | 3, 3 => false
  | _, 3 => s.lines.all (fun r => r.st == 0) && s.streams.all Option.isNone
  | _, _ => true

/-- The level opens, in place of any other. -/
def State.openDebug (s : State) (level until_ : Nat) : State :=
  let s1 := s.raiseNow 0x0E05 sevNotice srcMss (u8 s.dbg.level ++ u8 level ++ u8 0) none
  let again := s.dbg.level == 3 && level != 3
  let s2 := { s1 with dbg := { s1.dbg with
    level := level, until_ := until_, cpcHalted := s1.dbg.cpcHalted && decide (2 ≤ level), cpcMem := if 2 ≤ level then s1.dbg.cpcMem else [] } }
  if again && s2.sys.resetPend.isNone then s2.modSys (fun y => { y with resetPend := some ⟨false, s.now, 1, none, none, false⟩ }) else s2

/-- `dbg.open`. -/
def dbgOpen : Handler := fun c s =>
  let t := readToken c.arg
  let level := rd t.arg 0 1
  match debugSigners s.sec.lifecycle level with
  | none => reject s stDenied
  | some signers =>
    if !s.debugFits level || (signers.isEmpty && c.eth.isSome) then reject s stDenied
    else if signers.isEmpty then
      if level < 1 || !((c.arg.take 60).all (fun x => x == 0) && (c.arg.drop 61).all (fun x => x == 0)) then reject s stBadArg else okay (s.openDebug level 0)
    else if !t.wellFormed then reject s stBadArg
    else s.withToken 0x0E0B 4 signers t c (okay (s.openDebug level (s.elapsed + t.duration)))

/-- `dbg.close`. -/
def dbgClose : Handler := fun _ s => if s.dbg.level = 0 then reject s stWrongState else okay (s.closeDebug 1)

/-- DEBUG_LEVEL_EXPIRY; a level opened without a token has no end. -/
def State.debugExpiry (s : State) : State :=
  if s.dbg.level ≠ 0 && s.dbg.until_ ≠ 0 && decide (s.dbg.until_ ≤ s.elapsed) then s.closeDebug 2 else s

/-- DBG_STATE (Table 16.11). -/
def State.dbgState (s : State) : Nat :=
  s.dbg.level + 4 * b2n (decide (2 ≤ s.dbg.level)) + 8 * b2n s.dbg.cpcHalted + 256 * ((s.dbg.until_ - s.elapsed) % 2 ^ 24)

/-! ### The windows (R434, Table 16.10) -/

/-- A device address lies in a page the firmware keeps private. -/
def State.privatePage (s : State) (a : Nat) : Bool := s.build.privatePages.contains (a / 2097152)

/-- One byte of DRAM through a window, zero where the window serves none. -/
def State.windowByte (s : State) (a : Nat) : Byte :=
  if s.usableBytes ≤ a || s.privatePage a || !s.mem.available then 0 else nth (s.dramRead a 1).1 0 0

/-- Some byte of a range lies where reads are denied. -/
def State.deniedRead (s : State) (a n : Nat) : Bool := s.mem.available && (List.range n).any (fun i => decide (s.usableBytes ≤ a + i) || s.privatePage (a + i))

def State.denyWindow (s : State) : State := { s with pcie := { s.pcie with winDenied := satAdd s.pcie.winDenied 1 } }

/-- WIN_BASE_WRITE: bits 63 to 21 are kept. -/
def State.winBaseWrite (s : State) (v : BitVec 64) : State := { s with pcie := { s.pcie with winBase := v.toNat / 2097152 * 2097152 } }

/-- BAR2_WINDOW_READ: the completion's data, poisoned when a byte of it is uncorrectable. -/
def State.barRead (s : State) (offset n : Nat) : State :=
  let a := s.pcie.winBase + offset
  let s1 := if s.deniedRead a n then s.denyWindow else s
  let bad := (s.dramRead a n).2.any (fun b => decide (64 * b < s.usableBytes) && !s.privatePage (64 * b))
  let s2 := if bad && s.mem.available then (s1.readBy 4 a n).1 else s1
  s2.emit1 (.busRead ((List.range n).map (fun i => s.windowByte (a + i))) (bad && s.mem.available))

/-- BAR2_WINDOW_WRITE: only the job region takes it. -/
def State.barWrite (s : State) (offset : Nat) (data : List Byte) : State :=
  let a := s.pcie.winBase + offset
  if jobRegionBase ≤ a && decide (a + data.length ≤ jobRegionEnd) && s.mem.available then s.dramWrite a data else s.denyWindow

/-- One byte of the debug window as the open level lets it be read. -/
def State.debugByte (s : State) (o : Nat) : Byte :=
  let lvl := s.dbg.level
  if o < 4 then BitVec.ofNat 8 (s.dbgState / 256 ^ o)
  else if 0x10000 ≤ o && o < 0x30000 then if 1 ≤ lvl && decide (s.pwr.st ≠ 3) then Config.traceByte s.free o else 0
  else if 0x30000 ≤ o && o < 0x40000 then if 1 ≤ lvl then Config.traceByte s.free o else 0
  else if 0x100000 ≤ o && o < 0x200000 then
    if lvl < 2 then 0
    else match s.dbg.cpcMem.find? (fun e => e.1 == o - 0x100000) with
      | some e => e.2
      | none => Config.cpcByte (if s.dbg.cpcHalted then s.dbg.cpcEpoch else s.free) (o - 0x100000)
  else if 0x400000 ≤ o && o < 0x800000 then
    if lvl < 2 || s.pwr.st = 2 then 0 else s.windowByte (s.pcie.winBase + (o - 0x400000))
  else 0

/-- One byte written to the debug window. -/
def State.debugPoke (s : State) (o : Nat) (v : Byte) : State :=
  if s.dbg.level < 2 then s
  else if 0x100000 ≤ o && o < 0x200000 then
    if s.dbg.cpcHalted then
      { s with dbg := { s.dbg with cpcMem := s.dbg.cpcMem.filter (fun e => e.1 != o - 0x100000) ++ [(o - 0x100000, v)] } }
    else s
  else if 0x400000 ≤ o && o < 0x800000 then
    let a := s.pcie.winBase + (o - 0x400000)
    if s.pwr.st = 2 || s.usableBytes ≤ a || s.privatePage a || !s.mem.available then s else s.dramWrite a [v]
  else s

/-- DEBUG_WINDOW_ACCESS: a read answers as many bytes as its data field is long. -/
def State.debugAccess (s : State) (o : Nat) (write : Bool) (data : List Byte) : State :=
  if write then data.zipIdx.foldl (fun s e => s.debugPoke (o + e.2) e.1) s
  else { s.emit1 (.busRead ((List.range data.length).map (fun i => s.debugByte (o + i))) false) with free := s.free + 1 }

/-! ### JTAG (Table 16.9, R503) -/

/-- The debug level an instruction needs. -/
def jtagLevel : JtagOp → Nat
  | .bypass => 0
  | .idcode => 0
  | .sample => 1
  | .haltCpc => 2
  | .stepCpc => 2
  | .resumeCpc => 2
  | .scan => 3
  | .bist => 3
  | .extest => 3
  | .vendorPrivate => 3

/-- The CPC halts: its memory holds still from now on. -/
def State.haltCpc (s : State) : State :=
  if s.dbg.cpcHalted then s else { s with dbg := { s.dbg with cpcHalted := true, cpcMem := [], cpcEpoch := s.free }, free := s.free + 1 }

/-- The CPC executes: what its memory holds afterwards is open. -/
def State.runCpc (s : State) (halted : Bool) : State := { s with dbg := { s.dbg with cpcHalted := halted, cpcMem := [], cpcEpoch := s.free }, free := s.free + 1 }

/-- JTAG_INSTRUCTION under the open level; one the level does not grant acts as BYPASS. Scan and BIST stop the CPC with the logic they take over;
EXTEST drives the pads, and no rule gives it an effect inside (DEDUCED). -/
def State.jtag (s : State) (op : JtagOp) : State :=
  if s.dbg.level < jtagLevel op then s
  else match op with
    | .bypass => s
    | .idcode => s.emit1 (.jtag Config.idcode)
    | .sample => s
    | .haltCpc => s.haltCpc
    | .stepCpc => if s.dbg.cpcHalted then s.runCpc true else s
    | .resumeCpc => if s.dbg.cpcHalted then s.runCpc false else s
    | .scan => s.haltCpc
    | .bist => s.haltCpc
    | .extest => s
    | .vendorPrivate => s

end Sys2Proof.Machine
end

