-- ==== Sys2Proof/Machine/Power.lean ====
section
/-! DEFINITION. Power states (R495 to R501, R506): TRIM, entry into and exit from P2 and P3. -/

namespace Sys2Proof.Machine

/-- EV_PWR_STATE (Table 16.17). -/
def State.powerEvent (s : State) (old new_ : Nat) : State :=
  if old = new_ then s else s.raiseNow 0x0E06 sevInfo srcDevice (u8 old ++ u8 new_ ++ u16 s.sys.boot.kept) none

def State.setPower (s : State) (v : Nat) : State := { s with pwr := { s.pwr with st := v } }
def State.setTransition (s : State) (p : Option PwrPend) : State := { s with pwr := { s.pwr with pend := p } }
def State.setKept (s : State) (m : Nat) : State := s.modSys (fun y => { y with boot := { y.boot with kept := m } })

/-- TRIM is set or cleared; in P0 and P1 the device is in the one it names (R496). -/
def State.setTrim (s : State) (trim : Bool) : State :=
  let s1 := s.modSys (fun y => { y with boot := { y.boot with trim := trim } })
  if s.pwr.st < 2 then (s1.setPower (b2n trim)).powerEvent s.pwr.st (b2n trim) else s1

/-- `pwr.config`. -/
def pwrConfig : Handler := fun c s => okay (s.setTrim (bit (rd c.arg 0 1) 0))

/-- `pwr.state` (R495, R497, R506): ST_OK for the present state and between P0 and P1; otherwise the transition begins. -/
def pwrState : Handler := fun c s =>
  let target := rd c.arg 0 1
  if 3 < target then reject s stBadArg
  else if s.pwr.pend.isSome then reject s stBusy
  else if s.pwr.st = 3 && target == 2 then reject s stWrongState
  else if target = s.pwr.st then okay s
  else if s.pwr.st < 2 && decide (target < 2) then okay (s.setTrim (target == 1))
  else
    let r := pendWith s c 0x0E0E [0] none
    let p : PwrPend := ⟨target, bit (rd c.arg 1 1) 0, c.mb, c.seq, 0⟩
    let s1 := r.2.setTransition (some p)
    if target < 2 then (r.1, s1)
    else if s.pwr.st < 2 then (r.1, (s1.setKept (maskOf s.runningLines)).ownStop 0 (c.at_ s))
    else (r.1, s1.flushDie)

/-- The pending `pwr.state` is answered with EV_APPLIED. -/
def State.powerApplied (s : State) (status : Nat) : State :=
  match s.pendOp 0x0E0E with
  | some p => (s.dropOp 0x0E0E).applied p srcDevice (s.effStamp s.now none) s.now status
  | none => s

/-- P2 begins (Table 16.8 step 5): thermal intervals and the conversion in progress end, quads sleep, every channel refreshes itself. -/
def State.enterP2 (s : State) : State :=
  let s1 := s.thermHalt.refHalt
  let s2 := (List.range 17).foldl (fun s q => s.sleepQuad q s.now) s1
  let s3 := s2.channels.foldl (fun s c => s.modChan c (fun x => if x.st = 0 then { x with st := 1, srEntries := satAdd x.srEntries 1 } else x)) s2
  ((s3.setTransition none).setPower 2).powerEvent s.pwr.st 2

/-- P2_ENTERED: with the stops and drains over EV_APPLIED is queued, and once ctx 0 has drained P2 begins. -/
def State.p2Entered (s : State) : State :=
  match s.pwr.pend with
  | some p =>
    if p.target ≠ 2 || !s.stopsDone then s
    else
      let s1 := if p.stage = 0 then (s.powerApplied stOk).setTransition (some { p with stage := 1 }) else s
      if s1.ctx0Drained false then s1.enterP2 else s1
  | none => s

/-- The kept set starts again, each line at its first grid launch for which its quad can be ready; without RESUME it is cleared (R499). -/
def State.resumeKept (s : State) (resume : Bool) : State :=
  if resume then s.ownStart ((maskList 16 s.sys.boot.kept).filter s.mayStart) else s.setKept 0

/-- P2_EXIT (R499): channels leave self-refresh, events and streams flow again, EV_APPLIED is raised. -/
def State.p2Exit (s : State) : State :=
  match s.pwr.pend with
  | some p =>
    if s.pwr.st ≠ 2 || 2 ≤ p.target then s
    else
      let s1 := s.flushDie.modSys (fun y => { y with boot := { y.boot with trim := p.target == 1 } })
      let s2 := (s1.setTransition none).setPower p.target
      let s3 := s2.channels.foldl (fun s c => s.modChan c (fun x => if x.st = 1 then { x with st := 0, lastReq := s.now, srAfter := if s.cfg.mem.idleSr then some s.cfg.mem.idleSrUs else none } else x)) s2
      let s4 := (List.range 17).foldl (fun s q => if (s.quadOf q).held then s.wakeQuad q s.lateReady else s) s3.refResume
      let s5 := s4.health.macros.foldl (fun s e => s.sramBegin e.1) s4
      ((s5.powerApplied stOk).powerEvent 2 p.target).resumeKept p.resume
  | none => s

/-- What of an entry into P3 is due: with the stops over, every stream but that of ctx 0 is detached in drain form (R500 step 1). -/
def State.powerAdvance (s : State) : State :=
  match s.pwr.pend with
  | some p => if p.target = 3 && p.stage == 0 && s.stopsDone then (s.ownDetach 0).setTransition (some { p with stage := 1 }) else s
  | none => s

/-- The rest image holds the settings in force (R500 step 2). -/
def State.writeRest (s : State) : State :=
  let image := s.capture 0 0 s.sys.boot.kept
  s.modSys (fun y => { y with rest := image })

/-- P3_ENTERED: the rest image is written, or the device stays in P2; EV_APPLIED is raised, and once ctx 0 has drained all but the always-on domain
loses power. -/
def State.p3Entered (s : State) (norOk : Bool) : State :=
  let s0 := s.powerAdvance
  match s0.pwr.pend with
  | some p =>
    if p.target ≠ 3 then s0
    else if p.stage = 1 then
      if !s0.otherStreams.isEmpty || s0.norHeld then s0
      else if !norOk then
        let s1 := s0.powerApplied stNorFail
        if s1.pwr.st = 2 then s1.setTransition none else s1.enterP2
      else
        let s1 := ((s0.writeRest.powerApplied stOk).powerEvent s0.pwr.st 3).setTransition (some { p with stage := 2 })
        if s1.ctx0Drained true then s1.closeSessions.closeDebug 3 |>.powerOff else s1
    else if p.stage = 2 && s0.ctx0Drained true then s0.closeSessions.closeDebug 3 |>.powerOff
    else s0
  | none => s0

/-- The firmware a P3 exit starts: the running slot when it verifies, else the other (R501, R488). -/
def State.wakeFw (s : State) (ok : Nat → Bool) : State × Bool :=
  let n := s.sec.running
  if s.bootable n (ok n) then (s, true)
  else
    let s1 := s.fwEvent 3 n (s.fwVersion n)
    if s1.bootable (1 - n) (ok (1 - n)) then (s1.modSec (fun k => { k with running := 1 - n }), true)
    else (s1.modSys (fun y => { y with bootState := 7 }), false)

/-- The time base resumes its second count with HOLDOVER set until its source is regained (R501). -/
def State.wakeTime (s : State) : State :=
  let s1 := s.modTb (fun b => { b with
    synthLocked := b.refclk, ppsLocked := false, ppsAcq := [], ppsLast := none, ptpValid := false, measureNew := false, ptp := PtpRun.reset, trailLocked := false, regained := false })
  match changeCause s.cfg.tb.source false false with
  | some cause => s1.enterHoldover cause
  | none => s1

/-- P3_EXIT (R501): firmware, DRAM, and the settings of the rest image; an invalid one makes it a restore under R472 with NO_RESUME. -/
def State.p3Exit (s : State) (kernelSigs : Nat) (boot : BootFacts) (cached : Bool) (ms : Nat) (failed : List Nat) : State :=
  match s.pwr.pend with
  | some p =>
    if s.pwr.st ≠ 3 || 2 ≤ p.target then s
    else
      let w := ((s.setTransition none).setPower p.target).wakeFw (fun n => if n = 0 then boot.slotAOk else boot.slotBOk)
      let s1 := w.1.modSys (fun y => { y with boot := { y.boot with trim := p.target == 1 } })
      if !w.2 then s1
      else
        let good := s1.sys.rest.valid && !s1.sec.secretErased
        let b := if good then s1.sys.rest else s1.bankContent s1.restoreBank
        let s2 := ((s1.wakeTime).trainDram b.image.mem.mask cached ms failed []).applyRetirements
        let s3 := s2.restoreCfg b.image (good || decide (s2.restoreBank < 2)) (good && p.resume) kernelSigs
        let s4 := if good then s3 else (s3.modSys (fun y => { y with restoreSource := s2.restoreBank, generation := b.generation })).bootEvent s2.restoreBank
          b.generation 0
        ((s4.powerApplied stOk).powerEvent 3 p.target).resumeKept (good && p.resume)
  | none => s

/-- What waits for stops and detaches goes on when one of them ends. -/
def State.advance (s : State) : State := s.powerAdvance.shutdownAdvance

/-- `pwr.status`; PRESENT_MW is a measurement and a free value. -/
def pwrStatus : Handler := fun _ s =>
  let target := match s.pwr.pend with | some p => p.target | none => s.pwr.st
  okWith { s with free := s.free + 1 } (u8 s.pwr.st ++ u8 target ++ u16 s.sys.boot.kept ++ u32 (Config.supplyPower s.free))

end Sys2Proof.Machine
end

