-- ==== Sys2Proof/Machine/Registers.lean ====
section
/-! DEFINITION. Host writes to registers (R416, R433, R434, R450) and the SMBus target (R554, R563, R564). -/

namespace Sys2Proof.Machine

/-- The number `v` with its `k`-th byte replaced. -/
def setByte (v k : Nat) (b : Byte) : Nat := setField v (8 * k) 8 b.toNat

/-- One byte written into a mailbox's control block (Table 15.1). GO is the doorbell's own. -/
def Mailbox.poke (m : Mailbox) (o : Nat) (b : Byte) : Mailbox :=
  if o = 0x08 then { m with done := m.done && !bit b.toNat 2 }
  else if 0x10 ≤ o && o < 0x18 then { m with cmdAddr := BitVec.ofNat 64 (setByte m.cmdAddr.toNat (o - 0x10) b) }
  else if 0x18 ≤ o && o < 0x20 then { m with rspAddr := BitVec.ofNat 64 (setByte m.rspAddr.toNat (o - 0x18) b) }
  else if o = 0x20 then { m with vector := b.toNat % 64 }
  else if o = 0x21 then { m with irqEn := bit b.toNat 0 }
  else m

/-- One byte written into a vector's moderation register (Table 14.7). -/
def Vector.pokeModeration (v : Vector) (o : Nat) (b : Byte) : Vector :=
  match o with
  | 0 => { v with maxDelay := setByte v.maxDelay 0 b }
  | 1 => { v with maxDelay := setByte v.maxDelay 1 (b &&& 3) }
  | 2 => { v with count := b.toNat }
  | 4 => { v with minGap := setByte v.minGap 0 b }
  | 5 => { v with minGap := setByte v.minGap 1 (b &&& 3) }
  | _ => v

/-- One byte written into a vector's entry of the MSI-X table: address, data, and the mask bit. -/
def Vector.pokeTable (v : Vector) (o : Nat) (b : Byte) : Vector :=
  if o < 8 then { v with addr := setByte v.addr o b }
  else if o < 12 then { v with data := setByte v.data (o - 8) b }
  else if o = 12 then { v with masked := bit b.toNat 0 }
  else v

/-- One byte written at a BAR0 offset. -/
def State.pokeByte (s : State) (a : Nat) (b : Byte) : State :=
  if 0x10000 ≤ a && a < 0x20000 then
    let n := (a - 0x10000) / 0x2000
    let o := (a - 0x10000) % 0x2000
    if o < 0x1000 then s.modMb n (fun m => { m with cmdArea := sset 0#8 m.cmdArea o b })
    else s.modMb n (fun m => { m with rspArea := sset 0#8 m.rspArea (o - 0x1000) b })
  else if 0x20000 ≤ a && a < 0x20200 then s.modMb ((a - 0x20000) / 0x40) (fun m => m.poke ((a - 0x20000) % 0x40) b)
  else if 0x110000 ≤ a && a < 0x110008 then s.winBaseWrite (BitVec.ofNat 64 (setByte s.pcie.winBase (a - 0x110000) b))
  else if 0x200000 ≤ a && a < 0x200400 then s.modVector ((a - 0x200000) / 16) (fun v => v.pokeTable ((a - 0x200000) % 16) b)
  else if 0x202000 ≤ a && a < 0x202200 then s.modVector ((a - 0x202000) / 8) (fun v => v.pokeModeration ((a - 0x202000) % 8) b)
  else s

/-- REGISTER_WRITE: offsets that no table lists ignore it; a write of a context's POSTED register is its doorbell. -/
def State.registerWrite (s : State) (a : Nat) (data : List Byte) : State :=
  if 0x100000 ≤ a && a < 0x110000 then
    if a % 256 = 0 && 4 ≤ data.length then s.doorbell ((a - 0x100000) / 256) (BitVec.ofNat 32 (rd data 0 4)) else s
  else data.zipIdx.foldl (fun s e => s.pokeByte (a + e.2) e.1) s

/-- MB_DONE_CLEAR. -/
def State.clearDone (s : State) (n : Nat) : State := s.modMb n (fun m => m.poke 0x08 4)

/-- SMB_LTUNE_WRITE, by command code 0x05 or 0x06 (Table 18.13); other codes are not acknowledged. -/
def State.ltuneWrite (s : State) (reg : Nat) (code : BitVec 16) : State :=
  if s.pwr.railsUp && (reg == 5 || reg == 6) then { s with ltune := s.ltune.set (reg - 5) code } else s

/-- SMB_ALERT_RESPONSE (R563): the target answers with its address and releases the line. -/
def State.alertResponse (s : State) : State :=
  if s.health.smbAlert then (s.modHealth (fun h => { h with smbAlert := false })).emit1 (.smbAlert s.build.smbAddr) else s

/-- The registers of the SMBus target (Table 18.13), by command code; none is not acknowledged. -/
def State.smbRead (s : State) (reg : Nat) : Option (List Byte) :=
  match reg with
  | 0 => some (u32 0x36315A44)
  | 1 => some (u8 (s.sys.bootState + 16 * s.pwr.st + 64 * b2n s.panel.pins.fault + 128 * b2n s.emit.level))
  | 2 => some (leBytesS 2 ((s.health.thermal.map Sensor.value).foldl max (-32768)))
  | 3 => some (s.health.thermal.flatMap (fun x => leBytesS 2 x.value))
  | 4 => some (s.health.rails.flatMap (fun x => leBytesS 2 x.value))
  | 5 => some (u16 (nth s.ltune 0 0).toNat)
  | 6 => some (u16 (nth s.ltune 1 0).toNat)
  | 7 => some (u16 s.noSpareCount)
  | 8 => some (u32 s.sys.heartbeat)
  | _ => none

/-! ### What the host reads in BAR0 -/

/-- A mailbox's control block (Table 15.1). -/
def Mailbox.block (m : Mailbox) : List Byte :=
  u32 0 ++ u32 0 ++ u32 (m.st + 4 * b2n m.done) ++ u32 0 ++ u64 m.cmdAddr.toNat ++ u64 m.rspAddr.toNat ++ u32 (m.vector + 256 * b2n m.irqEn)

/-- A context's register block (Table 14.2). -/
def Ctx.block (c : Ctx) : List Byte :=
  u32 (c.postedIdx + 65536 * b2n c.postedWrap) ++ u32 (c.doneIdx + 65536 * b2n c.doneWrap) ++
    u32 (c.st + 256 * (if c.st = 4 then c.cause else 0)) ++ u32 0 ++ u64 c.failAddr ++
    u32 (c.failDesc + 65536 * b2n c.failWrite + 131072 * b2n c.failDev)

/-- A vector's entry of the MSI-X table, and its moderation register (Table 14.7). -/
def Vector.entry (v : Vector) : List Byte := u64 v.addr ++ u32 v.data ++ u32 (b2n v.masked)
def Vector.moderation (v : Vector) : List Byte := u16 v.maxDelay ++ u8 v.count ++ u8 0 ++ u16 v.minGap ++ u16 0

/-- The pending bits: the masked vectors that hold a cause (R433). -/
def State.pendingBits (s : State) : List Byte := u64 (maskOf ((List.range 64).filter (fun n => (nth s.vectors n default).masked && !(nth s.vectors n default).causes.isEmpty)))

/-- The byte the host reads at a BAR0 offset, outside the debug window: the identity page (R468), the mailboxes' areas and control blocks (R450), the
contexts' blocks (R416), WIN_BASE (R434), MSI-X (R433), the status mirror (R469) and the zone mirror (R355). What no table lists reads zero; a
doorbell's GO reads zero. -/
def State.bar0Byte (s : State) (a : Nat) : Byte :=
  let at_ := fun (l : List Byte) (i : Nat) => nth l i 0#8
  if a < 0x1000 then at_ s.identityBytes a
  else if 0x10000 ≤ a && a < 0x20000 then
    let m := s.mbOf ((a - 0x10000) / 0x2000)
    let o := (a - 0x10000) % 0x2000
    if o < 0x1000 then sget 0#8 m.cmdArea o else sget 0#8 m.rspArea (o - 0x1000)
  else if 0x20000 ≤ a && a < 0x20200 then at_ (s.mbOf ((a - 0x20000) / 0x40)).block ((a - 0x20000) % 0x40)
  else if 0x100000 ≤ a && a < 0x110000 then at_ (s.ctxOf ((a - 0x100000) / 256)).block (a % 256)
  else if 0x110000 ≤ a && a < 0x110008 then at_ (u64 s.pcie.winBase) (a - 0x110000)
  else if 0x200000 ≤ a && a < 0x200400 then at_ (nth s.vectors ((a - 0x200000) / 16) default).entry (a % 16)
  else if 0x201000 ≤ a && a < 0x201008 then at_ s.pendingBits (a - 0x201000)
  else if 0x202000 ≤ a && a < 0x202200 then at_ (nth s.vectors ((a - 0x202000) / 8) default).moderation (a % 8)
  else if 0x300000 ≤ a && a < 0x300400 then at_ (s.mirrorEntry ((a - 0x300000) / 64)) (a % 64)
  else if 0x400000 ≤ a && a < 0x400000 + 16 * s.zones.length then at_ (s.zoneOf ((a - 0x400000) / 16)).entry (a % 16)
  else 0#8

end Sys2Proof.Machine
end

