-- ==== Sys2Proof/Machine/Mailbox.lean ====
section
/-! DEFINITION. Which command an opcode names (Table 15.4), doorbells (R451, R452), and the mailbox frames of Ethernet (R445, R453). -/

namespace Sys2Proof.Machine

/-- `felt.resize`; a line formatted by it begins its trigger windows anew, and holds of rows that are gone break (R179, R260). -/
def feltResizeAll : Handler := fun c s =>
  let r := feltResize c s
  (r.1, (maskList 16 (rd c.arg 0 2)).foldl (fun t l =>
    (if (s.feltOf l).fsn ≠ 0 && (t.feltOf l).fsn == 0 then t.trigFormat l else t).sweepHolds l) r.2)

def unknownOp : Handler := fun _ s => reject s stBadOpcode

def groupSys : Nat → Handler
  | 1 => sysIdentify
  | 2 => sysSnapshot
  | 3 => sysRestore
  | 4 => sysShutdown
  | 5 => sysReset
  | 6 => sysTime
  | 7 => sysStatus
  | 8 => sysEvents
  | _ => unknownOp

def groupPlan : Nat → Handler
  | 1 => planDefine
  | 2 => planApply
  | 3 => planTimeline
  | 4 => probeConfig
  | 5 => probeLoad
  | 6 => planGateLimit
  | 7 => planSpot
  | 8 => planStatus
  | _ => unknownOp

def groupRx : Nat → Handler
  | 1 => rxConfig
  | 2 => rxRefConfig
  | 3 => rxHold
  | 4 => rxStatus
  | 5 => calConfig
  | 6 => calStatus
  | 7 => calRead
  | _ => unknownOp

def groupLine : Nat → Handler
  | 1 => lineConfig
  | 2 => lineStart
  | 3 => lineStop
  | 4 => lineStatus
  | 5 => lineReadState
  | _ => unknownOp

def groupFelt : Nat → Handler
  | 1 => feltResizeAll
  | 2 => feltReader
  | 3 => feltStatus
  | 4 => slowConfig
  | 5 => slowStart
  | 6 => slowStop
  | 7 => slowStatus
  | _ => unknownOp

def groupTile : Nat → Handler
  | 1 => tileKernelLoad
  | 2 => tileKernelUnload
  | 3 => tileRun
  | 4 => tileStatus
  | _ => unknownOp

def groupTrig : Nat → Handler
  | 1 => trigDefine
  | 2 => trigArm
  | 3 => trigRebase
  | 4 => trigOut
  | 5 => trigStatus
  | 6 => capConfig
  | 7 => capRawArm
  | 8 => capRawStop
  | 9 => capForce
  | 10 => capList
  | 11 => capRelease
  | 12 => capStatus
  | _ => unknownOp

def groupTime : Nat → Handler
  | 1 => tbConfig
  | 2 => tbStatus
  | 3 => tiuMeasure
  | 4 => tiuLaunchZero
  | 5 => tiuStatus
  | 6 => trailConfig
  | 7 => trailStatus
  | _ => unknownOp

def groupTherm : Nat → Handler
  | 1 => thermConfig
  | 2 => thermRoute
  | 3 => thermStatus
  | 4 => refConfig
  | 5 => refScan
  | 6 => refUrgent
  | 7 => refStatus
  | _ => unknownOp

def groupZone : Nat → Handler
  | 1 => zoneDefine
  | 2 => zoneAck
  | 3 => zoneStatus
  | 4 => panelPins
  | 5 => panelZout
  | 6 => panelStatus
  | _ => unknownOp

def groupBale : Nat → Handler
  | 1 => baleProfile
  | 2 => baleRun
  | 3 => baleResume
  | 4 => baleCancel
  | 5 => baleStatus
  | _ => unknownOp

def groupMem : Nat → Handler
  | 1 => memConfig
  | 2 => memStatus
  | 3 => memRemaps
  | _ => unknownOp

def groupDma : Nat → Handler
  | 1 => dmaConfig
  | 2 => dmaResume
  | 3 => dmaAbort
  | 4 => dmaLink
  | 5 => dmaPort
  | 6 => streamDefine
  | 7 => streamAttach
  | 8 => streamDetach
  | 9 => dmaStatus
  | _ => unknownOp

def groupSec : Nat → Handler
  | 1 => secChallenge
  | 2 => secEnroll
  | 3 => secService
  | 4 => secScrap
  | 5 => secFwLoad
  | 6 => secFwControl
  | 7 => secSessionOpen
  | 8 => secSessionClose
  | 9 => secRights
  | 10 => secStatus
  | 11 => dbgOpen
  | 12 => dbgClose
  | 13 => pwrConfig
  | 14 => pwrState
  | 15 => pwrStatus
  | _ => unknownOp

def groupHealth : Nat → Handler
  | 1 => healthStatus
  | 2 => healthUnits
  | 3 => healthTest
  | 4 => healthAccept
  | 5 => healthFuseRepair
  | 6 => healthResults
  | 7 => healthSensors
  | 8 => healthLimits
  | 9 => healthLogRead
  | _ => unknownOp

/-- The command of an opcode: its group and its number (Table 15.4). -/
def handlerOf (op : Nat) : Handler :=
  match op / 256 with
  | 0x01 => groupSys (op % 256)
  | 0x02 => groupPlan (op % 256)
  | 0x03 => groupRx (op % 256)
  | 0x04 => groupLine (op % 256)
  | 0x05 => groupFelt (op % 256)
  | 0x06 => groupTile (op % 256)
  | 0x07 => groupTrig (op % 256)
  | 0x08 => groupTime (op % 256)
  | 0x09 => groupTherm (op % 256)
  | 0x0A => groupZone (op % 256)
  | 0x0B => groupBale (op % 256)
  | 0x0C => groupMem (op % 256)
  | 0x0D => groupDma (op % 256)
  | 0x0E => groupSec (op % 256)
  | 0x0F => groupHealth (op % 256)
  | _ => unknownOp

/-- A command's header and payload as its bytes spell them (Table 15.2), and its opcode. -/
def readCmd (mb : Nat) (eth : Option (Nat × Nat)) (b : List Byte) (facts : Facts) : Nat × Cmd :=
  (rd b 0 2, ⟨mb, eth, rd b 2 2, rd b 4 2, rd b 6 2, BitVec.ofNat 96 (rd b 8 12), rd b 20 4, rd b 24 8, b.drop 32, facts⟩)

/-- The 4 096 bytes a mailbox's command is read from: the command area, or host memory at CMD_ADDR as fetched (R451). -/
def Mailbox.commandBytes (m : Mailbox) (fetched : List Byte) : List Byte :=
  if m.cmdAddr = 0#64 then sgetL 0#8 m.cmdArea 0 4096 else fit 4096 fetched

/-- The command a mailbox holds is read, validated and answered. -/
def State.runMailbox (s : State) (n : Nat) (fetched : List Byte) (facts : Facts) : State :=
  let r := readCmd n none ((s.mbOf n).commandBytes fetched) facts
  s.serve r.1 (handlerOf r.1) r.2

/-- MB_DOORBELL (R451, R452). -/
def State.mbDoorbell (s : State) (n : Nat) (fetched : List Byte) (facts : Facts) : State :=
  let m := s.mbOf n
  if 8 ≤ n then s
  else if m.held || m.st == 1 then s.modMb n (fun m => { m with ignored := satAdd m.ignored 1 })
  else if m.st = 3 then s.modMb n (fun m => { m with held := true })
  else if s.dbg.cpcHalted then s.modMb n (fun m => { m with held := true, st := 1 })
  else s.runMailbox n fetched facts

/-- HELD_DOORBELL_RUNS (R452): the device is ready, and the command is read only now. -/
def State.heldRuns (s : State) (n : Nat) (fetched : List Byte) (facts : Facts) : State :=
  let m := s.mbOf n
  if 8 ≤ n || !m.held || m.st == 3 || s.dbg.cpcHalted then s
  else (s.modMb n (fun m => { m with held := false })).runMailbox n fetched facts

/-- A mailbox frame is refused: discarded without response, counted and reported (R445, R449). -/
def State.frameRefused (s : State) (p sess reason : Nat) : State :=
  (s.modPort p (fun x => { x with authFails := satAdd x.authFails 1 })).raiseNow 0x0D05 sevNotice (srcPort p) (u32 sess ++ u8 reason) (some [])

/-- ETH_MAILBOX_FRAME (R445): `plain` is what the ciphertext decrypts to under the session's key, all zero for SESSION 0 (R494). -/
def State.mailboxFrame (s : State) (p : Nat) (f : List Byte) (tagOk : Bool) (plain : List Byte) (facts : Facts) : State :=
  if !(s.portCfg p).enabled || !(s.portRun p).up || 2 ≤ p then s
  else
    let mb := rd f 5 1
    let sess := rd f 8 4
    let counter := rd f 12 8
    if rd f 0 4 ≠ 0x464D4244 || rd f 4 1 ≠ 1 || 7 < mb || rd f 6 2 ≠ plain.length || f.length ≠ 36 + plain.length || plain.length < 32 then s.frameDropped p true
    else
      let s1 := s.modPort p (fun x => { x with framesRx := satAdd x.framesRx 1 })
      let known := sess == 0 || (s.session? sess).isSome
      let stale := match s.session? sess with | some e => (match e.rxCounter with | some k => decide (counter ≤ k) | none => false) | none => false
      if !known then s1.frameRefused p sess 2
      else if !tagOk then s1.frameRefused p sess 0
      else if sess ≠ 0 && stale then s1.frameRefused p sess 1
      else
        let s2 := s1.modSec (fun k => { k with sessions := k.sessions.map (fun (e : Session) => if e.id = sess then { e with rxCounter := some counter } else e) })
        let r := readCmd mb (some (p, sess)) plain facts
        s2.hostCommand r.1 (handlerOf r.1) r.2

/-- Where several rows are forms of one opcode, told apart by the payload byte at `off`: a payload that spells another row's form is this row's own;
a value that no row has stays and is judged by the command. -/
def asForm (c : Cmd) (off own : Nat) (others : List Nat) : Cmd :=
  { c with payload := if others.contains (rd c.arg off 1) then c.payload.set off (BitVec.ofNat 8 own) else c.payload }

end Sys2Proof.Machine
end

