-- ==== Sys2Proof/Machine/Counters.lean ====
section
/-! DEFINITION. Statistics counters that saturate (R526): where each lies in the response of its status command, and COUNTER_SATURATED. -/

namespace Sys2Proof.Machine

/-- What a status command answers for a selector. -/
def State.statusBody (s : State) (op sel : Nat) : List Byte :=
  match op with
  | 0x0107 => s.sysBody
  | 0x0208 => s.planCounters sel
  | 0x0304 => s.rxBody sel
  | 0x0306 => s.calBody sel
  | 0x0404 => s.lineBody sel
  | 0x0503 => s.feltBody sel
  | 0x0507 => s.slowBody sel
  | 0x0604 => s.tileBody
  | 0x0705 => s.trigBody sel
  | 0x070C => s.capBody
  | 0x0802 => s.tbBody
  | 0x0805 => s.tiuBody
  | 0x0807 => s.trailBody
  | 0x0903 => s.thermBody sel
  | 0x0907 => s.refBody
  | 0x0A03 => s.zoneBody sel
  | 0x0A06 => s.panelBody
  | 0x0B05 => s.baleBody
  | 0x0C02 => s.memBody
  | 0x0D09 => if sel < 256 then s.ctxBody sel else s.portBody (sel - 256)
  | 0x0E0A => (secStatus default s).1.body
  | 0x0F01 => s.healthBody
  | _ => []

/-- How many selectors a status command has; 1 for a device-wide one, whose selector is 0. -/
def statusSelectors (op : Nat) : Nat :=
  match op with
  | 0x0208 => 16
  | 0x0304 => 17
  | 0x0306 => 17
  | 0x0404 => 16
  | 0x0503 => 16
  | 0x0507 => 16
  | 0x0705 => 32
  | 0x0903 => 16
  | 0x0A03 => 256
  | 0x0D09 => 258
  | _ => 1

def stepsFrom (first step n : Nat) : List Nat := (List.range n).map (fun i => first + step * i)

/-- The offsets of the 32-bit saturating counters in a status response. -/
def counterOffsets (op sel : Nat) : List Nat :=
  match op with
  | 0x0107 => stepsFrom 0 4 10 ++ [44, 48]
  | 0x0208 => [0, 4, 8]
  | 0x0304 => stepsFrom 16 12 4 ++ stepsFrom 20 12 4 ++ [60]
  | 0x0306 => stepsFrom 8 4 7
  | 0x0404 => stepsFrom 16 4 8
  | 0x0503 => [44, 48]
  | 0x0507 => stepsFrom 4 4 4
  | 0x0604 => stepsFrom 108 4 3
  | 0x0705 => stepsFrom 0 4 6 ++ (if sel < 16 then [28, 32, 36] else [])
  | 0x070C => (List.range 4).flatMap (fun n => stepsFrom (28 + 16 * n) 4 3)
  | 0x0802 => stepsFrom 20 4 6
  | 0x0805 => stepsFrom 8 4 4
  | 0x0807 => stepsFrom 16 4 5
  | 0x0903 => stepsFrom 8 4 5
  | 0x0907 => [16, 20] ++ stepsFrom 24 4 16
  | 0x0A03 => [20, 24, 28]
  | 0x0A06 => [4, 8]
  | 0x0B05 => stepsFrom 8 4 5
  | 0x0C02 => stepsFrom 12 4 5 ++ (List.range 4).flatMap (fun c => stepsFrom (40 + 40 * c) 4 7)
  | 0x0D09 => if sel < 256 then stepsFrom 12 4 8 else stepsFrom 4 4 6
  | 0x0E0A => [12]
  | 0x0F01 => [56, 60, 64, 68, 80]
  | _ => []

/-- COUNTER_SATURATED (R526): EV_COUNTER_SATURATED once for a counter that stands at its end, until it is cleared. -/
def State.counterSaturated (s : State) (op off sel : Nat) : State :=
  if sel < statusSelectors op && (counterOffsets op sel).contains off && rd (s.statusBody op sel) off 4 == satMax &&
      !s.health.saturated.contains (op, off, sel) then
    (s.modHealth (fun h => { h with saturated := h.saturated ++ [(op, off, sel)] })).raiseNow 0x0F05 sevNotice srcDevice (u16 op ++ u16 off ++ u16 sel) none
  else s

end Sys2Proof.Machine
end

