-- ==== Sys2Proof/Machine/ExecBale.lean ====
section
/-! DEFINITION. Meanings: compression (chapter 12). Each is its row's effect in the shape of `finish`. -/

namespace Sys2Proof.Machine

/-- BALE_RELEASE (R365): A lane finishes a bale, verifies it and releases it. -/
def execBaleRelease (t lane : Nat) (stream : Bool) (ix : Nat) (firstDiff : Option Nat) (rawFails : Bool) (s : State) : Host.Outcome State Fault Refusal :=
  finish t s (fun s => s.runTiles.baleRelease lane stream ix firstDiff rawFails)

/-- BALE_NO_SPACE (R381): Output space runs out, the bale is cut and closed and the context suspends. -/
def execBaleNoSpace (t lane : Nat) (stream : Bool) (ix : Nat) (cut : BaleCut) (s : State) : Host.Outcome State Fault Refusal :=
  finish t s (fun s => s.runTiles.baleNoSpace lane stream ix cut.room cut.firstDiff cut.rawFails)

/-- BALE_PROFILE (R385): Defines, replaces or removes a bale profile. -/
def execBaleProfile (t : Nat) (c : Cmd) (s : State) : Host.Outcome State Fault Refusal := finish t s (fun s => s.hostCommand 0x0B01 baleProfile c)

/-- BALE_RUN_ENCODE (R386): Queues a host encode job. -/
def execBaleRunEncode (t : Nat) (c : Cmd) (s : State) : Host.Outcome State Fault Refusal :=
  finish t s (fun s => s.hostCommand 0x0B02 baleRun (asForm c 1 0 [1]))

/-- BALE_RUN_DECODE (R386): Queues a host decode job. -/
def execBaleRunDecode (t : Nat) (c : Cmd) (s : State) : Host.Outcome State Fault Refusal :=
  finish t s (fun s => s.hostCommand 0x0B02 baleRun (asForm c 1 1 [0]))

/-- BALE_JOB_DONE (R386): A host bale job ends and EV_BALE_DONE reports its status. -/
def execBaleJobDone (t job : Nat) (s : State) : Host.Outcome State Fault Refusal := finish t s (fun s => s.runTiles.baleJobDone job)

/-- BALE_RESUME (R382): Continues a job stopped for space into a new output space. -/
def execBaleResume (t : Nat) (c : Cmd) (s : State) : Host.Outcome State Fault Refusal := finish t s (fun s => s.hostCommand 0x0B03 baleResume c)

/-- BALE_CANCEL (R387): Discards a job and its context. -/
def execBaleCancel (t : Nat) (c : Cmd) (s : State) : Host.Outcome State Fault Refusal := finish t s (fun s => s.hostCommand 0x0B04 baleCancel c)

/-- BALE_STATUS (R384): Returns lanes, contexts and counters. -/
def execBaleStatus (t : Nat) (c : Cmd) (s : State) : Host.Outcome State Fault Refusal := finish t s (fun s => s.hostCommand 0x0B05 baleStatus c)

end Sys2Proof.Machine
end

