-- ==== Sys2Proof/Machine/ExecBoot.lean ====
section
/-! DEFINITION. Meanings: supplies, reset and boot (chapters 13, 15 to 18). Each is its row's effect in the shape of `finish`. -/

namespace Sys2Proof.Machine

/-- PWR_WARN_RISE (R531): A qualified PWR_WARN suspends NOR operations and programs the power-loss record. -/
def execPwrWarnRise (t : Nat) (s : State) : Host.Outcome State Fault Refusal := finish t s (fun s => s.warnRise)

/-- PWR_WARN_CLEAR (R532): PWR_WARN low for 10 ms with rails valid clears the record and resumes NOR operations. -/
def execPwrWarnClear (t : Nat) (s : State) : Host.Outcome State Fault Refusal := finish t s (fun s => s.warnClear)

/-- POWER_LOSS (R533): Supply rails fall and the device loses its volatile state. -/
def execPowerLoss (t : Nat) (s : State) : Host.Outcome State Fault Refusal := finish t s (fun s => s.powerLoss)

/-- POWER_UP (R544): Rails come up and the MSS holds reset until they are in range for 1 ms. -/
def execPowerUp (t : Nat) (s : State) : Host.Outcome State Fault Refusal := finish t s (fun s => s.powerUp)

/-- RESET_N_LOW (R545): RESET_N held low for 10 us causes a full reset. -/
def execResetNLow (t lowNs : Nat) (s : State) : Host.Outcome State Fault Refusal := finish t s (fun s => s.resetPin lowNs)

/-- RELEASE_FROM_RESET (R474): The MSS starts, verifies firmware and starts the CPC. -/
def execReleaseFromReset (t : Nat) (boot : BootFacts) (s : State) : Host.Outcome State Fault Refusal := finish t s (fun s => s.release boot)

/-- DRAM_TRAINED (R390): Cached or full DRAM training completes and EV_MEM_TRAINED is recorded. -/
def execDramTrained (t : Nat) (cached : Bool) (durationMs : Nat) (found : Training) (s : State) : Host.Outcome State Fault Refusal :=
  finish t s (fun s => s.dramTrained cached durationMs found.failed found.changed)

/-- RESTORE_COMPLETE (R472): The retained configuration is restored and BOOT_STATE becomes 4. -/
def execRestoreComplete (t kernelSigs : Nat) (s : State) : Host.Outcome State Fault Refusal := finish t s (fun s => s.restoreComplete kernelSigs)

/-- RESUME_LINES_START (R473): Lines running at snapshot start after restore, time set or WAIT_S. -/
def execResumeLinesStart (t : Nat) (s : State) : Host.Outcome State Fault Refusal := finish t s (fun s => s.resumeLines)

end Sys2Proof.Machine
end

