-- ==== Sys2Proof/Machine/ExecDma.lean ====
section
/-! DEFINITION. Meanings: contexts, streams, links and events (chapters 14, 15). Each is its row's effect in the shape of `finish`. -/

namespace Sys2Proof.Machine

/-- DESCRIPTOR_COMPLETE (R421): A descriptor's data is all written and its completion is written back. -/
def execDescriptorComplete (t ctx : Nat) (desc data : List Byte) (s : State) : Host.Outcome State Fault Refusal :=
  finish t s (fun s => s.runTiles.process ctx desc data false)

/-- DMA_HALTED (R426): A failure halts a context and latches its details. -/
def execDmaHalted (t ctx cause failAddr : Nat) (dirWrite devSpace : Bool) (s : State) : Host.Outcome State Fault Refusal :=
  finish t s (fun s => s.dmaHalt ctx cause failAddr dirWrite devSpace)

/-- MSIX_MESSAGE (R433): A vector with pending causes sends its message under moderation. -/
def execMsixMessage (t vector : Nat) (s : State) : Host.Outcome State Fault Refusal := finish t s (fun s => s.msix vector)

/-- STREAM_RECORD_CLOSE (R437): A stream record closes on ITEMS_MAX, FLUSH_US or stop. -/
def execStreamRecordClose (t stream : Nat) (s : State) : Host.Outcome State Fault Refusal := finish t s (fun s => s.streamClose stream)

/-- BUFFER_FLUSH (R438): A kind-2 buffer is completed with FLUSHED when FLUSH_US passes. -/
def execBufferFlush (t ctx : Nat) (desc : List Byte) (s : State) : Host.Outcome State Fault Refusal :=
  finish t s (fun s => s.runTiles.process ctx desc [] true)

/-- STREAM_OVERRUN (R440): A source overwrites undelivered items and the stream writes ABORTED cause 0. -/
def execStreamOverrun (t stream : Nat) (s : State) : Host.Outcome State Fault Refusal := finish t s (fun s => s.streamOverrun stream)

/-- PCIE_LINK_RESET (R435): An FLR, hot reset, PERST_N or link loss aborts kinds 0 to 2 and resets window and moderation. -/
def execPcieLinkReset (t cause : Nat) (s : State) : Host.Outcome State Fault Refusal := finish t s (fun s => s.pcieReset cause)

/-- ETH_LINK_CHANGE (R448): An Ethernet port's link goes up or down. -/
def execEthLinkChange (t port : Nat) (up : Bool) (s : State) : Host.Outcome State Fault Refusal := finish t s (fun s => s.ethLink port up)

/-- ARP_REQUEST (R443): An ARP request for the device's address is answered. -/
def execArpRequest (t port : Nat) (ip : BitVec 32) (s : State) : Host.Outcome State Fault Refusal := finish t s (fun s => s.arp port ip)

/-- DMA_CONFIG (R447): Sets an idle context's kind and parameters. -/
def execDmaConfig (t : Nat) (c : Cmd) (s : State) : Host.Outcome State Fault Refusal := finish t s (fun s => s.hostCommand 0x0D01 dmaConfig c)

/-- DMA_RESUME (R428): Restarts a halted context in RETRY or SKIP mode. -/
def execDmaResume (t : Nat) (c : Cmd) (s : State) : Host.Outcome State Fault Refusal := finish t s (fun s => s.hostCommand 0x0D02 dmaResume c)

/-- DMA_ABORT (R429): Returns a context to idle. -/
def execDmaAbort (t : Nat) (c : Cmd) (s : State) : Host.Outcome State Fault Refusal := finish t s (fun s => s.hostCommand 0x0D03 dmaAbort c)

/-- DMA_LINK (R446): Sets the PCIe completion timeout. -/
def execDmaLink (t : Nat) (c : Cmd) (s : State) : Host.Outcome State Fault Refusal := finish t s (fun s => s.hostCommand 0x0D04 dmaLink c)

/-- DMA_PORT (R448): Configures an Ethernet port. -/
def execDmaPort (t : Nat) (c : Cmd) (s : State) : Host.Outcome State Fault Refusal := finish t s (fun s => s.hostCommand 0x0D05 dmaPort c)

/-- STREAM_DEFINE (R446): Defines or removes a stream. -/
def execStreamDefine (t : Nat) (c : Cmd) (s : State) : Host.Outcome State Fault Refusal := finish t s (fun s => s.hostCommand 0x0D06 streamDefine c)

/-- STREAM_ATTACH (R436): Attaches a stream to a context. -/
def execStreamAttach (t : Nat) (c : Cmd) (s : State) : Host.Outcome State Fault Refusal := finish t s (fun s => s.hostCommand 0x0D07 streamAttach c)

/-- STREAM_DETACH (R442): Detaches a stream, drain or immediate. -/
def execStreamDetach (t : Nat) (c : Cmd) (s : State) : Host.Outcome State Fault Refusal := finish t s (fun s => s.hostCommand 0x0D08 streamDetach c)

/-- STREAM_DETACHED (R442): The detach completes with an END record and EV_STREAM_DETACHED. -/
def execStreamDetached (t stream : Nat) (s : State) : Host.Outcome State Fault Refusal := finish t s (fun s => (s.streamDetached stream).advance)

/-- DMA_STATUS (R446): Returns a context's or port's state and counters. -/
def execDmaStatus (t : Nat) (c : Cmd) (s : State) : Host.Outcome State Fault Refusal := finish t s (fun s => s.hostCommand 0x0D09 dmaStatus c)

/-- EVENT_RELEASE (R465): An event record whose instant is HOLD_MS past is released to ctx 0. -/
def execEventRelease (t : Nat) (s : State) : Host.Outcome State Fault Refusal := finish t s (fun s => s.eventRelease)

/-- HEARTBEAT_TICK (R468): HEARTBEAT advances every 1 ms while the firmware runs. -/
def execHeartbeatTick (t : Nat) (s : State) : Host.Outcome State Fault Refusal := finish t s (fun s => s.heartbeat)

end Sys2Proof.Machine
end

