-- ==== Sys2Proof/Machine/ExecFelt.lean ====
section
/-! DEFINITION. Meanings: the felt and slow-time processing (chapter 6). Each is its row's effect in the shape of `finish`. -/

namespace Sys2Proof.Machine

/-- FELT_QUIRE_BEGIN (R185): The felt writer begins a quire slot, clipping overtaken readers and breaking covered holds. -/
def execFeltQuireBegin (t line : Nat) (s : State) : Host.Outcome State Fault Refusal := finish t s (fun s => s.quireBeginRow line)

/-- QUIRE_COMPLETE (R178): The 32nd sheet record of a quire is written and its slow-time jobs become ready. -/
def execQuireComplete (t line : Nat) (s : State) : Host.Outcome State Fault Refusal := finish t s (fun s => s.quireComplete line)

/-- SLOW_QUIRE_RELEASED (R200): The slow sheets of a processed quire are released to triggers and streams. -/
def execSlowQuireReleased (t line : Nat) (s : State) : Host.Outcome State Fault Refusal := finish t s (fun s => (s.quireReleased line).advance)

/-- SLOW_OVERRUN (R200): A quire overwritten before or during processing is lost and chains restart. -/
def execSlowOverrun (t line : Nat) (s : State) : Host.Outcome State Fault Refusal := finish t s (fun s => (s.slowOverrun line).advance)

/-- FELT_RESIZE (R201): Sets line weights and formats, formatting stopped lines at acceptance. -/
def execFeltResize (t : Nat) (c : Cmd) (s : State) : Host.Outcome State Fault Refusal := finish t s (fun s => s.hostCommand 0x0501 feltResizeAll c)

/-- FELT_RESIZE_TAKES_EFFECT (R201): The new share takes effect at the line's quire boundary, growing or shrinking the ring. -/
def execFeltResizeTakesEffect (t line : Nat) (s : State) : Host.Outcome State Fault Refusal := finish t s (fun s => s.resizeRow line)

/-- FELT_READER_OPEN (R184): Opens a felt reader at OLDEST, the newest complete quire or a given FSN. -/
def execFeltReaderOpen (t : Nat) (c : Cmd) (s : State) : Host.Outcome State Fault Refusal :=
  finish t s (fun s => s.hostCommand 0x0502 feltReader (asForm c 2 0 [3, 4]))

/-- FELT_READER_MOVE (R184): Moves an open felt reader to a given FSN. -/
def execFeltReaderMove (t : Nat) (c : Cmd) (s : State) : Host.Outcome State Fault Refusal :=
  finish t s (fun s => s.hostCommand 0x0502 feltReader (asForm c 2 3 [0, 1, 2, 4]))

/-- FELT_READER_CLOSE (R184): Closes a felt reader not attached to a stream. -/
def execFeltReaderClose (t : Nat) (c : Cmd) (s : State) : Host.Outcome State Fault Refusal :=
  finish t s (fun s => s.hostCommand 0x0502 feltReader (asForm c 2 4 [0, 1, 2, 3]))

/-- FELT_STATUS (R206): Returns a line's felt geometry and counters. -/
def execFeltStatus (t : Nat) (c : Cmd) (s : State) : Host.Outcome State Fault Refusal := finish t s (fun s => s.hostCommand 0x0503 feltStatus c)

/-- SLOW_CONFIG (R207): Sets a line's slow-time chain and bands after a budget check. -/
def execSlowConfig (t : Nat) (c : Cmd) (s : State) : Host.Outcome State Fault Refusal := finish t s (fun s => s.hostCommand 0x0504 slowConfig c)

/-- SLOW_CONFIG_TAKES_EFFECT (R207): The chain configuration takes effect at a quire boundary and restarts the chains. -/
def execSlowConfigTakesEffect (t line : Nat) (s : State) : Host.Outcome State Fault Refusal := finish t s (fun s => s.slowConfigRow line)

/-- SLOW_START (R204): Restarts slow-time processing at the next quire boundary. -/
def execSlowStart (t : Nat) (c : Cmd) (s : State) : Host.Outcome State Fault Refusal := finish t s (fun s => s.hostCommand 0x0505 slowStart c)

/-- SLOW_STOP (R204): Stops slow-time processing, drain or immediate. -/
def execSlowStop (t : Nat) (c : Cmd) (s : State) : Host.Outcome State Fault Refusal := finish t s (fun s => s.hostCommand 0x0506 slowStop c)

/-- SLOW_STOPPED (R204): The slow-time drain or discard completes and EV_SLOW_STOPPED is raised. -/
def execSlowStopped (t line : Nat) (s : State) : Host.Outcome State Fault Refusal := finish t s (fun s => (s.slowStopped line).advance)

/-- SLOW_STATUS (R206): Returns slow-time state and counters. -/
def execSlowStatus (t : Nat) (c : Cmd) (s : State) : Host.Outcome State Fault Refusal := finish t s (fun s => s.hostCommand 0x0507 slowStatus c)

end Sys2Proof.Machine
end

