-- ==== Sys2Proof/Machine/ExecHealth.lean ====
section
/-! DEFINITION. Meanings: health (chapter 17). Each is its row's effect in the shape of `finish`. -/

namespace Sys2Proof.Machine

/-- TARGETED_TEST_DONE (R510): A targeted self-test ends and the unit returns to service or is retired. -/
def execTargetedTestDone (t kind index : Nat) (pass conditions : Bool) (s : State) : Host.Outcome State Fault Refusal :=
  finish t s (fun s => s.testDone kind index pass conditions)

/-- NO_SPARE (R514): A unit to be retired with no free spare is degraded and EV_NO_SPARE raised. -/
def execNoSpare (t kind index cause : Nat) (s : State) : Host.Outcome State Fault Refusal := finish t s (fun s => s.noSpareRow kind index cause)

/-- SRAM_ERROR (R516): An SRAM macro error starts a row or column repair and march test. -/
def execSramError (t macroIx row bit : Nat) (uncorrectable : Bool) (s : State) : Host.Outcome State Fault Refusal :=
  finish t s (fun s => s.sramError macroIx row bit uncorrectable)

/-- D2D_LANE_ERROR (R518): A die-to-die lane in error is replaced by a spare at the next frame. -/
def execD2dLaneError (t lane symbols : Nat) (uncorrectable : Bool) (s : State) : Host.Outcome State Fault Refusal :=
  finish t s (fun s => s.d2dError lane symbols uncorrectable)

/-- SELFTEST_SEGMENT_DONE (R520): A shutdown or boot self-test segment ends with its END marker and result. -/
def execSelftestSegmentDone (t : Nat) (o : SegmentOutcome) (s : State) : Host.Outcome State Fault Refusal :=
  finish t s (fun s => (s.segmentDone o).advance)

/-- SENSOR_SAMPLE (R527): Thermal and rail sensors are read and limit crossings raise EV_HEALTH_LIMIT. -/
def execSensorSample (t : Nat) (thermal rails : List Int) (s : State) : Host.Outcome State Fault Refusal :=
  finish t s (fun s => s.sensorSample thermal rails)

/-- COUNTER_SATURATED (R526): A statistics counter saturates and EV_COUNTER_SATURATED is raised once. -/
def execCounterSaturated (t opcode offset selector : Nat) (s : State) : Host.Outcome State Fault Refusal :=
  finish t s (fun s => s.counterSaturated opcode offset selector)

/-- HEALTH_STATUS (R535): Returns the hamper summary and counters. -/
def execHealthStatus (t : Nat) (c : Cmd) (s : State) : Host.Outcome State Fault Refusal := finish t s (fun s => s.hostCommand 0x0F01 healthStatus c)

/-- HEALTH_UNITS (R535): Returns unit records. -/
def execHealthUnits (t : Nat) (c : Cmd) (s : State) : Host.Outcome State Fault Refusal := finish t s (fun s => s.hostCommand 0x0F02 healthUnits c)

/-- HEALTH_TEST (R536): Runs a targeted test on demand. -/
def execHealthTest (t : Nat) (c : Cmd) (s : State) : Host.Outcome State Fault Refusal := finish t s (fun s => s.hostCommand 0x0F03 healthTest c)

/-- HEALTH_ACCEPT (R514): Resolves a unit's EV_NO_SPARE. -/
def execHealthAccept (t : Nat) (c : Cmd) (s : State) : Host.Outcome State Fault Refusal := finish t s (fun s => s.hostCommand 0x0F04 healthAccept c)

/-- HEALTH_FUSE_REPAIR (R524): Programs soft repairs into fuses. -/
def execHealthFuseRepair (t : Nat) (c : Cmd) (s : State) : Host.Outcome State Fault Refusal :=
  finish t s (fun s => s.hostCommand 0x0F05 healthFuseRepair c)

/-- FUSE_REPAIR_DONE (R524): Fuse programming of the repairs ends and EV_APPLIED carries the status. -/
def execFuseRepairDone (t : Nat) (ok : List Bool) (s : State) : Host.Outcome State Fault Refusal := finish t s (fun s => s.fuseDone ok)

/-- HEALTH_RESULTS (R520): Returns self-test results. -/
def execHealthResults (t : Nat) (c : Cmd) (s : State) : Host.Outcome State Fault Refusal := finish t s (fun s => s.hostCommand 0x0F06 healthResults c)

/-- HEALTH_SENSORS (R527): Returns sensor readings and peaks. -/
def execHealthSensors (t : Nat) (c : Cmd) (s : State) : Host.Outcome State Fault Refusal := finish t s (fun s => s.hostCommand 0x0F07 healthSensors c)

/-- HEALTH_LIMITS (R527): Sets a sensor's bounds. -/
def execHealthLimits (t : Nat) (c : Cmd) (s : State) : Host.Outcome State Fault Refusal := finish t s (fun s => s.hostCommand 0x0F08 healthLimits c)

/-- HEALTH_LOG_READ (R529): Returns event log entries. -/
def execHealthLogRead (t : Nat) (c : Cmd) (s : State) : Host.Outcome State Fault Refusal := finish t s (fun s => s.hostCommand 0x0F09 healthLogRead c)

end Sys2Proof.Machine
end

