-- ==== Sys2Proof/Machine/ExecHost.lean ====
section
/-! DEFINITION. Meanings: the commands that reach the device through its mailboxes, registers and pins (chapters 10, 14, 15, 18). Each is its row's effect in the shape of `finish`. -/

namespace Sys2Proof.Machine

/-- MB_DOORBELL (R451): A write of GO to a mailbox control block on an idle or done mailbox makes the device fetch, validate and execute the command
and write the response. -/
def execMbDoorbell (t n : Nat) (fetched : List Byte) (facts : Facts) (s : State) : Host.Outcome State Fault Refusal :=
  finish t s (fun s => s.mbDoorbell n fetched facts)

/-- HELD_DOORBELL_RUNS (R452): A doorbell held while the mailbox was not ready runs its command once the device becomes ready. -/
def execHeldDoorbellRuns (t n : Nat) (fetched : List Byte) (facts : Facts) (s : State) : Host.Outcome State Fault Refusal :=
  finish t s (fun s => s.heldRuns n fetched facts)

/-- MB_DONE_CLEAR (R450): A write of one to the RW1C DONE bit of a mailbox control block clears it. -/
def execMbDoneClear (t n : Nat) (s : State) : Host.Outcome State Fault Refusal := finish t s (fun s => s.clearDone n)

/-- ETH_MAILBOX_FRAME (R445): A mailbox frame received on CMD_UDP is authenticated, decrypted and run as a command of its mailbox, or discarded and
counted. -/
def execEthMailboxFrame (t port : Nat) (frame : List Byte) (tagOk : Bool) (plain : List Byte) (facts : Facts) (s : State) : Host.Outcome State Fault Refusal :=
  finish t s (fun s => s.mailboxFrame port frame tagOk plain facts)

/-- CONTEXT_DOORBELL (R416): A host write to a context's POSTED register posts descriptors and lets the context process them. -/
def execContextDoorbell (t ctx : Nat) (value : BitVec 32) (s : State) : Host.Outcome State Fault Refusal := finish t s (fun s => s.doorbell ctx value)

/-- WIN_BASE_WRITE (R434): A write to WIN_BASE moves the BAR2 DRAM window for later accesses. -/
def execWinBaseWrite (t : Nat) (value : BitVec 64) (s : State) : Host.Outcome State Fault Refusal := finish t s (fun s => s.winBaseWrite value)

/-- BAR2_WINDOW_READ (R434): A host read through BAR2 returns DRAM data, zeros for private or out-of-range pages, or a poisoned completion. -/
def execBar2WindowRead (t offset length : Nat) (s : State) : Host.Outcome State Fault Refusal := finish t s (fun s => s.runTiles.barRead offset length)

/-- BAR2_WINDOW_WRITE (R434): A host write through BAR2 lands in the job region or is discarded and counted in WIN_DENIED. -/
def execBar2WindowWrite (t offset : Nat) (data : List Byte) (s : State) : Host.Outcome State Fault Refusal :=
  finish t s (fun s => s.runTiles.barWrite offset data)

/-- DEBUG_WINDOW_ACCESS (R502): A host access to the debug window is served according to the open debug level. -/
def execDebugWindowAccess (t offset : Nat) (write : Bool) (data : List Byte) (s : State) : Host.Outcome State Fault Refusal :=
  finish t s (fun s => s.runTiles.debugAccess offset write data)

/-- REGISTER_WRITE (R416): A host write to a register with no behaviour of its own, such as an MSI-X moderation register, updates it. -/
def execRegisterWrite (t offset : Nat) (data : List Byte) (s : State) : Host.Outcome State Fault Refusal :=
  finish t s (fun s => s.registerWrite offset data)

/-- ZSP_TRANSACTION (R356): A panel transaction on the zone status port latches and returns a zone word with parity, or is abandoned and counted. -/
def execZspTransaction (t zone edges : Nat) (s : State) : Host.Outcome State Fault Refusal := finish t s (fun s => s.zsp zone edges)

/-- SMB_LTUNE_WRITE (R554): An SMBus Write Word to LTUNE0 or LTUNE1 sets the laser tuning output code. -/
def execSmbLtuneWrite (t reg : Nat) (code : BitVec 16) (s : State) : Host.Outcome State Fault Refusal := finish t s (fun s => s.ltuneWrite reg code)

/-- SMB_ALERT_RESPONSE (R563): A read of the Alert Response Address answers and releases SMB_ALERT_N until the condition next begins. -/
def execSmbAlertResponse (t : Nat) (s : State) : Host.Outcome State Fault Refusal := finish t s (fun s => s.alertResponse)

end Sys2Proof.Machine
end

