-- ==== Sys2Proof/Machine/ExecLater.lean ====
section
/-! DEFINITION. Meanings: the rows that the table adds at its end. Each is its row's effect in the shape of `finish`. -/

namespace Sys2Proof.Machine

/-- TRAIL_LINK_CHANGE (R299): A trail port's link comes up or goes down as its 8b/10b receiver gains or loses alignment, changing which ports carry
SYNC and BCAST and raising EV_TRAIL_LINK. -/
def execTrailLinkChange (t port : Nat) (up : Bool) (s : State) : Host.Outcome State Fault Refusal := finish t s (fun s => s.trailLink port up)

/-- PCIE_LINK_UP (R432): The PCIe link finishes training and comes up, raising EV_PCIE_LINK with cause 3. -/
def execPcieLinkUp (t speed width : Nat) (s : State) : Host.Outcome State Fault Refusal := finish t s (fun s => s.pcieUp speed width)

/-- STREAM_PACKET_SENT (R441): A UDP packet of a STREAM_ETH context leaves its port, delivering the items whose last byte it holds, advancing felt
readers and auto-releasing captures. -/
def execStreamPacketSent (t ctx : Nat) (s : State) : Host.Outcome State Fault Refusal := finish t s (fun s => s.packetSent ctx)

/-- TOKEN_BUCKET_REFILL (R424): A rate-limited context's token bucket refills and the context leaves STATE 3 and moves data again. -/
def execTokenBucketRefill (t ctx : Nat) (s : State) : Host.Outcome State Fault Refusal := finish t s (fun s => s.refillTokens ctx)

/-- PAUSE_FRAME_RX (R443): A received IEEE 802.3x PAUSE frame pauses transmission on the port when PAUSE_RX is enabled and is counted. -/
def execPauseFrameRx (t port quanta : Nat) (s : State) : Host.Outcome State Fault Refusal := finish t s (fun s => s.pauseFrame port quanta)

/-- ETH_FRAME_DROPPED (R443): A received Ethernet frame that is not ARP, PTP or a command frame, or that fails its FCS, is dropped and counted. -/
def execEthFrameDropped (t port : Nat) (fcsOk : Bool) (s : State) : Host.Outcome State Fault Refusal :=
  finish t s (fun s => s.frameDropped port fcsOk)

/-- PPS_OUT_WIDTH_END (R290): PPS_OUT_WIDTH after the leading edge, the PPS_OUT pulse ends. -/
def execPpsOutWidthEnd (t : Nat) (s : State) : Host.Outcome State Fault Refusal := finish t s (fun s => s.ppsOutFall)

/-- FULL_RETRAINING_DONE (R391): A channel's full retraining, started when a periodic update failed, completes within 20 ms and EV_MEM_RETRAIN reports
its duration and result. -/
def execFullRetrainingDone (t channel durationUs : Nat) (pass : Bool) (s : State) : Host.Outcome State Fault Refusal :=
  finish t s (fun s => s.retrained channel durationUs pass)

/-- WATCHDOG_RESET (R474): The watchdog expires and resets the device, which boots and reports EV_BOOT with cause 4. -/
def execWatchdogReset (t : Nat) (s : State) : Host.Outcome State Fault Refusal := finish t s (fun s => s.watchdog)

/-- JTAG_INSTRUCTION (R503): A JTAG instruction under the open debug level halts, steps or resumes the CPC, or runs scan, BIST or EXTEST, stopping
zone evaluation while the CPC is halted. The vendor's private instructions at D3 have no effect the specification states. -/
def execJtagInstruction (t : Nat) (op : JtagOp) (s : State) : Host.Outcome State Fault Refusal :=
  match op, decide (3 ≤ s.dbg.level) with
  | .vendorPrivate, true => .refused .vendorPrivateInstruction
  | _, _ => finish t s (fun s => s.jtag op)

/-- SMB_CLOCK_LOW_TIMEOUT (R563): SMBus clock held low for 25 to 35 ms times out and the SMBus target abandons the transaction. -/
def execSmbClockLowTimeout (t : Nat) (s : State) : Host.Outcome State Fault Refusal := finish t s (fun s => s)

end Sys2Proof.Machine
end

