-- ==== Sys2Proof/Machine/ExecLine.lean ====
section
/-! DEFINITION. Meanings: the line engines (chapter 5). Each is its row's effect in the shape of `finish`. -/

namespace Sys2Proof.Machine

/-- SHEET_COMPLETE (R159): A sheet's point samples and sheet record leave the line engine towards the felt. -/
def execSheetComplete (t line : Nat) (input : SheetInput) (s : State) : Host.Outcome State Fault Refusal :=
  finish t s (fun s => s.sheetComplete line input)

/-- LINE_SPARED (R168): At a sheet boundary LE16 takes a line whose engine is due for test or retired. -/
def execLineSpared (t line : Nat) (unreliable : Bool) (s : State) : Host.Outcome State Fault Refusal :=
  finish t s (fun s => s.lineSpared line unreliable)

/-- LINE_UNSPARED (R169): After a passed test the line returns to its own engine at the next sheet boundary. -/
def execLineUnspared (t line : Nat) (s : State) : Host.Outcome State Fault Refusal := finish t s (fun s => s.lineUnspared line)

/-- LINE_CONFIG (R172): Sets a line's phase-noise, polarisation, tracking and tracker parameters. -/
def execLineConfig (t : Nat) (c : Cmd) (s : State) : Host.Outcome State Fault Refusal := finish t s (fun s => s.hostCommand 0x0401 lineConfig c)

/-- LINE_CONFIG_TAKES_EFFECT (R172): The line settings take effect at a sheet or shot boundary, with a line restart for PNC, POL or REF_OFFSET. -/
def execLineConfigTakesEffect (t line : Nat) (s : State) : Host.Outcome State Fault Refusal := finish t s (fun s => (s.lineCfgEffect line).1)

/-- LINE_START (R166): Schedules named lines to start at their first grid launch. -/
def execLineStart (t : Nat) (c : Cmd) (s : State) : Host.Outcome State Fault Refusal := finish t s (fun s => s.hostCommand 0x0402 lineStart c)

/-- LINE_STARTED (R166): The line starts at its first grid launch with a line restart and EV_LINE_STARTED. -/
def execLineStarted (t line : Nat) (s : State) : Host.Outcome State Fault Refusal := finish t s (fun s => s.lineStartedRow line)

/-- LINE_STOP (R167): Schedules named lines to stop, drain or immediate. -/
def execLineStop (t : Nat) (c : Cmd) (s : State) : Host.Outcome State Fault Refusal := finish t s (fun s => s.hostCommand 0x0403 lineStop c)

/-- LINE_STOP_BOUNDARY (R167): At its stop sheet boundary the line makes no further launch, and in immediate form discards unwritten sheets. -/
def execLineStopBoundary (t line : Nat) (s : State) : Host.Outcome State Fault Refusal := finish t s (fun s => s.stopBoundaryRow line)

/-- LINE_STOPPED (R167): Once the drain or discard is complete EV_LINE_STOPPED is raised and the quad powers down. -/
def execLineStopped (t line : Nat) (s : State) : Host.Outcome State Fault Refusal := finish t s (fun s => (s.lineStoppedRow line).advance)

/-- LINE_STATUS (R171): Returns a line's state, engine, end and counters. -/
def execLineStatus (t : Nat) (c : Cmd) (s : State) : Host.Outcome State Fault Refusal := finish t s (fun s => s.hostCommand 0x0404 lineStatus c)

/-- LINE_READ_STATE (R171): Returns point-state entries of a line. -/
def execLineReadState (t : Nat) (c : Cmd) (s : State) : Host.Outcome State Fault Refusal := finish t s (fun s => s.hostCommand 0x0405 lineReadState c)

end Sys2Proof.Machine
end

