-- ==== Sys2Proof/Machine/ExecMem.lean ====
section
/-! DEFINITION. Meanings: the DRAM controllers (chapter 13). Each is its row's effect in the shape of `finish`. -/

namespace Sys2Proof.Machine

/-- DRAM_READ_DECODE (R395): A DRAM block read is decoded, corrected or reported uncorrectable and poisoned. -/
def execDramReadDecode (t port addr : Nat) (errors : List (Nat × BitVec 8)) (s : State) : Host.Outcome State Fault Refusal :=
  finish t s (fun s => s.runTiles.readDecode port addr errors)

/-- ROW_REMAP (R400): A row with an error is copied to a spare and march-tested. -/
def execRowRemap (t channel rank sub bank row : Nat) (s : State) : Host.Outcome State Fault Refusal :=
  finish t s (fun s => s.rowRemap ⟨channel, rank, sub, bank, row⟩)

/-- ROW_TEST_DONE (R400): The march test ends and the remap is freed or made permanent with EV_MEM_REMAP. -/
def execRowTestDone (t channel spare : Nat) (pass : Bool) (s : State) : Host.Outcome State Fault Refusal :=
  finish t s (fun s => s.rowTestDone channel spare pass)

/-- SCRUB (R399): The controller scrubs blocks at the maintenance class. -/
def execScrub (t channel : Nat) (errors : List (Nat × BitVec 8)) (s : State) : Host.Outcome State Fault Refusal :=
  finish t s (fun s => s.scrub channel errors)

/-- REFRESH (R407): A per-bank refresh is issued, pulled in to a quiet window or forced at its limit. -/
def execRefresh (t channel : Nat) (cycle : RefreshCycle) (s : State) : Host.Outcome State Fault Refusal :=
  finish t s (fun s => s.refresh channel cycle.bank cycle.rate)

/-- WCK_DRIFT_CHECK (R391): Every 100 ms write timing drift is checked and retrained when needed. -/
def execWckDriftCheck (t channel driftMilliUi : Nat) (updateOk : Bool) (s : State) : Host.Outcome State Fault Refusal :=
  finish t s (fun s => s.driftCheck channel driftMilliUi updateOk)

/-- SELF_REFRESH_ENTRY (R408): A channel idle for IDLE_SR_US enters self-refresh. -/
def execSelfRefreshEntry (t channel : Nat) (s : State) : Host.Outcome State Fault Refusal := finish t s (fun s => s.srEntry channel)

/-- SELF_REFRESH_EXIT (R408): A request to a channel in self-refresh makes it exit. -/
def execSelfRefreshExit (t channel : Nat) (s : State) : Host.Outcome State Fault Refusal := finish t s (fun s => s.srExit channel)

/-- REQUEST_LATE (R403): A request reaching its latency target becomes late and raises EV_MEM_LATENCY. -/
def execRequestLate (t port channel latencyNs : Nat) (s : State) : Host.Outcome State Fault Refusal :=
  finish t s (fun s => s.requestLate port channel latencyNs)

/-- CHANNEL_LOST (R409): A channel that fails retraining or stops answering is lost. -/
def execChannelLost (t channel cause : Nat) (s : State) : Host.Outcome State Fault Refusal := finish t s (fun s => s.channelLost channel cause)

/-- MEM_CONFIG (R413): Sets channel mask, latency targets, self-refresh and scrub. -/
def execMemConfig (t : Nat) (c : Cmd) (s : State) : Host.Outcome State Fault Refusal := finish t s (fun s => s.hostCommand 0x0C01 memConfig c)

/-- MEM_STATUS (R412): Returns channel state and counters. -/
def execMemStatus (t : Nat) (c : Cmd) (s : State) : Host.Outcome State Fault Refusal := finish t s (fun s => s.hostCommand 0x0C02 memStatus c)

/-- MEM_REMAPS (R412): Returns the remap table of a channel. -/
def execMemRemaps (t : Nat) (c : Cmd) (s : State) : Host.Outcome State Fault Refusal := finish t s (fun s => s.hostCommand 0x0C03 memRemaps c)

end Sys2Proof.Machine
end

