-- ==== Sys2Proof/Machine/ExecPlan.lean ====
section
/-! DEFINITION. Meanings: launch plans, probes, gates and launches (chapter 2). Each is its row's effect in the shape of `finish`. -/

namespace Sys2Proof.Machine

/-- PLAN_DEFINE (R44): Validates a line's plan through the checks of Table 2.3 and stages it. -/
def execPlanDefine (t : Nat) (c : Cmd) (s : State) : Host.Outcome State Fault Refusal := finish t s (fun s => s.hostCommand 0x0201 planDefine c)

/-- PLAN_APPLY (R63): Re-checks the named lines' staged plans and schedules them to take effect. -/
def execPlanApply (t : Nat) (c : Cmd) (s : State) : Host.Outcome State Fault Refusal := finish t s (fun s => s.hostCommand 0x0202 planApply c)

/-- PLAN_TAKES_EFFECT (R64): A staged plan takes effect on a line at its sheet boundary or at apply-at, with EV_APPLIED. -/
def execPlanTakesEffect (t line : Nat) (s : State) : Host.Outcome State Fault Refusal := finish t s (fun s => s.planEffect line false)

/-- PROBE_CHANGE (R65): At a shot boundary a running line's probe change takes effect, restarting point state and the slow-time chain. -/
def execProbeChange (t line : Nat) (s : State) : Host.Outcome State Fault Refusal := finish t s (fun s => s.planEffect line true)

/-- PLAN_TIMELINE (R70): Returns the launch instants and kinds of a plan's sheets. -/
def execPlanTimeline (t : Nat) (c : Cmd) (s : State) : Host.Outcome State Fault Refusal := finish t s (fun s => s.hostCommand 0x0203 planTimeline c)

/-- PROBE_CONFIG (R71): Sets a probe's skew, guard and idle code. -/
def execProbeConfig (t : Nat) (c : Cmd) (s : State) : Host.Outcome State Fault Refusal := finish t s (fun s => s.hostCommand 0x0204 probeConfig c)

/-- PROBE_IDLE_CODE_CHANGE (R71): A new idle code takes effect at the first instant the probe carries no launch. -/
def execProbeIdleCodeChange (t probe : Nat) (s : State) : Host.Outcome State Fault Refusal := finish t s (fun s => s.idleCodeChange probe)

/-- PROBE_LOAD (R72): Writes a chunk of a waveform slot and, at FINAL, checks its CRC and completes the slot. -/
def execProbeLoad (t : Nat) (c : Cmd) (s : State) : Host.Outcome State Fault Refusal := finish t s (fun s => s.hostCommand 0x0205 probeLoad c)

/-- PLAN_GATE_LIMIT (R59): Sets the gates' duty and pulse-width bounds. -/
def execPlanGateLimit (t : Nat) (c : Cmd) (s : State) : Host.Outcome State Fault Refusal := finish t s (fun s => s.hostCommand 0x0206 planGateLimit c)

/-- GATE_LIMIT_TAKES_EFFECT (R59): New gate bounds take effect at the line's sheet boundary or at apply-at, with EV_APPLIED. -/
def execGateLimitTakesEffect (t gate : Nat) (s : State) : Host.Outcome State Fault Refusal := finish t s (fun s => s.gateLimitEffect gate)

/-- PLAN_SPOT (R68): Schedules a spot shot of one tone at a free instant. -/
def execPlanSpot (t : Nat) (c : Cmd) (s : State) : Host.Outcome State Fault Refusal := finish t s (fun s => s.hostCommand 0x0207 planSpot c)

/-- SPOT_LAUNCH (R68): The spot shot is launched and processed through stages 1 to 7 to the taps and capture store. -/
def execSpotLaunch (t line : Nat) (s : State) : Host.Outcome State Fault Refusal := finish t s (fun s => s.spotLaunchRow line)

/-- PLAN_STATUS (R70): Returns, and optionally clears, a line's truncated, suppressed and inhibited launch counters and plan state. -/
def execPlanStatus (t : Nat) (c : Cmd) (s : State) : Host.Outcome State Fault Refusal := finish t s (fun s => s.hostCommand 0x0208 planStatus c)

/-- GRID_LAUNCH (R16): At a grid instant a line launches a tone or thermal launch, opening its gate and playing its waveform. -/
def execGridLaunch (t line : Nat) (s : State) : Host.Outcome State Fault Refusal := finish t s (fun s => s.gridLaunch line)

/-- DUTY_TRUNCATED (R57): The limiter closes a gate at its maximum pulse width or duty limit and counts a truncated launch. -/
def execDutyTruncated (t line : Nat) (s : State) : Host.Outcome State Fault Refusal := finish t s (fun s => s.dutyTruncated line)

/-- EMIT_PERMIT_FALL (R569): A falling edge of EMIT_PERMIT forces gates inactive and DACs idle, and begins an inhibition or restarts qualification. -/
def execEmitPermitFall (t : Nat) (s : State) : Host.Outcome State Fault Refusal := finish t s (fun s => s.emitFall)

/-- EMIT_PERMIT_RISE (R569): A rising edge of EMIT_PERMIT starts the 10 us qualification. -/
def execEmitPermitRise (t : Nat) (s : State) : Host.Outcome State Fault Refusal := finish t s (fun s => s.emitRise)

/-- EMIT_QUALIFIED (R569): Qualification ends, emission is permitted again and EV_EMIT_PERMITTED is recorded. -/
def execEmitQualified (t : Nat) (s : State) : Host.Outcome State Fault Refusal := finish t s (fun s => s.emitQualified)

end Sys2Proof.Machine
end

