-- ==== Sys2Proof/Machine/ExecRx.lean ====
section
/-! DEFINITION. Meanings: receivers and the calender (chapters 3 and 4). Each is its row's effect in the shape of `finish`. -/

namespace Sys2Proof.Machine

/-- LANE_WORD_RELEASE (R83): A lane word is released to its consumers 768 cells after its sampling instant with final flags. -/
def execLaneWordRelease (t quad role : Nat) (vdiffNv : Int) (s : State) : Host.Outcome State Fault Refusal :=
  finish t s (fun s => s.laneWordRelease quad role vdiffNv)

/-- MONITOR_BLOCK_END (R85): At the end of a monitor block each monitored input's mean common mode is judged against its window. -/
def execMonitorBlockEnd (t quad : Nat) (meansMv : List Nat) (s : State) : Host.Outcome State Fault Refusal :=
  finish t s (fun s => s.monitorBlock quad meansMv)

/-- QUAD_WAKE (R95): Wake begins 1 000 cells before a quad's ready instant and clears NOT_READY at it. -/
def execQuadWake (t quad : Nat) (s : State) : Host.Outcome State Fault Refusal := finish t s (fun s => s.quadWake quad)

/-- QUAD_POWER_DOWN (R96): After its line's last deckle cell a quad powers down at the block end when the next ready instant is far enough. -/
def execQuadPowerDown (t quad : Nat) (s : State) : Host.Outcome State Fault Refusal := finish t s (fun s => s.quadPowerDown quad)

/-- RX_CONFIG (R103): Sets a quad's gain step, common-mode windows and Q16 monitor mask. -/
def execRxConfig (t : Nat) (c : Cmd) (s : State) : Host.Outcome State Fault Refusal := finish t s (fun s => s.hostCommand 0x0301 rxConfig c)

/-- RX_CONFIG_TAKES_EFFECT (R103): The receiver settings take effect at the line's sheet boundary or at apply-at, with EV_APPLIED. -/
def execRxConfigTakesEffect (t quad : Nat) (s : State) : Host.Outcome State Fault Refusal := finish t s (fun s => s.rxConfigEffect quad)

/-- RX_REF_CONFIG (R104): Declares the reference interferometer delay. -/
def execRxRefConfig (t : Nat) (c : Cmd) (s : State) : Host.Outcome State Fault Refusal := finish t s (fun s => s.hostCommand 0x0302 rxRefConfig c)

/-- RX_HOLD (R96): Replaces the mask of quads kept awake regardless of deckles. -/
def execRxHold (t : Nat) (c : Cmd) (s : State) : Host.Outcome State Fault Refusal := finish t s (fun s => s.hostCommand 0x0303 rxHold c)

/-- RX_STATUS (R102): Returns a quad's state, role map and counters. -/
def execRxStatus (t : Nat) (c : Cmd) (s : State) : Host.Outcome State Fault Refusal := finish t s (fun s => s.hostCommand 0x0304 rxStatus c)

/-- CAL_BLOCK_GATHERED (R112): A gathered calibration block is tested and, if it passes, updates coefficients and handover counts. -/
def execCalBlockGathered (t quad converter : Nat) (b : CalBlock) (s : State) : Host.Outcome State Fault Refusal :=
  finish t s (fun s => s.calBlock quad converter b)

/-- HANDOVER (R117): At the handover instant the spare takes the serving role of the input. -/
def execHandover (t quad : Nat) (s : State) : Host.Outcome State Fault Refusal := finish t s (fun s => s.handover quad)

/-- OVERLAP_END (R118): The last sheet launched before the handover is sampled and the outgoing converter leaves the sheet path. -/
def execOverlapEnd (t quad : Nat) (s : State) : Host.Outcome State Fault Refusal := finish t s (fun s => s.overlapEnd quad)

/-- ROTATION_MOVE_READY (R115): Two microseconds after the move the converter is usable as the spare on the next input. -/
def execRotationMoveReady (t quad : Nat) (s : State) : Host.Outcome State Fault Refusal := finish t s (fun s => s.moveReady quad)

/-- CAL_STALE (R127): A figure's AGE passes STALE_S, sets STALE and raises EV_CAL_STALE once. -/
def execCalStale (t quad input : Nat) (s : State) : Host.Outcome State Fault Refusal := finish t s (fun s => s.calStale quad input)

/-- CAL_CONFIG (R131): Sets rotation, freeze, handover threshold and stale age for quads. -/
def execCalConfig (t : Nat) (c : Cmd) (s : State) : Host.Outcome State Fault Refusal := finish t s (fun s => s.hostCommand 0x0305 calConfig c)

/-- CAL_STATUS (R130): Returns rotation state, counters and quality figures. -/
def execCalStatus (t : Nat) (c : Cmd) (s : State) : Host.Outcome State Fault Refusal := finish t s (fun s => s.hostCommand 0x0306 calStatus c)

/-- CAL_READ (R130): Returns one coefficient set. -/
def execCalRead (t : Nat) (c : Cmd) (s : State) : Host.Outcome State Fault Refusal := finish t s (fun s => s.hostCommand 0x0307 calRead c)

end Sys2Proof.Machine
end

