-- ==== Sys2Proof/Machine/ExecSec.lean ====
section
/-! DEFINITION. Meanings: security, debug and power (chapter 16). Each is its row's effect in the shape of `finish`. -/

namespace Sys2Proof.Machine

/-- SEC_CHALLENGE (R484): Issues a nonce. -/
def execSecChallenge (t : Nat) (c : Cmd) (s : State) : Host.Outcome State Fault Refusal := finish t s (fun s => s.hostCommand 0x0E01 secChallenge c)

/-- NONCE_EXPIRY (R484): A nonce expires 120 s after issue. -/
def execNonceExpiry (t : Nat) (s : State) : Host.Outcome State Fault Refusal := finish t s (fun s => s.nonceExpiry)

/-- SEC_ENROLL (R486): Fuses an owner key into the next slot. -/
def execSecEnroll (t : Nat) (c : Cmd) (s : State) : Host.Outcome State Fault Refusal := finish t s (fun s => s.hostCommand 0x0E02 secEnroll c)

/-- SEC_SERVICE_ENTER (R486): Moves an owned device into Service for a token's duration. -/
def execSecServiceEnter (t : Nat) (c : Cmd) (s : State) : Host.Outcome State Fault Refusal :=
  finish t s (fun s => s.hostCommand 0x0E03 secService (asForm c 0 0 [1]))

/-- SEC_SERVICE_LEAVE (R486): Returns a device from Service to Owned. -/
def execSecServiceLeave (t : Nat) (c : Cmd) (s : State) : Host.Outcome State Fault Refusal :=
  finish t s (fun s => s.hostCommand 0x0E03 secService (asForm c 0 1 [0]))

/-- SERVICE_EXPIRY (R487): Service expires and the device returns to Owned. -/
def execServiceExpiry (t : Nat) (s : State) : Host.Outcome State Fault Refusal := finish t s (fun s => s.serviceExpiry)

/-- SEC_SCRAP (R487): Scraps the device irreversibly. -/
def execSecScrap (t : Nat) (c : Cmd) (s : State) : Host.Outcome State Fault Refusal := finish t s (fun s => s.hostCommand 0x0E04 secScrap c)

/-- SEC_FW_LOAD (R489): Writes a chunk of a firmware image and verifies it at FINAL. -/
def execSecFwLoad (t : Nat) (c : Cmd) (s : State) : Host.Outcome State Fault Refusal := finish t s (fun s => s.hostCommand 0x0E05 secFwLoad c)

/-- FW_ERASE_DONE (R489): The slot erase of a FIRST chunk completes with EV_APPLIED. -/
def execFwEraseDone (t : Nat) (s : State) : Host.Outcome State Fault Refusal := finish t s (fun s => s.fwEraseDone)

/-- SEC_FW_ACTIVATE (R490): Marks the loaded slot as the trial for the next boot. -/
def execSecFwActivate (t : Nat) (c : Cmd) (s : State) : Host.Outcome State Fault Refusal :=
  finish t s (fun s => s.hostCommand 0x0E06 secFwControl (asForm c 0 0 [1]))

/-- SEC_FW_COMMIT (R490): Makes the trial slot preferred and advances the rollback counter. -/
def execSecFwCommit (t : Nat) (c : Cmd) (s : State) : Host.Outcome State Fault Refusal :=
  finish t s (fun s => s.hostCommand 0x0E06 secFwControl (asForm c 0 1 [0]))

/-- TRIAL_BOOT_TIMEOUT (R490): A trial boot not reaching BOOT_STATE 4 within 5 s falls back to the previous slot. -/
def execTrialBootTimeout (t : Nat) (s : State) : Host.Outcome State Fault Refusal := finish t s (fun s => s.trialTimeout)

/-- SEC_SESSION_OPEN (R493): Opens a session by ECDH handshake. -/
def execSecSessionOpen (t : Nat) (c : Cmd) (s : State) : Host.Outcome State Fault Refusal :=
  finish t s (fun s => s.hostCommand 0x0E07 secSessionOpen c)

/-- SEC_SESSION_CLOSE (R493): Closes a session. -/
def execSecSessionClose (t : Nat) (c : Cmd) (s : State) : Host.Outcome State Fault Refusal :=
  finish t s (fun s => s.hostCommand 0x0E08 secSessionClose c)

/-- SESSION_EXPIRY (R493): A session ends after its duration. -/
def execSessionExpiry (t session : Nat) (s : State) : Host.Outcome State Fault Refusal := finish t s (fun s => s.sessionExpiry session)

/-- SEC_RIGHTS (R492): Sets the PCIe rights. -/
def execSecRights (t : Nat) (c : Cmd) (s : State) : Host.Outcome State Fault Refusal := finish t s (fun s => s.hostCommand 0x0E09 secRights c)

/-- SEC_STATUS (R482): Returns lifecycle, slots, sessions and the identity key. -/
def execSecStatus (t : Nat) (c : Cmd) (s : State) : Host.Outcome State Fault Refusal := finish t s (fun s => s.hostCommand 0x0E0A secStatus c)

/-- DBG_OPEN (R502): Opens a debug level for a token's duration. -/
def execDbgOpen (t : Nat) (c : Cmd) (s : State) : Host.Outcome State Fault Refusal := finish t s (fun s => s.hostCommand 0x0E0B dbgOpen c)

/-- DBG_CLOSE (R502): Closes the open debug level. -/
def execDbgClose (t : Nat) (c : Cmd) (s : State) : Host.Outcome State Fault Refusal := finish t s (fun s => s.hostCommand 0x0E0C dbgClose c)

/-- DEBUG_LEVEL_EXPIRY (R502): The open debug level closes at expiry. -/
def execDebugLevelExpiry (t : Nat) (s : State) : Host.Outcome State Fault Refusal := finish t s (fun s => s.debugExpiry)

/-- PWR_CONFIG (R496): Sets TRIM. -/
def execPwrConfig (t : Nat) (c : Cmd) (s : State) : Host.Outcome State Fault Refusal := finish t s (fun s => s.hostCommand 0x0E0D pwrConfig c)

/-- PWR_STATE (R495): Requests a power-state transition. -/
def execPwrState (t : Nat) (c : Cmd) (s : State) : Host.Outcome State Fault Refusal := finish t s (fun s => s.hostCommand 0x0E0E pwrState c)

/-- P2_ENTERED (R498): After its stops and drains the device puts DRAM in self-refresh and gates clocks. -/
def execP2Entered (t : Nat) (s : State) : Host.Outcome State Fault Refusal := finish t s (fun s => s.p2Entered)

/-- P2_EXIT (R499): Leaving P2, channels exit self-refresh and the kept set restarts. -/
def execP2Exit (t : Nat) (s : State) : Host.Outcome State Fault Refusal := finish t s (fun s => s.p2Exit)

/-- P3_ENTERED (R500): After writing the rest image the device powers off all but the always-on domain. -/
def execP3Entered (t : Nat) (norOk : Bool) (s : State) : Host.Outcome State Fault Refusal := finish t s (fun s => s.p3Entered norOk)

/-- P3_EXIT (R501): The MSS re-verifies firmware, trains DRAM and restores from the rest image. -/
def execP3Exit (t kernelSigs : Nat) (boot : BootFacts) (cached : Bool) (durationMs : Nat) (failed : List Nat) (s : State) : Host.Outcome State Fault Refusal :=
  finish t s (fun s => s.p3Exit kernelSigs boot cached durationMs failed)

/-- PWR_STATUS (R506): Returns power state, kept set and measured power. -/
def execPwrStatus (t : Nat) (c : Cmd) (s : State) : Host.Outcome State Fault Refusal := finish t s (fun s => s.hostCommand 0x0E0F pwrStatus c)

end Sys2Proof.Machine
end

