-- ==== Sys2Proof/Machine/ExecSys.lean ====
section
/-! DEFINITION. Meanings: the commands of group `sys` (chapter 15). Each is its row's effect in the shape of `finish`. -/

namespace Sys2Proof.Machine

/-- SYS_IDENTIFY (R468): Returns identity, versions, restore source and state. -/
def execSysIdentify (t : Nat) (c : Cmd) (s : State) : Host.Outcome State Fault Refusal := finish t s (fun s => s.hostCommand 0x0101 sysIdentify c)

/-- SYS_SNAPSHOT (R476): Captures the settings in force and starts committing them to the older configuration bank. -/
def execSysSnapshot (t : Nat) (c : Cmd) (s : State) : Host.Outcome State Fault Refusal := finish t s (fun s => s.hostCommand 0x0102 sysSnapshot c)

/-- SNAPSHOT_COMMITTED (R471): The bank write and read-back finish and EV_APPLIED reports ST_OK or ST_NOR_FAIL. -/
def execSnapshotCommitted (t : Nat) (ok : Bool) (s : State) : Host.Outcome State Fault Refusal := finish t s (fun s => s.snapshotCommitted ok)

/-- SYS_RESTORE (R477): Schedules a core reset followed by a restore from the named source. -/
def execSysRestore (t : Nat) (c : Cmd) (s : State) : Host.Outcome State Fault Refusal := finish t s (fun s => s.hostCommand 0x0103 sysRestore c)

/-- SYS_SHUTDOWN (R478): Starts the orderly shutdown: stops lines, raw sets and streams, optionally snapshots, self-tests and enters P3. -/
def execSysShutdown (t : Nat) (c : Cmd) (s : State) : Host.Outcome State Fault Refusal := finish t s (fun s => s.hostCommand 0x0104 sysShutdown c)

/-- SHUTDOWN_COMPLETE (R478): After its stops, snapshot and self-test the shutdown raises EV_APPLIED, drains ctx 0, sets BOOT_STATE 6 and enters P3.
-/
def execShutdownComplete (t : Nat) (s : State) : Host.Outcome State Fault Refusal := finish t s (fun s => s.shutdownComplete)

/-- SYS_RESET (R479): Schedules a core or full reset of the device. -/
def execSysReset (t : Nat) (c : Cmd) (s : State) : Host.Outcome State Fault Refusal := finish t s (fun s => s.hostCommand 0x0105 sysReset c)

/-- RESET_BEGINS (R479): At least 1 ms after the response of sys.reset or sys.restore the core or full reset takes place. -/
def execResetBegins (t : Nat) (s : State) : Host.Outcome State Fault Refusal := finish t s (fun s => s.resetBegins)

/-- SYS_TIME_READ (R480): Returns a second-relative stamp of the validation instant. -/
def execSysTimeRead (t : Nat) (c : Cmd) (s : State) : Host.Outcome State Fault Refusal :=
  finish t s (fun s => s.hostCommand 0x0106 sysTime (asForm c 0 0 [1]))

/-- SYS_TIME_SET (R480): Names the second number for the first second boundary at least 100 ms later. -/
def execSysTimeSet (t : Nat) (c : Cmd) (s : State) : Host.Outcome State Fault Refusal :=
  finish t s (fun s => s.hostCommand 0x0106 sysTime (asForm c 0 1 [0]))

/-- SYS_TIME_SET_BOUNDARY (R480): At the named boundary SECOND is stepped when it differs and the set counts towards setting the time base. -/
def execSysTimeSetBoundary (t : Nat) (s : State) : Host.Outcome State Fault Refusal := finish t s (fun s => s.timeSetBoundary)

/-- SYS_STATUS (R475): Returns mailbox and event-queue counters, optionally clearing them. -/
def execSysStatus (t : Nat) (c : Cmd) (s : State) : Host.Outcome State Fault Refusal := finish t s (fun s => s.hostCommand 0x0107 sysStatus c)

/-- SYS_EVENTS (R465): Sets the event hold HOLD_MS. -/
def execSysEvents (t : Nat) (c : Cmd) (s : State) : Host.Outcome State Fault Refusal := finish t s (fun s => s.hostCommand 0x0108 sysEvents c)

end Sys2Proof.Machine
end

