-- ==== Sys2Proof/Machine/ExecTherm.lean ====
section
/-! DEFINITION. Meanings: temperature and reference channels (chapter 10). Each is its row's effect in the shape of `finish`. -/

namespace Sys2Proof.Machine

/-- THERMAL_SHEET_TAKEN (R319): A taken sheet's samples are accumulated into bin and dark accumulators. -/
def execThermalSheetTaken (t line : Nat) (asCodes stCodes : List Int) (background : Bool) (s : State) : Host.Outcome State Fault Refusal :=
  finish t s (fun s => s.thermSheet line asCodes stCodes background)

/-- THERMAL_INTERVAL_CLOSE (R320): An interval closes after INTERVAL sheets or early, and its trace is formed. -/
def execThermalIntervalClose (t line : Nat) (s : State) : Host.Outcome State Fault Refusal := finish t s (fun s => s.thermClose line)

/-- THERMAL_SWITCH (R317): A slice switches to the next line of its ring. -/
def execThermalSwitch (t slice : Nat) (refError : Bool) (s : State) : Host.Outcome State Fault Refusal :=
  finish t s (fun s => s.thermSwitch slice refError)

/-- THERMAL_SWITCH_SETTLED (R318): The switch ends after settling and the first sheet on the new line is discarded. -/
def execThermalSwitchSettled (t slice : Nat) (s : State) : Host.Outcome State Fault Refusal := finish t s (fun s => s.thermSettled slice)

/-- THERM_SPARED (R326): TS4 takes a logical slice whose slice is due for test. -/
def execThermSpared (t slice : Nat) (s : State) : Host.Outcome State Fault Refusal := finish t s (fun s => s.thermSpared slice)

/-- THERM_CONFIG (R341): Sets a line's thermal bins, windows, interval and constants. -/
def execThermConfig (t : Nat) (c : Cmd) (s : State) : Host.Outcome State Fault Refusal := finish t s (fun s => s.hostCommand 0x0901 thermConfig c)

/-- THERM_CONFIG_TAKES_EFFECT (R341): The thermal configuration takes effect when the current interval closes. -/
def execThermConfigTakesEffect (t line : Nat) (s : State) : Host.Outcome State Fault Refusal := finish t s (fun s => s.thermCfgEffect line)

/-- THERM_ROUTE (R342): Sets the rings of the logical slices, drain or immediate. -/
def execThermRoute (t : Nat) (c : Cmd) (s : State) : Host.Outcome State Fault Refusal := finish t s (fun s => s.hostCommand 0x0902 thermRoute c)

/-- THERM_STATUS (R340): Returns a line's thermal state and counters. -/
def execThermStatus (t : Nat) (c : Cmd) (s : State) : Host.Outcome State Fault Refusal := finish t s (fun s => s.hostCommand 0x0903 thermStatus c)

/-- REF_SCAN_START (R335): At each PERIOD boundary the scan starts, cutting short one still running. -/
def execRefScanStart (t : Nat) (refError : Bool) (s : State) : Host.Outcome State Fault Refusal := finish t s (fun s => s.scanStart refError)

/-- REF_CONVERSION_DONE (R328): A conversion or pair finishes and its result record is written. -/
def execRefConversionDone (t : Nat) (conv : RefConversion) (s : State) : Host.Outcome State Fault Refusal := finish t s (fun s => s.convDone conv)

/-- REF_LEAD (R334): A common-mode or compliance check fails and the result is INVALID with EV_REF_LEAD. -/
def execRefLead (t channel check cmMv : Nat) (s : State) : Host.Outcome State Fault Refusal := finish t s (fun s => s.refLead channel check cmMv)

/-- REF_CONFIG (R343): Sets a reference channel. -/
def execRefConfig (t : Nat) (c : Cmd) (s : State) : Host.Outcome State Fault Refusal := finish t s (fun s => s.hostCommand 0x0904 refConfig c)

/-- REF_SCAN (R344): Sets the scan list and period. -/
def execRefScan (t : Nat) (c : Cmd) (s : State) : Host.Outcome State Fault Refusal := finish t s (fun s => s.hostCommand 0x0905 refScan c)

/-- REF_URGENT (R336): Inserts an urgent conversion ahead of the scan. -/
def execRefUrgent (t : Nat) (c : Cmd) (s : State) : Host.Outcome State Fault Refusal := finish t s (fun s => s.hostCommand 0x0906 refUrgent c)

/-- REF_STATUS (R340): Returns modulators, ring and counters. -/
def execRefStatus (t : Nat) (c : Cmd) (s : State) : Host.Outcome State Fault Refusal := finish t s (fun s => s.hostCommand 0x0907 refStatus c)

end Sys2Proof.Machine
end

