-- ==== Sys2Proof/Machine/ExecTile.lean ====
section
/-! DEFINITION. Meanings: the tile pool (chapter 7). Each is its row's effect in the shape of `finish`. -/

namespace Sys2Proof.Machine

/-- JOB_DISPATCH (R210): The dispatcher starts a ready job on a free active tile. -/
def execJobDispatch (t : Nat) (start : TileStart) (s : State) : Host.Outcome State Fault Refusal :=
  finish t s (fun s => s.dispatch start.tile start.setup start.delays)

/-- JOB_DONE (R233): A job's DONE waits for its mover queue, posts a completion record and frees the tile. -/
def execJobDone (t tile : Nat) (f : TileFacts) (s : State) : Host.Outcome State Fault Refusal := finish t s (fun s => s.jobDone tile f)

/-- TILE_ABORT (R234): A job is aborted on a tile memory error, cycle limit, mover fault, system store or withdrawal. -/
def execTileAbort (t tile cause : Nat) (f : TileFacts) (s : State) : Host.Outcome State Fault Refusal :=
  finish t s (fun s => s.tileAbort tile cause f)

/-- TILE_SPARED (R238): A spare tile takes the logical number of a tile due for test. -/
def execTileSpared (t tile : Nat) (f : TileFacts) (s : State) : Host.Outcome State Fault Refusal := finish t s (fun s => s.tileSpared tile f)

/-- TILE_KERNEL_LOAD (R236): Loads a chunk of a user kernel image and verifies it at FINAL. -/
def execTileKernelLoad (t : Nat) (c : Cmd) (s : State) : Host.Outcome State Fault Refusal :=
  finish t s (fun s => s.hostCommand 0x0601 tileKernelLoad c)

/-- TILE_KERNEL_UNLOAD (R240): Frees a user kernel slot. -/
def execTileKernelUnload (t : Nat) (c : Cmd) (s : State) : Host.Outcome State Fault Refusal :=
  finish t s (fun s => s.hostCommand 0x0602 tileKernelUnload c)

/-- TILE_RUN (R237): Queues a host job. -/
def execTileRun (t : Nat) (c : Cmd) (s : State) : Host.Outcome State Fault Refusal := finish t s (fun s => s.hostCommand 0x0603 tileRun c)

/-- TILE_STATUS (R240): Returns the tile map, kernel slots and counters. -/
def execTileStatus (t : Nat) (c : Cmd) (s : State) : Host.Outcome State Fault Refusal := finish t s (fun s => s.hostCommand 0x0604 tileStatus c)

end Sys2Proof.Machine
end

