-- ==== Sys2Proof/Machine/ExecTime.lean ====
section
/-! DEFINITION. Meanings: the time base, the time-interval units and the trail link (chapter 9). Each is its row's effect in the shape of `finish`. -/

namespace Sys2Proof.Machine

/-- PPS_IN_EDGE (R284): A qualified PPS_IN edge is stamped and judged against its expected boundary for the servo. -/
def execPpsInEdge (t : Nat) (rising : Bool) (s : State) : Host.Outcome State Fault Refusal := finish t s (fun s => s.ppsEdge rising)

/-- PPS_LOST (R284): Three missing or out-of-window edges lose the PPS source and start holdover. -/
def execPpsLost (t : Nat) (s : State) : Host.Outcome State Fault Refusal := finish t s (fun s => s.ppsLost)

/-- PTP_MESSAGE_RX (R289): A received IEEE 1588 message is timestamped and used or counted and ignored. -/
def execPtpMessageRx (t : Nat) (msg : PtpMsg) (s : State) : Host.Outcome State Fault Refusal := finish t s (fun s => s.ptpRx msg)

/-- PTP_SYNC_TIMEOUT (R284): No valid PTP Sync for 3 s loses the PTP source. -/
def execPtpSyncTimeout (t : Nat) (s : State) : Host.Outcome State Fault Refusal := finish t s (fun s => s.ptpTimeout)

/-- SERVO_RUN (R285): Once per second the servo steers out the measured offset or schedules a step. -/
def execServoRun (t : Nat) (s : State) : Host.Outcome State Fault Refusal := finish t s (fun s => s.servo)

/-- TB_STEP (R27): At a second boundary the cell count or SECOND steps, the grid is relaid and EV_TB_STEP raised. -/
def execTbStep (t : Nat) (s : State) : Host.Outcome State Fault Refusal := finish t s (fun s => s.tbStep)

/-- TIME_SET (R568): At the boundary where phase and second number are fixed TIME_SET becomes 1 and the initial HOLDOVER ends. -/
def execTimeSet (t : Nat) (s : State) : Host.Outcome State Fault Refusal := finish t s (fun s => s.setTime)

/-- HOLDOVER_END (R288): At a boundary where source, clock and offset are good the time base leaves holdover. -/
def execHoldoverEnd (t : Nat) (s : State) : Host.Outcome State Fault Refusal := finish t s (fun s => s.holdoverEnd)

/-- REFCLK_LOST (R280): Loss of REFCLK_10M holds the synthesiser, flags HOLDOVER and NOT_WARM and raises EV_TB_REFCLK_LOST. -/
def execRefclkLost (t : Nat) (s : State) : Host.Outcome State Fault Refusal := finish t s (fun s => s.refclkLost)

/-- REFCLK_RESTORED (R280): Return of REFCLK_10M relocks the synthesiser and restarts the thermos warm-up. -/
def execRefclkRestored (t : Nat) (s : State) : Host.Outcome State Fault Refusal := finish t s (fun s => s.refclkRestored)

/-- THERMOS_WARM (R281): The thermos declares the time base warm and NOT_WARM clears from the next second. -/
def execThermosWarm (t : Nat) (s : State) : Host.Outcome State Fault Refusal := finish t s (fun s => s.thermosWarm)

/-- THERMOS_NOT_WARM (R282): A steering excursion in a 10 s window makes the time base not warm. -/
def execThermosNotWarm (t : Nat) (s : State) : Host.Outcome State Fault Refusal := finish t s (fun s => s.thermosNotWarm)

/-- PPS_OUT_PULSE (R290): A PPS_OUT pulse begins at each second boundary. -/
def execPpsOutPulse (t : Nat) (s : State) : Host.Outcome State Fault Refusal := finish t s (fun s => s.ppsOutRise)

/-- TIU_SELF_CHECK (R294): Once per second idle units measure a 64-cell interval and an error starts the unit's test. -/
def execTiuSelfCheck (t unit measured : Nat) (loopLocked : Bool) (s : State) : Host.Outcome State Fault Refusal :=
  finish t s (fun s => s.tiuCheck unit measured loopLocked)

/-- TIU_SPARED (R295): TIU4 takes the place of a unit in error once idle. -/
def execTiuSpared (t unit : Nat) (s : State) : Host.Outcome State Fault Refusal := finish t s (fun s => s.tiuSpared unit)

/-- TIU_RESULT (R293): An interval arming completes with a result and EV_TIU_DONE. -/
def execTiuResult (t unit start stop : Nat) (s : State) : Host.Outcome State Fault Refusal := finish t s (fun s => s.tiuResult unit start stop)

/-- TIU_TIMEOUT (R292): An arming with no result within TIMEOUT cells ends with TIMEOUT set. -/
def execTiuTimeout (t unit : Nat) (s : State) : Host.Outcome State Fault Refusal := finish t s (fun s => s.tiuTimeout unit)

/-- TB_CONFIG (R307): Selects the time-base source and sets discipline, thermos and PPS_OUT. -/
def execTbConfig (t : Nat) (c : Cmd) (s : State) : Host.Outcome State Fault Refusal := finish t s (fun s => s.hostCommand 0x0801 tbConfig c)

/-- TB_CONFIG_TAKES_EFFECT (R307): The time-base settings take effect at a second boundary, entering holdover for a new source. -/
def execTbConfigTakesEffect (t : Nat) (s : State) : Host.Outcome State Fault Refusal := finish t s (fun s => s.tbConfigEffect)

/-- TB_STATUS (R306): Returns time-base state and counters. -/
def execTbStatus (t : Nat) (c : Cmd) (s : State) : Host.Outcome State Fault Refusal := finish t s (fun s => s.hostCommand 0x0802 tbStatus c)

/-- TIU_MEASURE (R308): Schedules an interval arming. -/
def execTiuMeasure (t : Nat) (c : Cmd) (s : State) : Host.Outcome State Fault Refusal := finish t s (fun s => s.hostCommand 0x0803 tiuMeasure c)

/-- TIU_ARMED (R308): The interval arming is placed on a unit at apply-at. -/
def execTiuArmed (t : Nat) (s : State) : Host.Outcome State Fault Refusal := finish t s (fun s => s.armEffect)

/-- TIU_LAUNCH_ZERO (R296): Starts a launch-zero measurement of spot shots. -/
def execTiuLaunchZero (t : Nat) (c : Cmd) (s : State) : Host.Outcome State Fault Refusal := finish t s (fun s => s.hostCommand 0x0804 tiuLaunchZero c)

/-- LAUNCH_ZERO_DONE (R296): After its shots the launch zero is computed and EV_TIU_LAUNCH_ZERO raised. -/
def execLaunchZeroDone (t line : Nat) (s : State) : Host.Outcome State Fault Refusal := finish t s (fun s => s.launchZeroDone line)

/-- TIU_STATUS (R297): Returns unit states, counters and launch zeros. -/
def execTiuStatus (t : Nat) (c : Cmd) (s : State) : Host.Outcome State Fault Refusal := finish t s (fun s => s.hostCommand 0x0805 tiuStatus c)

/-- TRAIL_CONFIG (R309): Sets node ID, role, ports and asymmetry. -/
def execTrailConfig (t : Nat) (c : Cmd) (s : State) : Host.Outcome State Fault Refusal := finish t s (fun s => s.hostCommand 0x0806 trailConfig c)

/-- TRAIL_CONFIG_TAKES_EFFECT (R309): The trail settings take effect at a second boundary. -/
def execTrailConfigTakesEffect (t : Nat) (s : State) : Host.Outcome State Fault Refusal := finish t s (fun s => s.trailConfigEffect)

/-- TRAIL_STATUS (R306): Returns trail state and counters. -/
def execTrailStatus (t : Nat) (c : Cmd) (s : State) : Host.Outcome State Fault Refusal := finish t s (fun s => s.hostCommand 0x0807 trailStatus c)

/-- SYNC_TX (R299): At each second boundary a parent sends SYNC on its downward ports. -/
def execSyncTx (t : Nat) (s : State) : Host.Outcome State Fault Refusal := finish t s (fun s => s.syncTx)

/-- SYNC_RX (R300): A received SYNC gives the servo its offset and sets SECOND and flags. -/
def execSyncRx (t : Nat) (rx : TrailRx) (s : State) : Host.Outcome State Fault Refusal := finish t s (fun s => s.syncRx rx)

/-- TOPO_TX (R299): A node sends TOPO upwards at cell 100 000 000 each second. -/
def execTopoTx (t : Nat) (s : State) : Host.Outcome State Fault Refusal := finish t s (fun s => s.topoTx)

/-- TOPO_RX (R298): A received TOPO updates depth and subtree and may raise EV_TRAIL_ID_CONFLICT. -/
def execTopoRx (t : Nat) (rx : TrailRx) (s : State) : Host.Outcome State Fault Refusal := finish t s (fun s => s.topoRx rx)

/-- DELAY_REQ_TX (R300): A child sends DELAY_REQ at cell 250 000 000 each second. -/
def execDelayReqTx (t : Nat) (s : State) : Host.Outcome State Fault Refusal := finish t s (fun s => s.delayReqTx)

/-- DELAY_REQ_RX (R300): A parent stamps a DELAY_REQ and replies with DELAY_RESP. -/
def execDelayReqRx (t : Nat) (rx : TrailRx) (s : State) : Host.Outcome State Fault Refusal := finish t s (fun s => s.delayReqRx rx)

/-- DELAY_RESP_RX (R300): A child stamps the reply and updates its hop-delay median. -/
def execDelayRespRx (t : Nat) (rx : TrailRx) (s : State) : Host.Outcome State Fault Refusal := finish t s (fun s => s.delayRespRx rx)

/-- BCAST_ORIGINATE (R304): A condition with a broadcast action sends BCAST on all ports. -/
def execBcastOriginate (t cond : Nat) (s : State) : Host.Outcome State Fault Refusal := finish t s (fun s => s.bcastOriginate cond)

/-- TRAIL_SOURCE_LOST (R302): Missing SYNCs, lost alignment or excess depth loses the trail source and starts holdover. -/
def execTrailSourceLost (t : Nat) (s : State) : Host.Outcome State Fault Refusal := finish t s (fun s => s.trailLost)

end Sys2Proof.Machine
end

