-- ==== Sys2Proof/Machine/ExecTrig.lean ====
section
/-! DEFINITION. Meanings: triggers and captures (chapter 8). Each is its row's effect in the shape of `finish`. -/

namespace Sys2Proof.Machine

/-- POINT_HITS_DECIDED (R247): A trigger job's hits of a quire are decided for the line's point conditions. -/
def execPointHitsDecided (t line : Nat) (s : State) : Host.Outcome State Fault Refusal := finish t s (fun s => s.decideHits line)

/-- TRIG_IN_EDGE (R249): A qualified TRIG_IN edge meets its condition and is stamped by a time-interval unit. -/
def execTrigInEdge (t input : Nat) (rising : Bool) (heldNs : Nat) (s : State) : Host.Outcome State Fault Refusal :=
  finish t s (fun s => s.trigEdge input rising heldNs)

/-- BCAST_RX (R303): A received BCAST frame is forwarded and, with a good CRC, meets condition 28 or 29. -/
def execBcastRx (t : Nat) (rx : TrailRx) (s : State) : Host.Outcome State Fault Refusal := finish t s (fun s => s.bcastRx rx)

/-- TRIG_OUT_ASSERT (R254): A hit of a masked condition asserts TRIG_OUT for WIDTH cells. -/
def execTrigOutAssert (t out : Nat) (s : State) : Host.Outcome State Fault Refusal := finish t s (fun s => s.outAssert out)

/-- TRIG_OUT_WIDTH_END (R254): TRIG_OUT deasserts when its width expires. -/
def execTrigOutWidthEnd (t out : Nat) (s : State) : Host.Outcome State Fault Refusal := finish t s (fun s => s.outEnd out)

/-- CAPTURE_FORMED (R256): Hits of a trigger row are merged into regions and point captures are formed with holds. -/
def execCaptureFormed (t line : Nat) (s : State) : Host.Outcome State Fault Refusal := finish t s (fun s => s.formCapture line)

/-- CAPTURE_ROW_COPY (R261): A row of a point capture is copied from the felt into the capture region. -/
def execCaptureRowCopy (t record : Nat) (s : State) : Host.Outcome State Fault Refusal := finish t s (fun s => s.copyRow record)

/-- RAW_TRIGGER (R263): A trigger of a raw set places the trigger sample in the armed segment or is counted late. -/
def execRawTrigger (t set cond : Nat) (s : State) : Host.Outcome State Fault Refusal := finish t s (fun s => s.rawTrigger set cond)

/-- RAW_SEGMENT_CLOSE (R263): An armed segment closes after its post-trigger samples are written. -/
def execRawSegmentClose (t set : Nat) (s : State) : Host.Outcome State Fault Refusal := finish t s (fun s => s.rawClose set)

/-- RAW_REARM (R264): The next segment of a raw set is armed once a free segment exists. -/
def execRawRearm (t set : Nat) (s : State) : Host.Outcome State Fault Refusal := finish t s (fun s => s.rawRearm set)

/-- RAW_COPY_OUT (R265): A closed segment is copied into a pool record and its store segment freed. -/
def execRawCopyOut (t set : Nat) (s : State) : Host.Outcome State Fault Refusal := finish t s (fun s => s.rawCopy set)

/-- TRIG_DEFINE (R271): Defines or replaces a trigger condition. -/
def execTrigDefine (t : Nat) (c : Cmd) (s : State) : Host.Outcome State Fault Refusal := finish t s (fun s => s.hostCommand 0x0701 trigDefine c)

/-- TRIG_ARM (R272): Schedules arming of named conditions. -/
def execTrigArm (t : Nat) (c : Cmd) (s : State) : Host.Outcome State Fault Refusal :=
  finish t s (fun s => s.hostCommand 0x0702 trigArm (asForm c 4 0 [1, 2]))

/-- TRIG_DISARM (R272): Schedules disarming of named conditions, drain or immediate. -/
def execTrigDisarm (t : Nat) (c : Cmd) (s : State) : Host.Outcome State Fault Refusal :=
  finish t s (fun s => s.hostCommand 0x0702 trigArm (asForm c 4 1 [0]))

/-- TRIG_ARM_TAKES_EFFECT (R272): Arming or disarming takes effect at the line's quire boundary or at apply-at. -/
def execTrigArmTakesEffect (t cond : Nat) (s : State) : Host.Outcome State Fault Refusal := finish t s (fun s => s.armRow cond)

/-- TRIG_REBASE (R246): Schedules clearing of BASE of integrated-phase conditions. -/
def execTrigRebase (t : Nat) (c : Cmd) (s : State) : Host.Outcome State Fault Refusal := finish t s (fun s => s.hostCommand 0x0703 trigRebase c)

/-- TRIG_REBASE_TAKES_EFFECT (R246): BASE is cleared at the next quire boundary of the condition's line. -/
def execTrigRebaseTakesEffect (t cond : Nat) (s : State) : Host.Outcome State Fault Refusal := finish t s (fun s => s.rebaseRow cond)

/-- TRIG_OUT (R254): Sets a TRIG_OUT output's polarity, width and mask. -/
def execTrigOut (t : Nat) (c : Cmd) (s : State) : Host.Outcome State Fault Refusal := finish t s (fun s => s.hostCommand 0x0704 trigOut c)

/-- TRIG_STATUS (R244): Returns a condition's counters. -/
def execTrigStatus (t : Nat) (c : Cmd) (s : State) : Host.Outcome State Fault Refusal := finish t s (fun s => s.hostCommand 0x0705 trigStatus c)

/-- CAP_CONFIG (R273): Sets the capture region size for the next restore. -/
def execCapConfig (t : Nat) (c : Cmd) (s : State) : Host.Outcome State Fault Refusal := finish t s (fun s => s.hostCommand 0x0706 capConfig c)

/-- CAP_RAW_ARM (R274): Defines and arms a raw set. -/
def execCapRawArm (t : Nat) (c : Cmd) (s : State) : Host.Outcome State Fault Refusal := finish t s (fun s => s.hostCommand 0x0707 capRawArm c)

/-- CAP_RAW_STOP (R275): Stops raw sets, drain or immediate. -/
def execCapRawStop (t : Nat) (c : Cmd) (s : State) : Host.Outcome State Fault Refusal := finish t s (fun s => s.hostCommand 0x0708 capRawStop c)

/-- CAP_RAW_DONE (R275): A raw set ends by TOTAL or stop and EV_CAP_RAW_DONE reports its segments. -/
def execCapRawDone (t set : Nat) (s : State) : Host.Outcome State Fault Refusal := finish t s (fun s => (s.rawDone set).advance)

/-- CAP_FORCE (R243): Meets software condition 31 at the next released lane word. -/
def execCapForce (t : Nat) (c : Cmd) (s : State) : Host.Outcome State Fault Refusal := finish t s (fun s => s.hostCommand 0x0709 capForce c)

/-- CAP_LIST (R266): Lists ready capture records in SEQ order. -/
def execCapList (t : Nat) (c : Cmd) (s : State) : Host.Outcome State Fault Refusal := finish t s (fun s => s.hostCommand 0x070A capList c)

/-- CAP_RELEASE (R276): Frees named records and clears named storm records. -/
def execCapRelease (t : Nat) (c : Cmd) (s : State) : Host.Outcome State Fault Refusal := finish t s (fun s => s.hostCommand 0x070B capRelease c)

/-- CAP_STATUS (R269): Returns pool, store and raw-set state. -/
def execCapStatus (t : Nat) (c : Cmd) (s : State) : Host.Outcome State Fault Refusal := finish t s (fun s => s.hostCommand 0x070C capStatus c)

end Sys2Proof.Machine
end

