-- ==== Sys2Proof/Machine/ExecZone.lean ====
section
/-! DEFINITION. Meanings: zones and the panel (chapter 11). Each is its row's effect in the shape of `finish`. -/

namespace Sys2Proof.Machine

/-- ZONE_EVALUATION (R352): A zone's rules are evaluated on a hit list, slow sheet or trace and its state recomputed. -/
def execZoneEvaluation (t zone : Nat) (src : ZoneSource) (s : State) : Host.Outcome State Fault Refusal :=
  finish t s (fun s => s.zoneEvaluate zone src)

/-- ZONE_HOLD_END (R348): A rule's HOLD_MS expires and the end is applied to the zone. -/
def execZoneHoldEnd (t zone rule : Nat) (s : State) : Host.Outcome State Fault Refusal := finish t s (fun s => s.zoneHoldEnd zone rule)

/-- ZONE_FAULT_TIMER (R350): FAULT_S or SILENT_S expires and the zone's fault begins or ends. -/
def execZoneFaultTimer (t zone : Nat) (s : State) : Host.Outcome State Fault Refusal := finish t s (fun s => s.zoneJudge zone)

/-- VREF_Z_MEASURE (R360): Every 10 ms VREF_Z is measured and out of range raises EV_PANEL_VREF. -/
def execVrefZMeasure (t mv : Nat) (s : State) : Host.Outcome State Fault Refusal := finish t s (fun s => s.vrefMeasure mv)

/-- ZONE_DEFINE (R362): Defines, replaces or removes a zone. -/
def execZoneDefine (t : Nat) (c : Cmd) (s : State) : Host.Outcome State Fault Refusal := finish t s (fun s => s.hostCommand 0x0A01 zoneDefine c)

/-- ZONE_ACK (R363): Releases the latch holds of named zones. -/
def execZoneAck (t : Nat) (c : Cmd) (s : State) : Host.Outcome State Fault Refusal := finish t s (fun s => s.hostCommand 0x0A02 zoneAck c)

/-- ZONE_STATUS (R361): Returns a zone's mirror entry, rules and counters. -/
def execZoneStatus (t : Nat) (c : Cmd) (s : State) : Host.Outcome State Fault Refusal := finish t s (fun s => s.hostCommand 0x0A03 zoneStatus c)

/-- PANEL_PINS (R359): Sets the ALARM_N and FAULT_N masks. -/
def execPanelPins (t : Nat) (c : Cmd) (s : State) : Host.Outcome State Fault Refusal := finish t s (fun s => s.hostCommand 0x0A04 panelPins c)

/-- PANEL_ZOUT (R360): Sets an analogue zone output. -/
def execPanelZout (t : Nat) (c : Cmd) (s : State) : Host.Outcome State Fault Refusal := finish t s (fun s => s.hostCommand 0x0A05 panelZout c)

/-- PANEL_STATUS (R361): Returns pins, VREF_Z and ZSP counters. -/
def execPanelStatus (t : Nat) (c : Cmd) (s : State) : Host.Outcome State Fault Refusal := finish t s (fun s => s.hostCommand 0x0A06 panelStatus c)

end Sys2Proof.Machine
end

