-- ==== Sys2Proof/Machine/Dispatch.lean ====
section
/-! DEFINITION. The dispatch: one arm per command, each one direct call of its meaning. -/

namespace Sys2Proof.Machine

def exec (i : Instr) (s : State) : Host.Outcome State Fault Refusal :=
  match i with
  | .mbDoorbell t n fetched facts => Sys2Proof.Machine.execMbDoorbell t n fetched facts s
  | .heldDoorbellRuns t n fetched facts => Sys2Proof.Machine.execHeldDoorbellRuns t n fetched facts s
  | .mbDoneClear t n => Sys2Proof.Machine.execMbDoneClear t n s
  | .ethMailboxFrame t port frame tagOk plain facts => Sys2Proof.Machine.execEthMailboxFrame t port frame tagOk plain facts s
  | .contextDoorbell t ctx value => Sys2Proof.Machine.execContextDoorbell t ctx value s
  | .winBaseWrite t value => Sys2Proof.Machine.execWinBaseWrite t value s
  | .bar2WindowRead t offset length => Sys2Proof.Machine.execBar2WindowRead t offset length s
  | .bar2WindowWrite t offset data => Sys2Proof.Machine.execBar2WindowWrite t offset data s
  | .debugWindowAccess t offset write data => Sys2Proof.Machine.execDebugWindowAccess t offset write data s
  | .registerWrite t offset data => Sys2Proof.Machine.execRegisterWrite t offset data s
  | .zspTransaction t zone edges => Sys2Proof.Machine.execZspTransaction t zone edges s
  | .smbLtuneWrite t reg code => Sys2Proof.Machine.execSmbLtuneWrite t reg code s
  | .smbAlertResponse t => Sys2Proof.Machine.execSmbAlertResponse t s
  | .sysIdentify t c => Sys2Proof.Machine.execSysIdentify t c s
  | .sysSnapshot t c => Sys2Proof.Machine.execSysSnapshot t c s
  | .snapshotCommitted t ok => Sys2Proof.Machine.execSnapshotCommitted t ok s
  | .sysRestore t c => Sys2Proof.Machine.execSysRestore t c s
  | .sysShutdown t c => Sys2Proof.Machine.execSysShutdown t c s
  | .shutdownComplete t => Sys2Proof.Machine.execShutdownComplete t s
  | .sysReset t c => Sys2Proof.Machine.execSysReset t c s
  | .resetBegins t => Sys2Proof.Machine.execResetBegins t s
  | .sysTimeRead t c => Sys2Proof.Machine.execSysTimeRead t c s
  | .sysTimeSet t c => Sys2Proof.Machine.execSysTimeSet t c s
  | .sysTimeSetBoundary t => Sys2Proof.Machine.execSysTimeSetBoundary t s
  | .sysStatus t c => Sys2Proof.Machine.execSysStatus t c s
  | .sysEvents t c => Sys2Proof.Machine.execSysEvents t c s
  | .planDefine t c => Sys2Proof.Machine.execPlanDefine t c s
  | .planApply t c => Sys2Proof.Machine.execPlanApply t c s
  | .planTakesEffect t line => Sys2Proof.Machine.execPlanTakesEffect t line s
  | .probeChange t line => Sys2Proof.Machine.execProbeChange t line s
  | .planTimeline t c => Sys2Proof.Machine.execPlanTimeline t c s
  | .probeConfig t c => Sys2Proof.Machine.execProbeConfig t c s
  | .probeIdleCodeChange t probe => Sys2Proof.Machine.execProbeIdleCodeChange t probe s
  | .probeLoad t c => Sys2Proof.Machine.execProbeLoad t c s
  | .planGateLimit t c => Sys2Proof.Machine.execPlanGateLimit t c s
  | .gateLimitTakesEffect t gate => Sys2Proof.Machine.execGateLimitTakesEffect t gate s
  | .planSpot t c => Sys2Proof.Machine.execPlanSpot t c s
  | .spotLaunch t line => Sys2Proof.Machine.execSpotLaunch t line s
  | .planStatus t c => Sys2Proof.Machine.execPlanStatus t c s
  | .gridLaunch t line => Sys2Proof.Machine.execGridLaunch t line s
  | .dutyTruncated t line => Sys2Proof.Machine.execDutyTruncated t line s
  | .emitPermitFall t => Sys2Proof.Machine.execEmitPermitFall t s
  | .emitPermitRise t => Sys2Proof.Machine.execEmitPermitRise t s
  | .emitQualified t => Sys2Proof.Machine.execEmitQualified t s
  | .laneWordRelease t quad role vdiffNv => Sys2Proof.Machine.execLaneWordRelease t quad role vdiffNv s
  | .monitorBlockEnd t quad meansMv => Sys2Proof.Machine.execMonitorBlockEnd t quad meansMv s
  | .quadWake t quad => Sys2Proof.Machine.execQuadWake t quad s
  | .quadPowerDown t quad => Sys2Proof.Machine.execQuadPowerDown t quad s
  | .rxConfig t c => Sys2Proof.Machine.execRxConfig t c s
  | .rxConfigTakesEffect t quad => Sys2Proof.Machine.execRxConfigTakesEffect t quad s
  | .rxRefConfig t c => Sys2Proof.Machine.execRxRefConfig t c s
  | .rxHold t c => Sys2Proof.Machine.execRxHold t c s
  | .rxStatus t c => Sys2Proof.Machine.execRxStatus t c s
  | .calBlockGathered t quad converter b => Sys2Proof.Machine.execCalBlockGathered t quad converter b s
  | .handover t quad => Sys2Proof.Machine.execHandover t quad s
  | .overlapEnd t quad => Sys2Proof.Machine.execOverlapEnd t quad s
  | .rotationMoveReady t quad => Sys2Proof.Machine.execRotationMoveReady t quad s
  | .calStale t quad input => Sys2Proof.Machine.execCalStale t quad input s
  | .calConfig t c => Sys2Proof.Machine.execCalConfig t c s
  | .calStatus t c => Sys2Proof.Machine.execCalStatus t c s
  | .calRead t c => Sys2Proof.Machine.execCalRead t c s
  | .sheetComplete t line input => Sys2Proof.Machine.execSheetComplete t line input s
  | .lineSpared t line unreliable => Sys2Proof.Machine.execLineSpared t line unreliable s
  | .lineUnspared t line => Sys2Proof.Machine.execLineUnspared t line s
  | .lineConfig t c => Sys2Proof.Machine.execLineConfig t c s
  | .lineConfigTakesEffect t line => Sys2Proof.Machine.execLineConfigTakesEffect t line s
  | .lineStart t c => Sys2Proof.Machine.execLineStart t c s
  | .lineStarted t line => Sys2Proof.Machine.execLineStarted t line s
  | .lineStop t c => Sys2Proof.Machine.execLineStop t c s
  | .lineStopBoundary t line => Sys2Proof.Machine.execLineStopBoundary t line s
  | .lineStopped t line => Sys2Proof.Machine.execLineStopped t line s
  | .lineStatus t c => Sys2Proof.Machine.execLineStatus t c s
  | .lineReadState t c => Sys2Proof.Machine.execLineReadState t c s
  | .feltQuireBegin t line => Sys2Proof.Machine.execFeltQuireBegin t line s
  | .quireComplete t line => Sys2Proof.Machine.execQuireComplete t line s
  | .slowQuireReleased t line => Sys2Proof.Machine.execSlowQuireReleased t line s
  | .slowOverrun t line => Sys2Proof.Machine.execSlowOverrun t line s
  | .feltResize t c => Sys2Proof.Machine.execFeltResize t c s
  | .feltResizeTakesEffect t line => Sys2Proof.Machine.execFeltResizeTakesEffect t line s
  | .feltReaderOpen t c => Sys2Proof.Machine.execFeltReaderOpen t c s
  | .feltReaderMove t c => Sys2Proof.Machine.execFeltReaderMove t c s
  | .feltReaderClose t c => Sys2Proof.Machine.execFeltReaderClose t c s
  | .feltStatus t c => Sys2Proof.Machine.execFeltStatus t c s
  | .slowConfig t c => Sys2Proof.Machine.execSlowConfig t c s
  | .slowConfigTakesEffect t line => Sys2Proof.Machine.execSlowConfigTakesEffect t line s
  | .slowStart t c => Sys2Proof.Machine.execSlowStart t c s
  | .slowStop t c => Sys2Proof.Machine.execSlowStop t c s
  | .slowStopped t line => Sys2Proof.Machine.execSlowStopped t line s
  | .slowStatus t c => Sys2Proof.Machine.execSlowStatus t c s
  | .jobDispatch t start => Sys2Proof.Machine.execJobDispatch t start s
  | .jobDone t tile f => Sys2Proof.Machine.execJobDone t tile f s
  | .tileAbort t tile cause f => Sys2Proof.Machine.execTileAbort t tile cause f s
  | .tileSpared t tile f => Sys2Proof.Machine.execTileSpared t tile f s
  | .tileKernelLoad t c => Sys2Proof.Machine.execTileKernelLoad t c s
  | .tileKernelUnload t c => Sys2Proof.Machine.execTileKernelUnload t c s
  | .tileRun t c => Sys2Proof.Machine.execTileRun t c s
  | .tileStatus t c => Sys2Proof.Machine.execTileStatus t c s
  | .pointHitsDecided t line => Sys2Proof.Machine.execPointHitsDecided t line s
  | .trigInEdge t input rising heldNs => Sys2Proof.Machine.execTrigInEdge t input rising heldNs s
  | .bcastRx t rx => Sys2Proof.Machine.execBcastRx t rx s
  | .trigOutAssert t out => Sys2Proof.Machine.execTrigOutAssert t out s
  | .trigOutWidthEnd t out => Sys2Proof.Machine.execTrigOutWidthEnd t out s
  | .captureFormed t line => Sys2Proof.Machine.execCaptureFormed t line s
  | .captureRowCopy t record => Sys2Proof.Machine.execCaptureRowCopy t record s
  | .rawTrigger t set cond => Sys2Proof.Machine.execRawTrigger t set cond s
  | .rawSegmentClose t set => Sys2Proof.Machine.execRawSegmentClose t set s
  | .rawRearm t set => Sys2Proof.Machine.execRawRearm t set s
  | .rawCopyOut t set => Sys2Proof.Machine.execRawCopyOut t set s
  | .trigDefine t c => Sys2Proof.Machine.execTrigDefine t c s
  | .trigArm t c => Sys2Proof.Machine.execTrigArm t c s
  | .trigDisarm t c => Sys2Proof.Machine.execTrigDisarm t c s
  | .trigArmTakesEffect t cond => Sys2Proof.Machine.execTrigArmTakesEffect t cond s
  | .trigRebase t c => Sys2Proof.Machine.execTrigRebase t c s
  | .trigRebaseTakesEffect t cond => Sys2Proof.Machine.execTrigRebaseTakesEffect t cond s
  | .trigOut t c => Sys2Proof.Machine.execTrigOut t c s
  | .trigStatus t c => Sys2Proof.Machine.execTrigStatus t c s
  | .capConfig t c => Sys2Proof.Machine.execCapConfig t c s
  | .capRawArm t c => Sys2Proof.Machine.execCapRawArm t c s
  | .capRawStop t c => Sys2Proof.Machine.execCapRawStop t c s
  | .capRawDone t set => Sys2Proof.Machine.execCapRawDone t set s
  | .capForce t c => Sys2Proof.Machine.execCapForce t c s
  | .capList t c => Sys2Proof.Machine.execCapList t c s
  | .capRelease t c => Sys2Proof.Machine.execCapRelease t c s
  | .capStatus t c => Sys2Proof.Machine.execCapStatus t c s
  | .ppsInEdge t rising => Sys2Proof.Machine.execPpsInEdge t rising s
  | .ppsLost t => Sys2Proof.Machine.execPpsLost t s
  | .ptpMessageRx t msg => Sys2Proof.Machine.execPtpMessageRx t msg s
  | .ptpSyncTimeout t => Sys2Proof.Machine.execPtpSyncTimeout t s
  | .servoRun t => Sys2Proof.Machine.execServoRun t s
  | .tbStep t => Sys2Proof.Machine.execTbStep t s
  | .timeSet t => Sys2Proof.Machine.execTimeSet t s
  | .holdoverEnd t => Sys2Proof.Machine.execHoldoverEnd t s
  | .refclkLost t => Sys2Proof.Machine.execRefclkLost t s
  | .refclkRestored t => Sys2Proof.Machine.execRefclkRestored t s
  | .thermosWarm t => Sys2Proof.Machine.execThermosWarm t s
  | .thermosNotWarm t => Sys2Proof.Machine.execThermosNotWarm t s
  | .ppsOutPulse t => Sys2Proof.Machine.execPpsOutPulse t s
  | .tiuSelfCheck t unit measured loopLocked => Sys2Proof.Machine.execTiuSelfCheck t unit measured loopLocked s
  | .tiuSpared t unit => Sys2Proof.Machine.execTiuSpared t unit s
  | .tiuResult t unit start stop => Sys2Proof.Machine.execTiuResult t unit start stop s
  | .tiuTimeout t unit => Sys2Proof.Machine.execTiuTimeout t unit s
  | .tbConfig t c => Sys2Proof.Machine.execTbConfig t c s
  | .tbConfigTakesEffect t => Sys2Proof.Machine.execTbConfigTakesEffect t s
  | .tbStatus t c => Sys2Proof.Machine.execTbStatus t c s
  | .tiuMeasure t c => Sys2Proof.Machine.execTiuMeasure t c s
  | .tiuArmed t => Sys2Proof.Machine.execTiuArmed t s
  | .tiuLaunchZero t c => Sys2Proof.Machine.execTiuLaunchZero t c s
  | .launchZeroDone t line => Sys2Proof.Machine.execLaunchZeroDone t line s
  | .tiuStatus t c => Sys2Proof.Machine.execTiuStatus t c s
  | .trailConfig t c => Sys2Proof.Machine.execTrailConfig t c s
  | .trailConfigTakesEffect t => Sys2Proof.Machine.execTrailConfigTakesEffect t s
  | .trailStatus t c => Sys2Proof.Machine.execTrailStatus t c s
  | .syncTx t => Sys2Proof.Machine.execSyncTx t s
  | .syncRx t rx => Sys2Proof.Machine.execSyncRx t rx s
  | .topoTx t => Sys2Proof.Machine.execTopoTx t s
  | .topoRx t rx => Sys2Proof.Machine.execTopoRx t rx s
  | .delayReqTx t => Sys2Proof.Machine.execDelayReqTx t s
  | .delayReqRx t rx => Sys2Proof.Machine.execDelayReqRx t rx s
  | .delayRespRx t rx => Sys2Proof.Machine.execDelayRespRx t rx s
  | .bcastOriginate t cond => Sys2Proof.Machine.execBcastOriginate t cond s
  | .trailSourceLost t => Sys2Proof.Machine.execTrailSourceLost t s
  | .thermalSheetTaken t line asCodes stCodes background => Sys2Proof.Machine.execThermalSheetTaken t line asCodes stCodes background s
  | .thermalIntervalClose t line => Sys2Proof.Machine.execThermalIntervalClose t line s
  | .thermalSwitch t slice refError => Sys2Proof.Machine.execThermalSwitch t slice refError s
  | .thermalSwitchSettled t slice => Sys2Proof.Machine.execThermalSwitchSettled t slice s
  | .thermSpared t slice => Sys2Proof.Machine.execThermSpared t slice s
  | .thermConfig t c => Sys2Proof.Machine.execThermConfig t c s
  | .thermConfigTakesEffect t line => Sys2Proof.Machine.execThermConfigTakesEffect t line s
  | .thermRoute t c => Sys2Proof.Machine.execThermRoute t c s
  | .thermStatus t c => Sys2Proof.Machine.execThermStatus t c s
  | .refScanStart t refError => Sys2Proof.Machine.execRefScanStart t refError s
  | .refConversionDone t conv => Sys2Proof.Machine.execRefConversionDone t conv s
  | .refLead t channel check cmMv => Sys2Proof.Machine.execRefLead t channel check cmMv s
  | .refConfig t c => Sys2Proof.Machine.execRefConfig t c s
  | .refScan t c => Sys2Proof.Machine.execRefScan t c s
  | .refUrgent t c => Sys2Proof.Machine.execRefUrgent t c s
  | .refStatus t c => Sys2Proof.Machine.execRefStatus t c s
  | .zoneEvaluation t zone src => Sys2Proof.Machine.execZoneEvaluation t zone src s
  | .zoneHoldEnd t zone rule => Sys2Proof.Machine.execZoneHoldEnd t zone rule s
  | .zoneFaultTimer t zone => Sys2Proof.Machine.execZoneFaultTimer t zone s
  | .vrefZMeasure t mv => Sys2Proof.Machine.execVrefZMeasure t mv s
  | .zoneDefine t c => Sys2Proof.Machine.execZoneDefine t c s
  | .zoneAck t c => Sys2Proof.Machine.execZoneAck t c s
  | .zoneStatus t c => Sys2Proof.Machine.execZoneStatus t c s
  | .panelPins t c => Sys2Proof.Machine.execPanelPins t c s
  | .panelZout t c => Sys2Proof.Machine.execPanelZout t c s
  | .panelStatus t c => Sys2Proof.Machine.execPanelStatus t c s
  | .baleRelease t lane stream ix firstDiff rawFails => Sys2Proof.Machine.execBaleRelease t lane stream ix firstDiff rawFails s
  | .baleNoSpace t lane stream ix cut => Sys2Proof.Machine.execBaleNoSpace t lane stream ix cut s
  | .baleProfile t c => Sys2Proof.Machine.execBaleProfile t c s
  | .baleRunEncode t c => Sys2Proof.Machine.execBaleRunEncode t c s
  | .baleRunDecode t c => Sys2Proof.Machine.execBaleRunDecode t c s
  | .baleJobDone t job => Sys2Proof.Machine.execBaleJobDone t job s
  | .baleResume t c => Sys2Proof.Machine.execBaleResume t c s
  | .baleCancel t c => Sys2Proof.Machine.execBaleCancel t c s
  | .baleStatus t c => Sys2Proof.Machine.execBaleStatus t c s
  | .dramReadDecode t port addr errors => Sys2Proof.Machine.execDramReadDecode t port addr errors s
  | .rowRemap t channel rank sub bank row => Sys2Proof.Machine.execRowRemap t channel rank sub bank row s
  | .rowTestDone t channel spare pass => Sys2Proof.Machine.execRowTestDone t channel spare pass s
  | .scrub t channel errors => Sys2Proof.Machine.execScrub t channel errors s
  | .refresh t channel cycle => Sys2Proof.Machine.execRefresh t channel cycle s
  | .wckDriftCheck t channel driftMilliUi updateOk => Sys2Proof.Machine.execWckDriftCheck t channel driftMilliUi updateOk s
  | .selfRefreshEntry t channel => Sys2Proof.Machine.execSelfRefreshEntry t channel s
  | .selfRefreshExit t channel => Sys2Proof.Machine.execSelfRefreshExit t channel s
  | .requestLate t port channel latencyNs => Sys2Proof.Machine.execRequestLate t port channel latencyNs s
  | .channelLost t channel cause => Sys2Proof.Machine.execChannelLost t channel cause s
  | .memConfig t c => Sys2Proof.Machine.execMemConfig t c s
  | .memStatus t c => Sys2Proof.Machine.execMemStatus t c s
  | .memRemaps t c => Sys2Proof.Machine.execMemRemaps t c s
  | .descriptorComplete t ctx desc data => Sys2Proof.Machine.execDescriptorComplete t ctx desc data s
  | .dmaHalted t ctx cause failAddr dirWrite devSpace => Sys2Proof.Machine.execDmaHalted t ctx cause failAddr dirWrite devSpace s
  | .msixMessage t vector => Sys2Proof.Machine.execMsixMessage t vector s
  | .streamRecordClose t stream => Sys2Proof.Machine.execStreamRecordClose t stream s
  | .bufferFlush t ctx desc => Sys2Proof.Machine.execBufferFlush t ctx desc s
  | .streamOverrun t stream => Sys2Proof.Machine.execStreamOverrun t stream s
  | .pcieLinkReset t cause => Sys2Proof.Machine.execPcieLinkReset t cause s
  | .ethLinkChange t port up => Sys2Proof.Machine.execEthLinkChange t port up s
  | .arpRequest t port ip => Sys2Proof.Machine.execArpRequest t port ip s
  | .dmaConfig t c => Sys2Proof.Machine.execDmaConfig t c s
  | .dmaResume t c => Sys2Proof.Machine.execDmaResume t c s
  | .dmaAbort t c => Sys2Proof.Machine.execDmaAbort t c s
  | .dmaLink t c => Sys2Proof.Machine.execDmaLink t c s
  | .dmaPort t c => Sys2Proof.Machine.execDmaPort t c s
  | .streamDefine t c => Sys2Proof.Machine.execStreamDefine t c s
  | .streamAttach t c => Sys2Proof.Machine.execStreamAttach t c s
  | .streamDetach t c => Sys2Proof.Machine.execStreamDetach t c s
  | .streamDetached t stream => Sys2Proof.Machine.execStreamDetached t stream s
  | .dmaStatus t c => Sys2Proof.Machine.execDmaStatus t c s
  | .eventRelease t => Sys2Proof.Machine.execEventRelease t s
  | .heartbeatTick t => Sys2Proof.Machine.execHeartbeatTick t s
  | .secChallenge t c => Sys2Proof.Machine.execSecChallenge t c s
  | .nonceExpiry t => Sys2Proof.Machine.execNonceExpiry t s
  | .secEnroll t c => Sys2Proof.Machine.execSecEnroll t c s
  | .secServiceEnter t c => Sys2Proof.Machine.execSecServiceEnter t c s
  | .secServiceLeave t c => Sys2Proof.Machine.execSecServiceLeave t c s
  | .serviceExpiry t => Sys2Proof.Machine.execServiceExpiry t s
  | .secScrap t c => Sys2Proof.Machine.execSecScrap t c s
  | .secFwLoad t c => Sys2Proof.Machine.execSecFwLoad t c s
  | .fwEraseDone t => Sys2Proof.Machine.execFwEraseDone t s
  | .secFwActivate t c => Sys2Proof.Machine.execSecFwActivate t c s
  | .secFwCommit t c => Sys2Proof.Machine.execSecFwCommit t c s
  | .trialBootTimeout t => Sys2Proof.Machine.execTrialBootTimeout t s
  | .secSessionOpen t c => Sys2Proof.Machine.execSecSessionOpen t c s
  | .secSessionClose t c => Sys2Proof.Machine.execSecSessionClose t c s
  | .sessionExpiry t session => Sys2Proof.Machine.execSessionExpiry t session s
  | .secRights t c => Sys2Proof.Machine.execSecRights t c s
  | .secStatus t c => Sys2Proof.Machine.execSecStatus t c s
  | .dbgOpen t c => Sys2Proof.Machine.execDbgOpen t c s
  | .dbgClose t c => Sys2Proof.Machine.execDbgClose t c s
  | .debugLevelExpiry t => Sys2Proof.Machine.execDebugLevelExpiry t s
  | .pwrConfig t c => Sys2Proof.Machine.execPwrConfig t c s
  | .pwrState t c => Sys2Proof.Machine.execPwrState t c s
  | .p2Entered t => Sys2Proof.Machine.execP2Entered t s
  | .p2Exit t => Sys2Proof.Machine.execP2Exit t s
  | .p3Entered t norOk => Sys2Proof.Machine.execP3Entered t norOk s
  | .p3Exit t kernelSigs boot cached durationMs failed => Sys2Proof.Machine.execP3Exit t kernelSigs boot cached durationMs failed s
  | .pwrStatus t c => Sys2Proof.Machine.execPwrStatus t c s
  | .targetedTestDone t kind index pass conditions => Sys2Proof.Machine.execTargetedTestDone t kind index pass conditions s
  | .noSpare t kind index cause => Sys2Proof.Machine.execNoSpare t kind index cause s
  | .sramError t macroIx row bit uncorrectable => Sys2Proof.Machine.execSramError t macroIx row bit uncorrectable s
  | .d2dLaneError t lane symbols uncorrectable => Sys2Proof.Machine.execD2dLaneError t lane symbols uncorrectable s
  | .selftestSegmentDone t o => Sys2Proof.Machine.execSelftestSegmentDone t o s
  | .sensorSample t thermal rails => Sys2Proof.Machine.execSensorSample t thermal rails s
  | .counterSaturated t opcode offset selector => Sys2Proof.Machine.execCounterSaturated t opcode offset selector s
  | .healthStatus t c => Sys2Proof.Machine.execHealthStatus t c s
  | .healthUnits t c => Sys2Proof.Machine.execHealthUnits t c s
  | .healthTest t c => Sys2Proof.Machine.execHealthTest t c s
  | .healthAccept t c => Sys2Proof.Machine.execHealthAccept t c s
  | .healthFuseRepair t c => Sys2Proof.Machine.execHealthFuseRepair t c s
  | .fuseRepairDone t ok => Sys2Proof.Machine.execFuseRepairDone t ok s
  | .healthResults t c => Sys2Proof.Machine.execHealthResults t c s
  | .healthSensors t c => Sys2Proof.Machine.execHealthSensors t c s
  | .healthLimits t c => Sys2Proof.Machine.execHealthLimits t c s
  | .healthLogRead t c => Sys2Proof.Machine.execHealthLogRead t c s
  | .pwrWarnRise t => Sys2Proof.Machine.execPwrWarnRise t s
  | .pwrWarnClear t => Sys2Proof.Machine.execPwrWarnClear t s
  | .powerLoss t => Sys2Proof.Machine.execPowerLoss t s
  | .powerUp t => Sys2Proof.Machine.execPowerUp t s
  | .resetNLow t lowNs => Sys2Proof.Machine.execResetNLow t lowNs s
  | .releaseFromReset t boot => Sys2Proof.Machine.execReleaseFromReset t boot s
  | .dramTrained t cached durationMs found => Sys2Proof.Machine.execDramTrained t cached durationMs found s
  | .restoreComplete t kernelSigs => Sys2Proof.Machine.execRestoreComplete t kernelSigs s
  | .resumeLinesStart t => Sys2Proof.Machine.execResumeLinesStart t s
  | .trailLinkChange t port up => Sys2Proof.Machine.execTrailLinkChange t port up s
  | .pcieLinkUp t speed width => Sys2Proof.Machine.execPcieLinkUp t speed width s
  | .streamPacketSent t ctx => Sys2Proof.Machine.execStreamPacketSent t ctx s
  | .tokenBucketRefill t ctx => Sys2Proof.Machine.execTokenBucketRefill t ctx s
  | .pauseFrameRx t port quanta => Sys2Proof.Machine.execPauseFrameRx t port quanta s
  | .ethFrameDropped t port fcsOk => Sys2Proof.Machine.execEthFrameDropped t port fcsOk s
  | .ppsOutWidthEnd t => Sys2Proof.Machine.execPpsOutWidthEnd t s
  | .fullRetrainingDone t channel durationUs pass => Sys2Proof.Machine.execFullRetrainingDone t channel durationUs pass s
  | .watchdogReset t => Sys2Proof.Machine.execWatchdogReset t s
  | .jtagInstruction t op => Sys2Proof.Machine.execJtagInstruction t op s
  | .smbClockLowTimeout t => Sys2Proof.Machine.execSmbClockLowTimeout t s

end Sys2Proof.Machine
end

