-- ==== Sys2Proof/WellFormed.lean ====
section
/-! DEFINITION. Well-formed commands: every index an operand carries names a thing the device has (R3, Tables 0.3, 3.1, 7.1, 8.1, 9.2, 13.1,
14.1, 15.1), and a host command's header fields fit Table 15.2. -/

namespace Sys2Proof

/-- The header fields fit their widths and the payload a mailbox (Table 15.2, R455). -/
def Cmd.wellFormed (c : Cmd) : Bool :=
  decide (c.mb < 8) && decide (c.flags < 65536) && decide (c.seq < 65536) && decide (c.len < 65536) && decide (c.authRef < 2 ^ 32) &&
    decide (c.reserved < 2 ^ 64) && decide (c.payload.length ≤ 4064) && (match c.eth with | some e => decide (e.1 < 2) && decide (e.2 < 2 ^ 32) | none => true)

def ZoneSource.wellFormed : ZoneSource → Bool
  | .row l => decide (l < 16)
  | .trace l => decide (l < 16)
  | .hit c => decide (c < 32)

def Instr.wellFormed : Instr → Bool
  | .mbDoorbell _ n _ _ => decide (n < 8)
  | .heldDoorbellRuns _ n _ _ => decide (n < 8)
  | .mbDoneClear _ n => decide (n < 8)
  | .ethMailboxFrame _ port _ _ _ _ => decide (port < 2)
  | .contextDoorbell _ ctx _ => decide (ctx < 256)
  | .winBaseWrite _ _ => true
  | .bar2WindowRead _ _ _ => true
  | .bar2WindowWrite _ _ _ => true
  | .debugWindowAccess _ _ _ _ => true
  | .registerWrite _ _ _ => true
  | .zspTransaction _ zone _ => decide (zone < 256)
  | .smbLtuneWrite _ reg _ => (reg == 5 || reg == 6)
  | .smbAlertResponse _ => true
  | .sysIdentify _ c => c.wellFormed
  | .sysSnapshot _ c => c.wellFormed
  | .snapshotCommitted _ _ => true
  | .sysRestore _ c => c.wellFormed
  | .sysShutdown _ c => c.wellFormed
  | .shutdownComplete _ => true
  | .sysReset _ c => c.wellFormed
  | .resetBegins _ => true
  | .sysTimeRead _ c => c.wellFormed
  | .sysTimeSet _ c => c.wellFormed
  | .sysTimeSetBoundary _ => true
  | .sysStatus _ c => c.wellFormed
  | .sysEvents _ c => c.wellFormed
  | .planDefine _ c => c.wellFormed
  | .planApply _ c => c.wellFormed
  | .planTakesEffect _ line => decide (line < 16)
  | .probeChange _ line => decide (line < 16)
  | .planTimeline _ c => c.wellFormed
  | .probeConfig _ c => c.wellFormed
  | .probeIdleCodeChange _ probe => decide (probe < 2)
  | .probeLoad _ c => c.wellFormed
  | .planGateLimit _ c => c.wellFormed
  | .gateLimitTakesEffect _ gate => decide (gate < 16)
  | .planSpot _ c => c.wellFormed
  | .spotLaunch _ line => decide (line < 16)
  | .planStatus _ c => c.wellFormed
  | .gridLaunch _ line => decide (line < 16)
  | .dutyTruncated _ line => decide (line < 16)
  | .emitPermitFall _ => true
  | .emitPermitRise _ => true
  | .emitQualified _ => true
  | .laneWordRelease _ quad role _ => decide (quad < 17) && decide (role < 5)
  | .monitorBlockEnd _ quad _ => decide (quad < 17)
  | .quadWake _ quad => decide (quad < 17)
  | .quadPowerDown _ quad => decide (quad < 17)
  | .rxConfig _ c => c.wellFormed
  | .rxConfigTakesEffect _ quad => decide (quad < 17)
  | .rxRefConfig _ c => c.wellFormed
  | .rxHold _ c => c.wellFormed
  | .rxStatus _ c => c.wellFormed
  | .calBlockGathered _ quad converter _ => decide (quad < 17) && decide (converter < 5)
  | .handover _ quad => decide (quad < 17)
  | .overlapEnd _ quad => decide (quad < 17)
  | .rotationMoveReady _ quad => decide (quad < 17)
  | .calStale _ quad input => decide (quad < 17) && decide (input < 4)
  | .calConfig _ c => c.wellFormed
  | .calStatus _ c => c.wellFormed
  | .calRead _ c => c.wellFormed
  | .sheetComplete _ line _ => decide (line < 16)
  | .lineSpared _ line _ => decide (line < 16)
  | .lineUnspared _ line => decide (line < 16)
  | .lineConfig _ c => c.wellFormed
  | .lineConfigTakesEffect _ line => decide (line < 16)
  | .lineStart _ c => c.wellFormed
  | .lineStarted _ line => decide (line < 16)
  | .lineStop _ c => c.wellFormed
  | .lineStopBoundary _ line => decide (line < 16)
  | .lineStopped _ line => decide (line < 16)
  | .lineStatus _ c => c.wellFormed
  | .lineReadState _ c => c.wellFormed
  | .feltQuireBegin _ line => decide (line < 16)
  | .quireComplete _ line => decide (line < 16)
  | .slowQuireReleased _ line => decide (line < 16)
  | .slowOverrun _ line => decide (line < 16)
  | .feltResize _ c => c.wellFormed
  | .feltResizeTakesEffect _ line => decide (line < 16)
  | .feltReaderOpen _ c => c.wellFormed
  | .feltReaderMove _ c => c.wellFormed
  | .feltReaderClose _ c => c.wellFormed
  | .feltStatus _ c => c.wellFormed
  | .slowConfig _ c => c.wellFormed
  | .slowConfigTakesEffect _ line => decide (line < 16)
  | .slowStart _ c => c.wellFormed
  | .slowStop _ c => c.wellFormed
  | .slowStopped _ line => decide (line < 16)
  | .slowStatus _ c => c.wellFormed
  | .jobDispatch _ start => decide (start.tile < 36)
  | .jobDone _ tile _ => decide (tile < 36)
  | .tileAbort _ tile _ _ => decide (tile < 36)
  | .tileSpared _ tile _ => decide (tile < 36)
  | .tileKernelLoad _ c => c.wellFormed
  | .tileKernelUnload _ c => c.wellFormed
  | .tileRun _ c => c.wellFormed
  | .tileStatus _ c => c.wellFormed
  | .pointHitsDecided _ line => decide (line < 16)
  | .trigInEdge _ input _ _ => decide (input < 4)
  | .bcastRx _ _ => true
  | .trigOutAssert _ out => decide (out < 4)
  | .trigOutWidthEnd _ out => decide (out < 4)
  | .captureFormed _ line => decide (line < 16)
  | .captureRowCopy _ _ => true
  | .rawTrigger _ set cond => decide (set < 4) && decide (cond < 32)
  | .rawSegmentClose _ set => decide (set < 4)
  | .rawRearm _ set => decide (set < 4)
  | .rawCopyOut _ set => decide (set < 4)
  | .trigDefine _ c => c.wellFormed
  | .trigArm _ c => c.wellFormed
  | .trigDisarm _ c => c.wellFormed
  | .trigArmTakesEffect _ cond => decide (cond < 32)
  | .trigRebase _ c => c.wellFormed
  | .trigRebaseTakesEffect _ cond => decide (cond < 32)
  | .trigOut _ c => c.wellFormed
  | .trigStatus _ c => c.wellFormed
  | .capConfig _ c => c.wellFormed
  | .capRawArm _ c => c.wellFormed
  | .capRawStop _ c => c.wellFormed
  | .capRawDone _ set => decide (set < 4)
  | .capForce _ c => c.wellFormed
  | .capList _ c => c.wellFormed
  | .capRelease _ c => c.wellFormed
  | .capStatus _ c => c.wellFormed
  | .ppsInEdge _ _ => true
  | .ppsLost _ => true
  | .ptpMessageRx _ _ => true
  | .ptpSyncTimeout _ => true
  | .servoRun _ => true
  | .tbStep _ => true
  | .timeSet _ => true
  | .holdoverEnd _ => true
  | .refclkLost _ => true
  | .refclkRestored _ => true
  | .thermosWarm _ => true
  | .thermosNotWarm _ => true
  | .ppsOutPulse _ => true
  | .tiuSelfCheck _ unit _ _ => decide (unit < 5)
  | .tiuSpared _ unit => decide (unit < 5)
  | .tiuResult _ unit _ _ => decide (unit < 5)
  | .tiuTimeout _ unit => decide (unit < 5)
  | .tbConfig _ c => c.wellFormed
  | .tbConfigTakesEffect _ => true
  | .tbStatus _ c => c.wellFormed
  | .tiuMeasure _ c => c.wellFormed
  | .tiuArmed _ => true
  | .tiuLaunchZero _ c => c.wellFormed
  | .launchZeroDone _ line => decide (line < 16)
  | .tiuStatus _ c => c.wellFormed
  | .trailConfig _ c => c.wellFormed
  | .trailConfigTakesEffect _ => true
  | .trailStatus _ c => c.wellFormed
  | .syncTx _ => true
  | .syncRx _ _ => true
  | .topoTx _ => true
  | .topoRx _ _ => true
  | .delayReqTx _ => true
  | .delayReqRx _ _ => true
  | .delayRespRx _ _ => true
  | .bcastOriginate _ cond => decide (cond < 32)
  | .trailSourceLost _ => true
  | .thermalSheetTaken _ line _ _ _ => decide (line < 16)
  | .thermalIntervalClose _ line => decide (line < 16)
  | .thermalSwitch _ slice _ => decide (slice < 4)
  | .thermalSwitchSettled _ slice => decide (slice < 4)
  | .thermSpared _ slice => decide (slice < 5)
  | .thermConfig _ c => c.wellFormed
  | .thermConfigTakesEffect _ line => decide (line < 16)
  | .thermRoute _ c => c.wellFormed
  | .thermStatus _ c => c.wellFormed
  | .refScanStart _ _ => true
  | .refConversionDone _ _ => true
  | .refLead _ channel _ _ => decide (channel < 8)
  | .refConfig _ c => c.wellFormed
  | .refScan _ c => c.wellFormed
  | .refUrgent _ c => c.wellFormed
  | .refStatus _ c => c.wellFormed
  | .zoneEvaluation _ zone src => decide (zone < 256) && src.wellFormed
  | .zoneHoldEnd _ zone rule => decide (zone < 256) && decide (rule < 4)
  | .zoneFaultTimer _ zone => decide (zone < 256)
  | .vrefZMeasure _ _ => true
  | .zoneDefine _ c => c.wellFormed
  | .zoneAck _ c => c.wellFormed
  | .zoneStatus _ c => c.wellFormed
  | .panelPins _ c => c.wellFormed
  | .panelZout _ c => c.wellFormed
  | .panelStatus _ c => c.wellFormed
  | .baleRelease _ lane _ _ _ _ => decide (lane < 4)
  | .baleNoSpace _ lane _ _ _ => decide (lane < 4)
  | .baleProfile _ c => c.wellFormed
  | .baleRunEncode _ c => c.wellFormed
  | .baleRunDecode _ c => c.wellFormed
  | .baleJobDone _ _ => true
  | .baleResume _ c => c.wellFormed
  | .baleCancel _ c => c.wellFormed
  | .baleStatus _ c => c.wellFormed
  | .dramReadDecode _ port _ _ => decide (port < 5)
  | .rowRemap _ channel rank sub bank _ => decide (channel < 4) && decide (rank < 2) && decide (sub < 2) && decide (bank < 16)
  | .rowTestDone _ channel _ _ => decide (channel < 4)
  | .scrub _ channel _ => decide (channel < 4)
  | .refresh _ channel cycle => decide (channel < 4) && decide (cycle.bank < 16)
  | .wckDriftCheck _ channel _ _ => decide (channel < 4)
  | .selfRefreshEntry _ channel => decide (channel < 4)
  | .selfRefreshExit _ channel => decide (channel < 4)
  | .requestLate _ port channel _ => decide (port < 5) && decide (channel < 4)
  | .channelLost _ channel _ => decide (channel < 4)
  | .memConfig _ c => c.wellFormed
  | .memStatus _ c => c.wellFormed
  | .memRemaps _ c => c.wellFormed
  | .descriptorComplete _ ctx _ _ => decide (ctx < 256)
  | .dmaHalted _ ctx _ _ _ _ => decide (ctx < 256)
  | .msixMessage _ vector => decide (vector < 64)
  | .streamRecordClose _ stream => decide (stream < 256)
  | .bufferFlush _ ctx _ => decide (ctx < 256)
  | .streamOverrun _ stream => decide (stream < 256)
  | .pcieLinkReset _ _ => true
  | .ethLinkChange _ port _ => decide (port < 2)
  | .arpRequest _ port _ => decide (port < 2)
  | .dmaConfig _ c => c.wellFormed
  | .dmaResume _ c => c.wellFormed
  | .dmaAbort _ c => c.wellFormed
  | .dmaLink _ c => c.wellFormed
  | .dmaPort _ c => c.wellFormed
  | .streamDefine _ c => c.wellFormed
  | .streamAttach _ c => c.wellFormed
  | .streamDetach _ c => c.wellFormed
  | .streamDetached _ stream => decide (stream < 256)
  | .dmaStatus _ c => c.wellFormed
  | .eventRelease _ => true
  | .heartbeatTick _ => true
  | .secChallenge _ c => c.wellFormed
  | .nonceExpiry _ => true
  | .secEnroll _ c => c.wellFormed
  | .secServiceEnter _ c => c.wellFormed
  | .secServiceLeave _ c => c.wellFormed
  | .serviceExpiry _ => true
  | .secScrap _ c => c.wellFormed
  | .secFwLoad _ c => c.wellFormed
  | .fwEraseDone _ => true
  | .secFwActivate _ c => c.wellFormed
  | .secFwCommit _ c => c.wellFormed
  | .trialBootTimeout _ => true
  | .secSessionOpen _ c => c.wellFormed
  | .secSessionClose _ c => c.wellFormed
  | .sessionExpiry _ _ => true
  | .secRights _ c => c.wellFormed
  | .secStatus _ c => c.wellFormed
  | .dbgOpen _ c => c.wellFormed
  | .dbgClose _ c => c.wellFormed
  | .debugLevelExpiry _ => true
  | .pwrConfig _ c => c.wellFormed
  | .pwrState _ c => c.wellFormed
  | .p2Entered _ => true
  | .p2Exit _ => true
  | .p3Entered _ _ => true
  | .p3Exit _ _ _ _ _ _ => true
  | .pwrStatus _ c => c.wellFormed
  | .targetedTestDone _ _ _ _ _ => true
  | .noSpare _ _ _ _ => true
  | .sramError _ macroIx _ _ _ => decide (macroIx < 1152)
  | .d2dLaneError _ lane _ _ => decide (lane < 136)
  | .selftestSegmentDone _ _ => true
  | .sensorSample _ _ _ => true
  | .counterSaturated _ _ _ _ => true
  | .healthStatus _ c => c.wellFormed
  | .healthUnits _ c => c.wellFormed
  | .healthTest _ c => c.wellFormed
  | .healthAccept _ c => c.wellFormed
  | .healthFuseRepair _ c => c.wellFormed
  | .fuseRepairDone _ _ => true
  | .healthResults _ c => c.wellFormed
  | .healthSensors _ c => c.wellFormed
  | .healthLimits _ c => c.wellFormed
  | .healthLogRead _ c => c.wellFormed
  | .pwrWarnRise _ => true
  | .pwrWarnClear _ => true
  | .powerLoss _ => true
  | .powerUp _ => true
  | .resetNLow _ _ => true
  | .releaseFromReset _ _ => true
  | .dramTrained _ _ _ _ => true
  | .restoreComplete _ _ => true
  | .resumeLinesStart _ => true
  | .trailLinkChange _ port _ => decide (port < 4)
  | .pcieLinkUp _ _ _ => true
  | .streamPacketSent _ ctx => decide (ctx < 256)
  | .tokenBucketRefill _ ctx => decide (ctx < 256)
  | .pauseFrameRx _ port _ => decide (port < 2)
  | .ethFrameDropped _ port _ => decide (port < 2)
  | .ppsOutWidthEnd _ => true
  | .fullRetrainingDone _ channel _ _ => decide (channel < 4)
  | .watchdogReset _ => true
  | .jtagInstruction _ _ => true
  | .smbClockLowTimeout _ => true

end Sys2Proof
end

