-- ==== Sys2Proof/Safety.lean ====
section
/-! DEFINITION. What a safe state of the device is, in the terms the statements use. -/

namespace Sys2Proof.Machine

/-- Emission is off at every output: every gate is inactive and neither probe's DACs play (R60, R62, R569). -/
def State.quiet (s : State) : Bool := s.gateRun.all (fun g => g.openSince.isNone) && s.probeRun.all (fun p => p.playing.isNone)

/-- While emission is forbidden nothing is emitted (R62, R569). -/
def State.emissionSafe (s : State) : Prop := s.dark = true → s.quiet = true

/-- The panel pins are those the zone mirror and the device stand for (R359, R360). -/
def State.pinsFollow (s : State) : Prop := s.panel.pins = s.pinsNow

/-- SMB_ALERT_N is asserted only while its condition holds (R563). -/
def State.alertSound (s : State) : Prop := s.health.smbAlert = true → s.health.alertCond = true

/-! ### What follows the state by itself, set apart

Time, the event queue and its log, the stamp-flag history, gates and probe DACs under the interlock, the panel pins, NOT_EVALUATING and SMB_ALERT_N
move at every command. What is left of the components that hold them is named here, so that a frame can speak of it. -/

/-- The health state but for the count of dropped log entries and SMB_ALERT_N. -/
def Health.kept (h : Health) : Health := { h with logDropped := 0, smbAlert := false, alertCond := false }

/-- A zone but for NOT_EVALUATING and what stopping its evaluation empties. -/
def ZoneRun.muted (z : ZoneRun) : ZoneRun := { z with notEval := true, seq := false, stopped := true, inbox := [] }

/-- The zones but for NOT_EVALUATING. -/
def mutedZones (l : List ZoneRun) : List ZoneRun := l.map ZoneRun.muted

/-- The panel but for the pins that follow the mirror. -/
def Panel.kept (p : Panel) : Panel := { p with pins := Pins.reset, evaluating := false }

/-! ### Completion -/

/-- A command completes: it answers a next state, of which `post` holds. -/
def Completes (i : Instr) (s : State) (post : State → Prop) : Prop := ∃ u, exec i s = .next u ∧ post u

/-- A mailbox takes a command by doorbell as a new one (R450, R452, R456): the mailbox is ready, the CPC runs, and the sequence is new. -/
def State.takes (s : State) (c : Cmd) : Bool :=
  c.eth.isNone && decide (c.mb < s.mbs.length) && !(s.mbOf c.mb).held && (s.mbOf c.mb).st != 1 && (s.mbOf c.mb).st != 3 && !s.dbg.cpcHalted &&
    (match (s.mbOf c.mb).lastSeq with
      | none => true
      | some q => (c.seq + 65536 - q % 65536) % 65536 != 0 && decide ((c.seq + 65536 - q % 65536) % 65536 < 32768))

/-- A command passes checks 1 to 6 of Table 15.5, and there is room for one more pending command (R457, R461). -/
def State.admits (s : State) (op : Nat) (c : Cmd) : Bool := s.takes c && (precheck op c s).isNone && decide (s.hostPending.length < maxPending)

/-- A command has been answered in its mailbox with a status and a payload (R451, R455, R456). -/
def State.answered (u : State) (c : Cmd) (status : Nat) (body : List Byte) : Prop :=
  (∃ eff, (u.mbOf c.mb).stored = respBytes c.seq ⟨status, none, body⟩ eff) ∧ (u.mbOf c.mb).lastSeq = some (c.seq % 65536) ∧
    (u.mbOf c.mb).st = 2 ∧ (u.mbOf c.mb).done = true

/-- A command joined those that wait, for the units it names (R460). -/
def State.awaits (u s : State) (c : Cmd) (op : Nat) (units : List Nat) (due : Option Nat) : Prop :=
  u.pend = s.pend ++ [⟨op, c.mb, c.seq, s.now, c.at_ s, due, units, c.arg⟩]

/-- An event stands in the queue, by its code, source and arguments (R464). -/
def State.reported (u : State) (code src : Nat) (args : List Byte) : Prop := ∃ r ∈ u.ev.held, r.code = code ∧ r.src = src ∧ r.args = fit 12 args

/-- An event of a code and source stands in the queue, alone or in a record it joined (R464, R466). -/
def State.heard (u : State) (code src : Nat) : Prop := ∃ r ∈ u.ev.held, r.code = code ∧ r.src = src

/-- Events enter the queue of the device, which has room (R465, R467, R498). -/
def State.canReport (s : State) : Bool := !s.onDie && decide (s.ev.held.length + 64 ≤ queueSpace)

/-! ### Canonical memory -/

/-- The DRAM's list of bytes is in canonical form: addresses strictly rising, and no byte listed that an unlisted address reads as. -/
def Memory.wf (m : List Host.Cell) : Bool := swf 0#8 0 m

/-! ### What a command may change -/

/-- The security state but for nonces, the count of failed authentications, and the sessions' frame counters, which any command may move. -/
def Security.kept (k : Security) : Security :=
  { k with nonces := [], authFails := 0, sessions := k.sessions.map (fun e => { e with rxCounter := none, txCounter := 0 }) }

/-- The system state but for the counts of duplicate and stale sequences, which any command may move. -/
def Sys.kept (y : Sys) : Sys := { y with duplicates := 0, stale := 0 }

/-- A port but for the count of frames it sent, which any response may move. -/
def PortRun.kept (p : PortRun) : PortRun := { p with framesTx := 0 }

/-- A vector but for the causes that wait on it, which any response may add to. -/
def Vector.kept (v : Vector) : Vector := { v with causes := [] }

/-- The components of the state that a frame speaks of. -/
inductive StatePart where
  | freeUse
  | sys
  | cfg
  | mbs
  | pend
  | tb
  | tiu
  | trail
  | grid
  | emit
  | lines
  | ctxs
  | streams
  | ports
  | vectors
  | pcie
  | sec
  | dbg
  | pwr
  | health
  | dram
  | ltune
  | quads
  | cal
  | refPath
  | felt
  | slow
  | tiles
  | mem
  | trig
  | therm
  | zones
  | panel
  | bale
  | memMask
  | capMibNow
deriving DecidableEq, Repr

/-- A component is as it was, but for what moves at every command. -/
def State.keeps (s u : State) : StatePart → Prop
  | .freeUse => u.free = s.free
  | .sys => u.sys.kept = s.sys.kept
  | .cfg => u.cfg = s.cfg
  | .mbs => u.mbs = s.mbs
  | .pend => u.pend = s.pend
  | .tb => u.tb = s.tb
  | .tiu => u.tiu = s.tiu
  | .trail => u.trail = s.trail
  | .grid => u.grid = s.grid
  | .emit => u.emit = s.emit
  | .lines => u.lines = s.lines
  | .ctxs => u.ctxs = s.ctxs
  | .streams => u.streams = s.streams
  | .ports => u.ports.map PortRun.kept = s.ports.map PortRun.kept
  | .vectors => u.vectors.map Vector.kept = s.vectors.map Vector.kept
  | .pcie => u.pcie = s.pcie
  | .sec => u.sec.kept = s.sec.kept
  | .dbg => u.dbg = s.dbg
  | .pwr => u.pwr = s.pwr
  | .health => u.health.kept = s.health.kept
  | .dram => u.dram = s.dram
  | .ltune => u.ltune = s.ltune
  | .quads => u.quads = s.quads
  | .cal => u.cal = s.cal
  | .refPath => u.ref2 = s.ref2
  | .felt => u.felt = s.felt
  | .slow => u.slow = s.slow
  | .tiles => u.tiles = s.tiles
  | .mem => u.mem = s.mem
  | .trig => u.trig = s.trig
  | .therm => u.therm = s.therm
  | .zones => mutedZones u.zones = mutedZones s.zones
  | .panel => u.panel.kept = s.panel.kept
  | .bale => u.bale = s.bale
  | .memMask => u.memMask = s.memMask
  | .capMibNow => u.capMibNow = s.capMibNow

/-- The families of the command table. -/
inductive Family where
  /-- chapters 2 to 4: plans, emission, receive front end, calender -/
  | planRx
  /-- chapters 5 and 6: line engines, felt, slow time -/
  | lineFelt
  /-- chapters 7 and 8: tiles, triggers, captures -/
  | tileTrig
  /-- chapter 9: time base, time-interval units, trail -/
  | time
  /-- chapters 10 and 11: temperature, zones, panel -/
  | thermZone
  /-- chapters 12 to 14: bales, memory, DMA, links -/
  | memoryLinks
  /-- host accesses to mailboxes, registers, windows and pins, and the rows added at the table's end -/
  | hostAccess
  /-- chapters 15 to 17: system, boot, security, power, health -/
  | system
deriving DecidableEq, Repr

/-- The family of a command. -/
def familyOf : Instr → Family
  | .mbDoorbell .. => .hostAccess
  | .heldDoorbellRuns .. => .hostAccess
  | .mbDoneClear .. => .hostAccess
  | .ethMailboxFrame .. => .hostAccess
  | .contextDoorbell .. => .hostAccess
  | .winBaseWrite .. => .hostAccess
  | .bar2WindowRead .. => .hostAccess
  | .bar2WindowWrite .. => .hostAccess
  | .debugWindowAccess .. => .hostAccess
  | .registerWrite .. => .hostAccess
  | .zspTransaction .. => .hostAccess
  | .smbLtuneWrite .. => .hostAccess
  | .smbAlertResponse .. => .hostAccess
  | .sysIdentify .. => .system
  | .sysSnapshot .. => .system
  | .snapshotCommitted .. => .system
  | .sysRestore .. => .system
  | .sysShutdown .. => .system
  | .shutdownComplete .. => .system
  | .sysReset .. => .system
  | .resetBegins .. => .system
  | .sysTimeRead .. => .system
  | .sysTimeSet .. => .system
  | .sysTimeSetBoundary .. => .system
  | .sysStatus .. => .system
  | .sysEvents .. => .system
  | .planDefine .. => .planRx
  | .planApply .. => .planRx
  | .planTakesEffect .. => .planRx
  | .probeChange .. => .planRx
  | .planTimeline .. => .planRx
  | .probeConfig .. => .planRx
  | .probeIdleCodeChange .. => .planRx
  | .probeLoad .. => .planRx
  | .planGateLimit .. => .planRx
  | .gateLimitTakesEffect .. => .planRx
  | .planSpot .. => .planRx
  | .spotLaunch .. => .planRx
  | .planStatus .. => .planRx
  | .gridLaunch .. => .planRx
  | .dutyTruncated .. => .planRx
  | .emitPermitFall .. => .planRx
  | .emitPermitRise .. => .planRx
  | .emitQualified .. => .planRx
  | .laneWordRelease .. => .planRx
  | .monitorBlockEnd .. => .planRx
  | .quadWake .. => .planRx
  | .quadPowerDown .. => .planRx
  | .rxConfig .. => .planRx
  | .rxConfigTakesEffect .. => .planRx
  | .rxRefConfig .. => .planRx
  | .rxHold .. => .planRx
  | .rxStatus .. => .planRx
  | .calBlockGathered .. => .planRx
  | .handover .. => .planRx
  | .overlapEnd .. => .planRx
  | .rotationMoveReady .. => .planRx
  | .calStale .. => .planRx
  | .calConfig .. => .planRx
  | .calStatus .. => .planRx
  | .calRead .. => .planRx
  | .sheetComplete .. => .lineFelt
  | .lineSpared .. => .lineFelt
  | .lineUnspared .. => .lineFelt
  | .lineConfig .. => .lineFelt
  | .lineConfigTakesEffect .. => .lineFelt
  | .lineStart .. => .lineFelt
  | .lineStarted .. => .lineFelt
  | .lineStop .. => .lineFelt
  | .lineStopBoundary .. => .lineFelt
  | .lineStopped .. => .lineFelt
  | .lineStatus .. => .lineFelt
  | .lineReadState .. => .lineFelt
  | .feltQuireBegin .. => .lineFelt
  | .quireComplete .. => .lineFelt
  | .slowQuireReleased .. => .lineFelt
  | .slowOverrun .. => .lineFelt
  | .feltResize .. => .lineFelt
  | .feltResizeTakesEffect .. => .lineFelt
  | .feltReaderOpen .. => .lineFelt
  | .feltReaderMove .. => .lineFelt
  | .feltReaderClose .. => .lineFelt
  | .feltStatus .. => .lineFelt
  | .slowConfig .. => .lineFelt
  | .slowConfigTakesEffect .. => .lineFelt
  | .slowStart .. => .lineFelt
  | .slowStop .. => .lineFelt
  | .slowStopped .. => .lineFelt
  | .slowStatus .. => .lineFelt
  | .jobDispatch .. => .tileTrig
  | .jobDone .. => .tileTrig
  | .tileAbort .. => .tileTrig
  | .tileSpared .. => .tileTrig
  | .tileKernelLoad .. => .tileTrig
  | .tileKernelUnload .. => .tileTrig
  | .tileRun .. => .tileTrig
  | .tileStatus .. => .tileTrig
  | .pointHitsDecided .. => .tileTrig
  | .trigInEdge .. => .tileTrig
  | .bcastRx .. => .tileTrig
  | .trigOutAssert .. => .tileTrig
  | .trigOutWidthEnd .. => .tileTrig
  | .captureFormed .. => .tileTrig
  | .captureRowCopy .. => .tileTrig
  | .rawTrigger .. => .tileTrig
  | .rawSegmentClose .. => .tileTrig
  | .rawRearm .. => .tileTrig
  | .rawCopyOut .. => .tileTrig
  | .trigDefine .. => .tileTrig
  | .trigArm .. => .tileTrig
  | .trigDisarm .. => .tileTrig
  | .trigArmTakesEffect .. => .tileTrig
  | .trigRebase .. => .tileTrig
  | .trigRebaseTakesEffect .. => .tileTrig
  | .trigOut .. => .tileTrig
  | .trigStatus .. => .tileTrig
  | .capConfig .. => .tileTrig
  | .capRawArm .. => .tileTrig
  | .capRawStop .. => .tileTrig
  | .capRawDone .. => .tileTrig
  | .capForce .. => .tileTrig
  | .capList .. => .tileTrig
  | .capRelease .. => .tileTrig
  | .capStatus .. => .tileTrig
  | .ppsInEdge .. => .time
  | .ppsLost .. => .time
  | .ptpMessageRx .. => .time
  | .ptpSyncTimeout .. => .time
  | .servoRun .. => .time
  | .tbStep .. => .time
  | .timeSet .. => .time
  | .holdoverEnd .. => .time
  | .refclkLost .. => .time
  | .refclkRestored .. => .time
  | .thermosWarm .. => .time
  | .thermosNotWarm .. => .time
  | .ppsOutPulse .. => .time
  | .tiuSelfCheck .. => .time
  | .tiuSpared .. => .time
  | .tiuResult .. => .time
  | .tiuTimeout .. => .time
  | .tbConfig .. => .time
  | .tbConfigTakesEffect .. => .time
  | .tbStatus .. => .time
  | .tiuMeasure .. => .time
  | .tiuArmed .. => .time
  | .tiuLaunchZero .. => .time
  | .launchZeroDone .. => .time
  | .tiuStatus .. => .time
  | .trailConfig .. => .time
  | .trailConfigTakesEffect .. => .time
  | .trailStatus .. => .time
  | .syncTx .. => .time
  | .syncRx .. => .time
  | .topoTx .. => .time
  | .topoRx .. => .time
  | .delayReqTx .. => .time
  | .delayReqRx .. => .time
  | .delayRespRx .. => .time
  | .bcastOriginate .. => .time
  | .trailSourceLost .. => .time
  | .thermalSheetTaken .. => .thermZone
  | .thermalIntervalClose .. => .thermZone
  | .thermalSwitch .. => .thermZone
  | .thermalSwitchSettled .. => .thermZone
  | .thermSpared .. => .thermZone
  | .thermConfig .. => .thermZone
  | .thermConfigTakesEffect .. => .thermZone
  | .thermRoute .. => .thermZone
  | .thermStatus .. => .thermZone
  | .refScanStart .. => .thermZone
  | .refConversionDone .. => .thermZone
  | .refLead .. => .thermZone
  | .refConfig .. => .thermZone
  | .refScan .. => .thermZone
  | .refUrgent .. => .thermZone
  | .refStatus .. => .thermZone
  | .zoneEvaluation .. => .thermZone
  | .zoneHoldEnd .. => .thermZone
  | .zoneFaultTimer .. => .thermZone
  | .vrefZMeasure .. => .thermZone
  | .zoneDefine .. => .thermZone
  | .zoneAck .. => .thermZone
  | .zoneStatus .. => .thermZone
  | .panelPins .. => .thermZone
  | .panelZout .. => .thermZone
  | .panelStatus .. => .thermZone
  | .baleRelease .. => .memoryLinks
  | .baleNoSpace .. => .memoryLinks
  | .baleProfile .. => .memoryLinks
  | .baleRunEncode .. => .memoryLinks
  | .baleRunDecode .. => .memoryLinks
  | .baleJobDone .. => .memoryLinks
  | .baleResume .. => .memoryLinks
  | .baleCancel .. => .memoryLinks
  | .baleStatus .. => .memoryLinks
  | .dramReadDecode .. => .memoryLinks
  | .rowRemap .. => .memoryLinks
  | .rowTestDone .. => .memoryLinks
  | .scrub .. => .memoryLinks
  | .refresh .. => .memoryLinks
  | .wckDriftCheck .. => .memoryLinks
  | .selfRefreshEntry .. => .memoryLinks
  | .selfRefreshExit .. => .memoryLinks
  | .requestLate .. => .memoryLinks
  | .channelLost .. => .memoryLinks
  | .memConfig .. => .memoryLinks
  | .memStatus .. => .memoryLinks
  | .memRemaps .. => .memoryLinks
  | .descriptorComplete .. => .memoryLinks
  | .dmaHalted .. => .memoryLinks
  | .msixMessage .. => .memoryLinks
  | .streamRecordClose .. => .memoryLinks
  | .bufferFlush .. => .memoryLinks
  | .streamOverrun .. => .memoryLinks
  | .pcieLinkReset .. => .memoryLinks
  | .ethLinkChange .. => .memoryLinks
  | .arpRequest .. => .memoryLinks
  | .dmaConfig .. => .memoryLinks
  | .dmaResume .. => .memoryLinks
  | .dmaAbort .. => .memoryLinks
  | .dmaLink .. => .memoryLinks
  | .dmaPort .. => .memoryLinks
  | .streamDefine .. => .memoryLinks
  | .streamAttach .. => .memoryLinks
  | .streamDetach .. => .memoryLinks
  | .streamDetached .. => .memoryLinks
  | .dmaStatus .. => .memoryLinks
  | .eventRelease .. => .memoryLinks
  | .heartbeatTick .. => .memoryLinks
  | .secChallenge .. => .system
  | .nonceExpiry .. => .system
  | .secEnroll .. => .system
  | .secServiceEnter .. => .system
  | .secServiceLeave .. => .system
  | .serviceExpiry .. => .system
  | .secScrap .. => .system
  | .secFwLoad .. => .system
  | .fwEraseDone .. => .system
  | .secFwActivate .. => .system
  | .secFwCommit .. => .system
  | .trialBootTimeout .. => .system
  | .secSessionOpen .. => .system
  | .secSessionClose .. => .system
  | .sessionExpiry .. => .system
  | .secRights .. => .system
  | .secStatus .. => .system
  | .dbgOpen .. => .system
  | .dbgClose .. => .system
  | .debugLevelExpiry .. => .system
  | .pwrConfig .. => .system
  | .pwrState .. => .system
  | .p2Entered .. => .system
  | .p2Exit .. => .system
  | .p3Entered .. => .system
  | .p3Exit .. => .system
  | .pwrStatus .. => .system
  | .targetedTestDone .. => .system
  | .noSpare .. => .system
  | .sramError .. => .system
  | .d2dLaneError .. => .system
  | .selftestSegmentDone .. => .system
  | .sensorSample .. => .system
  | .counterSaturated .. => .system
  | .healthStatus .. => .system
  | .healthUnits .. => .system
  | .healthTest .. => .system
  | .healthAccept .. => .system
  | .healthFuseRepair .. => .system
  | .fuseRepairDone .. => .system
  | .healthResults .. => .system
  | .healthSensors .. => .system
  | .healthLimits .. => .system
  | .healthLogRead .. => .system
  | .pwrWarnRise .. => .system
  | .pwrWarnClear .. => .system
  | .powerLoss .. => .system
  | .powerUp .. => .system
  | .resetNLow .. => .system
  | .releaseFromReset .. => .system
  | .dramTrained .. => .system
  | .restoreComplete .. => .system
  | .resumeLinesStart .. => .system
  | .trailLinkChange .. => .hostAccess
  | .pcieLinkUp .. => .hostAccess
  | .streamPacketSent .. => .hostAccess
  | .tokenBucketRefill .. => .hostAccess
  | .pauseFrameRx .. => .hostAccess
  | .ethFrameDropped .. => .hostAccess
  | .ppsOutWidthEnd .. => .hostAccess
  | .fullRetrainingDone .. => .hostAccess
  | .watchdogReset .. => .hostAccess
  | .jtagInstruction .. => .hostAccess
  | .smbClockLowTimeout .. => .hostAccess

/-- The components a command may write; every other one it keeps (as `State.keeps` says). A write of GO to a mailbox and a mailbox frame can
bring any command. -/
def writesOf : Instr → List StatePart
  | .mbDoorbell .. => [.freeUse, .sys, .cfg, .mbs, .pend, .tb, .tiu, .trail, .grid, .lines, .ctxs, .streams, .ports, .pcie, .sec, .dbg, .pwr,
    .health, .dram, .quads, .cal, .felt, .slow, .tiles, .mem, .trig, .therm, .zones, .panel, .bale]
  | .heldDoorbellRuns .. => [.freeUse, .sys, .cfg, .mbs, .pend, .tb, .tiu, .trail, .grid, .lines, .ctxs, .streams, .ports, .pcie, .sec, .dbg, .pwr,
    .health, .dram, .quads, .cal, .felt, .slow, .tiles, .mem, .trig, .therm, .zones, .panel, .bale]
  | .mbDoneClear .. => [.mbs]
  | .ethMailboxFrame .. => [.freeUse, .sys, .cfg, .mbs, .pend, .tb, .tiu, .trail, .grid, .lines, .ctxs, .streams, .ports, .pcie, .sec, .dbg, .pwr,
    .health, .dram, .quads, .cal, .felt, .slow, .tiles, .mem, .trig, .therm, .zones, .panel, .bale]
  | .contextDoorbell .. => [.ctxs, .streams, .mem]
  | .winBaseWrite .. => [.pcie]
  | .bar2WindowRead .. => [.pcie, .health, .tiles, .mem]
  | .bar2WindowWrite .. => [.pcie, .health, .dram, .tiles, .mem]
  | .debugWindowAccess .. => [.freeUse, .dbg, .health, .dram, .tiles, .mem]
  | .registerWrite .. => [.mbs, .ctxs, .streams, .vectors, .pcie, .mem]
  | .zspTransaction .. => [.panel]
  | .smbLtuneWrite .. => [.ltune]
  | .smbAlertResponse .. => [.health]
  | .sysIdentify .. => [.mbs]
  | .sysSnapshot .. => [.sys, .mbs, .pend]
  | .snapshotCommitted .. => [.sys, .pend, .ctxs, .streams, .health]
  | .sysRestore .. => [.sys, .mbs]
  | .sysShutdown .. => [.sys, .mbs, .pend, .lines, .ctxs, .streams, .health, .trig]
  | .shutdownComplete .. => [.freeUse, .sys, .cfg, .mbs, .pend, .tb, .tiu, .trail, .grid, .emit, .lines, .ctxs, .streams, .ports, .vectors, .pcie,
    .sec, .dbg, .pwr, .health, .dram, .ltune, .quads, .cal, .refPath, .felt, .slow, .tiles, .mem, .trig, .therm, .zones, .panel, .bale, .memMask,
    .capMibNow]
  | .sysReset .. => [.sys, .mbs]
  | .resetBegins .. => [.freeUse, .sys, .cfg, .mbs, .pend, .tb, .tiu, .trail, .grid, .emit, .lines, .ctxs, .streams, .ports, .vectors, .pcie, .sec,
    .dbg, .pwr, .health, .dram, .ltune, .quads, .cal, .refPath, .felt, .slow, .tiles, .mem, .trig, .therm, .zones, .panel, .bale, .memMask,
    .capMibNow]
  | .sysTimeRead .. => [.mbs]
  | .sysTimeSet .. => [.mbs, .pend, .tb]
  | .sysTimeSetBoundary .. => [.pend, .tb, .grid, .lines, .quads]
  | .sysStatus .. => [.sys, .mbs, .health]
  | .sysEvents .. => [.cfg, .mbs]
  | .planDefine .. => [.mbs, .grid]
  | .planApply .. => [.mbs, .pend]
  | .planTakesEffect .. => [.cfg, .pend, .grid, .lines, .quads, .cal, .therm]
  | .probeChange .. => [.cfg, .pend, .grid, .lines, .quads, .cal, .therm]
  | .planTimeline .. => [.mbs, .grid]
  | .probeConfig .. => [.cfg, .mbs, .pend]
  | .probeIdleCodeChange .. => [.cfg, .pend]
  | .probeLoad .. => [.cfg, .mbs]
  | .planGateLimit .. => [.mbs, .pend]
  | .gateLimitTakesEffect .. => [.cfg, .pend]
  | .planSpot .. => [.mbs, .grid]
  | .spotLaunch .. => [.cfg, .tiu, .grid, .trig, .zones]
  | .planStatus .. => [.mbs, .grid, .health]
  | .gridLaunch .. => [.tiu, .grid, .lines, .quads, .cal, .therm]
  | .dutyTruncated .. => [.grid]
  | .emitPermitFall .. => [.grid, .emit, .quads, .cal, .therm]
  | .emitPermitRise .. => [.emit]
  | .emitQualified .. => [.emit]
  | .laneWordRelease .. => [.cfg, .grid, .quads, .cal, .refPath, .trig, .zones]
  | .monitorBlockEnd .. => [.health, .quads]
  | .quadWake .. => [.quads]
  | .quadPowerDown .. => [.quads]
  | .rxConfig .. => [.mbs, .pend]
  | .rxConfigTakesEffect .. => [.cfg, .pend, .lines, .quads, .cal]
  | .rxRefConfig .. => [.cfg, .mbs]
  | .rxHold .. => [.mbs, .quads]
  | .rxStatus .. => [.mbs, .health, .quads]
  | .calBlockGathered .. => [.cfg, .tb, .health, .quads, .cal]
  | .handover .. => [.health, .quads, .cal]
  | .overlapEnd .. => [.health, .quads, .cal]
  | .rotationMoveReady .. => [.quads, .cal]
  | .calStale .. => [.quads, .cal]
  | .calConfig .. => [.cfg, .mbs, .health, .quads, .cal]
  | .calStatus .. => [.mbs, .health, .quads, .cal]
  | .calRead .. => [.mbs]
  | .sheetComplete .. => [.freeUse, .cfg, .pend, .grid, .lines, .ctxs, .streams, .health, .dram, .quads, .felt, .slow, .tiles, .mem, .trig]
  | .lineSpared .. => [.lines, .health]
  | .lineUnspared .. => [.lines, .health]
  | .lineConfig .. => [.mbs, .pend]
  | .lineConfigTakesEffect .. => [.cfg, .pend, .lines]
  | .lineStart .. => [.mbs, .pend, .lines, .quads]
  | .lineStarted .. => [.pend, .lines, .ctxs, .streams, .health, .dram, .quads, .cal, .felt, .slow, .tiles, .mem, .trig]
  | .lineStop .. => [.mbs, .pend, .lines]
  | .lineStopBoundary .. => [.pend, .grid, .lines, .streams, .quads, .therm]
  | .lineStopped .. => [.sys, .pend, .lines, .ctxs, .streams, .pwr, .health, .dram, .quads, .cal, .felt, .slow, .tiles, .mem, .trig]
  | .lineStatus .. => [.mbs, .lines, .health]
  | .lineReadState .. => [.mbs]
  | .feltQuireBegin .. => [.cfg, .pend, .ctxs, .streams, .health, .dram, .felt, .slow, .tiles, .mem, .trig]
  | .quireComplete .. => [.slow, .tiles]
  | .slowQuireReleased .. => [.sys, .pend, .grid, .ctxs, .streams, .pwr, .health, .slow, .tiles, .mem]
  | .slowOverrun .. => [.sys, .pend, .ctxs, .streams, .pwr, .health, .slow, .tiles]
  | .feltResize .. => [.cfg, .mbs, .pend, .ctxs, .streams, .health, .dram, .felt, .slow, .tiles, .mem, .trig]
  | .feltResizeTakesEffect .. => [.cfg, .pend, .ctxs, .streams, .health, .dram, .felt, .slow, .tiles, .mem, .trig]
  | .feltReaderOpen .. => [.mbs, .felt]
  | .feltReaderMove .. => [.mbs, .felt]
  | .feltReaderClose .. => [.mbs, .felt]
  | .feltStatus .. => [.mbs, .health, .felt]
  | .slowConfig .. => [.mbs, .pend]
  | .slowConfigTakesEffect .. => [.cfg, .pend, .slow]
  | .slowStart .. => [.cfg, .mbs, .pend, .slow]
  | .slowStop .. => [.mbs, .pend]
  | .slowStopped .. => [.sys, .cfg, .pend, .lines, .ctxs, .streams, .pwr, .health, .slow, .tiles]
  | .slowStatus .. => [.mbs, .health, .slow]
  | .jobDispatch .. => [.tiles]
  | .jobDone .. => [.pend, .tiles]
  | .tileAbort .. => [.pend, .lines, .streams, .health, .slow, .tiles, .trig]
  | .tileSpared .. => [.pend, .lines, .streams, .health, .slow, .tiles, .trig]
  | .tileKernelLoad .. => [.cfg, .mbs, .tiles]
  | .tileKernelUnload .. => [.cfg, .mbs]
  | .tileRun .. => [.mbs, .pend, .tiles]
  | .tileStatus .. => [.mbs, .health, .tiles]
  | .pointHitsDecided .. => [.cfg, .slow, .tiles, .trig, .zones]
  | .trigInEdge .. => [.cfg, .tiu, .trig, .zones]
  | .bcastRx .. => [.cfg, .tiu, .trail, .trig, .zones]
  | .trigOutAssert .. => [.cfg, .trig]
  | .trigOutWidthEnd .. => [.trig]
  | .captureFormed .. => [.health, .dram, .felt, .mem, .trig]
  | .captureRowCopy .. => [.streams, .health, .dram, .felt, .mem, .trig]
  | .rawTrigger .. => [.trig]
  | .rawSegmentClose .. => [.trig]
  | .rawRearm .. => [.trig]
  | .rawCopyOut .. => [.streams, .health, .dram, .mem, .trig]
  | .trigDefine .. => [.cfg, .mbs]
  | .trigArm .. => [.mbs, .pend]
  | .trigDisarm .. => [.mbs, .pend]
  | .trigArmTakesEffect .. => [.cfg, .pend, .streams, .health, .dram, .felt, .mem, .trig, .zones]
  | .trigRebase .. => [.mbs, .pend]
  | .trigRebaseTakesEffect .. => [.pend, .trig]
  | .trigOut .. => [.cfg, .mbs]
  | .trigStatus .. => [.mbs, .health, .dram, .mem, .trig]
  | .capConfig .. => [.cfg, .mbs]
  | .capRawArm .. => [.mbs, .trig]
  | .capRawStop .. => [.mbs, .pend, .streams, .trig]
  | .capRawDone .. => [.sys, .pend, .ctxs, .streams, .pwr, .health, .trig]
  | .capForce .. => [.cfg, .mbs, .trig, .zones]
  | .capList .. => [.mbs]
  | .capRelease .. => [.mbs, .health, .dram, .mem, .trig]
  | .capStatus .. => [.mbs, .health, .trig]
  | .ppsInEdge .. => [.tb, .tiu]
  | .ppsLost .. => [.tb]
  | .ptpMessageRx .. => [.tb]
  | .ptpSyncTimeout .. => [.tb]
  | .servoRun .. => [.tb]
  | .tbStep .. => [.pend, .tb, .grid, .lines, .quads]
  | .timeSet .. => [.tb]
  | .holdoverEnd .. => [.tb]
  | .refclkLost .. => [.tb]
  | .refclkRestored .. => [.tb]
  | .thermosWarm .. => [.tb]
  | .thermosNotWarm .. => [.tb]
  | .ppsOutPulse .. => [.tb, .tiu]
  | .tiuSelfCheck .. => [.tiu, .health]
  | .tiuSpared .. => [.tiu, .health]
  | .tiuResult .. => [.tiu]
  | .tiuTimeout .. => [.tiu]
  | .tbConfig .. => [.mbs, .pend]
  | .tbConfigTakesEffect .. => [.cfg, .pend, .tb]
  | .tbStatus .. => [.mbs, .tb, .health]
  | .tiuMeasure .. => [.mbs, .pend]
  | .tiuArmed .. => [.pend, .tiu]
  | .tiuLaunchZero .. => [.mbs, .pend, .tiu, .grid]
  | .launchZeroDone .. => [.cfg, .pend, .tiu]
  | .tiuStatus .. => [.mbs, .tiu, .health]
  | .trailConfig .. => [.mbs, .pend]
  | .trailConfigTakesEffect .. => [.cfg, .pend, .trail]
  | .trailStatus .. => [.cfg, .mbs, .tiu, .trail, .health, .trig, .zones]
  | .syncTx .. => []
  | .syncRx .. => [.tb, .tiu, .trail]
  | .topoTx .. => []
  | .topoRx .. => [.tiu, .trail]
  | .delayReqTx .. => [.trail]
  | .delayReqRx .. => [.tiu, .trail]
  | .delayRespRx .. => [.tiu, .trail]
  | .bcastOriginate .. => [.trail, .trig]
  | .trailSourceLost .. => [.tb, .trail]
  | .thermalSheetTaken .. => [.therm]
  | .thermalIntervalClose .. => [.freeUse, .pend, .streams, .therm, .zones]
  | .thermalSwitch .. => [.health, .therm]
  | .thermalSwitchSettled .. => [.therm]
  | .thermSpared .. => [.streams, .health, .therm]
  | .thermConfig .. => [.mbs, .pend]
  | .thermConfigTakesEffect .. => [.cfg, .pend, .therm]
  | .thermRoute .. => [.cfg, .mbs, .pend, .streams, .therm]
  | .thermStatus .. => [.mbs, .health, .therm]
  | .refScanStart .. => [.cfg, .pend, .health, .therm]
  | .refConversionDone .. => [.freeUse, .pend, .streams, .health, .dram, .mem, .therm]
  | .refLead .. => [.therm]
  | .refConfig .. => [.cfg, .mbs]
  | .refScan .. => [.mbs, .pend]
  | .refUrgent .. => [.mbs, .pend, .therm]
  | .refStatus .. => [.mbs, .health, .therm]
  | .zoneEvaluation .. => [.zones]
  | .zoneHoldEnd .. => [.zones]
  | .zoneFaultTimer .. => [.zones]
  | .vrefZMeasure .. => [.panel]
  | .zoneDefine .. => [.cfg, .mbs, .zones]
  | .zoneAck .. => [.mbs, .zones]
  | .zoneStatus .. => [.mbs, .health, .zones]
  | .panelPins .. => [.cfg, .mbs]
  | .panelZout .. => [.cfg, .mbs]
  | .panelStatus .. => [.mbs, .health, .panel]
  | .baleRelease .. => [.ctxs, .streams, .health, .dram, .tiles, .mem, .bale]
  | .baleNoSpace .. => [.ctxs, .streams, .health, .dram, .tiles, .mem, .bale]
  | .baleProfile .. => [.cfg, .mbs]
  | .baleRunEncode .. => [.mbs, .pend, .bale]
  | .baleRunDecode .. => [.mbs, .pend, .bale]
  | .baleJobDone .. => [.freeUse, .pend, .health, .dram, .tiles, .mem, .bale]
  | .baleResume .. => [.mbs, .pend, .bale]
  | .baleCancel .. => [.mbs, .bale]
  | .baleStatus .. => [.mbs, .health, .bale]
  | .dramReadDecode .. => [.freeUse, .health, .dram, .tiles, .mem]
  | .rowRemap .. => [.health, .dram, .mem]
  | .rowTestDone .. => [.health, .mem]
  | .scrub .. => [.freeUse, .health, .dram, .mem]
  | .refresh .. => [.mem]
  | .wckDriftCheck .. => [.mem]
  | .selfRefreshEntry .. => [.mem]
  | .selfRefreshExit .. => [.mem]
  | .requestLate .. => [.mem]
  | .channelLost .. => [.mem]
  | .memConfig .. => [.cfg, .mbs, .mem]
  | .memStatus .. => [.mbs, .health, .mem]
  | .memRemaps .. => [.mbs]
  | .descriptorComplete .. => [.ctxs, .streams, .vectors, .health, .dram, .felt, .tiles, .mem, .trig]
  | .dmaHalted .. => [.ctxs, .vectors]
  | .msixMessage .. => [.vectors]
  | .streamRecordClose .. => [.ctxs, .streams]
  | .bufferFlush .. => [.ctxs, .streams, .vectors, .health, .dram, .felt, .tiles, .mem, .trig]
  | .streamOverrun .. => [.ctxs, .streams]
  | .pcieLinkReset .. => [.pend, .ctxs, .streams, .ports, .vectors, .pcie, .health, .dram, .felt, .mem, .trig]
  | .ethLinkChange .. => [.ports]
  | .arpRequest .. => [.ports]
  | .dmaConfig .. => [.mbs, .ctxs]
  | .dmaResume .. => [.mbs, .ctxs]
  | .dmaAbort .. => [.mbs, .pend, .ctxs, .streams, .ports, .health, .dram, .felt, .mem, .trig]
  | .dmaLink .. => [.cfg, .mbs]
  | .dmaPort .. => [.cfg, .mbs, .ports]
  | .streamDefine .. => [.cfg, .mbs]
  | .streamAttach .. => [.mbs, .ctxs, .streams]
  | .streamDetach .. => [.mbs, .pend, .ctxs, .streams]
  | .streamDetached .. => [.sys, .pend, .ctxs, .streams, .pwr, .health]
  | .dmaStatus .. => [.mbs, .ctxs, .ports, .pcie, .health]
  | .eventRelease .. => [.streams]
  | .heartbeatTick .. => [.sys]
  | .secChallenge .. => [.mbs, .sec]
  | .nonceExpiry .. => [.sec]
  | .secEnroll .. => [.sys, .mbs, .sec, .dbg]
  | .secServiceEnter .. => [.sys, .mbs, .sec, .dbg]
  | .secServiceLeave .. => [.sys, .mbs, .sec, .dbg]
  | .serviceExpiry .. => [.sys, .sec, .dbg]
  | .secScrap .. => [.sys, .mbs, .pend, .lines, .ctxs, .streams, .sec, .dbg, .trig]
  | .secFwLoad .. => [.mbs, .pend, .sec]
  | .fwEraseDone .. => [.pend, .sec]
  | .secFwActivate .. => [.mbs, .sec]
  | .secFwCommit .. => [.mbs, .sec]
  | .trialBootTimeout .. => [.freeUse, .sys, .cfg, .mbs, .pend, .tb, .tiu, .trail, .grid, .emit, .lines, .ctxs, .streams, .ports, .vectors, .pcie,
    .sec, .dbg, .pwr, .health, .dram, .ltune, .quads, .cal, .refPath, .felt, .slow, .tiles, .mem, .trig, .therm, .zones, .panel, .bale, .memMask,
    .capMibNow]
  | .secSessionOpen .. => [.mbs, .sec]
  | .secSessionClose .. => [.mbs, .sec]
  | .sessionExpiry .. => [.sec]
  | .secRights .. => [.sys, .mbs]
  | .secStatus .. => [.mbs]
  | .dbgOpen .. => [.sys, .mbs, .dbg]
  | .dbgClose .. => [.sys, .mbs, .dbg]
  | .debugLevelExpiry .. => [.sys, .dbg]
  | .pwrConfig .. => [.sys, .mbs, .pwr]
  | .pwrState .. => [.sys, .mbs, .pend, .lines, .streams, .pwr, .trig]
  | .p2Entered .. => [.pend, .streams, .pwr, .quads, .mem, .therm]
  | .p2Exit .. => [.sys, .pend, .lines, .pwr, .health, .quads, .mem, .therm]
  | .p3Entered .. => [.freeUse, .sys, .cfg, .mbs, .pend, .tb, .tiu, .trail, .grid, .emit, .lines, .ctxs, .streams, .ports, .vectors, .pcie, .sec,
    .dbg, .pwr, .health, .dram, .ltune, .quads, .cal, .refPath, .felt, .slow, .tiles, .mem, .trig, .therm, .zones, .panel, .bale, .memMask,
    .capMibNow]
  | .p3Exit .. => [.sys, .cfg, .pend, .tb, .grid, .lines, .sec, .pwr, .health, .quads, .cal, .felt, .slow, .tiles, .mem, .trig, .therm, .zones,
    .memMask, .capMibNow]
  | .pwrStatus .. => [.freeUse, .mbs]
  | .targetedTestDone .. => [.pend, .lines, .health, .quads, .cal, .therm]
  | .noSpare .. => [.tiu, .lines, .streams, .health, .tiles, .therm]
  | .sramError .. => [.health]
  | .d2dLaneError .. => [.health]
  | .selftestSegmentDone .. => [.sys, .pend, .ctxs, .streams, .pwr, .health]
  | .sensorSample .. => [.health]
  | .counterSaturated .. => [.health]
  | .healthStatus .. => [.mbs, .health]
  | .healthUnits .. => [.mbs]
  | .healthTest .. => [.mbs, .pend, .health, .quads, .cal, .therm]
  | .healthAccept .. => [.mbs, .health]
  | .healthFuseRepair .. => [.mbs, .pend]
  | .fuseRepairDone .. => [.pend, .health]
  | .healthResults .. => [.mbs]
  | .healthSensors .. => [.mbs, .health]
  | .healthLimits .. => [.cfg, .mbs]
  | .healthLogRead .. => [.mbs]
  | .pwrWarnRise .. => []
  | .pwrWarnClear .. => []
  | .powerLoss .. => [.freeUse, .sys, .cfg, .mbs, .pend, .tb, .tiu, .trail, .grid, .emit, .lines, .ctxs, .streams, .ports, .vectors, .pcie, .sec,
    .dbg, .pwr, .health, .dram, .ltune, .quads, .cal, .refPath, .felt, .slow, .tiles, .mem, .trig, .therm, .zones, .panel, .bale, .memMask,
    .capMibNow]
  | .powerUp .. => [.tb, .pwr, .ltune]
  | .resetNLow .. => [.freeUse, .sys, .cfg, .mbs, .pend, .tb, .tiu, .trail, .grid, .emit, .lines, .ctxs, .streams, .ports, .vectors, .pcie, .sec,
    .dbg, .pwr, .health, .dram, .ltune, .quads, .cal, .refPath, .felt, .slow, .tiles, .mem, .trig, .therm, .zones, .panel, .bale, .memMask,
    .capMibNow]
  | .releaseFromReset .. => [.sys, .tb, .lines, .sec, .pwr, .health, .quads, .cal, .tiles, .therm]
  | .dramTrained .. => [.sys, .health, .mem, .memMask]
  | .restoreComplete .. => [.sys, .cfg, .mbs, .grid, .quads, .cal, .felt, .slow, .trig, .zones, .memMask, .capMibNow]
  | .resumeLinesStart .. => [.sys, .pend, .lines, .quads]
  | .trailLinkChange .. => [.trail]
  | .pcieLinkUp .. => [.ctxs, .pcie]
  | .streamPacketSent .. => [.ctxs, .streams, .ports, .health, .dram, .felt, .mem, .trig]
  | .tokenBucketRefill .. => [.ctxs]
  | .pauseFrameRx .. => [.ports]
  | .ethFrameDropped .. => [.ports]
  | .ppsOutWidthEnd .. => [.tb]
  | .fullRetrainingDone .. => [.mem]
  | .watchdogReset .. => [.freeUse, .sys, .cfg, .mbs, .pend, .tb, .tiu, .trail, .grid, .emit, .lines, .ctxs, .streams, .ports, .vectors, .pcie,
    .sec, .dbg, .pwr, .health, .dram, .ltune, .quads, .cal, .refPath, .felt, .slow, .tiles, .mem, .trig, .therm, .zones, .panel, .bale, .memMask,
    .capMibNow]
  | .jtagInstruction .. => [.freeUse, .dbg]
  | .smbClockLowTimeout .. => []

end Sys2Proof.Machine
end

