-- ==== Sys2Proof/Certificates/Slice0/Obligations.lean ====
section
/-! DEFINITION. The statements for the provers: one `…Completes` for each row of the table (and each case of it that has a statement of its own),
gathered by family into obligations; frames; invariants; and the rules stated by themselves. -/

namespace Sys2Proof.Machine

/-! ### What each command does, and that it completes

Each says that from every state that meets its premises the command answers a next state, and what that state holds. The premises are on the state
and the operands alone. `s.atInstant t` is the state at the command's instant. -/

/-! #### Plans, probes and gate limits: definition, application, changes that take effect -/

/-- PLAN_DEFINE (R44): Validates a line's plan through the checks of Table 2.3 and stages it. -/
def PlanDefineCompletes : Prop :=
  ∀ (t : Nat) (c : Cmd) (s : State),
    (s.atInstant t).admits 0x0201 c = true →
    (s.atInstant t).planChecks c.arg = none →
    Completes (.planDefine t c) s (fun u => u.answered c stOk (planResponse 0 0xFF (readPlan c.arg) (deviceRate ((s.atInstant t).stagedConfig.set
      (readPlan c.arg).line (some (readPlan c.arg))))) ∧ u.grid = upd s.grid (readPlan c.arg).line (fun g =>
      { g with staged := some (readPlan c.arg) }))

/-- PLAN_APPLY (R63): Re-checks the named lines' staged plans and schedules them to take effect. -/
def PlanApplyCompletes : Prop :=
  ∀ (t : Nat) (c : Cmd) (s : State),
    (s.atInstant t).admits 0x0202 c = true →
    rd c.arg 0 2 ≠ 0 →
    (s.atInstant t).maskEnabled (rd c.arg 0 2) = true →
    (∀ l ∈ maskList 16 (rd c.arg 0 2), (s.atInstant t).applyPending l = false) →
    (∀ l ∈ maskList 16 (rd c.arg 0 2), ((s.atInstant t).gridOf l).staged.isSome = true) →
    (∀ l ∈ maskList 16 (rd c.arg 0 2), (s.atInstant t).running l = false) →
    (s.atInstant t).applyFault ((maskList 16 (rd c.arg 0 2)).filterMap (fun l => ((s.atInstant t).gridOf l).staged)) ((s.atInstant t).resulting
      (maskList 16 (rd c.arg 0 2))) = none →
    Completes (.planApply t c) s (fun u => u.answered c stPending [] ∧ u.awaits (s.atInstant t) c 0x0202 (maskList 16 (rd c.arg 0 2)) none)

/-- PLAN_TAKES_EFFECT (R64): A staged plan takes effect on a line at its sheet boundary or at apply-at, with EV_APPLIED. -/
def PlanTakesEffectCompletes : Prop :=
  ∀ (t l : Nat) (p : Pend) (q : Plan) (s : State),
    s.pendOf 0x0202 l = some p →
    (s.gridOf l).staged = some q →
    (s.atInstant t).planDue l p ≤ max s.now t →
    (s.atInstant t).probeChanges l = false →
    Completes (.planTakesEffect t l) s (fun u => u.cfg.plans = s.cfg.plans.set l (some q) ∧ u.grid = upd s.grid l (fun g =>
      { g with staged := none, anchor := (s.atInstant t).anchorFor l q p, planFrom := (s.atInstant t).planDue l p, awakeAt := if s.plan? l = none ∧ s.pwr.st = 1 then (s.atInstant t).planDue l p + 20 * ticksPerUs else g.awakeAt })
      ∧ u.pend = strike 0x0202 l s.pend)

/-- PROBE_CHANGE (R65): At a shot boundary a running line's probe change takes effect, restarting point state and the slow-time chain. -/
def ProbeChangeCompletes : Prop :=
  ∀ (t l : Nat) (p : Pend) (q : Plan) (s : State),
    s.pendOf 0x0202 l = some p →
    (s.gridOf l).staged = some q →
    (s.atInstant t).planDue l p ≤ max s.now t →
    (s.atInstant t).probeChanges l = true →
    Completes (.probeChange t l) s (fun u => u.cfg.plans = s.cfg.plans.set l (some q) ∧ u.grid = upd s.grid l (fun g =>
      { g with staged := none, anchor := (s.atInstant t).anchorFor l q p, planFrom := (s.atInstant t).planDue l p, settling := true }) ∧ u.lines = upd
      s.lines l (fun r => { r with restartNext := true }) ∧ u.pend = strike 0x0202 l s.pend)

/-- PLAN_TIMELINE (R70): Returns the launch instants and kinds of a plan's sheets. -/
def PlanTimelineCompletes : Prop :=
  ∀ (t : Nat) (p : Plan) (c : Cmd) (s : State),
    (s.atInstant t).admits 0x0203 c = true →
    (s.atInstant t).badLine (rd c.arg 0 1) = false →
    rd c.arg 1 1 = 0 →
    (1 ≤ rd c.arg 2 2 ∧ rd c.arg 2 2 ≤ 500) →
    (s.atInstant t).plan? (rd c.arg 0 1) = some p →
    p.aligned = true →
    launchesFrom p.gridTrains (((s.atInstant t).secondWindow (rd c.arg 0 1) p (((s.atInstant t).boundaryOf (rd c.arg 4 8)).getD 0)).2 +
      cellsPerSecond) (rd c.arg 2 2) (seekLaunch p ((s.atInstant t).secondWindow (rd c.arg 0 1) p (((s.atInstant t).boundaryOf (rd c.arg 4 8)).getD
      0)).2 (rd c.arg 12 4)) ≠ [] →
    Completes (.planTimeline t c) s (fun u => u.answered c stOk ((launchesFrom p.gridTrains (((s.atInstant t).secondWindow (rd c.arg 0 1) p
      (((s.atInstant t).boundaryOf (rd c.arg 4 8)).getD 0)).2 + cellsPerSecond) (rd c.arg 2 2) (seekLaunch p ((s.atInstant t).secondWindow (rd c.arg 0
      1) p (((s.atInstant t).boundaryOf (rd c.arg 4 8)).getD 0)).2 (rd c.arg 12 4))).flatMap (fun e => u32 (e.1 - ((s.atInstant t).secondWindow (rd
      c.arg 0 1) p (((s.atInstant t).boundaryOf (rd c.arg 4 8)).getD 0)).2) ++ u8 (kindByte e.2) ++ u8 (codeByte (s.atInstant t) (rd c.arg 0 1) p e.2
      (((s.atInstant t).secondWindow (rd c.arg 0 1) p (((s.atInstant t).boundaryOf (rd c.arg 4 8)).getD 0)).1 + e.1 * ticksPerCell)) ++ u16 0)))

/-- PROBE_CONFIG (R71): Sets a probe's skew, guard and idle code. -/
def ProbeConfigCompletes : Prop :=
  ∀ (t : Nat) (c : Cmd) (s : State),
    (s.atInstant t).admits 0x0204 c = true →
    rd c.arg 0 1 ≤ 1 →
    (bit (rd c.arg 1 1) 0 = false → -256 ≤ rdS c.arg 2 2 ∧ rdS c.arg 2 2 ≤ 255 ∧ rd c.arg 4 2 ≤ 255) →
    (s.atInstant t).pendOf 0x0204 (rd c.arg 0 1) = none →
    (bit (rd c.arg 1 1) 0 = false → (s.atInstant t).probeBusy (rd c.arg 0 1) = false) →
    Completes (.probeConfig t c) s (fun u => u.answered c stPending [] ∧ u.awaits (s.atInstant t) c 0x0204 [rd c.arg 0 1] none ∧ u.cfg.probes = if bit
      (rd c.arg 1 1) 0 then s.cfg.probes else upd s.cfg.probes (rd c.arg 0 1) (fun q => { q with skew := rdS c.arg 2 2, guard := rd c.arg 4 2 }))

/-- PROBE_IDLE_CODE_CHANGE (R71): A new idle code takes effect at the first instant the probe carries no launch. -/
def ProbeIdleCodeChangeCompletes : Prop :=
  ∀ (t b : Nat) (p : Pend) (s : State),
    s.pendOf 0x0204 b = some p →
    p.applyAt.getD p.accepted ≤ max s.now t →
    (nth s.probeRun b default).playing = none →
    Completes (.probeIdleCodeChange t b) s (fun u => u.cfg.probes = upd s.cfg.probes b (fun q =>
      { q with idleI := idleI p.data, idleQ := idleQ p.data }) ∧ u.pend = strike 0x0204 b s.pend)

/-- PROBE_LOAD (R72): Writes a chunk of a waveform slot and, at FINAL, checks its CRC and completes the slot. -/
def ProbeLoadCompletes : Prop :=
  ∀ (t : Nat) (c : Cmd) (s : State),
    (s.atInstant t).admits 0x0205 c = true →
    (rd c.arg 0 1 ≤ 1 ∧ rd c.arg 1 1 ≤ 63 ∧ rd c.arg 14 2 ≤ 1000) →
    rd c.arg 2 2 = 3 →
    (rd c.arg 4 4 ≤ 131071 ∧ 4 ≤ rd c.arg 8 4 ∧ rd c.arg 8 4 % 4 = 0 ∧ rd c.arg 4 4 + rd c.arg 8 4 ≤ 131072) →
    rd c.arg 16 4 + rd c.arg 14 2 ≤ rd c.arg 8 4 →
    (s.atInstant t).slotNamed (rd c.arg 0 1) (rd c.arg 1 1) = false →
    slotCrc (ssetL 0#32 (nth s.cfg.waves (rd c.arg 0 1) []) (rd c.arg 4 4 + rd c.arg 16 4) (chunkWords c.arg (rd c.arg 14 2))) (rd c.arg 4 4) (rd
      c.arg 8 4) = rd c.arg 20 4 →
    Completes (.probeLoad t c) s (fun u => u.answered c stOk [] ∧ u.cfg.slots = upd s.cfg.slots (rd c.arg 0 1) (fun l => l.set (rd c.arg 1 1) ⟨rd
      c.arg 4 4, rd c.arg 8 4, rd c.arg 12 2, 2⟩) ∧ u.cfg.waves = s.cfg.waves.set (rd c.arg 0 1) (ssetL 0#32 (nth s.cfg.waves (rd c.arg 0 1) []) (rd
      c.arg 4 4 + rd c.arg 16 4) (chunkWords c.arg (rd c.arg 14 2))))

/-- PLAN_GATE_LIMIT (R59): Sets the gates' duty and pulse-width bounds. -/
def PlanGateLimitCompletes : Prop :=
  ∀ (t : Nat) (c : Cmd) (s : State),
    (s.atInstant t).admits 0x0206 c = true →
    rd c.arg 0 2 ≠ 0 →
    (s.atInstant t).maskEnabled (rd c.arg 0 2) = true →
    (1 ≤ rd c.arg 2 1 ∧ rd c.arg 2 1 ≤ 100) →
    (1 ≤ rd c.arg 4 2 ∧ rd c.arg 4 2 ≤ 32768) →
    Completes (.planGateLimit t c) s (fun u => u.answered c stPending [] ∧ u.awaits (s.atInstant t) c 0x0206 (maskList 16 (rd c.arg 0 2)) none)

/-- GATE_LIMIT_TAKES_EFFECT (R59): New gate bounds take effect at the line's sheet boundary or at apply-at, with EV_APPLIED. -/
def GateLimitTakesEffectCompletes : Prop :=
  ∀ (t g : Nat) (p : Pend) (s : State),
    s.pendOf 0x0206 g = some p →
    s.running g = false →
    p.applyAt.getD p.accepted ≤ max s.now t →
    Completes (.gateLimitTakesEffect t g) s (fun u => u.cfg.gates = s.cfg.gates.set g ⟨rd p.data 2 1, rd p.data 4 2⟩ ∧ u.pend = strike 0x0206 g
      s.pend)

/-! #### Spot shots, grid launches, the duty limiter and EMIT_PERMIT -/

/-- PLAN_SPOT (R68): Schedules a spot shot of one tone at a free instant. -/
def PlanSpotCompletes : Prop :=
  ∀ (t x : Nat) (p : Plan) (c : Cmd) (s : State),
    (s.atInstant t).admits 0x0207 c = true →
    (s.atInstant t).badLine (rd c.arg 0 1) = false →
    (s.atInstant t).plan? (rd c.arg 0 1) = some p →
    rd c.arg 1 1 < p.tones.length →
    s.emit.level = true →
    ((s.atInstant t).gridOf (rd c.arg 0 1)).spot = none →
    (s.atInstant t).spotInstant (rd c.arg 0 1) p (rd c.arg 1 1) (c.at_ (s.atInstant t)) false = some x →
    Completes (.planSpot t c) s (fun u => u.answered c stOk [] ∧ u.grid = upd s.grid (rd c.arg 0 1) (fun g =>
      { g with spot := some (x, rd c.arg 1 1) }))

/-- SPOT_LAUNCH (R68): The spot shot is launched and processed through stages 1 to 7 to the taps and capture store. -/
def SpotLaunchCompletes : Prop :=
  ∀ (t l x tone : Nat) (p : Plan) (s : State),
    (s.gridOf l).spot = some (x, tone) →
    s.plan? l = some p →
    x ≤ max s.now t →
    (s.atInstant t).dark = true →
    Completes (.spotLaunch t l) s (fun u => u.grid = upd s.grid l (fun g =>
      { g with inhibited := satAdd g.inhibited 1, spot := none, inFlight := g.inFlight ++ [{ (s.atInstant t).launchNow l p (.spot tone) with dark := true }] }))

/-- SPOT_LAUNCH (R68): The spot shot is launched and processed through stages 1 to 7 to the taps and capture store. Here: the gate of the line opens.
-/
def SpotLaunchGateCompletes : Prop :=
  ∀ (t l x tone : Nat) (p : Plan) (s : State),
    (s.gridOf l).spot = some (x, tone) →
    s.plan? l = some p →
    x ≤ max s.now t →
    (s.atInstant t).dark = false →
    ((s.atInstant t).fire l ((s.atInstant t).launchNow l p (.spot tone))).2.gateUntil ≠ 0 →
    Completes (.spotLaunch t l) s (fun u => Out.gatePulse l (s.atInstant t).now p.riseFd (((s.atInstant t).fire l ((s.atInstant t).launchNow l p
      (.spot tone))).2.gateUntil / 8 * 8) 0 ∈ u.out)

/-- PLAN_STATUS (R70): Returns, and optionally clears, a line's truncated, suppressed and inhibited launch counters and plan state. -/
def PlanStatusCompletes : Prop :=
  ∀ (t : Nat) (c : Cmd) (s : State),
    (s.atInstant t).admits 0x0208 c = true →
    (s.atInstant t).maskEnabled (rd c.arg 0 2) = true →
    bit (rd c.arg 2 2) 0 = false →
    Completes (.planStatus t c) s (fun u => u.answered c stOk ((maskList 16 (rd c.arg 0 2)).flatMap (s.atInstant t).planCounters))

/-- GRID_LAUNCH (R16): At a grid instant a line launches a tone or thermal launch, opening its gate and playing its waveform. Here: while emission is
forbidden. -/
def GridLaunchDarkCompletes : Prop :=
  ∀ (t l : Nat) (p : Plan) (k : LaunchKind) (s : State),
    s.plan? l = some p →
    (s.atInstant t).gridAt l p (s.atInstant t).now = some k →
    (s.atInstant t).running l = true →
    (s.atInstant t).lineEnabled l = true →
    ((s.gridOf l).lastLaunch = none) →
    (s.atInstant t).stopInstant l = none →
    (s.gridOf l).planFrom ≤ max s.now t →
    (s.atInstant t).dark = true →
    Completes (.gridLaunch t l) s (fun u => u.grid = upd s.grid l (fun g =>
      { g.record (s.atInstant t).now ((s.atInstant t).secondAt (s.atInstant t).now).1 ((s.atInstant t).sheetIndex l p (s.atInstant t).now) with inhibited := satAdd g.inhibited 1, inFlight := g.inFlight.filter (fun x => !x.over (s.atInstant t).now) ++ [{ (s.atInstant t).launchNow l p k with dark := true }] }))

/-- GRID_LAUNCH (R16): At a grid instant a line launches a tone or thermal launch, opening its gate and playing its waveform. -/
def GridLaunchCompletes : Prop :=
  ∀ (t l : Nat) (p : Plan) (k : LaunchKind) (s : State),
    s.plan? l = some p →
    (s.atInstant t).gridAt l p (s.atInstant t).now = some k →
    (s.atInstant t).running l = true →
    (s.atInstant t).lineEnabled l = true →
    ((s.gridOf l).lastLaunch = none) →
    (s.atInstant t).stopInstant l = none →
    (s.gridOf l).planFrom ≤ max s.now t →
    (s.atInstant t).dark = false →
    ((s.atInstant t).fire l ((s.atInstant t).launchNow l p k)).2.gateUntil ≠ 0 →
    Completes (.gridLaunch t l) s (fun u => Out.gatePulse l (s.atInstant t).now p.riseFd (((s.atInstant t).fire l ((s.atInstant t).launchNow l p
      k)).2.gateUntil / 8 * 8) 0 ∈ u.out ∧ u.grid = upd s.grid l (fun g =>
      { g.record (s.atInstant t).now ((s.atInstant t).secondAt (s.atInstant t).now).1 ((s.atInstant t).sheetIndex l p (s.atInstant t).now) with inFlight := g.inFlight.filter (fun x => !x.over (s.atInstant t).now) ++ [((s.atInstant t).fire l ((s.atInstant t).launchNow l p k)).2] }))

/-- DUTY_TRUNCATED (R57): The limiter closes a gate at its maximum pulse width or duty limit and counts a truncated launch. -/
def DutyTruncatedCompletes : Prop :=
  ∀ (t l x reached : Nat) (s : State),
    (nth s.gateRun l default).truncs = [(x, reached)] →
    x ≤ max s.now t →
    Completes (.dutyTruncated t l) s (fun u => u.grid = upd s.grid l (fun g => { g with truncated := satAdd g.truncated 1 }) ∧ (nth u.gateRun l
      default).truncs = [])

/-- EMIT_PERMIT_FALL (R569): A falling edge of EMIT_PERMIT forces gates inactive and DACs idle, and begins an inhibition or restarts qualification. -/
def EmitPermitFallCompletes : Prop :=
  ∀ (t : Nat) (s : State),
    s.emit.level = true →
    Completes (.emitPermitFall t) s (fun u => u.emit.level = false ∧ u.emit.qualifyFrom = none ∧ u.emit.inhibitedSince = some
      (s.emit.inhibitedSince.getD (max s.now t)) ∧ u.quiet = true)

/-- EMIT_PERMIT_RISE (R569): A rising edge of EMIT_PERMIT starts the 10 us qualification. -/
def EmitPermitRiseCompletes : Prop :=
  ∀ (t : Nat) (s : State),
    s.emit.level = false →
    Completes (.emitPermitRise t) s (fun u => u.emit = { s.emit with level := true, qualifyFrom := some (max s.now t) })

/-- EMIT_QUALIFIED (R569): Qualification ends, emission is permitted again and EV_EMIT_PERMITTED is recorded. -/
def EmitQualifiedCompletes : Prop :=
  ∀ (t q : Nat) (s : State),
    s.emit.level = true →
    s.emit.qualifyFrom = some q →
    q + 10 * ticksPerUs ≤ max s.now t →
    (s.atInstant t).canReport = true →
    Completes (.emitQualified t) s (fun u => u.emit.level = true ∧ u.emit.qualifyFrom = none ∧ u.emit.inhibitedSince = none ∧ u.reported 0x0204
      srcDevice (u32 (satTo 4 ((q + 10 * ticksPerUs - s.emit.inhibitedSince.getD q) / ticksPerUs))))

/-! #### Receive front end: lane words, lead monitors, quads, gain settings -/

/-- LANE_WORD_RELEASE (R83): A lane word is released to its consumers 768 cells after its sampling instant with final flags. -/
def LaneWordReleaseCompletes : Prop :=
  ∀ (t q role : Nat) (vNv : Int) (s : State),
    (s.atInstant t).quadEnabled q = true →
    role ≤ 4 →
    768 * ticksPerCell ≤ max s.now t →
    s.pwr.st < 2 →
    q < s.quads.length →
    (s.quadOf q).words.length = 5 →
    Completes (.laneWordRelease t q role vNv) s (fun u => nth (u.quadOf q).words role [] = (((s.atInstant t).now - 768 * ticksPerCell) / ticksPerCell
      * ticksPerCell, (s.atInstant t).laneWord q role (((s.atInstant t).now - 768 * ticksPerCell) / ticksPerCell * ticksPerCell) vNv) :: nth (s.quadOf
      q).words role [])

/-- MONITOR_BLOCK_END (R85): At the end of a monitor block each monitored input's mean common mode is judged against its window. Here: a passing
block. -/
def MonitorBlockEndPassCompletes : Prop :=
  ∀ (t q r a b c d : Nat) (s : State),
    q < 16 →
    q < s.quads.length →
    (s.quadOf q).inputs.length = 4 →
    (s.quadOf q).ready = some r →
    r + blockTicks ≤ (s.atInstant t).blockFloor (s.atInstant t).now →
    s.pwr.st < 2 →
    ((s.quadOf q).roleConv 0).isSome = true →
    ((s.atInstant t).windowFor q 0 ((s.atInstant t).blockFloor (s.atInstant t).now - blockTicks)).1 ≤ a →
    a ≤ ((s.atInstant t).windowFor q 0 ((s.atInstant t).blockFloor (s.atInstant t).now - blockTicks)).2 →
    ((s.quadOf q).inputOf 0).fault = none →
    Completes (.monitorBlockEnd t q [a, b, c, d]) s (fun u => ((u.quadOf q).inputOf 0).cmMv = satTo 2 a ∧ ((u.quadOf q).inputOf 0).lastPass = some
      ((s.atInstant t).blockFloor (s.atInstant t).now - blockTicks) ∧ ((u.quadOf q).inputOf 0).fault = none)

/-- MONITOR_BLOCK_END (R85): At the end of a monitor block each monitored input's mean common mode is judged against its window. Here: a failing
block. -/
def MonitorBlockEndFailCompletes : Prop :=
  ∀ (t q r a b c d : Nat) (s : State),
    q < 16 →
    q < s.quads.length →
    (s.quadOf q).inputs.length = 4 →
    (s.quadOf q).ready = some r →
    r + blockTicks ≤ (s.atInstant t).blockFloor (s.atInstant t).now →
    s.pwr.st < 2 →
    ((s.quadOf q).roleConv 0).isSome = true →
    ((s.atInstant t).windowFor q 0 ((s.atInstant t).blockFloor (s.atInstant t).now - blockTicks)).2 < a →
    ((s.atInstant t).windowFor q 0 ((s.atInstant t).blockFloor (s.atInstant t).now - blockTicks)).1 ≤ ((s.atInstant t).windowFor q 0 ((s.atInstant
      t).blockFloor (s.atInstant t).now - blockTicks)).2 →
    ((s.quadOf q).inputOf 0).fault = none →
    Completes (.monitorBlockEnd t q [a, b, c, d]) s (fun u => ((u.quadOf q).inputOf 0).fault = some ⟨true, (s.atInstant t).blockFloor (s.atInstant
      t).now - blockTicks, 0⟩ ∧ ((u.quadOf q).inputOf 0).leadFaults = satAdd ((s.quadOf q).inputOf 0).leadFaults 1)

/-- QUAD_WAKE (R95): Wake begins 1 000 cells before a quad's ready instant and clears NOT_READY at it. -/
def QuadWakeCompletes : Prop :=
  ∀ (t q d : Nat) (s : State),
    q < 16 →
    q < s.quads.length →
    (s.atInstant t).quadEnabled q = true →
    s.pwr.st < 2 →
    (s.quadOf q).ready = none →
    (s.atInstant t).nextDeckle q (s.atInstant t).now = some d →
    (s.atInstant t).readyFor d ≤ (s.atInstant t).now + wakeTicks →
    Completes (.quadWake t q) s (fun u => (u.quadOf q).ready = some (if (s.atInstant t).now + wakeTicks = (s.atInstant t).readyFor d then (s.atInstant
      t).readyFor d else (s.atInstant t).lateReady))

/-- QUAD_POWER_DOWN (R96): After its line's last deckle cell a quad powers down at the block end when the next ready instant is far enough. -/
def QuadPowerDownCompletes : Prop :=
  ∀ (t q : Nat) (s : State),
    q < 16 →
    (s.atInstant t).quadState q = 2 →
    (s.atInstant t).mayPowerDown q ((s.atInstant t).blockFloor (s.atInstant t).now) = true →
    Completes (.quadPowerDown t q) s (fun u => u.quads = upd s.quads q
      (fun r => match r.ready with | none => r | some a => { r with ready := none, spells := (a, (s.atInstant t).blockFloor (s.atInstant t).now) :: r.spells.filter (fun e => decide ((s.atInstant t).blockFloor (s.atInstant t).now < e.2 + quadKeep)) }))

/-- QUAD_POWER_DOWN (R96): After its line's last deckle cell a quad powers down at the block end when the next ready instant is far enough. Here: Q16.
-/
def QuadPowerDownReferenceCompletes : Prop :=
  ∀ (t : Nat) (s : State),
    (s.atInstant t).quadState 16 = 2 →
    (s.quadOf 16).held = false →
    (∀ l < 16, (s.atInstant t).lineEnabled l = true → (s.atInstant t).quadState l = 0 ∧ (s.quadOf l).held = false ∧ (s.atInstant t).nextDeckle l
      ((s.atInstant t).blockFloor (s.atInstant t).now) = none) →
    Completes (.quadPowerDown t 16) s (fun u => u.quads = upd s.quads 16
      (fun r => match r.ready with | none => r | some a => { r with ready := none, spells := (a, (s.atInstant t).blockFloor (s.atInstant t).now) :: r.spells.filter (fun e => decide ((s.atInstant t).blockFloor (s.atInstant t).now < e.2 + quadKeep)) }))

/-- RX_CONFIG (R103): Sets a quad's gain step, common-mode windows and Q16 monitor mask. -/
def RxConfigCompletes : Prop :=
  ∀ (t : Nat) (c : Cmd) (s : State),
    (s.atInstant t).admits 0x0301 c = true →
    (s.atInstant t).quadEnabled (rd c.arg 0 1) = true →
    rd c.arg 1 1 ≤ 5 →
    (rd c.arg 0 1 < 16 → rd c.arg 2 1 = 0) →
    (∀ i < 4, windowOk c.arg i = true) →
    (s.atInstant t).pendOf 0x0301 (rd c.arg 0 1) = none →
    Completes (.rxConfig t c) s (fun u => u.answered c stPending [] ∧ u.awaits (s.atInstant t) c 0x0301 [rd c.arg 0 1] none)

/-- RX_CONFIG_TAKES_EFFECT (R103): The receiver settings take effect at the line's sheet boundary or at apply-at, with EV_APPLIED. -/
def RxConfigTakesEffectCompletes : Prop :=
  ∀ (t q : Nat) (p : Pend) (s : State),
    s.pendOf 0x0301 q = some p →
    (s.atInstant t).rxDue q p ≤ max s.now t →
    Completes (.rxConfigTakesEffect t q) s (fun u => u.cfg.quads = upd s.cfg.quads q (fun _ => ⟨rd p.data 1 1, rd p.data 2 1, (List.range 4).map (fun
      i => rd p.data (4 + 4 * i) 2), (List.range 4).map (fun i => rd p.data (6 + 4 * i) 2)⟩) ∧ u.pend = strike 0x0301 q s.pend)

/-- RX_REF_CONFIG (R104): Declares the reference interferometer delay. -/
def RxRefConfigCompletes : Prop :=
  ∀ (t : Nat) (c : Cmd) (s : State),
    (s.atInstant t).admits 0x0302 c = true →
    (16384 ≤ rd c.arg 0 4 ∧ rd c.arg 0 4 ≤ 2097152) →
    (∀ l < 16, (s.atInstant t).running l = false) →
    Completes (.rxRefConfig t c) s (fun u => u.answered c stOk [] ∧ u.cfg = { s.cfg with refDelay := rd c.arg 0 4 })

/-- RX_HOLD (R96): Replaces the mask of quads kept awake regardless of deckles. -/
def RxHoldCompletes : Prop :=
  ∀ (t q : Nat) (c : Cmd) (s : State),
    (s.atInstant t).admits 0x0303 c = true →
    rd c.arg 0 4 < 131072 →
    (∀ q < 17, bit (rd c.arg 0 4) q = true → (s.atInstant t).quadEnabled q = true) →
    q < s.quads.length →
    q < 17 →
    Completes (.rxHold t c) s (fun u => u.answered c stOk [] ∧ (u.quadOf q).held = bit (rd c.arg 0 4) q ∧ (bit (rd c.arg 0 4) q = true → (u.quadOf
      q).ready.isSome = true))

/-- RX_STATUS (R102): Returns a quad's state, role map and counters. -/
def RxStatusCompletes : Prop :=
  ∀ (t : Nat) (c : Cmd) (s : State),
    (s.atInstant t).admits 0x0304 c = true →
    (s.atInstant t).quadEnabled (rd c.arg 0 1) = true →
    Completes (.rxStatus t c) s (fun u => u.answered c stOk ((s.atInstant t).rxBody (rd c.arg 0 1)) ∧ u.quads = if bit (rd c.arg 1 1) 0 then upd
      s.quads (rd c.arg 0 1) (fun r => { r with wakeLate := 0, inputs := r.inputs.map (fun i => { i with clips := 0, leadFaults := 0 }) }) else
      s.quads)

/-! #### Calender: blocks, handovers, rotation, coefficient sets -/

/-- CAL_BLOCK_GATHERED (R112): A gathered calibration block is tested and, if it passes, updates coefficients and handover counts. -/
def CalBlockGatheredCompletes : Prop :=
  ∀ (t q j i : Nat) (blk : List GathCell) (b : CalBlock) (s : State),
    nth (s.quadOf q).convs j default = ⟨some i, false⟩ →
    (s.atInstant t).quadEnabled q = true →
    (q = 16 → i < 2) →
    (s.atInstant t).gatheredBlock q j = some blk →
    calFails q (measure ((s.atInstant t).quadDecim q) i j blk) = [] →
    (s.atInstant t).convHeld q j true = false →
    (s.calOf q).phase ≠ 4 →
    s.cfg.conv.length = 510 →
    (q < 17 ∧ j < 5 ∧ (s.quadCfg q).gain < 6) →
    (s.atInstant t).serviceable q = [0, 1, 2, 3, 4] →
    Completes (.calBlockGathered t q j b) s (fun u => (u.convSet q j (s.quadCfg q).gain).o = mergeList (-4096) 4096 (s.convSet q j (s.quadCfg
      q).gain).o b.offs ∧ (u.convSet q j (s.quadCfg q).gain).g = mergeList 29492 36044 (s.convSet q j (s.quadCfg q).gain).g b.gains ∧ (u.convSet q j
      (s.quadCfg q).gain).tau = mergeList (-256) 256 (s.convSet q j (s.quadCfg q).gain).tau b.taus ∧ ((List.range 5).map (fun k => (u.convSet q k
      (s.quadCfg q).gain).tauK)).sum = 0 ∧ u.cfg.pair = s.cfg.pair.set (pairIx q (pairOf i) (s.quadCfg q).gain) (mergePair (s.pairSet q (pairOf i)
      (s.quadCfg q).gain) b) ∧ (u.convMark q j (s.quadCfg q).gain).updated = (s.atInstant t).now)

/-- CAL_BLOCK_GATHERED (R112): A gathered calibration block is tested and, if it passes, updates coefficients and handover counts. Here: a block that
fails a test. -/
def CalBlockFailsCompletes : Prop :=
  ∀ (t q j i e : Nat) (v : Int) (rest : List (Nat × Int)) (k : Bool) (blk : List GathCell) (b : CalBlock) (s : State),
    nth (s.quadOf q).convs j default = ⟨some i, k⟩ →
    (s.atInstant t).quadEnabled q = true →
    (q = 16 → i < 2) →
    (s.atInstant t).gatheredBlock q j = some blk →
    calFails q (measure ((s.atInstant t).quadDecim q) i j blk) = (e, v) :: rest →
    q < s.cal.quads.length →
    (s.atInstant t).canReport = true →
    Completes (.calBlockGathered t q j b) s (fun u => u.cfg = s.cfg ∧ (u.calOf q).fails = upd (s.calOf q).fails (e - 1) (satAdd · 1) ∧ u.heard 0x0306
      (srcQuad q) ∧ u.cal.conv = s.cal.conv ∧ u.cal.pair = s.cal.pair)

/-- CAL_BLOCK_GATHERED (R112): A gathered calibration block is tested and, if it passes, updates coefficients and handover counts. Here: the block is
not whole. -/
def CalBlockNotWholeCompletes : Prop :=
  ∀ (t q j i : Nat) (k : Bool) (b : CalBlock) (s : State),
    nth (s.quadOf q).convs j default = ⟨some i, k⟩ →
    (s.atInstant t).gatheredBlock q j = none →
    Completes (.calBlockGathered t q j b) s (fun u => u.cal = s.cal ∧ u.cfg = s.cfg ∧ u.quads = s.quads)

/-- HANDOVER (R117): At the handover instant the spare takes the serving role of the input. -/
def HandoverCompletes : Prop :=
  ∀ (t q d j i h old : Nat) (s : State),
    (s.calOf q).dueAt = some d →
    (s.calOf q).spare = some j →
    (s.calOf q).input = some i →
    (s.calOf q).recheck = false →
    (s.atInstant t).handoverInstant q d = some h →
    h ≤ max s.now t →
    (s.atInstant t).hostFirst q h = false →
    (s.quadOf q).roleConv i = some old →
    Completes (.handover t q) s (fun u => u.quads = upd s.quads q (fun r =>
      { r with convs := (r.convs.set j ⟨some i, false⟩).set old ⟨some i, true⟩, maps := pastPut r.maps h quadKeep r.convs }) ∧ (u.calOf q).phase = 2 ∧
      (u.calOf q).spare = some old ∧ (u.calOf q).server = j ∧ (u.calOf q).handAt = h ∧ (u.calOf q).handovers = satAdd (s.calOf q).handovers 1)

/-- OVERLAP_END (R118): The last sheet launched before the handover is sampled and the outgoing converter leaves the sheet path. -/
def OverlapEndCompletes : Prop :=
  ∀ (t q j : Nat) (s : State),
    (s.calOf q).phase = 2 →
    (s.atInstant t).overlapping q = false →
    (s.calOf q).spare = some j →
    (s.calOf q).erring = none →
    Completes (.overlapEnd t q) s (fun u => u.cal = { s.cal with quads := upd s.cal.quads q (fun k => { k with phase := 3, blocks := 0 }) })

/-- ROTATION_MOVE_READY (R115): Two microseconds after the move the converter is usable as the spare on the next input. -/
def RotationMoveReadyCompletes : Prop :=
  ∀ (t q j i x : Nat) (s : State),
    (s.calOf q).movingUntil = some x →
    (s.calOf q).spare = some j →
    (s.calOf q).input = some i →
    x ≤ max s.now t →
    Completes (.rotationMoveReady t q) s (fun u => u.quads = upd s.quads q (fun r =>
      { r with convs := r.convs.set j ⟨some i, true⟩, maps := pastPut r.maps (s.atInstant t).now quadKeep r.convs }) ∧ u.cal =
      { s.cal with quads := upd s.cal.quads q (fun k => { k with phase := if k.phase = 5 then 5 else 1, movingUntil := none, blocks := 0, passRun := 0, passed := false, gathFrom := k.gathFrom.set j (s.atInstant t).now, startSets := (List.range 6).map (fun g => s.convSet q j g) }) })

/-- CAL_STALE (R127): A figure's AGE passes STALE_S, sets STALE and raises EV_CAL_STALE once. -/
def CalStaleCompletes : Prop :=
  ∀ (t q i : Nat) (s : State),
    (s.atInstant t).quadEnabled q = true →
    i < 4 →
    (s.calCfg q).staleS < (s.atInstant t).calAge q i →
    (nth (s.calOf q).stale i false) = false →
    (s.atInstant t).quadUsed q = true →
    (s.atInstant t).canReport = true →
    Completes (.calStale t q i) s (fun u => u.cal = { s.cal with quads := upd s.cal.quads q (fun k => { k with stale := k.stale.set i true }) } ∧
      u.reported 0x0309 (srcQuad q) (u8 i ++ u32 (satTo 4 ((s.atInstant t).calAge q i))))

/-- CAL_CONFIG (R131): Sets rotation, freeze, handover threshold and stale age for quads. -/
def CalConfigCompletes : Prop :=
  ∀ (t q : Nat) (c : Cmd) (s : State),
    (s.atInstant t).admits 0x0305 c = true →
    (rd c.arg 0 4 ≠ 0 ∧ rd c.arg 0 4 < 131072) →
    (∀ q ∈ maskList 17 (rd c.arg 0 4), (s.atInstant t).quadEnabled q = true) →
    (40 ≤ rd c.arg 5 1 ∧ rd c.arg 5 1 ≤ 60) →
    (10 ≤ rd c.arg 6 2 ∧ rd c.arg 6 2 ≤ 3600) →
    s.cfg.cal.length = 17 →
    q ∈ maskList 17 (rd c.arg 0 4) →
    Completes (.calConfig t c) s (fun u => u.answered c stOk [] ∧ nth u.cfg.cal q CalCfg.factory = ⟨bit (rd c.arg 4 1) 0, bit (rd c.arg 4 1) 1, rd
      c.arg 5 1, rd c.arg 6 2⟩)

/-- CAL_STATUS (R130): Returns rotation state, counters and quality figures. -/
def CalStatusCompletes : Prop :=
  ∀ (t : Nat) (c : Cmd) (s : State),
    (s.atInstant t).admits 0x0306 c = true →
    (s.atInstant t).quadEnabled (rd c.arg 0 1) = true →
    Completes (.calStatus t c) s (fun u => u.answered c stOk ((s.atInstant t).calBody (rd c.arg 0 1)) ∧ u.cal.quads = if bit (rd c.arg 1 1) 0 then upd
      s.cal.quads (rd c.arg 0 1) (fun k => { k with handovers := 0, rejected := 0, fails := [0, 0, 0, 0, 0] }) else s.cal.quads)

/-- CAL_READ (R130): Returns one coefficient set. -/
def CalReadCompletes : Prop :=
  ∀ (t : Nat) (v : ConvSet) (m : SetMark) (c : Cmd) (s : State),
    (s.atInstant t).admits 0x0307 c = true →
    (s.atInstant t).quadEnabled (rd c.arg 0 1) = true →
    rd c.arg 2 1 ≤ 5 →
    rd c.arg 1 1 ≤ 4 →
    s.convSet (rd c.arg 0 1) (rd c.arg 1 1) (rd c.arg 2 1) = v →
    s.convMark (rd c.arg 0 1) (rd c.arg 1 1) (rd c.arg 2 1) = m →
    Completes (.calRead t c) s (fun u => u.answered c stOk (u16 (markFlags m) ++ u16 0 ++ v.o.flatMap (leBytesS 2) ++ v.g.flatMap (leBytesS 2) ++
      v.tau.flatMap (leBytesS 2) ++ leBytesS 2 v.tauK ++ u16 0 ++ u32 (satTo 4 (((s.atInstant t).now - m.updated) / ticksPerSecond))))

/-- CAL_READ (R130): Returns one coefficient set. Here: a pair set. -/
def CalReadPairCompletes : Prop :=
  ∀ (t : Nat) (v : PairSet) (m : SetMark) (c : Cmd) (s : State),
    (s.atInstant t).admits 0x0307 c = true →
    (s.atInstant t).quadEnabled (rd c.arg 0 1) = true →
    rd c.arg 2 1 ≤ 5 →
    (rd c.arg 1 1 = 8 ∨ (rd c.arg 1 1 = 9 ∧ rd c.arg 0 1 < 16)) →
    s.pairSet (rd c.arg 0 1) (rd c.arg 1 1 - 8) (rd c.arg 2 1) = v →
    s.pairMark (rd c.arg 0 1) (rd c.arg 1 1 - 8) (rd c.arg 2 1) = m →
    Completes (.calRead t c) s (fun u => u.answered c stOk (u16 (markFlags m) ++ u16 0 ++ leBytesS 2 v.eps ++ zeros 6 ++ leBytesS 2 v.theta ++ zeros 6
      ++ leBytesS 2 v.delta ++ zeros 6 ++ u16 0 ++ u16 0 ++ u32 (satTo 4 (((s.atInstant t).now - m.updated) / ticksPerSecond))))

/-! #### Line engines: sheets, spares, start, stop, status -/

/-- SHEET_COMPLETE (R159): A sheet's point samples and sheet record leave the line engine towards the felt. -/
def SheetCompleteCompletes : Prop :=
  ∀ (t l k : Nat) (e : Launch) (i : SheetInput) (s : State),
    (s.atInstant t).completing l i.launch = some e →
    e.kind = .tone k →
    (e.plan.tone k).cls ≠ 2 →
    (s.feltOf l).formatted = true →
    (s.feltOf l).fsn % 32 ≠ 0 →
    l < s.felt.length →
    l < s.lines.length →
    Completes (.sheetComplete t l i) s (fun u => u.grid.map LineGrid.inFlight = (upd s.grid l (fun g =>
      { g with inFlight := g.inFlight.filter (fun e => e.tick != i.launch || decide (e.kind = .thermal)) })).map LineGrid.inFlight ∧ (u.lineOf
      l).lastRecord = ((s.atInstant t).finishSheet l e i.badEntries).2.record ∧ (u.feltOf l).fsn = (s.feltOf l).fsn + 1 ∧ (u.feltOf
      l).rows.getLast?.map FeltRow.record = some ((s.atInstant t).finishSheet l e i.badEntries).2.record)

/-- LINE_SPARED (R168): At a sheet boundary LE16 takes a line whose engine is due for test or retired. -/
def LineSparedCompletes : Prop :=
  ∀ (t l : Nat) (b : Bool) (s : State),
    l < 16 →
    (s.lineOf l).engine = l →
    (s.hUnit kindLine l).due.isSome = true →
    (s.hUnit kindLine 16).st = 1 →
    (s.hUnit kindLine 16).due = none →
    (s.atInstant t).running l = false →
    (s.pwr.st = 1 → (s.hUnit kindLine l).moveSince + 20 * ticksPerUs ≤ max s.now t) →
    17 ≤ (nth s.health.units kindLine []).length →
    Completes (.lineSpared t l b) s (fun u => u.lines = upd s.lines l (fun r =>
      { r with engine := 16, restartNext := true, sparedNext := true, unreliableBefore := if b then some (s.atInstant t).now else none }) ∧ (u.hUnit
      kindLine 16).st = 0 ∧ (u.hUnit kindLine l).st = 2)

/-- LINE_UNSPARED (R169): After a passed test the line returns to its own engine at the next sheet boundary. -/
def LineUnsparedCompletes : Prop :=
  ∀ (t l : Nat) (s : State),
    (s.lineOf l).returnDue = true →
    (s.atInstant t).running l = false →
    Completes (.lineUnspared t l) s (fun u => u.lines = upd s.lines l (fun r =>
      { r with engine := l, restartNext := true, sparedNext := true, unreliableBefore := none, returnDue := false }))

/-- LINE_CONFIG (R172): Sets a line's phase-noise, polarisation, tracking and tracker parameters. -/
def LineConfigCompletes : Prop :=
  ∀ (t : Nat) (c : Cmd) (s : State),
    (s.atInstant t).admits 0x0401 c = true →
    (s.atInstant t).badLine (rd c.arg 0 1) = false →
    lineCfgOk (readLineCfg c.arg) = true →
    (s.atInstant t).pendOf 0x0401 (rd c.arg 0 1) = none →
    Completes (.lineConfig t c) s (fun u => u.answered c stPending [] ∧ u.awaits (s.atInstant t) c 0x0401 [rd c.arg 0 1] none)

/-- LINE_CONFIG_TAKES_EFFECT (R172): The line settings take effect at a sheet or shot boundary, with a line restart for PNC, POL or REF_OFFSET. -/
def LineConfigTakesEffectCompletes : Prop :=
  ∀ (t l : Nat) (p : Pend) (s : State),
    s.pendOf 0x0401 l = some p →
    (s.atInstant t).lineCfgDue l p ≤ max s.now t →
    Completes (.lineConfigTakesEffect t l) s (fun u => u.cfg.lines = s.cfg.lines.set l (readLineCfg p.data) ∧ u.pend = strike 0x0401 l s.pend ∧
      u.lines = if (s.atInstant t).running l && (s.lineCfg l).restarts (readLineCfg p.data) then upd s.lines l (fun r =>
      { r with restartNext := true }) else s.lines)

/-- LINE_START (R166): Schedules named lines to start at their first grid launch. -/
def LineStartCompletes : Prop :=
  ∀ (t l : Nat) (c : Cmd) (s : State),
    (s.atInstant t).admits 0x0402 c = true →
    rd c.arg 0 2 ≠ 0 →
    (s.atInstant t).maskEnabled (rd c.arg 0 2) = true →
    rd c.arg 2 1 = 0 →
    (∀ l ∈ maskList 16 (rd c.arg 0 2), (s.atInstant t).lineBusy l = false ∧ ((s.atInstant t).plan? l).isSome = true ∧ ((s.atInstant t).lineOf l).st =
      0 ∧ (s.atInstant t).lineLacksSpare l = false) →
    s.cfg.refDelay ≠ 0 →
    s.mem.available = true →
    l ∈ maskList 16 (rd c.arg 0 2) →
    l < s.lines.length →
    Completes (.lineStart t c) s (fun u => u.answered c stPending [] ∧ u.awaits (s.atInstant t) c 0x0402 (maskList 16 (rd c.arg 0 2)) none ∧ (u.lineOf
      l).st = 1 ∧ (u.lineOf l).from_ = max ((c.at_ (s.atInstant t)).getD (s.atInstant t).now) (s.gridOf l).awakeAt)

/-- LINE_STARTED (R166): The line starts at its first grid launch with a line restart and EV_LINE_STARTED. -/
def LineStartedCompletes : Prop :=
  ∀ (t l x : Nat) (p : Pend) (s : State),
    (s.lineOf l).st = 1 →
    s.pendOf 0x0402 l = some p →
    (s.atInstant t).startInstant l p = some x →
    x ≤ max s.now t →
    l < s.lines.length →
    Completes (.lineStarted t l) s (fun u => (u.lineOf l).st = 2 ∧ (u.lineOf l).restartNext = true ∧ (u.lineOf l).eRef = none ∧ u.pend = strike 0x0402
      l s.pend)

/-- LINE_STOP (R167): Schedules named lines to stop, drain or immediate. -/
def LineStopCompletes : Prop :=
  ∀ (t l : Nat) (c : Cmd) (s : State),
    (s.atInstant t).admits 0x0403 c = true →
    rd c.arg 0 2 ≠ 0 →
    (s.atInstant t).maskEnabled (rd c.arg 0 2) = true →
    rd c.arg 2 1 ≤ 1 →
    (∀ l ∈ maskList 16 (rd c.arg 0 2), (s.atInstant t).lineBusy l = false ∧ ((s.atInstant t).lineOf l).st = 2) →
    l ∈ maskList 16 (rd c.arg 0 2) →
    l < s.lines.length →
    Completes (.lineStop t c) s (fun u => u.answered c stPending [] ∧ u.awaits (s.atInstant t) c 0x0403 (maskList 16 (rd c.arg 0 2)) none ∧ (u.lineOf
      l).st = 3)

/-- LINE_STOP_BOUNDARY (R167): At its stop sheet boundary the line makes no further launch, and in immediate form discards unwritten sheets. -/
def LineStopBoundaryCompletes : Prop :=
  ∀ (t l x : Nat) (p : Pend) (s : State),
    (s.lineOf l).stop = none →
    s.pendOf 0x0403 l = some p →
    (s.atInstant t).stopInstant l = some x →
    x ≤ max s.now t →
    l < s.lines.length →
    Completes (.lineStopBoundary t l) s (fun u => (u.lineOf l).stop = some ⟨rd p.data 2 1 == 1, x, (s.atInstant t).stopDiscards l (rd p.data 2 1 ==
      1)⟩ ∧ (u.lineOf l).discarded = satAdd (s.lineOf l).discarded ((s.atInstant t).stopDiscards l (rd p.data 2 1 == 1)) ∧ u.pend = strike 0x0403 l
      s.pend)

/-- LINE_STOPPED (R167): Once the drain or discard is complete EV_LINE_STOPPED is raised and the quad powers down. -/
def LineStoppedCompletes : Prop :=
  ∀ (t l : Nat) (r : StopRun) (s : State),
    (s.lineOf l).stop = some r →
    (s.atInstant t).engineDrained l = true →
    s.pwr.pend = none →
    s.sys.shutdown = none →
    (s.atInstant t).canReport = true →
    Completes (.lineStopped t l) s (fun u => (u.lineOf l).st = 0 ∧ (u.lineOf l).stop = none ∧ u.heard 0x0402 (srcLine l))

/-- LINE_STATUS (R171): Returns a line's state, engine, end and counters. -/
def LineStatusCompletes : Prop :=
  ∀ (t : Nat) (c : Cmd) (s : State),
    (s.atInstant t).admits 0x0404 c = true →
    (s.atInstant t).badLine (rd c.arg 0 1) = false →
    Completes (.lineStatus t c) s (fun u => u.answered c stOk ((s.atInstant t).lineBody (rd c.arg 0 1)) ∧ u.lines = if bit (rd c.arg 1 1) 0 then upd
      s.lines (rd c.arg 0 1) (fun r =>
      { r with sheets := 0, invalidSamples := 0, clippedSamples := 0, splices := 0, refWeak := 0, stateErrors := 0, discarded := 0, saturations := 0 })
      else s.lines)

/-- LINE_READ_STATE (R171): Returns point-state entries of a line. -/
def LineReadStateCompletes : Prop :=
  ∀ (t : Nat) (p : Plan) (c : Cmd) (s : State),
    (s.atInstant t).admits 0x0405 c = true →
    (s.atInstant t).badLine (rd c.arg 0 1) = false →
    (s.atInstant t).plan? (rd c.arg 0 1) = some p →
    (1 ≤ rd c.arg 2 2 * p.tones.length ∧ rd c.arg 2 2 * p.tones.length ≤ 500) →
    rd c.arg 4 4 + rd c.arg 2 2 ≤ p.points →
    Completes (.lineReadState t c) s (fun u => u.answered c stOk ((List.range (rd c.arg 2 2)).flatMap (fun k => (pointEntries (s.lineOf (rd c.arg 0
      1)).points p.tones.length (rd c.arg 4 4 + k)).flatMap (fun e => u64 e.word))))

/-! #### Felt: quires, resize, readers -/

/-- FELT_QUIRE_BEGIN (R185): The felt writer begins a quire slot, clipping overtaken readers and breaking covered holds. -/
def FeltQuireBeginCompletes : Prop :=
  ∀ (t l : Nat) (s : State),
    (s.atInstant t).sheetDue l = true →
    (s.feltOf l).atBoundary = true →
    s.pendOf 0x0501 l = none →
    s.pendOf 0x0504 l = none →
    s.pendOf 0x0505 l = none →
    l < s.felt.length →
    Completes (.feltQuireBegin t l) s (fun u => (u.feltOf l).begun = some ((s.feltOf l).fsn / 32) ∧ (u.feltOf l).ns = (s.atInstant t).slotsNow l
      (s.feltOf l).points (s.feltOf l).decode)

/-- QUIRE_COMPLETE (R178): The 32nd sheet record of a quire is written and its slow-time jobs become ready. -/
def QuireCompleteCompletes : Prop :=
  ∀ (t l : Nat) (a b : FeltRow) (s : State),
    (s.feltOf l).fsn % 32 = 0 →
    0 < (s.feltOf l).fsn →
    ((s.feltOf l).quireRows ((s.feltOf l).fsn / 32 - 1)).length = 32 →
    ((s.feltOf l).quireRows ((s.feltOf l).fsn / 32 - 1)).head? = some a →
    ((s.feltOf l).quireRows ((s.feltOf l).fsn / 32 - 1)).getLast? = some b →
    (s.slowCfg l).started = true →
    (s.atInstant t).slowStopping l = false →
    (∀ j ∈ (s.slowOf l).queue, j.quire ≠ (s.feltOf l).fsn / 32 - 1) →
    Completes (.quireComplete t l) s (fun u => u.slow = upd s.slow l (fun r =>
      { r with queue := r.queue ++ [⟨(s.feltOf l).fsn / 32 - 1, (s.atInstant t).now, (((s.feltOf l).quireRows ((s.feltOf l).fsn / 32 - 1)).map FeltRow.chain).foldl max 0, BitVec.ofNat 96 (rd a.record 0 12), BitVec.ofNat 96 (rd b.record 0 12)⟩] })
      ∧ u.tiles.ready = s.tiles.ready ++ (List.range (ceilDiv (s.feltOf l).points 256)).map (fun g => ⟨.slow l ((s.feltOf l).fsn / 32 - 1) g,
      (s.atInstant t).now, none⟩))

/-- SLOW_QUIRE_RELEASED (R200): The slow sheets of a processed quire are released to triggers and streams. -/
def SlowQuireReleasedCompletes : Prop :=
  ∀ (t l : Nat) (j : QuireJob) (rest : List QuireJob) (s : State),
    (s.slowOf l).queue = j :: rest →
    (s.feltOf l).oldest ≤ 32 * j.quire →
    (s.atInstant t).slowJobsLeft l j.quire = false →
    s.pwr.pend = none →
    s.sys.shutdown = none →
    l < s.slow.length →
    Completes (.slowQuireReleased t l) s (fun u => (u.slowOf l).queue = rest ∧ (u.slowOf l).quires = satAdd (s.slowOf l).quires 1 ∧ (u.slowOf l).lagUs
      = satTo 4 (((s.atInstant t).now - j.completeAt) / ticksPerUs))

/-- SLOW_OVERRUN (R200): A quire overwritten before or during processing is lost and chains restart. -/
def SlowOverrunCompletes : Prop :=
  ∀ (t l : Nat) (j : QuireJob) (rest : List QuireJob) (s : State),
    (s.slowOf l).queue = j :: rest →
    32 * j.quire < (s.feltOf l).oldest →
    s.pwr.pend = none →
    s.sys.shutdown = none →
    (s.atInstant t).canReport = true →
    Completes (.slowOverrun t l) s (fun u => u.slow = upd s.slow l (fun r =>
      { r with queue := r.queue.filter (fun k => k.quire != j.quire), overruns := satAdd r.overruns 1, chainFor := max r.chainFor (max j.mark 1) }) ∧
      u.heard 0x0503 (srcLine l))

/-- FELT_RESIZE (R201): Sets line weights and formats, formatting stopped lines at acceptance. -/
def FeltResizeCompletes : Prop :=
  ∀ (t : Nat) (c : Cmd) (s : State),
    (s.atInstant t).admits 0x0501 c = true →
    rd c.arg 0 2 ≠ 0 →
    (s.atInstant t).maskEnabled (rd c.arg 0 2) = true →
    (∀ l ∈ maskList 16 (rd c.arg 0 2), resizeParts c.arg l ≤ 1024 ∧ rd c.arg (6 + 4 * l) 1 ≤ 1 ∧ (s.atInstant t).pendOf 0x0501 l = none ∧ resizeHalf
      c.arg l = ((s.atInstant t).feltCfg l).half) →
    ((s.atInstant t).enabledLines.map (fun l => (nth (resizedFelt (s.atInstant t).pendingFelt c.arg (maskList 16 (rd c.arg 0 2))) l ⟨64,
      false⟩).parts)).sum ≤ 1024 →
    (bit (rd c.arg 2 1) 0 = true ∨ ∀ l ∈ maskList 16 (rd c.arg 0 2), (s.atInstant t).resizeInUse c.arg (resizedFelt (s.atInstant t).pendingFelt c.arg
      (maskList 16 (rd c.arg 0 2))) l = false) →
    (s.atInstant t).sharesOk (resizedFelt (s.atInstant t).pendingFelt c.arg (maskList 16 (rd c.arg 0 2))) (s.atInstant t).pendingSlow = true →
    Completes (.feltResize t c) s (fun u => u.answered c stPending [] ∧ u.awaits (s.atInstant t) c 0x0501 (maskList 16 (rd c.arg 0 2)) none)

/-- FELT_RESIZE (R201): Sets line weights and formats, formatting stopped lines at acceptance. Here: a change of format. -/
def FeltResizeFormatCompletes : Prop :=
  ∀ (t l : Nat) (c : Cmd) (s : State),
    (s.atInstant t).admits 0x0501 c = true →
    l < 16 →
    rd c.arg 0 2 = 2 ^ l →
    (s.atInstant t).maskEnabled (rd c.arg 0 2) = true →
    (resizeParts c.arg l ≤ 1024 ∧ rd c.arg (6 + 4 * l) 1 ≤ 1) →
    (s.atInstant t).pendOf 0x0501 l = none →
    resizeHalf c.arg l ≠ ((s.atInstant t).feltCfg l).half →
    ((s.atInstant t).lineOf l).st = 0 →
    ((s.atInstant t).enabledLines.map (fun k => (nth (resizedFelt (s.atInstant t).pendingFelt c.arg [l]) k ⟨64, false⟩).parts)).sum ≤ 1024 →
    (bit (rd c.arg 2 1) 0 = true ∨ (s.feltOf l).anyUse = false) →
    (s.atInstant t).sharesOk (resizedFelt (s.atInstant t).pendingFelt c.arg [l]) (s.atInstant t).pendingSlow = true →
    s.felt.length = 16 →
    Completes (.feltResize t c) s (fun u => u.answered c stPending [] ∧ u.cfg.felt = s.cfg.felt.set l ⟨resizeParts c.arg l, resizeHalf c.arg l⟩ ∧
      (u.feltOf l).fsn = 0 ∧ (u.feltOf l).rows = [])

/-- FELT_RESIZE_TAKES_EFFECT (R201): The new share takes effect at the line's quire boundary, growing or shrinking the ring. -/
def FeltResizeTakesEffectCompletes : Prop :=
  ∀ (t l : Nat) (p : Pend) (s : State),
    s.pendOf 0x0501 l = some p →
    p.applyAt.getD p.accepted ≤ max s.now t →
    (s.atInstant t).running l = false →
    Completes (.feltResizeTakesEffect t l) s (fun u => u.cfg.felt = s.cfg.felt.set l ⟨resizeParts p.data l, resizeHalf p.data l⟩ ∧ u.pend = strike
      0x0501 l s.pend)

/-- FELT_READER_OPEN (R184): Opens a felt reader at OLDEST, the newest complete quire or a given FSN. -/
def FeltReaderOpenCompletes : Prop :=
  ∀ (t x : Nat) (c : Cmd) (s : State),
    (s.atInstant t).admits 0x0502 c = true →
    (s.atInstant t).badLine (rd c.arg 0 1) = false →
    rd c.arg 1 1 ≤ 15 →
    rd c.arg 2 1 ≤ 2 →
    nth ((s.atInstant t).feltOf (rd c.arg 0 1)).readers (rd c.arg 1 1) none = none →
    x = (if rd c.arg 2 1 = 0 then ((s.atInstant t).feltOf (rd c.arg 0 1)).oldest else if rd c.arg 2 1 = 1 then ((s.atInstant t).feltOf (rd c.arg 0
      1)).newestQuire else rd c.arg 4 8) →
    ((s.atInstant t).feltOf (rd c.arg 0 1)).oldest ≤ x →
    x ≤ ((s.atInstant t).feltOf (rd c.arg 0 1)).fsn →
    (s.atInstant t).shrinkBound (rd c.arg 0 1) ≤ x →
    Completes (.feltReaderOpen t c) s (fun u => u.answered c stOk ((s.atInstant t).readerBody (rd c.arg 0 1) x) ∧ u.felt = upd s.felt (rd c.arg 0 1)
      (fun f => { f with readers := f.readers.set (rd c.arg 1 1) (some x) }))

/-- FELT_READER_MOVE (R184): Moves an open felt reader to a given FSN. -/
def FeltReaderMoveCompletes : Prop :=
  ∀ (t x y : Nat) (c : Cmd) (s : State),
    (s.atInstant t).admits 0x0502 c = true →
    (s.atInstant t).badLine (rd c.arg 0 1) = false →
    rd c.arg 1 1 ≤ 15 →
    rd c.arg 2 1 = 3 →
    nth ((s.atInstant t).feltOf (rd c.arg 0 1)).readers (rd c.arg 1 1) none = some y →
    x = rd c.arg 4 8 →
    ((s.atInstant t).feltOf (rd c.arg 0 1)).oldest ≤ x →
    x ≤ ((s.atInstant t).feltOf (rd c.arg 0 1)).fsn →
    (s.atInstant t).shrinkBound (rd c.arg 0 1) ≤ x →
    Completes (.feltReaderMove t c) s (fun u => u.answered c stOk ((s.atInstant t).readerBody (rd c.arg 0 1) x) ∧ u.felt = upd s.felt (rd c.arg 0 1)
      (fun f => { f with readers := f.readers.set (rd c.arg 1 1) (some x) }))

/-- FELT_READER_CLOSE (R184): Closes a felt reader not attached to a stream. -/
def FeltReaderCloseCompletes : Prop :=
  ∀ (t y : Nat) (c : Cmd) (s : State),
    (s.atInstant t).admits 0x0502 c = true →
    (s.atInstant t).badLine (rd c.arg 0 1) = false →
    rd c.arg 1 1 ≤ 15 →
    rd c.arg 2 1 = 4 →
    nth ((s.atInstant t).feltOf (rd c.arg 0 1)).readers (rd c.arg 1 1) none = some y →
    (s.atInstant t).readerAttached (rd c.arg 0 1) (rd c.arg 1 1) = false →
    Completes (.feltReaderClose t c) s (fun u => u.answered c stOk ((s.atInstant t).readerBody (rd c.arg 0 1) y) ∧ u.felt = upd s.felt (rd c.arg 0 1)
      (fun f => { f with readers := f.readers.set (rd c.arg 1 1) none }))

/-- FELT_STATUS (R206): Returns a line's felt geometry and counters. -/
def FeltStatusCompletes : Prop :=
  ∀ (t : Nat) (c : Cmd) (s : State),
    (s.atInstant t).admits 0x0503 c = true →
    (s.atInstant t).badLine (rd c.arg 0 1) = false →
    Completes (.feltStatus t c) s (fun u => u.answered c stOk ((s.atInstant t).feltBody (rd c.arg 0 1)) ∧ u.felt = if bit (rd c.arg 1 1) 0 then upd
      s.felt (rd c.arg 0 1) (fun f => { f with clips := 0, holdsBroken := 0 }) else s.felt)

/-! #### Slow-time processing: configuration, start, stop, status -/

/-- SLOW_CONFIG (R207): Sets a line's slow-time chain and bands after a budget check. -/
def SlowConfigCompletes : Prop :=
  ∀ (t : Nat) (c : Cmd) (s : State),
    (s.atInstant t).admits 0x0504 c = true →
    (s.atInstant t).badLine (rd c.arg 0 1) = false →
    slowCfgOk c.arg = true →
    (s.atInstant t).pendOf 0x0504 (rd c.arg 0 1) = none →
    (s.atInstant t).bandsInUse (rd c.arg 0 1) (readSlowCfg c.arg ((s.atInstant t).slowCfg (rd c.arg 0 1)).started).bands.length = false →
    (s.atInstant t).sharesOk (s.atInstant t).pendingFelt ((s.atInstant t).pendingSlow.set (rd c.arg 0 1) (readSlowCfg c.arg ((s.atInstant t).slowCfg
      (rd c.arg 0 1)).started)) = true →
    (readSlowCfg c.arg ((s.atInstant t).slowCfg (rd c.arg 0 1)).started).cost4096 ≤ 24576 →
    Completes (.slowConfig t c) s (fun u => u.answered c stPending (readSlowCfg c.arg ((s.atInstant t).slowCfg (rd c.arg 0 1)).started).response ∧
      u.awaits (s.atInstant t) c 0x0504 [rd c.arg 0 1] none)

/-- SLOW_CONFIG_TAKES_EFFECT (R207): The chain configuration takes effect at a quire boundary and restarts the chains. -/
def SlowConfigTakesEffectCompletes : Prop :=
  ∀ (t l : Nat) (p : Pend) (s : State),
    s.pendOf 0x0504 l = some p →
    p.applyAt.getD p.accepted ≤ max s.now t →
    (s.atInstant t).running l = false →
    Completes (.slowConfigTakesEffect t l) s (fun u => u.cfg.slow = upd s.cfg.slow l (fun k => readSlowCfg p.data k.started) ∧ u.slow = upd s.slow l
      (fun r => { r with markNext := 2, old := r.old ++ [(ceilDiv (s.feltOf l).fsn 32, s.slowCfg l)] }) ∧ u.pend = strike 0x0504 l s.pend)

/-- SLOW_START (R204): Restarts slow-time processing at the next quire boundary. -/
def SlowStartCompletes : Prop :=
  ∀ (t : Nat) (c : Cmd) (s : State),
    (s.atInstant t).admits 0x0505 c = true →
    rd c.arg 0 2 ≠ 0 →
    (s.atInstant t).maskEnabled (rd c.arg 0 2) = true →
    rd c.arg 2 1 = 0 →
    (∀ l ∈ maskList 16 (rd c.arg 0 2), (s.atInstant t).slowBusy l = false ∧ ((s.atInstant t).slowCfg l).started = false ∧ (s.atInstant t).running l =
      true) →
    Completes (.slowStart t c) s (fun u => u.answered c stPending [] ∧ u.awaits (s.atInstant t) c 0x0505 (maskList 16 (rd c.arg 0 2)) none)

/-- SLOW_START (R204): Restarts slow-time processing at the next quire boundary. Here: a line that does not run. -/
def SlowStartStoppedCompletes : Prop :=
  ∀ (t l : Nat) (c : Cmd) (s : State),
    (s.atInstant t).admits 0x0505 c = true →
    rd c.arg 0 2 = 2 ^ l →
    (s.atInstant t).maskEnabled (rd c.arg 0 2) = true →
    rd c.arg 2 1 = 0 →
    l < 16 →
    (s.atInstant t).slowBusy l = false →
    ((s.atInstant t).slowCfg l).started = false →
    (s.atInstant t).running l = false →
    c.applyAt = 0#96 →
    Completes (.slowStart t c) s (fun u => u.answered c stPending [] ∧ u.cfg.slow = upd s.cfg.slow l (fun k => { k with started := true }))

/-- SLOW_STOP (R204): Stops slow-time processing, drain or immediate. -/
def SlowStopCompletes : Prop :=
  ∀ (t : Nat) (c : Cmd) (s : State),
    (s.atInstant t).admits 0x0506 c = true →
    rd c.arg 0 2 ≠ 0 →
    (s.atInstant t).maskEnabled (rd c.arg 0 2) = true →
    rd c.arg 2 1 ≤ 1 →
    (∀ l ∈ maskList 16 (rd c.arg 0 2), (s.atInstant t).slowBusy l = false ∧ ((s.atInstant t).slowCfg l).started = true) →
    Completes (.slowStop t c) s (fun u => u.answered c stPending [] ∧ u.awaits (s.atInstant t) c 0x0506 (maskList 16 (rd c.arg 0 2)) none)

/-- SLOW_STOPPED (R204): The slow-time drain or discard completes and EV_SLOW_STOPPED is raised. -/
def SlowStoppedCompletes : Prop :=
  ∀ (t l : Nat) (p : Pend) (s : State),
    (s.slowOf l).lineStop = none →
    s.pendOf 0x0506 l = some p →
    p.applyAt.getD p.accepted ≤ max s.now t →
    (rd p.data 2 1 = 1 ∨ (s.slowOf l).queue = []) →
    s.pwr.pend = none →
    s.sys.shutdown = none →
    (s.atInstant t).canReport = true →
    Completes (.slowStopped t l) s (fun u => u.cfg.slow = upd s.cfg.slow l (fun k => { k with started := false }) ∧ u.pend = strike 0x0506 l s.pend ∧
      u.heard 0x0504 (srcLine l))

/-- SLOW_STATUS (R206): Returns slow-time state and counters. -/
def SlowStatusCompletes : Prop :=
  ∀ (t : Nat) (c : Cmd) (s : State),
    (s.atInstant t).admits 0x0507 c = true →
    (s.atInstant t).badLine (rd c.arg 0 1) = false →
    Completes (.slowStatus t c) s (fun u => u.answered c stOk ((s.atInstant t).slowBody (rd c.arg 0 1)) ∧ u.slow = if bit (rd c.arg 1 1) 0 then upd
      s.slow (rd c.arg 0 1) (fun r => { r with quires := 0, overruns := 0, saturations := 0, stateErrors := 0 }) else s.slow)

/-! #### Tile pool: dispatch, completion, aborts, spares, kernels, host jobs -/

/-- JOB_DISPATCH (R210): The dispatcher starts a ready job on a free active tile. -/
def JobDispatchCompletes : Prop :=
  ∀ (t tile setup : Nat) (delays : List Nat) (j : Job) (s : State),
    (s.atInstant t).runTiles.tileFree tile = true →
    s.pwr.st < 2 →
    s.dbg.cpcHalted = false →
    (s.atInstant t).runTiles.nextJob tile = some j →
    j.kind.code < 2 →
    Completes (.jobDispatch t ⟨tile, setup, delays⟩) s (fun u => u.tiles.ready = (s.atInstant t).runTiles.tiles.ready.erase j ∧ u.tiles.tiles = upd
      (s.atInstant t).runTiles.tiles.tiles tile (fun x =>
      { x with regs := TileRegs.entry 0, x := ssetL 0 x.x 0x4000 [], y := ssetL 0 (ssetL 0 x.y 0x4000 []) 0xFFC0 ((s.atInstant t).runTiles.jobWords j.kind), job := some (j, (s.atInstant t).now), run := TileRun.reset }))

/-- JOB_DISPATCH (R210): The dispatcher starts a ready job on a free active tile. Here: a host job. -/
def JobDispatchHostCompletes : Prop :=
  ∀ (t tile setup : Nat) (delays : List Nat) (j : Job) (slot id n : Nat) (args : List Nat) (k : Kernel) (s : State),
    (s.atInstant t).runTiles.tileFree tile = true →
    s.pwr.st < 2 →
    s.dbg.cpcHalted = false →
    (s.atInstant t).runTiles.nextJob tile = some j →
    j.kind = .host slot id args n →
    nth s.cfg.kernels slot none = some k →
    Completes (.jobDispatch t ⟨tile, setup, delays⟩) s (fun u => u.tiles.ready = (s.atInstant t).runTiles.tiles.ready.erase j ∧ u.tiles.tiles = upd
      (s.atInstant t).runTiles.tiles.tiles tile (fun x =>
      { x with regs := TileRegs.entry (k.base + k.entry), x := ssetL 0 x.x 0x4000 k.xinit, y := ssetL 0 (ssetL 0 x.y 0x4000 k.yinit) 0xFFC0 ((s.atInstant t).runTiles.jobWords j.kind), job := some (j, (s.atInstant t).now), run := ⟨setup, [], false, delays, none⟩ }))

/-- JOB_DONE (R233): A job's DONE waits for its mover queue, posts a completion record and frees the tile. -/
def JobDoneCompletes : Prop :=
  ∀ (t tile start : Nat) (j : Job) (f : TileFacts) (s : State),
    ((s.atInstant t).runTiles.tileOf tile).job = some (j, start) →
    j.kind.code < 2 →
    start + f.cycles * cycleTicks ≤ max s.now t →
    Completes (.jobDone t tile f) s (fun u => u.tiles.tiles = upd (s.atInstant t).runTiles.tiles.tiles tile (fun x =>
      { x with job := none, last := some ⟨tile, j.kind.code, j.kind.tag, f.code, f.cycles, f.bmst % 2 ^ 25, 0⟩ }))

/-- JOB_DONE (R233): A job's DONE waits for its mover queue, posts a completion record and frees the tile. Here: a host job. -/
def JobDoneHostCompletes : Prop :=
  ∀ (t tile start slot id serial code : Nat) (args : List Nat) (j : Job) (f : TileFacts) (s : State),
    ((s.atInstant t).runTiles.tileOf tile).job = some (j, start) →
    j.kind = .host slot id args serial →
    ((s.atInstant t).runTiles.tileOf tile).run.ended = some (.done code) →
    start + ((s.atInstant t).runTiles.tileOf tile).run.cycles * cycleTicks ≤ max s.now t →
    (s.atInstant t).runTiles.canReport = true →
    Completes (.jobDone t tile f) s (fun u => u.tiles.tiles = upd (s.atInstant t).runTiles.tiles.tiles tile (fun x =>
      { x with job := none, last := some ⟨tile, 2, id, code, x.run.cycles, x.regs.bmst 0, 0⟩ }) ∧ u.tiles.hostJobs = satAdd (s.atInstant
      t).runTiles.tiles.hostJobs 1 ∧ u.heard 0x0603 (srcTile tile))

/-- TILE_ABORT (R234): A job is aborted on a tile memory error, cycle limit, mover fault, system store or withdrawal. -/
def TileAbortCompletes : Prop :=
  ∀ (t tile start line quire group : Nat) (j : Job) (f : TileFacts) (s : State),
    ((s.atInstant t).runTiles.tileOf tile).job = some (j, start) →
    j.kind = .slow line quire group →
    f.committed = false →
    (s.atInstant t).canReport = true →
    Completes (.tileAbort t tile 2 f) s (fun u => u.tiles.tiles = upd (s.atInstant t).runTiles.tiles.tiles tile (fun x =>
      { x with job := none, last := some ⟨tile, 0, j.kind.tag, 0, f.cycles, f.bmst % 2 ^ 25, 2⟩ }) ∧ u.tiles.ready = { j with notOn := some tile } ::
      (s.atInstant t).runTiles.tiles.ready ∧ u.tiles.aborts = satAdd (s.atInstant t).runTiles.tiles.aborts 1 ∧ u.tiles.redispatches = satAdd
      (s.atInstant t).runTiles.tiles.redispatches 1 ∧ u.heard 0x0601 (srcTile tile))

/-- TILE_ABORT (R234): A job is aborted on a tile memory error, cycle limit, mover fault, system store or withdrawal. Here: a slow-time job with
stores done. -/
def TileAbortCommittedCompletes : Prop :=
  ∀ (t tile start line quire group : Nat) (j : Job) (q : QuireJob) (f : TileFacts) (s : State),
    ((s.atInstant t).runTiles.tileOf tile).job = some (j, start) →
    j.kind = .slow line quire group →
    f.committed = true →
    ((s.atInstant t).runTiles.slowOf line).queue.find? (fun k => k.quire == quire) = some q →
    (s.atInstant t).runTiles.canReport = true →
    Completes (.tileAbort t tile 3 f) s (fun u => u.slow = upd (s.atInstant t).runTiles.slow line (fun r =>
      { r with queue := r.queue.filter (fun k => k.quire != quire), overruns := satAdd r.overruns 1, chainFor := max r.chainFor (max q.mark 1) }) ∧
      u.tiles.redispatches = (s.atInstant t).runTiles.tiles.redispatches ∧ u.heard 0x0601 (srcTile tile) ∧ u.heard 0x0503 (srcLine line))

/-- TILE_ABORT (R234): A job is aborted on a tile memory error, cycle limit, mover fault, system store or withdrawal. Here: a host job out of cycles.
-/
def TileAbortHostCompletes : Prop :=
  ∀ (t tile start slot id serial : Nat) (args : List Nat) (j : Job) (f : TileFacts) (s : State),
    ((s.atInstant t).runTiles.tileOf tile).job = some (j, start) →
    j.kind = .host slot id args serial →
    ((s.atInstant t).runTiles.tileOf tile).run.ended = some (.abort 2) →
    tile < s.tiles.tiles.length →
    (s.atInstant t).runTiles.canReport = true →
    Completes (.tileAbort t tile 2 f) s (fun u => (u.tileOf tile).job = none ∧ u.tiles.aborts = satAdd (s.atInstant t).runTiles.tiles.aborts 1 ∧
      u.tiles.hostJobs = satAdd (s.atInstant t).runTiles.tiles.hostJobs 1 ∧ u.heard 0x0601 (srcTile tile) ∧ u.heard 0x0603 (srcTile tile))

/-- TILE_SPARED (R238): A spare tile takes the logical number of a tile due for test. -/
def TileSparedCompletes : Prop :=
  ∀ (t tile n q : Nat) (f : TileFacts) (s : State),
    ((s.atInstant t).hUnit kindTile tile).wantsSpare = true →
    (((s.atInstant t).hUnit kindTile tile).gone && ((s.atInstant t).hUnit kindTile tile).noSpare) = false →
    s.tiles.map.findIdx? (· == some tile) = some n →
    (s.atInstant t).spareFor kindTile tile = some q →
    (s.tileOf tile).job = none →
    (s.atInstant t).canReport = true →
    Completes (.tileSpared t tile f) s (fun u => u.tiles.map = s.tiles.map.set n (some q) ∧ u.heard 0x0602 (srcTile tile))

/-- TILE_KERNEL_LOAD (R236): Loads a chunk of a user kernel image and verifies it at FINAL. Here: a chunk that is not the last. -/
def TileKernelLoadChunkCompletes : Prop :=
  ∀ (t : Nat) (l : KernelLoad) (c : Cmd) (s : State),
    (s.atInstant t).admits 0x0601 c = true →
    rd c.arg 0 1 ≤ 3 →
    rd c.arg 1 1 = 0 →
    rd c.arg 2 2 ≤ 4000 →
    nth s.tiles.loads (rd c.arg 0 1) none = some l →
    rd c.arg 4 4 + rd c.arg 2 2 ≤ l.length →
    Completes (.tileKernelLoad t c) s (fun u => u.answered c stOk [] ∧ u.tiles.loads = s.tiles.loads.set (rd c.arg 0 1) (some ⟨l.length, ssetL 0
      l.image (rd c.arg 4 4) ((c.arg.drop 12).take (rd c.arg 2 2))⟩))

/-- TILE_KERNEL_LOAD (R236): Loads a chunk of a user kernel image and verifies it at FINAL. Here: the first chunk. -/
def TileKernelLoadFirstCompletes : Prop :=
  ∀ (t : Nat) (c : Cmd) (s : State),
    (s.atInstant t).admits 0x0601 c = true →
    rd c.arg 0 1 ≤ 3 →
    rd c.arg 1 1 = 1 →
    rd c.arg 2 2 ≤ 4000 →
    rd c.arg 4 4 + rd c.arg 2 2 ≤ rd c.arg 8 4 →
    s.slotBusy (rd c.arg 0 1) = false →
    Completes (.tileKernelLoad t c) s (fun u => u.answered c stOk [] ∧ u.tiles.loads = s.tiles.loads.set (rd c.arg 0 1) (some ⟨rd c.arg 8 4, ssetL 0
      [] (rd c.arg 4 4) ((c.arg.drop 12).take (rd c.arg 2 2))⟩))

/-- TILE_KERNEL_UNLOAD (R240): Frees a user kernel slot. -/
def TileKernelUnloadCompletes : Prop :=
  ∀ (t : Nat) (c : Cmd) (s : State),
    (s.atInstant t).admits 0x0602 c = true →
    rd c.arg 0 1 ≤ 3 →
    nth s.cfg.kernels (rd c.arg 0 1) none ≠ none →
    s.slotBusy (rd c.arg 0 1) = false →
    Completes (.tileKernelUnload t c) s (fun u => u.answered c stOk [] ∧ u.cfg = { s.cfg with kernels := s.cfg.kernels.set (rd c.arg 0 1) none })

/-- TILE_RUN (R237): Queues a host job. -/
def TileRunCompletes : Prop :=
  ∀ (t : Nat) (c : Cmd) (s : State),
    (s.atInstant t).admits 0x0603 c = true →
    rd c.arg 0 1 ≤ 3 →
    nth s.cfg.kernels (rd c.arg 0 1) none ≠ none →
    s.hostQueued < 64 →
    s.mem.available = true →
    Completes (.tileRun t c) s (fun u => u.answered c stPending [] ∧ u.awaits (s.atInstant t) c 0x0603 [s.tiles.serial] none ∧ u.tiles.ready =
      s.tiles.ready ++ [⟨.host (rd c.arg 0 1) (rd c.arg 4 4) ((List.range 8).map (fun i => rd c.arg (8 + 4 * i) 4)) s.tiles.serial, (s.atInstant
      t).now, none⟩] ∧ u.tiles.serial = s.tiles.serial + 1)

/-- TILE_STATUS (R240): Returns the tile map, kernel slots and counters. -/
def TileStatusCompletes : Prop :=
  ∀ (t : Nat) (c : Cmd) (s : State),
    (s.atInstant t).admits 0x0604 c = true →
    Completes (.tileStatus t c) s (fun u => u.answered c stOk (s.atInstant t).tileBody ∧ u.tiles = if bit (rd c.arg 0 1) 0 then
      { s.tiles with aborts := 0, redispatches := 0, hostJobs := 0 } else s.tiles)

/-! #### Triggers: point hits, trigger inputs and outputs, captures formed and copied -/

/-- POINT_HITS_DECIDED (R247): A trigger job's hits of a quire are decided for the line's point conditions. -/
def PointHitsDecidedCompletes : Prop :=
  ∀ (t line : Nat) (v : SlowSheet) (rest : List SlowSheet) (s : State),
    (s.slowOf line).forTriggers = v :: rest →
    line < s.trig.lines.length →
    line < s.slow.length →
    Completes (.pointHitsDecided t line) s (fun u => (u.ltOf line).decided = v.fsn / 32 + 1 ∧ (u.slowOf line).forTriggers = (v :: rest).filter (fun x
      => x.fsn / 32 != v.fsn / 32))

/-- TRIG_IN_EDGE (R249): A qualified TRIG_IN edge meets its condition and is stamped by a time-interval unit. -/
def TrigInEdgeCompletes : Prop :=
  ∀ (t n held : Nat) (rising : Bool) (d : CondDef) (s : State),
    n ≤ 3 →
    s.condDef? (16 + n) = some d →
    (s.atInstant t).evaluates (16 + n) = true →
    10 ≤ held →
    (d.edge = 2 ∨ d.edge = b2n (!rising)) →
    (∀ x ∈ (s.condOf (16 + n)).lastEdge, x + 50 * ticksPerNs ≤ max s.now t) →
    16 + n < s.trig.conds.length →
    Completes (.trigInEdge t n rising held) s (fun u => u.trig.levels = s.trig.levels.set n rising ∧ (u.condOf (16 + n)).hits = satAdd (s.condOf (16 +
      n)).hits 1 ∧ (u.condOf (16 + n)).lastEdge = some (s.atInstant t).now ∧ (∀ o < s.trig.outDue.length, bit (nth s.cfg.trigOut o ⟨false, 500,
      0⟩).mask (16 + n) = true → nth u.trig.outDue o false = true))

/-- TRIG_IN_EDGE (R249): A qualified TRIG_IN edge meets its condition and is stamped by a time-interval unit. Here: a pulse that is no edge. -/
def TrigInEdgeGlitchCompletes : Prop :=
  ∀ (t n held x : Nat) (rising : Bool) (d : CondDef) (s : State),
    n ≤ 3 →
    s.condDef? (16 + n) = some d →
    (s.atInstant t).evaluates (16 + n) = true →
    10 ≤ held →
    (d.edge = 2 ∨ d.edge = b2n (!rising)) →
    (s.condOf (16 + n)).lastEdge = some x →
    max s.now t < x + 50 * ticksPerNs →
    Completes (.trigInEdge t n rising held) s (fun u => u.trig =
      { s.trig with levels := s.trig.levels.set n rising, conds := upd s.trig.conds (16 + n) (fun r => { r with glitches := satAdd r.glitches 1 }) })

/-- BCAST_RX (R303): A received BCAST frame is forwarded and, with a good CRC, meets condition 28 or 29. -/
def BcastRxCompletes : Prop :=
  ∀ (t k : Nat) (rx : TrailRx) (s : State),
    rx.port ≤ 2 →
    (s.atInstant t).trailUp rx.port = true →
    frameOk rx.bytes = true →
    frameType rx.bytes = 4 →
    rx.bytes.length = 19 →
    rd rx.bytes 3 1 = k →
    k ≤ 1 →
    (s.atInstant t).evaluates (28 + k) = true →
    28 + k < s.trig.conds.length →
    Completes (.bcastRx t rx) s (fun u => u.trail.bcastRx = satAdd s.trail.bcastRx 1 ∧ (u.condOf (28 + k)).hits = satAdd (s.condOf (28 + k)).hits 1)

/-- TRIG_OUT_ASSERT (R254): A hit of a masked condition asserts TRIG_OUT for WIDTH cells. -/
def TrigOutAssertCompletes : Prop :=
  ∀ (t o : Nat) (s : State),
    nth s.trig.outDue o false = true →
    Completes (.trigOutAssert t o) s (fun u => u.trig.outDue = s.trig.outDue.set o false ∧ u.trig.outUntil = s.trig.outUntil.set o (some ((s.atInstant
      t).now + (nth s.cfg.trigOut o ⟨false, 500, 0⟩).width * ticksPerCell)))

/-- TRIG_OUT_WIDTH_END (R254): TRIG_OUT deasserts when its width expires. -/
def TrigOutWidthEndCompletes : Prop :=
  ∀ (t o x : Nat) (s : State),
    nth s.trig.outUntil o none = some x →
    x ≤ max s.now t →
    Completes (.trigOutWidthEnd t o) s (fun u => u.trig = { s.trig with outUntil := s.trig.outUntil.set o none })

/-- CAPTURE_FORMED (R256): Hits of a trigger row are merged into regions and point captures are formed with holds. -/
def CaptureFormedCompletes : Prop :=
  ∀ (t l row i p : Nat) (h : Hit) (s : State),
    (s.ltOf l).hits = [h] →
    h.row = some row →
    row < (s.atInstant t).formable l →
    (s.atInstant t).missedBy l row h = false →
    h.cond < 32 →
    h.first = h.last →
    h.last + h.pad < (s.feltOf l).points →
    (s.lineOf l).st ≠ 0 →
    h.pre ≤ row →
    (s.feltOf l).oldest ≤ row - h.pre →
    (s.atInstant t).shrinkBound l ≤ row - h.pre →
    s.freeIndex = some i →
    firstFit s.pagesUsed s.heapPages (ceilDiv (128 + (h.pre + h.post + 1) * (32 + 4 * (h.last + h.pad - (h.first - h.pad) + 1))) 4096) = some p →
    128 + (h.pre + h.post + 1) * (32 + 4 * (h.last + h.pad - (h.first - h.pad) + 1)) ≤ 268435456 →
    l < s.trig.lines.length →
    l < s.felt.length →
    Completes (.captureFormed t l) s (fun u => (u.ltOf l).hits = [] ∧ u.trig.seq = (s.trig.seq + 1) % 2 ^ 32 ∧ (u.feltOf l).holds = (s.feltOf l).holds
      ++ [⟨i, row - h.pre, row + h.post, false⟩] ∧ ∃ r ∈ u.trig.recs, r.index = i ∧ r.ready = false ∧ r.line = l ∧ r.causes = 2 ^ h.cond ∧ r.trigger =
      h.stamp ∧ r.trow = row ∧ r.lo = row - h.pre ∧ r.hi = row + h.post ∧ r.firstIndex = h.first - h.pad ∧ r.count = h.last + h.pad - (h.first -
      h.pad) + 1 ∧ r.page = p ∧ r.seq = s.trig.seq)

/-- CAPTURE_ROW_COPY (R261): A row of a point capture is copied from the felt into the capture region. -/
def CaptureRowCopyCompletes : Prop :=
  ∀ (t i : Nat) (r : CapRec) (x : FeltRow) (s : State),
    s.recOf? i = some r →
    r.ready = false →
    r.raw = false →
    r.next < r.hi →
    r.next < (s.feltOf r.line).fsn →
    (s.feltOf r.line).rows.find? (fun x => x.fsn == r.next) = some x →
    (s.atInstant t).lostWords r.line r.next r.firstIndex r.count = [] →
    Completes (.captureRowCopy t i) s (fun u => u.trig.recs = s.trig.recs.map (fun k => if k.index = i then
      { k with next := k.next + 1, rows := k.rows + 1, lastStamp := BitVec.ofNat 96 (rd x.record 0 12), firstStamp := if k.rows = 0 then BitVec.ofNat 96 (rd x.record 0 12) else k.firstStamp, fsn := if k.rows = 0 then x.fsn else k.fsn }
      else k) ∧ u.mem = ((s.atInstant t).writeBy 3 (pageAddr r.page + 128 + r.rows * r.rowBytes) (x.window r.firstIndex r.count)).mem)

/-- RAW_TRIGGER (R263): A trigger of a raw set places the trigger sample in the armed segment or is counted late. -/
def RawTriggerCompletes : Prop :=
  ∀ (t n : Nat) (h : RawHit) (g : RawSeg) (s : State),
    (s.setOf n).triggers = [h] →
    (s.setOf n).seg = some g →
    g.trig = none →
    (s.setOf n).cfg.source ≤ 2 →
    h.sample = none →
    g.ring = [] →
    Completes (.rawTrigger t n h.cond) s (fun u => u.trig.sets = upd s.trig.sets n (fun r =>
      { r with triggers := [], rearm := some none, seg := some { g with trig := some ⟨ceilDiv h.inst ticksPerCell * ticksPerCell, false, 0, (s.setOf n).cfg.pre, (s.setOf n).cfg.length - (s.setOf n).cfg.pre - 1, false, 2 ^ h.cond, h.cond, h.stamp, h.node⟩ } }))

/-- RAW_TRIGGER (R263): A trigger of a raw set places the trigger sample in the armed segment or is counted late. Here: a trigger that comes too late.
-/
def RawTriggerLateCompletes : Prop :=
  ∀ (t n c : Nat) (h : RawHit) (g : RawSeg) (e : Nat × BitVec 96 × List Byte) (more : List (Nat × BitVec 96 × List Byte)) (s : State),
    (s.setOf n).triggers = [h] →
    h.cond = c →
    (s.setOf n).seg = some g →
    g.trig = none →
    (s.setOf n).cfg.source ≤ 2 →
    h.sample = none →
    g.ring = e :: more →
    ceilDiv h.inst ticksPerCell * ticksPerCell ≤ e.1 →
    (s.setOf n).cfg.length ≤ g.delta (ceilDiv h.inst ticksPerCell * ticksPerCell) →
    (s.atInstant t).canReport = true →
    Completes (.rawTrigger t n c) s (fun u => u.trig.sets = upd s.trig.sets n (fun r => { r with triggers := [], late := satAdd r.late 1 }) ∧
      u.trig.conds = upd s.trig.conds c (fun k => { k with late := satAdd k.late 1 }) ∧ u.heard 0x0706 srcDevice)

/-! #### Raw sets and trigger conditions: segments, arming, rebasing -/

/-- RAW_SEGMENT_CLOSE (R263): An armed segment closes after its post-trigger samples are written. -/
def RawSegmentCloseCompletes : Prop :=
  ∀ (t n : Nat) (g : RawSeg) (s : State),
    (s.setOf n).seg = some g →
    g.full = true →
    ((s.setOf n).cfg.total = 0 ∨ (s.setOf n).segsClosed + 1 < (s.setOf n).cfg.total) →
    (s.setOf n).stop = none →
    (s.setOf n).closed.length + 1 < (s.setOf n).cfg.segments →
    n < s.trig.sets.length →
    Completes (.rawSegmentClose t n) s (fun u => (u.setOf n).seg = none ∧ (u.setOf n).closed = (s.setOf n).closed ++ [g] ∧ (u.setOf n).segsClosed =
      (s.setOf n).segsClosed + 1 ∧ (u.setOf n).made = satAdd (s.setOf n).made 1 ∧ (u.setOf n).rearm = some ((s.setOf n).rearm.getD none) ∧ (u.setOf
      n).st = (s.setOf n).st)

/-- RAW_SEGMENT_CLOSE (R263): An armed segment closes after its post-trigger samples are written. Here: no segment is free. -/
def RawSegmentCloseStallCompletes : Prop :=
  ∀ (t n : Nat) (g : RawSeg) (s : State),
    (s.setOf n).seg = some g →
    g.full = true →
    ((s.setOf n).cfg.total = 0 ∨ (s.setOf n).segsClosed + 1 < (s.setOf n).cfg.total) →
    (s.setOf n).stop = none →
    (s.setOf n).cfg.segments ≤ (s.setOf n).closed.length + 1 →
    n < s.trig.sets.length →
    (s.atInstant t).canReport = true →
    Completes (.rawSegmentClose t n) s (fun u => (u.setOf n).seg = none ∧ (u.setOf n).closed = (s.setOf n).closed ++ [g] ∧ (u.setOf n).st = 2 ∧
      u.heard 0x0708 srcDevice)

/-- RAW_REARM (R264): The next segment of a raw set is armed once a free segment exists. -/
def RawRearmCompletes : Prop :=
  ∀ (t n : Nat) (m : Option Missed) (s : State),
    (s.setOf n).seg = none →
    (s.setOf n).rearm = some m →
    (s.setOf n).st ≠ 0 →
    (s.setOf n).closed.length < (s.setOf n).cfg.segments →
    (s.setOf n).stop = none →
    Completes (.rawRearm t n) s (fun u => u.trig.sets = upd s.trig.sets n (fun r =>
      { r with seg := some ⟨(s.setOf n).cfg, (s.atInstant t).now, 0, [], [], none, m⟩, rearm := none, st := 1 }))

/-- RAW_COPY_OUT (R265): A closed segment is copied into a pool record and its store segment freed. -/
def RawCopyOutCompletes : Prop :=
  ∀ (t n i p : Nat) (g : RawSeg) (rest : List RawSeg) (s : State),
    (s.setOf n).closed = g :: rest →
    s.freeIndex = some i →
    firstFit s.pagesUsed s.heapPages (ceilDiv (128 + g.chosen.length * g.cfg.sampleBytes) 4096) = some p →
    n < s.trig.sets.length →
    (s.atInstant t).canReport = true →
    Completes (.rawCopyOut t n) s (fun u => (u.setOf n).closed = rest ∧ u.trig.seq = (s.trig.seq + 1) % 2 ^ 32 ∧ (∃ r ∈ u.trig.recs, r.index = i ∧
      r.ready = true ∧ r.raw = true ∧ r.set = n ∧ r.page = p ∧ r.seq = s.trig.seq ∧ r.rows = g.chosen.length) ∧ u.heard 0x0701 (if g.cfg.quad < 16
      then srcLine g.cfg.quad else srcQuad 16))

/-- TRIG_DEFINE (R271): Defines or replaces a trigger condition. -/
def TrigDefineCompletes : Prop :=
  ∀ (t : Nat) (c : Cmd) (s : State),
    (s.atInstant t).admits 0x0701 c = true →
    (s.atInstant t).condOk (rd c.arg 0 1) (readCond c.arg) (rd c.arg 21 1) = true →
    s.isArmed (rd c.arg 0 1) = false →
    Completes (.trigDefine t c) s (fun u => u.answered c stOk [] ∧ u.cfg =
      { s.cfg with conds := s.cfg.conds.set (rd c.arg 0 1) (some (readCond c.arg)) })

/-- TRIG_ARM (R272): Schedules arming of named conditions. -/
def TrigArmCompletes : Prop :=
  ∀ (t : Nat) (c : Cmd) (s : State),
    (s.atInstant t).admits 0x0702 c = true →
    rd c.arg 4 1 = 0 →
    rd c.payload 4 1 = 0 →
    rd c.arg 0 4 ≠ 0 →
    (∀ k ∈ maskList 32 (rd c.arg 0 4), (s.atInstant t).pendOf 0x0702 k = none ∧ ∃ d ∈ s.condDef? k, k < 16 → d.kind < 2 → d.band < ((s.atInstant
      t).slowCfg d.line).bands.length) →
    Completes (.trigArm t c) s (fun u => u.answered c stPending [] ∧ u.awaits (s.atInstant t) c 0x0702 (maskList 32 (rd c.arg 0 4)) none)

/-- TRIG_DISARM (R272): Schedules disarming of named conditions, drain or immediate. -/
def TrigDisarmCompletes : Prop :=
  ∀ (t : Nat) (c : Cmd) (s : State),
    (s.atInstant t).admits 0x0702 c = true →
    (rd c.arg 4 1 = 1 ∨ rd c.arg 4 1 = 2) →
    rd c.payload 4 1 = rd c.arg 4 1 →
    rd c.arg 0 4 ≠ 0 →
    (∀ k ∈ maskList 32 (rd c.arg 0 4), (s.atInstant t).pendOf 0x0702 k = none ∧ s.condDef? k ≠ none) →
    Completes (.trigDisarm t c) s (fun u => u.answered c stPending [] ∧ u.awaits (s.atInstant t) c 0x0702 (maskList 32 (rd c.arg 0 4)) none)

/-- TRIG_ARM_TAKES_EFFECT (R272): Arming or disarming takes effect at the line's quire boundary or at apply-at. -/
def TrigArmTakesEffectCompletes : Prop :=
  ∀ (t c : Nat) (d : CondDef) (p : Pend) (s : State),
    s.pendOf 0x0702 c = some p →
    s.condDef? c = some d →
    16 ≤ c →
    p.applyAt.getD p.accepted ≤ max s.now t →
    rd p.data 4 1 = 0 →
    Completes (.trigArmTakesEffect t c) s (fun u => u.cfg = { s.cfg with armed := setField s.cfg.armed c 1 1 } ∧ u.trig.conds = upd s.trig.conds c
      (fun r => { r with spans := [], prevWord := none, riseReady := true, fallReady := true }) ∧ u.pend = strike 0x0702 c s.pend)

/-- TRIG_ARM_TAKES_EFFECT (R272): Arming or disarming takes effect at the line's quire boundary or at apply-at. Here: a disarming. -/
def TrigArmTakesEffectDisarmCompletes : Prop :=
  ∀ (t c : Nat) (d : CondDef) (p : Pend) (s : State),
    s.pendOf 0x0702 c = some p →
    s.condDef? c = some d →
    p.applyAt.getD p.accepted ≤ max s.now t →
    rd p.data 4 1 = 1 →
    s.running d.line = false →
    Completes (.trigArmTakesEffect t c) s (fun u => u.cfg = { s.cfg with armed := setField s.cfg.armed c 1 0 } ∧ u.trig.conds = upd s.trig.conds c
      (fun r =>
      { r with spans := r.spans.map (fun e => if e.until_.isNone then { e with until_ := some (ceilDiv (s.feltOf d.line).fsn 32) } else e) }) ∧ u.pend
      = strike 0x0702 c s.pend)

/-- TRIG_REBASE (R246): Schedules clearing of BASE of integrated-phase conditions. -/
def TrigRebaseCompletes : Prop :=
  ∀ (t : Nat) (c : Cmd) (s : State),
    (s.atInstant t).admits 0x0703 c = true →
    rd c.arg 0 4 ≠ 0 →
    (∀ k ∈ maskList 32 (rd c.arg 0 4), k ≤ 15 ∧ (s.atInstant t).pendOf 0x0703 k = none ∧ (s.condDef? k).map CondDef.kind = some 3) →
    Completes (.trigRebase t c) s (fun u => u.answered c stPending [] ∧ u.awaits (s.atInstant t) c 0x0703 (maskList 32 (rd c.arg 0 4)) none)

/-- TRIG_REBASE_TAKES_EFFECT (R246): BASE is cleared at the next quire boundary of the condition's line. -/
def TrigRebaseTakesEffectCompletes : Prop :=
  ∀ (t c : Nat) (d : CondDef) (p : Pend) (s : State),
    s.pendOf 0x0703 c = some p →
    s.condDef? c = some d →
    p.accepted ≤ max s.now t →
    s.running d.line = false →
    Completes (.trigRebaseTakesEffect t c) s (fun u => u.trig.conds = upd s.trig.conds c (fun r =>
      { r with spans := r.spans.map (fun e => if e.until_.isNone then { e with pts := e.pts.filterMap (fun x => if x.2.run = 0 then none else some (x.1, { x.2 with base := none })) } else e) })
      ∧ u.pend = strike 0x0703 c s.pend)

/-! #### Trigger outputs, capture commands, raw arming and release -/

/-- TRIG_OUT (R254): Sets a TRIG_OUT output's polarity, width and mask. -/
def TrigOutCompletes : Prop :=
  ∀ (t : Nat) (c : Cmd) (s : State),
    (s.atInstant t).admits 0x0704 c = true →
    rd c.arg 0 1 ≤ 1 →
    rd c.arg 1 1 ≤ 1 →
    4 ≤ rd c.arg 2 2 →
    Completes (.trigOut t c) s (fun u => u.answered c stOk [] ∧ u.cfg =
      { s.cfg with trigOut := s.cfg.trigOut.set (rd c.arg 0 1) ⟨rd c.arg 1 1 == 1, rd c.arg 2 2, rd c.arg 4 4⟩ })

/-- TRIG_STATUS (R244): Returns a condition's counters. -/
def TrigStatusCompletes : Prop :=
  ∀ (t : Nat) (c : Cmd) (s : State),
    (s.atInstant t).admits 0x0705 c = true →
    rd c.arg 0 1 ≤ 31 →
    Completes (.trigStatus t c) s (fun u => u.answered c stOk ((s.atInstant t).trigBody (rd c.arg 0 1)) ∧ u.trig.conds = if bit (rd c.arg 1 1) 0 then
      upd s.trig.conds (rd c.arg 0 1) (fun r => { r with hits := 0, captures := 0, missed := 0, glitches := 0, noFraction := 0, late := 0 }) else
      s.trig.conds)

/-- CAP_CONFIG (R273): Sets the capture region size for the next restore. -/
def CapConfigCompletes : Prop :=
  ∀ (t : Nat) (c : Cmd) (s : State),
    (s.atInstant t).admits 0x0706 c = true →
    (256 ≤ rd c.arg 0 4 ∧ rd c.arg 0 4 ≤ 16384) →
    rd c.arg 0 4 % 64 = 0 →
    (s.atInstant t).sharesOf (s.atInstant t).pendingFelt (s.atInstant t).pendingSlow ((s.atInstant t).usableUnder s.cfg.mem.mask) (rd c.arg 0 4) =
      true →
    Completes (.capConfig t c) s (fun u => u.answered c stOk [] ∧ u.cfg = { s.cfg with capMib := rd c.arg 0 4 })

/-- CAP_RAW_ARM (R274): Defines and arms a raw set. -/
def CapRawArmCompletes : Prop :=
  ∀ (t : Nat) (c : Cmd) (s : State),
    (s.atInstant t).admits 0x0707 c = true →
    rd c.arg 0 1 ≤ 3 →
    (s.atInstant t).rawOk (readRaw c.arg) = true →
    (s.setOf (rd c.arg 0 1)).st = 0 →
    ((readRaw c.arg).source < 2 ∨ (s.plan? (readRaw c.arg).quad).isSome = true) →
    (readRaw c.arg).segments * (readRaw c.arg).segmentBytes + (((List.range 4).filter (fun k => k != rd c.arg 0 1 && (s.setOf k).st != 0)).map (fun k
      => (s.setOf k).cfg.segments * (s.setOf k).cfg.segmentBytes)).sum ≤ 33554432 →
    (readRaw c.arg).segments + (((List.range 4).filter (fun k => k != rd c.arg 0 1 && (s.setOf k).st != 0)).map (fun k => (s.setOf
      k).cfg.segments)).sum ≤ 4096 →
    (s.atInstant t).rawRate (readRaw c.arg) + (((List.range 4).filter (fun k => k != rd c.arg 0 1 && (s.setOf k).st != 0)).map (fun k => (s.atInstant
      t).rawRate (s.setOf k).cfg)).sum ≤ 16000000000 →
    s.noDram = false →
    Completes (.capRawArm t c) s (fun u => u.answered c stOk [] ∧ u.trig.sets = upd s.trig.sets (rd c.arg 0 1) (fun r =>
      { RawSet.reset with st := 1, cfg := readRaw c.arg, seg := some (RawSeg.fresh (readRaw c.arg) (s.atInstant t).now none), closed := r.closed, made := r.made, missed := r.missed, late := r.late }))

/-- CAP_RAW_STOP (R275): Stops raw sets, drain or immediate. -/
def CapRawStopCompletes : Prop :=
  ∀ (t n : Nat) (c : Cmd) (s : State),
    (s.atInstant t).admits 0x0708 c = true →
    n < 4 →
    rd c.arg 0 1 = 2 ^ n →
    rd c.arg 1 1 = 0 →
    (s.atInstant t).pendOf 0x0708 n = none →
    (s.setOf n).st ≠ 0 →
    Completes (.capRawStop t c) s (fun u => u.answered c stPending [] ∧ u.awaits (s.atInstant t) c 0x0708 [n] none ∧ u.trig.sets = upd s.trig.sets n
      (fun r =>
      { r with stop := some 1, discarded := r.discarded + b2n (r.seg.any (fun g => g.trig.isNone)), rearm := none, triggers := [], seg := r.seg.filter (fun g => g.trig.isSome) }))

/-- CAP_RAW_DONE (R275): A raw set ends by TOTAL or stop and EV_CAP_RAW_DONE reports its segments. -/
def CapRawDoneCompletes : Prop :=
  ∀ (t n : Nat) (p : Pend) (s : State),
    (s.setOf n).stop = some 1 →
    ((s.setOf n).seg = none ∧ (s.setOf n).closed = []) →
    s.pendOf 0x0708 n = some p →
    s.pwr.pend = none →
    s.sys.shutdown = none →
    (s.atInstant t).canReport = true →
    Completes (.capRawDone t n) s (fun u => u.trig.sets = upd s.trig.sets n (fun r =>
      { r with st := 0, seg := none, stop := none, rearm := none, triggers := [], roleWords := [] }) ∧ u.pend = strike 0x0708 n s.pend ∧ u.reported
      0x0709 srcDevice (u8 n ++ u8 1 ++ u32 (s.setOf n).segsClosed ++ u32 (s.setOf n).discarded))

/-- CAP_FORCE (R243): Meets software condition 31 at the next released lane word. -/
def CapForceCompletes : Prop :=
  ∀ (t : Nat) (c : Cmd) (s : State),
    (s.atInstant t).admits 0x0709 c = true →
    (s.atInstant t).maskEnabled (rd c.arg 0 2) = true →
    s.evaluates 31 = true →
    s.noDram = false →
    31 < s.trig.conds.length →
    Completes (.capForce t c) s (fun u => u.answered c stOk [] ∧ (u.condOf 31).hits = satAdd (s.condOf 31).hits 1 ∧ rd (u.mbOf c.mb).stored 4 12 =
      ((s.atInstant t).secStamp (ceilDiv (s.atInstant t).now ticksPerCell * ticksPerCell - 768 * ticksPerCell) none false).toNat)

/-- CAP_LIST (R266): Lists ready capture records in SEQ order. -/
def CapListCompletes : Prop :=
  ∀ (t : Nat) (c : Cmd) (s : State),
    (s.atInstant t).admits 0x070A c = true →
    (1 ≤ rd c.arg 4 2 ∧ rd c.arg 4 2 ≤ 100) →
    Completes (.capList t c) s (fun u => u.answered c stOk (let l := ((s.trig.recs.filter (fun r => r.ready && decide (seqAfter (rd c.arg 0 4) r.seq <
      2 ^ 31))).mergeSort (fun a b => decide (seqAfter (rd c.arg 0 4) a.seq ≤ seqAfter (rd c.arg 0 4) b.seq))).take (rd c.arg 4 2); u16 l.length ++
      zeros 2 ++ l.flatMap (fun r => u16 r.index ++ zeros 2 ++ r.entry)) ∧ u.trig = s.trig)

/-- CAP_RELEASE (R276): Frees named records and clears named storm records. -/
def CapReleaseCompletes : Prop :=
  ∀ (t i : Nat) (r : CapRec) (c : Cmd) (s : State),
    (s.atInstant t).admits 0x070B c = true →
    rd c.arg 2 2 = 1 →
    rd c.arg 4 2 = i →
    i ≤ 4095 →
    rd c.arg 0 2 = 0 →
    s.recOf? i = some r →
    r.ready = true →
    s.delivering i = false →
    Completes (.capRelease t c) s (fun u => u.answered c stOk [] ∧ u.trig.recs = s.trig.recs.filter (fun r => r.index != i))

/-- CAP_STATUS (R269): Returns pool, store and raw-set state. -/
def CapStatusCompletes : Prop :=
  ∀ (t : Nat) (c : Cmd) (s : State),
    (s.atInstant t).admits 0x070C c = true →
    Completes (.capStatus t c) s (fun u => u.answered c stOk (s.atInstant t).capBody ∧ u.trig = if bit (rd c.arg 0 1) 0 then
      { s.trig with sets := s.trig.sets.map (fun r => { r with made := 0, missed := 0, late := 0 }) } else s.trig)

/-! #### Reference clock, PPS, PTP and the servo -/

/-- REFCLK_LOST (R280): Loss of REFCLK_10M holds the synthesiser, flags HOLDOVER and NOT_WARM and raises EV_TB_REFCLK_LOST. -/
def RefclkLostCompletes : Prop :=
  ∀ (t : Nat) (s : State),
    s.tb.refclk = true →
    Completes (.refclkLost t) s (fun u => u.tb.refclk = false ∧ u.tb.synthLocked = false ∧ u.tb.warm = false ∧ u.tb.refLostAt = max s.now t ∧
      u.tb.holdover.isSome = true)

/-- REFCLK_RESTORED (R280): Return of REFCLK_10M relocks the synthesiser and restarts the thermos warm-up. -/
def RefclkRestoredCompletes : Prop :=
  ∀ (t : Nat) (s : State),
    s.tb.refclk = false →
    Completes (.refclkRestored t) s (fun u => u.tb.refclk = true ∧ u.tb.synthLocked = true ∧ u.tb.presentSince = max s.now t)

/-- PPS_OUT_PULSE (R290): A PPS_OUT pulse begins at each second boundary. -/
def PpsOutPulseCompletes : Prop :=
  ∀ (t : Nat) (s : State),
    s.cfg.tb.ppsOut = true →
    s.pwr.st ≤ 2 →
    (s.atInstant t).isBoundary (s.atInstant t).now = true →
    Completes (.ppsOutPulse t) s (fun u => u.tb.ppsOutHigh = true ∧ u.tb.ppsOutSince = max s.now t)

/-- PPS_OUT_WIDTH_END (R290): PPS_OUT_WIDTH after the leading edge, the PPS_OUT pulse ends. -/
def PpsOutWidthEndCompletes : Prop :=
  ∀ (t : Nat) (s : State),
    s.tb.ppsOutHigh = true →
    s.tb.ppsOutSince + s.cfg.tb.ppsOutWidth * ticksPerMs ≤ max s.now t →
    Completes (.ppsOutWidthEnd t) s (fun u => u.tb.ppsOutHigh = false)

/-- PPS_IN_EDGE (R284): A qualified PPS_IN edge is stamped and judged against its expected boundary for the servo. -/
def PpsInEdgeCompletes : Prop :=
  ∀ (t last : Nat) (rising : Bool) (s : State),
    (s.cfg.tb.source = 1 ∨ s.cfg.tb.source = 2) →
    rising = (s.cfg.tb.ppsEdge == 0) →
    s.tb.ppsLocked = true →
    s.tb.ppsLast = some last →
    ((s.atInstant t).takeStamp (s.atInstant t).now).2.2.1 = true →
    ((((s.atInstant t).takeStamp (s.atInstant t).now).1 : Int) - s.cfg.tb.ppsDelay - last - (max 1 (rneDiv ((((s.atInstant t).takeStamp (s.atInstant
      t).now).1 : Int) - s.cfg.tb.ppsDelay - last) ticksPerSecond)) * (s.atInstant t).trueSecond).natAbs ≤ usTicks →
    Completes (.ppsInEdge t rising) s (fun u => u.tb.ppsLast = some ((((s.atInstant t).takeStamp (s.atInstant t).now).1 : Int) -
      s.cfg.tb.ppsDelay).toNat ∧ u.tb.measured = some ((s.atInstant t).nearestBoundary (((s.atInstant t).takeStamp (s.atInstant t).now).1 -
      s.cfg.tb.ppsDelay), (s.atInstant t).offsetOf (((s.atInstant t).takeStamp (s.atInstant t).now).1 - s.cfg.tb.ppsDelay)) ∧ u.tb.ppsOutRun = 0)

/-- PPS_IN_EDGE (R284): A qualified PPS_IN edge is stamped and judged against its expected boundary for the servo. Here: an edge out of the window. -/
def PpsInEdgeOutCompletes : Prop :=
  ∀ (t last : Nat) (rising : Bool) (s : State),
    (s.cfg.tb.source = 1 ∨ s.cfg.tb.source = 2) →
    rising = (s.cfg.tb.ppsEdge == 0) →
    s.tb.ppsLocked = true →
    s.tb.ppsLast = some last →
    usTicks < ((((s.atInstant t).takeStamp (s.atInstant t).now).1 : Int) - s.cfg.tb.ppsDelay - last - (max 1 (rneDiv ((((s.atInstant t).takeStamp
      (s.atInstant t).now).1 : Int) - s.cfg.tb.ppsDelay - last) ticksPerSecond)) * (s.atInstant t).trueSecond).natAbs →
    Completes (.ppsInEdge t rising) s (fun u => u.tb = { s.tb with ppsOutOfWindow := satAdd s.tb.ppsOutOfWindow 1, ppsOutRun := s.tb.ppsOutRun + 1 })

/-- PPS_LOST (R284): Three missing or out-of-window edges lose the PPS source and start holdover. -/
def PpsLostCompletes : Prop :=
  ∀ (t last : Nat) (s : State),
    s.tb.ppsLocked = true →
    s.tb.ppsLast = some last →
    (s.cfg.tb.source = 1 ∨ s.cfg.tb.source = 2) →
    (last : Int) + 3 * (s.atInstant t).trueSecond + usTicks ≤ (max s.now t : Nat) →
    Completes (.ppsLost t) s (fun u => u.tb.ppsLocked = false ∧ u.tb.holdover.isSome = true)

/-- PTP_SYNC_TIMEOUT (R284): No valid PTP Sync for 3 s loses the PTP source. -/
def PtpSyncTimeoutCompletes : Prop :=
  ∀ (t last : Nat) (s : State),
    s.tb.ptpValid = true →
    s.tb.ptpLast = some last →
    (s.cfg.tb.source = 1 ∨ s.cfg.tb.source = 3) →
    last + 3 * ticksPerSecond ≤ max s.now t →
    Completes (.ptpSyncTimeout t) s (fun u => u.tb.ptpValid = false ∧ u.tb.holdover.isSome = true)

/-- PTP_MESSAGE_RX (R289): A received IEEE 1588 message is timestamped and used or counted and ignored. -/
def PtpMessageRxCompletes : Prop :=
  ∀ (t seq second nanos : Nat) (corr d : Int) (s : State) (m : PtpMsg),
    m.port = s.cfg.tb.ptpPort →
    m.domain = s.cfg.tb.ptpDomain →
    m.transport = s.cfg.tb.ptpTransport →
    m.kind = .sync seq false second nanos corr →
    (s.atInstant t).ptpChoose.tb.ptp.best = some m.sender →
    (s.atInstant t).ptpChoose.tb.ptp.delay = some d →
    s.cfg.tb.source = 3 →
    Completes (.ptpMessageRx t m) s (fun u => u.tb.ptpValid = true ∧ u.tb.ptpLast = some (max s.now t) ∧ u.tb.ptpSync = satAdd s.tb.ptpSync 1 ∧
      u.tb.measured = some ((s.atInstant t).nearestBoundary ((max s.now t : Nat) - nsTicks nanos - corrTicks corr - d), (s.atInstant t).offsetOf ((max
      s.now t : Nat) - nsTicks nanos - corrTicks corr - d)) ∧ u.out = [.ptpDelayReq s.cfg.tb.ptpPort ((s.tb.ptp.reqSeq + 1) % 65536) (max s.now t)])

/-- PTP_MESSAGE_RX (R289): A received IEEE 1588 message is timestamped and used or counted and ignored. Here: a two-step Sync. -/
def PtpSyncTwoStepCompletes : Prop :=
  ∀ (t seq second nanos : Nat) (corr : Int) (s : State) (m : PtpMsg),
    m.port = s.cfg.tb.ptpPort →
    m.domain = s.cfg.tb.ptpDomain →
    m.transport = s.cfg.tb.ptpTransport →
    m.kind = .sync seq true second nanos corr →
    (s.atInstant t).ptpChoose.tb.ptp.best = some m.sender →
    Completes (.ptpMessageRx t m) s (fun u => u.tb.ptp.wait = some (seq, max s.now t, corrTicks corr) ∧ u.tb.ptpSync = satAdd s.tb.ptpSync 1 ∧
      u.tb.measured = s.tb.measured ∧ u.out = [])

/-- PTP_MESSAGE_RX (R289): A received IEEE 1588 message is timestamped and used or counted and ignored. Here: a Delay_Resp. -/
def PtpDelayRespCompletes : Prop :=
  ∀ (t seq second nanos sent sec : Nat) (corr m0 : Int) (s : State) (m : PtpMsg),
    m.port = s.cfg.tb.ptpPort →
    m.domain = s.cfg.tb.ptpDomain →
    m.transport = s.cfg.tb.ptpTransport →
    m.kind = .delayResp seq true second nanos corr →
    (s.atInstant t).ptpChoose.tb.ptp.best = some m.sender →
    (s.atInstant t).ptpChoose.tb.ptp.req = some (seq, sent, sec, m0) →
    Completes (.ptpMessageRx t m) s (fun u => u.tb.ptp.delay = some (rneDiv (m0 - ((sent : Int) - (nsTicks nanos - corrTicks corr) - ((second : Int) -
      sec) * ticksPerSecond)) 2) ∧ u.tb.ptp.req = none)

/-- PTP_MESSAGE_RX (R289): A received IEEE 1588 message is timestamped and used or counted and ignored. Here: another message. -/
def PtpMessageOtherCompletes : Prop :=
  ∀ (t : Nat) (s : State) (m : PtpMsg),
    m.port ≠ s.cfg.tb.ptpPort →
    Completes (.ptpMessageRx t m) s (fun u => u.tb = { (s.atInstant t).ptpChoose.tb with ptpIgnored := satAdd s.tb.ptpIgnored 1 })

/-- SERVO_RUN (R285): Once per second the servo steers out the measured offset or schedules a step. -/
def ServoRunCompletes : Prop :=
  ∀ (t x : Nat) (d : Int) (s : State),
    s.cfg.tb.source ≠ 0 →
    s.tb.measured = some (x, d) →
    (ticksToPs d).natAbs ≤ s.cfg.tb.stepNs * 1000 →
    s.tb.timeSet = true →
    s.tb.measureNew = true →
    s.tb.holdover = none →
    s.tb.refclk = true →
    s.tb.synthLocked = true →
    Completes (.servoRun t) s (fun u => u.tb.steer = (s.atInstant t).steerNow ∧ u.tb.steerSince = max s.now t ∧ u.tb.steerGoal = clampI (-10000000)
      10000000 (s.tb.steerGoal - s.tb.steerCorr - ticksToPs d) ∧ u.tb.measureNew = false ∧ u.tb.secTick = s.tb.secTick ∧ u.tb.secVal = s.tb.secVal)

/-! #### Steps, holdover, thermos, time-base configuration and the setting of time -/

/-- SERVO_RUN (R285): Once per second the servo steers out the measured offset or schedules a step. Here: a step is scheduled. -/
def ServoStepCompletes : Prop :=
  ∀ (t x : Nat) (d : Int) (s : State),
    s.cfg.tb.source ≠ 0 →
    s.tb.measured = some (x, d) →
    s.tb.measureNew = true →
    s.tb.refclk = true →
    s.tb.synthLocked = true →
    s.tb.holdover = none →
    s.cfg.tb.stepNs * 1000 < (ticksToPs d).natAbs →
    twoMeasured s.tb = true →
    s.tb.pendStep = none →
    s.tb.disagree < 3 →
    Completes (.servoRun t) s (fun u => u.tb.pendStep = some ((s.atInstant t).phaseStep (wholeCells d)) ∧ u.tb.steerGoal = s.tb.steerGoal ∧
      u.tb.secTick = s.tb.secTick)

/-- SERVO_RUN (R285): Once per second the servo steers out the measured offset or schedules a step. Here: REFCLK_10M is lost. -/
def ServoHeldCompletes : Prop :=
  ∀ (t : Nat) (s : State),
    s.cfg.tb.source ≠ 0 →
    s.tb.refclk = false →
    s.tb.disagree < 3 →
    Completes (.servoRun t) s (fun u => u.tb.steerGoal = s.tb.steerGoal ∧ u.tb.steer = s.tb.steer ∧ u.tb.pendStep = s.tb.pendStep)

/-- TB_STEP (R27): At a second boundary the cell count or SECOND steps, the grid is relaid and EV_TB_STEP raised. -/
def TbStepCompletes : Prop :=
  ∀ (t : Nat) (p : PendStep) (s : State),
    s.tb.pendStep = some p →
    p.at_ ≤ max s.now t →
    p.newSecTick ≠ p.at_ →
    Completes (.tbStep t) s (fun u => u.tb.secTick = p.newSecTick ∧ u.tb.secVal = p.newSecond ∧ u.tb.scaleFrom = p.at_ ∧ u.tb.steps = satAdd
      s.tb.steps 1 ∧ u.tb.pendStep = none)

/-- TIME_SET (R568): At the boundary where phase and second number are fixed TIME_SET becomes 1 and the initial HOLDOVER ends. -/
def TimeSetCompletes : Prop :=
  ∀ (t : Nat) (s : State),
    (s.atInstant t).isBoundary (s.atInstant t).now = true →
    (s.tb.phaseFixed = true ∨ s.cfg.tb.source = 0) →
    s.tb.secondFixed = true →
    Completes (.timeSet t) s (fun u => u.tb.timeSet = true)

/-- HOLDOVER_END (R288): At a boundary where source, clock and offset are good the time base leaves holdover. -/
def HoldoverEndCompletes : Prop :=
  ∀ (t cause since : Nat) (s : State),
    s.tb.holdover = some (cause, since) →
    (s.atInstant t).isBoundary (s.atInstant t).now = true →
    s.tb.refclk = true →
    s.tb.synthLocked = true →
    s.sourceLocked = true →
    (cause = 3 ∨ s.tb.regained = true) →
    s.tb.offsetPs.natAbs ≤ 50000 →
    Completes (.holdoverEnd t) s (fun u => u.tb.holdover = none)

/-- THERMOS_WARM (R281): The thermos declares the time base warm and NOT_WARM clears from the next second. -/
def ThermosWarmCompletes : Prop :=
  ∀ (t : Nat) (s : State),
    s.tb.warm = false →
    s.tb.refclk = true →
    s.cfg.tb.warmS ≤ (s.atInstant t).warmElapsed →
    (s.disciplined = false ∨ windowsCalm s.tb.steerHist (s.cfg.tb.warmPpb * 10) = true) →
    Completes (.thermosWarm t) s (fun u => u.tb.warm = true ∧ u.tb.warmFrom = some ((s.atInstant t).boundaryAtOrAfter (s.atInstant t).now))

/-- THERMOS_NOT_WARM (R282): A steering excursion in a 10 s window makes the time base not warm. -/
def ThermosNotWarmCompletes : Prop :=
  ∀ (t : Nat) (s : State),
    s.tb.warm = true →
    s.disciplined = true →
    11 ≤ s.tb.steerHist.length →
    40 * s.cfg.tb.warmPpb < (nth s.tb.steerHist 0 0 - nth s.tb.steerHist 10 0).natAbs →
    Completes (.thermosNotWarm t) s (fun u => u.tb.warm = false ∧ u.tb.presentSince = max s.now t)

/-- TB_CONFIG (R307): Selects the time-base source and sets discipline, thermos and PPS_OUT. -/
def TbConfigCompletes : Prop :=
  ∀ (t : Nat) (c : Cmd) (s : State),
    (s.atInstant t).admits 0x0801 c = true →
    tbCfgOk (readTbCfg c.arg) = true →
    s.pendOp 0x0801 = none →
    ((readTbCfg c.arg).source = 4 → s.cfg.trail.root = false) →
    ((readTbCfg c.arg).source ≠ 4 → s.cfg.trail.member = true → s.cfg.trail.root = true) →
    Completes (.tbConfig t c) s (fun u => u.answered c stPending [] ∧ u.awaits (s.atInstant t) c 0x0801 [0] none)

/-! #### Time-interval units: self-checks, spares, results, arming, status -/

/-- TIU_SELF_CHECK (R294): Once per second idle units measure a 64-cell interval and an error starts the unit's test. Here: a good check. -/
def TiuSelfCheckGoodCompletes : Prop :=
  ∀ (t u m : Nat) (s : State),
    u ≤ 4 →
    (s.hUnit kindTiu u).serves = true →
    (s.tiuOf u).arming = none →
    ((m : Int) - 64 * 256).natAbs ≤ 2 →
    Completes (.tiuSelfCheck t u m true) s (fun u' => u'.tiu = (s.modUnit u (fun x => { x with locked := true })).tiu ∧ u'.hUnit kindTiu u = s.hUnit
      kindTiu u)

/-- TIU_SELF_CHECK (R294): Once per second idle units measure a 64-cell interval and an error starts the unit's test. Here: a failing check. -/
def TiuSelfCheckBadCompletes : Prop :=
  ∀ (t u m : Nat) (s : State),
    u ≤ 4 →
    (s.hUnit kindTiu u).serves = true →
    (s.hUnit kindTiu u).due = none →
    (s.tiuOf u).arming = none →
    2 < ((m : Int) - 64 * 256).natAbs →
    u < (nth s.health.units kindTiu []).length →
    Completes (.tiuSelfCheck t u m true) s (fun u' => (u'.hUnit kindTiu u).due = some (2, false) ∧ (u'.hUnit kindTiu u).errors = satAdd (s.hUnit
      kindTiu u).errors 1)

/-- TIU_SPARED (R295): TIU4 takes the place of a unit in error once idle. -/
def TiuSparedCompletes : Prop :=
  ∀ (t u j : Nat) (s : State),
    (s.hUnit kindTiu u).due.isSome = true →
    (s.hUnit kindTiu u).serves = true →
    s.spareFor kindTiu u = some j →
    (s.tiuOf u).arming = none →
    u < (nth s.health.units kindTiu []).length →
    j < (nth s.health.units kindTiu []).length →
    Completes (.tiuSpared t u) s (fun u' => (u'.hUnit kindTiu j).st = 0 ∧ (u'.hUnit kindTiu u).st = 2)

/-- TIU_RESULT (R293): An interval arming completes with a result and EV_TIU_DONE. -/
def TiuResultCompletes : Prop :=
  ∀ (t u start x stop : Nat) (a : Arming) (s : State),
    (s.tiuOf u).arming = some a →
    a.zero = false →
    a.startAt = some x →
    tiuHidden a.stop = true →
    a.armedAt ≤ stop →
    max x stop ≤ a.armedAt + a.timeout * ticksPerCell →
    (a.signed = true ∨ x ≤ stop) →
    (s.tiuOf u).locked = true →
    2 ≤ ((stop : Int) - x).natAbs →
    (s.atInstant t).canReport = true →
    Completes (.tiuResult t u start stop) s (fun u' => (u'.tiuOf u).arming = none ∧ u'.reported 0x0808 (srcTiu u) (u64 (resultWord ((stop : Int) - x)
      u false false false false) ++ u16 a.seq))

/-- TIU_RESULT (R293): An interval arming completes with a result and EV_TIU_DONE. Here: a stop that a row brought. -/
def TiuResultSeenCompletes : Prop :=
  ∀ (t u start x y : Nat) (a : Arming) (s : State),
    (s.tiuOf u).arming = some a →
    a.zero = false →
    a.startAt = none →
    tiuHidden a.start = true →
    tiuHidden a.stop = false →
    a.signed = false →
    a.armedAt ≤ start →
    start ≤ a.armedAt + a.timeout * ticksPerCell →
    a.stops.find? (fun y => decide (start ≤ y)) = some y →
    (s.tiuOf u).locked = true →
    2 ≤ ((y : Int) - start).natAbs →
    (s.atInstant t).canReport = true →
    Completes (.tiuResult t u start x) s (fun u' => (u'.tiuOf u).arming = none ∧ u'.reported 0x0808 (srcTiu u) (u64 (resultWord ((y : Int) - start) u
      false false false false) ++ u16 a.seq) ∧ u'.tiu.wrongOrder = satAdd s.tiu.wrongOrder (a.stops.filter (fun y => decide (y < start))).length)

/-- TIU_RESULT (R293): An interval arming completes with a result and EV_TIU_DONE. Here: a stop before its start. -/
def TiuWrongOrderCompletes : Prop :=
  ∀ (t u start x stop : Nat) (a : Arming) (s : State),
    (s.tiuOf u).arming = some a →
    a.startAt = some x →
    tiuHidden a.stop = true →
    a.armedAt ≤ stop →
    x ≤ a.armedAt + a.timeout * ticksPerCell →
    a.signed = false →
    stop < x →
    Completes (.tiuResult t u start stop) s (fun u' => (u'.tiuOf u).arming = some a ∧ u'.tiu.wrongOrder = satAdd s.tiu.wrongOrder 1)

/-- TIU_TIMEOUT (R292): An arming with no result within TIMEOUT cells ends with TIMEOUT set. -/
def TiuTimeoutCompletes : Prop :=
  ∀ (t u : Nat) (a : Arming) (s : State),
    (s.tiuOf u).arming = some a →
    a.zero = false →
    a.armedAt + a.timeout * ticksPerCell ≤ max s.now t →
    Completes (.tiuTimeout t u) s (fun u' => (u'.tiuOf u).arming = none ∧ u'.tiu.timeouts = satAdd s.tiu.timeouts 1)

/-- TIU_MEASURE (R308): Schedules an interval arming. -/
def TiuMeasureCompletes : Prop :=
  ∀ (t : Nat) (c : Cmd) (s : State),
    (s.atInstant t).admits 0x0803 c = true →
    tiuSrcOk (s.atInstant t) (rd c.arg 0 1) (rd c.arg 1 1) true = true →
    tiuSrcOk (s.atInstant t) (rd c.arg 2 1) (rd c.arg 3 1) false = true →
    rd c.arg 4 1 ≤ 1 →
    1 ≤ rd c.arg 8 4 →
    rd c.arg 8 4 ≤ 2000000000 →
    (s.atInstant t).armRefusal = none →
    (c.applyAt = 0#96 → (s.atInstant t).freeUnit.isSome = true) →
    Completes (.tiuMeasure t c) s (fun u => u.answered c stPending [] ∧ u.awaits (s.atInstant t) c 0x0803 [0] none)

/-- TIU_ARMED (R308): The interval arming is placed on a unit at apply-at. -/
def TiuArmedCompletes : Prop :=
  ∀ (t u : Nat) (p : Pend) (s : State),
    s.pendOp 0x0803 = some p →
    p.applyAt.getD p.accepted ≤ max s.now t →
    (s.atInstant t).freeUnit = some u →
    (s.atInstant t).armings < (s.atInstant t).armLimit →
    s.tiu.units.length = 5 →
    Completes (.tiuArmed t) s (fun u' => (u'.tiuOf u).arming = some ((s.atInstant t).readArming p (p.applyAt.getD p.accepted)) ∧ u'.pend =
      s.pend.eraseP (fun p => p.op == 0x0803))

/-- TIU_LAUNCH_ZERO (R296): Starts a launch-zero measurement of spot shots. -/
def TiuLaunchZeroCompletes : Prop :=
  ∀ (t : Nat) (q : Plan) (c : Cmd) (s : State),
    (s.atInstant t).admits 0x0804 c = true →
    (s.atInstant t).badLine (rd c.arg 0 1) = false →
    (1 ≤ rd c.arg 2 1 ∧ rd c.arg 2 1 ≤ 64) →
    (10 ≤ rd c.arg 4 2 ∧ rd c.arg 4 2 ≤ 500 ∧ rd c.arg 4 2 % 10 = 0) →
    (-2097152 ≤ rdS c.arg 8 4 ∧ rdS c.arg 8 4 ≤ 2097152) →
    (s.atInstant t).plan? (rd c.arg 0 1) = some q →
    rd c.arg 1 1 < q.tones.length →
    s.tiu.launchRun = none →
    s.emit.level = true →
    ((s.atInstant t).gridOf (rd c.arg 0 1)).spot = none →
    (s.atInstant t).armRefusal = none →
    (s.atInstant t).spotInstant (rd c.arg 0 1) q (rd c.arg 1 1) (c.at_ (s.atInstant t)) true ≠ none →
    Completes (.tiuLaunchZero t c) s (fun u => u.answered c stPending [] ∧ u.awaits (s.atInstant t) c 0x0804 [rd c.arg 0 1] none ∧ u.tiu.launchRun =
      some ⟨rd c.arg 0 1, rd c.arg 1 1, rd c.arg 2 1, rdS c.arg 8 4, rd c.arg 2 1, []⟩ ∧ u.tiu.thresh = rd c.arg 4 2)

/-- TIU_STATUS (R297): Returns unit states, counters and launch zeros. -/
def TiuStatusCompletes : Prop :=
  ∀ (t : Nat) (c : Cmd) (s : State),
    (s.atInstant t).admits 0x0805 c = true →
    Completes (.tiuStatus t c) s (fun u => u.answered c stOk (s.atInstant t).tiuBody ∧ (bit (rd c.arg 0 1) 0 = true → u.tiu =
      { s.tiu with wrongOrder := 0, belowRes := 0, timeouts := 0, noUnit := 0 }) ∧ (bit (rd c.arg 0 1) 0 = false → u.tiu = s.tiu))

/-! #### Launch zero, trail configuration and the frames a node sends and receives -/

/-- LAUNCH_ZERO_DONE (R296): After its shots the launch zero is computed and EV_TIU_LAUNCH_ZERO raised. -/
def LaunchZeroDoneCompletes : Prop :=
  ∀ (t : Nat) (r : LaunchZeroRun) (p : Pend) (s : State),
    s.tiu.launchRun = some r →
    s.pendOp 0x0804 = some p →
    r.left = 0 →
    s.tiu.units.all (fun u => match u.arming with | some a => !a.zero | none => true) = true →
    r.hits ≠ [] →
    Completes (.launchZeroDone t r.line) s (fun u => u.tiu.launchRun = none ∧ u.cfg.launchZero = s.cfg.launchZero.set r.line (rneDiv (r.hits.foldl (·
      + ·) 0 + r.boardLz * r.hits.length) r.hits.length))

/-- LAUNCH_ZERO_DONE (R296): After its shots the launch zero is computed and EV_TIU_LAUNCH_ZERO raised. Here: every shot missed. -/
def LaunchZeroMissedCompletes : Prop :=
  ∀ (t : Nat) (r : LaunchZeroRun) (p : Pend) (s : State),
    s.tiu.launchRun = some r →
    s.pendOp 0x0804 = some p →
    r.left = 0 →
    s.tiu.units.all (fun u => match u.arming with | some a => !a.zero | none => true) = true →
    r.hits = [] →
    Completes (.launchZeroDone t r.line) s (fun u => u.tiu.launchRun = none ∧ u.cfg.launchZero = s.cfg.launchZero)

/-- TB_CONFIG_TAKES_EFFECT (R307): The time-base settings take effect at a second boundary, entering holdover for a new source. -/
def TbConfigTakesEffectCompletes : Prop :=
  ∀ (t : Nat) (p : Pend) (s : State),
    s.pendOp 0x0801 = some p →
    (s.atInstant t).boundaryAtOrAfter (p.applyAt.getD p.accepted) ≤ max s.now t →
    Completes (.tbConfigTakesEffect t) s (fun u => u.cfg = { s.cfg with tb := readTbCfg p.data } ∧ u.pend = s.pend.eraseP (fun p => p.op == 0x0801))

/-- TB_STATUS (R306): Returns time-base state and counters. -/
def TbStatusCompletes : Prop :=
  ∀ (t : Nat) (c : Cmd) (s : State),
    (s.atInstant t).admits 0x0802 c = true →
    Completes (.tbStatus t c) s (fun u => u.answered c stOk (s.atInstant t).tbBody ∧ u.tb = if bit (rd c.arg 0 1) 0 then
      { s.tb with steps := 0, ppsMissed := 0, ppsOutOfWindow := 0, servoDiscarded := 0, ptpSync := 0, ptpIgnored := 0 } else s.tb)

/-- TRAIL_CONFIG (R309): Sets node ID, role, ports and asymmetry. -/
def TrailConfigCompletes : Prop :=
  ∀ (t : Nat) (c : Cmd) (s : State),
    (s.atInstant t).admits 0x0806 c = true →
    (readTrailCfg c.arg).nodeId ≤ 4095 →
    (-512 ≤ (readTrailCfg c.arg).asym ∧ (readTrailCfg c.arg).asym ≤ 512) →
    ¬ ((readTrailCfg c.arg).root = true ∧ (readTrailCfg c.arg).port 0 = true) →
    s.pendOp 0x0806 = none →
    ((readTrailCfg c.arg).root = true → s.cfg.tb.source ≠ 4) →
    ((readTrailCfg c.arg).root = false → (readTrailCfg c.arg).port 0 = true → s.cfg.tb.source = 4 ∨ (s.atInstant t).pendTrailSource = true) →
    Completes (.trailConfig t c) s (fun u => u.answered c stPending [] ∧ u.awaits (s.atInstant t) c 0x0806 [0] none)

/-- TRAIL_CONFIG_TAKES_EFFECT (R309): The trail settings take effect at a second boundary. -/
def TrailConfigTakesEffectCompletes : Prop :=
  ∀ (t : Nat) (p : Pend) (s : State),
    s.pendOp 0x0806 = some p →
    (s.atInstant t).boundaryAtOrAfter (p.applyAt.getD p.accepted) ≤ max s.now t →
    Completes (.trailConfigTakesEffect t) s (fun u => u.cfg = { s.cfg with trail := readTrailCfg p.data } ∧ u.pend = s.pend.eraseP (fun p => p.op ==
      0x0806))

/-- TRAIL_STATUS (R306): Returns trail state and counters. -/
def TrailStatusCompletes : Prop :=
  ∀ (t : Nat) (c : Cmd) (s : State),
    (s.atInstant t).admits 0x0807 c = true →
    Completes (.trailStatus t c) s (fun u => u.answered c stOk (s.atInstant t).trailBody ∧ u.trail = if bit (rd c.arg 0 1) 0 then
      { s.trail with crcErrors := 0, syncMissed := 0, bcastRx := 0, bcastTx := 0, delaySkipped := 0 } else s.trail)

/-- SYNC_TX (R299): At each second boundary a parent sends SYNC on its downward ports. -/
def SyncTxCompletes : Prop :=
  ∀ (t p : Nat) (s : State),
    (s.atInstant t).isBoundary (s.atInstant t).now = true →
    (p = 1 ∨ p = 2) →
    (s.atInstant t).mayForward p = true →
    Completes (.syncTx t) s (fun u => Out.trailFrame p (s.atInstant t).now ((s.atInstant t).trailFrame 0x01 (leBytes 5 ((s.atInstant t).secondAt
      (s.atInstant t).now).1 ++ u8 (b2n (s.atInstant t).holdoverFlag + 2 * b2n (s.atInstant t).notWarmFlag))) ∈ u.out)

/-- TOPO_TX (R299): A node sends TOPO upwards at cell 100 000 000 each second. -/
def TopoTxCompletes : Prop :=
  ∀ (t : Nat) (s : State),
    (s.atInstant t).trailUp 0 = true →
    ((s.atInstant t).secondAt (s.atInstant t).now).2 = 100000000 * ticksPerCell →
    Completes (.topoTx t) s (fun u => u.out = [Out.trailFrame 0 (s.atInstant t).now ((s.atInstant t).trailFrame 0x05 (u16 ((s.atInstant t).subtree +
      1) ++ u8 (s.trail.topo.foldl (fun n o => match o with | some e => max n e.2.2 | none => n) (s.atInstant t).ownDepth)))])

/-- DELAY_REQ_TX (R300): A child sends DELAY_REQ at cell 250 000 000 each second. -/
def DelayReqTxCompletes : Prop :=
  ∀ (t : Nat) (s : State),
    (s.atInstant t).trailUp 0 = true →
    ((s.atInstant t).secondAt (s.atInstant t).now).2 = 250000000 * ticksPerCell →
    Completes (.delayReqTx t) s (fun u => u.trail.t1 = some (max s.now t) ∧ u.trail.reqSeq = (s.trail.reqSeq + 1) % 256 ∧ u.out = [Out.trailFrame 0
      (s.atInstant t).now ((s.atInstant t).trailFrame 0x02 (u8 ((s.trail.reqSeq + 1) % 256)))])

/-- TOPO_RX (R298): A received TOPO updates depth and subtree and may raise EV_TRAIL_ID_CONFLICT. -/
def TopoRxCompletes : Prop :=
  ∀ (t : Nat) (rx : TrailRx) (s : State),
    (rx.port = 1 ∨ rx.port = 2) →
    (s.atInstant t).trailUp rx.port = true →
    frameOk rx.bytes = true →
    frameType rx.bytes = 5 →
    Completes (.topoRx t rx) s (fun u => u.trail.topo = s.trail.topo.set (rx.port - 1) (some (frameNode rx.bytes, rd rx.bytes 3 2, rd rx.bytes 5 1)))

/-! #### Trail delays, SYNC, broadcasts and link changes -/

/-- DELAY_REQ_RX (R300): A parent stamps a DELAY_REQ and replies with DELAY_RESP. -/
def DelayReqRxCompletes : Prop :=
  ∀ (t : Nat) (rx : TrailRx) (s : State),
    rx.port ≠ 0 →
    (s.atInstant t).trailUp rx.port = true →
    frameOk rx.bytes = true →
    frameType rx.bytes = 2 →
    Completes (.delayReqRx t rx) s (fun u => u.out = [Out.trailFrame rx.port ((s.atInstant t).frameStart rx.port ((s.atInstant t).ceilCell
      ((((s.atInstant t).frameIn rx.port).takeStamp (s.atInstant t).now).1 + 250 * ticksPerCell))) ((s.atInstant t).trailFrame 0x03 (u8 (rd rx.bytes 3
      1) ++ leBytes 5 ((s.atInstant t).secondAt (((s.atInstant t).frameIn rx.port).takeStamp (s.atInstant t).now).1).2 ++ u32 (((s.atInstant
      t).secondAt ((s.atInstant t).frameStart rx.port ((s.atInstant t).ceilCell ((((s.atInstant t).frameIn rx.port).takeStamp (s.atInstant t).now).1 +
      250 * ticksPerCell)))).2 / ticksPerCell)))])

/-- DELAY_RESP_RX (R300): A child stamps the reply and updates its hop-delay median. -/
def DelayRespRxCompletes : Prop :=
  ∀ (t t1 : Nat) (rx : TrailRx) (s : State),
    rx.port = 0 →
    (s.atInstant t).trailUp 0 = true →
    frameOk rx.bytes = true →
    frameType rx.bytes = 3 →
    s.trail.t1 = some t1 →
    rd rx.bytes 3 1 = s.trail.reqSeq →
    (((s.atInstant t).frameIn 0).takeStamp (s.atInstant t).now).2.2.1 = true →
    Completes (.delayRespRx t rx) s (fun u => u.trail.t1 = none ∧ u.trail.hops = ((exchange (((s.atInstant t).secondAt t1).2 : Nat) (rd rx.bytes 4 5 :
      Nat) (rd rx.bytes 9 4 * ticksPerCell : Nat) (((s.atInstant t).secondAt (((s.atInstant t).frameIn 0).takeStamp (s.atInstant t).now).1).2 : Nat)
      s.cfg.trail.asym).2 :: s.trail.hops).take 16)

/-- TRAIL_SOURCE_LOST (R302): Missing SYNCs, lost alignment or excess depth loses the trail source and starts holdover. -/
def TrailSourceLostCompletes : Prop :=
  ∀ (t : Nat) (s : State),
    s.cfg.tb.source = 4 →
    s.tb.trailLocked = true →
    3 ≤ s.trail.syncMissRun →
    Completes (.trailSourceLost t) s (fun u => u.tb.trailLocked = false ∧ u.tb.holdover.isSome = true)

/-- SYNC_RX (R300): A received SYNC gives the servo its offset and sets SECOND and flags. -/
def SyncRxCompletes : Prop :=
  ∀ (t : Nat) (rx : TrailRx) (s : State),
    rx.port = 0 →
    (s.atInstant t).trailUp 0 = true →
    frameOk rx.bytes = true →
    frameType rx.bytes = 1 →
    frameDepth rx.bytes < 12 →
    Completes (.syncRx t rx) s (fun u => u.trail.parent = some (frameNode rx.bytes) ∧ u.trail.depth = some (frameDepth rx.bytes + 1) ∧
      u.trail.upHoldover = bit (rd rx.bytes 8 1) 0 ∧ u.trail.upNotWarm = bit (rd rx.bytes 8 1) 1 ∧ u.trail.syncMissRun = 0)

/-- SYNC_RX (R300): A received SYNC gives the servo its offset and sets SECOND and flags. Here: a frame in error. -/
def SyncRxBadCompletes : Prop :=
  ∀ (t : Nat) (rx : TrailRx) (s : State),
    rx.port = 0 →
    (s.atInstant t).trailUp 0 = true →
    frameOk rx.bytes = false →
    Completes (.syncRx t rx) s (fun u => u.trail =
      { s.trail with crcErrors := satAdd s.trail.crcErrors 1, syncMissed := satAdd s.trail.syncMissed 1, syncMissRun := s.trail.syncMissRun + 1 })

/-- BCAST_ORIGINATE (R304): A condition with a broadcast action sends BCAST on all ports. -/
def BcastOriginateCompletes : Prop :=
  ∀ (t cond p : Nat) (e : Nat × BitVec 96) (d : CondDef) (s : State),
    s.trig.bcast.find? (fun e => e.1 == cond) = some e →
    s.condDef? cond = some d →
    (p ≤ 2) →
    (s.atInstant t).mayForward p = true →
    Completes (.bcastOriginate t cond) s (fun u => u.trig.bcast = s.trig.bcast.erase e ∧ u.trail.bcastTx = satAdd s.trail.bcastTx 1 ∧ Out.trailFrame p
      ((s.atInstant t).frameStart p (s.atInstant t).now) ((s.atInstant t).trailFrame 0x04 (u8 (if bit d.actions 2 then 1 else 0) ++ u8 cond ++
      stampBytes e.2)) ∈ u.out)

/-- TRAIL_LINK_CHANGE (R299): A trail port's link comes up or goes down as its 8b/10b receiver gains or loses alignment, changing which ports carry
SYNC and BCAST and raising EV_TRAIL_LINK. -/
def TrailLinkChangeCompletes : Prop :=
  ∀ (t p : Nat) (up : Bool) (s : State),
    p ≤ 2 →
    s.cfg.trail.port p = true →
    nth s.trail.linkUp p false ≠ up →
    Completes (.trailLinkChange t p up) s (fun u => u.trail.linkUp = s.trail.linkUp.set p up)

/-! #### Thermal slices: sheets, intervals, switches, spares, settings -/

/-- THERMAL_SHEET_TAKEN (R319): A taken sheet's samples are accumulated into bin and dark accumulators. -/
def ThermalSheetTakenCompletes : Prop :=
  ∀ (t l k : Nat) (as st : List Int) (g : ThermCfg) (e : ThermSheet) (rest : List ThermSheet) (s : State),
    s.thermCfg? l = some g →
    s.sliceAt l = some k →
    s.pwr.st < 2 →
    (s.sliceOf k).leave = false →
    (s.sliceOf k).iv.taken < g.interval →
    (s.sliceOf k).cand = e :: rest →
    (s.sliceOf k).held = none →
    (s.sliceOf k).closeAt = none →
    (s.sliceOf k).discardNext = false →
    e.dark = false →
    g.background = false →
    e.tick + g.endCell * ticksPerCell ≤ max s.now t →
    Completes (.thermalSheetTaken t l as st false) s (fun u => u.therm.slices = upd s.therm.slices k (fun c =>
      { c with cand := rest, held := none, iv := c.iv.take g e as st none }) ∧ u.therm.lines = s.therm.lines)

/-- THERMAL_SHEET_TAKEN (R319): A taken sheet's samples are accumulated into bin and dark accumulators. Here: a dark sheet. -/
def ThermalSheetTakenDarkCompletes : Prop :=
  ∀ (t l k : Nat) (as st : List Int) (g : ThermCfg) (e : ThermSheet) (rest : List ThermSheet) (s : State),
    s.thermCfg? l = some g →
    s.sliceAt l = some k →
    s.pwr.st < 2 →
    (s.sliceOf k).leave = false →
    (s.sliceOf k).iv.taken < g.interval →
    (s.sliceOf k).cand = e :: rest →
    (s.sliceOf k).held = none →
    (s.sliceOf k).closeAt = none →
    e.dark = true →
    g.background = false →
    e.tick + g.endCell * ticksPerCell ≤ max s.now t →
    Completes (.thermalSheetTaken t l as st false) s (fun u => u.therm.slices = upd s.therm.slices k (fun c =>
      { c with cand := rest, held := none, iv := { c.iv with discarded := c.iv.discarded + 1 } }) ∧ u.therm.lines = upd s.therm.lines l (fun x =>
      { x with discarded := satAdd x.discarded 1 }))

/-- THERMAL_INTERVAL_CLOSE (R320): An interval closes after INTERVAL sheets or early, and its trace is formed. -/
def ThermalIntervalCloseCompletes : Prop :=
  ∀ (t l k : Nat) (g : ThermCfg) (a b : ThermSheet) (s : State),
    s.thermCfg? l = some g →
    s.sliceAt l = some k →
    (s.sliceOf k).leave = false →
    g.interval ≤ (s.sliceOf k).iv.taken →
    0 < g.interval →
    (s.sliceOf k).iv.first = some a →
    (s.sliceOf k).iv.last = some b →
    l < s.therm.lines.length →
    Completes (.thermalIntervalClose t l) s (fun u => (u.sliceOf k).iv = Interval.empty ∧ (u.lthermOf l).traces = satAdd (s.lthermOf l).traces 1 ∧
      (u.lthermOf l).number = (s.lthermOf l).number + 1 ∧ (u.lthermOf l).staleRaised = ((s.atInstant t).refTemp g).isNone)

/-- THERMAL_SWITCH (R317): A slice switches to the next line of its ring. -/
def ThermalSwitchCompletes : Prop :=
  ∀ (t k p l : Nat) (s : State),
    k ≤ 3 →
    (s.sliceOf k).phys = some p →
    (s.atInstant t).nextOfRing k (s.sliceOf k).line = some l →
    s.pwr.st < 2 →
    (s.atInstant t).mayLeave k = true →
    (s.sliceOf k).switching = false →
    (s.sliceOf k).line ≠ some l →
    Completes (.thermalSwitch t k false) s (fun u => u.therm.slices = upd s.therm.slices k (fun c =>
      { c with line := some l, switching := true, connectedAt := max (s.atInstant t).now c.wakeAt + 450 * ticksPerNs, settleAt := max (s.atInstant t).now c.wakeAt + 2450 * ticksPerNs, leave := false, discardNext := true, cand := [], held := none, closeAt := none, iv := Interval.empty }))

/-- THERMAL_SWITCH_SETTLED (R318): The switch ends after settling and the first sheet on the new line is discarded. -/
def ThermalSwitchSettledCompletes : Prop :=
  ∀ (t k : Nat) (s : State),
    (s.sliceOf k).switching = true →
    (s.sliceOf k).settleAt ≤ max s.now t →
    Completes (.thermalSwitchSettled t k) s (fun u => u.therm.slices = upd s.therm.slices k (fun c => { c with switching := false }))

/-- THERM_SPARED (R326): TS4 takes a logical slice whose slice is due for test. -/
def ThermSparedCompletes : Prop :=
  ∀ (t p k n : Nat) (s : State),
    ¬ (((s.atInstant t).hUnit kindSlice p).st = 5 ∧ ((s.atInstant t).hUnit kindSlice p).noSpare = true) →
    ((s.atInstant t).hUnit kindSlice p).wantsSpare = true →
    s.logicalOf p = some k →
    (s.atInstant t).spareFor kindSlice p = some n →
    (s.atInstant t).canReport = true →
    Completes (.thermSpared t p) s (fun u => (u.sliceOf k).phys = some n ∧ (u.sliceOf k).spared = true ∧ (u.sliceOf k).iv = Interval.empty ∧ u.heard
      0x0901 (srcSlice p))

/-- THERM_CONFIG (R341): Sets a line's thermal bins, windows, interval and constants. -/
def ThermConfigCompletes : Prop :=
  ∀ (t : Nat) (c : Cmd) (s : State),
    (s.atInstant t).admits 0x0901 c = true →
    (s.atInstant t).badLine (rd c.arg 0 1) = false →
    (bit (rd c.arg 1 1) 3 = true ∨ (readTherm c.arg).ok (s.plan? (rd c.arg 0 1)) = true) →
    (s.atInstant t).pendOf 0x0901 (rd c.arg 0 1) = none →
    Completes (.thermConfig t c) s (fun u => u.answered c stPending [] ∧ u.awaits (s.atInstant t) c 0x0901 [rd c.arg 0 1] none)

/-- THERM_CONFIG_TAKES_EFFECT (R341): The thermal configuration takes effect when the current interval closes. -/
def ThermConfigTakesEffectCompletes : Prop :=
  ∀ (t l : Nat) (p : Pend) (s : State),
    s.pendOf 0x0901 l = some p →
    (∀ k ∈ s.sliceAt l, (s.sliceOf k).inProgress = false) →
    Completes (.thermConfigTakesEffect t l) s (fun u => u.cfg =
      { s.cfg with therm := s.cfg.therm.set l (if bit (rd p.data 1 1) 3 then none else some (readTherm p.data)) } ∧ u.therm.lines = upd s.therm.lines
      l (fun x => { x with fresh := true }) ∧ u.pend = strike 0x0901 l s.pend)

/-- THERM_ROUTE (R342): Sets the rings of the logical slices, drain or immediate. -/
def ThermRouteCompletes : Prop :=
  ∀ (t : Nat) (c : Cmd) (s : State),
    (s.atInstant t).admits 0x0902 c = true →
    rd c.arg 0 1 = 1 →
    (∀ l < 16, (((List.range 4).map (fun k => rd c.arg (4 + 2 * k) 2)).filter (fun m => bit m l)).length ≤ 1) →
    (s.atInstant t).maskEnabled (((List.range 4).map (fun k => rd c.arg (4 + 2 * k) 2)).foldl (· ||| ·) 0) = true →
    s.pendOp 0x0902 = none →
    (∀ l ∈ maskList 16 (((List.range 4).map (fun k => rd c.arg (4 + 2 * k) 2)).foldl (· ||| ·) 0), s.thermCfg? l ≠ none) →
    (∀ k < 4, rd c.arg (4 + 2 * k) 2 = s.ringOf k ∨ rd c.arg (4 + 2 * k) 2 = 0 ∨ (s.sliceOf k).phys ≠ none) →
    Completes (.thermRoute t c) s (fun u => u.answered c stPending [] ∧ u.cfg =
      { s.cfg with rings := (List.range 4).map (fun k => rd c.arg (4 + 2 * k) 2) })

/-- THERM_STATUS (R340): Returns a line's thermal state and counters. -/
def ThermStatusCompletes : Prop :=
  ∀ (t : Nat) (c : Cmd) (s : State),
    (s.atInstant t).admits 0x0903 c = true →
    (s.atInstant t).badLine (rd c.arg 0 1) = false →
    Completes (.thermStatus t c) s (fun u => u.answered c stOk ((s.atInstant t).thermBody (rd c.arg 0 1)) ∧ u.therm = if bit (rd c.arg 1 1) 0 then
      { s.therm with lines := upd s.therm.lines (rd c.arg 0 1) (fun x => { x with traces := 0, discarded := 0, switchDiscards := 0, short := 0, discardedIntervals := 0 }) }
      else s.therm)

/-! #### Reference sensors: scans, conversions, leads, settings -/

/-- REF_SCAN_START (R335): At each PERIOD boundary the scan starts, cutting short one still running. -/
def RefScanStartCompletes : Prop :=
  ∀ (t n : Nat) (more : List Nat) (s : State),
    s.pwr.st < 2 →
    s.cfg.scan = n :: more →
    (s.atInstant t).scanInstant s.cfg.scanMs = true →
    s.pendOp 0x0905 = none →
    s.pendOp 0x0906 = none →
    s.therm.front.rest = [] →
    s.therm.front.conv = none →
    Completes (.refScanStart t false) s (fun u => u.therm.front =
      { s.therm.front with scans := satAdd s.therm.front.scans 1, rest := more, conv := some ⟨n, (s.atInstant t).now, s.refCfg n, false, s.therm.front.sdm, false, false, false⟩ })

/-- REF_CONVERSION_DONE (R328): A conversion or pair finishes and its result record is written. -/
def RefConversionDoneCompletes : Prop :=
  ∀ (t : Nat) (v : RefConv) (w : RefConversion) (s : State),
    s.therm.front.conv = some v →
    v.channel = w.channel →
    v.start + v.cfg.duration ≤ max s.now t →
    v.cfg.paired = false →
    v.cfg.outputs = false →
    w.plus.length = v.cfg.bits →
    w.minus = [] →
    v.cfg.cmBad w.cmMv = false →
    w.compliance = false →
    s.therm.front.rest = [] →
    s.pendOp 0x0906 = none →
    v.channel < s.therm.front.chans.length →
    Completes (.refConversionDone t w) s (fun u => u.therm.front.conv = none ∧ u.therm.front.splice = false ∧ u.therm.front.write =
      (s.therm.front.write + 1) % 8192 ∧ u.therm.front.seq = (s.therm.front.seq + 1) % 2 ^ 32 ∧ (u.refChan v.channel).codes = (v.cfg.codeOf
      (v.cfg.outputsOf w.plus) :: (s.refChan v.channel).codes).take 16)

/-- REF_LEAD (R334): A common-mode or compliance check fails and the result is INVALID with EV_REF_LEAD. -/
def RefLeadCompletes : Prop :=
  ∀ (t n cm : Nat) (v : RefConv) (s : State),
    s.therm.front.conv = some v →
    v.channel = n →
    v.cfg.cmBad cm = true →
    v.leadCm = false →
    (s.atInstant t).canReport = true →
    Completes (.refLead t n 0 cm) s (fun u => u.therm.front.conv = some { v with leadCm := true } ∧ u.therm.front.chans = upd s.therm.front.chans n
      (fun k => { k with leadFaults := satAdd k.leadFaults 1, faultSince := some (k.faultSince.getD (s.atInstant t).now) }) ∧ u.reported 0x0903 (srcHs
      n) (u8 0 ++ u16 cm))

/-- REF_CONFIG (R343): Sets a reference channel. -/
def RefConfigCompletes : Prop :=
  ∀ (t : Nat) (c : Cmd) (s : State),
    (s.atInstant t).admits 0x0904 c = true →
    rd c.arg 0 1 ≤ 7 →
    (readRefCh c.arg).ok = true →
    s.scanNames (rd c.arg 0 1) = false →
    (∀ o ∈ s.cfg.therm, ∀ g ∈ o, ThermCfg.refSensor g ≠ rd c.arg 0 1) →
    Completes (.refConfig t c) s (fun u => u.answered c stOk [] ∧ u.cfg = { s.cfg with refCh := s.cfg.refCh.set (rd c.arg 0 1) (readRefCh c.arg) })

/-- REF_SCAN (R344): Sets the scan list and period. -/
def RefScanCompletes : Prop :=
  ∀ (t : Nat) (c : Cmd) (s : State),
    (s.atInstant t).admits 0x0905 c = true →
    (10 ≤ rd c.arg 0 4 ∧ rd c.arg 0 4 ≤ 60000) →
    rd c.arg 4 1 ≤ 16 →
    (∀ k < rd c.arg 4 1, rd c.arg (8 + k) 1 ≤ 7 ∧ (s.refCfg (rd c.arg (8 + k) 1)).type ≠ 0) →
    (1000 % rd c.arg 0 4 = 0 ∨ rd c.arg 0 4 % 1000 = 0) →
    s.pendOp 0x0905 = none →
    (s.atInstant t).sdmDead = false →
    scanFits s.refCfg ((List.range (rd c.arg 4 1)).map (fun k => rd c.arg (8 + k) 1)) (rd c.arg 0 4) = true →
    Completes (.refScan t c) s (fun u => u.answered c stPending [] ∧ u.awaits (s.atInstant t) c 0x0905 [0] none)

/-- REF_URGENT (R336): Inserts an urgent conversion ahead of the scan. -/
def RefUrgentCompletes : Prop :=
  ∀ (t : Nat) (v : RefConv) (c : Cmd) (s : State),
    (s.atInstant t).admits 0x0906 c = true →
    rd c.arg 0 1 ≤ 7 →
    s.pendOp 0x0906 = none →
    ((s.refCfg (rd c.arg 0 1)).type ≠ 0 ∧ (s.refCfg (rd c.arg 0 1)).type ≠ 3) →
    (s.atInstant t).sdmDead = false →
    s.therm.front.conv = some v →
    Completes (.refUrgent t c) s (fun u => u.answered c stPending [] ∧ u.awaits (s.atInstant t) c 0x0906 [0] none)

/-- REF_URGENT (R336): Inserts an urgent conversion ahead of the scan. Here: with no scan in progress. -/
def RefUrgentIdleCompletes : Prop :=
  ∀ (t n : Nat) (c : Cmd) (s : State),
    (s.atInstant t).admits 0x0906 c = true →
    rd c.arg 0 1 = n →
    n ≤ 7 →
    s.pendOp 0x0906 = none →
    ((s.refCfg n).type ≠ 0 ∧ (s.refCfg n).type ≠ 3) →
    (s.atInstant t).sdmDead = false →
    s.therm.front.conv = none →
    s.pwr.st < 2 →
    Completes (.refUrgent t c) s (fun u => u.answered c stPending [] ∧ u.pend = s.pend ∧ u.therm.front =
      { s.therm.front with conv := some ⟨n, (s.atInstant t).modEdge (s.atInstant t).now, s.refCfg n, true, s.therm.front.sdm, false, false, false⟩ })

/-- REF_STATUS (R340): Returns modulators, ring and counters. -/
def RefStatusCompletes : Prop :=
  ∀ (t : Nat) (c : Cmd) (s : State),
    (s.atInstant t).admits 0x0907 c = true →
    Completes (.refStatus t c) s (fun u => u.answered c stOk (s.atInstant t).refBody ∧ u.therm = if bit (rd c.arg 0 1) 0 then
      { s.therm with front := { s.therm.front with scans := 0, skipped := 0, chans := s.therm.front.chans.map (fun k => { k with leadFaults := 0, clamps := 0 }) } }
      else s.therm)

/-! #### Zones and the panel -/

/-- ZONE_EVALUATION (R352): A zone's rules are evaluated on a hit list, slow sheet or trace and its state recomputed. -/
def ZoneEvaluationCompletes : Prop :=
  ∀ (t n c x : Nat) (v : BitVec 96) (d : ZoneDef) (r : ZRule) (rest : List ZoneIn) (s : State),
    s.zoneDef? n = some d →
    (s.zoneOf n).inbox = .hit c v x :: rest →
    s.zonesOn = true →
    s.panel.evaluating = true →
    d.rules = [r] →
    (r.kind = 0 ∧ r.cond = c ∧ r.target = 3 ∧ r.confirm = 1) →
    (s.zoneOf n).rules ≠ [] →
    n < s.zones.length →
    Completes (.zoneEvaluation t n (.hit c)) s (fun u => (u.zoneOf n).inbox = rest ∧ (u.zoneOf n).state = 3 ∧ (nth (u.zoneOf n).rules 0
      RuleRun.reset).on = true ∧ (nth (u.zoneOf n).rules 0 RuleRun.reset).fired = (s.atInstant t).now ∧ (u.zoneOf n).firings = satAdd (s.zoneOf
      n).firings 1)

/-- ZONE_HOLD_END (R348): A rule's HOLD_MS expires and the end is applied to the zone. -/
def ZoneHoldEndCompletes : Prop :=
  ∀ (t n k : Nat) (d : ZoneDef) (r : RuleRun) (rule : ZRule) (s : State),
    s.zoneDef? n = some d →
    d.rules[k]? = some rule →
    (s.zoneOf n).rules[k]? = some r →
    r.on = true →
    rule.holdMs ≠ 0 →
    r.fired + rule.holdMs * ticksPerMs ≤ max s.now t →
    s.zonesOn = true →
    s.panel.evaluating = true →
    n < s.zones.length →
    Completes (.zoneHoldEnd t n k) s (fun u => (u.zoneOf n).rules = (s.zoneOf n).rules.set k { r with on := false })

/-- ZONE_FAULT_TIMER (R350): FAULT_S or SILENT_S expires and the zone's fault begins or ends. -/
def ZoneFaultTimerCompletes : Prop :=
  ∀ (t n : Nat) (d : ZoneDef) (s : State),
    s.zoneDef? n = some d →
    s.zonesOn = true →
    ((s.atInstant t).faultBits d (s.zoneOf n)).2.1 = true →
    ¬ ((s.zoneOf n).rules.zipIdx.any (fun e => e.1.active && (nth d.rules e.2 default).target == 3)) = true →
    n < s.zones.length →
    Completes (.zoneFaultTimer t n) s (fun u => (u.zoneOf n).state = 4 ∧ (u.zoneOf n).faultPresent = true ∧ (u.zoneOf n).fault12 = true ∧ bit
      (u.zoneOf n).causes 1 = true)

/-- VREF_Z_MEASURE (R360): Every 10 ms VREF_Z is measured and out of range raises EV_PANEL_VREF. -/
def VrefZMeasureCompletes : Prop :=
  ∀ (t mv : Nat) (s : State),
    (1000 ≤ mv ∧ mv ≤ 3300) →
    Completes (.vrefZMeasure t mv) s (fun u => u.panel.vrefMv = mv ∧ u.panel.reads = s.panel.reads ∧ u.panel.aborted = s.panel.aborted)

/-- VREF_Z_MEASURE (R360): Every 10 ms VREF_Z is measured and out of range raises EV_PANEL_VREF. Here: a voltage outside the range. -/
def VrefZMeasureOutsideCompletes : Prop :=
  ∀ (t mv : Nat) (s : State),
    (mv < 1000 ∨ 3300 < mv) →
    (s.atInstant t).canReport = true →
    Completes (.vrefZMeasure t mv) s (fun u => u.panel.vrefMv = mv ∧ u.reported 0x0A02 srcDevice (u16 (satTo 2 mv)))

/-- ZONE_DEFINE (R362): Defines, replaces or removes a zone. -/
def ZoneDefineCompletes : Prop :=
  ∀ (t : Nat) (c : Cmd) (s : State),
    (s.atInstant t).admits 0x0A01 c = true →
    bit (rd c.arg 1 1) 0 = false →
    (s.atInstant t).zoneOk (readZone c.arg) = true →
    rd c.arg 0 1 < s.zones.length →
    (s.atInstant t).canReport = true →
    Completes (.zoneDefine t c) s (fun u => u.answered c stOk [] ∧ u.cfg =
      { s.cfg with zones := s.cfg.zones.set (rd c.arg 0 1) (some (readZone c.arg)) } ∧ (u.zoneOf (rd c.arg 0 1)).state = 0 ∧ (u.zoneOf (rd c.arg 0
      1)).rules = List.replicate 4 RuleRun.reset ∧ (u.zoneOf (rd c.arg 0 1)).since = (s.atInstant t).now ∧ u.heard 0x0A01 srcDevice)

/-- ZONE_DEFINE (R362): Defines, replaces or removes a zone. Here: a removal. -/
def ZoneDefineRemoveCompletes : Prop :=
  ∀ (t : Nat) (c : Cmd) (s : State),
    (s.atInstant t).admits 0x0A01 c = true →
    bit (rd c.arg 1 1) 0 = true →
    rd c.arg 0 1 < s.zones.length →
    (s.atInstant t).canReport = true →
    Completes (.zoneDefine t c) s (fun u => u.answered c stOk [] ∧ u.cfg = { s.cfg with zones := s.cfg.zones.set (rd c.arg 0 1) none } ∧ (u.zoneOf (rd
      c.arg 0 1)).state = 5 ∧ u.heard 0x0A01 srcDevice)

/-- ZONE_ACK (R363): Releases the latch holds of named zones. -/
def ZoneAckCompletes : Prop :=
  ∀ (t : Nat) (c : Cmd) (s : State),
    (s.atInstant t).admits 0x0A02 c = true →
    rd c.arg 0 32 ≠ 0 →
    s.zones.length = 256 →
    Completes (.zoneAck t c) s (fun u => u.answered c stOk [] ∧ ∀ n < 256, bit (rd c.arg 0 32) n = true → s.zoneDef? n ≠ none → (u.zoneOf n).rules =
      (s.zoneOf n).rules.map (fun r => { r with latched := false }))

/-- ZONE_STATUS (R361): Returns a zone's mirror entry, rules and counters. -/
def ZoneStatusCompletes : Prop :=
  ∀ (t : Nat) (c : Cmd) (s : State),
    (s.atInstant t).admits 0x0A03 c = true →
    Completes (.zoneStatus t c) s (fun u => u.answered c stOk ((s.atInstant t).zoneBody (rd c.arg 0 1)))

/-- PANEL_PINS (R359): Sets the ALARM_N and FAULT_N masks. -/
def PanelPinsCompletes : Prop :=
  ∀ (t : Nat) (c : Cmd) (s : State),
    (s.atInstant t).admits 0x0A04 c = true →
    (∀ k < 4, rd c.arg (36 * k) 1 ≤ 31) →
    Completes (.panelPins t c) s (fun u => u.answered c stOk [] ∧ u.cfg =
      { s.cfg with pins := ⟨(List.range 4).map (fun k => (rd c.arg (36 * k) 1, rd c.arg (36 * k + 4) 32)), rd c.arg 144 32⟩ } ∧ u.panel.pins =
      u.pinsNow)

/-- PANEL_ZOUT (R360): Sets an analogue zone output. -/
def PanelZoutCompletes : Prop :=
  ∀ (t : Nat) (c : Cmd) (s : State),
    (s.atInstant t).admits 0x0A05 c = true →
    rd c.arg 0 1 ≤ 7 →
    rd c.arg 2 1 ≤ 2 →
    (∀ k < 5, rd c.arg (4 + 2 * k) 2 ≤ 4095) →
    Completes (.panelZout t c) s (fun u => u.answered c stOk [] ∧ u.cfg =
      { s.cfg with zout := s.cfg.zout.set (rd c.arg 0 1) ⟨rd c.arg 1 1, rd c.arg 2 1, (List.range 5).map (fun k => rd c.arg (4 + 2 * k) 2)⟩ } ∧
      u.panel.pins = u.pinsNow)

/-- PANEL_STATUS (R361): Returns pins, VREF_Z and ZSP counters. -/
def PanelStatusCompletes : Prop :=
  ∀ (t : Nat) (c : Cmd) (s : State),
    (s.atInstant t).admits 0x0A06 c = true →
    Completes (.panelStatus t c) s (fun u => u.answered c stOk (s.atInstant t).panelBody ∧ u.panel.reads = (if bit (rd c.arg 0 1) 0 then 0 else
      s.panel.reads) ∧ u.panel.aborted = (if bit (rd c.arg 0 1) 0 then 0 else s.panel.aborted))

/-! #### Bales: streams' bales, profiles, host jobs -/

/-- BALE_RELEASE (R365): A lane finishes a bale, verifies it and releases it. -/
def BaleReleaseCompletes : Prop :=
  ∀ (t lane id : Nat) (j : BaleJob) (p : Profile) (r : List Byte × BaleOut) (s : State),
    s.job? id = some j →
    j.decode = false →
    j.stopped = false →
    j.result = none →
    (s.atInstant t).laneServes lane = true →
    s.profile? j.profile = some p →
    makeBale j.geom p.coding false ((s.atInstant t).jobBale j p).1 j.group j.row j.seq (j.outLen - j.outPos) ((s.atInstant t).jobBale j p).2.1 = some
      r →
    r.2.full = false →
    Completes (.baleRelease t lane false id none false) s (fun u => u.job? id = some
      { j with outPos := j.outPos + r.1.length, produced := j.produced + r.1.length, consumed := j.consumed + r.2.orig.length, seq := (j.seq + 1) % 2 ^ 32, row := j.row + r.2.rowsDone, group := r.2.group, result := if j.row + r.2.rowsDone = j.rows then some stOk else none }
      ∧ u.bale.bales = satAdd s.bale.bales 1 ∧ u.bale.outBytes = (s.bale.outBytes + r.1.length) % 2 ^ 64 ∧ u.bale.inBytes = (s.bale.inBytes +
      r.2.orig.length) % 2 ^ 64)

/-- BALE_NO_SPACE (R381): Output space runs out, the bale is cut and closed and the context suspends. -/
def BaleNoSpaceCompletes : Prop :=
  ∀ (t lane id room : Nat) (fd : Option Nat) (rf : Bool) (j : BaleJob) (p : Profile) (s : State),
    s.job? id = some j →
    j.decode = false →
    j.stopped = false →
    j.result = none →
    (s.atInstant t).laneServes lane = true →
    s.profile? j.profile = some p →
    makeBale j.geom p.coding false ((s.atInstant t).jobBale j p).1 j.group j.row j.seq (j.outLen - j.outPos) ((s.atInstant t).jobBale j p).2.1 = none
      →
    Completes (.baleNoSpace t lane false id ⟨room, fd, rf⟩) s (fun u => u.job? id = some { j with result := some stBaleNoSpace } ∧ u.bale.noSpace =
      satAdd s.bale.noSpace 1 ∧ u.bale.bales = s.bale.bales)

/-- BALE_PROFILE (R385): Defines, replaces or removes a bale profile. -/
def BaleProfileCompletes : Prop :=
  ∀ (t : Nat) (c : Cmd) (s : State),
    (s.atInstant t).admits 0x0B01 c = true →
    rd c.arg 0 1 ≤ 15 →
    bit (rd c.arg 1 1) 0 = false →
    rd c.arg 2 1 ≤ 2 →
    (∀ j < 6, rd c.arg (4 + j) 1 ≤ 2 ∧ rd c.arg (10 + j) 1 ≤ 8) →
    (1 ≤ rd c.arg 16 2 ∧ rd c.arg 16 2 ≤ 4096) →
    Completes (.baleProfile t c) s (fun u => u.answered c stOk [] ∧ u.cfg =
      { s.cfg with profiles := s.cfg.profiles.set (rd c.arg 0 1) (some ⟨⟨rd c.arg 2 1, (List.range 6).map (fun j => rd c.arg (4 + j) 1), (List.range 6).map (fun j => rd c.arg (10 + j) 1)⟩, rd c.arg 16 2⟩) })

/-- BALE_PROFILE (R385): Defines, replaces or removes a bale profile. Here: a removal. -/
def BaleProfileRemoveCompletes : Prop :=
  ∀ (t : Nat) (c : Cmd) (s : State),
    (s.atInstant t).admits 0x0B01 c = true →
    rd c.arg 0 1 ≤ 15 →
    bit (rd c.arg 1 1) 0 = true →
    s.profile? (rd c.arg 0 1) ≠ none →
    s.profileUsed (rd c.arg 0 1) = false →
    Completes (.baleProfile t c) s (fun u => u.answered c stOk [] ∧ u.cfg = { s.cfg with profiles := s.cfg.profiles.set (rd c.arg 0 1) none })

/-- BALE_RUN_ENCODE (R386): Queues a host encode job. -/
def BaleRunEncodeCompletes : Prop :=
  ∀ (t : Nat) (p : Profile) (c : Cmd) (s : State),
    (s.atInstant t).admits 0x0B02 c = true →
    rd c.payload 1 1 = 0 →
    rd c.arg 1 1 = 0 →
    encodeArgsOk c.arg (readBaleJob c 0x0B02) = true →
    rd c.arg 24 8 + rd c.arg 32 4 ≤ jobRegionBytes →
    rd c.arg 40 8 + rd c.arg 48 4 ≤ jobRegionBytes →
    rangesMeet (rd c.arg 24 8) (rd c.arg 32 4) (rd c.arg 40 8) (rd c.arg 48 4) = false →
    s.profile? (rd c.arg 0 1) = some p →
    p.fits 0 (readBaleJob c 0x0B02).geom.types = true →
    s.job? (rd c.arg 2 2) = none →
    s.bale.jobs.length < 16 →
    s.noDram = false →
    (s.atInstant t).anyLane = true →
    Completes (.baleRunEncode t c) s (fun u => u.answered c stPending [] ∧ u.awaits (s.atInstant t) c 0x0B02 [rd c.arg 2 2] none ∧ u.bale =
      { s.bale with jobs := s.bale.jobs ++ [readBaleJob c 0x0B02] })

/-- BALE_RUN_DECODE (R386): Queues a host decode job. -/
def BaleRunDecodeCompletes : Prop :=
  ∀ (t : Nat) (c : Cmd) (s : State),
    (s.atInstant t).admits 0x0B02 c = true →
    rd c.payload 1 1 = 1 →
    rd c.arg 1 1 = 1 →
    zeroAt c.arg 4 20 = true →
    rd c.arg 24 8 + rd c.arg 32 4 ≤ jobRegionBytes →
    rd c.arg 40 8 + rd c.arg 48 4 ≤ jobRegionBytes →
    rangesMeet (rd c.arg 24 8) (rd c.arg 32 4) (rd c.arg 40 8) (rd c.arg 48 4) = false →
    s.job? (rd c.arg 2 2) = none →
    s.bale.jobs.length < 16 →
    s.noDram = false →
    (s.atInstant t).anyLane = true →
    Completes (.baleRunDecode t c) s (fun u => u.answered c stPending [] ∧ u.awaits (s.atInstant t) c 0x0B02 [rd c.arg 2 2] none ∧ u.bale =
      { s.bale with jobs := s.bale.jobs ++ [readBaleJob c 0x0B02] })

/-- BALE_JOB_DONE (R386): A host bale job ends and EV_BALE_DONE reports its status. -/
def BaleJobDoneCompletes : Prop :=
  ∀ (t id st : Nat) (j : BaleJob) (p : Pend) (s : State),
    s.job? id = some j →
    j.result = some st →
    j.stopped = false →
    (st ≠ stBaleCancelled ∧ st ≠ stBaleNoSpace) →
    s.pendOf j.op id = some p →
    (s.atInstant t).canReport = true →
    Completes (.baleJobDone t id) s (fun u => u.bale = { s.bale with jobs := s.bale.jobs.filter (fun x => x.id != id) } ∧ u.pend = strike j.op id
      s.pend ∧ u.reported 0x0B01 srcCompression (u16 id ++ u16 st ++ u32 (satTo 4 j.consumed) ++ u32 (satTo 4 j.produced)))

/-- BALE_JOB_DONE (R386): A host bale job ends and EV_BALE_DONE reports its status. Here: a job that was stopped. -/
def BaleJobStoppedCompletes : Prop :=
  ∀ (t id : Nat) (j : BaleJob) (p : Pend) (s : State),
    s.job? id = some j →
    j.result = some stBaleNoSpace →
    j.stopped = false →
    s.pendOf j.op id = some p →
    (s.atInstant t).canReport = true →
    Completes (.baleJobDone t id) s (fun u => u.job? id = some { j with result := none, stopped := true } ∧ u.pend = strike j.op id s.pend ∧
      u.reported 0x0B01 srcCompression (u16 id ++ u16 stBaleNoSpace ++ u32 (satTo 4 j.consumed) ++ u32 (satTo 4 j.produced)))

/-- BALE_RESUME (R382): Continues a job stopped for space into a new output space. -/
def BaleResumeCompletes : Prop :=
  ∀ (t id : Nat) (j : BaleJob) (c : Cmd) (s : State),
    (s.atInstant t).admits 0x0B03 c = true →
    rd c.arg 0 2 = id →
    s.job? id = some j →
    j.stopped = true →
    rd c.arg 4 8 + rd c.arg 12 4 ≤ jobRegionBytes →
    rangesMeet j.input j.inLen (rd c.arg 4 8) (rd c.arg 12 4) = false →
    s.noDram = false →
    (s.atInstant t).anyLane = true →
    Completes (.baleResume t c) s (fun u => u.answered c stPending [] ∧ u.awaits (s.atInstant t) c 0x0B03 [id] none ∧ u.job? id = some
      { j with stopped := false, out := rd c.arg 4 8, outLen := rd c.arg 12 4, outPos := 0, op := 0x0B03, mb := c.mb, cmdSeq := c.seq })

/-- BALE_CANCEL (R387): Discards a job and its context. -/
def BaleCancelCompletes : Prop :=
  ∀ (t id : Nat) (j : BaleJob) (c : Cmd) (s : State),
    (s.atInstant t).admits 0x0B04 c = true →
    rd c.arg 0 2 = id →
    s.job? id = some j →
    Completes (.baleCancel t c) s (fun u => u.answered c stOk [] ∧ u.job? id = if j.stopped then none else some
      { j with result := if j.result.isSome then j.result else some stBaleCancelled })

/-- BALE_STATUS (R384): Returns lanes, contexts and counters. -/
def BaleStatusCompletes : Prop :=
  ∀ (t : Nat) (c : Cmd) (s : State),
    (s.atInstant t).admits 0x0B05 c = true →
    Completes (.baleStatus t c) s (fun u => u.answered c stOk (s.atInstant t).baleBody ∧ u.bale = if bit (rd c.arg 0 1) 0 then ⟨s.bale.jobs, 0, 0, 0,
      0, 0, 0, 0⟩ else s.bale)

/-! #### DRAM: decoding, remaps, row tests, scrub, refresh -/

/-- DRAM_READ_DECODE (R395): A DRAM block read is decoded, corrected or reported uncorrectable and poisoned. -/
def DramReadDecodeCompletes : Prop :=
  ∀ (t port a : Nat) (s : State),
    a < s.usableBytes →
    s.mem.available = true →
    s.blockLost (a / 64) = false →
    s.blockSt (a / 64) = 0 →
    Completes (.dramReadDecode t port a []) s (fun u => u.out = [Out.busRead (sgetL 0 s.dram (a / 64 * 64) 64) false] ∧ u.dram = s.dram ∧ u.mem.blocks
      = s.mem.blocks)

/-- DRAM_READ_DECODE (R395): A DRAM block read is decoded, corrected or reported uncorrectable and poisoned. Here: a corrected error. -/
def DramReadDecodeCorrectedCompletes : Prop :=
  ∀ (t port a k : Nat) (x : BitVec 8) (s : State),
    a < s.usableBytes →
    s.mem.available = true →
    s.blockLost (a / 64) = false →
    s.blockSt (a / 64) = 0 →
    k < 72 →
    x ≠ 0 →
    (s.channelOf a).1 < s.mem.chans.length →
    (s.atInstant t).canReport = true →
    Completes (.dramReadDecode t port a [(k, x)]) s (fun u => u.out = [Out.busRead (sgetL 0 s.dram (a / 64 * 64) 64) false] ∧ (u.chanOf (s.channelOf
      a).1).corrected = satAdd (s.chanOf (s.channelOf a).1).corrected 1 ∧ u.heard 0x0C01 (srcChannel (s.channelOf a).1) ∧ (s.coordinates (s.channelOf
      a).1 (s.channelOf a).2).1 ∈ u.mem.rowsDue ++ u.mem.remaps.map Remap.at_)

/-- DRAM_READ_DECODE (R395): A DRAM block read is decoded, corrected or reported uncorrectable and poisoned. Here: an uncorrectable error. -/
def DramReadDecodeUncorrectableCompletes : Prop :=
  ∀ (t port a : Nat) (errors : List (Nat × BitVec 8)) (s : State),
    a < s.usableBytes →
    s.mem.available = true →
    s.blockLost (a / 64) = false →
    s.blockSt (a / 64) = 0 →
    errVector errors ≠ errVector poisonPattern →
    (3 ≤ ((errVector errors).filter (fun x => x != 0)).length ∧ ((errVector errors).filter (fun x => x != 0)).length ≤ 6) →
    (s.channelOf a).1 < s.mem.chans.length →
    (s.atInstant t).canReport = true →
    Completes (.dramReadDecode t port a errors) s (fun u => u.out = [Out.busRead (zeros 64) true] ∧ u.blockSt (a / 64) = 1 ∧ (u.chanOf (s.channelOf
      a).1).uncorrectable = satAdd (s.chanOf (s.channelOf a).1).uncorrectable 1 ∧ u.heard 0x0C02 (srcChannel (s.channelOf a).1))

/-- ROW_REMAP (R400): A row with an error is copied to a spare and march-tested. -/
def RowRemapCompletes : Prop :=
  ∀ (t ch rank sub bank row k : Nat) (s : State),
    ⟨ch, rank, sub, bank, row⟩ ∈ s.mem.rowsDue →
    s.freeSpare ch sub = some k →
    Completes (.rowRemap t ch rank sub bank row) s (fun u => u.mem.remaps = s.mem.remaps ++ [⟨k, ⟨ch, rank, sub, bank, row⟩, false, (s.atInstant
      t).now⟩] ∧ u.mem.rowsDue = s.mem.rowsDue.erase ⟨ch, rank, sub, bank, row⟩)

/-- ROW_TEST_DONE (R400): The march test ends and the remap is freed or made permanent with EV_MEM_REMAP. -/
def RowTestDoneCompletes : Prop :=
  ∀ (t ch k : Nat) (r : Remap) (s : State),
    s.mem.remaps.find? (fun r => r.at_.channel == ch && r.spare == k && !r.permanent) = some r →
    (s.atInstant t).rowTransientCount r.at_ < 7 →
    (s.atInstant t).canReport = true →
    Completes (.rowTestDone t ch k true) s (fun u => u.mem.remaps = s.mem.remaps.erase r ∧ u.health.transients = satAdd s.health.transients 1 ∧
      u.heard 0x0C03 (srcChannel ch))

/-- ROW_TEST_DONE (R400): The march test ends and the remap is freed or made permanent with EV_MEM_REMAP. Here: a failing row. -/
def RowTestFailedCompletes : Prop :=
  ∀ (t ch k : Nat) (r : Remap) (s : State),
    s.mem.remaps.find? (fun r => r.at_.channel == ch && r.spare == k && !r.permanent) = some r →
    (s.atInstant t).canReport = true →
    Completes (.rowTestDone t ch k false) s (fun u => u.mem.remaps = s.mem.remaps.map (fun x => if x == r then { x with permanent := true } else x) ∧
      u.health.permanents = satAdd s.health.permanents 1 ∧ u.heard 0x0C03 (srcChannel ch))

/-- SCRUB (R399): The controller scrubs blocks at the maintenance class. -/
def ScrubCompletes : Prop :=
  ∀ (t ch : Nat) (s : State),
    ch ∈ s.channels →
    s.pwr.st < 2 →
    (s.chanOf ch).st = 0 →
    s.mem.available = true →
    ch < s.mem.chans.length →
    Completes (.scrub t ch []) s (fun u => (u.chanOf ch).scrubPos = ((s.chanOf ch).scrubPos + 1) % max 1 (s.usableBytes / s.channels.length / 64) ∧
      u.dram = s.dram)

/-- REFRESH (R407): A per-bank refresh is issued, pulled in to a quiet window or forced at its limit. -/
def RefreshCompletes : Prop :=
  ∀ (t ch bank rate : Nat) (s : State),
    ch ∈ s.channels →
    (s.chanOf ch).st = 0 →
    Completes (.refresh t ch ⟨bank, rate⟩) s (fun u => u.mem =
      { s.mem with chans := upd s.mem.chans ch (fun x => { x with refreshes := upd x.refreshes bank (· + 1), refreshRate := if rate = 1 ∨ rate = 2 ∨ rate = 4 then rate else x.refreshRate }) })

/-! #### DRAM: drift checks, retraining, self-refresh, late requests, lost channels, commands -/

/-- WCK_DRIFT_CHECK (R391): Every 100 ms write timing drift is checked and retrained when needed. -/
def WckDriftCheckCompletes : Prop :=
  ∀ (t ch drift : Nat) (ok : Bool) (s : State),
    ch ∈ s.channels →
    (s.chanOf ch).st = 0 →
    125 < drift →
    Completes (.wckDriftCheck t ch drift ok) s (fun u => u.mem =
      { s.mem with chans := upd s.mem.chans ch (fun x => { x with retrains := satAdd x.retrains 1, retraining := if ok then x.retraining else some (x.retraining.getD (s.atInstant t).now) }) })

/-- SELF_REFRESH_ENTRY (R408): A channel idle for IDLE_SR_US enters self-refresh. -/
def SelfRefreshEntryCompletes : Prop :=
  ∀ (t ch us : Nat) (s : State),
    (s.chanOf ch).srAfter = some us →
    ch ∈ s.channels →
    (s.chanOf ch).st = 0 →
    (s.chanOf ch).lastReq + us * ticksPerUs ≤ max s.now t →
    Completes (.selfRefreshEntry t ch) s (fun u => u.mem =
      { s.mem with chans := upd s.mem.chans ch (fun x => { x with st := 1, srEntries := satAdd x.srEntries 1 }) })

/-- SELF_REFRESH_EXIT (R408): A request to a channel in self-refresh makes it exit. -/
def SelfRefreshExitCompletes : Prop :=
  ∀ (t ch : Nat) (s : State),
    (s.chanOf ch).st = 1 →
    s.pwr.st ≠ 2 →
    Completes (.selfRefreshExit t ch) s (fun u => u.mem =
      { s.mem with chans := upd s.mem.chans ch (fun x => { x with st := 0, srWaits := satAdd x.srWaits 1, lastReq := (s.atInstant t).now, srAfter := if s.cfg.mem.idleSr then some s.cfg.mem.idleSrUs else none }) })

/-- REQUEST_LATE (R403): A request reaching its latency target becomes late and raises EV_MEM_LATENCY. -/
def RequestLateCompletes : Prop :=
  ∀ (t port ch ns : Nat) (s : State),
    port ≤ 4 →
    (s.atInstant t).latencyTarget port ((s.atInstant t).now - ns * ticksPerUs / 1000) ≤ ns →
    (s.atInstant t).canReport = true →
    Completes (.requestLate t port ch ns) s (fun u => u.mem =
      { s.mem with chans := upd s.mem.chans ch (fun x => { x with maxLatency := max x.maxLatency (satTo 4 ns) }), late := upd s.mem.late port (fun n => satAdd n 1) }
      ∧ u.heard 0x0C04 srcDevice)

/-- CHANNEL_LOST (R409): A channel that fails retraining or stops answering is lost. -/
def ChannelLostCompletes : Prop :=
  ∀ (t ch cause : Nat) (s : State),
    ch ∈ s.channels →
    (s.chanOf ch).st ≠ 3 →
    (s.atInstant t).canReport = true →
    Completes (.channelLost t ch cause) s (fun u => u.mem =
      { s.mem with chans := upd s.mem.chans ch (fun x => { x with st := 3, retraining := none }) } ∧ u.reported 0x0C06 (srcChannel ch) (u8 cause))

/-- MEM_CONFIG (R413): Sets channel mask, latency targets, self-refresh and scrub. -/
def MemConfigCompletes : Prop :=
  ∀ (t : Nat) (c : Cmd) (s : State),
    (s.atInstant t).admits 0x0C01 c = true →
    memCfgOk (readMemCfg c.arg) = true →
    ((readMemCfg c.arg).mask = s.cfg.mem.mask ∨ (s.atInstant t).sharesUnder (readMemCfg c.arg).mask = true) →
    Completes (.memConfig t c) s (fun u => u.answered c stOk [] ∧ u.cfg = { s.cfg with mem := readMemCfg c.arg } ∧ u.mem =
      { s.mem with forceFull := bit (rd c.arg 1 1) 1, past := pastPut s.mem.past (s.atInstant t).now ticksPerSecond s.cfg.mem } ∧ u.memMask =
      s.memMask)

/-- MEM_STATUS (R412): Returns channel state and counters. -/
def MemStatusCompletes : Prop :=
  ∀ (t : Nat) (c : Cmd) (s : State),
    (s.atInstant t).admits 0x0C02 c = true →
    Completes (.memStatus t c) s (fun u => u.answered c stOk (s.atInstant t).memBody ∧ u.mem = if bit (rd c.arg 0 1) 0 then
      { s.mem with late := [0, 0, 0, 0, 0], chans := s.mem.chans.map (fun x => { x with corrected := 0, uncorrectable := 0, poisonReads := 0, lostWrites := 0, srEntries := 0, srWaits := 0, retrains := 0, maxLatency := 0 }) }
      else s.mem)

/-- MEM_REMAPS (R412): Returns the remap table of a channel. -/
def MemRemapsCompletes : Prop :=
  ∀ (t : Nat) (c : Cmd) (s : State),
    (s.atInstant t).admits 0x0C03 c = true →
    rd c.arg 0 1 ≤ 3 →
    (1 ≤ rd c.arg 4 2 ∧ rd c.arg 4 2 ≤ 256) →
    rd c.arg 2 2 + rd c.arg 4 2 ≤ 1024 →
    Completes (.memRemaps t c) s (fun u => u.answered c stOk ((List.range (rd c.arg 4 2)).flatMap
      (fun k => match (s.remapsOf (rd c.arg 0 1)).find? (fun r => r.spare == rd c.arg 2 2 + k) with | none => zeros 8 | some r => u8 (if r.permanent then 2 else 1) ++ u8 (r.at_.sub + 2 * r.at_.rank) ++ u16 r.at_.bank ++ u32 r.at_.row))
      ∧ u.mem = s.mem)

/-! #### DMA descriptors, halts, MSI-X messages, stream records, buffers, links -/

/-- DESCRIPTOR_COMPLETE (R421): A descriptor's data is all written and its completion is written back. -/
def DescriptorCompleteCompletes : Prop :=
  ∀ (t i : Nat) (b data : List Byte) (d : Desc) (s : State),
    d = readDesc (s.ctxOf i).fetchAddr b →
    b.length = 32 →
    (s.ctxOf i).configured = true →
    (s.ctxOf i).cfg.kind = 0 →
    (s.ctxOf i).hasWork = true →
    (s.ctxOf i).ended = false →
    ((s.ctxOf i).st ≠ 0 ∧ (s.ctxOf i).st ≠ 4) →
    s.pcie.up = true →
    (s.ctxOf i).skip = false →
    (s.ctxOf i).chainOk d = true →
    (s.ctxOf i).formatOk d = true →
    (s.atInstant t).rangeOk (s.ctxOf i) d = true →
    (s.atInstant t).mayMove i ((s.ctxOf i).destBytes d) = true →
    i < s.ctxs.length →
    Completes (.descriptorComplete t i b data) s (fun u => (u.ctxOf i).doneIdx = (if d.ring then 0 else (d.seq + 1) % 65536) ∧ (u.ctxOf i).doneWrap =
      (if d.ring then !(s.ctxOf i).doneWrap else (s.ctxOf i).doneWrap) ∧ (u.ctxOf i).descriptors = satAdd (s.ctxOf i).descriptors 1 ∧ (u.ctxOf
      i).bytes = ((s.ctxOf i).bytes + (s.ctxOf i).destBytes d) % 2 ^ 64 ∧ u.dram = ((s.atInstant t).dramWrite d.devAddr ((s.ctxOf i).cfg.convert (fit
      d.length data)).1).dram)

/-- DESCRIPTOR_COMPLETE (R421): A descriptor's data is all written and its completion is written back. Here: data to the host. -/
def DescriptorCompleteToHostCompletes : Prop :=
  ∀ (t i : Nat) (b data : List Byte) (d : Desc) (s : State),
    d = readDesc (s.ctxOf i).fetchAddr b →
    b.length = 32 →
    (s.ctxOf i).configured = true →
    (s.ctxOf i).cfg.kind = 1 →
    (s.ctxOf i).cfg.widths = 0 →
    (s.ctxOf i).hasWork = true →
    (s.ctxOf i).ended = false →
    ((s.ctxOf i).st ≠ 0 ∧ (s.ctxOf i).st ≠ 4) →
    s.pcie.up = true →
    (s.ctxOf i).skip = false →
    (s.ctxOf i).chainOk d = true →
    (s.ctxOf i).formatOk d = true →
    (s.atInstant t).rangeOk (s.ctxOf i) d = true →
    (s.atInstant t).mayMove i ((s.ctxOf i).destBytes d) = true →
    (s.dramRead d.devAddr d.length).2 = [] →
    i < s.ctxs.length →
    Completes (.descriptorComplete t i b data) s (fun u => (u.ctxOf i).doneIdx = (if d.ring then 0 else (d.seq + 1) % 65536) ∧ Out.hostWrite
      d.hostAddr (s.dramRead d.devAddr d.length).1 ∈ u.out ∧ u.dram = s.dram)

/-- DMA_HALTED (R426): A failure halts a context and latches its details. -/
def DmaHaltedCompletes : Prop :=
  ∀ (t i cause addr : Nat) (w dev : Bool) (s : State),
    (s.ctxOf i).configured = true →
    ((s.ctxOf i).st ≠ 0 ∧ (s.ctxOf i).st ≠ 4) →
    (s.ctxOf i).hasWork = true →
    (s.ctxOf i).cfg.kind < 3 →
    (3 ≤ cause ∧ cause ≤ 5) →
    (s.atInstant t).canReport = true →
    Completes (.dmaHalted t i cause addr w dev) s (fun u => u.ctxs = upd s.ctxs i (fun c =>
      { c with st := 4, cause := cause, failAddr := addr, failDesc := c.expectSeq, failWrite := false, failDev := false, halts := satAdd c.halts 1 })
      ∧ u.vectors = upd s.vectors (s.ctxOf i).cfg.vector (fun v => { v with causes := v.causes ++ [(s.atInstant t).now], haltPending := true }) ∧
      u.reported 0x0D01 srcDma (u8 i ++ u8 cause ++ u16 (s.ctxOf i).expectSeq ++ u64 addr))

/-- MSIX_MESSAGE (R433): A vector with pending causes sends its message under moderation. -/
def MsixMessageCompletes : Prop :=
  ∀ (t n : Nat) (v : Vector) (s : State),
    s.vectors[n]? = some v →
    n < 64 →
    v.due (s.atInstant t).now = true →
    s.pcie.up = true →
    Completes (.msixMessage t n) s (fun u => u.vectors = upd s.vectors n (fun v =>
      { v with causes := [], haltPending := false, lastSent := some (s.atInstant t).now }) ∧ u.out = [Out.msix n v.addr v.data])

/-- STREAM_RECORD_CLOSE (R437): A stream record closes on ITEMS_MAX, FLUSH_US or stop. -/
def StreamRecordCloseCompletes : Prop :=
  ∀ (t k x : Nat) (i : Item) (rest : List (Nat × Item)) (r : StreamRun) (d : StreamDef) (s : State),
    s.streamRun k = some r →
    s.streamDef k = some d →
    r.waiting = (x, i) :: rest →
    i.lost = none →
    d.profile = 0xFF →
    x + d.flushUs * ticksPerUs ≤ max s.now t →
    rest = [] →
    1 ≤ d.itemsMax →
    Completes (.streamRecordClose t k) s (fun u => u.streamRun k = some
      { r with waiting := [], closed := r.closed ++ [⟨0, recordBytes 0 r.recSeq k d.source i.line i.stamp 1 i.bytes, [(32 + i.bytes.length, i)]⟩], recSeq := (r.recSeq + 1) % 2 ^ 32, lastReady := (s.atInstant t).now })

/-- BUFFER_FLUSH (R438): A kind-2 buffer is completed with FLUSHED when FLUSH_US passes. -/
def BufferFlushCompletes : Prop :=
  ∀ (t i k : Nat) (b : List Byte) (d : Desc) (r : StreamRun) (f : StreamDef) (c : Closed) (s : State),
    d = readDesc (s.ctxOf i).fetchAddr b →
    b.length = 32 →
    (s.ctxOf i).configured = true →
    (s.ctxOf i).cfg.kind = 2 →
    (s.ctxOf i).hasWork = true →
    (s.ctxOf i).ended = false →
    ((s.ctxOf i).st ≠ 0 ∧ (s.ctxOf i).st ≠ 4) →
    s.pcie.up = true →
    (s.ctxOf i).skip = false →
    (s.ctxOf i).chainOk d = true →
    (s.ctxOf i).formatOk d = true →
    (s.ctxOf i).stream = some k →
    s.streamRun k = some r →
    s.streamDef k = some f →
    r.waiting = [] →
    r.closed = [c] →
    r.headOff = 0 →
    (0 < c.bytes.length ∧ c.bytes.length < d.length) →
    r.lastReady + f.flushUs * ticksPerUs ≤ max s.now t →
    (s.atInstant t).mayMove i c.bytes.length = true →
    i < s.ctxs.length →
    Completes (.bufferFlush t i b) s (fun u => (u.ctxOf i).doneIdx = (if d.ring then 0 else (d.seq + 1) % 65536) ∧ Out.hostWrite d.hostAddr c.bytes ∈
      u.out ∧ Out.hostWrite (d.addr + 8) (u32 c.bytes.length ++ u32 5) ∈ u.out ∧ u.streamRun k = some { r with closed := [] })

/-- STREAM_OVERRUN (R440): A source overwrites undelivered items and the stream writes ABORTED cause 0. -/
def StreamOverrunCompletes : Prop :=
  ∀ (t k x : Nat) (i : Item) (r : StreamRun) (d : StreamDef) (s : State),
    s.streamRun k = some r →
    s.streamDef k = some d →
    d.source = 1 →
    r.closed = [] →
    r.waiting = [(x, i)] →
    i.lost = none →
    i.ident < (s.feltOf d.line).oldest →
    (s.atInstant t).canReport = true →
    Completes (.streamOverrun t k) s (fun u => u.streamRun k = some
      { r with waiting := [((s.atInstant t).now, ⟨[], i.stamp, (s.atInstant t).now, i.line, i.ident, some (0, 1, i.stamp)⟩)], baleRow := 0, baleGroup := 0 }
      ∧ u.ctxs = upd s.ctxs r.ctx (fun c => { c with itemsLost := satAdd c.itemsLost 1 }) ∧ u.heard 0x0D03 srcDma)

/-- ETH_LINK_CHANGE (R448): An Ethernet port's link goes up or down. -/
def EthLinkChangeCompletes : Prop :=
  ∀ (t p : Nat) (up : Bool) (s : State),
    p < 2 →
    (s.portRun p).up ≠ up →
    (up = true → (s.portCfg p).enabled = true) →
    (s.atInstant t).canReport = true →
    Completes (.ethLinkChange t p up) s (fun u => u.ports = upd s.ports p (fun x => { x with up := up }) ∧ u.heard 0x0D04 (srcPort p))

/-- ARP_REQUEST (R443): An ARP request for the device's address is answered. -/
def ArpRequestCompletes : Prop :=
  ∀ (t p : Nat) (s : State),
    (s.portCfg p).enabled = true →
    (s.portRun p).up = true →
    (s.portCfg p).ip < 2 ^ 32 →
    Completes (.arpRequest t p (BitVec.ofNat 32 (s.portCfg p).ip)) s (fun u => u.out = [Out.arpReply p (BitVec.ofNat 32 (s.portCfg p).ip)] ∧ u.ports =
      upd s.ports p (fun x => { x with framesRx := satAdd x.framesRx 1, framesTx := satAdd x.framesTx 1 }))

/-! #### DMA and stream commands, event release and the heartbeat -/

/-- DMA_CONFIG (R447): Sets an idle context's kind and parameters. -/
def DmaConfigCompletes : Prop :=
  ∀ (t : Nat) (c : Cmd) (s : State),
    (s.atInstant t).admits 0x0D01 c = true →
    ctxArgsOk (rd c.arg 0 1) c.arg (readCtxCfg c.arg) = true →
    (s.ctxOf (rd c.arg 0 1)).st = 0 →
    (s.ctxOf (rd c.arg 0 1)).stream = none →
    (s.atInstant t).shareSum (rd c.arg 0 1) (readCtxCfg c.arg) ≤ 256 →
    Completes (.dmaConfig t c) s (fun u => u.answered c stOk [] ∧ u.ctxs = upd s.ctxs (rd c.arg 0 1) (fun x =>
      { x with cfg := readCtxCfg c.arg, configured := true, postedIdx := 0, postedWrap := false, doneIdx := 0, doneWrap := false, fetchAddr := (readCtxCfg c.arg).head, expectSeq := 0, ended := false, skip := false, tokens := (readCtxCfg c.arg).burst * tokenByte, tokensAt := (s.atInstant t).now }))

/-- DMA_RESUME (R428): Restarts a halted context in RETRY or SKIP mode. -/
def DmaResumeCompletes : Prop :=
  ∀ (t i : Nat) (c : Cmd) (s : State),
    (s.atInstant t).admits 0x0D02 c = true →
    rd c.arg 0 1 = i →
    rd c.arg 1 1 ≤ 1 →
    (s.ctxOf i).st = 4 →
    (rd c.arg 1 1 = 0 ∨ 3 ≤ (s.ctxOf i).cause) →
    (s.ctxOf i).stream = none →
    Completes (.dmaResume t c) s (fun u => u.answered c stOk [] ∧ u.ctxs = upd ((s.atInstant t).settleBucket i).ctxs i (fun x =>
      { x with st := x.running, cause := 0, skip := rd c.arg 1 1 == 1 }))

/-- DMA_ABORT (R429): Returns a context to idle. -/
def DmaAbortCompletes : Prop :=
  ∀ (t i : Nat) (c : Cmd) (s : State),
    (s.atInstant t).admits 0x0D03 c = true →
    rd c.arg 0 1 = i →
    (s.ctxOf i).st ≠ 0 →
    (s.ctxOf i).stream = none →
    Completes (.dmaAbort t c) s (fun u => u.answered c stOk [] ∧ u.ctxs = upd s.ctxs i (fun x =>
      { x with st := 0, cause := 0, postedIdx := 0, postedWrap := false, doneIdx := 0, doneWrap := false, stream := none, fetchAddr := x.cfg.head, expectSeq := 0, ended := false, skip := false }))

/-- DMA_LINK (R446): Sets the PCIe completion timeout. -/
def DmaLinkCompletes : Prop :=
  ∀ (t : Nat) (c : Cmd) (s : State),
    (s.atInstant t).admits 0x0D04 c = true →
    (1 ≤ rd c.arg 0 4 ∧ rd c.arg 0 4 ≤ 64000) →
    Completes (.dmaLink t c) s (fun u => u.answered c stOk [] ∧ u.cfg = { s.cfg with cplTimeout := rd c.arg 0 4 })

/-- DMA_PORT (R448): Configures an Ethernet port. -/
def DmaPortCompletes : Prop :=
  ∀ (t n : Nat) (c : Cmd) (s : State),
    (s.atInstant t).admits 0x0D05 c = true →
    rd c.arg 0 1 = n →
    n ≤ 1 →
    (readPortCfg c.arg).fec ≤ 2 →
    (1500 ≤ (readPortCfg c.arg).mtu ∧ (readPortCfg c.arg).mtu ≤ 9000) →
    (s.cfg.tb.ptpPort ≠ n ∨ (s.portCfg n).enabled = false ∨ (readPortCfg c.arg).enabled = true) →
    Completes (.dmaPort t c) s (fun u => u.answered c stOk [] ∧ u.cfg = { s.cfg with ports := s.cfg.ports.set n (readPortCfg c.arg) })

/-- STREAM_DEFINE (R446): Defines or removes a stream. -/
def StreamDefineCompletes : Prop :=
  ∀ (t : Nat) (c : Cmd) (s : State),
    (s.atInstant t).admits 0x0D06 c = true →
    rd c.arg 1 1 ≤ 5 →
    (rd c.arg 1 1 = 0 ∨ 4 ≤ rd c.arg 1 1 ∨ (s.atInstant t).lineEnabled (rd c.arg 2 1) = true) →
    (rd c.arg 1 1 = 1 → rd c.arg 3 1 < 16) →
    rd c.arg 4 1 = 0xFF →
    (rd c.arg 5 1 = 0 ∨ rd c.arg 1 1 = 4) →
    (1 ≤ rd c.arg 6 2 ∧ rd c.arg 6 2 ≤ 1024) →
    (10 ≤ rd c.arg 8 4 ∧ rd c.arg 8 4 ≤ 1000000) →
    s.streamRun (rd c.arg 0 1) = none →
    Completes (.streamDefine t c) s (fun u => u.answered c stOk [] ∧ u.cfg =
      { s.cfg with streams := s.cfg.streams.set (rd c.arg 0 1) (some ⟨rd c.arg 1 1, rd c.arg 2 1, rd c.arg 3 1, 0xFF, rd c.arg 5 1, rd c.arg 6 2, rd c.arg 8 4⟩) })

/-- STREAM_ATTACH (R436): Attaches a stream to a context. -/
def StreamAttachCompletes : Prop :=
  ∀ (t k i : Nat) (d : StreamDef) (c : Cmd) (s : State),
    (s.atInstant t).admits 0x0D07 c = true →
    rd c.arg 0 1 = k →
    rd c.arg 1 1 = i →
    s.streamDef k = some d →
    d.profile = 0xFF →
    d.source = 5 →
    (s.ctxOf i).st = 0 →
    (s.ctxOf i).configured = true →
    ((s.ctxOf i).cfg.kind = 2 ∨ (s.ctxOf i).cfg.kind = 3) →
    i ≠ 0 →
    (∀ j < 256, s.streamRun j = none) →
    Completes (.streamAttach t c) s (fun u => u.answered c stOk [] ∧ u.streams = s.streams.set k (some ⟨i, 0, 0, [], [], 0, (s.atInstant t).now, none,
      false, 0, 0, 0, 0, false⟩) ∧ u.ctxs = upd s.ctxs i (fun x => { x with stream := some k, st := x.running }))

/-- STREAM_DETACH (R442): Detaches a stream, drain or immediate. -/
def StreamDetachCompletes : Prop :=
  ∀ (t k : Nat) (r : StreamRun) (c : Cmd) (s : State),
    (s.atInstant t).admits 0x0D08 c = true →
    rd c.arg 0 1 = k →
    rd c.arg 1 1 = 0 →
    (s.atInstant t).pendOf 0x0D08 k = none →
    s.streamRun k = some r →
    Completes (.streamDetach t c) s (fun u => u.answered c stPending [] ∧ u.awaits (s.atInstant t) c 0x0D08 [k] none ∧ u.streamRun k = some
      { r with detach := some 0 } ∧ u.ctxs = upd s.ctxs r.ctx (fun x => { x with st := if x.st = 4 then 4 else 5 }))

/-- STREAM_DETACHED (R442): The detach completes with an END record and EV_STREAM_DETACHED. -/
def StreamDetachedCompletes : Prop :=
  ∀ (t k mode : Nat) (r : StreamRun) (p : Pend) (s : State),
    s.streamRun k = some r →
    r.detach = some mode →
    r.ended = true →
    (r.closed = [] ∧ r.waiting = []) →
    s.pendOf 0x0D08 k = some p →
    s.pwr.pend = none →
    s.sys.shutdown = none →
    (s.atInstant t).canReport = true →
    Completes (.streamDetached t k) s (fun u => u.streams = s.streams.set k none ∧ u.ctxs = upd s.ctxs r.ctx (fun x =>
      { x with st := 0, stream := none }) ∧ u.pend = strike 0x0D08 k s.pend ∧ u.reported 0x0D02 srcDma (u8 k ++ u8 r.ctx ++ u8 mode ++ u32 (satTo 4
      r.discarded)))

/-- DMA_STATUS (R446): Returns a context's or port's state and counters. -/
def DmaStatusCompletes : Prop :=
  ∀ (t : Nat) (c : Cmd) (s : State),
    (s.atInstant t).admits 0x0D09 c = true →
    rd c.arg 0 2 < 256 →
    Completes (.dmaStatus t c) s (fun u => u.answered c stOk ((s.atInstant t).ctxBody (rd c.arg 0 2)) ∧ u.ctxs = if bit (rd c.arg 2 1) 0 then upd
      s.ctxs (rd c.arg 0 2) (fun x =>
      { x with bytes := 0, descriptors := 0, halts := 0, records := 0, aborted := 0, itemsLost := 0, narrowed := 0, poisoned := 0 }) else s.ctxs)

/-- EVENT_RELEASE (R465): An event record whose instant is HOLD_MS past is released to ctx 0. -/
def EventReleaseCompletes : Prop :=
  ∀ (t k : Nat) (r : EvRec) (rest : List EvRec) (q : StreamRun) (d : StreamDef) (s : State),
    s.ev.held = r :: rest →
    s.eventsFlow = true →
    (s.ctxOf 0).stream = some k →
    s.streamRun k = some q →
    s.streamDef k = some d →
    d.source = 0 →
    r.due ≤ max s.now t →
    s.ev.lost = [0, 0, 0, 0] →
    s.log.droppedPending = 0 →
    Completes (.eventRelease t) s (fun u => u.ev.held = rest ∧ u.ev.lastReleased = some (max r.inst (s.ev.lastReleased.getD 0)) ∧ u.streamRun k = some
      { q with waiting := q.waiting ++ [((s.atInstant t).now, ⟨evBytes r, r.stamp, r.inst, 0xFF, 0, none⟩)] })

/-- HEARTBEAT_TICK (R468): HEARTBEAT advances every 1 ms while the firmware runs. -/
def HeartbeatTickCompletes : Prop :=
  ∀ (t : Nat) (s : State),
    s.cpcRuns = true →
    Completes (.heartbeatTick t) s (fun u => u.sys = { s.sys with heartbeat := (s.sys.heartbeat + 1) % 2 ^ 32 })

/-! #### Mailboxes, doorbells, frames and the DRAM window -/

/-- MB_DOORBELL (R451): A write of GO to a mailbox control block on an idle or done mailbox makes the device fetch, validate and execute the command
and write the response. -/
def MbDoorbellCompletes : Prop :=
  ∀ (t n : Nat) (fetched : List Byte) (facts : Facts) (c : Cmd) (s : State),
    c = (readCmd n none ((s.mbOf n).commandBytes fetched) facts).2 →
    (readCmd n none ((s.mbOf n).commandBytes fetched) facts).1 = 0x0101 →
    (s.atInstant t).admits 0x0101 c = true →
    n < 8 →
    Completes (.mbDoorbell t n fetched facts) s (fun u => u.answered c stOk (sysIdentify c (s.atInstant t)).1.body)

/-- HELD_DOORBELL_RUNS (R452): A doorbell held while the mailbox was not ready runs its command once the device becomes ready. -/
def HeldDoorbellRunsCompletes : Prop :=
  ∀ (t n : Nat) (fetched : List Byte) (facts : Facts) (c : Cmd) (s : State),
    c = (readCmd n none ((s.mbOf n).commandBytes fetched) facts).2 →
    (readCmd n none ((s.mbOf n).commandBytes fetched) facts).1 = 0x0101 →
    precheck 0x0101 c (s.atInstant t) = none →
    n < 8 →
    s.mbs.length = 8 →
    (s.mbOf n).held = true →
    (s.mbOf n).st ≠ 3 →
    (s.mbOf n).lastSeq = none →
    s.dbg.cpcHalted = false →
    Completes (.heldDoorbellRuns t n fetched facts) s (fun u => u.answered c stOk (sysIdentify c (s.atInstant t)).1.body ∧ (u.mbOf n).held = false)

/-- MB_DONE_CLEAR (R450): A write of one to the RW1C DONE bit of a mailbox control block clears it. -/
def MbDoneClearCompletes : Prop :=
  ∀ (t n : Nat) (s : State),
    Completes (.mbDoneClear t n) s (fun u => u.mbs = upd s.mbs n (fun m => { m with done := false }))

/-- ETH_MAILBOX_FRAME (R445): A mailbox frame received on CMD_UDP is authenticated, decrypted and run as a command of its mailbox, or discarded and
counted. -/
def EthMailboxFrameCompletes : Prop :=
  ∀ (t p : Nat) (f : List Byte) (plain : List Byte) (facts : Facts) (c : Cmd) (s : State),
    c = (readCmd (rd f 5 1) (some (p, 0)) plain facts).2 →
    (readCmd (rd f 5 1) (some (p, 0)) plain facts).1 = 0x0101 →
    ((s.portCfg p).enabled = true ∧ (s.portRun p).up = true ∧ p < 2) →
    (rd f 0 4 = 0x464D4244 ∧ rd f 4 1 = 1 ∧ rd f 5 1 ≤ 7 ∧ rd f 6 2 = plain.length ∧ f.length = 36 + plain.length ∧ 32 ≤ plain.length) →
    rd f 8 4 = 0 →
    s.session? 0 = none →
    precheck 0x0101 c (s.atInstant t) = none →
    ((s.mbOf c.mb).st ≠ 3 ∧ (s.mbOf c.mb).st ≠ 1) →
    (s.mbOf c.mb).lastSeq = none →
    s.dbg.cpcHalted = false →
    Completes (.ethMailboxFrame t p f true plain facts) s (fun u => Out.ethFrame p 0 0 (respBytes c.seq ⟨stOk, none, (sysIdentify c (s.atInstant
      t)).1.body⟩ ((s.atInstant t).devStamp (s.atInstant t).now)) ∈ u.out)

/-- CONTEXT_DOORBELL (R416): A host write to a context's POSTED register posts descriptors and lets the context process them. -/
def ContextDoorbellCompletes : Prop :=
  ∀ (t i : Nat) (v : BitVec 32) (s : State),
    i < s.ctxs.length →
    Completes (.contextDoorbell t i v) s (fun u => (u.ctxOf i).postedIdx = v.toNat % 65536 ∧ (u.ctxOf i).postedWrap = bit v.toNat 16)

/-- CONTEXT_DOORBELL (R416): A host write to a context's POSTED register posts descriptors and lets the context process them. Here: an idle context
starts. -/
def ContextDoorbellStartsCompletes : Prop :=
  ∀ (t i : Nat) (v : BitVec 32) (s : State),
    i < s.ctxs.length →
    (s.ctxOf i).configured = true →
    (s.ctxOf i).cfg.kind < 2 →
    (s.ctxOf i).st = 0 →
    (s.ctxOf i).ended = false →
    ({ s.ctxOf i with postedIdx := v.toNat % 65536, postedWrap := bit v.toNat 16 } : Ctx).hasWork = true →
    Completes (.contextDoorbell t i v) s (fun u => (u.ctxOf i).st = 1)

/-- WIN_BASE_WRITE (R434): A write to WIN_BASE moves the BAR2 DRAM window for later accesses. -/
def WinBaseWriteCompletes : Prop :=
  ∀ (t : Nat) (v : BitVec 64) (s : State),
    Completes (.winBaseWrite t v) s (fun u => u.pcie = { s.pcie with winBase := v.toNat / 2097152 * 2097152 })

/-- BAR2_WINDOW_READ (R434): A host read through BAR2 returns DRAM data, zeros for private or out-of-range pages, or a poisoned completion. -/
def Bar2WindowReadCompletes : Prop :=
  ∀ (t off n : Nat) (s : State),
    s.mem.available = true →
    (s.atInstant t).deniedRead (s.pcie.winBase + off) n = false →
    (s.dramRead (s.pcie.winBase + off) n).2 = [] →
    Completes (.bar2WindowRead t off n) s (fun u => Out.busRead ((List.range n).map (fun i => nth (s.dramRead (s.pcie.winBase + off + i) 1).1 0 0))
      false ∈ u.out ∧ u.pcie = s.pcie ∧ u.dram = s.dram)

/-- BAR2_WINDOW_READ (R434): A host read through BAR2 returns DRAM data, zeros for private or out-of-range pages, or a poisoned completion. Here: an
address that is not served. -/
def Bar2WindowReadDeniedCompletes : Prop :=
  ∀ (t off n : Nat) (s : State),
    s.mem.available = true →
    0 < n →
    (s.atInstant t).usableBytes ≤ s.pcie.winBase + off →
    Completes (.bar2WindowRead t off n) s (fun u => u.pcie = { s.pcie with winDenied := satAdd s.pcie.winDenied 1 } ∧ u.dram = s.dram ∧ u.out =
      Out.busRead (zeros n) false :: (s.atInstant t).out)

/-- BAR2_WINDOW_WRITE (R434): A host write through BAR2 lands in the job region or is discarded and counted in WIN_DENIED. -/
def Bar2WindowWriteCompletes : Prop :=
  ∀ (t off : Nat) (data : List Byte) (s : State),
    s.mem.available = true →
    jobRegionBase ≤ s.pcie.winBase + off →
    s.pcie.winBase + off + data.length ≤ jobRegionEnd →
    Completes (.bar2WindowWrite t off data) s (fun u => u.dram = ((s.atInstant t).dramWrite (s.pcie.winBase + off) data).dram ∧ u.pcie = s.pcie)

/-- BAR2_WINDOW_WRITE (R434): A host write through BAR2 lands in the job region or is discarded and counted in WIN_DENIED. Here: outside the job
region. -/
def Bar2WindowWriteDeniedCompletes : Prop :=
  ∀ (t off : Nat) (data : List Byte) (s : State),
    s.pcie.winBase + off < jobRegionBase →
    Completes (.bar2WindowWrite t off data) s (fun u => u.dram = s.dram ∧ u.pcie = { s.pcie with winDenied := satAdd s.pcie.winDenied 1 })

/-! #### The debug window, registers, the zone status port and the SMBus target -/

/-- DEBUG_WINDOW_ACCESS (R502): A host access to the debug window is served according to the open debug level. Here: a read. -/
def DebugWindowReadCompletes : Prop :=
  ∀ (t o : Nat) (data : List Byte) (s : State),
    Completes (.debugWindowAccess t o false data) s (fun u => Out.busRead ((List.range data.length).map (fun i => (s.atInstant t).debugByte (o + i)))
      false ∈ u.out ∧ u.dbg = s.dbg ∧ u.dram = s.dram)

/-- DEBUG_WINDOW_ACCESS (R502): A host access to the debug window is served according to the open debug level. Here: a read of DBG_STATE. -/
def DebugWindowStateCompletes : Prop :=
  ∀ (t : Nat) (s : State),
    Completes (.debugWindowAccess t 0 false (zeros 4)) s (fun u => Out.busRead (u32 (s.atInstant t).dbgState) false ∈ u.out)

/-- DEBUG_WINDOW_ACCESS (R502): A host access to the debug window is served according to the open debug level. Here: a write to CPC memory. -/
def DebugWindowWriteCompletes : Prop :=
  ∀ (t o : Nat) (v : Byte) (s : State),
    2 ≤ s.dbg.level →
    s.dbg.cpcHalted = true →
    (0x100000 ≤ o ∧ o < 0x200000) →
    Completes (.debugWindowAccess t o true [v]) s (fun u => u.dbg =
      { s.dbg with cpcMem := s.dbg.cpcMem.filter (fun e => e.1 != o - 0x100000) ++ [(o - 0x100000, v)] })

/-- REGISTER_WRITE (R416): A host write to a register with no behaviour of its own, such as an MSI-X moderation register, updates it. -/
def RegisterWriteCompletes : Prop :=
  ∀ (t n : Nat) (b0 b1 b2 b4 b5 : Byte) (v : Vector) (s : State),
    n < 64 →
    s.vectors[n]? = some v →
    (v.maxDelay < 1024 ∧ v.minGap < 1024) →
    Completes (.registerWrite t (0x202000 + 8 * n) [b0, b1, b2, 0, b4, b5, 0, 0]) s (fun u => u.vectors[n]? = some
      { v with maxDelay := b0.toNat + 256 * (b1 &&& 3).toNat, count := b2.toNat, minGap := b4.toNat + 256 * (b5 &&& 3).toNat })

/-- ZSP_TRANSACTION (R356): A panel transaction on the zone status port latches and returns a zone word with parity, or is abandoned and counted. -/
def ZspTransactionCompletes : Prop :=
  ∀ (t zone edges : Nat) (s : State),
    24 ≤ edges →
    Completes (.zspTransaction t zone edges) s (fun u => Out.zspBits (zspBits ((s.atInstant t).zoneOf (zone % 256)).word ++ List.replicate (edges -
      24) false) ∈ u.out ∧ u.panel.reads = satAdd s.panel.reads 1 ∧ u.panel.aborted = s.panel.aborted)

/-- ZSP_TRANSACTION (R356): A panel transaction on the zone status port latches and returns a zone word with parity, or is abandoned and counted.
Here: an abandoned transaction. -/
def ZspTransactionAbandonedCompletes : Prop :=
  ∀ (t zone edges : Nat) (s : State),
    edges < 24 →
    (s.atInstant t).canReport = true →
    Completes (.zspTransaction t zone edges) s (fun u => u.panel.aborted = satAdd s.panel.aborted 1 ∧ u.panel.reads = s.panel.reads ∧ u.heard 0x0A03
      srcDevice)

/-- SMB_LTUNE_WRITE (R554): An SMBus Write Word to LTUNE0 or LTUNE1 sets the laser tuning output code. -/
def SmbLtuneWriteCompletes : Prop :=
  ∀ (t reg : Nat) (code : BitVec 16) (s : State),
    s.pwr.railsUp = true →
    (reg = 5 ∨ reg = 6) →
    Completes (.smbLtuneWrite t reg code) s (fun u => u.ltune = s.ltune.set (reg - 5) code)

/-- SMB_ALERT_RESPONSE (R563): A read of the Alert Response Address answers and releases SMB_ALERT_N until the condition next begins. -/
def SmbAlertResponseCompletes : Prop :=
  ∀ (t : Nat) (s : State),
    s.health.smbAlert = true →
    s.health.alertCond = true →
    Completes (.smbAlertResponse t) s (fun u => Out.smbAlert s.build.smbAddr ∈ u.out ∧ u.health.smbAlert = false)

/-! #### Identity, snapshots, restore, shutdown, reset, time and status -/

/-- SYS_IDENTIFY (R468): Returns identity, versions, restore source and state. -/
def SysIdentifyCompletes : Prop :=
  ∀ (t : Nat) (c : Cmd) (s : State),
    (s.atInstant t).admits 0x0101 c = true →
    Completes (.sysIdentify t c) s (fun u => u.answered c stOk ((s.atInstant t).identityBytes ++ fit 16 s.build.serial ++ (List.range 2).flatMap (fun
      n => u32 (if (nth s.sec.fw n default).loaded then (nth s.sec.fw n default).version else 0)) ++ u8 s.sec.running ++ u8 s.sys.restoreSource ++ u16
      s.cfg.trail.nodeId ++ u64 s.sys.generation ++ u32 s.build.installedMib ++ u32 s.build.norMib ++ u8 s.sys.cause ++ zeros 3) ∧ u.sys = s.sys ∧
      u.cfg = s.cfg)

/-- SYS_SNAPSHOT (R476): Captures the settings in force and starts committing them to the older configuration bank. -/
def SysSnapshotCompletes : Prop :=
  ∀ (t : Nat) (c : Cmd) (s : State),
    (s.atInstant t).admits 0x0102 c = true →
    (bit (rd c.arg 0 2) 1 = true → 1 ≤ rd c.arg 2 2 ∧ rd c.arg 2 2 ≤ 3600) →
    s.sys.snapshot = none →
    Completes (.sysSnapshot t c) s (fun u => u.answered c stPending [] ∧ u.awaits (s.atInstant t) c 0x0102 [0] none ∧ u.sys.snapshot = some
      ⟨(s.atInstant t).snapshotBank, (s.atInstant t).capture (rd c.arg 0 2) (rd c.arg 2 2) (maskOf (s.atInstant t).runningLines), c.mb, c.seq, false⟩
      ∧ u.sys.banks = upd s.sys.banks (s.atInstant t).snapshotBank (fun b => { b with valid := false }) ∧ u.cfg = s.cfg)

/-- SNAPSHOT_COMMITTED (R471): The bank write and read-back finish and EV_APPLIED reports ST_OK or ST_NOR_FAIL. -/
def SnapshotCommittedCompletes : Prop :=
  ∀ (t : Nat) (ok : Bool) (p : SnapPend) (q : Pend) (s : State),
    s.sys.snapshot = some p →
    p.shutdown = false →
    (s.atInstant t).norHeld = false →
    s.pendOp 0x0102 = some q →
    q.mb ≠ ownMb →
    (s.atInstant t).canReport = true →
    Completes (.snapshotCommitted t ok) s (fun u => u.sys.snapshot = none ∧ u.sys.banks = (if ok then s.sys.banks.set p.bank p.content else
      s.sys.banks) ∧ u.reported 0x0101 srcDevice (u16 q.op ++ u8 q.mb ++ u16 q.seq ++ u16 (if ok then stOk else stNorFail)) ∧ u.cfg = s.cfg)

/-- SYS_RESTORE (R477): Schedules a core reset followed by a restore from the named source. -/
def SysRestoreCompletes : Prop :=
  ∀ (t : Nat) (c : Cmd) (s : State),
    (s.atInstant t).admits 0x0103 c = true →
    (rd c.arg 0 1 = 0 ∨ rd c.arg 0 1 = 3) →
    s.sys.snapshot = none →
    Completes (.sysRestore t c) s (fun u => u.answered c stOk [] ∧ u.sys.resetPend = some ⟨false, (s.atInstant t).now + ticksPerMs, 3, some (rd c.arg
      0 1), none, bit (rd c.arg 1 1) 0⟩ ∧ u.cfg = s.cfg)

/-- SYS_RESTORE (R477): Schedules a core reset followed by a restore from the named source. Here: a named bank. -/
def SysRestoreBankCompletes : Prop :=
  ∀ (t : Nat) (c : Cmd) (s : State),
    (s.atInstant t).admits 0x0103 c = true →
    (rd c.arg 0 1 = 1 ∨ rd c.arg 0 1 = 2) →
    s.sys.snapshot = none →
    Completes (.sysRestore t c) s (fun u => u.answered c (if (s.bankOf (rd c.arg 0 1 - 1)).valid then stOk else stBankInvalid) [] ∧ u.sys.resetPend =
      if (s.bankOf (rd c.arg 0 1 - 1)).valid then some ⟨false, (s.atInstant t).now + ticksPerMs, 3, some (rd c.arg 0 1), none, bit (rd c.arg 1 1) 0⟩
      else s.sys.resetPend)

/-- SYS_SHUTDOWN (R478): Starts the orderly shutdown: stops lines, raw sets and streams, optionally snapshots, self-tests and enters P3. -/
def SysShutdownCompletes : Prop :=
  ∀ (t : Nat) (c : Cmd) (s : State),
    (s.atInstant t).admits 0x0104 c = true →
    rd c.arg 0 1 ≤ 1 →
    s.sys.snapshot = none →
    s.lines.length = 16 →
    (∃ l < 16, (s.lineOf l).st = 2) →
    Completes (.sysShutdown t c) s (fun u => u.answered c stPending [] ∧ u.sys.bootState = 5 ∧ u.sys.shutdown = some
      { mode := rd c.arg 0 1, flags := rd c.arg 1 1, mb := c.mb, seq := c.seq, norFailed := false, stage := 0, running := maskOf (s.atInstant t).runningLines }
      ∧ ∀ l < 16, (s.lineOf l).st = 2 → (u.lineOf l).st = 3)

/-- SHUTDOWN_COMPLETE (R478): After its stops, snapshot and self-test the shutdown raises EV_APPLIED, drains ctx 0, sets BOOT_STATE 6 and enters P3.
-/
def ShutdownCompleteCompletes : Prop :=
  ∀ (t : Nat) (d : Shutdown) (s : State),
    s.sys.shutdown = some d →
    d.stage = 4 →
    (s.atInstant t).ctx0Drained true = true →
    (s.atInstant t).canReport = true →
    Completes (.shutdownComplete t) s (fun u => u.sys.bootState = 6 ∧ u.pwr.st = 3 ∧ u.sec.sessions = [] ∧ u.mem.available = false ∧ u.sys.banks =
      s.sys.banks)

/-- SYS_RESET (R479): Schedules a core or full reset of the device. -/
def SysResetCompletes : Prop :=
  ∀ (t : Nat) (c : Cmd) (s : State),
    (s.atInstant t).admits 0x0105 c = true →
    rd c.arg 0 1 ≤ 1 →
    Completes (.sysReset t c) s (fun u => u.answered c stOk [] ∧ u.sys.resetPend = some ⟨rd c.arg 0 1 == 1, (s.atInstant t).now + ticksPerMs, 1 + rd
      c.arg 0 1, none, some (bit (rd c.arg 1 1) 0), bit (rd c.arg 1 1) 1⟩ ∧ u.cfg = s.cfg)

/-- RESET_BEGINS (R479): At least 1 ms after the response of sys.reset or sys.restore the core or full reset takes place. -/
def ResetBeginsCompletes : Prop :=
  ∀ (t : Nat) (p : ResetPend) (s : State),
    s.sys.resetPend = some p →
    p.notBefore ≤ (s.atInstant t).now →
    Completes (.resetBegins t) s (fun u => u.sys.bootState = 0 ∧ u.pwr.inReset = true ∧ u.sys.cause = p.cause ∧ u.sys.restoreFrom = p.source ∧
      u.sys.resetPend = none ∧ u.sec.sessions = [] ∧ u.dbg.level = 0 ∧ u.sys.boot = s.sys.boot ∧ u.ltune = s.ltune ∧ u.pcie = if p.full then
      Pcie.reset else { s.pcie with winBase := 0, winDenied := 0 })

/-- SYS_TIME_READ (R480): Returns a second-relative stamp of the validation instant. -/
def SysTimeReadCompletes : Prop :=
  ∀ (t : Nat) (c : Cmd) (s : State),
    (s.atInstant t).admits 0x0106 (asForm c 0 0 [1]) = true →
    rd (asForm c 0 0 [1]).arg 0 1 = 0 →
    rd (asForm c 0 0 [1]).arg 4 8 = 0 →
    Completes (.sysTimeRead t c) s (fun u => u.answered c stOk (stampBytes ((s.atInstant t).devStamp (s.atInstant t).now)) ∧ u.tb = (s.atInstant
      t).tb)

/-- SYS_TIME_SET (R480): Names the second number for the first second boundary at least 100 ms later. -/
def SysTimeSetCompletes : Prop :=
  ∀ (t : Nat) (c : Cmd) (s : State),
    (s.atInstant t).admits 0x0106 (asForm c 0 1 [0]) = true →
    rd (asForm c 0 1 [0]).arg 0 1 = 1 →
    rd (asForm c 0 1 [0]).arg 4 8 < 2 ^ 40 →
    s.tb.pendSet = none →
    (s.cfg.tb.source = 0 ∨ s.cfg.tb.source = 2) →
    Completes (.sysTimeSet t c) s (fun u => u.answered c stPending [] ∧ u.awaits (s.atInstant t) (asForm c 0 1 [0]) 0x0106 [0] none ∧ u.tb =
      { (s.atInstant t).tb with pendSet := some ⟨rd (asForm c 0 1 [0]).arg 4 8, (s.atInstant t).now + 100 * ticksPerMs⟩ })

/-- SYS_TIME_SET_BOUNDARY (R480): At the named boundary SECOND is stepped when it differs and the set counts towards setting the time base. -/
def SysTimeSetBoundaryCompletes : Prop :=
  ∀ (t b v : Nat) (p : PendSet) (c : Pend) (s : State),
    s.tb.pendSet = some p →
    s.pendOp 0x0106 = some c →
    c.mb ≠ ownMb →
    (s.atInstant t).namedBoundary p = some b →
    (s.atInstant t).secondAt b = (v, 0) →
    (s.atInstant t).canReport = true →
    Completes (.sysTimeSetBoundary t) s (fun u => u.tb.pendSet = none ∧ u.tb.secondFixed = true ∧ (v ≠ p.second → u.tb.secVal = p.second ∧
      u.tb.secTick = b) ∧ u.reported 0x0101 srcDevice (u16 c.op ++ u8 c.mb ++ u16 c.seq ++ u16 stOk))

/-- SYS_STATUS (R475): Returns mailbox and event-queue counters, optionally clearing them. -/
def SysStatusCompletes : Prop :=
  ∀ (t : Nat) (c : Cmd) (s : State),
    (s.atInstant t).admits 0x0107 c = true →
    Completes (.sysStatus t c) s (fun u => u.answered c stOk ((s.mbs.flatMap (fun m => u32 m.ignored)) ++ u32 s.sys.stale ++ u32 s.sys.duplicates ++
      u16 s.hostPending.length ++ u16 s.ev.held.length ++ u32 s.ev.eventsLost ++ u32 s.ev.late) ∧ u.sys = if bit (rd c.arg 0 1) 0 then
      { s.sys with stale := 0, duplicates := 0 } else s.sys)

/-- SYS_EVENTS (R465): Sets the event hold HOLD_MS. -/
def SysEventsCompletes : Prop :=
  ∀ (t : Nat) (c : Cmd) (s : State),
    (s.atInstant t).admits 0x0108 c = true →
    (1 ≤ rd c.arg 0 2 ∧ rd c.arg 0 2 ≤ 1000) →
    Completes (.sysEvents t c) s (fun u => u.answered c stOk [] ∧ u.cfg = { s.cfg with holdMs := rd c.arg 0 2 })

/-! #### Supplies, reset, boot and restore -/

/-- PWR_WARN_RISE (R531): A qualified PWR_WARN suspends NOR operations and programs the power-loss record. -/
def PwrWarnRiseCompletes : Prop :=
  ∀ (t : Nat) (s : State),
    s.warn.level = false →
    s.pwr.railsUp = true →
    Completes (.pwrWarnRise t) s (fun u => u.warn =
      { s.warn with level := true, since := (s.atInstant t).now, clearSince := none, losses := s.warn.losses ++ [⟨(s.atInstant t).devStamp (s.atInstant t).now, s.sys.boot.bootCount, s.interrupted, s.log.droppedPending, true, false⟩], withheld := u.warn.withheld })

/-- PWR_WARN_CLEAR (R532): PWR_WARN low for 10 ms with rails valid clears the record and resumes NOR operations. -/
def PwrWarnClearCompletes : Prop :=
  ∀ (t : Nat) (s : State),
    s.warn.level = true →
    s.pwr.railsUp = true →
    s.warn.withheld = [] →
    (s.atInstant t).canReport = true →
    Completes (.pwrWarnClear t) s (fun u => u.warn.level = false ∧ u.warn.losses = clearNewest s.warn.losses ∧ u.reported 0x0F0A srcDevice (u32 (satTo
      4 (((s.atInstant t).now - s.warn.since) / ticksPerMs))))

/-- POWER_LOSS (R533): Supply rails fall and the device loses its volatile state. -/
def PowerLossCompletes : Prop :=
  ∀ (t : Nat) (s : State),
    Completes (.powerLoss t) s (fun u => u.pwr.railsUp = false ∧ u.pwr.inReset = true ∧ u.sys.bootState = 0 ∧ u.sec.sessions = [] ∧ u.dbg.level = 0 ∧
      u.sec.owners = s.sec.owners ∧ u.sec.fw = s.sec.fw ∧ u.sys.boot = s.sys.boot)

/-- POWER_UP (R544): Rails come up and the MSS holds reset until they are in range for 1 ms. -/
def PowerUpCompletes : Prop :=
  ∀ (t : Nat) (s : State),
    s.pwr.railsUp = false →
    Completes (.powerUp t) s (fun u => u.pwr = { s.pwr with railsUp := true } ∧ u.ltune = [0x8000, 0x8000])

/-- RESET_N_LOW (R545): RESET_N held low for 10 us causes a full reset. -/
def ResetNLowCompletes : Prop :=
  ∀ (t ns : Nat) (s : State),
    10000 ≤ ns →
    Completes (.resetNLow t ns) s (fun u => u.sys.bootState = 0 ∧ u.pwr.inReset = true ∧ u.sys.cause = 2 ∧ u.sec.sessions = [] ∧ u.dbg.level = 0 ∧
      u.ltune = s.ltune ∧ u.sys.boot = s.sys.boot)

/-- RELEASE_FROM_RESET (R474): The MSS starts, verifies firmware and starts the CPC. -/
def ReleaseFromResetCompletes : Prop :=
  ∀ (t : Nat) (boot : BootFacts) (s : State),
    s.pwr.inReset = true →
    s.pwr.railsUp = true →
    s.sec.trialPending = false →
    s.sec.trialRunning = false →
    s.bootable s.sec.preferred (if s.sec.preferred = 0 then boot.slotAOk else boot.slotBOk) = true →
    Completes (.releaseFromReset t boot) s (fun u => u.pwr = { s.pwr with inReset := false } ∧ u.sys.bootState = 1 ∧ u.sec.running = s.sec.preferred ∧
      u.sys.boot = { s.sys.boot with bootCount := (s.sys.boot.bootCount + 1) % 2 ^ 32 } ∧ u.sys.rest = { s.sys.rest with valid := false } ∧
      u.warn.losses = [])

/-- RELEASE_FROM_RESET (R474): The MSS starts, verifies firmware and starts the CPC. Here: no bootable slot. -/
def ReleaseFromResetFailsCompletes : Prop :=
  ∀ (t : Nat) (boot : BootFacts) (s : State),
    s.pwr.inReset = true →
    s.pwr.railsUp = true →
    s.sec.preferred < 2 →
    (s.bootable 0 boot.slotAOk = false ∧ s.bootable 1 boot.slotBOk = false) →
    Completes (.releaseFromReset t boot) s (fun u => u.pwr = { s.pwr with inReset := false } ∧ u.sys.bootState = 7)

/-- DRAM_TRAINED (R390): Cached or full DRAM training completes and EV_MEM_TRAINED is recorded. -/
def DramTrainedCompletes : Prop :=
  ∀ (t ms : Nat) (cached : Bool) (changed : List Nat) (s : State),
    s.sys.bootState = 1 →
    s.pwr.inReset = false →
    (s.atInstant t).canReport = true →
    Completes (.dramTrained t cached ms ⟨[], changed⟩) s (fun u => u.sys.bootState = 3 ∧ u.mem.available = true ∧ u.memMask = ((s.atInstant
      t).bankContent (s.atInstant t).restoreBank).image.mem.mask ∧ u.heard 0x0C07 srcDevice)

/-- RESTORE_COMPLETE (R472): The retained configuration is restored and BOOT_STATE becomes 4. -/
def RestoreCompleteCompletes : Prop :=
  ∀ (t sigs : Nat) (s : State),
    s.sys.bootState = 3 →
    s.health.testRun = none →
    s.health.units.all (fun l => l.all (fun u => u.st != 2)) = true →
    Completes (.restoreComplete t sigs) s (fun u => u.sys.bootState = 4 ∧ u.sys.restoreSource = (s.atInstant t).restoreBank ∧ u.sys.generation =
      ((s.atInstant t).bankContent (s.atInstant t).restoreBank).generation ∧ u.cfg.plans = ((s.atInstant t).bankContent (s.atInstant
      t).restoreBank).image.plans ∧ u.mbs = s.mbs.map (fun m => { m with st := b2n m.held }))

/-- RESUME_LINES_START (R473): Lines running at snapshot start after restore, time set or WAIT_S. -/
def ResumeLinesStartCompletes : Prop :=
  ∀ (t : Nat) (r : Resume) (s : State),
    s.sys.resume = some r →
    r.waitTime = false →
    s.lines.length = 16 →
    Completes (.resumeLinesStart t) s (fun u => u.sys.resume = none ∧ ∀ l < 16, bit r.mask l = true → (s.atInstant t).mayStart l = true → (u.lineOf
      l).st = 1)

/-! #### Link up, packets, pauses, retraining, the watchdog, JTAG and SMBus timeout -/

/-- PCIE_LINK_UP (R432): The PCIe link finishes training and comes up, raising EV_PCIE_LINK with cause 3. -/
def PcieLinkUpCompletes : Prop :=
  ∀ (t speed width : Nat) (s : State),
    (1 ≤ speed ∧ speed ≤ 5) →
    (width = 1 ∨ width = 2 ∨ width = 4 ∨ width = 8) →
    (s.atInstant t).canReport = true →
    Completes (.pcieLinkUp t speed width) s (fun u => u.pcie = { s.pcie with up := true, speed := speed, width := width } ∧ u.reported 0x0D06 srcPcie
      (u8 3 ++ u8 speed ++ u8 width))

/-- STREAM_PACKET_SENT (R441): A UDP packet of a STREAM_ETH context leaves its port, delivering the items whose last byte it holds, advancing felt
readers and auto-releasing captures. -/
def StreamPacketSentCompletes : Prop :=
  ∀ (t i k : Nat) (r : StreamRun) (d : StreamDef) (q : Closed) (rest : List Closed) (s : State),
    (s.ctxOf i).stream = some k →
    s.streamRun k = some r →
    s.streamDef k = some d →
    r.closed = q :: rest →
    (s.ctxOf i).cfg.kind = 3 →
    (s.atInstant t).portOpen (s.ctxOf i).cfg.port = true →
    ((s.ctxOf i).st ≠ 0 ∧ (s.ctxOf i).st ≠ 4) →
    r.headOff = 0 →
    q.bytes.length ≤ (s.portCfg (s.ctxOf i).cfg.port).fragment →
    (s.atInstant t).mayMove i ((s.portCfg (s.ctxOf i).cfg.port).wire q.bytes.length) = true →
    Completes (.streamPacketSent t i) s (fun u => Out.udpPacket (s.ctxOf i).cfg.port i (u32 0x54565244 ++ u8 1 ++ u8 3 ++ u16 s.cfg.trail.nodeId ++
      u16 k ++ u16 0 ++ u32 r.pktSeq ++ (q.bytes.drop 8).take 4 ++ u32 0 ++ u32 q.bytes.length ++ u32 q.bytes.length ++ q.bytes) ∈ u.out ∧ (u.portRun
      (s.ctxOf i).cfg.port).framesTx = satAdd (s.portRun (s.ctxOf i).cfg.port).framesTx 1)

/-- TOKEN_BUCKET_REFILL (R424): A rate-limited context's token bucket refills and the context leaves STATE 3 and moves data again. -/
def TokenBucketRefillCompletes : Prop :=
  ∀ (t i : Nat) (s : State),
    Completes (.tokenBucketRefill t i) s (fun u => u.ctxs = upd s.ctxs i (fun c =>
      { c with tokens := min (c.cfg.burst * tokenByte) ((s.atInstant t).tokensBy c), tokensAt := (s.atInstant t).now, st := if c.st = 3 ∧ 0 < (s.atInstant t).tokensBy c then c.running else c.st }))

/-- PAUSE_FRAME_RX (R443): A received IEEE 802.3x PAUSE frame pauses transmission on the port when PAUSE_RX is enabled and is counted. -/
def PauseFrameRxCompletes : Prop :=
  ∀ (t p q : Nat) (s : State),
    ((s.portCfg p).enabled = true ∧ (s.portRun p).up = true) →
    bit (s.portCfg p).flags 1 = true →
    Completes (.pauseFrameRx t p q) s (fun u => u.ports = upd s.ports p (fun x =>
      { x with framesRx := satAdd x.framesRx 1, pauseRx := satAdd x.pauseRx 1, pausedUntil := (s.atInstant t).now + ceilDiv (q * 65536) 25 }))

/-- ETH_FRAME_DROPPED (R443): A received Ethernet frame that is not ARP, PTP or a command frame, or that fails its FCS, is dropped and counted. -/
def EthFrameDroppedCompletes : Prop :=
  ∀ (t p : Nat) (ok : Bool) (s : State),
    ((s.portCfg p).enabled = true ∧ (s.portRun p).up = true) →
    Completes (.ethFrameDropped t p ok) s (fun u => u.ports = upd s.ports p (fun x => if ok then
      { x with framesRx := satAdd x.framesRx 1, droppedRx := satAdd x.droppedRx 1 } else { x with fcsErrors := satAdd x.fcsErrors 1 }))

/-- FULL_RETRAINING_DONE (R391): A channel's full retraining, started when a periodic update failed, completes within 20 ms and EV_MEM_RETRAIN reports
its duration and result. -/
def FullRetrainingDoneCompletes : Prop :=
  ∀ (t c us x : Nat) (s : State),
    (s.chanOf c).retraining = some x →
    (s.atInstant t).canReport = true →
    Completes (.fullRetrainingDone t c us true) s (fun u => u.mem = { s.mem with chans := upd s.mem.chans c (fun x => { x with retraining := none }) }
      ∧ u.reported 0x0C05 (srcChannel c) (u32 us ++ u8 0))

/-- WATCHDOG_RESET (R474): The watchdog expires and resets the device, which boots and reports EV_BOOT with cause 4. -/
def WatchdogResetCompletes : Prop :=
  ∀ (t : Nat) (s : State),
    Completes (.watchdogReset t) s (fun u => u.sys.bootState = 0 ∧ u.pwr.inReset = true ∧ u.sys.cause = 4 ∧ u.sys.watchdogCount = s.sys.watchdogCount
      + 1 ∧ u.pcie = { s.pcie with winBase := 0, winDenied := 0 } ∧ u.sec.sessions = [])

/-- JTAG_INSTRUCTION (R503): A JTAG instruction under the open debug level halts, steps or resumes the CPC, or runs scan, BIST or EXTEST, stopping
zone evaluation while the CPC is halted. Here: IDCODE. -/
def JtagIdcodeCompletes : Prop :=
  ∀ (t : Nat) (s : State),
    Completes (.jtagInstruction t .idcode) s (fun u => Out.jtag Config.idcode ∈ u.out ∧ u.dbg = s.dbg)

/-- JTAG_INSTRUCTION (R503): A JTAG instruction under the open debug level halts, steps or resumes the CPC, or runs scan, BIST or EXTEST, stopping
zone evaluation while the CPC is halted. Here: an instruction that halts the CPC. -/
def JtagHaltCompletes : Prop :=
  ∀ (t : Nat) (op : JtagOp) (s : State),
    (op = .haltCpc ∨ op = .scan ∨ op = .bist) →
    jtagLevel op ≤ s.dbg.level →
    Completes (.jtagInstruction t op) s (fun u => u.dbg.cpcHalted = true ∧ u.dbg.level = s.dbg.level)

/-- JTAG_INSTRUCTION (R503): A JTAG instruction under the open debug level halts, steps or resumes the CPC, or runs scan, BIST or EXTEST, stopping
zone evaluation while the CPC is halted. Here: the CPC resumes. -/
def JtagResumeCompletes : Prop :=
  ∀ (t : Nat) (s : State),
    2 ≤ s.dbg.level →
    Completes (.jtagInstruction t .resumeCpc) s (fun u => u.dbg.cpcHalted = false ∧ u.dbg.level = s.dbg.level)

/-- JTAG_INSTRUCTION (R503): A JTAG instruction under the open debug level halts, steps or resumes the CPC, or runs scan, BIST or EXTEST, stopping
zone evaluation while the CPC is halted. Here: the open level does not allow the instruction. -/
def JtagClosedCompletes : Prop :=
  ∀ (t : Nat) (op : JtagOp) (s : State),
    s.dbg.level < jtagLevel op →
    Completes (.jtagInstruction t op) s (fun u => u.dbg = s.dbg ∧ u.out = (s.atInstant t).out)

/-- SMB_CLOCK_LOW_TIMEOUT (R563): SMBus clock held low for 25 to 35 ms times out and the SMBus target abandons the transaction. -/
def SmbClockLowTimeoutCompletes : Prop :=
  ∀ (t : Nat) (s : State),
    Completes (.smbClockLowTimeout t) s (fun u => u.health.smbAlert = (s.atInstant t).settle.health.smbAlert ∧ u.ltune = s.ltune ∧ u.out =
      (s.atInstant t).out ∧ u.cfg = s.cfg ∧ u.dram = s.dram)

/-! #### Nonces, enrolment, service, scrapping and firmware slots -/

/-- SEC_CHALLENGE (R484): Issues a nonce. -/
def SecChallengeCompletes : Prop :=
  ∀ (t : Nat) (c : Cmd) (s : State),
    (s.atInstant t).admits 0x0E01 c = true →
    (s.sec.nonces.filter (fun e => decide ((s.atInstant t).now < e.2))).length < 8 →
    Completes (.secChallenge t c) s (fun u => u.answered c stOk (fit 32 c.facts.random) ∧ u.sec.nonces = s.sec.nonces.filter (fun e => decide
      ((s.atInstant t).now < e.2)) ++ [(fit 32 c.facts.random, (s.atInstant t).now + 120 * ticksPerSecond)] ∧ u.sec.sessions = s.sec.sessions)

/-- NONCE_EXPIRY (R484): A nonce expires 120 s after issue. -/
def NonceExpiryCompletes : Prop :=
  ∀ (t : Nat) (s : State),
    Completes (.nonceExpiry t) s (fun u => u.sec = { s.sec with nonces := s.sec.nonces.filter (fun e => decide ((s.atInstant t).now < e.2)) })

/-- SEC_ENROLL (R486): Fuses an owner key into the next slot. -/
def SecEnrollCompletes : Prop :=
  ∀ (t : Nat) (c : Cmd) (s : State),
    (s.atInstant t).admits 0x0E02 c = true →
    s.sec.lifecycle = 0 →
    s.newestOwner = none →
    c.facts.progOk = true →
    s.dbg.level = 0 →
    s.sec.sessions = [] →
    (s.atInstant t).canReport = true →
    Completes (.secEnroll t c) s (fun u => u.answered c stOk [] ∧ u.sec.lifecycle = 1 ∧ (nth u.sec.owners 0 default).hash = (if 0 <
      s.sec.owners.length then sha384 (c.arg.take 97) else []) ∧ (nth u.sec.owners 0 default).storedKey = (if 0 < s.sec.owners.length then some
      (c.arg.take 97) else none) ∧ u.reported 0x0E01 srcMss (u8 0 ++ u8 1 ++ u8 0))

/-- SEC_SERVICE_ENTER (R486): Moves an owned device into Service for a token's duration. -/
def SecServiceEnterCompletes : Prop :=
  ∀ (t : Nat) (c : Cmd) (s : State),
    (s.atInstant t).admits 0x0E03 (asForm c 0 0 [1]) = true →
    rd (asForm c 0 0 [1]).arg 0 1 = 0 →
    (readToken ((asForm c 0 0 [1]).arg.drop 4)).wellFormed = true →
    s.sec.lifecycle = 1 →
    (s.atInstant t).tokenFault (readToken ((asForm c 0 0 [1]).arg.drop 4)) 2 [0] c.facts.sigOk = none →
    c.facts.progOk = true →
    (s.dbg.level = 0 ∧ s.sec.sessions = []) →
    (s.atInstant t).canReport = true →
    Completes (.secServiceEnter t c) s (fun u => u.answered c stOk [] ∧ u.sec.lifecycle = 2 ∧ u.sec.serviceUntil = (s.atInstant t).elapsed +
      (readToken ((asForm c 0 0 [1]).arg.drop 4)).duration ∧ u.reported 0x0E01 srcMss (u8 1 ++ u8 2 ++ u8 0))

/-- SEC_SERVICE_LEAVE (R486): Returns a device from Service to Owned. -/
def SecServiceLeaveCompletes : Prop :=
  ∀ (t : Nat) (c : Cmd) (s : State),
    (s.atInstant t).admits 0x0E03 (asForm c 0 1 [0]) = true →
    rd (asForm c 0 1 [0]).arg 0 1 = 1 →
    s.sec.lifecycle = 2 →
    c.facts.progOk = true →
    (s.dbg.level = 0 ∧ s.sec.sessions = []) →
    (s.atInstant t).canReport = true →
    Completes (.secServiceLeave t c) s (fun u => u.answered c stOk [] ∧ u.sec.lifecycle = 1 ∧ u.sec.serviceUntil = 0 ∧ u.reported 0x0E01 srcMss (u8 2
      ++ u8 1 ++ u8 0))

/-- SERVICE_EXPIRY (R487): Service expires and the device returns to Owned. -/
def ServiceExpiryCompletes : Prop :=
  ∀ (t : Nat) (s : State),
    s.sec.lifecycle = 2 →
    s.sec.serviceUntil ≤ (s.atInstant t).elapsed →
    (s.dbg.level = 0 ∧ s.sec.sessions = []) →
    (s.atInstant t).canReport = true →
    Completes (.serviceExpiry t) s (fun u => u.sec.lifecycle = 1 ∧ u.sec.serviceUntil = 0 ∧ u.reported 0x0E01 srcMss (u8 2 ++ u8 1 ++ u8 1))

/-- SEC_SCRAP (R487): Scraps the device irreversibly. -/
def SecScrapCompletes : Prop :=
  ∀ (t : Nat) (c : Cmd) (s : State),
    (s.atInstant t).admits 0x0E04 c = true →
    s.sec.lifecycle = 0 →
    c.arg.all (fun x => x == 0) = true →
    c.facts.progOk = true →
    Completes (.secScrap t c) s (fun u => u.answered c stOk [] ∧ u.sec.lifecycle = 3 ∧ u.sec.secretErased = true ∧ u.sec.sessions = [] ∧ u.dbg.level =
      0 ∧ u.sec.owners = s.sec.owners.map (fun o => { o with revoked := true, storedKey := none }) ∧ u.sys.banks = s.sys.banks.map (fun _ =>
      Bank.blank s.build) ∧ u.sys.rest = Bank.blank s.build)

/-- SEC_FW_LOAD (R489): Writes a chunk of a firmware image and verifies it at FINAL. -/
def SecFwLoadCompletes : Prop :=
  ∀ (t : Nat) (c : Cmd) (s : State),
    (s.atInstant t).admits 0x0E05 c = true →
    (bit (rd c.arg 0 1) 0 = true ∧ bit (rd c.arg 0 1) 1 = false) →
    rd c.arg 2 2 ≤ 4000 →
    rd c.arg 4 4 + rd c.arg 2 2 ≤ 512 + rd c.arg 8 4 →
    512 + rd c.arg 8 4 ≤ s.slotBytes →
    s.sec.load = none →
    Completes (.secFwLoad t c) s (fun u => u.answered c stPending [] ∧ u.awaits (s.atInstant t) c 0x0E05 [0] none ∧ u.sec =
      { s.sec with fw := s.sec.fw.set (1 - s.sec.running) ⟨[], false, 0, 0⟩, trialPending := false, load := some { slot := 1 - s.sec.running, length := rd c.arg 8 4, image := ssetL 0xFF [] (rd c.arg 4 4) ((c.arg.drop 12).take (rd c.arg 2 2)), erasing := true, final := none } })

/-- SEC_FW_LOAD (R489): Writes a chunk of a firmware image and verifies it at FINAL. Here: a chunk in the middle. -/
def SecFwLoadChunkCompletes : Prop :=
  ∀ (t : Nat) (c : Cmd) (l : FwLoad) (s : State),
    (s.atInstant t).admits 0x0E05 c = true →
    (bit (rd c.arg 0 1) 0 = false ∧ bit (rd c.arg 0 1) 1 = false) →
    rd c.arg 2 2 ≤ 4000 →
    s.sec.load = some l →
    l.erasing = false →
    rd c.arg 4 4 + rd c.arg 2 2 ≤ 512 + l.length →
    Completes (.secFwLoad t c) s (fun u => u.answered c stOk [] ∧ u.sec =
      { s.sec with load := some { l with image := ssetL 0xFF l.image (rd c.arg 4 4) ((c.arg.drop 12).take (rd c.arg 2 2)) } })

/-- FW_ERASE_DONE (R489): The slot erase of a FIRST chunk completes with EV_APPLIED. -/
def FwEraseDoneCompletes : Prop :=
  ∀ (t : Nat) (l : FwLoad) (q : Pend) (s : State),
    s.sec.load = some l →
    l.erasing = true →
    l.final = none →
    (s.atInstant t).norHeld = false →
    s.pendOp 0x0E05 = some q →
    q.mb ≠ ownMb →
    (s.atInstant t).canReport = true →
    Completes (.fwEraseDone t) s (fun u => u.sec = { s.sec with load := some { l with erasing := false } } ∧ u.reported 0x0101 srcDevice (u16 q.op ++
      u8 q.mb ++ u16 q.seq ++ u16 stOk))

/-- SEC_FW_ACTIVATE (R490): Marks the loaded slot as the trial for the next boot. -/
def SecFwActivateCompletes : Prop :=
  ∀ (t : Nat) (c : Cmd) (s : State),
    (s.atInstant t).admits 0x0E06 (asForm c 0 0 [1]) = true →
    rd (asForm c 0 0 [1]).arg 0 1 = 0 →
    (nth s.sec.fw (1 - s.sec.running) default).loaded = true →
    (s.atInstant t).canReport = true →
    Completes (.secFwActivate t c) s (fun u => u.answered c stOk [] ∧ u.sec = { s.sec with trialPending := (1 - s.sec.running) != s.sec.preferred } ∧
      u.reported 0x0E02 srcMss (u8 1 ++ u8 (1 - s.sec.running) ++ u32 (nth s.sec.fw (1 - s.sec.running) default).version))

/-- SEC_FW_COMMIT (R490): Makes the trial slot preferred and advances the rollback counter. -/
def SecFwCommitCompletes : Prop :=
  ∀ (t : Nat) (c : Cmd) (s : State),
    (s.atInstant t).admits 0x0E06 (asForm c 0 1 [0]) = true →
    rd (asForm c 0 1 [0]).arg 0 1 = 1 →
    s.sec.trialRunning = true →
    c.facts.progOk = true →
    (s.atInstant t).canReport = true →
    Completes (.secFwCommit t c) s (fun u => u.answered c stOk [] ∧ u.sec =
      { s.sec with preferred := s.sec.running, trialRunning := false, rollback := max s.sec.rollback (min 64 (nth s.sec.fw s.sec.running default).rollback) }
      ∧ u.reported 0x0E02 srcMss (u8 2 ++ u8 s.sec.running ++ u32 (nth s.sec.fw s.sec.running default).version))

/-- TRIAL_BOOT_TIMEOUT (R490): A trial boot not reaching BOOT_STATE 4 within 5 s falls back to the previous slot. -/
def TrialBootTimeoutCompletes : Prop :=
  ∀ (t : Nat) (s : State),
    s.sec.trialRunning = true →
    s.sys.bootState < 4 →
    s.pwr.inReset = false →
    s.sec.trialSince + 5 * ticksPerSecond ≤ (s.atInstant t).now →
    Completes (.trialBootTimeout t) s (fun u => u.sys.bootState = 0 ∧ u.pwr.inReset = true ∧ u.sys.cause = 4 ∧ u.sys.watchdogCount =
      s.sys.watchdogCount + 1)

/-! #### Sessions, rights and debug levels -/

/-- SEC_SESSION_OPEN (R493): Opens a session by ECDH handshake. -/
def SecSessionOpenCompletes : Prop :=
  ∀ (t : Nat) (c : Cmd) (s : State),
    (s.atInstant t).admits 0x0E07 c = true →
    s.sec.lifecycle = 1 →
    (readToken (c.arg.drop 100)).wellFormed = true →
    s.sec.sessions.length < 16 →
    (s.atInstant t).tokenFault (readToken (c.arg.drop 100)) 5 [0] c.facts.sigOk = none →
    (s.atInstant t).canReport = true →
    Completes (.secSessionOpen t c) s (fun u => u.answered c stOk (u32 ((s.atInstant t).newSession (rd c.facts.random 0 4)) ++ fit 97 c.facts.keyBytes
      ++ zeros 3 ++ fit 96 (c.facts.keyBytes.drop 97)) ∧ u.sec.sessions = s.sec.sessions ++ [⟨(s.atInstant t).newSession (rd c.facts.random 0 4), rd
      (readToken (c.arg.drop 100)).arg 0 1, (s.atInstant t).elapsed + (readToken (c.arg.drop 100)).duration, none, 0, fit 72 (c.facts.keyBytes.drop
      193)⟩] ∧ u.reported 0x0E04 srcMss (u32 ((s.atInstant t).newSession (rd c.facts.random 0 4)) ++ u8 0 ++ u8 (rd (readToken (c.arg.drop 100)).arg 0
      1)))

/-- SEC_SESSION_CLOSE (R493): Closes a session. -/
def SecSessionCloseCompletes : Prop :=
  ∀ (t : Nat) (c : Cmd) (e : Session) (s : State),
    (s.atInstant t).admits 0x0E08 c = true →
    s.session? (rd c.arg 0 4) = some e →
    s.sec.sessions.filter (fun x => x.id == rd c.arg 0 4) = [e] →
    (s.atInstant t).canReport = true →
    Completes (.secSessionClose t c) s (fun u => u.answered c stOk [] ∧ u.sec.sessions = s.sec.sessions.filter (fun x => x.id != rd c.arg 0 4) ∧
      u.reported 0x0E04 srcMss (u32 e.id ++ u8 1 ++ u8 e.rights))

/-- SESSION_EXPIRY (R493): A session ends after its duration. -/
def SessionExpiryCompletes : Prop :=
  ∀ (t id : Nat) (e : Session) (s : State),
    s.session? id = some e →
    s.sec.sessions.filter (fun x => x.id == id) = [e] →
    e.expiry ≤ (s.atInstant t).elapsed →
    (s.atInstant t).canReport = true →
    Completes (.sessionExpiry t id) s (fun u => u.sec.sessions = s.sec.sessions.filter (fun x => x.id != id) ∧ u.reported 0x0E04 srcMss (u32 e.id ++
      u8 2 ++ u8 e.rights))

/-- SEC_RIGHTS (R492): Sets the PCIe rights. -/
def SecRightsCompletes : Prop :=
  ∀ (t : Nat) (c : Cmd) (s : State),
    (s.atInstant t).admits 0x0E09 c = true →
    (readToken c.arg).wellFormed = true →
    (s.atInstant t).tokenFault (readToken c.arg) 6 [0] c.facts.sigOk = none →
    Completes (.secRights t c) s (fun u => u.answered c stOk [] ∧ u.sys.boot = { s.sys.boot with pcieRights := rd (readToken c.arg).arg 0 1 })

/-- SEC_STATUS (R482): Returns lifecycle, slots, sessions and the identity key. -/
def SecStatusCompletes : Prop :=
  ∀ (t : Nat) (c : Cmd) (s : State),
    (s.atInstant t).admits 0x0E0A c = true →
    Completes (.secStatus t c) s (fun u => u.answered c stOk (u8 s.sec.lifecycle ++ u8 (s.newestOwner.getD 0xFF) ++ u8 s.sec.rollback ++ u8
      (s.sec.preferred + 4 * b2n s.sec.trialPending + 8 * b2n (nth s.sec.fw 0 default).loaded + 16 * b2n (nth s.sec.fw 1 default).loaded) ++ u8 (if
      s.sec.lifecycle = 0 then 0x3F else s.sys.boot.pcieRights) ++ u8 s.sec.sessions.length ++ zeros 2 ++ u32 (if s.sec.lifecycle = 2 then
      s.sec.serviceUntil - (s.atInstant t).elapsed else 0) ++ u32 s.sec.authFails ++ fit 97 s.build.identityKey ++ zeros 3 ++ fit 96
      s.build.vendorSig) ∧ u.sec = s.sec)

/-- DBG_OPEN (R502): Opens a debug level for a token's duration. -/
def DbgOpenCompletes : Prop :=
  ∀ (t : Nat) (c : Cmd) (s : State),
    (s.atInstant t).admits 0x0E0B c = true →
    s.sec.lifecycle = 0 →
    (rd (readToken c.arg).arg 0 1 = 1 ∨ rd (readToken c.arg).arg 0 1 = 2) →
    (s.atInstant t).judgedPower < 2 →
    s.dbg.level = 0 →
    ((c.arg.take 60).all (fun x => x == 0) = true ∧ (c.arg.drop 61).all (fun x => x == 0) = true) →
    (s.atInstant t).canReport = true →
    Completes (.dbgOpen t c) s (fun u => u.answered c stOk [] ∧ u.dbg.level = rd (readToken c.arg).arg 0 1 ∧ u.dbg.until_ = 0 ∧ u.reported 0x0E05
      srcMss (u8 0 ++ u8 (rd (readToken c.arg).arg 0 1) ++ u8 0))

/-- DBG_CLOSE (R502): Closes the open debug level. -/
def DbgCloseCompletes : Prop :=
  ∀ (t : Nat) (c : Cmd) (s : State),
    (s.atInstant t).admits 0x0E0C c = true →
    (1 ≤ s.dbg.level ∧ s.dbg.level ≤ 2) →
    (s.atInstant t).canReport = true →
    Completes (.dbgClose t c) s (fun u => u.answered c stOk [] ∧ u.dbg = { Debug.reset with cpcEpoch := s.dbg.cpcEpoch } ∧ u.reported 0x0E05 srcMss
      (u8 s.dbg.level ++ u8 0 ++ u8 1))

/-- DEBUG_LEVEL_EXPIRY (R502): The open debug level closes at expiry. -/
def DebugLevelExpiryCompletes : Prop :=
  ∀ (t : Nat) (s : State),
    (1 ≤ s.dbg.level ∧ s.dbg.level ≤ 2) →
    (s.dbg.until_ ≠ 0 ∧ s.dbg.until_ ≤ (s.atInstant t).elapsed) →
    (s.atInstant t).canReport = true →
    Completes (.debugLevelExpiry t) s (fun u => u.dbg = { Debug.reset with cpcEpoch := s.dbg.cpcEpoch } ∧ u.reported 0x0E05 srcMss (u8 s.dbg.level ++
      u8 0 ++ u8 2))

/-! #### Power states: settings, entries, exits, status -/

/-- PWR_CONFIG (R496): Sets TRIM. -/
def PwrConfigCompletes : Prop :=
  ∀ (t : Nat) (c : Cmd) (s : State),
    (s.atInstant t).admits 0x0E0D c = true →
    Completes (.pwrConfig t c) s (fun u => u.answered c stOk [] ∧ u.sys.boot.trim = bit (rd c.arg 0 1) 0 ∧ u.pwr.st = if s.pwr.st < 2 then b2n (bit
      (rd c.arg 0 1) 0) else s.pwr.st)

/-- PWR_STATE (R495): Requests a power-state transition. -/
def PwrStateCompletes : Prop :=
  ∀ (t : Nat) (c : Cmd) (s : State),
    (s.atInstant t).admits 0x0E0E c = true →
    (2 ≤ rd c.arg 0 1 ∧ rd c.arg 0 1 ≤ 3) →
    s.pwr.pend = none →
    s.pwr.st < 2 →
    s.lines.length = 16 →
    Completes (.pwrState t c) s (fun u => u.answered c stPending [] ∧ u.pwr =
      { s.pwr with pend := some ⟨rd c.arg 0 1, bit (rd c.arg 1 1) 0, c.mb, c.seq, 0⟩ } ∧ u.sys.boot.kept = maskOf (s.atInstant t).runningLines ∧ ∀ l <
      16, (s.lineOf l).st = 2 → (u.lineOf l).st = 3)

/-- PWR_STATE (R495): Requests a power-state transition. Here: between P0 and P1. -/
def PwrStateSwapCompletes : Prop :=
  ∀ (t : Nat) (c : Cmd) (s : State),
    (s.atInstant t).admits 0x0E0E c = true →
    rd c.arg 0 1 < 2 →
    s.pwr.pend = none →
    s.pwr.st < 2 →
    Completes (.pwrState t c) s (fun u => u.answered c stOk [] ∧ u.pwr = { s.pwr with st := rd c.arg 0 1 })

/-- P2_ENTERED (R498): After its stops and drains the device puts DRAM in self-refresh and gates clocks. -/
def P2EnteredCompletes : Prop :=
  ∀ (t : Nat) (p : PwrPend) (q : Pend) (s : State),
    s.pwr.pend = some p →
    (p.target = 2 ∧ p.stage = 0) →
    s.stopsDone = true →
    s.pendOp 0x0E0E = some q →
    q.mb ≠ ownMb →
    (s.ctxOf 0).stream = none →
    s.pwr.st < 2 →
    Completes (.p2Entered t) s (fun u => u.pwr = { s.pwr with st := 2, pend := none } ∧ u.pend = s.pend.eraseP (fun x => x.op == 0x0E0E) ∧ u.sec =
      s.sec ∧ u.cfg = s.cfg)

/-- P2_EXIT (R499): Leaving P2, channels exit self-refresh and the kept set restarts. -/
def P2ExitCompletes : Prop :=
  ∀ (t : Nat) (p : PwrPend) (s : State),
    s.pwr.pend = some p →
    (s.pwr.st = 2 ∧ p.target < 2) →
    p.resume = false →
    Completes (.p2Exit t) s (fun u => u.pwr = { s.pwr with st := p.target, pend := none } ∧ u.sys.boot =
      { s.sys.boot with trim := p.target == 1, kept := 0 } ∧ u.cfg = s.cfg)

/-- P3_ENTERED (R500): After writing the rest image the device powers off all but the always-on domain. -/
def P3EnteredCompletes : Prop :=
  ∀ (t : Nat) (p : PwrPend) (s : State),
    s.pwr.pend = some p →
    (p.target = 3 ∧ p.stage = 1) →
    s.otherStreams = [] →
    (s.atInstant t).norHeld = false →
    (s.ctxOf 0).stream = none →
    Completes (.p3Entered t true) s (fun u => u.pwr = { s.pwr with st := 3, pend := none } ∧ u.sys.rest = (s.atInstant t).capture 0 0 s.sys.boot.kept
      ∧ u.sec.sessions = [] ∧ u.mem.available = false ∧ u.cfg = s.cfg)

/-- P3_ENTERED (R500): After writing the rest image the device powers off all but the always-on domain. Here: the rest image fails. -/
def P3EnteredFailsCompletes : Prop :=
  ∀ (t : Nat) (p : PwrPend) (s : State),
    s.pwr.pend = some p →
    (p.target = 3 ∧ p.stage = 1) →
    s.otherStreams = [] →
    (s.atInstant t).norHeld = false →
    s.pwr.st ≠ 3 →
    Completes (.p3Entered t false) s (fun u => u.pwr = { s.pwr with st := 2, pend := none } ∧ u.sys.rest = s.sys.rest)

/-- P3_EXIT (R501): The MSS re-verifies firmware, trains DRAM and restores from the rest image. -/
def P3ExitCompletes : Prop :=
  ∀ (t sigs ms : Nat) (boot : BootFacts) (cached : Bool) (p : PwrPend) (s : State),
    s.pwr.pend = some p →
    (s.pwr.st = 3 ∧ p.target < 2) →
    p.resume = false →
    s.bootable s.sec.running (if s.sec.running = 0 then boot.slotAOk else boot.slotBOk) = true →
    s.sys.rest.valid = true →
    s.sec.secretErased = false →
    Completes (.p3Exit t sigs boot cached ms []) s (fun u => u.pwr = { s.pwr with st := p.target, pend := none } ∧ u.sys.boot =
      { s.sys.boot with trim := p.target == 1, kept := 0 } ∧ u.mem.available = true ∧ u.cfg.plans = s.sys.rest.image.plans)

/-- PWR_STATUS (R506): Returns power state, kept set and measured power. -/
def PwrStatusCompletes : Prop :=
  ∀ (t : Nat) (c : Cmd) (s : State),
    (s.atInstant t).admits 0x0E0F c = true →
    Completes (.pwrStatus t c) s (fun u => u.answered c stOk (u8 s.pwr.st ++ u8 (s.atInstant t).judgedPower ++ u16 s.sys.boot.kept ++ u32
      (Config.supplyPower s.free)) ∧ u.pwr = s.pwr)

/-! #### Targeted tests, spares, SRAM and lane errors, self-test, sensors, counters -/

/-- TARGETED_TEST_DONE (R510): A targeted self-test ends and the unit returns to service or is retired. -/
def TargetedTestDoneCompletes : Prop :=
  ∀ (t k i : Nat) (s : State),
    (s.hUnit k i).st = 2 →
    (k = 2 ∧ i < 36) →
    (s.hUnit k i).testSince ≤ (s.atInstant t).now →
    s.pwr.st ≠ 3 →
    s.tb.synthLocked = true →
    (s.hUnit k i).onDemand = true →
    s.holdsWork k i = false →
    s.health.units.length = 11 →
    (nth s.health.units k []).length = 36 →
    (s.atInstant t).canReport = true →
    Completes (.targetedTestDone t k i true true) s (fun u => u.hUnit k i = { s.hUnit k i with st := 1 } ∧ u.reported 0x0F02 (srcTile i) (u8 k ++ u16
      i ++ u8 3 ++ u32 (((s.atInstant t).now - (s.hUnit k i).testSince) / ticksPerUs)))

/-- TARGETED_TEST_DONE (R510): A targeted self-test ends and the unit returns to service or is retired. Here: a failing test. -/
def TargetedTestFailedCompletes : Prop :=
  ∀ (t k i : Nat) (s : State),
    (s.hUnit k i).st = 2 →
    (k = 2 ∧ i < 36) →
    (s.hUnit k i).testSince ≤ (s.atInstant t).now →
    s.pwr.st ≠ 3 →
    s.tb.synthLocked = true →
    s.health.units.length = 11 →
    (nth s.health.units k []).length = 36 →
    (s.atInstant t).canReport = true →
    Completes (.targetedTestDone t k i false true) s (fun u => (u.hUnit k i).st = 3 ∧ u.health.permanents = satAdd s.health.permanents 1 ∧ u.reported
      0x0F02 (srcTile i) (u8 k ++ u16 i ++ u8 1 ++ u32 (((s.atInstant t).now - (s.hUnit k i).testSince) / ticksPerUs)))

/-- NO_SPARE (R514): A unit to be retired with no free spare is degraded and EV_NO_SPARE raised. -/
def NoSpareCompletes : Prop :=
  ∀ (t i : Nat) (s : State),
    s.spareCauseOf 5 i = some 0 →
    (s.atInstant t).canReport = true →
    Completes (.noSpare t 5 i 0) s (fun u => u.hUnit 5 i = { s.hUnit 5 i with st := 5, noSpare := true } ∧ u.reported 0x0F01 srcMss (u8 5 ++ u16 i ++
      u8 0))

/-- SRAM_ERROR (R516): An SRAM macro error starts a row or column repair and march test. -/
def SramErrorCompletes : Prop :=
  ∀ (t m row b : Nat) (s : State),
    m < 1152 →
    (s.atInstant t).canReport = true →
    (s.health.sramErrs.filter (fun e => e.1 == m && e.2.1 == row)).length < 3 →
    Completes (.sramError t m row b false) s (fun u => u.health.sramErrs = s.health.sramErrs.filter (fun e => decide ((s.atInstant t).elapsed <
      e.2.2.1 + 86400)) ++ [(m, row, (s.atInstant t).elapsed, b)] ∧ u.health.sramCorrected = satAdd s.health.sramCorrected 1 ∧ u.hUnit 7 m = s.hUnit 7
      m ∧ u.heard 0x0F0C srcMss)

/-- SRAM_ERROR (R516): An SRAM macro error starts a row or column repair and march test. Here: a detected error. -/
def SramErrorDetectedCompletes : Prop :=
  ∀ (t m row b : Nat) (s : State),
    m < 1152 →
    s.hUnit 7 m = Unit_.fresh →
    s.pwr.st < 2 →
    s.health.sramErrs = [] →
    Completes (.sramError t m row b true) s (fun u => (u.hUnit 7 m).st = 2 ∧ (u.hUnit 7 m).errors = 1 ∧ (u.hUnit 7 m).rowsUsed = 1 ∧ u.health.sramTest
      = s.health.sramTest ++ [(m, 0, row)])

/-- D2D_LANE_ERROR (R518): A die-to-die lane in error is replaced by a spare at the next frame. -/
def D2dLaneErrorCompletes : Prop :=
  ∀ (t lane n : Nat) (s : State),
    s.health.d2dMap.contains lane = true →
    (n < 16 ∧ s.health.d2dErrs = []) →
    Completes (.d2dLaneError t lane n false) s (fun u => u.health.d2dCorrected = satAdd s.health.d2dCorrected n ∧ u.health.d2dErrs = List.replicate n
      (lane, (s.atInstant t).now) ∧ u.health.d2dMap = s.health.d2dMap)

/-- D2D_LANE_ERROR (R518): A die-to-die lane in error is replaced by a spare at the next frame. Here: a detected error with a spare. -/
def D2dLaneReplacedCompletes : Prop :=
  ∀ (t lane n j g : Nat) (s : State),
    s.health.d2dMap.findIdx? (· == lane) = some g →
    s.health.d2dMap.contains lane = true →
    s.spareFor 8 lane = some j →
    (lane < 136 ∧ j < 136 ∧ j ≠ lane) →
    (s.hUnit 8 lane).st = 0 →
    (s.hUnit 8 lane).due = none →
    s.health.units.length = 11 →
    (nth s.health.units 8 []).length = 136 →
    (s.atInstant t).canReport = true →
    Completes (.d2dLaneError t lane n true) s (fun u => u.health.d2dMap = s.health.d2dMap.set g j ∧ (u.hUnit 8 j).st = 0 ∧ (u.hUnit 8 lane).st = 2 ∧
      (u.hUnit 8 lane).errors = satAdd (s.hUnit 8 lane).errors 1 ∧ u.reported 0x0F0B srcMss (u8 (lane / 34) ++ u8 lane ++ u8 j ++ u8 2))

/-- SELFTEST_SEGMENT_DONE (R520): A shutdown or boot self-test segment ends with its END marker and result. -/
def SelftestSegmentDoneCompletes : Prop :=
  ∀ (t since : Nat) (o : SegmentOutcome) (s : State),
    s.health.testRun = some (false, since) →
    s.segmentNext = some o.segment →
    (1 ≤ o.segment ∧ o.segment ≤ 10) →
    o.ended = true →
    o.conditions = true →
    o.restored = true →
    o.cycles = segmentCycles o.segment →
    (o.suspects = [] ∧ o.fails = []) →
    s.health.segments.length = 10 →
    s.pwr.pend = none →
    s.sys.shutdown = none →
    Completes (.selftestSegmentDone t o) s (fun u => u.health.segments = s.health.segments.set (o.segment - 1)
      { nth s.health.segments (o.segment - 1) default with began := true, atBoot := false, stale := false, cycles := o.cycles, second := ((s.atInstant t).secondAt (s.atInstant t).now).1, fails := 0, ended := true, st := 1, accepted := some (1, 0, ((s.atInstant t).secondAt (s.atInstant t).now).1) })

/-- SENSOR_SAMPLE (R527): Thermal and rail sensors are read and limit crossings raise EV_HEALTH_LIMIT. -/
def SensorSampleCompletes : Prop :=
  ∀ (t : Nat) (thermal rails : List Int) (s : State),
    (thermal.length = 24 ∧ rails.length = 16) →
    (s.health.thermal.length = 24 ∧ s.health.rails.length = 16) →
    Completes (.sensorSample t thermal rails) s (fun u => u.health.thermal.map Sensor.value = thermal ∧ u.health.rails.map Sensor.value = rails ∧
      u.cfg = s.cfg)

/-- COUNTER_SATURATED (R526): A statistics counter saturates and EV_COUNTER_SATURATED is raised once. -/
def CounterSaturatedCompletes : Prop :=
  ∀ (t op off sel : Nat) (s : State),
    sel < statusSelectors op →
    (counterOffsets op sel).contains off = true →
    rd ((s.atInstant t).statusBody op sel) off 4 = satMax →
    s.health.saturated.contains (op, off, sel) = false →
    (s.atInstant t).canReport = true →
    Completes (.counterSaturated t op off sel) s (fun u => u.health.saturated = s.health.saturated ++ [(op, off, sel)] ∧ u.reported 0x0F05 srcDevice
      (u16 op ++ u16 off ++ u16 sel))

/-! #### Health commands and fuse repair -/

/-- HEALTH_STATUS (R535): Returns the hamper summary and counters. -/
def HealthStatusCompletes : Prop :=
  ∀ (t : Nat) (c : Cmd) (s : State),
    (s.atInstant t).admits 0x0F01 c = true →
    Completes (.healthStatus t c) s (fun u => u.answered c stOk (s.atInstant t).healthBody ∧ (bit (rd c.arg 0 1) 0 = true → u.health.sramCorrected = 0
      ∧ u.health.d2dCorrected = 0 ∧ u.health.transients = 0 ∧ u.health.permanents = 0) ∧ u.health.units = s.health.units ∧ u.health.repairs =
      s.health.repairs)

/-- HEALTH_UNITS (R535): Returns unit records. -/
def HealthUnitsCompletes : Prop :=
  ∀ (t : Nat) (c : Cmd) (s : State),
    (s.atInstant t).admits 0x0F02 c = true →
    rd c.arg 0 1 ≤ 10 →
    (1 ≤ rd c.arg 4 2 ∧ rd c.arg 4 2 ≤ 64) →
    rd c.arg 2 2 + rd c.arg 4 2 ≤ unitCount (rd c.arg 0 1) →
    Completes (.healthUnits t c) s (fun u => u.answered c stOk ((List.range (rd c.arg 4 2)).flatMap (fun j => u8 (s.hUnit (rd c.arg 0 1) (rd c.arg 2 2
      + j)).st ++ u8 (satTo 1 ((s.atInstant t).recentTransients (s.hUnit (rd c.arg 0 1) (rd c.arg 2 2 + j)))) ++ u8 (s.hUnit (rd c.arg 0 1) (rd c.arg
      2 2 + j)).rowsUsed ++ u8 (s.hUnit (rd c.arg 0 1) (rd c.arg 2 2 + j)).colsUsed ++ u32 (s.hUnit (rd c.arg 0 1) (rd c.arg 2 2 + j)).errors)) ∧
      u.health.units = s.health.units ∧ u.health.macros = s.health.macros)

/-- HEALTH_TEST (R536): Runs a targeted test on demand. -/
def HealthTestCompletes : Prop :=
  ∀ (t : Nat) (c : Cmd) (s : State),
    (s.atInstant t).admits 0x0F03 c = true →
    rd c.arg 0 1 = 2 →
    (s.atInstant t).unitNamed 2 (rd c.arg 2 2) = true →
    ((s.hUnit 2 (rd c.arg 2 2)).st = 1 ∧ (s.hUnit 2 (rd c.arg 2 2)).due = none) →
    s.health.units.length = 11 →
    (nth s.health.units 2 []).length = 36 →
    Completes (.healthTest t c) s (fun u => u.answered c stPending [] ∧ u.awaits (s.atInstant t) c 0x0F03 [2 * 65536 + rd c.arg 2 2] none ∧ (u.hUnit 2
      (rd c.arg 2 2)).st = 2 ∧ (u.hUnit 2 (rd c.arg 2 2)).onDemand = true ∧ (u.hUnit 2 (rd c.arg 2 2)).testSince = (s.atInstant t).now)

/-- HEALTH_ACCEPT (R514): Resolves a unit's EV_NO_SPARE. -/
def HealthAcceptCompletes : Prop :=
  ∀ (t : Nat) (c : Cmd) (s : State),
    (s.atInstant t).admits 0x0F04 c = true →
    rd c.arg 0 1 ≤ 10 →
    rd c.arg 2 2 < unitCount (rd c.arg 0 1) →
    (s.hUnit (rd c.arg 0 1) (rd c.arg 2 2)).noSpare = true →
    Completes (.healthAccept t c) s (fun u => u.answered c stOk [] ∧ ∀ j < 2000, u.hUnit (rd c.arg 0 1) j = if j = rd c.arg 2 2 then
      { s.hUnit (rd c.arg 0 1) j with noSpare := false, accepted := true } else s.hUnit (rd c.arg 0 1) j)

/-- HEALTH_FUSE_REPAIR (R524): Programs soft repairs into fuses. -/
def HealthFuseRepairCompletes : Prop :=
  ∀ (t : Nat) (c : Cmd) (s : State),
    (s.atInstant t).admits 0x0F05 c = true →
    (1 ≤ rd c.arg 0 2 ∧ rd c.arg 0 2 ≤ 512) →
    (s.atInstant t).pendOp 0x0F05 = none →
    (s.atInstant t).conditionsNow = true →
    s.health.fusesUsed < 512 →
    Completes (.healthFuseRepair t c) s (fun u => u.answered c stPending [] ∧ u.awaits (s.atInstant t) c 0x0F05 [rd c.arg 0 2] none)

/-- FUSE_REPAIR_DONE (R524): Fuse programming of the repairs ends and EV_APPLIED carries the status. -/
def FuseRepairDoneCompletes : Prop :=
  ∀ (t : Nat) (q : Pend) (r : Repair) (s : State),
    s.pendOp 0x0F05 = some q →
    (s.health.repairs.filter (fun r => !r.fused)).take (q.units.headD 0) = [r] →
    (s.atInstant t).norHeld = false →
    s.health.fusesUsed < 512 →
    q.mb ≠ ownMb →
    (s.atInstant t).canReport = true →
    Completes (.fuseRepairDone t [true]) s (fun u => u.health.repairs = s.health.repairs.map (fun x => if x == r then { x with fused := true } else x)
      ∧ u.health.fusesUsed = s.health.fusesUsed + 1 ∧ u.reported 0x0F07 srcMss (u8 2 ++ u16 r.macroIx ++ u16 r.index ++ u8 0) ∧ u.reported 0x0101
      srcMss (u16 q.op ++ u8 q.mb ++ u16 q.seq ++ u16 stOk))

/-- HEALTH_RESULTS (R520): Returns self-test results. -/
def HealthResultsCompletes : Prop :=
  ∀ (t : Nat) (c : Cmd) (s : State),
    (s.atInstant t).admits 0x0F06 c = true →
    rd c.arg 0 1 ≤ 10 →
    Completes (.healthResults t c) s (fun u => u.answered c stOk (if rd c.arg 0 1 = 0 then s.health.segments.flatMap Segment.body else (nth
      s.health.segments (rd c.arg 0 1 - 1) default).body) ∧ u.health.segments = s.health.segments)

/-- HEALTH_SENSORS (R527): Returns sensor readings and peaks. -/
def HealthSensorsCompletes : Prop :=
  ∀ (t : Nat) (c : Cmd) (s : State),
    (s.atInstant t).admits 0x0F07 c = true →
    Completes (.healthSensors t c) s (fun u => u.answered c stOk (s.health.thermal.flatMap (fun x => leBytesS 2 x.value) ++ s.health.rails.flatMap
      (fun x => leBytesS 2 x.value) ++ s.health.thermal.flatMap (fun x => leBytesS 2 x.peak)) ∧ u.health.thermal = (if bit (rd c.arg 0 1) 0 then
      s.health.thermal.map (fun x => { x with peak := x.value }) else s.health.thermal) ∧ u.health.rails = s.health.rails)

/-- HEALTH_LIMITS (R527): Sets a sensor's bounds. -/
def HealthLimitsCompletes : Prop :=
  ∀ (t : Nat) (c : Cmd) (s : State),
    (s.atInstant t).admits 0x0F08 c = true →
    (rd c.arg 0 1 ≤ 23 ∨ (32 ≤ rd c.arg 0 1 ∧ rd c.arg 0 1 ≤ 47)) →
    rdS c.arg 2 2 < rdS c.arg 4 2 →
    Completes (.healthLimits t c) s (fun u => u.answered c stOk [] ∧ u.cfg = if rd c.arg 0 1 ≤ 23 then
      { s.cfg with thermBounds := s.cfg.thermBounds.set (rd c.arg 0 1) (rdS c.arg 2 2, rdS c.arg 4 2) } else
      { s.cfg with railBounds := s.cfg.railBounds.set (rd c.arg 0 1 - 32) (rdS c.arg 2 2, rdS c.arg 4 2) })

/-- HEALTH_LOG_READ (R529): Returns event log entries. -/
def HealthLogReadCompletes : Prop :=
  ∀ (t : Nat) (c : Cmd) (s : State),
    (s.atInstant t).admits 0x0F09 c = true →
    (1 ≤ rd c.arg 8 2 ∧ rd c.arg 8 2 ≤ 60) →
    Completes (.healthLogRead t c) s (fun u => u.answered c stOk (u16 ((s.log.entries.filter (fun e => decide (rd c.arg 0 8 ≤ e.seq))).take (rd c.arg
      8 2)).length ++ zeros 6 ++ ((s.log.entries.filter (fun e => decide (rd c.arg 0 8 ≤ e.seq))).take (rd c.arg 8 2)).flatMap LogEntry.bytes) ∧ u.log
      = (s.atInstant t).settle.log)

/-! #### Statements of single rules -/

/-- PCIE_LINK_RESET (R435): An FLR, hot reset, PERST_N or link loss aborts kinds 0 to 2 and resets window and moderation. -/
def PcieLinkResetCompletes : Prop :=
  ∀ (t cause : Nat) (s : State),
    s.ctxs.length = 256 →
    ((s.atInstant t).onDie = false ∧ s.ev.held.length + 1024 ≤ queueSpace) →
    Completes (.pcieLinkReset t cause) s (fun u => (∀ i < 256, (s.ctxOf i).cfg.kind < 3 → (s.ctxOf i).st ≠ 0 → u.ctxOf i =
      { s.ctxOf i with st := 0, cause := 0, postedIdx := 0, postedWrap := false, doneIdx := 0, doneWrap := false, stream := none, fetchAddr := (s.ctxOf i).cfg.head, expectSeq := 0, ended := false, skip := false })
      ∧ (∀ i < 256, 3 ≤ (s.ctxOf i).cfg.kind → u.ctxOf i = s.ctxOf i) ∧ u.pcie.winBase = 0 ∧ u.vectors = s.vectors.map (fun v =>
      { v with maxDelay := 0, count := 0, minGap := 0 }) ∧ u.reported 0x0D06 srcPcie (u8 cause ++ u8 s.pcie.speed ++ u8 s.pcie.width) ∧ u.lines =
      s.lines ∧ (∀ k < 256, (∀ i < 256, (s.ctxOf i).cfg.kind < 3 → (s.ctxOf i).stream ≠ some k) → u.streamRun k = s.streamRun k) ∧ u.felt = s.felt ∧
      u.trig = s.trig)

/-- MB_DOORBELL (R451): A write of GO to a mailbox control block on an idle or done mailbox makes the device fetch, validate and execute the command
and write the response. Here: doorbell ignored. -/
def DoorbellIgnoredCompletes : Prop :=
  ∀ (t n : Nat) (fetched : List Byte) (facts : Facts) (s : State),
    n < 8 →
    ((s.mbOf n).held = true ∨ (s.mbOf n).st = 1) →
    Completes (.mbDoorbell t n fetched facts) s (fun u => u.mbs = upd s.mbs n (fun m => { m with ignored := satAdd m.ignored 1 }) ∧ u.pend = s.pend ∧
      u.cfg = s.cfg)

/-- MB_DOORBELL (R451): A write of GO to a mailbox control block on an idle or done mailbox makes the device fetch, validate and execute the command
and write the response. Here: doorbell held. -/
def DoorbellHeldCompletes : Prop :=
  ∀ (t n : Nat) (fetched : List Byte) (facts : Facts) (s : State),
    n < 8 →
    ((s.mbOf n).held = false ∧ (s.mbOf n).st = 3) →
    Completes (.mbDoorbell t n fetched facts) s (fun u => u.mbs = upd s.mbs n (fun m => { m with held := true }) ∧ u.pend = s.pend ∧ u.cfg = s.cfg)

/-- HELD_DOORBELL_RUNS (R452): A doorbell held while the mailbox was not ready runs its command once the device becomes ready. Here: doorbell runs. -/
def DoorbellRunsCompletes : Prop :=
  ∀ (t n : Nat) (fetched : List Byte) (facts : Facts) (s : State),
    n < 8 →
    ((s.mbOf n).held = true ∧ (s.mbOf n).st ≠ 3) →
    s.dbg.cpcHalted = false →
    Completes (.heldDoorbellRuns t n fetched facts) s (fun u => u = (((s.atInstant t).modMb n (fun m => { m with held := false })).runMailbox n
      fetched facts).settle)

/-- ETH_MAILBOX_FRAME (R445): A mailbox frame received on CMD_UDP is authenticated, decrypted and run as a command of its mailbox, or discarded and
counted. Here: busy frame. -/
def BusyFrameCompletes : Prop :=
  ∀ (t p : Nat) (f : List Byte) (plain : List Byte) (facts : Facts) (s : State),
    ((s.portCfg p).enabled = true ∧ (s.portRun p).up = true ∧ p < 2) →
    (rd f 0 4 = 0x464D4244 ∧ rd f 4 1 = 1 ∧ rd f 5 1 ≤ 7 ∧ rd f 6 2 = plain.length ∧ f.length = 36 + plain.length ∧ 32 ≤ plain.length) →
    (rd f 8 4 = 0 ∧ s.session? 0 = none ∨ ∃ e ∈ s.sec.sessions, s.session? (rd f 8 4) = some e ∧ e.rxCounter = none) →
    (s.mbOf (rd f 5 1)).st = 1 →
    s.dbg.cpcHalted = false →
    Completes (.ethMailboxFrame t p f true plain facts) s (fun u => u.mbs = s.mbs ∧ u.pend = s.pend ∧ Out.ethFrame p (rd f 8 4) (((s.session? (rd f 8
      4)).map Session.txCounter).getD 0) (respBytes (rd plain 4 2) ⟨stBusy, none, []⟩ ((s.atInstant t).devStamp (s.atInstant t).now)) ∈ u.out)

/-- RESET_N_LOW (R545): RESET_N held low for 10 us causes a full reset. Here: reset pin long. -/
def ResetPinLongCompletes : Prop :=
  ∀ (t ns : Nat) (s : State),
    10000 ≤ ns →
    Completes (.resetNLow t ns) s (fun u => u.sys.cause = 2 ∧ u.pwr.inReset = true ∧ u.sys.bootState = 0 ∧ u.sys.boot = s.sys.boot ∧ u.health.segments
      = s.health.segments ∧ u.tb.presentSince = s.tb.presentSince ∧ u.tb.refclk = s.tb.refclk ∧ u.ltune = s.ltune ∧ (s.health.smbAlert = true →
      u.health.smbAlert = true))

/-- RESET_N_LOW (R545): RESET_N held low for 10 us causes a full reset. Here: reset pin as kind1. -/
def ResetPinAsKind1Completes : Prop :=
  ∀ (t ns : Nat) (s : State),
    10000 ≤ ns →
    Completes (.resetNLow t ns) s (fun u => exec (.resetBegins t) (s.modSys (fun y => { y with resetPend := some ⟨true, 0, 2, none, none, false⟩ })) =
      .next u)

/-- RESET_N_LOW (R545): RESET_N held low for 10 us causes a full reset. Here: reset pin short. -/
def ResetPinShortCompletes : Prop :=
  ∀ (t ns : Nat) (s : State),
    ns < 1000 →
    Completes (.resetNLow t ns) s (fun u => u = (s.atInstant t).settle)

/-- WIN_BASE_WRITE (R434): A write to WIN_BASE moves the BAR2 DRAM window for later accesses. Here: what the host reads afterwards. -/
def WinBaseReadsCompletes : Prop :=
  ∀ (t : Nat) (v : BitVec 64) (s : State),
    Completes (.winBaseWrite t v) s (fun u => ∀ k < 8, u.bar0Byte (0x110000 + k) = ((v >>> 21) <<< 21).extractLsb' (8 * k) 8)

/-- REGISTER_WRITE (R416): A host write to a register with no behaviour of its own, such as an MSI-X moderation register, updates it. Here: what the
host reads afterwards in a command area. -/
def CommandAreaReadsCompletes : Prop :=
  ∀ (t n o : Nat) (data : List Byte) (s : State),
    n < 8 →
    n < s.mbs.length →
    o + data.length ≤ 4096 →
    Completes (.registerWrite t (0x10000 + 0x2000 * n + o) data) s (fun u => ∀ k < data.length, u.bar0Byte (0x10000 + 0x2000 * n + o + k) = nth data k
      0#8)

end Sys2Proof.Machine

open Sys2Proof Sys2Proof.Machine

/-! ### Obligations -/

/-- For every command c, state s and rest of the queue: step of s with c in front of the rest is exec c on s with the rest. -/
def Obligations.StepRunsTheFrontCommand : Prop :=
  ∀ (c : Instr) (rest : List Instr) (s : State), step { s with pending := c :: rest } = exec c { s with pending := rest }

/-- For every state with an empty queue, step answers that state. This is the model's own rule for an idle block, named in log entry 1. -/
def Obligations.EmptyQueueIdles : Prop :=
  ∀ s : State, s.pending = [] → step s = .next s

/-- State.reset is in reset with BOOT_STATE 0; no command waits; every mailbox is not ready with no LAST_SEQ; no line runs and none has a plan; the
interferometer delay is undeclared; the felt weights are 64; HOLD_MS is 20; WIN_BASE is 0; the LTUNE codes are 0x8000; the lifecycle is Blank with all
PCIe rights and no session; no debug level is open; every gate and probe is quiet; the lists of DRAM bytes and of events are empty. That a mailbox
without a LAST_SEQ, the build chosen (DZ16) and the DRAM read as zeros are the model's choices is said in log entries 2, 3 and 4. -/
def Obligations.ResetValues : Prop :=
  State.reset.pending = [] ∧ State.reset.sys.bootState = 0 ∧ State.reset.pwr.inReset = true ∧
    State.reset.mbs.map (fun m => (m.st, m.lastSeq, m.held)) = List.replicate 8 (3, none, false) ∧
    State.reset.lines.map (fun r => r.st) = List.replicate 16 0 ∧ State.reset.cfg.plans = List.replicate 16 none ∧
    State.reset.cfg.refDelay = 0 ∧ State.reset.cfg.felt.map (fun f => f.parts) = List.replicate 16 64 ∧ State.reset.cfg.holdMs = 20 ∧
    State.reset.pcie.winBase = 0 ∧ State.reset.ltune = [0x8000, 0x8000] ∧ State.reset.sec.lifecycle = 0 ∧
    State.reset.sys.boot.pcieRights = 0x3F ∧ State.reset.sec.sessions = [] ∧ State.reset.dbg.level = 0 ∧ State.reset.quiet = true ∧
    State.reset.dram = [] ∧ State.reset.ev.held = []

/-- State.reset meets what the invariants say of every later state: emission is forbidden and off, DRAM is in canonical form, SMB_ALERT_N is sound, no
command waits. -/
def Obligations.ResetMeetsTheInvariants : Prop :=
  State.reset.emissionSafe ∧ State.reset.dark = true ∧ Memory.wf State.reset.dram = true ∧ State.reset.alertSound ∧ State.reset.hostPending = []

/-- A stamp is laid out in 12 bytes, byte k holding bits 8k+7 to 8k of the stamp. -/
def Obligations.StampBytesInOrder : Prop :=
  ∀ x : BitVec 96, (stampBytes x).length = 12 ∧ ∀ k < 12, nth (stampBytes x) k 0 = x.extractLsb' (8 * k) 8

/-- For a command that its mailbox serves. Difference 0: the stored response is sent again, LAST_SEQ and the stored copy stay, and nothing is
executed. Difference 32 768 to 65 535: ST_STALE_SEQ is answered, LAST_SEQ and the stored copy stay, and nothing is executed. Otherwise, or with no
LAST_SEQ (after release from reset): the command is judged, its response (a rejection too) is stored and its sequence becomes LAST_SEQ. -/
def Obligations.SequencesAreJudged : Prop :=
  ∀ (op : Nat) (h : Handler) (c : Cmd) (s : State), c.mb < s.mbs.length → c.eth = none →
    (∀ q, (s.mbOf c.mb).lastSeq = some q → (c.seq + 65536 - q % 65536) % 65536 = 0 →
      ((s.serve op h c).mbOf c.mb).lastSeq = some q ∧ ((s.serve op h c).mbOf c.mb).stored = (s.mbOf c.mb).stored ∧
      ((s.mbOf c.mb).rspAddr = 0#64 → ((s.serve op h c).mbOf c.mb).rspArea = ssetL 0#8 (s.mbOf c.mb).rspArea 0 (s.mbOf c.mb).stored) ∧
      ((s.mbOf c.mb).rspAddr ≠ 0#64 → Out.hostWrite (s.mbOf c.mb).rspAddr.toNat (s.mbOf c.mb).stored ∈ (s.serve op h c).out) ∧
      (s.serve op h c).pend = s.pend ∧ (s.serve op h c).cfg = s.cfg ∧ (s.serve op h c).ev = s.ev) ∧
    (∀ q, (s.mbOf c.mb).lastSeq = some q → 32768 ≤ (c.seq + 65536 - q % 65536) % 65536 →
      ((s.serve op h c).mbOf c.mb).lastSeq = some q ∧ ((s.serve op h c).mbOf c.mb).stored = (s.mbOf c.mb).stored ∧
      ((s.mbOf c.mb).rspAddr = 0#64 → ((s.serve op h c).mbOf c.mb).rspArea =
        ssetL 0#8 (s.mbOf c.mb).rspArea 0 (respBytes c.seq ⟨stStaleSeq, none, []⟩ (s.devStamp s.now))) ∧
      (s.serve op h c).pend = s.pend ∧ (s.serve op h c).cfg = s.cfg ∧ (s.serve op h c).ev = s.ev) ∧
    ((∀ x y, (h x y).2.mbs.length = y.mbs.length) →
      ((s.mbOf c.mb).lastSeq = none ∨
        ∃ q, (s.mbOf c.mb).lastSeq = some q ∧ 1 ≤ (c.seq + 65536 - q % 65536) % 65536 ∧ (c.seq + 65536 - q % 65536) % 65536 < 32768) →
      ((s.serve op h c).mbOf c.mb).lastSeq = some (c.seq % 65536) ∧
      ∃ eff, ((s.serve op h c).mbOf c.mb).stored = respBytes c.seq (judge op h c s).1 eff)

/-- A write of GO on a mailbox that is busy or holds a doorbell only adds one to IGNORED. On a mailbox whose STATE is 3 it is held, and nothing of the
command is read. When the device is ready the held doorbell runs the command as it then stands in the command area or at CMD_ADDR, and is held no
longer. -/
def Obligations.DoorbellsHeldAndIgnored : Prop :=
  DoorbellIgnoredCompletes ∧ DoorbellHeldCompletes ∧ DoorbellRunsCompletes

/-- An authenticated frame of the handshake session, or of a session from which no frame came yet, for a mailbox that is busy is answered ST_BUSY with
the frame's sequence; no mailbox, and so no sequence state, changes. -/
def Obligations.BusyMailboxAnswersFrames : Prop :=
  BusyFrameCompletes

/-- RESET_N low for at least 10 us answers the same next state as the reset that sys.reset KIND 1 scheduled, with cause 2; the always-on boot record
and self-test markers, the thermos count, the LTUNE codes and an asserted SMB_ALERT_N stay. A pulse shorter than 1 us changes nothing but the time. -/
def Obligations.ResetPinIsAFullReset : Prop :=
  ResetPinLongCompletes ∧ ResetPinAsKind1Completes ∧ ResetPinShortCompletes

/-- For every context of kinds 0 to 2 that is not idle the abort of dma.abort; WIN_BASE zero; every vector's moderation register zero; EV_PCIE_LINK
raised; no context of kind 3, no line, no stream of another context, no felt and no capture changed. -/
def Obligations.PcieLinkResetAborts : Prop :=
  PcieLinkResetCompletes

/-- For every command and state, exec answers a next state, or the command is the vendor's private JTAG instruction with debug level 3 open, which is
refused by name because the specification states no effect for it. -/
def Obligations.EveryCommandAnswers : Prop :=
  ∀ (i : Instr) (s : State), (∃ u, exec i s = .next u) ∨
    ∃ t, i = .jtagInstruction t .vendorPrivate ∧ 3 ≤ s.dbg.level ∧ exec i s = .refused .vendorPrivateInstruction

/-- Whatever command runs from whatever state: if the state it answers has EMIT_PERMIT low, or is in P2 or P3 (or is otherwise dark), every gate is at
its inactive level and no probe plays a waveform. No command, no debug access and no reset overrides it. -/
def Obligations.EmissionIsGated : Prop :=
  ∀ (i : Instr) (s u : State), exec i s = .next u →
    u.emissionSafe ∧ (u.emit.level = false → u.dark = true) ∧ (2 ≤ u.pwr.st → u.dark = true) ∧
      ∀ n, u.lineEnabled n = false → ∀ g, u.gateRun[n]? = some g → g.openSince = none

/-- Whatever command runs from whatever state: ALARM_N, FAULT_N and the analogue zone outputs of the state it answers are those of its zone mirror and
settings, and SMB_ALERT_N is asserted only while FAULT_N is low or a sensor is outside its bounds. -/
def Obligations.PinsFollowTheState : Prop :=
  ∀ (i : Instr) (s u : State), exec i s = .next u → u.pinsFollow ∧ u.alertSound ∧ (u.health.smbAlert = true → u.alertNow = true)

/-- From every state whose DRAM list has strictly rising addresses and lists no zero byte, every command that answers a next state leaves it so. -/
def Obligations.MemoryStaysCanonical : Prop :=
  ∀ (i : Instr) (s u : State), Memory.wf s.dram = true → exec i s = .next u → Memory.wf u.dram = true

/-- Whatever command runs from whatever state: the rollback counter and the count of fused repairs do not fall, a revoked owner slot stays revoked, an
erased device secret stays erased, and a scrapped device stays scrapped. -/
def Obligations.FusesOnlyAdvance : Prop :=
  ∀ (i : Instr) (s u : State), exec i s = .next u →
    s.sec.rollback ≤ u.sec.rollback ∧ s.health.fusesUsed ≤ u.health.fusesUsed ∧ (s.sec.secretErased = true → u.sec.secretErased = true) ∧
      (s.sec.lifecycle = 3 → u.sec.lifecycle = 3) ∧
      ∀ (n : Nat) (o : OwnerSlot), s.sec.owners[n]? = some o → o.revoked = true → ∃ o' : OwnerSlot, u.sec.owners[n]? = some o' ∧ o'.revoked = true

/-- Whatever command runs from whatever state: the instant of the state it answers is not earlier, the build is the same, and the queue of commands is
the same. -/
def Obligations.TimeAndQueueAreKept : Prop :=
  ∀ (i : Instr) (s u : State), exec i s = .next u → s.now ≤ u.now ∧ u.build = s.build ∧ u.pending = s.pending

/-- For every address outside the 64-byte blocks that the written bytes lie in, the byte read after the write is the byte read before. When those
blocks are sound and of a channel in service, every byte of the range is the byte written and every other byte is as it was. A BAR2 write stores at
WIN_BASE plus its offset; what the tile kernels have stored by its instant is stored before it. -/
def Obligations.DramWritesReadBack : Prop :=
  (∀ (s : State) (a : Nat) (data : List Byte) (x : Nat), (x / 64 < a / 64 ∨ (a + data.length - 1) / 64 < x / 64) →
      sget 0#8 (s.dramWrite a data).dram x = sget 0#8 s.dram x) ∧
    (∀ (s : State) (a : Nat) (data : List Byte) (x : Nat), Memory.wf s.dram = true →
      (∀ b ∈ blocksOf a data.length, s.blockLost b = false ∧ s.blockSt b = 0) →
      sget 0#8 (s.dramWrite a data).dram x = if a ≤ x ∧ x < a + data.length then nth data (x - a) 0#8 else sget 0#8 s.dram x) ∧
    (∀ (t off : Nat) (data : List Byte) (s : State), Completes (.bar2WindowWrite t off data) s (fun u =>
      ∀ x, (x / 64 < (s.pcie.winBase + off) / 64 ∨ (s.pcie.winBase + off + data.length - 1) / 64 < x / 64) →
        sget 0#8 u.dram x = sget 0#8 (s.atInstant t).runTiles.dram x))

/-- After a write of WIN_BASE its eight bytes read through BAR0 as the value with bits 20 to 0 zero; after a write inside a mailbox's command area its
bytes read through BAR0 as written. -/
def Obligations.RegistersReadBack : Prop :=
  WinBaseReadsCompletes ∧ CommandAreaReadsCompletes

/-- For each command of this family (35 rows, PLAN_DEFINE to CAL_READ) and every state: when it answers a next state, every component of the state
that writesOf does not list for it is as it was. Components are the register groups, queues, buffers, counters and memories of the state; time, the
event queue and log, the stamp-flag history, gates and DACs under the interlock, panel pins and SMB_ALERT_N follow the state at every command and have
their own statements. -/
def Obligations.PlanAndReceiverFrames : Prop :=
  ∀ (i : Instr) (s u : State), familyOf i = .planRx → exec i s = .next u → ∀ p, p ∉ writesOf i → s.keeps u p

/-- For each command of this family (28 rows, SHEET_COMPLETE to SLOW_STATUS) and every state: when it answers a next state, every component of the
state that writesOf does not list for it is as it was. Components are the register groups, queues, buffers, counters and memories of the state; time,
the event queue and log, the stamp-flag history, gates and DACs under the interlock, panel pins and SMB_ALERT_N follow the state at every command and
have their own statements. -/
def Obligations.LineAndFeltFrames : Prop :=
  ∀ (i : Instr) (s u : State), familyOf i = .lineFelt → exec i s = .next u → ∀ p, p ∉ writesOf i → s.keeps u p

/-- For each command of this family (35 rows, JOB_DISPATCH to CAP_STATUS) and every state: when it answers a next state, every component of the state
that writesOf does not list for it is as it was. Components are the register groups, queues, buffers, counters and memories of the state; time, the
event queue and log, the stamp-flag history, gates and DACs under the interlock, panel pins and SMB_ALERT_N follow the state at every command and have
their own statements. -/
def Obligations.TileAndTriggerFrames : Prop :=
  ∀ (i : Instr) (s u : State), familyOf i = .tileTrig → exec i s = .next u → ∀ p, p ∉ writesOf i → s.keeps u p

/-- For each command of this family (37 rows, PPS_IN_EDGE to TRAIL_SOURCE_LOST) and every state: when it answers a next state, every component of the
state that writesOf does not list for it is as it was. Components are the register groups, queues, buffers, counters and memories of the state; time,
the event queue and log, the stamp-flag history, gates and DACs under the interlock, panel pins and SMB_ALERT_N follow the state at every command and
have their own statements. -/
def Obligations.TimeFrames : Prop :=
  ∀ (i : Instr) (s u : State), familyOf i = .time → exec i s = .next u → ∀ p, p ∉ writesOf i → s.keeps u p

/-- For each command of this family (26 rows, THERMAL_SHEET_TAKEN to PANEL_STATUS) and every state: when it answers a next state, every component of
the state that writesOf does not list for it is as it was. Components are the register groups, queues, buffers, counters and memories of the state;
time, the event queue and log, the stamp-flag history, gates and DACs under the interlock, panel pins and SMB_ALERT_N follow the state at every
command and have their own statements. -/
def Obligations.ThermalAndZoneFrames : Prop :=
  ∀ (i : Instr) (s u : State), familyOf i = .thermZone → exec i s = .next u → ∀ p, p ∉ writesOf i → s.keeps u p

/-- For each command of this family (43 rows, BALE_RELEASE to HEARTBEAT_TICK) and every state: when it answers a next state, every component of the
state that writesOf does not list for it is as it was. Components are the register groups, queues, buffers, counters and memories of the state; time,
the event queue and log, the stamp-flag history, gates and DACs under the interlock, panel pins and SMB_ALERT_N follow the state at every command and
have their own statements. -/
def Obligations.MemoryAndLinkFrames : Prop :=
  ∀ (i : Instr) (s u : State), familyOf i = .memoryLinks → exec i s = .next u → ∀ p, p ∉ writesOf i → s.keeps u p

/-- For each command of this family (24 rows, MB_DOORBELL to SMB_CLOCK_LOW_TIMEOUT) and every state: when it answers a next state, every component of
the state that writesOf does not list for it is as it was. Components are the register groups, queues, buffers, counters and memories of the state;
time, the event queue and log, the stamp-flag history, gates and DACs under the interlock, panel pins and SMB_ALERT_N follow the state at every
command and have their own statements. -/
def Obligations.HostAccessFrames : Prop :=
  ∀ (i : Instr) (s u : State), familyOf i = .hostAccess → exec i s = .next u → ∀ p, p ∉ writesOf i → s.keeps u p

/-- For each command of this family (66 rows, SYS_IDENTIFY to RESUME_LINES_START) and every state: when it answers a next state, every component of
the state that writesOf does not list for it is as it was. Components are the register groups, queues, buffers, counters and memories of the state;
time, the event queue and log, the stamp-flag history, gates and DACs under the interlock, panel pins and SMB_ALERT_N follow the state at every
command and have their own statements. -/
def Obligations.SystemFrames : Prop :=
  ∀ (i : Instr) (s u : State), familyOf i = .system → exec i s = .next u → ∀ p, p ∉ writesOf i → s.keeps u p

/-- For every state and operands that meet the premises written out, each of these rows answers a next state that holds the effect its rules give it:
PLAN_DEFINE, PLAN_APPLY, PLAN_TAKES_EFFECT, PROBE_CHANGE, PLAN_TIMELINE, PROBE_CONFIG, PROBE_IDLE_CODE_CHANGE, PROBE_LOAD, PLAN_GATE_LIMIT,
GATE_LIMIT_TAKES_EFFECT. The premises are on the state and the operands alone; a row with several cases has one statement for each. -/
def Obligations.PlanCommandsComplete : Prop :=
  PlanDefineCompletes ∧ PlanApplyCompletes ∧ PlanTakesEffectCompletes ∧ ProbeChangeCompletes ∧ PlanTimelineCompletes ∧ ProbeConfigCompletes ∧
  ProbeIdleCodeChangeCompletes ∧ ProbeLoadCompletes ∧ PlanGateLimitCompletes ∧ GateLimitTakesEffectCompletes

/-- For every state and operands that meet the premises written out, each of these rows answers a next state that holds the effect its rules give it:
PLAN_SPOT, SPOT_LAUNCH, PLAN_STATUS, GRID_LAUNCH, DUTY_TRUNCATED, EMIT_PERMIT_FALL, EMIT_PERMIT_RISE, EMIT_QUALIFIED. The premises are on the state
and the operands alone; a row with several cases has one statement for each. -/
def Obligations.LaunchesComplete : Prop :=
  PlanSpotCompletes ∧ SpotLaunchCompletes ∧ SpotLaunchGateCompletes ∧ PlanStatusCompletes ∧ GridLaunchDarkCompletes ∧ GridLaunchCompletes ∧
  DutyTruncatedCompletes ∧ EmitPermitFallCompletes ∧ EmitPermitRiseCompletes ∧ EmitQualifiedCompletes

/-- For every state and operands that meet the premises written out, each of these rows answers a next state that holds the effect its rules give it:
LANE_WORD_RELEASE, MONITOR_BLOCK_END, QUAD_WAKE, QUAD_POWER_DOWN, RX_CONFIG, RX_CONFIG_TAKES_EFFECT, RX_REF_CONFIG, RX_HOLD, RX_STATUS. The premises
are on the state and the operands alone; a row with several cases has one statement for each. -/
def Obligations.ReceiverComplete : Prop :=
  LaneWordReleaseCompletes ∧ MonitorBlockEndPassCompletes ∧ MonitorBlockEndFailCompletes ∧ QuadWakeCompletes ∧ QuadPowerDownCompletes ∧
  QuadPowerDownReferenceCompletes ∧ RxConfigCompletes ∧ RxConfigTakesEffectCompletes ∧ RxRefConfigCompletes ∧ RxHoldCompletes ∧ RxStatusCompletes

/-- For every state and operands that meet the premises written out, each of these rows answers a next state that holds the effect its rules give it:
CAL_BLOCK_GATHERED, HANDOVER, OVERLAP_END, ROTATION_MOVE_READY, CAL_STALE, CAL_CONFIG, CAL_STATUS, CAL_READ. The premises are on the state and the
operands alone; a row with several cases has one statement for each. -/
def Obligations.CalenderComplete : Prop :=
  CalBlockGatheredCompletes ∧ CalBlockFailsCompletes ∧ CalBlockNotWholeCompletes ∧ HandoverCompletes ∧ OverlapEndCompletes ∧
  RotationMoveReadyCompletes ∧ CalStaleCompletes ∧ CalConfigCompletes ∧ CalStatusCompletes ∧ CalReadCompletes ∧ CalReadPairCompletes

/-- For every state and operands that meet the premises written out, each of these rows answers a next state that holds the effect its rules give it:
SHEET_COMPLETE, LINE_SPARED, LINE_UNSPARED, LINE_CONFIG, LINE_CONFIG_TAKES_EFFECT, LINE_START, LINE_STARTED, LINE_STOP, LINE_STOP_BOUNDARY,
LINE_STOPPED, LINE_STATUS, LINE_READ_STATE. The premises are on the state and the operands alone; a row with several cases has one statement for each.
-/
def Obligations.LinesComplete : Prop :=
  SheetCompleteCompletes ∧ LineSparedCompletes ∧ LineUnsparedCompletes ∧ LineConfigCompletes ∧ LineConfigTakesEffectCompletes ∧ LineStartCompletes ∧
  LineStartedCompletes ∧ LineStopCompletes ∧ LineStopBoundaryCompletes ∧ LineStoppedCompletes ∧ LineStatusCompletes ∧ LineReadStateCompletes

/-- For every state and operands that meet the premises written out, each of these rows answers a next state that holds the effect its rules give it:
FELT_QUIRE_BEGIN, QUIRE_COMPLETE, SLOW_QUIRE_RELEASED, SLOW_OVERRUN, FELT_RESIZE, FELT_RESIZE_TAKES_EFFECT, FELT_READER_OPEN, FELT_READER_MOVE,
FELT_READER_CLOSE, FELT_STATUS. The premises are on the state and the operands alone; a row with several cases has one statement for each. -/
def Obligations.FeltComplete : Prop :=
  FeltQuireBeginCompletes ∧ QuireCompleteCompletes ∧ SlowQuireReleasedCompletes ∧ SlowOverrunCompletes ∧ FeltResizeCompletes ∧
  FeltResizeFormatCompletes ∧ FeltResizeTakesEffectCompletes ∧ FeltReaderOpenCompletes ∧ FeltReaderMoveCompletes ∧ FeltReaderCloseCompletes ∧
  FeltStatusCompletes

/-- For every state and operands that meet the premises written out, each of these rows answers a next state that holds the effect its rules give it:
SLOW_CONFIG, SLOW_CONFIG_TAKES_EFFECT, SLOW_START, SLOW_STOP, SLOW_STOPPED, SLOW_STATUS. The premises are on the state and the operands alone; a row
with several cases has one statement for each. -/
def Obligations.SlowTimeComplete : Prop :=
  SlowConfigCompletes ∧ SlowConfigTakesEffectCompletes ∧ SlowStartCompletes ∧ SlowStartStoppedCompletes ∧ SlowStopCompletes ∧ SlowStoppedCompletes ∧
  SlowStatusCompletes

/-- For every state and operands that meet the premises written out, each of these rows answers a next state that holds the effect its rules give it:
JOB_DISPATCH, JOB_DONE, TILE_ABORT, TILE_SPARED, TILE_KERNEL_LOAD, TILE_KERNEL_UNLOAD, TILE_RUN, TILE_STATUS. The premises are on the state and the
operands alone; a row with several cases has one statement for each. -/
def Obligations.TilesComplete : Prop :=
  JobDispatchCompletes ∧ JobDispatchHostCompletes ∧ JobDoneCompletes ∧ JobDoneHostCompletes ∧ TileAbortCompletes ∧ TileAbortCommittedCompletes ∧
  TileAbortHostCompletes ∧ TileSparedCompletes ∧ TileKernelLoadChunkCompletes ∧ TileKernelLoadFirstCompletes ∧ TileKernelUnloadCompletes ∧
  TileRunCompletes ∧ TileStatusCompletes

/-- For every state and operands that meet the premises written out, each of these rows answers a next state that holds the effect its rules give it:
POINT_HITS_DECIDED, TRIG_IN_EDGE, BCAST_RX, TRIG_OUT_ASSERT, TRIG_OUT_WIDTH_END, CAPTURE_FORMED, CAPTURE_ROW_COPY, RAW_TRIGGER. The premises are on
the state and the operands alone; a row with several cases has one statement for each. -/
def Obligations.TriggersComplete : Prop :=
  PointHitsDecidedCompletes ∧ TrigInEdgeCompletes ∧ TrigInEdgeGlitchCompletes ∧ BcastRxCompletes ∧ TrigOutAssertCompletes ∧ TrigOutWidthEndCompletes
  ∧ CaptureFormedCompletes ∧ CaptureRowCopyCompletes ∧ RawTriggerCompletes ∧ RawTriggerLateCompletes

/-- For every state and operands that meet the premises written out, each of these rows answers a next state that holds the effect its rules give it:
RAW_SEGMENT_CLOSE, RAW_REARM, RAW_COPY_OUT, TRIG_DEFINE, TRIG_ARM, TRIG_DISARM, TRIG_ARM_TAKES_EFFECT, TRIG_REBASE, TRIG_REBASE_TAKES_EFFECT. The
premises are on the state and the operands alone; a row with several cases has one statement for each. -/
def Obligations.RawSetsAndConditionsComplete : Prop :=
  RawSegmentCloseCompletes ∧ RawSegmentCloseStallCompletes ∧ RawRearmCompletes ∧ RawCopyOutCompletes ∧ TrigDefineCompletes ∧ TrigArmCompletes ∧
  TrigDisarmCompletes ∧ TrigArmTakesEffectCompletes ∧ TrigArmTakesEffectDisarmCompletes ∧ TrigRebaseCompletes ∧ TrigRebaseTakesEffectCompletes

/-- For every state and operands that meet the premises written out, each of these rows answers a next state that holds the effect its rules give it:
TRIG_OUT, TRIG_STATUS, CAP_CONFIG, CAP_RAW_ARM, CAP_RAW_STOP, CAP_RAW_DONE, CAP_FORCE, CAP_LIST, CAP_RELEASE, CAP_STATUS. The premises are on the
state and the operands alone; a row with several cases has one statement for each. -/
def Obligations.CapturesComplete : Prop :=
  TrigOutCompletes ∧ TrigStatusCompletes ∧ CapConfigCompletes ∧ CapRawArmCompletes ∧ CapRawStopCompletes ∧ CapRawDoneCompletes ∧ CapForceCompletes ∧
  CapListCompletes ∧ CapReleaseCompletes ∧ CapStatusCompletes

/-- For every state and operands that meet the premises written out, each of these rows answers a next state that holds the effect its rules give it:
REFCLK_LOST, REFCLK_RESTORED, PPS_OUT_PULSE, PPS_OUT_WIDTH_END, PPS_IN_EDGE, PPS_LOST, PTP_SYNC_TIMEOUT, PTP_MESSAGE_RX, SERVO_RUN. The premises are
on the state and the operands alone; a row with several cases has one statement for each. -/
def Obligations.ClockComplete : Prop :=
  RefclkLostCompletes ∧ RefclkRestoredCompletes ∧ PpsOutPulseCompletes ∧ PpsOutWidthEndCompletes ∧ PpsInEdgeCompletes ∧ PpsInEdgeOutCompletes ∧
  PpsLostCompletes ∧ PtpSyncTimeoutCompletes ∧ PtpMessageRxCompletes ∧ PtpSyncTwoStepCompletes ∧ PtpDelayRespCompletes ∧ PtpMessageOtherCompletes ∧
  ServoRunCompletes

/-- For every state and operands that meet the premises written out, each of these rows answers a next state that holds the effect its rules give it:
SERVO_RUN, TB_STEP, TIME_SET, HOLDOVER_END, THERMOS_WARM, THERMOS_NOT_WARM, TB_CONFIG. The premises are on the state and the operands alone; a row
with several cases has one statement for each. -/
def Obligations.TimeBaseComplete : Prop :=
  ServoStepCompletes ∧ ServoHeldCompletes ∧ TbStepCompletes ∧ TimeSetCompletes ∧ HoldoverEndCompletes ∧ ThermosWarmCompletes ∧
  ThermosNotWarmCompletes ∧ TbConfigCompletes

/-- For every state and operands that meet the premises written out, each of these rows answers a next state that holds the effect its rules give it:
TIU_SELF_CHECK, TIU_SPARED, TIU_RESULT, TIU_TIMEOUT, TIU_MEASURE, TIU_ARMED, TIU_LAUNCH_ZERO, TIU_STATUS. The premises are on the state and the
operands alone; a row with several cases has one statement for each. -/
def Obligations.IntervalUnitsComplete : Prop :=
  TiuSelfCheckGoodCompletes ∧ TiuSelfCheckBadCompletes ∧ TiuSparedCompletes ∧ TiuResultCompletes ∧ TiuResultSeenCompletes ∧ TiuWrongOrderCompletes ∧
  TiuTimeoutCompletes ∧ TiuMeasureCompletes ∧ TiuArmedCompletes ∧ TiuLaunchZeroCompletes ∧ TiuStatusCompletes

/-- For every state and operands that meet the premises written out, each of these rows answers a next state that holds the effect its rules give it:
LAUNCH_ZERO_DONE, TB_CONFIG_TAKES_EFFECT, TB_STATUS, TRAIL_CONFIG, TRAIL_CONFIG_TAKES_EFFECT, TRAIL_STATUS, SYNC_TX, TOPO_TX, DELAY_REQ_TX, TOPO_RX.
The premises are on the state and the operands alone; a row with several cases has one statement for each. -/
def Obligations.TrailFramesComplete : Prop :=
  LaunchZeroDoneCompletes ∧ LaunchZeroMissedCompletes ∧ TbConfigTakesEffectCompletes ∧ TbStatusCompletes ∧ TrailConfigCompletes ∧
  TrailConfigTakesEffectCompletes ∧ TrailStatusCompletes ∧ SyncTxCompletes ∧ TopoTxCompletes ∧ DelayReqTxCompletes ∧ TopoRxCompletes

/-- For every state and operands that meet the premises written out, each of these rows answers a next state that holds the effect its rules give it:
DELAY_REQ_RX, DELAY_RESP_RX, TRAIL_SOURCE_LOST, SYNC_RX, BCAST_ORIGINATE, TRAIL_LINK_CHANGE. The premises are on the state and the operands alone; a
row with several cases has one statement for each. -/
def Obligations.TrailDelaysComplete : Prop :=
  DelayReqRxCompletes ∧ DelayRespRxCompletes ∧ TrailSourceLostCompletes ∧ SyncRxCompletes ∧ SyncRxBadCompletes ∧ BcastOriginateCompletes ∧
  TrailLinkChangeCompletes

/-- For every state and operands that meet the premises written out, each of these rows answers a next state that holds the effect its rules give it:
THERMAL_SHEET_TAKEN, THERMAL_INTERVAL_CLOSE, THERMAL_SWITCH, THERMAL_SWITCH_SETTLED, THERM_SPARED, THERM_CONFIG, THERM_CONFIG_TAKES_EFFECT,
THERM_ROUTE, THERM_STATUS. The premises are on the state and the operands alone; a row with several cases has one statement for each. -/
def Obligations.ThermalComplete : Prop :=
  ThermalSheetTakenCompletes ∧ ThermalSheetTakenDarkCompletes ∧ ThermalIntervalCloseCompletes ∧ ThermalSwitchCompletes ∧
  ThermalSwitchSettledCompletes ∧ ThermSparedCompletes ∧ ThermConfigCompletes ∧ ThermConfigTakesEffectCompletes ∧ ThermRouteCompletes ∧
  ThermStatusCompletes

/-- For every state and operands that meet the premises written out, each of these rows answers a next state that holds the effect its rules give it:
REF_SCAN_START, REF_CONVERSION_DONE, REF_LEAD, REF_CONFIG, REF_SCAN, REF_URGENT, REF_STATUS. The premises are on the state and the operands alone; a
row with several cases has one statement for each. -/
def Obligations.ReferenceSensorsComplete : Prop :=
  RefScanStartCompletes ∧ RefConversionDoneCompletes ∧ RefLeadCompletes ∧ RefConfigCompletes ∧ RefScanCompletes ∧ RefUrgentCompletes ∧
  RefUrgentIdleCompletes ∧ RefStatusCompletes

/-- For every state and operands that meet the premises written out, each of these rows answers a next state that holds the effect its rules give it:
ZONE_EVALUATION, ZONE_HOLD_END, ZONE_FAULT_TIMER, VREF_Z_MEASURE, ZONE_DEFINE, ZONE_ACK, ZONE_STATUS, PANEL_PINS, PANEL_ZOUT, PANEL_STATUS. The
premises are on the state and the operands alone; a row with several cases has one statement for each. -/
def Obligations.ZonesComplete : Prop :=
  ZoneEvaluationCompletes ∧ ZoneHoldEndCompletes ∧ ZoneFaultTimerCompletes ∧ VrefZMeasureCompletes ∧ VrefZMeasureOutsideCompletes ∧
  ZoneDefineCompletes ∧ ZoneDefineRemoveCompletes ∧ ZoneAckCompletes ∧ ZoneStatusCompletes ∧ PanelPinsCompletes ∧ PanelZoutCompletes ∧
  PanelStatusCompletes

/-- For every state and operands that meet the premises written out, each of these rows answers a next state that holds the effect its rules give it:
BALE_RELEASE, BALE_NO_SPACE, BALE_PROFILE, BALE_RUN_ENCODE, BALE_RUN_DECODE, BALE_JOB_DONE, BALE_RESUME, BALE_CANCEL, BALE_STATUS. The premises are on
the state and the operands alone; a row with several cases has one statement for each. -/
def Obligations.BalesComplete : Prop :=
  BaleReleaseCompletes ∧ BaleNoSpaceCompletes ∧ BaleProfileCompletes ∧ BaleProfileRemoveCompletes ∧ BaleRunEncodeCompletes ∧ BaleRunDecodeCompletes
  ∧ BaleJobDoneCompletes ∧ BaleJobStoppedCompletes ∧ BaleResumeCompletes ∧ BaleCancelCompletes ∧ BaleStatusCompletes

/-- For every state and operands that meet the premises written out, each of these rows answers a next state that holds the effect its rules give it:
DRAM_READ_DECODE, ROW_REMAP, ROW_TEST_DONE, SCRUB, REFRESH. The premises are on the state and the operands alone; a row with several cases has one
statement for each. -/
def Obligations.DramRepairComplete : Prop :=
  DramReadDecodeCompletes ∧ DramReadDecodeCorrectedCompletes ∧ DramReadDecodeUncorrectableCompletes ∧ RowRemapCompletes ∧ RowTestDoneCompletes ∧
  RowTestFailedCompletes ∧ ScrubCompletes ∧ RefreshCompletes

/-- For every state and operands that meet the premises written out, each of these rows answers a next state that holds the effect its rules give it:
WCK_DRIFT_CHECK, SELF_REFRESH_ENTRY, SELF_REFRESH_EXIT, REQUEST_LATE, CHANNEL_LOST, MEM_CONFIG, MEM_STATUS, MEM_REMAPS. The premises are on the state
and the operands alone; a row with several cases has one statement for each. -/
def Obligations.MemoryControlComplete : Prop :=
  WckDriftCheckCompletes ∧ SelfRefreshEntryCompletes ∧ SelfRefreshExitCompletes ∧ RequestLateCompletes ∧ ChannelLostCompletes ∧ MemConfigCompletes ∧
  MemStatusCompletes ∧ MemRemapsCompletes

/-- For every state and operands that meet the premises written out, each of these rows answers a next state that holds the effect its rules give it:
DESCRIPTOR_COMPLETE, DMA_HALTED, MSIX_MESSAGE, STREAM_RECORD_CLOSE, BUFFER_FLUSH, STREAM_OVERRUN, ETH_LINK_CHANGE, ARP_REQUEST. The premises are on
the state and the operands alone; a row with several cases has one statement for each. -/
def Obligations.DescriptorsComplete : Prop :=
  DescriptorCompleteCompletes ∧ DescriptorCompleteToHostCompletes ∧ DmaHaltedCompletes ∧ MsixMessageCompletes ∧ StreamRecordCloseCompletes ∧
  BufferFlushCompletes ∧ StreamOverrunCompletes ∧ EthLinkChangeCompletes ∧ ArpRequestCompletes

/-- For every state and operands that meet the premises written out, each of these rows answers a next state that holds the effect its rules give it:
DMA_CONFIG, DMA_RESUME, DMA_ABORT, DMA_LINK, DMA_PORT, STREAM_DEFINE, STREAM_ATTACH, STREAM_DETACH, STREAM_DETACHED, DMA_STATUS, EVENT_RELEASE,
HEARTBEAT_TICK. The premises are on the state and the operands alone; a row with several cases has one statement for each. -/
def Obligations.DmaCommandsComplete : Prop :=
  DmaConfigCompletes ∧ DmaResumeCompletes ∧ DmaAbortCompletes ∧ DmaLinkCompletes ∧ DmaPortCompletes ∧ StreamDefineCompletes ∧ StreamAttachCompletes
  ∧ StreamDetachCompletes ∧ StreamDetachedCompletes ∧ DmaStatusCompletes ∧ EventReleaseCompletes ∧ HeartbeatTickCompletes

/-- For every state and operands that meet the premises written out, each of these rows answers a next state that holds the effect its rules give it:
MB_DOORBELL, HELD_DOORBELL_RUNS, MB_DONE_CLEAR, ETH_MAILBOX_FRAME, CONTEXT_DOORBELL, WIN_BASE_WRITE, BAR2_WINDOW_READ, BAR2_WINDOW_WRITE. The premises
are on the state and the operands alone; a row with several cases has one statement for each. -/
def Obligations.MailboxAccessComplete : Prop :=
  MbDoorbellCompletes ∧ HeldDoorbellRunsCompletes ∧ MbDoneClearCompletes ∧ EthMailboxFrameCompletes ∧ ContextDoorbellCompletes ∧
  ContextDoorbellStartsCompletes ∧ WinBaseWriteCompletes ∧ Bar2WindowReadCompletes ∧ Bar2WindowReadDeniedCompletes ∧ Bar2WindowWriteCompletes ∧
  Bar2WindowWriteDeniedCompletes

/-- For every state and operands that meet the premises written out, each of these rows answers a next state that holds the effect its rules give it:
DEBUG_WINDOW_ACCESS, REGISTER_WRITE, ZSP_TRANSACTION, SMB_LTUNE_WRITE, SMB_ALERT_RESPONSE. The premises are on the state and the operands alone; a row
with several cases has one statement for each. -/
def Obligations.HostPinsComplete : Prop :=
  DebugWindowReadCompletes ∧ DebugWindowStateCompletes ∧ DebugWindowWriteCompletes ∧ RegisterWriteCompletes ∧ ZspTransactionCompletes ∧
  ZspTransactionAbandonedCompletes ∧ SmbLtuneWriteCompletes ∧ SmbAlertResponseCompletes

/-- For every state and operands that meet the premises written out, each of these rows answers a next state that holds the effect its rules give it:
SYS_IDENTIFY, SYS_SNAPSHOT, SNAPSHOT_COMMITTED, SYS_RESTORE, SYS_SHUTDOWN, SHUTDOWN_COMPLETE, SYS_RESET, RESET_BEGINS, SYS_TIME_READ, SYS_TIME_SET,
SYS_TIME_SET_BOUNDARY, SYS_STATUS, SYS_EVENTS. The premises are on the state and the operands alone; a row with several cases has one statement for
each. -/
def Obligations.SystemCommandsComplete : Prop :=
  SysIdentifyCompletes ∧ SysSnapshotCompletes ∧ SnapshotCommittedCompletes ∧ SysRestoreCompletes ∧ SysRestoreBankCompletes ∧ SysShutdownCompletes ∧
  ShutdownCompleteCompletes ∧ SysResetCompletes ∧ ResetBeginsCompletes ∧ SysTimeReadCompletes ∧ SysTimeSetCompletes ∧ SysTimeSetBoundaryCompletes ∧
  SysStatusCompletes ∧ SysEventsCompletes

/-- For every state and operands that meet the premises written out, each of these rows answers a next state that holds the effect its rules give it:
PWR_WARN_RISE, PWR_WARN_CLEAR, POWER_LOSS, POWER_UP, RESET_N_LOW, RELEASE_FROM_RESET, DRAM_TRAINED, RESTORE_COMPLETE, RESUME_LINES_START. The premises
are on the state and the operands alone; a row with several cases has one statement for each. -/
def Obligations.BootComplete : Prop :=
  PwrWarnRiseCompletes ∧ PwrWarnClearCompletes ∧ PowerLossCompletes ∧ PowerUpCompletes ∧ ResetNLowCompletes ∧ ReleaseFromResetCompletes ∧
  ReleaseFromResetFailsCompletes ∧ DramTrainedCompletes ∧ RestoreCompleteCompletes ∧ ResumeLinesStartCompletes

/-- For every state and operands that meet the premises written out, each of these rows answers a next state that holds the effect its rules give it:
PCIE_LINK_UP, STREAM_PACKET_SENT, TOKEN_BUCKET_REFILL, PAUSE_FRAME_RX, ETH_FRAME_DROPPED, FULL_RETRAINING_DONE, WATCHDOG_RESET, JTAG_INSTRUCTION,
SMB_CLOCK_LOW_TIMEOUT. The premises are on the state and the operands alone; a row with several cases has one statement for each. -/
def Obligations.LinkAndDebugEventsComplete : Prop :=
  PcieLinkUpCompletes ∧ StreamPacketSentCompletes ∧ TokenBucketRefillCompletes ∧ PauseFrameRxCompletes ∧ EthFrameDroppedCompletes ∧
  FullRetrainingDoneCompletes ∧ WatchdogResetCompletes ∧ JtagIdcodeCompletes ∧ JtagHaltCompletes ∧ JtagResumeCompletes ∧ JtagClosedCompletes ∧
  SmbClockLowTimeoutCompletes

/-- For every state and operands that meet the premises written out, each of these rows answers a next state that holds the effect its rules give it:
SEC_CHALLENGE, NONCE_EXPIRY, SEC_ENROLL, SEC_SERVICE_ENTER, SEC_SERVICE_LEAVE, SERVICE_EXPIRY, SEC_SCRAP, SEC_FW_LOAD, FW_ERASE_DONE, SEC_FW_ACTIVATE,
SEC_FW_COMMIT, TRIAL_BOOT_TIMEOUT. The premises are on the state and the operands alone; a row with several cases has one statement for each. -/
def Obligations.LifecycleComplete : Prop :=
  SecChallengeCompletes ∧ NonceExpiryCompletes ∧ SecEnrollCompletes ∧ SecServiceEnterCompletes ∧ SecServiceLeaveCompletes ∧ ServiceExpiryCompletes ∧
  SecScrapCompletes ∧ SecFwLoadCompletes ∧ SecFwLoadChunkCompletes ∧ FwEraseDoneCompletes ∧ SecFwActivateCompletes ∧ SecFwCommitCompletes ∧
  TrialBootTimeoutCompletes

/-- For every state and operands that meet the premises written out, each of these rows answers a next state that holds the effect its rules give it:
SEC_SESSION_OPEN, SEC_SESSION_CLOSE, SESSION_EXPIRY, SEC_RIGHTS, SEC_STATUS, DBG_OPEN, DBG_CLOSE, DEBUG_LEVEL_EXPIRY. The premises are on the state
and the operands alone; a row with several cases has one statement for each. -/
def Obligations.SessionsAndDebugComplete : Prop :=
  SecSessionOpenCompletes ∧ SecSessionCloseCompletes ∧ SessionExpiryCompletes ∧ SecRightsCompletes ∧ SecStatusCompletes ∧ DbgOpenCompletes ∧
  DbgCloseCompletes ∧ DebugLevelExpiryCompletes

/-- For every state and operands that meet the premises written out, each of these rows answers a next state that holds the effect its rules give it:
PWR_CONFIG, PWR_STATE, P2_ENTERED, P2_EXIT, P3_ENTERED, P3_EXIT, PWR_STATUS. The premises are on the state and the operands alone; a row with several
cases has one statement for each. -/
def Obligations.PowerStatesComplete : Prop :=
  PwrConfigCompletes ∧ PwrStateCompletes ∧ PwrStateSwapCompletes ∧ P2EnteredCompletes ∧ P2ExitCompletes ∧ P3EnteredCompletes ∧
  P3EnteredFailsCompletes ∧ P3ExitCompletes ∧ PwrStatusCompletes

/-- For every state and operands that meet the premises written out, each of these rows answers a next state that holds the effect its rules give it:
TARGETED_TEST_DONE, NO_SPARE, SRAM_ERROR, D2D_LANE_ERROR, SELFTEST_SEGMENT_DONE, SENSOR_SAMPLE, COUNTER_SATURATED. The premises are on the state and
the operands alone; a row with several cases has one statement for each. -/
def Obligations.HamperEventsComplete : Prop :=
  TargetedTestDoneCompletes ∧ TargetedTestFailedCompletes ∧ NoSpareCompletes ∧ SramErrorCompletes ∧ SramErrorDetectedCompletes ∧
  D2dLaneErrorCompletes ∧ D2dLaneReplacedCompletes ∧ SelftestSegmentDoneCompletes ∧ SensorSampleCompletes ∧ CounterSaturatedCompletes

/-- For every state and operands that meet the premises written out, each of these rows answers a next state that holds the effect its rules give it:
HEALTH_STATUS, HEALTH_UNITS, HEALTH_TEST, HEALTH_ACCEPT, HEALTH_FUSE_REPAIR, FUSE_REPAIR_DONE, HEALTH_RESULTS, HEALTH_SENSORS, HEALTH_LIMITS,
HEALTH_LOG_READ. The premises are on the state and the operands alone; a row with several cases has one statement for each. -/
def Obligations.HealthCommandsComplete : Prop :=
  HealthStatusCompletes ∧ HealthUnitsCompletes ∧ HealthTestCompletes ∧ HealthAcceptCompletes ∧ HealthFuseRepairCompletes ∧ FuseRepairDoneCompletes ∧
  HealthResultsCompletes ∧ HealthSensorsCompletes ∧ HealthLimitsCompletes ∧ HealthLogReadCompletes
end

