-- ==== Sys2Proof/Laws/State.lean ====
section
/-! SUPPORT. What each update of the state leaves as it was, and what it makes of the component it changes: one lemma per field and update,
true by definition, so that no proof unfolds a record update. -/

namespace Sys2Proof.Machine

/-! `modSys` changes `sys` alone. -/
@[simp] theorem State.modSys_pending (s : State) (f : Sys → Sys) : (s.modSys f).pending = s.pending := rfl
@[simp] theorem State.modSys_build (s : State) (f : Sys → Sys) : (s.modSys f).build = s.build := rfl
@[simp] theorem State.modSys_now (s : State) (f : Sys → Sys) : (s.modSys f).now = s.now := rfl
@[simp] theorem State.modSys_out (s : State) (f : Sys → Sys) : (s.modSys f).out = s.out := rfl
@[simp] theorem State.modSys_free (s : State) (f : Sys → Sys) : (s.modSys f).free = s.free := rfl
@[simp] theorem State.modSys_cfg (s : State) (f : Sys → Sys) : (s.modSys f).cfg = s.cfg := rfl
@[simp] theorem State.modSys_mbs (s : State) (f : Sys → Sys) : (s.modSys f).mbs = s.mbs := rfl
@[simp] theorem State.modSys_pend (s : State) (f : Sys → Sys) : (s.modSys f).pend = s.pend := rfl
@[simp] theorem State.modSys_ev (s : State) (f : Sys → Sys) : (s.modSys f).ev = s.ev := rfl
@[simp] theorem State.modSys_log (s : State) (f : Sys → Sys) : (s.modSys f).log = s.log := rfl
@[simp] theorem State.modSys_warn (s : State) (f : Sys → Sys) : (s.modSys f).warn = s.warn := rfl
@[simp] theorem State.modSys_flagHist (s : State) (f : Sys → Sys) : (s.modSys f).flagHist = s.flagHist := rfl
@[simp] theorem State.modSys_tb (s : State) (f : Sys → Sys) : (s.modSys f).tb = s.tb := rfl
@[simp] theorem State.modSys_tiu (s : State) (f : Sys → Sys) : (s.modSys f).tiu = s.tiu := rfl
@[simp] theorem State.modSys_trail (s : State) (f : Sys → Sys) : (s.modSys f).trail = s.trail := rfl
@[simp] theorem State.modSys_grid (s : State) (f : Sys → Sys) : (s.modSys f).grid = s.grid := rfl
@[simp] theorem State.modSys_gateRun (s : State) (f : Sys → Sys) : (s.modSys f).gateRun = s.gateRun := rfl
@[simp] theorem State.modSys_probeRun (s : State) (f : Sys → Sys) : (s.modSys f).probeRun = s.probeRun := rfl
@[simp] theorem State.modSys_emit (s : State) (f : Sys → Sys) : (s.modSys f).emit = s.emit := rfl
@[simp] theorem State.modSys_lines (s : State) (f : Sys → Sys) : (s.modSys f).lines = s.lines := rfl
@[simp] theorem State.modSys_ctxs (s : State) (f : Sys → Sys) : (s.modSys f).ctxs = s.ctxs := rfl
@[simp] theorem State.modSys_streams (s : State) (f : Sys → Sys) : (s.modSys f).streams = s.streams := rfl
@[simp] theorem State.modSys_ports (s : State) (f : Sys → Sys) : (s.modSys f).ports = s.ports := rfl
@[simp] theorem State.modSys_vectors (s : State) (f : Sys → Sys) : (s.modSys f).vectors = s.vectors := rfl
@[simp] theorem State.modSys_pcie (s : State) (f : Sys → Sys) : (s.modSys f).pcie = s.pcie := rfl
@[simp] theorem State.modSys_sec (s : State) (f : Sys → Sys) : (s.modSys f).sec = s.sec := rfl
@[simp] theorem State.modSys_dbg (s : State) (f : Sys → Sys) : (s.modSys f).dbg = s.dbg := rfl
@[simp] theorem State.modSys_pwr (s : State) (f : Sys → Sys) : (s.modSys f).pwr = s.pwr := rfl
@[simp] theorem State.modSys_health (s : State) (f : Sys → Sys) : (s.modSys f).health = s.health := rfl
@[simp] theorem State.modSys_dram (s : State) (f : Sys → Sys) : (s.modSys f).dram = s.dram := rfl
@[simp] theorem State.modSys_ltune (s : State) (f : Sys → Sys) : (s.modSys f).ltune = s.ltune := rfl
@[simp] theorem State.modSys_quads (s : State) (f : Sys → Sys) : (s.modSys f).quads = s.quads := rfl
@[simp] theorem State.modSys_cal (s : State) (f : Sys → Sys) : (s.modSys f).cal = s.cal := rfl
@[simp] theorem State.modSys_ref2 (s : State) (f : Sys → Sys) : (s.modSys f).ref2 = s.ref2 := rfl
@[simp] theorem State.modSys_felt (s : State) (f : Sys → Sys) : (s.modSys f).felt = s.felt := rfl
@[simp] theorem State.modSys_slow (s : State) (f : Sys → Sys) : (s.modSys f).slow = s.slow := rfl
@[simp] theorem State.modSys_tiles (s : State) (f : Sys → Sys) : (s.modSys f).tiles = s.tiles := rfl
@[simp] theorem State.modSys_mem (s : State) (f : Sys → Sys) : (s.modSys f).mem = s.mem := rfl
@[simp] theorem State.modSys_trig (s : State) (f : Sys → Sys) : (s.modSys f).trig = s.trig := rfl
@[simp] theorem State.modSys_therm (s : State) (f : Sys → Sys) : (s.modSys f).therm = s.therm := rfl
@[simp] theorem State.modSys_zones (s : State) (f : Sys → Sys) : (s.modSys f).zones = s.zones := rfl
@[simp] theorem State.modSys_panel (s : State) (f : Sys → Sys) : (s.modSys f).panel = s.panel := rfl
@[simp] theorem State.modSys_bale (s : State) (f : Sys → Sys) : (s.modSys f).bale = s.bale := rfl
@[simp] theorem State.modSys_memMask (s : State) (f : Sys → Sys) : (s.modSys f).memMask = s.memMask := rfl
@[simp] theorem State.modSys_capMibNow (s : State) (f : Sys → Sys) : (s.modSys f).capMibNow = s.capMibNow := rfl
@[simp] theorem State.modSys_sys (s : State) (f : Sys → Sys) : (s.modSys f).sys = f s.sys := rfl

/-! `modCfg` changes `cfg` alone. -/
@[simp] theorem State.modCfg_pending (s : State) (f : Retained → Retained) : (s.modCfg f).pending = s.pending := rfl
@[simp] theorem State.modCfg_build (s : State) (f : Retained → Retained) : (s.modCfg f).build = s.build := rfl
@[simp] theorem State.modCfg_now (s : State) (f : Retained → Retained) : (s.modCfg f).now = s.now := rfl
@[simp] theorem State.modCfg_out (s : State) (f : Retained → Retained) : (s.modCfg f).out = s.out := rfl
@[simp] theorem State.modCfg_free (s : State) (f : Retained → Retained) : (s.modCfg f).free = s.free := rfl
@[simp] theorem State.modCfg_sys (s : State) (f : Retained → Retained) : (s.modCfg f).sys = s.sys := rfl
@[simp] theorem State.modCfg_mbs (s : State) (f : Retained → Retained) : (s.modCfg f).mbs = s.mbs := rfl
@[simp] theorem State.modCfg_pend (s : State) (f : Retained → Retained) : (s.modCfg f).pend = s.pend := rfl
@[simp] theorem State.modCfg_ev (s : State) (f : Retained → Retained) : (s.modCfg f).ev = s.ev := rfl
@[simp] theorem State.modCfg_log (s : State) (f : Retained → Retained) : (s.modCfg f).log = s.log := rfl
@[simp] theorem State.modCfg_warn (s : State) (f : Retained → Retained) : (s.modCfg f).warn = s.warn := rfl
@[simp] theorem State.modCfg_flagHist (s : State) (f : Retained → Retained) : (s.modCfg f).flagHist = s.flagHist := rfl
@[simp] theorem State.modCfg_tb (s : State) (f : Retained → Retained) : (s.modCfg f).tb = s.tb := rfl
@[simp] theorem State.modCfg_tiu (s : State) (f : Retained → Retained) : (s.modCfg f).tiu = s.tiu := rfl
@[simp] theorem State.modCfg_trail (s : State) (f : Retained → Retained) : (s.modCfg f).trail = s.trail := rfl
@[simp] theorem State.modCfg_grid (s : State) (f : Retained → Retained) : (s.modCfg f).grid = s.grid := rfl
@[simp] theorem State.modCfg_gateRun (s : State) (f : Retained → Retained) : (s.modCfg f).gateRun = s.gateRun := rfl
@[simp] theorem State.modCfg_probeRun (s : State) (f : Retained → Retained) : (s.modCfg f).probeRun = s.probeRun := rfl
@[simp] theorem State.modCfg_emit (s : State) (f : Retained → Retained) : (s.modCfg f).emit = s.emit := rfl
@[simp] theorem State.modCfg_lines (s : State) (f : Retained → Retained) : (s.modCfg f).lines = s.lines := rfl
@[simp] theorem State.modCfg_ctxs (s : State) (f : Retained → Retained) : (s.modCfg f).ctxs = s.ctxs := rfl
@[simp] theorem State.modCfg_streams (s : State) (f : Retained → Retained) : (s.modCfg f).streams = s.streams := rfl
@[simp] theorem State.modCfg_ports (s : State) (f : Retained → Retained) : (s.modCfg f).ports = s.ports := rfl
@[simp] theorem State.modCfg_vectors (s : State) (f : Retained → Retained) : (s.modCfg f).vectors = s.vectors := rfl
@[simp] theorem State.modCfg_pcie (s : State) (f : Retained → Retained) : (s.modCfg f).pcie = s.pcie := rfl
@[simp] theorem State.modCfg_sec (s : State) (f : Retained → Retained) : (s.modCfg f).sec = s.sec := rfl
@[simp] theorem State.modCfg_dbg (s : State) (f : Retained → Retained) : (s.modCfg f).dbg = s.dbg := rfl
@[simp] theorem State.modCfg_pwr (s : State) (f : Retained → Retained) : (s.modCfg f).pwr = s.pwr := rfl
@[simp] theorem State.modCfg_health (s : State) (f : Retained → Retained) : (s.modCfg f).health = s.health := rfl
@[simp] theorem State.modCfg_dram (s : State) (f : Retained → Retained) : (s.modCfg f).dram = s.dram := rfl
@[simp] theorem State.modCfg_ltune (s : State) (f : Retained → Retained) : (s.modCfg f).ltune = s.ltune := rfl
@[simp] theorem State.modCfg_quads (s : State) (f : Retained → Retained) : (s.modCfg f).quads = s.quads := rfl
@[simp] theorem State.modCfg_cal (s : State) (f : Retained → Retained) : (s.modCfg f).cal = s.cal := rfl
@[simp] theorem State.modCfg_ref2 (s : State) (f : Retained → Retained) : (s.modCfg f).ref2 = s.ref2 := rfl
@[simp] theorem State.modCfg_felt (s : State) (f : Retained → Retained) : (s.modCfg f).felt = s.felt := rfl
@[simp] theorem State.modCfg_slow (s : State) (f : Retained → Retained) : (s.modCfg f).slow = s.slow := rfl
@[simp] theorem State.modCfg_tiles (s : State) (f : Retained → Retained) : (s.modCfg f).tiles = s.tiles := rfl
@[simp] theorem State.modCfg_mem (s : State) (f : Retained → Retained) : (s.modCfg f).mem = s.mem := rfl
@[simp] theorem State.modCfg_trig (s : State) (f : Retained → Retained) : (s.modCfg f).trig = s.trig := rfl
@[simp] theorem State.modCfg_therm (s : State) (f : Retained → Retained) : (s.modCfg f).therm = s.therm := rfl
@[simp] theorem State.modCfg_zones (s : State) (f : Retained → Retained) : (s.modCfg f).zones = s.zones := rfl
@[simp] theorem State.modCfg_panel (s : State) (f : Retained → Retained) : (s.modCfg f).panel = s.panel := rfl
@[simp] theorem State.modCfg_bale (s : State) (f : Retained → Retained) : (s.modCfg f).bale = s.bale := rfl
@[simp] theorem State.modCfg_memMask (s : State) (f : Retained → Retained) : (s.modCfg f).memMask = s.memMask := rfl
@[simp] theorem State.modCfg_capMibNow (s : State) (f : Retained → Retained) : (s.modCfg f).capMibNow = s.capMibNow := rfl
@[simp] theorem State.modCfg_cfg (s : State) (f : Retained → Retained) : (s.modCfg f).cfg = f s.cfg := rfl

/-! `modTb` changes `tb` alone. -/
@[simp] theorem State.modTb_pending (s : State) (f : TimeBase → TimeBase) : (s.modTb f).pending = s.pending := rfl
@[simp] theorem State.modTb_build (s : State) (f : TimeBase → TimeBase) : (s.modTb f).build = s.build := rfl
@[simp] theorem State.modTb_now (s : State) (f : TimeBase → TimeBase) : (s.modTb f).now = s.now := rfl
@[simp] theorem State.modTb_out (s : State) (f : TimeBase → TimeBase) : (s.modTb f).out = s.out := rfl
@[simp] theorem State.modTb_free (s : State) (f : TimeBase → TimeBase) : (s.modTb f).free = s.free := rfl
@[simp] theorem State.modTb_sys (s : State) (f : TimeBase → TimeBase) : (s.modTb f).sys = s.sys := rfl
@[simp] theorem State.modTb_cfg (s : State) (f : TimeBase → TimeBase) : (s.modTb f).cfg = s.cfg := rfl
@[simp] theorem State.modTb_mbs (s : State) (f : TimeBase → TimeBase) : (s.modTb f).mbs = s.mbs := rfl
@[simp] theorem State.modTb_pend (s : State) (f : TimeBase → TimeBase) : (s.modTb f).pend = s.pend := rfl
@[simp] theorem State.modTb_ev (s : State) (f : TimeBase → TimeBase) : (s.modTb f).ev = s.ev := rfl
@[simp] theorem State.modTb_log (s : State) (f : TimeBase → TimeBase) : (s.modTb f).log = s.log := rfl
@[simp] theorem State.modTb_warn (s : State) (f : TimeBase → TimeBase) : (s.modTb f).warn = s.warn := rfl
@[simp] theorem State.modTb_flagHist (s : State) (f : TimeBase → TimeBase) : (s.modTb f).flagHist = s.flagHist := rfl
@[simp] theorem State.modTb_tiu (s : State) (f : TimeBase → TimeBase) : (s.modTb f).tiu = s.tiu := rfl
@[simp] theorem State.modTb_trail (s : State) (f : TimeBase → TimeBase) : (s.modTb f).trail = s.trail := rfl
@[simp] theorem State.modTb_grid (s : State) (f : TimeBase → TimeBase) : (s.modTb f).grid = s.grid := rfl
@[simp] theorem State.modTb_gateRun (s : State) (f : TimeBase → TimeBase) : (s.modTb f).gateRun = s.gateRun := rfl
@[simp] theorem State.modTb_probeRun (s : State) (f : TimeBase → TimeBase) : (s.modTb f).probeRun = s.probeRun := rfl
@[simp] theorem State.modTb_emit (s : State) (f : TimeBase → TimeBase) : (s.modTb f).emit = s.emit := rfl
@[simp] theorem State.modTb_lines (s : State) (f : TimeBase → TimeBase) : (s.modTb f).lines = s.lines := rfl
@[simp] theorem State.modTb_ctxs (s : State) (f : TimeBase → TimeBase) : (s.modTb f).ctxs = s.ctxs := rfl
@[simp] theorem State.modTb_streams (s : State) (f : TimeBase → TimeBase) : (s.modTb f).streams = s.streams := rfl
@[simp] theorem State.modTb_ports (s : State) (f : TimeBase → TimeBase) : (s.modTb f).ports = s.ports := rfl
@[simp] theorem State.modTb_vectors (s : State) (f : TimeBase → TimeBase) : (s.modTb f).vectors = s.vectors := rfl
@[simp] theorem State.modTb_pcie (s : State) (f : TimeBase → TimeBase) : (s.modTb f).pcie = s.pcie := rfl
@[simp] theorem State.modTb_sec (s : State) (f : TimeBase → TimeBase) : (s.modTb f).sec = s.sec := rfl
@[simp] theorem State.modTb_dbg (s : State) (f : TimeBase → TimeBase) : (s.modTb f).dbg = s.dbg := rfl
@[simp] theorem State.modTb_pwr (s : State) (f : TimeBase → TimeBase) : (s.modTb f).pwr = s.pwr := rfl
@[simp] theorem State.modTb_health (s : State) (f : TimeBase → TimeBase) : (s.modTb f).health = s.health := rfl
@[simp] theorem State.modTb_dram (s : State) (f : TimeBase → TimeBase) : (s.modTb f).dram = s.dram := rfl
@[simp] theorem State.modTb_ltune (s : State) (f : TimeBase → TimeBase) : (s.modTb f).ltune = s.ltune := rfl
@[simp] theorem State.modTb_quads (s : State) (f : TimeBase → TimeBase) : (s.modTb f).quads = s.quads := rfl
@[simp] theorem State.modTb_cal (s : State) (f : TimeBase → TimeBase) : (s.modTb f).cal = s.cal := rfl
@[simp] theorem State.modTb_ref2 (s : State) (f : TimeBase → TimeBase) : (s.modTb f).ref2 = s.ref2 := rfl
@[simp] theorem State.modTb_felt (s : State) (f : TimeBase → TimeBase) : (s.modTb f).felt = s.felt := rfl
@[simp] theorem State.modTb_slow (s : State) (f : TimeBase → TimeBase) : (s.modTb f).slow = s.slow := rfl
@[simp] theorem State.modTb_tiles (s : State) (f : TimeBase → TimeBase) : (s.modTb f).tiles = s.tiles := rfl
@[simp] theorem State.modTb_mem (s : State) (f : TimeBase → TimeBase) : (s.modTb f).mem = s.mem := rfl
@[simp] theorem State.modTb_trig (s : State) (f : TimeBase → TimeBase) : (s.modTb f).trig = s.trig := rfl
@[simp] theorem State.modTb_therm (s : State) (f : TimeBase → TimeBase) : (s.modTb f).therm = s.therm := rfl
@[simp] theorem State.modTb_zones (s : State) (f : TimeBase → TimeBase) : (s.modTb f).zones = s.zones := rfl
@[simp] theorem State.modTb_panel (s : State) (f : TimeBase → TimeBase) : (s.modTb f).panel = s.panel := rfl
@[simp] theorem State.modTb_bale (s : State) (f : TimeBase → TimeBase) : (s.modTb f).bale = s.bale := rfl
@[simp] theorem State.modTb_memMask (s : State) (f : TimeBase → TimeBase) : (s.modTb f).memMask = s.memMask := rfl
@[simp] theorem State.modTb_capMibNow (s : State) (f : TimeBase → TimeBase) : (s.modTb f).capMibNow = s.capMibNow := rfl
@[simp] theorem State.modTb_tb (s : State) (f : TimeBase → TimeBase) : (s.modTb f).tb = f s.tb := rfl

/-! `modTiu` changes `tiu` alone. -/
@[simp] theorem State.modTiu_pending (s : State) (f : TiuState → TiuState) : (s.modTiu f).pending = s.pending := rfl
@[simp] theorem State.modTiu_build (s : State) (f : TiuState → TiuState) : (s.modTiu f).build = s.build := rfl
@[simp] theorem State.modTiu_now (s : State) (f : TiuState → TiuState) : (s.modTiu f).now = s.now := rfl
@[simp] theorem State.modTiu_out (s : State) (f : TiuState → TiuState) : (s.modTiu f).out = s.out := rfl
@[simp] theorem State.modTiu_free (s : State) (f : TiuState → TiuState) : (s.modTiu f).free = s.free := rfl
@[simp] theorem State.modTiu_sys (s : State) (f : TiuState → TiuState) : (s.modTiu f).sys = s.sys := rfl
@[simp] theorem State.modTiu_cfg (s : State) (f : TiuState → TiuState) : (s.modTiu f).cfg = s.cfg := rfl
@[simp] theorem State.modTiu_mbs (s : State) (f : TiuState → TiuState) : (s.modTiu f).mbs = s.mbs := rfl
@[simp] theorem State.modTiu_pend (s : State) (f : TiuState → TiuState) : (s.modTiu f).pend = s.pend := rfl
@[simp] theorem State.modTiu_ev (s : State) (f : TiuState → TiuState) : (s.modTiu f).ev = s.ev := rfl
@[simp] theorem State.modTiu_log (s : State) (f : TiuState → TiuState) : (s.modTiu f).log = s.log := rfl
@[simp] theorem State.modTiu_warn (s : State) (f : TiuState → TiuState) : (s.modTiu f).warn = s.warn := rfl
@[simp] theorem State.modTiu_flagHist (s : State) (f : TiuState → TiuState) : (s.modTiu f).flagHist = s.flagHist := rfl
@[simp] theorem State.modTiu_tb (s : State) (f : TiuState → TiuState) : (s.modTiu f).tb = s.tb := rfl
@[simp] theorem State.modTiu_trail (s : State) (f : TiuState → TiuState) : (s.modTiu f).trail = s.trail := rfl
@[simp] theorem State.modTiu_grid (s : State) (f : TiuState → TiuState) : (s.modTiu f).grid = s.grid := rfl
@[simp] theorem State.modTiu_gateRun (s : State) (f : TiuState → TiuState) : (s.modTiu f).gateRun = s.gateRun := rfl
@[simp] theorem State.modTiu_probeRun (s : State) (f : TiuState → TiuState) : (s.modTiu f).probeRun = s.probeRun := rfl
@[simp] theorem State.modTiu_emit (s : State) (f : TiuState → TiuState) : (s.modTiu f).emit = s.emit := rfl
@[simp] theorem State.modTiu_lines (s : State) (f : TiuState → TiuState) : (s.modTiu f).lines = s.lines := rfl
@[simp] theorem State.modTiu_ctxs (s : State) (f : TiuState → TiuState) : (s.modTiu f).ctxs = s.ctxs := rfl
@[simp] theorem State.modTiu_streams (s : State) (f : TiuState → TiuState) : (s.modTiu f).streams = s.streams := rfl
@[simp] theorem State.modTiu_ports (s : State) (f : TiuState → TiuState) : (s.modTiu f).ports = s.ports := rfl
@[simp] theorem State.modTiu_vectors (s : State) (f : TiuState → TiuState) : (s.modTiu f).vectors = s.vectors := rfl
@[simp] theorem State.modTiu_pcie (s : State) (f : TiuState → TiuState) : (s.modTiu f).pcie = s.pcie := rfl
@[simp] theorem State.modTiu_sec (s : State) (f : TiuState → TiuState) : (s.modTiu f).sec = s.sec := rfl
@[simp] theorem State.modTiu_dbg (s : State) (f : TiuState → TiuState) : (s.modTiu f).dbg = s.dbg := rfl
@[simp] theorem State.modTiu_pwr (s : State) (f : TiuState → TiuState) : (s.modTiu f).pwr = s.pwr := rfl
@[simp] theorem State.modTiu_health (s : State) (f : TiuState → TiuState) : (s.modTiu f).health = s.health := rfl
@[simp] theorem State.modTiu_dram (s : State) (f : TiuState → TiuState) : (s.modTiu f).dram = s.dram := rfl
@[simp] theorem State.modTiu_ltune (s : State) (f : TiuState → TiuState) : (s.modTiu f).ltune = s.ltune := rfl
@[simp] theorem State.modTiu_quads (s : State) (f : TiuState → TiuState) : (s.modTiu f).quads = s.quads := rfl
@[simp] theorem State.modTiu_cal (s : State) (f : TiuState → TiuState) : (s.modTiu f).cal = s.cal := rfl
@[simp] theorem State.modTiu_ref2 (s : State) (f : TiuState → TiuState) : (s.modTiu f).ref2 = s.ref2 := rfl
@[simp] theorem State.modTiu_felt (s : State) (f : TiuState → TiuState) : (s.modTiu f).felt = s.felt := rfl
@[simp] theorem State.modTiu_slow (s : State) (f : TiuState → TiuState) : (s.modTiu f).slow = s.slow := rfl
@[simp] theorem State.modTiu_tiles (s : State) (f : TiuState → TiuState) : (s.modTiu f).tiles = s.tiles := rfl
@[simp] theorem State.modTiu_mem (s : State) (f : TiuState → TiuState) : (s.modTiu f).mem = s.mem := rfl
@[simp] theorem State.modTiu_trig (s : State) (f : TiuState → TiuState) : (s.modTiu f).trig = s.trig := rfl
@[simp] theorem State.modTiu_therm (s : State) (f : TiuState → TiuState) : (s.modTiu f).therm = s.therm := rfl
@[simp] theorem State.modTiu_zones (s : State) (f : TiuState → TiuState) : (s.modTiu f).zones = s.zones := rfl
@[simp] theorem State.modTiu_panel (s : State) (f : TiuState → TiuState) : (s.modTiu f).panel = s.panel := rfl
@[simp] theorem State.modTiu_bale (s : State) (f : TiuState → TiuState) : (s.modTiu f).bale = s.bale := rfl
@[simp] theorem State.modTiu_memMask (s : State) (f : TiuState → TiuState) : (s.modTiu f).memMask = s.memMask := rfl
@[simp] theorem State.modTiu_capMibNow (s : State) (f : TiuState → TiuState) : (s.modTiu f).capMibNow = s.capMibNow := rfl
@[simp] theorem State.modTiu_tiu (s : State) (f : TiuState → TiuState) : (s.modTiu f).tiu = f s.tiu := rfl

/-! `modTrail` changes `trail` alone. -/
@[simp] theorem State.modTrail_pending (s : State) (f : Trail → Trail) : (s.modTrail f).pending = s.pending := rfl
@[simp] theorem State.modTrail_build (s : State) (f : Trail → Trail) : (s.modTrail f).build = s.build := rfl
@[simp] theorem State.modTrail_now (s : State) (f : Trail → Trail) : (s.modTrail f).now = s.now := rfl
@[simp] theorem State.modTrail_out (s : State) (f : Trail → Trail) : (s.modTrail f).out = s.out := rfl
@[simp] theorem State.modTrail_free (s : State) (f : Trail → Trail) : (s.modTrail f).free = s.free := rfl
@[simp] theorem State.modTrail_sys (s : State) (f : Trail → Trail) : (s.modTrail f).sys = s.sys := rfl
@[simp] theorem State.modTrail_cfg (s : State) (f : Trail → Trail) : (s.modTrail f).cfg = s.cfg := rfl
@[simp] theorem State.modTrail_mbs (s : State) (f : Trail → Trail) : (s.modTrail f).mbs = s.mbs := rfl
@[simp] theorem State.modTrail_pend (s : State) (f : Trail → Trail) : (s.modTrail f).pend = s.pend := rfl
@[simp] theorem State.modTrail_ev (s : State) (f : Trail → Trail) : (s.modTrail f).ev = s.ev := rfl
@[simp] theorem State.modTrail_log (s : State) (f : Trail → Trail) : (s.modTrail f).log = s.log := rfl
@[simp] theorem State.modTrail_warn (s : State) (f : Trail → Trail) : (s.modTrail f).warn = s.warn := rfl
@[simp] theorem State.modTrail_flagHist (s : State) (f : Trail → Trail) : (s.modTrail f).flagHist = s.flagHist := rfl
@[simp] theorem State.modTrail_tb (s : State) (f : Trail → Trail) : (s.modTrail f).tb = s.tb := rfl
@[simp] theorem State.modTrail_tiu (s : State) (f : Trail → Trail) : (s.modTrail f).tiu = s.tiu := rfl
@[simp] theorem State.modTrail_grid (s : State) (f : Trail → Trail) : (s.modTrail f).grid = s.grid := rfl
@[simp] theorem State.modTrail_gateRun (s : State) (f : Trail → Trail) : (s.modTrail f).gateRun = s.gateRun := rfl
@[simp] theorem State.modTrail_probeRun (s : State) (f : Trail → Trail) : (s.modTrail f).probeRun = s.probeRun := rfl
@[simp] theorem State.modTrail_emit (s : State) (f : Trail → Trail) : (s.modTrail f).emit = s.emit := rfl
@[simp] theorem State.modTrail_lines (s : State) (f : Trail → Trail) : (s.modTrail f).lines = s.lines := rfl
@[simp] theorem State.modTrail_ctxs (s : State) (f : Trail → Trail) : (s.modTrail f).ctxs = s.ctxs := rfl
@[simp] theorem State.modTrail_streams (s : State) (f : Trail → Trail) : (s.modTrail f).streams = s.streams := rfl
@[simp] theorem State.modTrail_ports (s : State) (f : Trail → Trail) : (s.modTrail f).ports = s.ports := rfl
@[simp] theorem State.modTrail_vectors (s : State) (f : Trail → Trail) : (s.modTrail f).vectors = s.vectors := rfl
@[simp] theorem State.modTrail_pcie (s : State) (f : Trail → Trail) : (s.modTrail f).pcie = s.pcie := rfl
@[simp] theorem State.modTrail_sec (s : State) (f : Trail → Trail) : (s.modTrail f).sec = s.sec := rfl
@[simp] theorem State.modTrail_dbg (s : State) (f : Trail → Trail) : (s.modTrail f).dbg = s.dbg := rfl
@[simp] theorem State.modTrail_pwr (s : State) (f : Trail → Trail) : (s.modTrail f).pwr = s.pwr := rfl
@[simp] theorem State.modTrail_health (s : State) (f : Trail → Trail) : (s.modTrail f).health = s.health := rfl
@[simp] theorem State.modTrail_dram (s : State) (f : Trail → Trail) : (s.modTrail f).dram = s.dram := rfl
@[simp] theorem State.modTrail_ltune (s : State) (f : Trail → Trail) : (s.modTrail f).ltune = s.ltune := rfl
@[simp] theorem State.modTrail_quads (s : State) (f : Trail → Trail) : (s.modTrail f).quads = s.quads := rfl
@[simp] theorem State.modTrail_cal (s : State) (f : Trail → Trail) : (s.modTrail f).cal = s.cal := rfl
@[simp] theorem State.modTrail_ref2 (s : State) (f : Trail → Trail) : (s.modTrail f).ref2 = s.ref2 := rfl
@[simp] theorem State.modTrail_felt (s : State) (f : Trail → Trail) : (s.modTrail f).felt = s.felt := rfl
@[simp] theorem State.modTrail_slow (s : State) (f : Trail → Trail) : (s.modTrail f).slow = s.slow := rfl
@[simp] theorem State.modTrail_tiles (s : State) (f : Trail → Trail) : (s.modTrail f).tiles = s.tiles := rfl
@[simp] theorem State.modTrail_mem (s : State) (f : Trail → Trail) : (s.modTrail f).mem = s.mem := rfl
@[simp] theorem State.modTrail_trig (s : State) (f : Trail → Trail) : (s.modTrail f).trig = s.trig := rfl
@[simp] theorem State.modTrail_therm (s : State) (f : Trail → Trail) : (s.modTrail f).therm = s.therm := rfl
@[simp] theorem State.modTrail_zones (s : State) (f : Trail → Trail) : (s.modTrail f).zones = s.zones := rfl
@[simp] theorem State.modTrail_panel (s : State) (f : Trail → Trail) : (s.modTrail f).panel = s.panel := rfl
@[simp] theorem State.modTrail_bale (s : State) (f : Trail → Trail) : (s.modTrail f).bale = s.bale := rfl
@[simp] theorem State.modTrail_memMask (s : State) (f : Trail → Trail) : (s.modTrail f).memMask = s.memMask := rfl
@[simp] theorem State.modTrail_capMibNow (s : State) (f : Trail → Trail) : (s.modTrail f).capMibNow = s.capMibNow := rfl
@[simp] theorem State.modTrail_trail (s : State) (f : Trail → Trail) : (s.modTrail f).trail = f s.trail := rfl

/-! `modSec` changes `sec` alone. -/
@[simp] theorem State.modSec_pending (s : State) (f : Security → Security) : (s.modSec f).pending = s.pending := rfl
@[simp] theorem State.modSec_build (s : State) (f : Security → Security) : (s.modSec f).build = s.build := rfl
@[simp] theorem State.modSec_now (s : State) (f : Security → Security) : (s.modSec f).now = s.now := rfl
@[simp] theorem State.modSec_out (s : State) (f : Security → Security) : (s.modSec f).out = s.out := rfl
@[simp] theorem State.modSec_free (s : State) (f : Security → Security) : (s.modSec f).free = s.free := rfl
@[simp] theorem State.modSec_sys (s : State) (f : Security → Security) : (s.modSec f).sys = s.sys := rfl
@[simp] theorem State.modSec_cfg (s : State) (f : Security → Security) : (s.modSec f).cfg = s.cfg := rfl
@[simp] theorem State.modSec_mbs (s : State) (f : Security → Security) : (s.modSec f).mbs = s.mbs := rfl
@[simp] theorem State.modSec_pend (s : State) (f : Security → Security) : (s.modSec f).pend = s.pend := rfl
@[simp] theorem State.modSec_ev (s : State) (f : Security → Security) : (s.modSec f).ev = s.ev := rfl
@[simp] theorem State.modSec_log (s : State) (f : Security → Security) : (s.modSec f).log = s.log := rfl
@[simp] theorem State.modSec_warn (s : State) (f : Security → Security) : (s.modSec f).warn = s.warn := rfl
@[simp] theorem State.modSec_flagHist (s : State) (f : Security → Security) : (s.modSec f).flagHist = s.flagHist := rfl
@[simp] theorem State.modSec_tb (s : State) (f : Security → Security) : (s.modSec f).tb = s.tb := rfl
@[simp] theorem State.modSec_tiu (s : State) (f : Security → Security) : (s.modSec f).tiu = s.tiu := rfl
@[simp] theorem State.modSec_trail (s : State) (f : Security → Security) : (s.modSec f).trail = s.trail := rfl
@[simp] theorem State.modSec_grid (s : State) (f : Security → Security) : (s.modSec f).grid = s.grid := rfl
@[simp] theorem State.modSec_gateRun (s : State) (f : Security → Security) : (s.modSec f).gateRun = s.gateRun := rfl
@[simp] theorem State.modSec_probeRun (s : State) (f : Security → Security) : (s.modSec f).probeRun = s.probeRun := rfl
@[simp] theorem State.modSec_emit (s : State) (f : Security → Security) : (s.modSec f).emit = s.emit := rfl
@[simp] theorem State.modSec_lines (s : State) (f : Security → Security) : (s.modSec f).lines = s.lines := rfl
@[simp] theorem State.modSec_ctxs (s : State) (f : Security → Security) : (s.modSec f).ctxs = s.ctxs := rfl
@[simp] theorem State.modSec_streams (s : State) (f : Security → Security) : (s.modSec f).streams = s.streams := rfl
@[simp] theorem State.modSec_ports (s : State) (f : Security → Security) : (s.modSec f).ports = s.ports := rfl
@[simp] theorem State.modSec_vectors (s : State) (f : Security → Security) : (s.modSec f).vectors = s.vectors := rfl
@[simp] theorem State.modSec_pcie (s : State) (f : Security → Security) : (s.modSec f).pcie = s.pcie := rfl
@[simp] theorem State.modSec_dbg (s : State) (f : Security → Security) : (s.modSec f).dbg = s.dbg := rfl
@[simp] theorem State.modSec_pwr (s : State) (f : Security → Security) : (s.modSec f).pwr = s.pwr := rfl
@[simp] theorem State.modSec_health (s : State) (f : Security → Security) : (s.modSec f).health = s.health := rfl
@[simp] theorem State.modSec_dram (s : State) (f : Security → Security) : (s.modSec f).dram = s.dram := rfl
@[simp] theorem State.modSec_ltune (s : State) (f : Security → Security) : (s.modSec f).ltune = s.ltune := rfl
@[simp] theorem State.modSec_quads (s : State) (f : Security → Security) : (s.modSec f).quads = s.quads := rfl
@[simp] theorem State.modSec_cal (s : State) (f : Security → Security) : (s.modSec f).cal = s.cal := rfl
@[simp] theorem State.modSec_ref2 (s : State) (f : Security → Security) : (s.modSec f).ref2 = s.ref2 := rfl
@[simp] theorem State.modSec_felt (s : State) (f : Security → Security) : (s.modSec f).felt = s.felt := rfl
@[simp] theorem State.modSec_slow (s : State) (f : Security → Security) : (s.modSec f).slow = s.slow := rfl
@[simp] theorem State.modSec_tiles (s : State) (f : Security → Security) : (s.modSec f).tiles = s.tiles := rfl
@[simp] theorem State.modSec_mem (s : State) (f : Security → Security) : (s.modSec f).mem = s.mem := rfl
@[simp] theorem State.modSec_trig (s : State) (f : Security → Security) : (s.modSec f).trig = s.trig := rfl
@[simp] theorem State.modSec_therm (s : State) (f : Security → Security) : (s.modSec f).therm = s.therm := rfl
@[simp] theorem State.modSec_zones (s : State) (f : Security → Security) : (s.modSec f).zones = s.zones := rfl
@[simp] theorem State.modSec_panel (s : State) (f : Security → Security) : (s.modSec f).panel = s.panel := rfl
@[simp] theorem State.modSec_bale (s : State) (f : Security → Security) : (s.modSec f).bale = s.bale := rfl
@[simp] theorem State.modSec_memMask (s : State) (f : Security → Security) : (s.modSec f).memMask = s.memMask := rfl
@[simp] theorem State.modSec_capMibNow (s : State) (f : Security → Security) : (s.modSec f).capMibNow = s.capMibNow := rfl
@[simp] theorem State.modSec_sec (s : State) (f : Security → Security) : (s.modSec f).sec = f s.sec := rfl

/-! `modHealth` changes `health` alone. -/
@[simp] theorem State.modHealth_pending (s : State) (f : Health → Health) : (s.modHealth f).pending = s.pending := rfl
@[simp] theorem State.modHealth_build (s : State) (f : Health → Health) : (s.modHealth f).build = s.build := rfl
@[simp] theorem State.modHealth_now (s : State) (f : Health → Health) : (s.modHealth f).now = s.now := rfl
@[simp] theorem State.modHealth_out (s : State) (f : Health → Health) : (s.modHealth f).out = s.out := rfl
@[simp] theorem State.modHealth_free (s : State) (f : Health → Health) : (s.modHealth f).free = s.free := rfl
@[simp] theorem State.modHealth_sys (s : State) (f : Health → Health) : (s.modHealth f).sys = s.sys := rfl
@[simp] theorem State.modHealth_cfg (s : State) (f : Health → Health) : (s.modHealth f).cfg = s.cfg := rfl
@[simp] theorem State.modHealth_mbs (s : State) (f : Health → Health) : (s.modHealth f).mbs = s.mbs := rfl
@[simp] theorem State.modHealth_pend (s : State) (f : Health → Health) : (s.modHealth f).pend = s.pend := rfl
@[simp] theorem State.modHealth_ev (s : State) (f : Health → Health) : (s.modHealth f).ev = s.ev := rfl
@[simp] theorem State.modHealth_log (s : State) (f : Health → Health) : (s.modHealth f).log = s.log := rfl
@[simp] theorem State.modHealth_warn (s : State) (f : Health → Health) : (s.modHealth f).warn = s.warn := rfl
@[simp] theorem State.modHealth_flagHist (s : State) (f : Health → Health) : (s.modHealth f).flagHist = s.flagHist := rfl
@[simp] theorem State.modHealth_tb (s : State) (f : Health → Health) : (s.modHealth f).tb = s.tb := rfl
@[simp] theorem State.modHealth_tiu (s : State) (f : Health → Health) : (s.modHealth f).tiu = s.tiu := rfl
@[simp] theorem State.modHealth_trail (s : State) (f : Health → Health) : (s.modHealth f).trail = s.trail := rfl
@[simp] theorem State.modHealth_grid (s : State) (f : Health → Health) : (s.modHealth f).grid = s.grid := rfl
@[simp] theorem State.modHealth_gateRun (s : State) (f : Health → Health) : (s.modHealth f).gateRun = s.gateRun := rfl
@[simp] theorem State.modHealth_probeRun (s : State) (f : Health → Health) : (s.modHealth f).probeRun = s.probeRun := rfl
@[simp] theorem State.modHealth_emit (s : State) (f : Health → Health) : (s.modHealth f).emit = s.emit := rfl
@[simp] theorem State.modHealth_lines (s : State) (f : Health → Health) : (s.modHealth f).lines = s.lines := rfl
@[simp] theorem State.modHealth_ctxs (s : State) (f : Health → Health) : (s.modHealth f).ctxs = s.ctxs := rfl
@[simp] theorem State.modHealth_streams (s : State) (f : Health → Health) : (s.modHealth f).streams = s.streams := rfl
@[simp] theorem State.modHealth_ports (s : State) (f : Health → Health) : (s.modHealth f).ports = s.ports := rfl
@[simp] theorem State.modHealth_vectors (s : State) (f : Health → Health) : (s.modHealth f).vectors = s.vectors := rfl
@[simp] theorem State.modHealth_pcie (s : State) (f : Health → Health) : (s.modHealth f).pcie = s.pcie := rfl
@[simp] theorem State.modHealth_sec (s : State) (f : Health → Health) : (s.modHealth f).sec = s.sec := rfl
@[simp] theorem State.modHealth_dbg (s : State) (f : Health → Health) : (s.modHealth f).dbg = s.dbg := rfl
@[simp] theorem State.modHealth_pwr (s : State) (f : Health → Health) : (s.modHealth f).pwr = s.pwr := rfl
@[simp] theorem State.modHealth_dram (s : State) (f : Health → Health) : (s.modHealth f).dram = s.dram := rfl
@[simp] theorem State.modHealth_ltune (s : State) (f : Health → Health) : (s.modHealth f).ltune = s.ltune := rfl
@[simp] theorem State.modHealth_quads (s : State) (f : Health → Health) : (s.modHealth f).quads = s.quads := rfl
@[simp] theorem State.modHealth_cal (s : State) (f : Health → Health) : (s.modHealth f).cal = s.cal := rfl
@[simp] theorem State.modHealth_ref2 (s : State) (f : Health → Health) : (s.modHealth f).ref2 = s.ref2 := rfl
@[simp] theorem State.modHealth_felt (s : State) (f : Health → Health) : (s.modHealth f).felt = s.felt := rfl
@[simp] theorem State.modHealth_slow (s : State) (f : Health → Health) : (s.modHealth f).slow = s.slow := rfl
@[simp] theorem State.modHealth_tiles (s : State) (f : Health → Health) : (s.modHealth f).tiles = s.tiles := rfl
@[simp] theorem State.modHealth_mem (s : State) (f : Health → Health) : (s.modHealth f).mem = s.mem := rfl
@[simp] theorem State.modHealth_trig (s : State) (f : Health → Health) : (s.modHealth f).trig = s.trig := rfl
@[simp] theorem State.modHealth_therm (s : State) (f : Health → Health) : (s.modHealth f).therm = s.therm := rfl
@[simp] theorem State.modHealth_zones (s : State) (f : Health → Health) : (s.modHealth f).zones = s.zones := rfl
@[simp] theorem State.modHealth_panel (s : State) (f : Health → Health) : (s.modHealth f).panel = s.panel := rfl
@[simp] theorem State.modHealth_bale (s : State) (f : Health → Health) : (s.modHealth f).bale = s.bale := rfl
@[simp] theorem State.modHealth_memMask (s : State) (f : Health → Health) : (s.modHealth f).memMask = s.memMask := rfl
@[simp] theorem State.modHealth_capMibNow (s : State) (f : Health → Health) : (s.modHealth f).capMibNow = s.capMibNow := rfl
@[simp] theorem State.modHealth_health (s : State) (f : Health → Health) : (s.modHealth f).health = f s.health := rfl

/-! `modGrid` changes `grid` alone. -/
@[simp] theorem State.modGrid_pending (s : State) (l : Nat) (f : LineGrid → LineGrid) : (s.modGrid l f).pending = s.pending := rfl
@[simp] theorem State.modGrid_build (s : State) (l : Nat) (f : LineGrid → LineGrid) : (s.modGrid l f).build = s.build := rfl
@[simp] theorem State.modGrid_now (s : State) (l : Nat) (f : LineGrid → LineGrid) : (s.modGrid l f).now = s.now := rfl
@[simp] theorem State.modGrid_out (s : State) (l : Nat) (f : LineGrid → LineGrid) : (s.modGrid l f).out = s.out := rfl
@[simp] theorem State.modGrid_free (s : State) (l : Nat) (f : LineGrid → LineGrid) : (s.modGrid l f).free = s.free := rfl
@[simp] theorem State.modGrid_sys (s : State) (l : Nat) (f : LineGrid → LineGrid) : (s.modGrid l f).sys = s.sys := rfl
@[simp] theorem State.modGrid_cfg (s : State) (l : Nat) (f : LineGrid → LineGrid) : (s.modGrid l f).cfg = s.cfg := rfl
@[simp] theorem State.modGrid_mbs (s : State) (l : Nat) (f : LineGrid → LineGrid) : (s.modGrid l f).mbs = s.mbs := rfl
@[simp] theorem State.modGrid_pend (s : State) (l : Nat) (f : LineGrid → LineGrid) : (s.modGrid l f).pend = s.pend := rfl
@[simp] theorem State.modGrid_ev (s : State) (l : Nat) (f : LineGrid → LineGrid) : (s.modGrid l f).ev = s.ev := rfl
@[simp] theorem State.modGrid_log (s : State) (l : Nat) (f : LineGrid → LineGrid) : (s.modGrid l f).log = s.log := rfl
@[simp] theorem State.modGrid_warn (s : State) (l : Nat) (f : LineGrid → LineGrid) : (s.modGrid l f).warn = s.warn := rfl
@[simp] theorem State.modGrid_flagHist (s : State) (l : Nat) (f : LineGrid → LineGrid) : (s.modGrid l f).flagHist = s.flagHist := rfl
@[simp] theorem State.modGrid_tb (s : State) (l : Nat) (f : LineGrid → LineGrid) : (s.modGrid l f).tb = s.tb := rfl
@[simp] theorem State.modGrid_tiu (s : State) (l : Nat) (f : LineGrid → LineGrid) : (s.modGrid l f).tiu = s.tiu := rfl
@[simp] theorem State.modGrid_trail (s : State) (l : Nat) (f : LineGrid → LineGrid) : (s.modGrid l f).trail = s.trail := rfl
@[simp] theorem State.modGrid_gateRun (s : State) (l : Nat) (f : LineGrid → LineGrid) : (s.modGrid l f).gateRun = s.gateRun := rfl
@[simp] theorem State.modGrid_probeRun (s : State) (l : Nat) (f : LineGrid → LineGrid) : (s.modGrid l f).probeRun = s.probeRun := rfl
@[simp] theorem State.modGrid_emit (s : State) (l : Nat) (f : LineGrid → LineGrid) : (s.modGrid l f).emit = s.emit := rfl
@[simp] theorem State.modGrid_lines (s : State) (l : Nat) (f : LineGrid → LineGrid) : (s.modGrid l f).lines = s.lines := rfl
@[simp] theorem State.modGrid_ctxs (s : State) (l : Nat) (f : LineGrid → LineGrid) : (s.modGrid l f).ctxs = s.ctxs := rfl
@[simp] theorem State.modGrid_streams (s : State) (l : Nat) (f : LineGrid → LineGrid) : (s.modGrid l f).streams = s.streams := rfl
@[simp] theorem State.modGrid_ports (s : State) (l : Nat) (f : LineGrid → LineGrid) : (s.modGrid l f).ports = s.ports := rfl
@[simp] theorem State.modGrid_vectors (s : State) (l : Nat) (f : LineGrid → LineGrid) : (s.modGrid l f).vectors = s.vectors := rfl
@[simp] theorem State.modGrid_pcie (s : State) (l : Nat) (f : LineGrid → LineGrid) : (s.modGrid l f).pcie = s.pcie := rfl
@[simp] theorem State.modGrid_sec (s : State) (l : Nat) (f : LineGrid → LineGrid) : (s.modGrid l f).sec = s.sec := rfl
@[simp] theorem State.modGrid_dbg (s : State) (l : Nat) (f : LineGrid → LineGrid) : (s.modGrid l f).dbg = s.dbg := rfl
@[simp] theorem State.modGrid_pwr (s : State) (l : Nat) (f : LineGrid → LineGrid) : (s.modGrid l f).pwr = s.pwr := rfl
@[simp] theorem State.modGrid_health (s : State) (l : Nat) (f : LineGrid → LineGrid) : (s.modGrid l f).health = s.health := rfl
@[simp] theorem State.modGrid_dram (s : State) (l : Nat) (f : LineGrid → LineGrid) : (s.modGrid l f).dram = s.dram := rfl
@[simp] theorem State.modGrid_ltune (s : State) (l : Nat) (f : LineGrid → LineGrid) : (s.modGrid l f).ltune = s.ltune := rfl
@[simp] theorem State.modGrid_quads (s : State) (l : Nat) (f : LineGrid → LineGrid) : (s.modGrid l f).quads = s.quads := rfl
@[simp] theorem State.modGrid_cal (s : State) (l : Nat) (f : LineGrid → LineGrid) : (s.modGrid l f).cal = s.cal := rfl
@[simp] theorem State.modGrid_ref2 (s : State) (l : Nat) (f : LineGrid → LineGrid) : (s.modGrid l f).ref2 = s.ref2 := rfl
@[simp] theorem State.modGrid_felt (s : State) (l : Nat) (f : LineGrid → LineGrid) : (s.modGrid l f).felt = s.felt := rfl
@[simp] theorem State.modGrid_slow (s : State) (l : Nat) (f : LineGrid → LineGrid) : (s.modGrid l f).slow = s.slow := rfl
@[simp] theorem State.modGrid_tiles (s : State) (l : Nat) (f : LineGrid → LineGrid) : (s.modGrid l f).tiles = s.tiles := rfl
@[simp] theorem State.modGrid_mem (s : State) (l : Nat) (f : LineGrid → LineGrid) : (s.modGrid l f).mem = s.mem := rfl
@[simp] theorem State.modGrid_trig (s : State) (l : Nat) (f : LineGrid → LineGrid) : (s.modGrid l f).trig = s.trig := rfl
@[simp] theorem State.modGrid_therm (s : State) (l : Nat) (f : LineGrid → LineGrid) : (s.modGrid l f).therm = s.therm := rfl
@[simp] theorem State.modGrid_zones (s : State) (l : Nat) (f : LineGrid → LineGrid) : (s.modGrid l f).zones = s.zones := rfl
@[simp] theorem State.modGrid_panel (s : State) (l : Nat) (f : LineGrid → LineGrid) : (s.modGrid l f).panel = s.panel := rfl
@[simp] theorem State.modGrid_bale (s : State) (l : Nat) (f : LineGrid → LineGrid) : (s.modGrid l f).bale = s.bale := rfl
@[simp] theorem State.modGrid_memMask (s : State) (l : Nat) (f : LineGrid → LineGrid) : (s.modGrid l f).memMask = s.memMask := rfl
@[simp] theorem State.modGrid_capMibNow (s : State) (l : Nat) (f : LineGrid → LineGrid) : (s.modGrid l f).capMibNow = s.capMibNow := rfl
@[simp] theorem State.modGrid_grid (s : State) (l : Nat) (f : LineGrid → LineGrid) : (s.modGrid l f).grid = upd s.grid l f := rfl

/-! `modLine` changes `lines` alone. -/
@[simp] theorem State.modLine_pending (s : State) (l : Nat) (f : LineRun → LineRun) : (s.modLine l f).pending = s.pending := rfl
@[simp] theorem State.modLine_build (s : State) (l : Nat) (f : LineRun → LineRun) : (s.modLine l f).build = s.build := rfl
@[simp] theorem State.modLine_now (s : State) (l : Nat) (f : LineRun → LineRun) : (s.modLine l f).now = s.now := rfl
@[simp] theorem State.modLine_out (s : State) (l : Nat) (f : LineRun → LineRun) : (s.modLine l f).out = s.out := rfl
@[simp] theorem State.modLine_free (s : State) (l : Nat) (f : LineRun → LineRun) : (s.modLine l f).free = s.free := rfl
@[simp] theorem State.modLine_sys (s : State) (l : Nat) (f : LineRun → LineRun) : (s.modLine l f).sys = s.sys := rfl
@[simp] theorem State.modLine_cfg (s : State) (l : Nat) (f : LineRun → LineRun) : (s.modLine l f).cfg = s.cfg := rfl
@[simp] theorem State.modLine_mbs (s : State) (l : Nat) (f : LineRun → LineRun) : (s.modLine l f).mbs = s.mbs := rfl
@[simp] theorem State.modLine_pend (s : State) (l : Nat) (f : LineRun → LineRun) : (s.modLine l f).pend = s.pend := rfl
@[simp] theorem State.modLine_ev (s : State) (l : Nat) (f : LineRun → LineRun) : (s.modLine l f).ev = s.ev := rfl
@[simp] theorem State.modLine_log (s : State) (l : Nat) (f : LineRun → LineRun) : (s.modLine l f).log = s.log := rfl
@[simp] theorem State.modLine_warn (s : State) (l : Nat) (f : LineRun → LineRun) : (s.modLine l f).warn = s.warn := rfl
@[simp] theorem State.modLine_flagHist (s : State) (l : Nat) (f : LineRun → LineRun) : (s.modLine l f).flagHist = s.flagHist := rfl
@[simp] theorem State.modLine_tb (s : State) (l : Nat) (f : LineRun → LineRun) : (s.modLine l f).tb = s.tb := rfl
@[simp] theorem State.modLine_tiu (s : State) (l : Nat) (f : LineRun → LineRun) : (s.modLine l f).tiu = s.tiu := rfl
@[simp] theorem State.modLine_trail (s : State) (l : Nat) (f : LineRun → LineRun) : (s.modLine l f).trail = s.trail := rfl
@[simp] theorem State.modLine_grid (s : State) (l : Nat) (f : LineRun → LineRun) : (s.modLine l f).grid = s.grid := rfl
@[simp] theorem State.modLine_gateRun (s : State) (l : Nat) (f : LineRun → LineRun) : (s.modLine l f).gateRun = s.gateRun := rfl
@[simp] theorem State.modLine_probeRun (s : State) (l : Nat) (f : LineRun → LineRun) : (s.modLine l f).probeRun = s.probeRun := rfl
@[simp] theorem State.modLine_emit (s : State) (l : Nat) (f : LineRun → LineRun) : (s.modLine l f).emit = s.emit := rfl
@[simp] theorem State.modLine_ctxs (s : State) (l : Nat) (f : LineRun → LineRun) : (s.modLine l f).ctxs = s.ctxs := rfl
@[simp] theorem State.modLine_streams (s : State) (l : Nat) (f : LineRun → LineRun) : (s.modLine l f).streams = s.streams := rfl
@[simp] theorem State.modLine_ports (s : State) (l : Nat) (f : LineRun → LineRun) : (s.modLine l f).ports = s.ports := rfl
@[simp] theorem State.modLine_vectors (s : State) (l : Nat) (f : LineRun → LineRun) : (s.modLine l f).vectors = s.vectors := rfl
@[simp] theorem State.modLine_pcie (s : State) (l : Nat) (f : LineRun → LineRun) : (s.modLine l f).pcie = s.pcie := rfl
@[simp] theorem State.modLine_sec (s : State) (l : Nat) (f : LineRun → LineRun) : (s.modLine l f).sec = s.sec := rfl
@[simp] theorem State.modLine_dbg (s : State) (l : Nat) (f : LineRun → LineRun) : (s.modLine l f).dbg = s.dbg := rfl
@[simp] theorem State.modLine_pwr (s : State) (l : Nat) (f : LineRun → LineRun) : (s.modLine l f).pwr = s.pwr := rfl
@[simp] theorem State.modLine_health (s : State) (l : Nat) (f : LineRun → LineRun) : (s.modLine l f).health = s.health := rfl
@[simp] theorem State.modLine_dram (s : State) (l : Nat) (f : LineRun → LineRun) : (s.modLine l f).dram = s.dram := rfl
@[simp] theorem State.modLine_ltune (s : State) (l : Nat) (f : LineRun → LineRun) : (s.modLine l f).ltune = s.ltune := rfl
@[simp] theorem State.modLine_quads (s : State) (l : Nat) (f : LineRun → LineRun) : (s.modLine l f).quads = s.quads := rfl
@[simp] theorem State.modLine_cal (s : State) (l : Nat) (f : LineRun → LineRun) : (s.modLine l f).cal = s.cal := rfl
@[simp] theorem State.modLine_ref2 (s : State) (l : Nat) (f : LineRun → LineRun) : (s.modLine l f).ref2 = s.ref2 := rfl
@[simp] theorem State.modLine_felt (s : State) (l : Nat) (f : LineRun → LineRun) : (s.modLine l f).felt = s.felt := rfl
@[simp] theorem State.modLine_slow (s : State) (l : Nat) (f : LineRun → LineRun) : (s.modLine l f).slow = s.slow := rfl
@[simp] theorem State.modLine_tiles (s : State) (l : Nat) (f : LineRun → LineRun) : (s.modLine l f).tiles = s.tiles := rfl
@[simp] theorem State.modLine_mem (s : State) (l : Nat) (f : LineRun → LineRun) : (s.modLine l f).mem = s.mem := rfl
@[simp] theorem State.modLine_trig (s : State) (l : Nat) (f : LineRun → LineRun) : (s.modLine l f).trig = s.trig := rfl
@[simp] theorem State.modLine_therm (s : State) (l : Nat) (f : LineRun → LineRun) : (s.modLine l f).therm = s.therm := rfl
@[simp] theorem State.modLine_zones (s : State) (l : Nat) (f : LineRun → LineRun) : (s.modLine l f).zones = s.zones := rfl
@[simp] theorem State.modLine_panel (s : State) (l : Nat) (f : LineRun → LineRun) : (s.modLine l f).panel = s.panel := rfl
@[simp] theorem State.modLine_bale (s : State) (l : Nat) (f : LineRun → LineRun) : (s.modLine l f).bale = s.bale := rfl
@[simp] theorem State.modLine_memMask (s : State) (l : Nat) (f : LineRun → LineRun) : (s.modLine l f).memMask = s.memMask := rfl
@[simp] theorem State.modLine_capMibNow (s : State) (l : Nat) (f : LineRun → LineRun) : (s.modLine l f).capMibNow = s.capMibNow := rfl
@[simp] theorem State.modLine_lines (s : State) (l : Nat) (f : LineRun → LineRun) : (s.modLine l f).lines = upd s.lines l f := rfl

/-! `modCtx` changes `ctxs` alone. -/
@[simp] theorem State.modCtx_pending (s : State) (c : Nat) (f : Ctx → Ctx) : (s.modCtx c f).pending = s.pending := rfl
@[simp] theorem State.modCtx_build (s : State) (c : Nat) (f : Ctx → Ctx) : (s.modCtx c f).build = s.build := rfl
@[simp] theorem State.modCtx_now (s : State) (c : Nat) (f : Ctx → Ctx) : (s.modCtx c f).now = s.now := rfl
@[simp] theorem State.modCtx_out (s : State) (c : Nat) (f : Ctx → Ctx) : (s.modCtx c f).out = s.out := rfl
@[simp] theorem State.modCtx_free (s : State) (c : Nat) (f : Ctx → Ctx) : (s.modCtx c f).free = s.free := rfl
@[simp] theorem State.modCtx_sys (s : State) (c : Nat) (f : Ctx → Ctx) : (s.modCtx c f).sys = s.sys := rfl
@[simp] theorem State.modCtx_cfg (s : State) (c : Nat) (f : Ctx → Ctx) : (s.modCtx c f).cfg = s.cfg := rfl
@[simp] theorem State.modCtx_mbs (s : State) (c : Nat) (f : Ctx → Ctx) : (s.modCtx c f).mbs = s.mbs := rfl
@[simp] theorem State.modCtx_pend (s : State) (c : Nat) (f : Ctx → Ctx) : (s.modCtx c f).pend = s.pend := rfl
@[simp] theorem State.modCtx_ev (s : State) (c : Nat) (f : Ctx → Ctx) : (s.modCtx c f).ev = s.ev := rfl
@[simp] theorem State.modCtx_log (s : State) (c : Nat) (f : Ctx → Ctx) : (s.modCtx c f).log = s.log := rfl
@[simp] theorem State.modCtx_warn (s : State) (c : Nat) (f : Ctx → Ctx) : (s.modCtx c f).warn = s.warn := rfl
@[simp] theorem State.modCtx_flagHist (s : State) (c : Nat) (f : Ctx → Ctx) : (s.modCtx c f).flagHist = s.flagHist := rfl
@[simp] theorem State.modCtx_tb (s : State) (c : Nat) (f : Ctx → Ctx) : (s.modCtx c f).tb = s.tb := rfl
@[simp] theorem State.modCtx_tiu (s : State) (c : Nat) (f : Ctx → Ctx) : (s.modCtx c f).tiu = s.tiu := rfl
@[simp] theorem State.modCtx_trail (s : State) (c : Nat) (f : Ctx → Ctx) : (s.modCtx c f).trail = s.trail := rfl
@[simp] theorem State.modCtx_grid (s : State) (c : Nat) (f : Ctx → Ctx) : (s.modCtx c f).grid = s.grid := rfl
@[simp] theorem State.modCtx_gateRun (s : State) (c : Nat) (f : Ctx → Ctx) : (s.modCtx c f).gateRun = s.gateRun := rfl
@[simp] theorem State.modCtx_probeRun (s : State) (c : Nat) (f : Ctx → Ctx) : (s.modCtx c f).probeRun = s.probeRun := rfl
@[simp] theorem State.modCtx_emit (s : State) (c : Nat) (f : Ctx → Ctx) : (s.modCtx c f).emit = s.emit := rfl
@[simp] theorem State.modCtx_lines (s : State) (c : Nat) (f : Ctx → Ctx) : (s.modCtx c f).lines = s.lines := rfl
@[simp] theorem State.modCtx_streams (s : State) (c : Nat) (f : Ctx → Ctx) : (s.modCtx c f).streams = s.streams := rfl
@[simp] theorem State.modCtx_ports (s : State) (c : Nat) (f : Ctx → Ctx) : (s.modCtx c f).ports = s.ports := rfl
@[simp] theorem State.modCtx_vectors (s : State) (c : Nat) (f : Ctx → Ctx) : (s.modCtx c f).vectors = s.vectors := rfl
@[simp] theorem State.modCtx_pcie (s : State) (c : Nat) (f : Ctx → Ctx) : (s.modCtx c f).pcie = s.pcie := rfl
@[simp] theorem State.modCtx_sec (s : State) (c : Nat) (f : Ctx → Ctx) : (s.modCtx c f).sec = s.sec := rfl
@[simp] theorem State.modCtx_dbg (s : State) (c : Nat) (f : Ctx → Ctx) : (s.modCtx c f).dbg = s.dbg := rfl
@[simp] theorem State.modCtx_pwr (s : State) (c : Nat) (f : Ctx → Ctx) : (s.modCtx c f).pwr = s.pwr := rfl
@[simp] theorem State.modCtx_health (s : State) (c : Nat) (f : Ctx → Ctx) : (s.modCtx c f).health = s.health := rfl
@[simp] theorem State.modCtx_dram (s : State) (c : Nat) (f : Ctx → Ctx) : (s.modCtx c f).dram = s.dram := rfl
@[simp] theorem State.modCtx_ltune (s : State) (c : Nat) (f : Ctx → Ctx) : (s.modCtx c f).ltune = s.ltune := rfl
@[simp] theorem State.modCtx_quads (s : State) (c : Nat) (f : Ctx → Ctx) : (s.modCtx c f).quads = s.quads := rfl
@[simp] theorem State.modCtx_cal (s : State) (c : Nat) (f : Ctx → Ctx) : (s.modCtx c f).cal = s.cal := rfl
@[simp] theorem State.modCtx_ref2 (s : State) (c : Nat) (f : Ctx → Ctx) : (s.modCtx c f).ref2 = s.ref2 := rfl
@[simp] theorem State.modCtx_felt (s : State) (c : Nat) (f : Ctx → Ctx) : (s.modCtx c f).felt = s.felt := rfl
@[simp] theorem State.modCtx_slow (s : State) (c : Nat) (f : Ctx → Ctx) : (s.modCtx c f).slow = s.slow := rfl
@[simp] theorem State.modCtx_tiles (s : State) (c : Nat) (f : Ctx → Ctx) : (s.modCtx c f).tiles = s.tiles := rfl
@[simp] theorem State.modCtx_mem (s : State) (c : Nat) (f : Ctx → Ctx) : (s.modCtx c f).mem = s.mem := rfl
@[simp] theorem State.modCtx_trig (s : State) (c : Nat) (f : Ctx → Ctx) : (s.modCtx c f).trig = s.trig := rfl
@[simp] theorem State.modCtx_therm (s : State) (c : Nat) (f : Ctx → Ctx) : (s.modCtx c f).therm = s.therm := rfl
@[simp] theorem State.modCtx_zones (s : State) (c : Nat) (f : Ctx → Ctx) : (s.modCtx c f).zones = s.zones := rfl
@[simp] theorem State.modCtx_panel (s : State) (c : Nat) (f : Ctx → Ctx) : (s.modCtx c f).panel = s.panel := rfl
@[simp] theorem State.modCtx_bale (s : State) (c : Nat) (f : Ctx → Ctx) : (s.modCtx c f).bale = s.bale := rfl
@[simp] theorem State.modCtx_memMask (s : State) (c : Nat) (f : Ctx → Ctx) : (s.modCtx c f).memMask = s.memMask := rfl
@[simp] theorem State.modCtx_capMibNow (s : State) (c : Nat) (f : Ctx → Ctx) : (s.modCtx c f).capMibNow = s.capMibNow := rfl
@[simp] theorem State.modCtx_ctxs (s : State) (c : Nat) (f : Ctx → Ctx) : (s.modCtx c f).ctxs = upd s.ctxs c f := rfl

/-! `modMb` changes `mbs` alone. -/
@[simp] theorem State.modMb_pending (s : State) (n : Nat) (f : Mailbox → Mailbox) : (s.modMb n f).pending = s.pending := rfl
@[simp] theorem State.modMb_build (s : State) (n : Nat) (f : Mailbox → Mailbox) : (s.modMb n f).build = s.build := rfl
@[simp] theorem State.modMb_now (s : State) (n : Nat) (f : Mailbox → Mailbox) : (s.modMb n f).now = s.now := rfl
@[simp] theorem State.modMb_out (s : State) (n : Nat) (f : Mailbox → Mailbox) : (s.modMb n f).out = s.out := rfl
@[simp] theorem State.modMb_free (s : State) (n : Nat) (f : Mailbox → Mailbox) : (s.modMb n f).free = s.free := rfl
@[simp] theorem State.modMb_sys (s : State) (n : Nat) (f : Mailbox → Mailbox) : (s.modMb n f).sys = s.sys := rfl
@[simp] theorem State.modMb_cfg (s : State) (n : Nat) (f : Mailbox → Mailbox) : (s.modMb n f).cfg = s.cfg := rfl
@[simp] theorem State.modMb_pend (s : State) (n : Nat) (f : Mailbox → Mailbox) : (s.modMb n f).pend = s.pend := rfl
@[simp] theorem State.modMb_ev (s : State) (n : Nat) (f : Mailbox → Mailbox) : (s.modMb n f).ev = s.ev := rfl
@[simp] theorem State.modMb_log (s : State) (n : Nat) (f : Mailbox → Mailbox) : (s.modMb n f).log = s.log := rfl
@[simp] theorem State.modMb_warn (s : State) (n : Nat) (f : Mailbox → Mailbox) : (s.modMb n f).warn = s.warn := rfl
@[simp] theorem State.modMb_flagHist (s : State) (n : Nat) (f : Mailbox → Mailbox) : (s.modMb n f).flagHist = s.flagHist := rfl
@[simp] theorem State.modMb_tb (s : State) (n : Nat) (f : Mailbox → Mailbox) : (s.modMb n f).tb = s.tb := rfl
@[simp] theorem State.modMb_tiu (s : State) (n : Nat) (f : Mailbox → Mailbox) : (s.modMb n f).tiu = s.tiu := rfl
@[simp] theorem State.modMb_trail (s : State) (n : Nat) (f : Mailbox → Mailbox) : (s.modMb n f).trail = s.trail := rfl
@[simp] theorem State.modMb_grid (s : State) (n : Nat) (f : Mailbox → Mailbox) : (s.modMb n f).grid = s.grid := rfl
@[simp] theorem State.modMb_gateRun (s : State) (n : Nat) (f : Mailbox → Mailbox) : (s.modMb n f).gateRun = s.gateRun := rfl
@[simp] theorem State.modMb_probeRun (s : State) (n : Nat) (f : Mailbox → Mailbox) : (s.modMb n f).probeRun = s.probeRun := rfl
@[simp] theorem State.modMb_emit (s : State) (n : Nat) (f : Mailbox → Mailbox) : (s.modMb n f).emit = s.emit := rfl
@[simp] theorem State.modMb_lines (s : State) (n : Nat) (f : Mailbox → Mailbox) : (s.modMb n f).lines = s.lines := rfl
@[simp] theorem State.modMb_ctxs (s : State) (n : Nat) (f : Mailbox → Mailbox) : (s.modMb n f).ctxs = s.ctxs := rfl
@[simp] theorem State.modMb_streams (s : State) (n : Nat) (f : Mailbox → Mailbox) : (s.modMb n f).streams = s.streams := rfl
@[simp] theorem State.modMb_ports (s : State) (n : Nat) (f : Mailbox → Mailbox) : (s.modMb n f).ports = s.ports := rfl
@[simp] theorem State.modMb_vectors (s : State) (n : Nat) (f : Mailbox → Mailbox) : (s.modMb n f).vectors = s.vectors := rfl
@[simp] theorem State.modMb_pcie (s : State) (n : Nat) (f : Mailbox → Mailbox) : (s.modMb n f).pcie = s.pcie := rfl
@[simp] theorem State.modMb_sec (s : State) (n : Nat) (f : Mailbox → Mailbox) : (s.modMb n f).sec = s.sec := rfl
@[simp] theorem State.modMb_dbg (s : State) (n : Nat) (f : Mailbox → Mailbox) : (s.modMb n f).dbg = s.dbg := rfl
@[simp] theorem State.modMb_pwr (s : State) (n : Nat) (f : Mailbox → Mailbox) : (s.modMb n f).pwr = s.pwr := rfl
@[simp] theorem State.modMb_health (s : State) (n : Nat) (f : Mailbox → Mailbox) : (s.modMb n f).health = s.health := rfl
@[simp] theorem State.modMb_dram (s : State) (n : Nat) (f : Mailbox → Mailbox) : (s.modMb n f).dram = s.dram := rfl
@[simp] theorem State.modMb_ltune (s : State) (n : Nat) (f : Mailbox → Mailbox) : (s.modMb n f).ltune = s.ltune := rfl
@[simp] theorem State.modMb_quads (s : State) (n : Nat) (f : Mailbox → Mailbox) : (s.modMb n f).quads = s.quads := rfl
@[simp] theorem State.modMb_cal (s : State) (n : Nat) (f : Mailbox → Mailbox) : (s.modMb n f).cal = s.cal := rfl
@[simp] theorem State.modMb_ref2 (s : State) (n : Nat) (f : Mailbox → Mailbox) : (s.modMb n f).ref2 = s.ref2 := rfl
@[simp] theorem State.modMb_felt (s : State) (n : Nat) (f : Mailbox → Mailbox) : (s.modMb n f).felt = s.felt := rfl
@[simp] theorem State.modMb_slow (s : State) (n : Nat) (f : Mailbox → Mailbox) : (s.modMb n f).slow = s.slow := rfl
@[simp] theorem State.modMb_tiles (s : State) (n : Nat) (f : Mailbox → Mailbox) : (s.modMb n f).tiles = s.tiles := rfl
@[simp] theorem State.modMb_mem (s : State) (n : Nat) (f : Mailbox → Mailbox) : (s.modMb n f).mem = s.mem := rfl
@[simp] theorem State.modMb_trig (s : State) (n : Nat) (f : Mailbox → Mailbox) : (s.modMb n f).trig = s.trig := rfl
@[simp] theorem State.modMb_therm (s : State) (n : Nat) (f : Mailbox → Mailbox) : (s.modMb n f).therm = s.therm := rfl
@[simp] theorem State.modMb_zones (s : State) (n : Nat) (f : Mailbox → Mailbox) : (s.modMb n f).zones = s.zones := rfl
@[simp] theorem State.modMb_panel (s : State) (n : Nat) (f : Mailbox → Mailbox) : (s.modMb n f).panel = s.panel := rfl
@[simp] theorem State.modMb_bale (s : State) (n : Nat) (f : Mailbox → Mailbox) : (s.modMb n f).bale = s.bale := rfl
@[simp] theorem State.modMb_memMask (s : State) (n : Nat) (f : Mailbox → Mailbox) : (s.modMb n f).memMask = s.memMask := rfl
@[simp] theorem State.modMb_capMibNow (s : State) (n : Nat) (f : Mailbox → Mailbox) : (s.modMb n f).capMibNow = s.capMibNow := rfl
@[simp] theorem State.modMb_mbs (s : State) (n : Nat) (f : Mailbox → Mailbox) : (s.modMb n f).mbs = upd s.mbs n f := rfl

/-! `modPort` changes `ports` alone. -/
@[simp] theorem State.modPort_pending (s : State) (n : Nat) (f : PortRun → PortRun) : (s.modPort n f).pending = s.pending := rfl
@[simp] theorem State.modPort_build (s : State) (n : Nat) (f : PortRun → PortRun) : (s.modPort n f).build = s.build := rfl
@[simp] theorem State.modPort_now (s : State) (n : Nat) (f : PortRun → PortRun) : (s.modPort n f).now = s.now := rfl
@[simp] theorem State.modPort_out (s : State) (n : Nat) (f : PortRun → PortRun) : (s.modPort n f).out = s.out := rfl
@[simp] theorem State.modPort_free (s : State) (n : Nat) (f : PortRun → PortRun) : (s.modPort n f).free = s.free := rfl
@[simp] theorem State.modPort_sys (s : State) (n : Nat) (f : PortRun → PortRun) : (s.modPort n f).sys = s.sys := rfl
@[simp] theorem State.modPort_cfg (s : State) (n : Nat) (f : PortRun → PortRun) : (s.modPort n f).cfg = s.cfg := rfl
@[simp] theorem State.modPort_mbs (s : State) (n : Nat) (f : PortRun → PortRun) : (s.modPort n f).mbs = s.mbs := rfl
@[simp] theorem State.modPort_pend (s : State) (n : Nat) (f : PortRun → PortRun) : (s.modPort n f).pend = s.pend := rfl
@[simp] theorem State.modPort_ev (s : State) (n : Nat) (f : PortRun → PortRun) : (s.modPort n f).ev = s.ev := rfl
@[simp] theorem State.modPort_log (s : State) (n : Nat) (f : PortRun → PortRun) : (s.modPort n f).log = s.log := rfl
@[simp] theorem State.modPort_warn (s : State) (n : Nat) (f : PortRun → PortRun) : (s.modPort n f).warn = s.warn := rfl
@[simp] theorem State.modPort_flagHist (s : State) (n : Nat) (f : PortRun → PortRun) : (s.modPort n f).flagHist = s.flagHist := rfl
@[simp] theorem State.modPort_tb (s : State) (n : Nat) (f : PortRun → PortRun) : (s.modPort n f).tb = s.tb := rfl
@[simp] theorem State.modPort_tiu (s : State) (n : Nat) (f : PortRun → PortRun) : (s.modPort n f).tiu = s.tiu := rfl
@[simp] theorem State.modPort_trail (s : State) (n : Nat) (f : PortRun → PortRun) : (s.modPort n f).trail = s.trail := rfl
@[simp] theorem State.modPort_grid (s : State) (n : Nat) (f : PortRun → PortRun) : (s.modPort n f).grid = s.grid := rfl
@[simp] theorem State.modPort_gateRun (s : State) (n : Nat) (f : PortRun → PortRun) : (s.modPort n f).gateRun = s.gateRun := rfl
@[simp] theorem State.modPort_probeRun (s : State) (n : Nat) (f : PortRun → PortRun) : (s.modPort n f).probeRun = s.probeRun := rfl
@[simp] theorem State.modPort_emit (s : State) (n : Nat) (f : PortRun → PortRun) : (s.modPort n f).emit = s.emit := rfl
@[simp] theorem State.modPort_lines (s : State) (n : Nat) (f : PortRun → PortRun) : (s.modPort n f).lines = s.lines := rfl
@[simp] theorem State.modPort_ctxs (s : State) (n : Nat) (f : PortRun → PortRun) : (s.modPort n f).ctxs = s.ctxs := rfl
@[simp] theorem State.modPort_streams (s : State) (n : Nat) (f : PortRun → PortRun) : (s.modPort n f).streams = s.streams := rfl
@[simp] theorem State.modPort_vectors (s : State) (n : Nat) (f : PortRun → PortRun) : (s.modPort n f).vectors = s.vectors := rfl
@[simp] theorem State.modPort_pcie (s : State) (n : Nat) (f : PortRun → PortRun) : (s.modPort n f).pcie = s.pcie := rfl
@[simp] theorem State.modPort_sec (s : State) (n : Nat) (f : PortRun → PortRun) : (s.modPort n f).sec = s.sec := rfl
@[simp] theorem State.modPort_dbg (s : State) (n : Nat) (f : PortRun → PortRun) : (s.modPort n f).dbg = s.dbg := rfl
@[simp] theorem State.modPort_pwr (s : State) (n : Nat) (f : PortRun → PortRun) : (s.modPort n f).pwr = s.pwr := rfl
@[simp] theorem State.modPort_health (s : State) (n : Nat) (f : PortRun → PortRun) : (s.modPort n f).health = s.health := rfl
@[simp] theorem State.modPort_dram (s : State) (n : Nat) (f : PortRun → PortRun) : (s.modPort n f).dram = s.dram := rfl
@[simp] theorem State.modPort_ltune (s : State) (n : Nat) (f : PortRun → PortRun) : (s.modPort n f).ltune = s.ltune := rfl
@[simp] theorem State.modPort_quads (s : State) (n : Nat) (f : PortRun → PortRun) : (s.modPort n f).quads = s.quads := rfl
@[simp] theorem State.modPort_cal (s : State) (n : Nat) (f : PortRun → PortRun) : (s.modPort n f).cal = s.cal := rfl
@[simp] theorem State.modPort_ref2 (s : State) (n : Nat) (f : PortRun → PortRun) : (s.modPort n f).ref2 = s.ref2 := rfl
@[simp] theorem State.modPort_felt (s : State) (n : Nat) (f : PortRun → PortRun) : (s.modPort n f).felt = s.felt := rfl
@[simp] theorem State.modPort_slow (s : State) (n : Nat) (f : PortRun → PortRun) : (s.modPort n f).slow = s.slow := rfl
@[simp] theorem State.modPort_tiles (s : State) (n : Nat) (f : PortRun → PortRun) : (s.modPort n f).tiles = s.tiles := rfl
@[simp] theorem State.modPort_mem (s : State) (n : Nat) (f : PortRun → PortRun) : (s.modPort n f).mem = s.mem := rfl
@[simp] theorem State.modPort_trig (s : State) (n : Nat) (f : PortRun → PortRun) : (s.modPort n f).trig = s.trig := rfl
@[simp] theorem State.modPort_therm (s : State) (n : Nat) (f : PortRun → PortRun) : (s.modPort n f).therm = s.therm := rfl
@[simp] theorem State.modPort_zones (s : State) (n : Nat) (f : PortRun → PortRun) : (s.modPort n f).zones = s.zones := rfl
@[simp] theorem State.modPort_panel (s : State) (n : Nat) (f : PortRun → PortRun) : (s.modPort n f).panel = s.panel := rfl
@[simp] theorem State.modPort_bale (s : State) (n : Nat) (f : PortRun → PortRun) : (s.modPort n f).bale = s.bale := rfl
@[simp] theorem State.modPort_memMask (s : State) (n : Nat) (f : PortRun → PortRun) : (s.modPort n f).memMask = s.memMask := rfl
@[simp] theorem State.modPort_capMibNow (s : State) (n : Nat) (f : PortRun → PortRun) : (s.modPort n f).capMibNow = s.capMibNow := rfl
@[simp] theorem State.modPort_ports (s : State) (n : Nat) (f : PortRun → PortRun) : (s.modPort n f).ports = upd s.ports n f := rfl

/-! `modVector` changes `vectors` alone. -/
@[simp] theorem State.modVector_pending (s : State) (n : Nat) (f : Vector → Vector) : (s.modVector n f).pending = s.pending := rfl
@[simp] theorem State.modVector_build (s : State) (n : Nat) (f : Vector → Vector) : (s.modVector n f).build = s.build := rfl
@[simp] theorem State.modVector_now (s : State) (n : Nat) (f : Vector → Vector) : (s.modVector n f).now = s.now := rfl
@[simp] theorem State.modVector_out (s : State) (n : Nat) (f : Vector → Vector) : (s.modVector n f).out = s.out := rfl
@[simp] theorem State.modVector_free (s : State) (n : Nat) (f : Vector → Vector) : (s.modVector n f).free = s.free := rfl
@[simp] theorem State.modVector_sys (s : State) (n : Nat) (f : Vector → Vector) : (s.modVector n f).sys = s.sys := rfl
@[simp] theorem State.modVector_cfg (s : State) (n : Nat) (f : Vector → Vector) : (s.modVector n f).cfg = s.cfg := rfl
@[simp] theorem State.modVector_mbs (s : State) (n : Nat) (f : Vector → Vector) : (s.modVector n f).mbs = s.mbs := rfl
@[simp] theorem State.modVector_pend (s : State) (n : Nat) (f : Vector → Vector) : (s.modVector n f).pend = s.pend := rfl
@[simp] theorem State.modVector_ev (s : State) (n : Nat) (f : Vector → Vector) : (s.modVector n f).ev = s.ev := rfl
@[simp] theorem State.modVector_log (s : State) (n : Nat) (f : Vector → Vector) : (s.modVector n f).log = s.log := rfl
@[simp] theorem State.modVector_warn (s : State) (n : Nat) (f : Vector → Vector) : (s.modVector n f).warn = s.warn := rfl
@[simp] theorem State.modVector_flagHist (s : State) (n : Nat) (f : Vector → Vector) : (s.modVector n f).flagHist = s.flagHist := rfl
@[simp] theorem State.modVector_tb (s : State) (n : Nat) (f : Vector → Vector) : (s.modVector n f).tb = s.tb := rfl
@[simp] theorem State.modVector_tiu (s : State) (n : Nat) (f : Vector → Vector) : (s.modVector n f).tiu = s.tiu := rfl
@[simp] theorem State.modVector_trail (s : State) (n : Nat) (f : Vector → Vector) : (s.modVector n f).trail = s.trail := rfl
@[simp] theorem State.modVector_grid (s : State) (n : Nat) (f : Vector → Vector) : (s.modVector n f).grid = s.grid := rfl
@[simp] theorem State.modVector_gateRun (s : State) (n : Nat) (f : Vector → Vector) : (s.modVector n f).gateRun = s.gateRun := rfl
@[simp] theorem State.modVector_probeRun (s : State) (n : Nat) (f : Vector → Vector) : (s.modVector n f).probeRun = s.probeRun := rfl
@[simp] theorem State.modVector_emit (s : State) (n : Nat) (f : Vector → Vector) : (s.modVector n f).emit = s.emit := rfl
@[simp] theorem State.modVector_lines (s : State) (n : Nat) (f : Vector → Vector) : (s.modVector n f).lines = s.lines := rfl
@[simp] theorem State.modVector_ctxs (s : State) (n : Nat) (f : Vector → Vector) : (s.modVector n f).ctxs = s.ctxs := rfl
@[simp] theorem State.modVector_streams (s : State) (n : Nat) (f : Vector → Vector) : (s.modVector n f).streams = s.streams := rfl
@[simp] theorem State.modVector_ports (s : State) (n : Nat) (f : Vector → Vector) : (s.modVector n f).ports = s.ports := rfl
@[simp] theorem State.modVector_pcie (s : State) (n : Nat) (f : Vector → Vector) : (s.modVector n f).pcie = s.pcie := rfl
@[simp] theorem State.modVector_sec (s : State) (n : Nat) (f : Vector → Vector) : (s.modVector n f).sec = s.sec := rfl
@[simp] theorem State.modVector_dbg (s : State) (n : Nat) (f : Vector → Vector) : (s.modVector n f).dbg = s.dbg := rfl
@[simp] theorem State.modVector_pwr (s : State) (n : Nat) (f : Vector → Vector) : (s.modVector n f).pwr = s.pwr := rfl
@[simp] theorem State.modVector_health (s : State) (n : Nat) (f : Vector → Vector) : (s.modVector n f).health = s.health := rfl
@[simp] theorem State.modVector_dram (s : State) (n : Nat) (f : Vector → Vector) : (s.modVector n f).dram = s.dram := rfl
@[simp] theorem State.modVector_ltune (s : State) (n : Nat) (f : Vector → Vector) : (s.modVector n f).ltune = s.ltune := rfl
@[simp] theorem State.modVector_quads (s : State) (n : Nat) (f : Vector → Vector) : (s.modVector n f).quads = s.quads := rfl
@[simp] theorem State.modVector_cal (s : State) (n : Nat) (f : Vector → Vector) : (s.modVector n f).cal = s.cal := rfl
@[simp] theorem State.modVector_ref2 (s : State) (n : Nat) (f : Vector → Vector) : (s.modVector n f).ref2 = s.ref2 := rfl
@[simp] theorem State.modVector_felt (s : State) (n : Nat) (f : Vector → Vector) : (s.modVector n f).felt = s.felt := rfl
@[simp] theorem State.modVector_slow (s : State) (n : Nat) (f : Vector → Vector) : (s.modVector n f).slow = s.slow := rfl
@[simp] theorem State.modVector_tiles (s : State) (n : Nat) (f : Vector → Vector) : (s.modVector n f).tiles = s.tiles := rfl
@[simp] theorem State.modVector_mem (s : State) (n : Nat) (f : Vector → Vector) : (s.modVector n f).mem = s.mem := rfl
@[simp] theorem State.modVector_trig (s : State) (n : Nat) (f : Vector → Vector) : (s.modVector n f).trig = s.trig := rfl
@[simp] theorem State.modVector_therm (s : State) (n : Nat) (f : Vector → Vector) : (s.modVector n f).therm = s.therm := rfl
@[simp] theorem State.modVector_zones (s : State) (n : Nat) (f : Vector → Vector) : (s.modVector n f).zones = s.zones := rfl
@[simp] theorem State.modVector_panel (s : State) (n : Nat) (f : Vector → Vector) : (s.modVector n f).panel = s.panel := rfl
@[simp] theorem State.modVector_bale (s : State) (n : Nat) (f : Vector → Vector) : (s.modVector n f).bale = s.bale := rfl
@[simp] theorem State.modVector_memMask (s : State) (n : Nat) (f : Vector → Vector) : (s.modVector n f).memMask = s.memMask := rfl
@[simp] theorem State.modVector_capMibNow (s : State) (n : Nat) (f : Vector → Vector) : (s.modVector n f).capMibNow = s.capMibNow := rfl
@[simp] theorem State.modVector_vectors (s : State) (n : Nat) (f : Vector → Vector) : (s.modVector n f).vectors = upd s.vectors n f := rfl

/-! `emit1` changes `out` alone. -/
@[simp] theorem State.emit1_pending (s : State) (o : Out) : (s.emit1 o).pending = s.pending := rfl
@[simp] theorem State.emit1_build (s : State) (o : Out) : (s.emit1 o).build = s.build := rfl
@[simp] theorem State.emit1_now (s : State) (o : Out) : (s.emit1 o).now = s.now := rfl
@[simp] theorem State.emit1_free (s : State) (o : Out) : (s.emit1 o).free = s.free := rfl
@[simp] theorem State.emit1_sys (s : State) (o : Out) : (s.emit1 o).sys = s.sys := rfl
@[simp] theorem State.emit1_cfg (s : State) (o : Out) : (s.emit1 o).cfg = s.cfg := rfl
@[simp] theorem State.emit1_mbs (s : State) (o : Out) : (s.emit1 o).mbs = s.mbs := rfl
@[simp] theorem State.emit1_pend (s : State) (o : Out) : (s.emit1 o).pend = s.pend := rfl
@[simp] theorem State.emit1_ev (s : State) (o : Out) : (s.emit1 o).ev = s.ev := rfl
@[simp] theorem State.emit1_log (s : State) (o : Out) : (s.emit1 o).log = s.log := rfl
@[simp] theorem State.emit1_warn (s : State) (o : Out) : (s.emit1 o).warn = s.warn := rfl
@[simp] theorem State.emit1_flagHist (s : State) (o : Out) : (s.emit1 o).flagHist = s.flagHist := rfl
@[simp] theorem State.emit1_tb (s : State) (o : Out) : (s.emit1 o).tb = s.tb := rfl
@[simp] theorem State.emit1_tiu (s : State) (o : Out) : (s.emit1 o).tiu = s.tiu := rfl
@[simp] theorem State.emit1_trail (s : State) (o : Out) : (s.emit1 o).trail = s.trail := rfl
@[simp] theorem State.emit1_grid (s : State) (o : Out) : (s.emit1 o).grid = s.grid := rfl
@[simp] theorem State.emit1_gateRun (s : State) (o : Out) : (s.emit1 o).gateRun = s.gateRun := rfl
@[simp] theorem State.emit1_probeRun (s : State) (o : Out) : (s.emit1 o).probeRun = s.probeRun := rfl
@[simp] theorem State.emit1_emit (s : State) (o : Out) : (s.emit1 o).emit = s.emit := rfl
@[simp] theorem State.emit1_lines (s : State) (o : Out) : (s.emit1 o).lines = s.lines := rfl
@[simp] theorem State.emit1_ctxs (s : State) (o : Out) : (s.emit1 o).ctxs = s.ctxs := rfl
@[simp] theorem State.emit1_streams (s : State) (o : Out) : (s.emit1 o).streams = s.streams := rfl
@[simp] theorem State.emit1_ports (s : State) (o : Out) : (s.emit1 o).ports = s.ports := rfl
@[simp] theorem State.emit1_vectors (s : State) (o : Out) : (s.emit1 o).vectors = s.vectors := rfl
@[simp] theorem State.emit1_pcie (s : State) (o : Out) : (s.emit1 o).pcie = s.pcie := rfl
@[simp] theorem State.emit1_sec (s : State) (o : Out) : (s.emit1 o).sec = s.sec := rfl
@[simp] theorem State.emit1_dbg (s : State) (o : Out) : (s.emit1 o).dbg = s.dbg := rfl
@[simp] theorem State.emit1_pwr (s : State) (o : Out) : (s.emit1 o).pwr = s.pwr := rfl
@[simp] theorem State.emit1_health (s : State) (o : Out) : (s.emit1 o).health = s.health := rfl
@[simp] theorem State.emit1_dram (s : State) (o : Out) : (s.emit1 o).dram = s.dram := rfl
@[simp] theorem State.emit1_ltune (s : State) (o : Out) : (s.emit1 o).ltune = s.ltune := rfl
@[simp] theorem State.emit1_quads (s : State) (o : Out) : (s.emit1 o).quads = s.quads := rfl
@[simp] theorem State.emit1_cal (s : State) (o : Out) : (s.emit1 o).cal = s.cal := rfl
@[simp] theorem State.emit1_ref2 (s : State) (o : Out) : (s.emit1 o).ref2 = s.ref2 := rfl
@[simp] theorem State.emit1_felt (s : State) (o : Out) : (s.emit1 o).felt = s.felt := rfl
@[simp] theorem State.emit1_slow (s : State) (o : Out) : (s.emit1 o).slow = s.slow := rfl
@[simp] theorem State.emit1_tiles (s : State) (o : Out) : (s.emit1 o).tiles = s.tiles := rfl
@[simp] theorem State.emit1_mem (s : State) (o : Out) : (s.emit1 o).mem = s.mem := rfl
@[simp] theorem State.emit1_trig (s : State) (o : Out) : (s.emit1 o).trig = s.trig := rfl
@[simp] theorem State.emit1_therm (s : State) (o : Out) : (s.emit1 o).therm = s.therm := rfl
@[simp] theorem State.emit1_zones (s : State) (o : Out) : (s.emit1 o).zones = s.zones := rfl
@[simp] theorem State.emit1_panel (s : State) (o : Out) : (s.emit1 o).panel = s.panel := rfl
@[simp] theorem State.emit1_bale (s : State) (o : Out) : (s.emit1 o).bale = s.bale := rfl
@[simp] theorem State.emit1_memMask (s : State) (o : Out) : (s.emit1 o).memMask = s.memMask := rfl
@[simp] theorem State.emit1_capMibNow (s : State) (o : Out) : (s.emit1 o).capMibNow = s.capMibNow := rfl
@[simp] theorem State.emit1_out (s : State) (o : Out) : (s.emit1 o).out = s.out ++ [o] := rfl

/-! `modQuad` changes `quads` alone. -/
@[simp] theorem State.modQuad_pending (s : State) (q : Nat) (f : QuadRun → QuadRun) : (s.modQuad q f).pending = s.pending := rfl
@[simp] theorem State.modQuad_build (s : State) (q : Nat) (f : QuadRun → QuadRun) : (s.modQuad q f).build = s.build := rfl
@[simp] theorem State.modQuad_now (s : State) (q : Nat) (f : QuadRun → QuadRun) : (s.modQuad q f).now = s.now := rfl
@[simp] theorem State.modQuad_out (s : State) (q : Nat) (f : QuadRun → QuadRun) : (s.modQuad q f).out = s.out := rfl
@[simp] theorem State.modQuad_free (s : State) (q : Nat) (f : QuadRun → QuadRun) : (s.modQuad q f).free = s.free := rfl
@[simp] theorem State.modQuad_sys (s : State) (q : Nat) (f : QuadRun → QuadRun) : (s.modQuad q f).sys = s.sys := rfl
@[simp] theorem State.modQuad_cfg (s : State) (q : Nat) (f : QuadRun → QuadRun) : (s.modQuad q f).cfg = s.cfg := rfl
@[simp] theorem State.modQuad_mbs (s : State) (q : Nat) (f : QuadRun → QuadRun) : (s.modQuad q f).mbs = s.mbs := rfl
@[simp] theorem State.modQuad_pend (s : State) (q : Nat) (f : QuadRun → QuadRun) : (s.modQuad q f).pend = s.pend := rfl
@[simp] theorem State.modQuad_ev (s : State) (q : Nat) (f : QuadRun → QuadRun) : (s.modQuad q f).ev = s.ev := rfl
@[simp] theorem State.modQuad_log (s : State) (q : Nat) (f : QuadRun → QuadRun) : (s.modQuad q f).log = s.log := rfl
@[simp] theorem State.modQuad_warn (s : State) (q : Nat) (f : QuadRun → QuadRun) : (s.modQuad q f).warn = s.warn := rfl
@[simp] theorem State.modQuad_flagHist (s : State) (q : Nat) (f : QuadRun → QuadRun) : (s.modQuad q f).flagHist = s.flagHist := rfl
@[simp] theorem State.modQuad_tb (s : State) (q : Nat) (f : QuadRun → QuadRun) : (s.modQuad q f).tb = s.tb := rfl
@[simp] theorem State.modQuad_tiu (s : State) (q : Nat) (f : QuadRun → QuadRun) : (s.modQuad q f).tiu = s.tiu := rfl
@[simp] theorem State.modQuad_trail (s : State) (q : Nat) (f : QuadRun → QuadRun) : (s.modQuad q f).trail = s.trail := rfl
@[simp] theorem State.modQuad_grid (s : State) (q : Nat) (f : QuadRun → QuadRun) : (s.modQuad q f).grid = s.grid := rfl
@[simp] theorem State.modQuad_gateRun (s : State) (q : Nat) (f : QuadRun → QuadRun) : (s.modQuad q f).gateRun = s.gateRun := rfl
@[simp] theorem State.modQuad_probeRun (s : State) (q : Nat) (f : QuadRun → QuadRun) : (s.modQuad q f).probeRun = s.probeRun := rfl
@[simp] theorem State.modQuad_emit (s : State) (q : Nat) (f : QuadRun → QuadRun) : (s.modQuad q f).emit = s.emit := rfl
@[simp] theorem State.modQuad_lines (s : State) (q : Nat) (f : QuadRun → QuadRun) : (s.modQuad q f).lines = s.lines := rfl
@[simp] theorem State.modQuad_ctxs (s : State) (q : Nat) (f : QuadRun → QuadRun) : (s.modQuad q f).ctxs = s.ctxs := rfl
@[simp] theorem State.modQuad_streams (s : State) (q : Nat) (f : QuadRun → QuadRun) : (s.modQuad q f).streams = s.streams := rfl
@[simp] theorem State.modQuad_ports (s : State) (q : Nat) (f : QuadRun → QuadRun) : (s.modQuad q f).ports = s.ports := rfl
@[simp] theorem State.modQuad_vectors (s : State) (q : Nat) (f : QuadRun → QuadRun) : (s.modQuad q f).vectors = s.vectors := rfl
@[simp] theorem State.modQuad_pcie (s : State) (q : Nat) (f : QuadRun → QuadRun) : (s.modQuad q f).pcie = s.pcie := rfl
@[simp] theorem State.modQuad_sec (s : State) (q : Nat) (f : QuadRun → QuadRun) : (s.modQuad q f).sec = s.sec := rfl
@[simp] theorem State.modQuad_dbg (s : State) (q : Nat) (f : QuadRun → QuadRun) : (s.modQuad q f).dbg = s.dbg := rfl
@[simp] theorem State.modQuad_pwr (s : State) (q : Nat) (f : QuadRun → QuadRun) : (s.modQuad q f).pwr = s.pwr := rfl
@[simp] theorem State.modQuad_health (s : State) (q : Nat) (f : QuadRun → QuadRun) : (s.modQuad q f).health = s.health := rfl
@[simp] theorem State.modQuad_dram (s : State) (q : Nat) (f : QuadRun → QuadRun) : (s.modQuad q f).dram = s.dram := rfl
@[simp] theorem State.modQuad_ltune (s : State) (q : Nat) (f : QuadRun → QuadRun) : (s.modQuad q f).ltune = s.ltune := rfl
@[simp] theorem State.modQuad_cal (s : State) (q : Nat) (f : QuadRun → QuadRun) : (s.modQuad q f).cal = s.cal := rfl
@[simp] theorem State.modQuad_ref2 (s : State) (q : Nat) (f : QuadRun → QuadRun) : (s.modQuad q f).ref2 = s.ref2 := rfl
@[simp] theorem State.modQuad_felt (s : State) (q : Nat) (f : QuadRun → QuadRun) : (s.modQuad q f).felt = s.felt := rfl
@[simp] theorem State.modQuad_slow (s : State) (q : Nat) (f : QuadRun → QuadRun) : (s.modQuad q f).slow = s.slow := rfl
@[simp] theorem State.modQuad_tiles (s : State) (q : Nat) (f : QuadRun → QuadRun) : (s.modQuad q f).tiles = s.tiles := rfl
@[simp] theorem State.modQuad_mem (s : State) (q : Nat) (f : QuadRun → QuadRun) : (s.modQuad q f).mem = s.mem := rfl
@[simp] theorem State.modQuad_trig (s : State) (q : Nat) (f : QuadRun → QuadRun) : (s.modQuad q f).trig = s.trig := rfl
@[simp] theorem State.modQuad_therm (s : State) (q : Nat) (f : QuadRun → QuadRun) : (s.modQuad q f).therm = s.therm := rfl
@[simp] theorem State.modQuad_zones (s : State) (q : Nat) (f : QuadRun → QuadRun) : (s.modQuad q f).zones = s.zones := rfl
@[simp] theorem State.modQuad_panel (s : State) (q : Nat) (f : QuadRun → QuadRun) : (s.modQuad q f).panel = s.panel := rfl
@[simp] theorem State.modQuad_bale (s : State) (q : Nat) (f : QuadRun → QuadRun) : (s.modQuad q f).bale = s.bale := rfl
@[simp] theorem State.modQuad_memMask (s : State) (q : Nat) (f : QuadRun → QuadRun) : (s.modQuad q f).memMask = s.memMask := rfl
@[simp] theorem State.modQuad_capMibNow (s : State) (q : Nat) (f : QuadRun → QuadRun) : (s.modQuad q f).capMibNow = s.capMibNow := rfl
@[simp] theorem State.modQuad_quads (s : State) (q : Nat) (f : QuadRun → QuadRun) : (s.modQuad q f).quads = upd s.quads q f := rfl

/-! `modStream` changes `streams` alone. -/
@[simp] theorem State.modStream_pending (s : State) (k : Nat) (f : StreamRun → StreamRun) : (s.modStream k f).pending = s.pending := rfl
@[simp] theorem State.modStream_build (s : State) (k : Nat) (f : StreamRun → StreamRun) : (s.modStream k f).build = s.build := rfl
@[simp] theorem State.modStream_now (s : State) (k : Nat) (f : StreamRun → StreamRun) : (s.modStream k f).now = s.now := rfl
@[simp] theorem State.modStream_out (s : State) (k : Nat) (f : StreamRun → StreamRun) : (s.modStream k f).out = s.out := rfl
@[simp] theorem State.modStream_free (s : State) (k : Nat) (f : StreamRun → StreamRun) : (s.modStream k f).free = s.free := rfl
@[simp] theorem State.modStream_sys (s : State) (k : Nat) (f : StreamRun → StreamRun) : (s.modStream k f).sys = s.sys := rfl
@[simp] theorem State.modStream_cfg (s : State) (k : Nat) (f : StreamRun → StreamRun) : (s.modStream k f).cfg = s.cfg := rfl
@[simp] theorem State.modStream_mbs (s : State) (k : Nat) (f : StreamRun → StreamRun) : (s.modStream k f).mbs = s.mbs := rfl
@[simp] theorem State.modStream_pend (s : State) (k : Nat) (f : StreamRun → StreamRun) : (s.modStream k f).pend = s.pend := rfl
@[simp] theorem State.modStream_ev (s : State) (k : Nat) (f : StreamRun → StreamRun) : (s.modStream k f).ev = s.ev := rfl
@[simp] theorem State.modStream_log (s : State) (k : Nat) (f : StreamRun → StreamRun) : (s.modStream k f).log = s.log := rfl
@[simp] theorem State.modStream_warn (s : State) (k : Nat) (f : StreamRun → StreamRun) : (s.modStream k f).warn = s.warn := rfl
@[simp] theorem State.modStream_flagHist (s : State) (k : Nat) (f : StreamRun → StreamRun) : (s.modStream k f).flagHist = s.flagHist := rfl
@[simp] theorem State.modStream_tb (s : State) (k : Nat) (f : StreamRun → StreamRun) : (s.modStream k f).tb = s.tb := rfl
@[simp] theorem State.modStream_tiu (s : State) (k : Nat) (f : StreamRun → StreamRun) : (s.modStream k f).tiu = s.tiu := rfl
@[simp] theorem State.modStream_trail (s : State) (k : Nat) (f : StreamRun → StreamRun) : (s.modStream k f).trail = s.trail := rfl
@[simp] theorem State.modStream_grid (s : State) (k : Nat) (f : StreamRun → StreamRun) : (s.modStream k f).grid = s.grid := rfl
@[simp] theorem State.modStream_gateRun (s : State) (k : Nat) (f : StreamRun → StreamRun) : (s.modStream k f).gateRun = s.gateRun := rfl
@[simp] theorem State.modStream_probeRun (s : State) (k : Nat) (f : StreamRun → StreamRun) : (s.modStream k f).probeRun = s.probeRun := rfl
@[simp] theorem State.modStream_emit (s : State) (k : Nat) (f : StreamRun → StreamRun) : (s.modStream k f).emit = s.emit := rfl
@[simp] theorem State.modStream_lines (s : State) (k : Nat) (f : StreamRun → StreamRun) : (s.modStream k f).lines = s.lines := rfl
@[simp] theorem State.modStream_ctxs (s : State) (k : Nat) (f : StreamRun → StreamRun) : (s.modStream k f).ctxs = s.ctxs := rfl
@[simp] theorem State.modStream_ports (s : State) (k : Nat) (f : StreamRun → StreamRun) : (s.modStream k f).ports = s.ports := rfl
@[simp] theorem State.modStream_vectors (s : State) (k : Nat) (f : StreamRun → StreamRun) : (s.modStream k f).vectors = s.vectors := rfl
@[simp] theorem State.modStream_pcie (s : State) (k : Nat) (f : StreamRun → StreamRun) : (s.modStream k f).pcie = s.pcie := rfl
@[simp] theorem State.modStream_sec (s : State) (k : Nat) (f : StreamRun → StreamRun) : (s.modStream k f).sec = s.sec := rfl
@[simp] theorem State.modStream_dbg (s : State) (k : Nat) (f : StreamRun → StreamRun) : (s.modStream k f).dbg = s.dbg := rfl
@[simp] theorem State.modStream_pwr (s : State) (k : Nat) (f : StreamRun → StreamRun) : (s.modStream k f).pwr = s.pwr := rfl
@[simp] theorem State.modStream_health (s : State) (k : Nat) (f : StreamRun → StreamRun) : (s.modStream k f).health = s.health := rfl
@[simp] theorem State.modStream_dram (s : State) (k : Nat) (f : StreamRun → StreamRun) : (s.modStream k f).dram = s.dram := rfl
@[simp] theorem State.modStream_ltune (s : State) (k : Nat) (f : StreamRun → StreamRun) : (s.modStream k f).ltune = s.ltune := rfl
@[simp] theorem State.modStream_quads (s : State) (k : Nat) (f : StreamRun → StreamRun) : (s.modStream k f).quads = s.quads := rfl
@[simp] theorem State.modStream_cal (s : State) (k : Nat) (f : StreamRun → StreamRun) : (s.modStream k f).cal = s.cal := rfl
@[simp] theorem State.modStream_ref2 (s : State) (k : Nat) (f : StreamRun → StreamRun) : (s.modStream k f).ref2 = s.ref2 := rfl
@[simp] theorem State.modStream_felt (s : State) (k : Nat) (f : StreamRun → StreamRun) : (s.modStream k f).felt = s.felt := rfl
@[simp] theorem State.modStream_slow (s : State) (k : Nat) (f : StreamRun → StreamRun) : (s.modStream k f).slow = s.slow := rfl
@[simp] theorem State.modStream_tiles (s : State) (k : Nat) (f : StreamRun → StreamRun) : (s.modStream k f).tiles = s.tiles := rfl
@[simp] theorem State.modStream_mem (s : State) (k : Nat) (f : StreamRun → StreamRun) : (s.modStream k f).mem = s.mem := rfl
@[simp] theorem State.modStream_trig (s : State) (k : Nat) (f : StreamRun → StreamRun) : (s.modStream k f).trig = s.trig := rfl
@[simp] theorem State.modStream_therm (s : State) (k : Nat) (f : StreamRun → StreamRun) : (s.modStream k f).therm = s.therm := rfl
@[simp] theorem State.modStream_zones (s : State) (k : Nat) (f : StreamRun → StreamRun) : (s.modStream k f).zones = s.zones := rfl
@[simp] theorem State.modStream_panel (s : State) (k : Nat) (f : StreamRun → StreamRun) : (s.modStream k f).panel = s.panel := rfl
@[simp] theorem State.modStream_bale (s : State) (k : Nat) (f : StreamRun → StreamRun) : (s.modStream k f).bale = s.bale := rfl
@[simp] theorem State.modStream_memMask (s : State) (k : Nat) (f : StreamRun → StreamRun) : (s.modStream k f).memMask = s.memMask := rfl
@[simp] theorem State.modStream_capMibNow (s : State) (k : Nat) (f : StreamRun → StreamRun) : (s.modStream k f).capMibNow = s.capMibNow := rfl
@[simp] theorem State.modStream_streams (s : State) (k : Nat) (f : StreamRun → StreamRun) : (s.modStream k f).streams = upd s.streams k (fun r => r.map f) := rfl

/-! `modTherm` changes `therm` alone. -/
@[simp] theorem State.modTherm_pending (s : State) (f : Therm → Therm) : (s.modTherm f).pending = s.pending := rfl
@[simp] theorem State.modTherm_build (s : State) (f : Therm → Therm) : (s.modTherm f).build = s.build := rfl
@[simp] theorem State.modTherm_now (s : State) (f : Therm → Therm) : (s.modTherm f).now = s.now := rfl
@[simp] theorem State.modTherm_out (s : State) (f : Therm → Therm) : (s.modTherm f).out = s.out := rfl
@[simp] theorem State.modTherm_free (s : State) (f : Therm → Therm) : (s.modTherm f).free = s.free := rfl
@[simp] theorem State.modTherm_sys (s : State) (f : Therm → Therm) : (s.modTherm f).sys = s.sys := rfl
@[simp] theorem State.modTherm_cfg (s : State) (f : Therm → Therm) : (s.modTherm f).cfg = s.cfg := rfl
@[simp] theorem State.modTherm_mbs (s : State) (f : Therm → Therm) : (s.modTherm f).mbs = s.mbs := rfl
@[simp] theorem State.modTherm_pend (s : State) (f : Therm → Therm) : (s.modTherm f).pend = s.pend := rfl
@[simp] theorem State.modTherm_ev (s : State) (f : Therm → Therm) : (s.modTherm f).ev = s.ev := rfl
@[simp] theorem State.modTherm_log (s : State) (f : Therm → Therm) : (s.modTherm f).log = s.log := rfl
@[simp] theorem State.modTherm_warn (s : State) (f : Therm → Therm) : (s.modTherm f).warn = s.warn := rfl
@[simp] theorem State.modTherm_flagHist (s : State) (f : Therm → Therm) : (s.modTherm f).flagHist = s.flagHist := rfl
@[simp] theorem State.modTherm_tb (s : State) (f : Therm → Therm) : (s.modTherm f).tb = s.tb := rfl
@[simp] theorem State.modTherm_tiu (s : State) (f : Therm → Therm) : (s.modTherm f).tiu = s.tiu := rfl
@[simp] theorem State.modTherm_trail (s : State) (f : Therm → Therm) : (s.modTherm f).trail = s.trail := rfl
@[simp] theorem State.modTherm_grid (s : State) (f : Therm → Therm) : (s.modTherm f).grid = s.grid := rfl
@[simp] theorem State.modTherm_gateRun (s : State) (f : Therm → Therm) : (s.modTherm f).gateRun = s.gateRun := rfl
@[simp] theorem State.modTherm_probeRun (s : State) (f : Therm → Therm) : (s.modTherm f).probeRun = s.probeRun := rfl
@[simp] theorem State.modTherm_emit (s : State) (f : Therm → Therm) : (s.modTherm f).emit = s.emit := rfl
@[simp] theorem State.modTherm_lines (s : State) (f : Therm → Therm) : (s.modTherm f).lines = s.lines := rfl
@[simp] theorem State.modTherm_ctxs (s : State) (f : Therm → Therm) : (s.modTherm f).ctxs = s.ctxs := rfl
@[simp] theorem State.modTherm_streams (s : State) (f : Therm → Therm) : (s.modTherm f).streams = s.streams := rfl
@[simp] theorem State.modTherm_ports (s : State) (f : Therm → Therm) : (s.modTherm f).ports = s.ports := rfl
@[simp] theorem State.modTherm_vectors (s : State) (f : Therm → Therm) : (s.modTherm f).vectors = s.vectors := rfl
@[simp] theorem State.modTherm_pcie (s : State) (f : Therm → Therm) : (s.modTherm f).pcie = s.pcie := rfl
@[simp] theorem State.modTherm_sec (s : State) (f : Therm → Therm) : (s.modTherm f).sec = s.sec := rfl
@[simp] theorem State.modTherm_dbg (s : State) (f : Therm → Therm) : (s.modTherm f).dbg = s.dbg := rfl
@[simp] theorem State.modTherm_pwr (s : State) (f : Therm → Therm) : (s.modTherm f).pwr = s.pwr := rfl
@[simp] theorem State.modTherm_health (s : State) (f : Therm → Therm) : (s.modTherm f).health = s.health := rfl
@[simp] theorem State.modTherm_dram (s : State) (f : Therm → Therm) : (s.modTherm f).dram = s.dram := rfl
@[simp] theorem State.modTherm_ltune (s : State) (f : Therm → Therm) : (s.modTherm f).ltune = s.ltune := rfl
@[simp] theorem State.modTherm_quads (s : State) (f : Therm → Therm) : (s.modTherm f).quads = s.quads := rfl
@[simp] theorem State.modTherm_cal (s : State) (f : Therm → Therm) : (s.modTherm f).cal = s.cal := rfl
@[simp] theorem State.modTherm_ref2 (s : State) (f : Therm → Therm) : (s.modTherm f).ref2 = s.ref2 := rfl
@[simp] theorem State.modTherm_felt (s : State) (f : Therm → Therm) : (s.modTherm f).felt = s.felt := rfl
@[simp] theorem State.modTherm_slow (s : State) (f : Therm → Therm) : (s.modTherm f).slow = s.slow := rfl
@[simp] theorem State.modTherm_tiles (s : State) (f : Therm → Therm) : (s.modTherm f).tiles = s.tiles := rfl
@[simp] theorem State.modTherm_mem (s : State) (f : Therm → Therm) : (s.modTherm f).mem = s.mem := rfl
@[simp] theorem State.modTherm_trig (s : State) (f : Therm → Therm) : (s.modTherm f).trig = s.trig := rfl
@[simp] theorem State.modTherm_zones (s : State) (f : Therm → Therm) : (s.modTherm f).zones = s.zones := rfl
@[simp] theorem State.modTherm_panel (s : State) (f : Therm → Therm) : (s.modTherm f).panel = s.panel := rfl
@[simp] theorem State.modTherm_bale (s : State) (f : Therm → Therm) : (s.modTherm f).bale = s.bale := rfl
@[simp] theorem State.modTherm_memMask (s : State) (f : Therm → Therm) : (s.modTherm f).memMask = s.memMask := rfl
@[simp] theorem State.modTherm_capMibNow (s : State) (f : Therm → Therm) : (s.modTherm f).capMibNow = s.capMibNow := rfl
@[simp] theorem State.modTherm_therm (s : State) (f : Therm → Therm) : (s.modTherm f).therm = f s.therm := rfl

/-! `modPool` changes `tiles` alone. -/
@[simp] theorem State.modPool_pending (s : State) (f : TilePool → TilePool) : (s.modPool f).pending = s.pending := rfl
@[simp] theorem State.modPool_build (s : State) (f : TilePool → TilePool) : (s.modPool f).build = s.build := rfl
@[simp] theorem State.modPool_now (s : State) (f : TilePool → TilePool) : (s.modPool f).now = s.now := rfl
@[simp] theorem State.modPool_out (s : State) (f : TilePool → TilePool) : (s.modPool f).out = s.out := rfl
@[simp] theorem State.modPool_free (s : State) (f : TilePool → TilePool) : (s.modPool f).free = s.free := rfl
@[simp] theorem State.modPool_sys (s : State) (f : TilePool → TilePool) : (s.modPool f).sys = s.sys := rfl
@[simp] theorem State.modPool_cfg (s : State) (f : TilePool → TilePool) : (s.modPool f).cfg = s.cfg := rfl
@[simp] theorem State.modPool_mbs (s : State) (f : TilePool → TilePool) : (s.modPool f).mbs = s.mbs := rfl
@[simp] theorem State.modPool_pend (s : State) (f : TilePool → TilePool) : (s.modPool f).pend = s.pend := rfl
@[simp] theorem State.modPool_ev (s : State) (f : TilePool → TilePool) : (s.modPool f).ev = s.ev := rfl
@[simp] theorem State.modPool_log (s : State) (f : TilePool → TilePool) : (s.modPool f).log = s.log := rfl
@[simp] theorem State.modPool_warn (s : State) (f : TilePool → TilePool) : (s.modPool f).warn = s.warn := rfl
@[simp] theorem State.modPool_flagHist (s : State) (f : TilePool → TilePool) : (s.modPool f).flagHist = s.flagHist := rfl
@[simp] theorem State.modPool_tb (s : State) (f : TilePool → TilePool) : (s.modPool f).tb = s.tb := rfl
@[simp] theorem State.modPool_tiu (s : State) (f : TilePool → TilePool) : (s.modPool f).tiu = s.tiu := rfl
@[simp] theorem State.modPool_trail (s : State) (f : TilePool → TilePool) : (s.modPool f).trail = s.trail := rfl
@[simp] theorem State.modPool_grid (s : State) (f : TilePool → TilePool) : (s.modPool f).grid = s.grid := rfl
@[simp] theorem State.modPool_gateRun (s : State) (f : TilePool → TilePool) : (s.modPool f).gateRun = s.gateRun := rfl
@[simp] theorem State.modPool_probeRun (s : State) (f : TilePool → TilePool) : (s.modPool f).probeRun = s.probeRun := rfl
@[simp] theorem State.modPool_emit (s : State) (f : TilePool → TilePool) : (s.modPool f).emit = s.emit := rfl
@[simp] theorem State.modPool_lines (s : State) (f : TilePool → TilePool) : (s.modPool f).lines = s.lines := rfl
@[simp] theorem State.modPool_ctxs (s : State) (f : TilePool → TilePool) : (s.modPool f).ctxs = s.ctxs := rfl
@[simp] theorem State.modPool_streams (s : State) (f : TilePool → TilePool) : (s.modPool f).streams = s.streams := rfl
@[simp] theorem State.modPool_ports (s : State) (f : TilePool → TilePool) : (s.modPool f).ports = s.ports := rfl
@[simp] theorem State.modPool_vectors (s : State) (f : TilePool → TilePool) : (s.modPool f).vectors = s.vectors := rfl
@[simp] theorem State.modPool_pcie (s : State) (f : TilePool → TilePool) : (s.modPool f).pcie = s.pcie := rfl
@[simp] theorem State.modPool_sec (s : State) (f : TilePool → TilePool) : (s.modPool f).sec = s.sec := rfl
@[simp] theorem State.modPool_dbg (s : State) (f : TilePool → TilePool) : (s.modPool f).dbg = s.dbg := rfl
@[simp] theorem State.modPool_pwr (s : State) (f : TilePool → TilePool) : (s.modPool f).pwr = s.pwr := rfl
@[simp] theorem State.modPool_health (s : State) (f : TilePool → TilePool) : (s.modPool f).health = s.health := rfl
@[simp] theorem State.modPool_dram (s : State) (f : TilePool → TilePool) : (s.modPool f).dram = s.dram := rfl
@[simp] theorem State.modPool_ltune (s : State) (f : TilePool → TilePool) : (s.modPool f).ltune = s.ltune := rfl
@[simp] theorem State.modPool_quads (s : State) (f : TilePool → TilePool) : (s.modPool f).quads = s.quads := rfl
@[simp] theorem State.modPool_cal (s : State) (f : TilePool → TilePool) : (s.modPool f).cal = s.cal := rfl
@[simp] theorem State.modPool_ref2 (s : State) (f : TilePool → TilePool) : (s.modPool f).ref2 = s.ref2 := rfl
@[simp] theorem State.modPool_felt (s : State) (f : TilePool → TilePool) : (s.modPool f).felt = s.felt := rfl
@[simp] theorem State.modPool_slow (s : State) (f : TilePool → TilePool) : (s.modPool f).slow = s.slow := rfl
@[simp] theorem State.modPool_mem (s : State) (f : TilePool → TilePool) : (s.modPool f).mem = s.mem := rfl
@[simp] theorem State.modPool_trig (s : State) (f : TilePool → TilePool) : (s.modPool f).trig = s.trig := rfl
@[simp] theorem State.modPool_therm (s : State) (f : TilePool → TilePool) : (s.modPool f).therm = s.therm := rfl
@[simp] theorem State.modPool_zones (s : State) (f : TilePool → TilePool) : (s.modPool f).zones = s.zones := rfl
@[simp] theorem State.modPool_panel (s : State) (f : TilePool → TilePool) : (s.modPool f).panel = s.panel := rfl
@[simp] theorem State.modPool_bale (s : State) (f : TilePool → TilePool) : (s.modPool f).bale = s.bale := rfl
@[simp] theorem State.modPool_memMask (s : State) (f : TilePool → TilePool) : (s.modPool f).memMask = s.memMask := rfl
@[simp] theorem State.modPool_capMibNow (s : State) (f : TilePool → TilePool) : (s.modPool f).capMibNow = s.capMibNow := rfl
@[simp] theorem State.modPool_tiles (s : State) (f : TilePool → TilePool) : (s.modPool f).tiles = f s.tiles := rfl

/-! `modTrig` changes `trig` alone. -/
@[simp] theorem State.modTrig_pending (s : State) (f : TrigState → TrigState) : (s.modTrig f).pending = s.pending := rfl
@[simp] theorem State.modTrig_build (s : State) (f : TrigState → TrigState) : (s.modTrig f).build = s.build := rfl
@[simp] theorem State.modTrig_now (s : State) (f : TrigState → TrigState) : (s.modTrig f).now = s.now := rfl
@[simp] theorem State.modTrig_out (s : State) (f : TrigState → TrigState) : (s.modTrig f).out = s.out := rfl
@[simp] theorem State.modTrig_free (s : State) (f : TrigState → TrigState) : (s.modTrig f).free = s.free := rfl
@[simp] theorem State.modTrig_sys (s : State) (f : TrigState → TrigState) : (s.modTrig f).sys = s.sys := rfl
@[simp] theorem State.modTrig_cfg (s : State) (f : TrigState → TrigState) : (s.modTrig f).cfg = s.cfg := rfl
@[simp] theorem State.modTrig_mbs (s : State) (f : TrigState → TrigState) : (s.modTrig f).mbs = s.mbs := rfl
@[simp] theorem State.modTrig_pend (s : State) (f : TrigState → TrigState) : (s.modTrig f).pend = s.pend := rfl
@[simp] theorem State.modTrig_ev (s : State) (f : TrigState → TrigState) : (s.modTrig f).ev = s.ev := rfl
@[simp] theorem State.modTrig_log (s : State) (f : TrigState → TrigState) : (s.modTrig f).log = s.log := rfl
@[simp] theorem State.modTrig_warn (s : State) (f : TrigState → TrigState) : (s.modTrig f).warn = s.warn := rfl
@[simp] theorem State.modTrig_flagHist (s : State) (f : TrigState → TrigState) : (s.modTrig f).flagHist = s.flagHist := rfl
@[simp] theorem State.modTrig_tb (s : State) (f : TrigState → TrigState) : (s.modTrig f).tb = s.tb := rfl
@[simp] theorem State.modTrig_tiu (s : State) (f : TrigState → TrigState) : (s.modTrig f).tiu = s.tiu := rfl
@[simp] theorem State.modTrig_trail (s : State) (f : TrigState → TrigState) : (s.modTrig f).trail = s.trail := rfl
@[simp] theorem State.modTrig_grid (s : State) (f : TrigState → TrigState) : (s.modTrig f).grid = s.grid := rfl
@[simp] theorem State.modTrig_gateRun (s : State) (f : TrigState → TrigState) : (s.modTrig f).gateRun = s.gateRun := rfl
@[simp] theorem State.modTrig_probeRun (s : State) (f : TrigState → TrigState) : (s.modTrig f).probeRun = s.probeRun := rfl
@[simp] theorem State.modTrig_emit (s : State) (f : TrigState → TrigState) : (s.modTrig f).emit = s.emit := rfl
@[simp] theorem State.modTrig_lines (s : State) (f : TrigState → TrigState) : (s.modTrig f).lines = s.lines := rfl
@[simp] theorem State.modTrig_ctxs (s : State) (f : TrigState → TrigState) : (s.modTrig f).ctxs = s.ctxs := rfl
@[simp] theorem State.modTrig_streams (s : State) (f : TrigState → TrigState) : (s.modTrig f).streams = s.streams := rfl
@[simp] theorem State.modTrig_ports (s : State) (f : TrigState → TrigState) : (s.modTrig f).ports = s.ports := rfl
@[simp] theorem State.modTrig_vectors (s : State) (f : TrigState → TrigState) : (s.modTrig f).vectors = s.vectors := rfl
@[simp] theorem State.modTrig_pcie (s : State) (f : TrigState → TrigState) : (s.modTrig f).pcie = s.pcie := rfl
@[simp] theorem State.modTrig_sec (s : State) (f : TrigState → TrigState) : (s.modTrig f).sec = s.sec := rfl
@[simp] theorem State.modTrig_dbg (s : State) (f : TrigState → TrigState) : (s.modTrig f).dbg = s.dbg := rfl
@[simp] theorem State.modTrig_pwr (s : State) (f : TrigState → TrigState) : (s.modTrig f).pwr = s.pwr := rfl
@[simp] theorem State.modTrig_health (s : State) (f : TrigState → TrigState) : (s.modTrig f).health = s.health := rfl
@[simp] theorem State.modTrig_dram (s : State) (f : TrigState → TrigState) : (s.modTrig f).dram = s.dram := rfl
@[simp] theorem State.modTrig_ltune (s : State) (f : TrigState → TrigState) : (s.modTrig f).ltune = s.ltune := rfl
@[simp] theorem State.modTrig_quads (s : State) (f : TrigState → TrigState) : (s.modTrig f).quads = s.quads := rfl
@[simp] theorem State.modTrig_cal (s : State) (f : TrigState → TrigState) : (s.modTrig f).cal = s.cal := rfl
@[simp] theorem State.modTrig_ref2 (s : State) (f : TrigState → TrigState) : (s.modTrig f).ref2 = s.ref2 := rfl
@[simp] theorem State.modTrig_felt (s : State) (f : TrigState → TrigState) : (s.modTrig f).felt = s.felt := rfl
@[simp] theorem State.modTrig_slow (s : State) (f : TrigState → TrigState) : (s.modTrig f).slow = s.slow := rfl
@[simp] theorem State.modTrig_tiles (s : State) (f : TrigState → TrigState) : (s.modTrig f).tiles = s.tiles := rfl
@[simp] theorem State.modTrig_mem (s : State) (f : TrigState → TrigState) : (s.modTrig f).mem = s.mem := rfl
@[simp] theorem State.modTrig_therm (s : State) (f : TrigState → TrigState) : (s.modTrig f).therm = s.therm := rfl
@[simp] theorem State.modTrig_zones (s : State) (f : TrigState → TrigState) : (s.modTrig f).zones = s.zones := rfl
@[simp] theorem State.modTrig_panel (s : State) (f : TrigState → TrigState) : (s.modTrig f).panel = s.panel := rfl
@[simp] theorem State.modTrig_bale (s : State) (f : TrigState → TrigState) : (s.modTrig f).bale = s.bale := rfl
@[simp] theorem State.modTrig_memMask (s : State) (f : TrigState → TrigState) : (s.modTrig f).memMask = s.memMask := rfl
@[simp] theorem State.modTrig_capMibNow (s : State) (f : TrigState → TrigState) : (s.modTrig f).capMibNow = s.capMibNow := rfl
@[simp] theorem State.modTrig_trig (s : State) (f : TrigState → TrigState) : (s.modTrig f).trig = f s.trig := rfl

/-! `modZone` changes `zones` alone. -/
@[simp] theorem State.modZone_pending (s : State) (n : Nat) (f : ZoneRun → ZoneRun) : (s.modZone n f).pending = s.pending := rfl
@[simp] theorem State.modZone_build (s : State) (n : Nat) (f : ZoneRun → ZoneRun) : (s.modZone n f).build = s.build := rfl
@[simp] theorem State.modZone_now (s : State) (n : Nat) (f : ZoneRun → ZoneRun) : (s.modZone n f).now = s.now := rfl
@[simp] theorem State.modZone_out (s : State) (n : Nat) (f : ZoneRun → ZoneRun) : (s.modZone n f).out = s.out := rfl
@[simp] theorem State.modZone_free (s : State) (n : Nat) (f : ZoneRun → ZoneRun) : (s.modZone n f).free = s.free := rfl
@[simp] theorem State.modZone_sys (s : State) (n : Nat) (f : ZoneRun → ZoneRun) : (s.modZone n f).sys = s.sys := rfl
@[simp] theorem State.modZone_cfg (s : State) (n : Nat) (f : ZoneRun → ZoneRun) : (s.modZone n f).cfg = s.cfg := rfl
@[simp] theorem State.modZone_mbs (s : State) (n : Nat) (f : ZoneRun → ZoneRun) : (s.modZone n f).mbs = s.mbs := rfl
@[simp] theorem State.modZone_pend (s : State) (n : Nat) (f : ZoneRun → ZoneRun) : (s.modZone n f).pend = s.pend := rfl
@[simp] theorem State.modZone_ev (s : State) (n : Nat) (f : ZoneRun → ZoneRun) : (s.modZone n f).ev = s.ev := rfl
@[simp] theorem State.modZone_log (s : State) (n : Nat) (f : ZoneRun → ZoneRun) : (s.modZone n f).log = s.log := rfl
@[simp] theorem State.modZone_warn (s : State) (n : Nat) (f : ZoneRun → ZoneRun) : (s.modZone n f).warn = s.warn := rfl
@[simp] theorem State.modZone_flagHist (s : State) (n : Nat) (f : ZoneRun → ZoneRun) : (s.modZone n f).flagHist = s.flagHist := rfl
@[simp] theorem State.modZone_tb (s : State) (n : Nat) (f : ZoneRun → ZoneRun) : (s.modZone n f).tb = s.tb := rfl
@[simp] theorem State.modZone_tiu (s : State) (n : Nat) (f : ZoneRun → ZoneRun) : (s.modZone n f).tiu = s.tiu := rfl
@[simp] theorem State.modZone_trail (s : State) (n : Nat) (f : ZoneRun → ZoneRun) : (s.modZone n f).trail = s.trail := rfl
@[simp] theorem State.modZone_grid (s : State) (n : Nat) (f : ZoneRun → ZoneRun) : (s.modZone n f).grid = s.grid := rfl
@[simp] theorem State.modZone_gateRun (s : State) (n : Nat) (f : ZoneRun → ZoneRun) : (s.modZone n f).gateRun = s.gateRun := rfl
@[simp] theorem State.modZone_probeRun (s : State) (n : Nat) (f : ZoneRun → ZoneRun) : (s.modZone n f).probeRun = s.probeRun := rfl
@[simp] theorem State.modZone_emit (s : State) (n : Nat) (f : ZoneRun → ZoneRun) : (s.modZone n f).emit = s.emit := rfl
@[simp] theorem State.modZone_lines (s : State) (n : Nat) (f : ZoneRun → ZoneRun) : (s.modZone n f).lines = s.lines := rfl
@[simp] theorem State.modZone_ctxs (s : State) (n : Nat) (f : ZoneRun → ZoneRun) : (s.modZone n f).ctxs = s.ctxs := rfl
@[simp] theorem State.modZone_streams (s : State) (n : Nat) (f : ZoneRun → ZoneRun) : (s.modZone n f).streams = s.streams := rfl
@[simp] theorem State.modZone_ports (s : State) (n : Nat) (f : ZoneRun → ZoneRun) : (s.modZone n f).ports = s.ports := rfl
@[simp] theorem State.modZone_vectors (s : State) (n : Nat) (f : ZoneRun → ZoneRun) : (s.modZone n f).vectors = s.vectors := rfl
@[simp] theorem State.modZone_pcie (s : State) (n : Nat) (f : ZoneRun → ZoneRun) : (s.modZone n f).pcie = s.pcie := rfl
@[simp] theorem State.modZone_sec (s : State) (n : Nat) (f : ZoneRun → ZoneRun) : (s.modZone n f).sec = s.sec := rfl
@[simp] theorem State.modZone_dbg (s : State) (n : Nat) (f : ZoneRun → ZoneRun) : (s.modZone n f).dbg = s.dbg := rfl
@[simp] theorem State.modZone_pwr (s : State) (n : Nat) (f : ZoneRun → ZoneRun) : (s.modZone n f).pwr = s.pwr := rfl
@[simp] theorem State.modZone_health (s : State) (n : Nat) (f : ZoneRun → ZoneRun) : (s.modZone n f).health = s.health := rfl
@[simp] theorem State.modZone_dram (s : State) (n : Nat) (f : ZoneRun → ZoneRun) : (s.modZone n f).dram = s.dram := rfl
@[simp] theorem State.modZone_ltune (s : State) (n : Nat) (f : ZoneRun → ZoneRun) : (s.modZone n f).ltune = s.ltune := rfl
@[simp] theorem State.modZone_quads (s : State) (n : Nat) (f : ZoneRun → ZoneRun) : (s.modZone n f).quads = s.quads := rfl
@[simp] theorem State.modZone_cal (s : State) (n : Nat) (f : ZoneRun → ZoneRun) : (s.modZone n f).cal = s.cal := rfl
@[simp] theorem State.modZone_ref2 (s : State) (n : Nat) (f : ZoneRun → ZoneRun) : (s.modZone n f).ref2 = s.ref2 := rfl
@[simp] theorem State.modZone_felt (s : State) (n : Nat) (f : ZoneRun → ZoneRun) : (s.modZone n f).felt = s.felt := rfl
@[simp] theorem State.modZone_slow (s : State) (n : Nat) (f : ZoneRun → ZoneRun) : (s.modZone n f).slow = s.slow := rfl
@[simp] theorem State.modZone_tiles (s : State) (n : Nat) (f : ZoneRun → ZoneRun) : (s.modZone n f).tiles = s.tiles := rfl
@[simp] theorem State.modZone_mem (s : State) (n : Nat) (f : ZoneRun → ZoneRun) : (s.modZone n f).mem = s.mem := rfl
@[simp] theorem State.modZone_trig (s : State) (n : Nat) (f : ZoneRun → ZoneRun) : (s.modZone n f).trig = s.trig := rfl
@[simp] theorem State.modZone_therm (s : State) (n : Nat) (f : ZoneRun → ZoneRun) : (s.modZone n f).therm = s.therm := rfl
@[simp] theorem State.modZone_panel (s : State) (n : Nat) (f : ZoneRun → ZoneRun) : (s.modZone n f).panel = s.panel := rfl
@[simp] theorem State.modZone_bale (s : State) (n : Nat) (f : ZoneRun → ZoneRun) : (s.modZone n f).bale = s.bale := rfl
@[simp] theorem State.modZone_memMask (s : State) (n : Nat) (f : ZoneRun → ZoneRun) : (s.modZone n f).memMask = s.memMask := rfl
@[simp] theorem State.modZone_capMibNow (s : State) (n : Nat) (f : ZoneRun → ZoneRun) : (s.modZone n f).capMibNow = s.capMibNow := rfl
@[simp] theorem State.modZone_zones (s : State) (n : Nat) (f : ZoneRun → ZoneRun) : (s.modZone n f).zones = upd s.zones n f := rfl

/-! `modPanel` changes `panel` alone. -/
@[simp] theorem State.modPanel_pending (s : State) (f : Panel → Panel) : (s.modPanel f).pending = s.pending := rfl
@[simp] theorem State.modPanel_build (s : State) (f : Panel → Panel) : (s.modPanel f).build = s.build := rfl
@[simp] theorem State.modPanel_now (s : State) (f : Panel → Panel) : (s.modPanel f).now = s.now := rfl
@[simp] theorem State.modPanel_out (s : State) (f : Panel → Panel) : (s.modPanel f).out = s.out := rfl
@[simp] theorem State.modPanel_free (s : State) (f : Panel → Panel) : (s.modPanel f).free = s.free := rfl
@[simp] theorem State.modPanel_sys (s : State) (f : Panel → Panel) : (s.modPanel f).sys = s.sys := rfl
@[simp] theorem State.modPanel_cfg (s : State) (f : Panel → Panel) : (s.modPanel f).cfg = s.cfg := rfl
@[simp] theorem State.modPanel_mbs (s : State) (f : Panel → Panel) : (s.modPanel f).mbs = s.mbs := rfl
@[simp] theorem State.modPanel_pend (s : State) (f : Panel → Panel) : (s.modPanel f).pend = s.pend := rfl
@[simp] theorem State.modPanel_ev (s : State) (f : Panel → Panel) : (s.modPanel f).ev = s.ev := rfl
@[simp] theorem State.modPanel_log (s : State) (f : Panel → Panel) : (s.modPanel f).log = s.log := rfl
@[simp] theorem State.modPanel_warn (s : State) (f : Panel → Panel) : (s.modPanel f).warn = s.warn := rfl
@[simp] theorem State.modPanel_flagHist (s : State) (f : Panel → Panel) : (s.modPanel f).flagHist = s.flagHist := rfl
@[simp] theorem State.modPanel_tb (s : State) (f : Panel → Panel) : (s.modPanel f).tb = s.tb := rfl
@[simp] theorem State.modPanel_tiu (s : State) (f : Panel → Panel) : (s.modPanel f).tiu = s.tiu := rfl
@[simp] theorem State.modPanel_trail (s : State) (f : Panel → Panel) : (s.modPanel f).trail = s.trail := rfl
@[simp] theorem State.modPanel_grid (s : State) (f : Panel → Panel) : (s.modPanel f).grid = s.grid := rfl
@[simp] theorem State.modPanel_gateRun (s : State) (f : Panel → Panel) : (s.modPanel f).gateRun = s.gateRun := rfl
@[simp] theorem State.modPanel_probeRun (s : State) (f : Panel → Panel) : (s.modPanel f).probeRun = s.probeRun := rfl
@[simp] theorem State.modPanel_emit (s : State) (f : Panel → Panel) : (s.modPanel f).emit = s.emit := rfl
@[simp] theorem State.modPanel_lines (s : State) (f : Panel → Panel) : (s.modPanel f).lines = s.lines := rfl
@[simp] theorem State.modPanel_ctxs (s : State) (f : Panel → Panel) : (s.modPanel f).ctxs = s.ctxs := rfl
@[simp] theorem State.modPanel_streams (s : State) (f : Panel → Panel) : (s.modPanel f).streams = s.streams := rfl
@[simp] theorem State.modPanel_ports (s : State) (f : Panel → Panel) : (s.modPanel f).ports = s.ports := rfl
@[simp] theorem State.modPanel_vectors (s : State) (f : Panel → Panel) : (s.modPanel f).vectors = s.vectors := rfl
@[simp] theorem State.modPanel_pcie (s : State) (f : Panel → Panel) : (s.modPanel f).pcie = s.pcie := rfl
@[simp] theorem State.modPanel_sec (s : State) (f : Panel → Panel) : (s.modPanel f).sec = s.sec := rfl
@[simp] theorem State.modPanel_dbg (s : State) (f : Panel → Panel) : (s.modPanel f).dbg = s.dbg := rfl
@[simp] theorem State.modPanel_pwr (s : State) (f : Panel → Panel) : (s.modPanel f).pwr = s.pwr := rfl
@[simp] theorem State.modPanel_health (s : State) (f : Panel → Panel) : (s.modPanel f).health = s.health := rfl
@[simp] theorem State.modPanel_dram (s : State) (f : Panel → Panel) : (s.modPanel f).dram = s.dram := rfl
@[simp] theorem State.modPanel_ltune (s : State) (f : Panel → Panel) : (s.modPanel f).ltune = s.ltune := rfl
@[simp] theorem State.modPanel_quads (s : State) (f : Panel → Panel) : (s.modPanel f).quads = s.quads := rfl
@[simp] theorem State.modPanel_cal (s : State) (f : Panel → Panel) : (s.modPanel f).cal = s.cal := rfl
@[simp] theorem State.modPanel_ref2 (s : State) (f : Panel → Panel) : (s.modPanel f).ref2 = s.ref2 := rfl
@[simp] theorem State.modPanel_felt (s : State) (f : Panel → Panel) : (s.modPanel f).felt = s.felt := rfl
@[simp] theorem State.modPanel_slow (s : State) (f : Panel → Panel) : (s.modPanel f).slow = s.slow := rfl
@[simp] theorem State.modPanel_tiles (s : State) (f : Panel → Panel) : (s.modPanel f).tiles = s.tiles := rfl
@[simp] theorem State.modPanel_mem (s : State) (f : Panel → Panel) : (s.modPanel f).mem = s.mem := rfl
@[simp] theorem State.modPanel_trig (s : State) (f : Panel → Panel) : (s.modPanel f).trig = s.trig := rfl
@[simp] theorem State.modPanel_therm (s : State) (f : Panel → Panel) : (s.modPanel f).therm = s.therm := rfl
@[simp] theorem State.modPanel_zones (s : State) (f : Panel → Panel) : (s.modPanel f).zones = s.zones := rfl
@[simp] theorem State.modPanel_bale (s : State) (f : Panel → Panel) : (s.modPanel f).bale = s.bale := rfl
@[simp] theorem State.modPanel_memMask (s : State) (f : Panel → Panel) : (s.modPanel f).memMask = s.memMask := rfl
@[simp] theorem State.modPanel_capMibNow (s : State) (f : Panel → Panel) : (s.modPanel f).capMibNow = s.capMibNow := rfl
@[simp] theorem State.modPanel_panel (s : State) (f : Panel → Panel) : (s.modPanel f).panel = f s.panel := rfl

/-! `modBale` changes `bale` alone. -/
@[simp] theorem State.modBale_pending (s : State) (f : BaleRun → BaleRun) : (s.modBale f).pending = s.pending := rfl
@[simp] theorem State.modBale_build (s : State) (f : BaleRun → BaleRun) : (s.modBale f).build = s.build := rfl
@[simp] theorem State.modBale_now (s : State) (f : BaleRun → BaleRun) : (s.modBale f).now = s.now := rfl
@[simp] theorem State.modBale_out (s : State) (f : BaleRun → BaleRun) : (s.modBale f).out = s.out := rfl
@[simp] theorem State.modBale_free (s : State) (f : BaleRun → BaleRun) : (s.modBale f).free = s.free := rfl
@[simp] theorem State.modBale_sys (s : State) (f : BaleRun → BaleRun) : (s.modBale f).sys = s.sys := rfl
@[simp] theorem State.modBale_cfg (s : State) (f : BaleRun → BaleRun) : (s.modBale f).cfg = s.cfg := rfl
@[simp] theorem State.modBale_mbs (s : State) (f : BaleRun → BaleRun) : (s.modBale f).mbs = s.mbs := rfl
@[simp] theorem State.modBale_pend (s : State) (f : BaleRun → BaleRun) : (s.modBale f).pend = s.pend := rfl
@[simp] theorem State.modBale_ev (s : State) (f : BaleRun → BaleRun) : (s.modBale f).ev = s.ev := rfl
@[simp] theorem State.modBale_log (s : State) (f : BaleRun → BaleRun) : (s.modBale f).log = s.log := rfl
@[simp] theorem State.modBale_warn (s : State) (f : BaleRun → BaleRun) : (s.modBale f).warn = s.warn := rfl
@[simp] theorem State.modBale_flagHist (s : State) (f : BaleRun → BaleRun) : (s.modBale f).flagHist = s.flagHist := rfl
@[simp] theorem State.modBale_tb (s : State) (f : BaleRun → BaleRun) : (s.modBale f).tb = s.tb := rfl
@[simp] theorem State.modBale_tiu (s : State) (f : BaleRun → BaleRun) : (s.modBale f).tiu = s.tiu := rfl
@[simp] theorem State.modBale_trail (s : State) (f : BaleRun → BaleRun) : (s.modBale f).trail = s.trail := rfl
@[simp] theorem State.modBale_grid (s : State) (f : BaleRun → BaleRun) : (s.modBale f).grid = s.grid := rfl
@[simp] theorem State.modBale_gateRun (s : State) (f : BaleRun → BaleRun) : (s.modBale f).gateRun = s.gateRun := rfl
@[simp] theorem State.modBale_probeRun (s : State) (f : BaleRun → BaleRun) : (s.modBale f).probeRun = s.probeRun := rfl
@[simp] theorem State.modBale_emit (s : State) (f : BaleRun → BaleRun) : (s.modBale f).emit = s.emit := rfl
@[simp] theorem State.modBale_lines (s : State) (f : BaleRun → BaleRun) : (s.modBale f).lines = s.lines := rfl
@[simp] theorem State.modBale_ctxs (s : State) (f : BaleRun → BaleRun) : (s.modBale f).ctxs = s.ctxs := rfl
@[simp] theorem State.modBale_streams (s : State) (f : BaleRun → BaleRun) : (s.modBale f).streams = s.streams := rfl
@[simp] theorem State.modBale_ports (s : State) (f : BaleRun → BaleRun) : (s.modBale f).ports = s.ports := rfl
@[simp] theorem State.modBale_vectors (s : State) (f : BaleRun → BaleRun) : (s.modBale f).vectors = s.vectors := rfl
@[simp] theorem State.modBale_pcie (s : State) (f : BaleRun → BaleRun) : (s.modBale f).pcie = s.pcie := rfl
@[simp] theorem State.modBale_sec (s : State) (f : BaleRun → BaleRun) : (s.modBale f).sec = s.sec := rfl
@[simp] theorem State.modBale_dbg (s : State) (f : BaleRun → BaleRun) : (s.modBale f).dbg = s.dbg := rfl
@[simp] theorem State.modBale_pwr (s : State) (f : BaleRun → BaleRun) : (s.modBale f).pwr = s.pwr := rfl
@[simp] theorem State.modBale_health (s : State) (f : BaleRun → BaleRun) : (s.modBale f).health = s.health := rfl
@[simp] theorem State.modBale_dram (s : State) (f : BaleRun → BaleRun) : (s.modBale f).dram = s.dram := rfl
@[simp] theorem State.modBale_ltune (s : State) (f : BaleRun → BaleRun) : (s.modBale f).ltune = s.ltune := rfl
@[simp] theorem State.modBale_quads (s : State) (f : BaleRun → BaleRun) : (s.modBale f).quads = s.quads := rfl
@[simp] theorem State.modBale_cal (s : State) (f : BaleRun → BaleRun) : (s.modBale f).cal = s.cal := rfl
@[simp] theorem State.modBale_ref2 (s : State) (f : BaleRun → BaleRun) : (s.modBale f).ref2 = s.ref2 := rfl
@[simp] theorem State.modBale_felt (s : State) (f : BaleRun → BaleRun) : (s.modBale f).felt = s.felt := rfl
@[simp] theorem State.modBale_slow (s : State) (f : BaleRun → BaleRun) : (s.modBale f).slow = s.slow := rfl
@[simp] theorem State.modBale_tiles (s : State) (f : BaleRun → BaleRun) : (s.modBale f).tiles = s.tiles := rfl
@[simp] theorem State.modBale_mem (s : State) (f : BaleRun → BaleRun) : (s.modBale f).mem = s.mem := rfl
@[simp] theorem State.modBale_trig (s : State) (f : BaleRun → BaleRun) : (s.modBale f).trig = s.trig := rfl
@[simp] theorem State.modBale_therm (s : State) (f : BaleRun → BaleRun) : (s.modBale f).therm = s.therm := rfl
@[simp] theorem State.modBale_zones (s : State) (f : BaleRun → BaleRun) : (s.modBale f).zones = s.zones := rfl
@[simp] theorem State.modBale_panel (s : State) (f : BaleRun → BaleRun) : (s.modBale f).panel = s.panel := rfl
@[simp] theorem State.modBale_memMask (s : State) (f : BaleRun → BaleRun) : (s.modBale f).memMask = s.memMask := rfl
@[simp] theorem State.modBale_capMibNow (s : State) (f : BaleRun → BaleRun) : (s.modBale f).capMibNow = s.capMibNow := rfl
@[simp] theorem State.modBale_bale (s : State) (f : BaleRun → BaleRun) : (s.modBale f).bale = f s.bale := rfl

/-! `modMem` changes `mem` alone. -/
@[simp] theorem State.modMem_pending (s : State) (f : MemRun → MemRun) : (s.modMem f).pending = s.pending := rfl
@[simp] theorem State.modMem_build (s : State) (f : MemRun → MemRun) : (s.modMem f).build = s.build := rfl
@[simp] theorem State.modMem_now (s : State) (f : MemRun → MemRun) : (s.modMem f).now = s.now := rfl
@[simp] theorem State.modMem_out (s : State) (f : MemRun → MemRun) : (s.modMem f).out = s.out := rfl
@[simp] theorem State.modMem_free (s : State) (f : MemRun → MemRun) : (s.modMem f).free = s.free := rfl
@[simp] theorem State.modMem_sys (s : State) (f : MemRun → MemRun) : (s.modMem f).sys = s.sys := rfl
@[simp] theorem State.modMem_cfg (s : State) (f : MemRun → MemRun) : (s.modMem f).cfg = s.cfg := rfl
@[simp] theorem State.modMem_mbs (s : State) (f : MemRun → MemRun) : (s.modMem f).mbs = s.mbs := rfl
@[simp] theorem State.modMem_pend (s : State) (f : MemRun → MemRun) : (s.modMem f).pend = s.pend := rfl
@[simp] theorem State.modMem_ev (s : State) (f : MemRun → MemRun) : (s.modMem f).ev = s.ev := rfl
@[simp] theorem State.modMem_log (s : State) (f : MemRun → MemRun) : (s.modMem f).log = s.log := rfl
@[simp] theorem State.modMem_warn (s : State) (f : MemRun → MemRun) : (s.modMem f).warn = s.warn := rfl
@[simp] theorem State.modMem_flagHist (s : State) (f : MemRun → MemRun) : (s.modMem f).flagHist = s.flagHist := rfl
@[simp] theorem State.modMem_tb (s : State) (f : MemRun → MemRun) : (s.modMem f).tb = s.tb := rfl
@[simp] theorem State.modMem_tiu (s : State) (f : MemRun → MemRun) : (s.modMem f).tiu = s.tiu := rfl
@[simp] theorem State.modMem_trail (s : State) (f : MemRun → MemRun) : (s.modMem f).trail = s.trail := rfl
@[simp] theorem State.modMem_grid (s : State) (f : MemRun → MemRun) : (s.modMem f).grid = s.grid := rfl
@[simp] theorem State.modMem_gateRun (s : State) (f : MemRun → MemRun) : (s.modMem f).gateRun = s.gateRun := rfl
@[simp] theorem State.modMem_probeRun (s : State) (f : MemRun → MemRun) : (s.modMem f).probeRun = s.probeRun := rfl
@[simp] theorem State.modMem_emit (s : State) (f : MemRun → MemRun) : (s.modMem f).emit = s.emit := rfl
@[simp] theorem State.modMem_lines (s : State) (f : MemRun → MemRun) : (s.modMem f).lines = s.lines := rfl
@[simp] theorem State.modMem_ctxs (s : State) (f : MemRun → MemRun) : (s.modMem f).ctxs = s.ctxs := rfl
@[simp] theorem State.modMem_streams (s : State) (f : MemRun → MemRun) : (s.modMem f).streams = s.streams := rfl
@[simp] theorem State.modMem_ports (s : State) (f : MemRun → MemRun) : (s.modMem f).ports = s.ports := rfl
@[simp] theorem State.modMem_vectors (s : State) (f : MemRun → MemRun) : (s.modMem f).vectors = s.vectors := rfl
@[simp] theorem State.modMem_pcie (s : State) (f : MemRun → MemRun) : (s.modMem f).pcie = s.pcie := rfl
@[simp] theorem State.modMem_sec (s : State) (f : MemRun → MemRun) : (s.modMem f).sec = s.sec := rfl
@[simp] theorem State.modMem_dbg (s : State) (f : MemRun → MemRun) : (s.modMem f).dbg = s.dbg := rfl
@[simp] theorem State.modMem_pwr (s : State) (f : MemRun → MemRun) : (s.modMem f).pwr = s.pwr := rfl
@[simp] theorem State.modMem_health (s : State) (f : MemRun → MemRun) : (s.modMem f).health = s.health := rfl
@[simp] theorem State.modMem_dram (s : State) (f : MemRun → MemRun) : (s.modMem f).dram = s.dram := rfl
@[simp] theorem State.modMem_ltune (s : State) (f : MemRun → MemRun) : (s.modMem f).ltune = s.ltune := rfl
@[simp] theorem State.modMem_quads (s : State) (f : MemRun → MemRun) : (s.modMem f).quads = s.quads := rfl
@[simp] theorem State.modMem_cal (s : State) (f : MemRun → MemRun) : (s.modMem f).cal = s.cal := rfl
@[simp] theorem State.modMem_ref2 (s : State) (f : MemRun → MemRun) : (s.modMem f).ref2 = s.ref2 := rfl
@[simp] theorem State.modMem_felt (s : State) (f : MemRun → MemRun) : (s.modMem f).felt = s.felt := rfl
@[simp] theorem State.modMem_slow (s : State) (f : MemRun → MemRun) : (s.modMem f).slow = s.slow := rfl
@[simp] theorem State.modMem_tiles (s : State) (f : MemRun → MemRun) : (s.modMem f).tiles = s.tiles := rfl
@[simp] theorem State.modMem_trig (s : State) (f : MemRun → MemRun) : (s.modMem f).trig = s.trig := rfl
@[simp] theorem State.modMem_therm (s : State) (f : MemRun → MemRun) : (s.modMem f).therm = s.therm := rfl
@[simp] theorem State.modMem_zones (s : State) (f : MemRun → MemRun) : (s.modMem f).zones = s.zones := rfl
@[simp] theorem State.modMem_panel (s : State) (f : MemRun → MemRun) : (s.modMem f).panel = s.panel := rfl
@[simp] theorem State.modMem_bale (s : State) (f : MemRun → MemRun) : (s.modMem f).bale = s.bale := rfl
@[simp] theorem State.modMem_memMask (s : State) (f : MemRun → MemRun) : (s.modMem f).memMask = s.memMask := rfl
@[simp] theorem State.modMem_capMibNow (s : State) (f : MemRun → MemRun) : (s.modMem f).capMibNow = s.capMibNow := rfl
@[simp] theorem State.modMem_mem (s : State) (f : MemRun → MemRun) : (s.modMem f).mem = f s.mem := rfl

/-! `modFelt` changes `felt` alone. -/
@[simp] theorem State.modFelt_pending (s : State) (l : Nat) (f : FeltRing → FeltRing) : (s.modFelt l f).pending = s.pending := rfl
@[simp] theorem State.modFelt_build (s : State) (l : Nat) (f : FeltRing → FeltRing) : (s.modFelt l f).build = s.build := rfl
@[simp] theorem State.modFelt_now (s : State) (l : Nat) (f : FeltRing → FeltRing) : (s.modFelt l f).now = s.now := rfl
@[simp] theorem State.modFelt_out (s : State) (l : Nat) (f : FeltRing → FeltRing) : (s.modFelt l f).out = s.out := rfl
@[simp] theorem State.modFelt_free (s : State) (l : Nat) (f : FeltRing → FeltRing) : (s.modFelt l f).free = s.free := rfl
@[simp] theorem State.modFelt_sys (s : State) (l : Nat) (f : FeltRing → FeltRing) : (s.modFelt l f).sys = s.sys := rfl
@[simp] theorem State.modFelt_cfg (s : State) (l : Nat) (f : FeltRing → FeltRing) : (s.modFelt l f).cfg = s.cfg := rfl
@[simp] theorem State.modFelt_mbs (s : State) (l : Nat) (f : FeltRing → FeltRing) : (s.modFelt l f).mbs = s.mbs := rfl
@[simp] theorem State.modFelt_pend (s : State) (l : Nat) (f : FeltRing → FeltRing) : (s.modFelt l f).pend = s.pend := rfl
@[simp] theorem State.modFelt_ev (s : State) (l : Nat) (f : FeltRing → FeltRing) : (s.modFelt l f).ev = s.ev := rfl
@[simp] theorem State.modFelt_log (s : State) (l : Nat) (f : FeltRing → FeltRing) : (s.modFelt l f).log = s.log := rfl
@[simp] theorem State.modFelt_warn (s : State) (l : Nat) (f : FeltRing → FeltRing) : (s.modFelt l f).warn = s.warn := rfl
@[simp] theorem State.modFelt_flagHist (s : State) (l : Nat) (f : FeltRing → FeltRing) : (s.modFelt l f).flagHist = s.flagHist := rfl
@[simp] theorem State.modFelt_tb (s : State) (l : Nat) (f : FeltRing → FeltRing) : (s.modFelt l f).tb = s.tb := rfl
@[simp] theorem State.modFelt_tiu (s : State) (l : Nat) (f : FeltRing → FeltRing) : (s.modFelt l f).tiu = s.tiu := rfl
@[simp] theorem State.modFelt_trail (s : State) (l : Nat) (f : FeltRing → FeltRing) : (s.modFelt l f).trail = s.trail := rfl
@[simp] theorem State.modFelt_grid (s : State) (l : Nat) (f : FeltRing → FeltRing) : (s.modFelt l f).grid = s.grid := rfl
@[simp] theorem State.modFelt_gateRun (s : State) (l : Nat) (f : FeltRing → FeltRing) : (s.modFelt l f).gateRun = s.gateRun := rfl
@[simp] theorem State.modFelt_probeRun (s : State) (l : Nat) (f : FeltRing → FeltRing) : (s.modFelt l f).probeRun = s.probeRun := rfl
@[simp] theorem State.modFelt_emit (s : State) (l : Nat) (f : FeltRing → FeltRing) : (s.modFelt l f).emit = s.emit := rfl
@[simp] theorem State.modFelt_lines (s : State) (l : Nat) (f : FeltRing → FeltRing) : (s.modFelt l f).lines = s.lines := rfl
@[simp] theorem State.modFelt_ctxs (s : State) (l : Nat) (f : FeltRing → FeltRing) : (s.modFelt l f).ctxs = s.ctxs := rfl
@[simp] theorem State.modFelt_streams (s : State) (l : Nat) (f : FeltRing → FeltRing) : (s.modFelt l f).streams = s.streams := rfl
@[simp] theorem State.modFelt_ports (s : State) (l : Nat) (f : FeltRing → FeltRing) : (s.modFelt l f).ports = s.ports := rfl
@[simp] theorem State.modFelt_vectors (s : State) (l : Nat) (f : FeltRing → FeltRing) : (s.modFelt l f).vectors = s.vectors := rfl
@[simp] theorem State.modFelt_pcie (s : State) (l : Nat) (f : FeltRing → FeltRing) : (s.modFelt l f).pcie = s.pcie := rfl
@[simp] theorem State.modFelt_sec (s : State) (l : Nat) (f : FeltRing → FeltRing) : (s.modFelt l f).sec = s.sec := rfl
@[simp] theorem State.modFelt_dbg (s : State) (l : Nat) (f : FeltRing → FeltRing) : (s.modFelt l f).dbg = s.dbg := rfl
@[simp] theorem State.modFelt_pwr (s : State) (l : Nat) (f : FeltRing → FeltRing) : (s.modFelt l f).pwr = s.pwr := rfl
@[simp] theorem State.modFelt_health (s : State) (l : Nat) (f : FeltRing → FeltRing) : (s.modFelt l f).health = s.health := rfl
@[simp] theorem State.modFelt_dram (s : State) (l : Nat) (f : FeltRing → FeltRing) : (s.modFelt l f).dram = s.dram := rfl
@[simp] theorem State.modFelt_ltune (s : State) (l : Nat) (f : FeltRing → FeltRing) : (s.modFelt l f).ltune = s.ltune := rfl
@[simp] theorem State.modFelt_quads (s : State) (l : Nat) (f : FeltRing → FeltRing) : (s.modFelt l f).quads = s.quads := rfl
@[simp] theorem State.modFelt_cal (s : State) (l : Nat) (f : FeltRing → FeltRing) : (s.modFelt l f).cal = s.cal := rfl
@[simp] theorem State.modFelt_ref2 (s : State) (l : Nat) (f : FeltRing → FeltRing) : (s.modFelt l f).ref2 = s.ref2 := rfl
@[simp] theorem State.modFelt_slow (s : State) (l : Nat) (f : FeltRing → FeltRing) : (s.modFelt l f).slow = s.slow := rfl
@[simp] theorem State.modFelt_tiles (s : State) (l : Nat) (f : FeltRing → FeltRing) : (s.modFelt l f).tiles = s.tiles := rfl
@[simp] theorem State.modFelt_mem (s : State) (l : Nat) (f : FeltRing → FeltRing) : (s.modFelt l f).mem = s.mem := rfl
@[simp] theorem State.modFelt_trig (s : State) (l : Nat) (f : FeltRing → FeltRing) : (s.modFelt l f).trig = s.trig := rfl
@[simp] theorem State.modFelt_therm (s : State) (l : Nat) (f : FeltRing → FeltRing) : (s.modFelt l f).therm = s.therm := rfl
@[simp] theorem State.modFelt_zones (s : State) (l : Nat) (f : FeltRing → FeltRing) : (s.modFelt l f).zones = s.zones := rfl
@[simp] theorem State.modFelt_panel (s : State) (l : Nat) (f : FeltRing → FeltRing) : (s.modFelt l f).panel = s.panel := rfl
@[simp] theorem State.modFelt_bale (s : State) (l : Nat) (f : FeltRing → FeltRing) : (s.modFelt l f).bale = s.bale := rfl
@[simp] theorem State.modFelt_memMask (s : State) (l : Nat) (f : FeltRing → FeltRing) : (s.modFelt l f).memMask = s.memMask := rfl
@[simp] theorem State.modFelt_capMibNow (s : State) (l : Nat) (f : FeltRing → FeltRing) : (s.modFelt l f).capMibNow = s.capMibNow := rfl
@[simp] theorem State.modFelt_felt (s : State) (l : Nat) (f : FeltRing → FeltRing) : (s.modFelt l f).felt = upd s.felt l f := rfl

/-! `modSlow` changes `slow` alone. -/
@[simp] theorem State.modSlow_pending (s : State) (l : Nat) (f : SlowRun → SlowRun) : (s.modSlow l f).pending = s.pending := rfl
@[simp] theorem State.modSlow_build (s : State) (l : Nat) (f : SlowRun → SlowRun) : (s.modSlow l f).build = s.build := rfl
@[simp] theorem State.modSlow_now (s : State) (l : Nat) (f : SlowRun → SlowRun) : (s.modSlow l f).now = s.now := rfl
@[simp] theorem State.modSlow_out (s : State) (l : Nat) (f : SlowRun → SlowRun) : (s.modSlow l f).out = s.out := rfl
@[simp] theorem State.modSlow_free (s : State) (l : Nat) (f : SlowRun → SlowRun) : (s.modSlow l f).free = s.free := rfl
@[simp] theorem State.modSlow_sys (s : State) (l : Nat) (f : SlowRun → SlowRun) : (s.modSlow l f).sys = s.sys := rfl
@[simp] theorem State.modSlow_cfg (s : State) (l : Nat) (f : SlowRun → SlowRun) : (s.modSlow l f).cfg = s.cfg := rfl
@[simp] theorem State.modSlow_mbs (s : State) (l : Nat) (f : SlowRun → SlowRun) : (s.modSlow l f).mbs = s.mbs := rfl
@[simp] theorem State.modSlow_pend (s : State) (l : Nat) (f : SlowRun → SlowRun) : (s.modSlow l f).pend = s.pend := rfl
@[simp] theorem State.modSlow_ev (s : State) (l : Nat) (f : SlowRun → SlowRun) : (s.modSlow l f).ev = s.ev := rfl
@[simp] theorem State.modSlow_log (s : State) (l : Nat) (f : SlowRun → SlowRun) : (s.modSlow l f).log = s.log := rfl
@[simp] theorem State.modSlow_warn (s : State) (l : Nat) (f : SlowRun → SlowRun) : (s.modSlow l f).warn = s.warn := rfl
@[simp] theorem State.modSlow_flagHist (s : State) (l : Nat) (f : SlowRun → SlowRun) : (s.modSlow l f).flagHist = s.flagHist := rfl
@[simp] theorem State.modSlow_tb (s : State) (l : Nat) (f : SlowRun → SlowRun) : (s.modSlow l f).tb = s.tb := rfl
@[simp] theorem State.modSlow_tiu (s : State) (l : Nat) (f : SlowRun → SlowRun) : (s.modSlow l f).tiu = s.tiu := rfl
@[simp] theorem State.modSlow_trail (s : State) (l : Nat) (f : SlowRun → SlowRun) : (s.modSlow l f).trail = s.trail := rfl
@[simp] theorem State.modSlow_grid (s : State) (l : Nat) (f : SlowRun → SlowRun) : (s.modSlow l f).grid = s.grid := rfl
@[simp] theorem State.modSlow_gateRun (s : State) (l : Nat) (f : SlowRun → SlowRun) : (s.modSlow l f).gateRun = s.gateRun := rfl
@[simp] theorem State.modSlow_probeRun (s : State) (l : Nat) (f : SlowRun → SlowRun) : (s.modSlow l f).probeRun = s.probeRun := rfl
@[simp] theorem State.modSlow_emit (s : State) (l : Nat) (f : SlowRun → SlowRun) : (s.modSlow l f).emit = s.emit := rfl
@[simp] theorem State.modSlow_lines (s : State) (l : Nat) (f : SlowRun → SlowRun) : (s.modSlow l f).lines = s.lines := rfl
@[simp] theorem State.modSlow_ctxs (s : State) (l : Nat) (f : SlowRun → SlowRun) : (s.modSlow l f).ctxs = s.ctxs := rfl
@[simp] theorem State.modSlow_streams (s : State) (l : Nat) (f : SlowRun → SlowRun) : (s.modSlow l f).streams = s.streams := rfl
@[simp] theorem State.modSlow_ports (s : State) (l : Nat) (f : SlowRun → SlowRun) : (s.modSlow l f).ports = s.ports := rfl
@[simp] theorem State.modSlow_vectors (s : State) (l : Nat) (f : SlowRun → SlowRun) : (s.modSlow l f).vectors = s.vectors := rfl
@[simp] theorem State.modSlow_pcie (s : State) (l : Nat) (f : SlowRun → SlowRun) : (s.modSlow l f).pcie = s.pcie := rfl
@[simp] theorem State.modSlow_sec (s : State) (l : Nat) (f : SlowRun → SlowRun) : (s.modSlow l f).sec = s.sec := rfl
@[simp] theorem State.modSlow_dbg (s : State) (l : Nat) (f : SlowRun → SlowRun) : (s.modSlow l f).dbg = s.dbg := rfl
@[simp] theorem State.modSlow_pwr (s : State) (l : Nat) (f : SlowRun → SlowRun) : (s.modSlow l f).pwr = s.pwr := rfl
@[simp] theorem State.modSlow_health (s : State) (l : Nat) (f : SlowRun → SlowRun) : (s.modSlow l f).health = s.health := rfl
@[simp] theorem State.modSlow_dram (s : State) (l : Nat) (f : SlowRun → SlowRun) : (s.modSlow l f).dram = s.dram := rfl
@[simp] theorem State.modSlow_ltune (s : State) (l : Nat) (f : SlowRun → SlowRun) : (s.modSlow l f).ltune = s.ltune := rfl
@[simp] theorem State.modSlow_quads (s : State) (l : Nat) (f : SlowRun → SlowRun) : (s.modSlow l f).quads = s.quads := rfl
@[simp] theorem State.modSlow_cal (s : State) (l : Nat) (f : SlowRun → SlowRun) : (s.modSlow l f).cal = s.cal := rfl
@[simp] theorem State.modSlow_ref2 (s : State) (l : Nat) (f : SlowRun → SlowRun) : (s.modSlow l f).ref2 = s.ref2 := rfl
@[simp] theorem State.modSlow_felt (s : State) (l : Nat) (f : SlowRun → SlowRun) : (s.modSlow l f).felt = s.felt := rfl
@[simp] theorem State.modSlow_tiles (s : State) (l : Nat) (f : SlowRun → SlowRun) : (s.modSlow l f).tiles = s.tiles := rfl
@[simp] theorem State.modSlow_mem (s : State) (l : Nat) (f : SlowRun → SlowRun) : (s.modSlow l f).mem = s.mem := rfl
@[simp] theorem State.modSlow_trig (s : State) (l : Nat) (f : SlowRun → SlowRun) : (s.modSlow l f).trig = s.trig := rfl
@[simp] theorem State.modSlow_therm (s : State) (l : Nat) (f : SlowRun → SlowRun) : (s.modSlow l f).therm = s.therm := rfl
@[simp] theorem State.modSlow_zones (s : State) (l : Nat) (f : SlowRun → SlowRun) : (s.modSlow l f).zones = s.zones := rfl
@[simp] theorem State.modSlow_panel (s : State) (l : Nat) (f : SlowRun → SlowRun) : (s.modSlow l f).panel = s.panel := rfl
@[simp] theorem State.modSlow_bale (s : State) (l : Nat) (f : SlowRun → SlowRun) : (s.modSlow l f).bale = s.bale := rfl
@[simp] theorem State.modSlow_memMask (s : State) (l : Nat) (f : SlowRun → SlowRun) : (s.modSlow l f).memMask = s.memMask := rfl
@[simp] theorem State.modSlow_capMibNow (s : State) (l : Nat) (f : SlowRun → SlowRun) : (s.modSlow l f).capMibNow = s.capMibNow := rfl
@[simp] theorem State.modSlow_slow (s : State) (l : Nat) (f : SlowRun → SlowRun) : (s.modSlow l f).slow = upd s.slow l f := rfl

/-! An update of a part of a component is an update of the component. -/
@[simp] theorem State.modChan_eq (s : State) (c : Nat) (f : ChanRun → ChanRun) : s.modChan c f =
    s.modMem (fun m => { m with chans := upd m.chans c f }) := rfl
@[simp] theorem State.modFront_eq (s : State) (f : RefFront → RefFront) : s.modFront f =
    s.modTherm (fun t => { t with front := f t.front }) := rfl
@[simp] theorem State.modChanRef_eq (s : State) (n : Nat) (f : RefChan → RefChan) : s.modChanRef n f =
    s.modFront (fun r => { r with chans := upd r.chans n f }) := rfl
@[simp] theorem State.modInput_eq (s : State) (q i : Nat) (f : InputRun → InputRun) : s.modInput q i f =
    s.modQuad q (fun r => { r with inputs := upd r.inputs i f }) := rfl
@[simp] theorem State.modSlice_eq (s : State) (k : Nat) (f : SliceRun → SliceRun) : s.modSlice k f =
    s.modTherm (fun t => { t with slices := upd t.slices k f }) := rfl
@[simp] theorem State.modLtherm_eq (s : State) (l : Nat) (f : LineTherm → LineTherm) : s.modLtherm l f =
    s.modTherm (fun t => { t with lines := upd t.lines l f }) := rfl
@[simp] theorem State.modTile_eq (s : State) (p : Nat) (f : Tile → Tile) : s.modTile p f =
    s.modPool (fun q => { q with tiles := upd q.tiles p f }) := rfl
@[simp] theorem State.modUnit_eq (s : State) (u : Nat) (f : Tiu → Tiu) : s.modUnit u f =
    s.modTiu (fun q => { q with units := upd q.units u f }) := rfl
@[simp] theorem State.modCond_eq (s : State) (c : Nat) (f : CondRun → CondRun) : s.modCond c f =
    s.modTrig (fun t => { t with conds := upd t.conds c f }) := rfl
@[simp] theorem State.modLt_eq (s : State) (l : Nat) (f : LineTrig → LineTrig) : s.modLt l f =
    s.modTrig (fun t => { t with lines := upd t.lines l f }) := rfl
@[simp] theorem State.modSet_eq (s : State) (n : Nat) (f : RawSet → RawSet) : s.modSet n f =
    s.modTrig (fun t => { t with sets := upd t.sets n f }) := rfl
@[simp] theorem State.modConvRole_eq (s : State) (q j : Nat) (v : Conv) : s.modConvRole q j v =
    s.setConvs q s.now (fun c => c.set j v) := rfl
@[simp] theorem State.modJob_eq (s : State) (id : Nat) (f : BaleJob → BaleJob) : s.modJob id f =
    s.modBale (fun b => { b with jobs := b.jobs.map (fun j => if j.id = id then f j else j) }) := rfl
@[simp] theorem State.modCal_eq (s : State) (q : Nat) (f : CalQuad → CalQuad) : s.modCal q f =
    { s with cal := { s.cal with quads := upd s.cal.quads q f } } := rfl
@[simp] theorem State.modConvMark_eq (s : State) (q j g : Nat) (f : SetMark → SetMark) : s.modConvMark q j g f =
    { s with cal := { s.cal with conv := upd s.cal.conv (convIx q j g) f } } := rfl
@[simp] theorem State.modPairMark_eq (s : State) (q p g : Nat) (f : SetMark → SetMark) : s.modPairMark q p g f =
    { s with cal := { s.cal with pair := upd s.cal.pair (pairIx q p g) f } } := rfl
@[simp] theorem State.modRec_eq (s : State) (i : Nat) (f : CapRec → CapRec) : s.modRec i f =
    s.modTrig (fun t => { t with recs := t.recs.map (fun r => if r.index = i then f r else r) }) := rfl
@[simp] theorem State.modHUnit_eq (s : State) (k i : Nat) (f : Unit_ → Unit_) : s.modHUnit k i f =
    s.modHealth (fun h =>
    if k = kindMacro then { h with macros := sset Unit_.fresh h.macros i (f (sget Unit_.fresh h.macros i)) }
    else { h with units := upd h.units k (fun l => upd l i f) }) := rfl

end Sys2Proof.Machine
end

