-- ==== Sys2Proof/Laws/Ops.lean ====
section
/-! SUPPORT. What each shared operation leaves as it was: time, events, the event log, the outputs that follow the state, pending commands,
streams, and the answer to a command. -/

namespace Sys2Proof.Machine

@[simp] theorem State.atInstant_now (s : State) (t : Nat) : (s.atInstant t).now = max s.now t := rfl
@[simp] theorem State.atInstant_out (s : State) (t : Nat) : (s.atInstant t).out = [] := rfl
@[simp] theorem ZoneRun.muted_halt (z : ZoneRun) : z.halt.muted = z.muted := rfl

/-- `State.logRecord` changes no part but `log`, `warn`, `health` (there `logDropped`). -/
@[simp] theorem State.logRecord_frame (s : State) (record : List Byte) :
    (s.logRecord record).pending = s.pending ∧ (s.logRecord record).build = s.build ∧ (s.logRecord record).now = s.now ∧
    (s.logRecord record).out = s.out ∧ (s.logRecord record).free = s.free ∧ (s.logRecord record).sys = s.sys ∧ (s.logRecord record).cfg = s.cfg ∧
    (s.logRecord record).mbs = s.mbs ∧ (s.logRecord record).pend = s.pend ∧ (s.logRecord record).ev = s.ev ∧
    (s.logRecord record).flagHist = s.flagHist ∧ (s.logRecord record).tb = s.tb ∧ (s.logRecord record).tiu = s.tiu ∧
    (s.logRecord record).trail = s.trail ∧ (s.logRecord record).grid = s.grid ∧ (s.logRecord record).gateRun = s.gateRun ∧
    (s.logRecord record).probeRun = s.probeRun ∧ (s.logRecord record).emit = s.emit ∧ (s.logRecord record).lines = s.lines ∧
    (s.logRecord record).ctxs = s.ctxs ∧ (s.logRecord record).streams = s.streams ∧ (s.logRecord record).ports = s.ports ∧
    (s.logRecord record).vectors = s.vectors ∧ (s.logRecord record).pcie = s.pcie ∧ (s.logRecord record).sec = s.sec ∧
    (s.logRecord record).dbg = s.dbg ∧ (s.logRecord record).pwr = s.pwr ∧ (s.logRecord record).dram = s.dram ∧ (s.logRecord record).ltune = s.ltune ∧
    (s.logRecord record).quads = s.quads ∧ (s.logRecord record).cal = s.cal ∧ (s.logRecord record).ref2 = s.ref2 ∧ (s.logRecord record).felt = s.felt ∧
    (s.logRecord record).slow = s.slow ∧ (s.logRecord record).tiles = s.tiles ∧ (s.logRecord record).mem = s.mem ∧ (s.logRecord record).trig = s.trig ∧
    (s.logRecord record).therm = s.therm ∧ (s.logRecord record).zones = s.zones ∧ (s.logRecord record).panel = s.panel ∧
    (s.logRecord record).bale = s.bale ∧ (s.logRecord record).memMask = s.memMask ∧ (s.logRecord record).capMibNow = s.capMibNow ∧
    (s.logRecord record).health.kept = s.health.kept := by
  unfold State.logRecord; dsimp only; (repeat' split) <;> simp [Health.kept]

/-- `State.raise` changes no part but `ev`, `log`, `warn`, `health` (there `logDropped`). -/
@[simp] theorem State.raise_frame (s : State) (code sev src : Nat) (stamp : BitVec 96) (inst : Nat) (args : List Byte) (key : Option (List Nat)) :
    (s.raise code sev src stamp inst args key).pending = s.pending ∧ (s.raise code sev src stamp inst args key).build = s.build ∧
    (s.raise code sev src stamp inst args key).now = s.now ∧ (s.raise code sev src stamp inst args key).out = s.out ∧
    (s.raise code sev src stamp inst args key).free = s.free ∧ (s.raise code sev src stamp inst args key).sys = s.sys ∧
    (s.raise code sev src stamp inst args key).cfg = s.cfg ∧ (s.raise code sev src stamp inst args key).mbs = s.mbs ∧
    (s.raise code sev src stamp inst args key).pend = s.pend ∧ (s.raise code sev src stamp inst args key).flagHist = s.flagHist ∧
    (s.raise code sev src stamp inst args key).tb = s.tb ∧ (s.raise code sev src stamp inst args key).tiu = s.tiu ∧
    (s.raise code sev src stamp inst args key).trail = s.trail ∧ (s.raise code sev src stamp inst args key).grid = s.grid ∧
    (s.raise code sev src stamp inst args key).gateRun = s.gateRun ∧ (s.raise code sev src stamp inst args key).probeRun = s.probeRun ∧
    (s.raise code sev src stamp inst args key).emit = s.emit ∧ (s.raise code sev src stamp inst args key).lines = s.lines ∧
    (s.raise code sev src stamp inst args key).ctxs = s.ctxs ∧ (s.raise code sev src stamp inst args key).streams = s.streams ∧
    (s.raise code sev src stamp inst args key).ports = s.ports ∧ (s.raise code sev src stamp inst args key).vectors = s.vectors ∧
    (s.raise code sev src stamp inst args key).pcie = s.pcie ∧ (s.raise code sev src stamp inst args key).sec = s.sec ∧
    (s.raise code sev src stamp inst args key).dbg = s.dbg ∧ (s.raise code sev src stamp inst args key).pwr = s.pwr ∧
    (s.raise code sev src stamp inst args key).dram = s.dram ∧ (s.raise code sev src stamp inst args key).ltune = s.ltune ∧
    (s.raise code sev src stamp inst args key).quads = s.quads ∧ (s.raise code sev src stamp inst args key).cal = s.cal ∧
    (s.raise code sev src stamp inst args key).ref2 = s.ref2 ∧ (s.raise code sev src stamp inst args key).felt = s.felt ∧
    (s.raise code sev src stamp inst args key).slow = s.slow ∧ (s.raise code sev src stamp inst args key).tiles = s.tiles ∧
    (s.raise code sev src stamp inst args key).mem = s.mem ∧ (s.raise code sev src stamp inst args key).trig = s.trig ∧
    (s.raise code sev src stamp inst args key).therm = s.therm ∧ (s.raise code sev src stamp inst args key).zones = s.zones ∧
    (s.raise code sev src stamp inst args key).panel = s.panel ∧ (s.raise code sev src stamp inst args key).bale = s.bale ∧
    (s.raise code sev src stamp inst args key).memMask = s.memMask ∧ (s.raise code sev src stamp inst args key).capMibNow = s.capMibNow ∧
    (s.raise code sev src stamp inst args key).health.kept = s.health.kept := by
  unfold State.raise State.enterEvent; dsimp only; split <;> simp

/-- `State.raiseNow` changes no part but `ev`, `log`, `warn`, `health` (there `logDropped`). -/
@[simp] theorem State.raiseNow_frame (s : State) (code sev src : Nat) (args : List Byte) (key : Option (List Nat)) :
    (s.raiseNow code sev src args key).pending = s.pending ∧ (s.raiseNow code sev src args key).build = s.build ∧
    (s.raiseNow code sev src args key).now = s.now ∧ (s.raiseNow code sev src args key).out = s.out ∧
    (s.raiseNow code sev src args key).free = s.free ∧ (s.raiseNow code sev src args key).sys = s.sys ∧
    (s.raiseNow code sev src args key).cfg = s.cfg ∧ (s.raiseNow code sev src args key).mbs = s.mbs ∧
    (s.raiseNow code sev src args key).pend = s.pend ∧ (s.raiseNow code sev src args key).flagHist = s.flagHist ∧
    (s.raiseNow code sev src args key).tb = s.tb ∧ (s.raiseNow code sev src args key).tiu = s.tiu ∧
    (s.raiseNow code sev src args key).trail = s.trail ∧ (s.raiseNow code sev src args key).grid = s.grid ∧
    (s.raiseNow code sev src args key).gateRun = s.gateRun ∧ (s.raiseNow code sev src args key).probeRun = s.probeRun ∧
    (s.raiseNow code sev src args key).emit = s.emit ∧ (s.raiseNow code sev src args key).lines = s.lines ∧
    (s.raiseNow code sev src args key).ctxs = s.ctxs ∧ (s.raiseNow code sev src args key).streams = s.streams ∧
    (s.raiseNow code sev src args key).ports = s.ports ∧ (s.raiseNow code sev src args key).vectors = s.vectors ∧
    (s.raiseNow code sev src args key).pcie = s.pcie ∧ (s.raiseNow code sev src args key).sec = s.sec ∧
    (s.raiseNow code sev src args key).dbg = s.dbg ∧ (s.raiseNow code sev src args key).pwr = s.pwr ∧
    (s.raiseNow code sev src args key).dram = s.dram ∧ (s.raiseNow code sev src args key).ltune = s.ltune ∧
    (s.raiseNow code sev src args key).quads = s.quads ∧ (s.raiseNow code sev src args key).cal = s.cal ∧
    (s.raiseNow code sev src args key).ref2 = s.ref2 ∧ (s.raiseNow code sev src args key).felt = s.felt ∧
    (s.raiseNow code sev src args key).slow = s.slow ∧ (s.raiseNow code sev src args key).tiles = s.tiles ∧
    (s.raiseNow code sev src args key).mem = s.mem ∧ (s.raiseNow code sev src args key).trig = s.trig ∧
    (s.raiseNow code sev src args key).therm = s.therm ∧ (s.raiseNow code sev src args key).zones = s.zones ∧
    (s.raiseNow code sev src args key).panel = s.panel ∧ (s.raiseNow code sev src args key).bale = s.bale ∧
    (s.raiseNow code sev src args key).memMask = s.memMask ∧ (s.raiseNow code sev src args key).capMibNow = s.capMibNow ∧
    (s.raiseNow code sev src args key).health.kept = s.health.kept := by
  simp [State.raiseNow]

/-- `State.raiseLine` changes no part but `ev`, `log`, `warn`, `health` (there `logDropped`). -/
@[simp] theorem State.raiseLine_frame (s : State) (code sev l x : Nat) (args : List Byte) (key : Option (List Nat)) :
    (s.raiseLine code sev l x args key).pending = s.pending ∧ (s.raiseLine code sev l x args key).build = s.build ∧
    (s.raiseLine code sev l x args key).now = s.now ∧ (s.raiseLine code sev l x args key).out = s.out ∧
    (s.raiseLine code sev l x args key).free = s.free ∧ (s.raiseLine code sev l x args key).sys = s.sys ∧
    (s.raiseLine code sev l x args key).cfg = s.cfg ∧ (s.raiseLine code sev l x args key).mbs = s.mbs ∧
    (s.raiseLine code sev l x args key).pend = s.pend ∧ (s.raiseLine code sev l x args key).flagHist = s.flagHist ∧
    (s.raiseLine code sev l x args key).tb = s.tb ∧ (s.raiseLine code sev l x args key).tiu = s.tiu ∧
    (s.raiseLine code sev l x args key).trail = s.trail ∧ (s.raiseLine code sev l x args key).grid = s.grid ∧
    (s.raiseLine code sev l x args key).gateRun = s.gateRun ∧ (s.raiseLine code sev l x args key).probeRun = s.probeRun ∧
    (s.raiseLine code sev l x args key).emit = s.emit ∧ (s.raiseLine code sev l x args key).lines = s.lines ∧
    (s.raiseLine code sev l x args key).ctxs = s.ctxs ∧ (s.raiseLine code sev l x args key).streams = s.streams ∧
    (s.raiseLine code sev l x args key).ports = s.ports ∧ (s.raiseLine code sev l x args key).vectors = s.vectors ∧
    (s.raiseLine code sev l x args key).pcie = s.pcie ∧ (s.raiseLine code sev l x args key).sec = s.sec ∧
    (s.raiseLine code sev l x args key).dbg = s.dbg ∧ (s.raiseLine code sev l x args key).pwr = s.pwr ∧
    (s.raiseLine code sev l x args key).dram = s.dram ∧ (s.raiseLine code sev l x args key).ltune = s.ltune ∧
    (s.raiseLine code sev l x args key).quads = s.quads ∧ (s.raiseLine code sev l x args key).cal = s.cal ∧
    (s.raiseLine code sev l x args key).ref2 = s.ref2 ∧ (s.raiseLine code sev l x args key).felt = s.felt ∧
    (s.raiseLine code sev l x args key).slow = s.slow ∧ (s.raiseLine code sev l x args key).tiles = s.tiles ∧
    (s.raiseLine code sev l x args key).mem = s.mem ∧ (s.raiseLine code sev l x args key).trig = s.trig ∧
    (s.raiseLine code sev l x args key).therm = s.therm ∧ (s.raiseLine code sev l x args key).zones = s.zones ∧
    (s.raiseLine code sev l x args key).panel = s.panel ∧ (s.raiseLine code sev l x args key).bale = s.bale ∧
    (s.raiseLine code sev l x args key).memMask = s.memMask ∧ (s.raiseLine code sev l x args key).capMibNow = s.capMibNow ∧
    (s.raiseLine code sev l x args key).health.kept = s.health.kept := by
  simp [State.raiseLine]

/-- `State.reportLost` changes no part but `ev`, `log`, `warn`, `health` (there `logDropped`). -/
@[simp] theorem State.reportLost_frame (s : State) :
    s.reportLost.pending = s.pending ∧ s.reportLost.build = s.build ∧ s.reportLost.now = s.now ∧ s.reportLost.out = s.out ∧
    s.reportLost.free = s.free ∧ s.reportLost.sys = s.sys ∧ s.reportLost.cfg = s.cfg ∧ s.reportLost.mbs = s.mbs ∧ s.reportLost.pend = s.pend ∧
    s.reportLost.flagHist = s.flagHist ∧ s.reportLost.tb = s.tb ∧ s.reportLost.tiu = s.tiu ∧ s.reportLost.trail = s.trail ∧
    s.reportLost.grid = s.grid ∧ s.reportLost.gateRun = s.gateRun ∧ s.reportLost.probeRun = s.probeRun ∧ s.reportLost.emit = s.emit ∧
    s.reportLost.lines = s.lines ∧ s.reportLost.ctxs = s.ctxs ∧ s.reportLost.streams = s.streams ∧ s.reportLost.ports = s.ports ∧
    s.reportLost.vectors = s.vectors ∧ s.reportLost.pcie = s.pcie ∧ s.reportLost.sec = s.sec ∧ s.reportLost.dbg = s.dbg ∧ s.reportLost.pwr = s.pwr ∧
    s.reportLost.dram = s.dram ∧ s.reportLost.ltune = s.ltune ∧ s.reportLost.quads = s.quads ∧ s.reportLost.cal = s.cal ∧ s.reportLost.ref2 = s.ref2 ∧
    s.reportLost.felt = s.felt ∧ s.reportLost.slow = s.slow ∧ s.reportLost.tiles = s.tiles ∧ s.reportLost.mem = s.mem ∧ s.reportLost.trig = s.trig ∧
    s.reportLost.therm = s.therm ∧ s.reportLost.zones = s.zones ∧ s.reportLost.panel = s.panel ∧ s.reportLost.bale = s.bale ∧
    s.reportLost.memMask = s.memMask ∧ s.reportLost.capMibNow = s.capMibNow ∧ s.reportLost.health.kept = s.health.kept := by
  unfold State.reportLost; dsimp only; split <;> simp

/-- `State.reportDropped` changes no part but `ev`, `log`, `warn`, `health` (there `logDropped`). -/
@[simp] theorem State.reportDropped_frame (s : State) :
    s.reportDropped.pending = s.pending ∧ s.reportDropped.build = s.build ∧ s.reportDropped.now = s.now ∧ s.reportDropped.out = s.out ∧
    s.reportDropped.free = s.free ∧ s.reportDropped.sys = s.sys ∧ s.reportDropped.cfg = s.cfg ∧ s.reportDropped.mbs = s.mbs ∧
    s.reportDropped.pend = s.pend ∧ s.reportDropped.flagHist = s.flagHist ∧ s.reportDropped.tb = s.tb ∧ s.reportDropped.tiu = s.tiu ∧
    s.reportDropped.trail = s.trail ∧ s.reportDropped.grid = s.grid ∧ s.reportDropped.gateRun = s.gateRun ∧ s.reportDropped.probeRun = s.probeRun ∧
    s.reportDropped.emit = s.emit ∧ s.reportDropped.lines = s.lines ∧ s.reportDropped.ctxs = s.ctxs ∧ s.reportDropped.streams = s.streams ∧
    s.reportDropped.ports = s.ports ∧ s.reportDropped.vectors = s.vectors ∧ s.reportDropped.pcie = s.pcie ∧ s.reportDropped.sec = s.sec ∧
    s.reportDropped.dbg = s.dbg ∧ s.reportDropped.pwr = s.pwr ∧ s.reportDropped.dram = s.dram ∧ s.reportDropped.ltune = s.ltune ∧
    s.reportDropped.quads = s.quads ∧ s.reportDropped.cal = s.cal ∧ s.reportDropped.ref2 = s.ref2 ∧ s.reportDropped.felt = s.felt ∧
    s.reportDropped.slow = s.slow ∧ s.reportDropped.tiles = s.tiles ∧ s.reportDropped.mem = s.mem ∧ s.reportDropped.trig = s.trig ∧
    s.reportDropped.therm = s.therm ∧ s.reportDropped.zones = s.zones ∧ s.reportDropped.panel = s.panel ∧ s.reportDropped.bale = s.bale ∧
    s.reportDropped.memMask = s.memMask ∧ s.reportDropped.capMibNow = s.capMibNow ∧ s.reportDropped.health.kept = s.health.kept := by
  unfold State.reportDropped; dsimp only; split <;> simp

/-- `State.settleFlags` changes no part but `flagHist`. -/
@[simp] theorem State.settleFlags_frame (s : State) :
    s.settleFlags.pending = s.pending ∧ s.settleFlags.build = s.build ∧ s.settleFlags.now = s.now ∧ s.settleFlags.out = s.out ∧
    s.settleFlags.free = s.free ∧ s.settleFlags.sys = s.sys ∧ s.settleFlags.cfg = s.cfg ∧ s.settleFlags.mbs = s.mbs ∧ s.settleFlags.pend = s.pend ∧
    s.settleFlags.ev = s.ev ∧ s.settleFlags.log = s.log ∧ s.settleFlags.warn = s.warn ∧ s.settleFlags.tb = s.tb ∧ s.settleFlags.tiu = s.tiu ∧
    s.settleFlags.trail = s.trail ∧ s.settleFlags.grid = s.grid ∧ s.settleFlags.gateRun = s.gateRun ∧ s.settleFlags.probeRun = s.probeRun ∧
    s.settleFlags.emit = s.emit ∧ s.settleFlags.lines = s.lines ∧ s.settleFlags.ctxs = s.ctxs ∧ s.settleFlags.streams = s.streams ∧
    s.settleFlags.ports = s.ports ∧ s.settleFlags.vectors = s.vectors ∧ s.settleFlags.pcie = s.pcie ∧ s.settleFlags.sec = s.sec ∧
    s.settleFlags.dbg = s.dbg ∧ s.settleFlags.pwr = s.pwr ∧ s.settleFlags.health = s.health ∧ s.settleFlags.dram = s.dram ∧
    s.settleFlags.ltune = s.ltune ∧ s.settleFlags.quads = s.quads ∧ s.settleFlags.cal = s.cal ∧ s.settleFlags.ref2 = s.ref2 ∧
    s.settleFlags.felt = s.felt ∧ s.settleFlags.slow = s.slow ∧ s.settleFlags.tiles = s.tiles ∧ s.settleFlags.mem = s.mem ∧
    s.settleFlags.trig = s.trig ∧ s.settleFlags.therm = s.therm ∧ s.settleFlags.zones = s.zones ∧ s.settleFlags.panel = s.panel ∧
    s.settleFlags.bale = s.bale ∧ s.settleFlags.memMask = s.memMask ∧ s.settleFlags.capMibNow = s.capMibNow := by
  unfold State.settleFlags; (repeat' split) <;> simp

/-- `State.settleEmission` changes no part but `gateRun`, `probeRun`. -/
@[simp] theorem State.settleEmission_frame (s : State) :
    s.settleEmission.pending = s.pending ∧ s.settleEmission.build = s.build ∧ s.settleEmission.now = s.now ∧ s.settleEmission.out = s.out ∧
    s.settleEmission.free = s.free ∧ s.settleEmission.sys = s.sys ∧ s.settleEmission.cfg = s.cfg ∧ s.settleEmission.mbs = s.mbs ∧
    s.settleEmission.pend = s.pend ∧ s.settleEmission.ev = s.ev ∧ s.settleEmission.log = s.log ∧ s.settleEmission.warn = s.warn ∧
    s.settleEmission.flagHist = s.flagHist ∧ s.settleEmission.tb = s.tb ∧ s.settleEmission.tiu = s.tiu ∧ s.settleEmission.trail = s.trail ∧
    s.settleEmission.grid = s.grid ∧ s.settleEmission.emit = s.emit ∧ s.settleEmission.lines = s.lines ∧ s.settleEmission.ctxs = s.ctxs ∧
    s.settleEmission.streams = s.streams ∧ s.settleEmission.ports = s.ports ∧ s.settleEmission.vectors = s.vectors ∧ s.settleEmission.pcie = s.pcie ∧
    s.settleEmission.sec = s.sec ∧ s.settleEmission.dbg = s.dbg ∧ s.settleEmission.pwr = s.pwr ∧ s.settleEmission.health = s.health ∧
    s.settleEmission.dram = s.dram ∧ s.settleEmission.ltune = s.ltune ∧ s.settleEmission.quads = s.quads ∧ s.settleEmission.cal = s.cal ∧
    s.settleEmission.ref2 = s.ref2 ∧ s.settleEmission.felt = s.felt ∧ s.settleEmission.slow = s.slow ∧ s.settleEmission.tiles = s.tiles ∧
    s.settleEmission.mem = s.mem ∧ s.settleEmission.trig = s.trig ∧ s.settleEmission.therm = s.therm ∧ s.settleEmission.zones = s.zones ∧
    s.settleEmission.panel = s.panel ∧ s.settleEmission.bale = s.bale ∧ s.settleEmission.memMask = s.memMask ∧ s.settleEmission.capMibNow = s.capMibNow := by
  simp [State.settleEmission]

/-- `State.settleZones` changes no part but `panel`, `zones`. -/
@[simp] theorem State.settleZones_frame (s : State) :
    s.settleZones.pending = s.pending ∧ s.settleZones.build = s.build ∧ s.settleZones.now = s.now ∧ s.settleZones.out = s.out ∧
    s.settleZones.free = s.free ∧ s.settleZones.sys = s.sys ∧ s.settleZones.cfg = s.cfg ∧ s.settleZones.mbs = s.mbs ∧ s.settleZones.pend = s.pend ∧
    s.settleZones.ev = s.ev ∧ s.settleZones.log = s.log ∧ s.settleZones.warn = s.warn ∧ s.settleZones.flagHist = s.flagHist ∧ s.settleZones.tb = s.tb ∧
    s.settleZones.tiu = s.tiu ∧ s.settleZones.trail = s.trail ∧ s.settleZones.grid = s.grid ∧ s.settleZones.gateRun = s.gateRun ∧
    s.settleZones.probeRun = s.probeRun ∧ s.settleZones.emit = s.emit ∧ s.settleZones.lines = s.lines ∧ s.settleZones.ctxs = s.ctxs ∧
    s.settleZones.streams = s.streams ∧ s.settleZones.ports = s.ports ∧ s.settleZones.vectors = s.vectors ∧ s.settleZones.pcie = s.pcie ∧
    s.settleZones.sec = s.sec ∧ s.settleZones.dbg = s.dbg ∧ s.settleZones.pwr = s.pwr ∧ s.settleZones.health = s.health ∧ s.settleZones.dram = s.dram ∧
    s.settleZones.ltune = s.ltune ∧ s.settleZones.quads = s.quads ∧ s.settleZones.cal = s.cal ∧ s.settleZones.ref2 = s.ref2 ∧
    s.settleZones.felt = s.felt ∧ s.settleZones.slow = s.slow ∧ s.settleZones.tiles = s.tiles ∧ s.settleZones.mem = s.mem ∧
    s.settleZones.trig = s.trig ∧ s.settleZones.therm = s.therm ∧ s.settleZones.bale = s.bale ∧ s.settleZones.memMask = s.memMask ∧
    s.settleZones.capMibNow = s.capMibNow ∧ mutedZones s.settleZones.zones = mutedZones s.zones ∧ s.settleZones.panel.kept = s.panel.kept := by
  unfold State.settleZones; (repeat' split) <;> simp [Panel.kept, mutedZones]

/-- `State.settlePins` changes no part but `panel`. -/
@[simp] theorem State.settlePins_frame (s : State) :
    s.settlePins.pending = s.pending ∧ s.settlePins.build = s.build ∧ s.settlePins.now = s.now ∧ s.settlePins.out = s.out ∧
    s.settlePins.free = s.free ∧ s.settlePins.sys = s.sys ∧ s.settlePins.cfg = s.cfg ∧ s.settlePins.mbs = s.mbs ∧ s.settlePins.pend = s.pend ∧
    s.settlePins.ev = s.ev ∧ s.settlePins.log = s.log ∧ s.settlePins.warn = s.warn ∧ s.settlePins.flagHist = s.flagHist ∧ s.settlePins.tb = s.tb ∧
    s.settlePins.tiu = s.tiu ∧ s.settlePins.trail = s.trail ∧ s.settlePins.grid = s.grid ∧ s.settlePins.gateRun = s.gateRun ∧
    s.settlePins.probeRun = s.probeRun ∧ s.settlePins.emit = s.emit ∧ s.settlePins.lines = s.lines ∧ s.settlePins.ctxs = s.ctxs ∧
    s.settlePins.streams = s.streams ∧ s.settlePins.ports = s.ports ∧ s.settlePins.vectors = s.vectors ∧ s.settlePins.pcie = s.pcie ∧
    s.settlePins.sec = s.sec ∧ s.settlePins.dbg = s.dbg ∧ s.settlePins.pwr = s.pwr ∧ s.settlePins.health = s.health ∧ s.settlePins.dram = s.dram ∧
    s.settlePins.ltune = s.ltune ∧ s.settlePins.quads = s.quads ∧ s.settlePins.cal = s.cal ∧ s.settlePins.ref2 = s.ref2 ∧ s.settlePins.felt = s.felt ∧
    s.settlePins.slow = s.slow ∧ s.settlePins.tiles = s.tiles ∧ s.settlePins.mem = s.mem ∧ s.settlePins.trig = s.trig ∧ s.settlePins.therm = s.therm ∧
    s.settlePins.zones = s.zones ∧ s.settlePins.bale = s.bale ∧ s.settlePins.memMask = s.memMask ∧ s.settlePins.capMibNow = s.capMibNow ∧
    s.settlePins.panel.kept = s.panel.kept := by
  simp [State.settlePins, Panel.kept]

/-- `State.settleAlert` changes no part but `health` (there `alertCond`, `smbAlert`). -/
@[simp] theorem State.settleAlert_frame (s : State) :
    s.settleAlert.pending = s.pending ∧ s.settleAlert.build = s.build ∧ s.settleAlert.now = s.now ∧ s.settleAlert.out = s.out ∧
    s.settleAlert.free = s.free ∧ s.settleAlert.sys = s.sys ∧ s.settleAlert.cfg = s.cfg ∧ s.settleAlert.mbs = s.mbs ∧ s.settleAlert.pend = s.pend ∧
    s.settleAlert.ev = s.ev ∧ s.settleAlert.log = s.log ∧ s.settleAlert.warn = s.warn ∧ s.settleAlert.flagHist = s.flagHist ∧ s.settleAlert.tb = s.tb ∧
    s.settleAlert.tiu = s.tiu ∧ s.settleAlert.trail = s.trail ∧ s.settleAlert.grid = s.grid ∧ s.settleAlert.gateRun = s.gateRun ∧
    s.settleAlert.probeRun = s.probeRun ∧ s.settleAlert.emit = s.emit ∧ s.settleAlert.lines = s.lines ∧ s.settleAlert.ctxs = s.ctxs ∧
    s.settleAlert.streams = s.streams ∧ s.settleAlert.ports = s.ports ∧ s.settleAlert.vectors = s.vectors ∧ s.settleAlert.pcie = s.pcie ∧
    s.settleAlert.sec = s.sec ∧ s.settleAlert.dbg = s.dbg ∧ s.settleAlert.pwr = s.pwr ∧ s.settleAlert.dram = s.dram ∧ s.settleAlert.ltune = s.ltune ∧
    s.settleAlert.quads = s.quads ∧ s.settleAlert.cal = s.cal ∧ s.settleAlert.ref2 = s.ref2 ∧ s.settleAlert.felt = s.felt ∧
    s.settleAlert.slow = s.slow ∧ s.settleAlert.tiles = s.tiles ∧ s.settleAlert.mem = s.mem ∧ s.settleAlert.trig = s.trig ∧
    s.settleAlert.therm = s.therm ∧ s.settleAlert.zones = s.zones ∧ s.settleAlert.panel = s.panel ∧ s.settleAlert.bale = s.bale ∧
    s.settleAlert.memMask = s.memMask ∧ s.settleAlert.capMibNow = s.capMibNow ∧ s.settleAlert.health.kept = s.health.kept := by
  simp [State.settleAlert, Health.kept]

/-- `State.settle` changes no part but `ev`, `log`, `warn`, `health`, `flagHist`, `gateRun`, `probeRun`, `panel`, `zones` (there `logDropped`, `alertCond`, `smbAlert`). -/
@[simp] theorem State.settle_frame (s : State) :
    s.settle.pending = s.pending ∧ s.settle.build = s.build ∧ s.settle.now = s.now ∧ s.settle.out = s.out ∧ s.settle.free = s.free ∧
    s.settle.sys = s.sys ∧ s.settle.cfg = s.cfg ∧ s.settle.mbs = s.mbs ∧ s.settle.pend = s.pend ∧ s.settle.tb = s.tb ∧ s.settle.tiu = s.tiu ∧
    s.settle.trail = s.trail ∧ s.settle.grid = s.grid ∧ s.settle.emit = s.emit ∧ s.settle.lines = s.lines ∧ s.settle.ctxs = s.ctxs ∧
    s.settle.streams = s.streams ∧ s.settle.ports = s.ports ∧ s.settle.vectors = s.vectors ∧ s.settle.pcie = s.pcie ∧ s.settle.sec = s.sec ∧
    s.settle.dbg = s.dbg ∧ s.settle.pwr = s.pwr ∧ s.settle.dram = s.dram ∧ s.settle.ltune = s.ltune ∧ s.settle.quads = s.quads ∧ s.settle.cal = s.cal ∧
    s.settle.ref2 = s.ref2 ∧ s.settle.felt = s.felt ∧ s.settle.slow = s.slow ∧ s.settle.tiles = s.tiles ∧ s.settle.mem = s.mem ∧
    s.settle.trig = s.trig ∧ s.settle.therm = s.therm ∧ s.settle.bale = s.bale ∧ s.settle.memMask = s.memMask ∧ s.settle.capMibNow = s.capMibNow ∧
    s.settle.health.kept = s.health.kept ∧ mutedZones s.settle.zones = mutedZones s.zones ∧ s.settle.panel.kept = s.panel.kept := by
  simp [State.settle]

/-- `State.atInstant` changes no part but `now`, `out`, and `flagHist`, which gains the timed end of NOT_WARM. -/
@[simp] theorem State.atInstant_frame (s : State) (t : Nat) :
    (s.atInstant t).pending = s.pending ∧ (s.atInstant t).build = s.build ∧ (s.atInstant t).free = s.free ∧ (s.atInstant t).sys = s.sys ∧
    (s.atInstant t).cfg = s.cfg ∧ (s.atInstant t).mbs = s.mbs ∧ (s.atInstant t).pend = s.pend ∧ (s.atInstant t).ev = s.ev ∧
    (s.atInstant t).log = s.log ∧ (s.atInstant t).warn = s.warn ∧ (s.atInstant t).flagHist = s.flagsUntil t ∧ (s.atInstant t).tb = s.tb ∧
    (s.atInstant t).tiu = s.tiu ∧ (s.atInstant t).trail = s.trail ∧ (s.atInstant t).grid = s.grid ∧ (s.atInstant t).gateRun = s.gateRun ∧
    (s.atInstant t).probeRun = s.probeRun ∧ (s.atInstant t).emit = s.emit ∧ (s.atInstant t).lines = s.lines ∧ (s.atInstant t).ctxs = s.ctxs ∧
    (s.atInstant t).streams = s.streams ∧ (s.atInstant t).ports = s.ports ∧ (s.atInstant t).vectors = s.vectors ∧ (s.atInstant t).pcie = s.pcie ∧
    (s.atInstant t).sec = s.sec ∧ (s.atInstant t).dbg = s.dbg ∧ (s.atInstant t).pwr = s.pwr ∧ (s.atInstant t).health = s.health ∧
    (s.atInstant t).dram = s.dram ∧ (s.atInstant t).ltune = s.ltune ∧ (s.atInstant t).quads = s.quads ∧ (s.atInstant t).cal = s.cal ∧
    (s.atInstant t).ref2 = s.ref2 ∧ (s.atInstant t).felt = s.felt ∧ (s.atInstant t).slow = s.slow ∧ (s.atInstant t).tiles = s.tiles ∧
    (s.atInstant t).mem = s.mem ∧ (s.atInstant t).trig = s.trig ∧ (s.atInstant t).therm = s.therm ∧ (s.atInstant t).zones = s.zones ∧
    (s.atInstant t).panel = s.panel ∧ (s.atInstant t).bale = s.bale ∧ (s.atInstant t).memMask = s.memMask ∧ (s.atInstant t).capMibNow = s.capMibNow := by
  simp [State.atInstant]

/-- `State.applied` changes no part but `ev`, `log`, `warn`, `health` (there `logDropped`). -/
@[simp] theorem State.applied_frame (s : State) (p : Pend) (src : Nat) (stamp : BitVec 96) (inst status : Nat) :
    (s.applied p src stamp inst status).pending = s.pending ∧ (s.applied p src stamp inst status).build = s.build ∧
    (s.applied p src stamp inst status).now = s.now ∧ (s.applied p src stamp inst status).out = s.out ∧
    (s.applied p src stamp inst status).free = s.free ∧ (s.applied p src stamp inst status).sys = s.sys ∧
    (s.applied p src stamp inst status).cfg = s.cfg ∧ (s.applied p src stamp inst status).mbs = s.mbs ∧
    (s.applied p src stamp inst status).pend = s.pend ∧ (s.applied p src stamp inst status).flagHist = s.flagHist ∧
    (s.applied p src stamp inst status).tb = s.tb ∧ (s.applied p src stamp inst status).tiu = s.tiu ∧
    (s.applied p src stamp inst status).trail = s.trail ∧ (s.applied p src stamp inst status).grid = s.grid ∧
    (s.applied p src stamp inst status).gateRun = s.gateRun ∧ (s.applied p src stamp inst status).probeRun = s.probeRun ∧
    (s.applied p src stamp inst status).emit = s.emit ∧ (s.applied p src stamp inst status).lines = s.lines ∧
    (s.applied p src stamp inst status).ctxs = s.ctxs ∧ (s.applied p src stamp inst status).streams = s.streams ∧
    (s.applied p src stamp inst status).ports = s.ports ∧ (s.applied p src stamp inst status).vectors = s.vectors ∧
    (s.applied p src stamp inst status).pcie = s.pcie ∧ (s.applied p src stamp inst status).sec = s.sec ∧
    (s.applied p src stamp inst status).dbg = s.dbg ∧ (s.applied p src stamp inst status).pwr = s.pwr ∧
    (s.applied p src stamp inst status).dram = s.dram ∧ (s.applied p src stamp inst status).ltune = s.ltune ∧
    (s.applied p src stamp inst status).quads = s.quads ∧ (s.applied p src stamp inst status).cal = s.cal ∧
    (s.applied p src stamp inst status).ref2 = s.ref2 ∧ (s.applied p src stamp inst status).felt = s.felt ∧
    (s.applied p src stamp inst status).slow = s.slow ∧ (s.applied p src stamp inst status).tiles = s.tiles ∧
    (s.applied p src stamp inst status).mem = s.mem ∧ (s.applied p src stamp inst status).trig = s.trig ∧
    (s.applied p src stamp inst status).therm = s.therm ∧ (s.applied p src stamp inst status).zones = s.zones ∧
    (s.applied p src stamp inst status).panel = s.panel ∧ (s.applied p src stamp inst status).bale = s.bale ∧
    (s.applied p src stamp inst status).memMask = s.memMask ∧ (s.applied p src stamp inst status).capMibNow = s.capMibNow ∧
    (s.applied p src stamp inst status).health.kept = s.health.kept := by
  unfold State.applied; split <;> simp

/-- `State.strike` changes no part but `pend`. -/
@[simp] theorem State.strike_frame (s : State) (op unit : Nat) :
    (s.strike op unit).pending = s.pending ∧ (s.strike op unit).build = s.build ∧ (s.strike op unit).now = s.now ∧ (s.strike op unit).out = s.out ∧
    (s.strike op unit).free = s.free ∧ (s.strike op unit).sys = s.sys ∧ (s.strike op unit).cfg = s.cfg ∧ (s.strike op unit).mbs = s.mbs ∧
    (s.strike op unit).ev = s.ev ∧ (s.strike op unit).log = s.log ∧ (s.strike op unit).warn = s.warn ∧ (s.strike op unit).flagHist = s.flagHist ∧
    (s.strike op unit).tb = s.tb ∧ (s.strike op unit).tiu = s.tiu ∧ (s.strike op unit).trail = s.trail ∧ (s.strike op unit).grid = s.grid ∧
    (s.strike op unit).gateRun = s.gateRun ∧ (s.strike op unit).probeRun = s.probeRun ∧ (s.strike op unit).emit = s.emit ∧
    (s.strike op unit).lines = s.lines ∧ (s.strike op unit).ctxs = s.ctxs ∧ (s.strike op unit).streams = s.streams ∧
    (s.strike op unit).ports = s.ports ∧ (s.strike op unit).vectors = s.vectors ∧ (s.strike op unit).pcie = s.pcie ∧ (s.strike op unit).sec = s.sec ∧
    (s.strike op unit).dbg = s.dbg ∧ (s.strike op unit).pwr = s.pwr ∧ (s.strike op unit).health = s.health ∧ (s.strike op unit).dram = s.dram ∧
    (s.strike op unit).ltune = s.ltune ∧ (s.strike op unit).quads = s.quads ∧ (s.strike op unit).cal = s.cal ∧ (s.strike op unit).ref2 = s.ref2 ∧
    (s.strike op unit).felt = s.felt ∧ (s.strike op unit).slow = s.slow ∧ (s.strike op unit).tiles = s.tiles ∧ (s.strike op unit).mem = s.mem ∧
    (s.strike op unit).trig = s.trig ∧ (s.strike op unit).therm = s.therm ∧ (s.strike op unit).zones = s.zones ∧ (s.strike op unit).panel = s.panel ∧
    (s.strike op unit).bale = s.bale ∧ (s.strike op unit).memMask = s.memMask ∧ (s.strike op unit).capMibNow = s.capMibNow := by
  simp [State.strike]

/-- `State.strikeLast` changes no part but `pend`, `ev`, `log`, `warn`, `health` (there `logDropped`). -/
@[simp] theorem State.strikeLast_frame (s : State) (p : Pend) (unit : Nat) (stamp : BitVec 96) (inst : Nat) :
    (s.strikeLast p unit stamp inst).pending = s.pending ∧ (s.strikeLast p unit stamp inst).build = s.build ∧
    (s.strikeLast p unit stamp inst).now = s.now ∧ (s.strikeLast p unit stamp inst).out = s.out ∧ (s.strikeLast p unit stamp inst).free = s.free ∧
    (s.strikeLast p unit stamp inst).sys = s.sys ∧ (s.strikeLast p unit stamp inst).cfg = s.cfg ∧ (s.strikeLast p unit stamp inst).mbs = s.mbs ∧
    (s.strikeLast p unit stamp inst).flagHist = s.flagHist ∧ (s.strikeLast p unit stamp inst).tb = s.tb ∧
    (s.strikeLast p unit stamp inst).tiu = s.tiu ∧ (s.strikeLast p unit stamp inst).trail = s.trail ∧ (s.strikeLast p unit stamp inst).grid = s.grid ∧
    (s.strikeLast p unit stamp inst).gateRun = s.gateRun ∧ (s.strikeLast p unit stamp inst).probeRun = s.probeRun ∧
    (s.strikeLast p unit stamp inst).emit = s.emit ∧ (s.strikeLast p unit stamp inst).lines = s.lines ∧
    (s.strikeLast p unit stamp inst).ctxs = s.ctxs ∧ (s.strikeLast p unit stamp inst).streams = s.streams ∧
    (s.strikeLast p unit stamp inst).ports = s.ports ∧ (s.strikeLast p unit stamp inst).vectors = s.vectors ∧
    (s.strikeLast p unit stamp inst).pcie = s.pcie ∧ (s.strikeLast p unit stamp inst).sec = s.sec ∧ (s.strikeLast p unit stamp inst).dbg = s.dbg ∧
    (s.strikeLast p unit stamp inst).pwr = s.pwr ∧ (s.strikeLast p unit stamp inst).dram = s.dram ∧ (s.strikeLast p unit stamp inst).ltune = s.ltune ∧
    (s.strikeLast p unit stamp inst).quads = s.quads ∧ (s.strikeLast p unit stamp inst).cal = s.cal ∧ (s.strikeLast p unit stamp inst).ref2 = s.ref2 ∧
    (s.strikeLast p unit stamp inst).felt = s.felt ∧ (s.strikeLast p unit stamp inst).slow = s.slow ∧
    (s.strikeLast p unit stamp inst).tiles = s.tiles ∧ (s.strikeLast p unit stamp inst).mem = s.mem ∧ (s.strikeLast p unit stamp inst).trig = s.trig ∧
    (s.strikeLast p unit stamp inst).therm = s.therm ∧ (s.strikeLast p unit stamp inst).zones = s.zones ∧
    (s.strikeLast p unit stamp inst).panel = s.panel ∧ (s.strikeLast p unit stamp inst).bale = s.bale ∧
    (s.strikeLast p unit stamp inst).memMask = s.memMask ∧ (s.strikeLast p unit stamp inst).capMibNow = s.capMibNow ∧
    (s.strikeLast p unit stamp inst).health.kept = s.health.kept := by
  unfold State.strikeLast; dsimp only; split <;> simp

/-- `State.dropOp` changes no part but `pend`. -/
@[simp] theorem State.dropOp_frame (s : State) (op : Nat) :
    (s.dropOp op).pending = s.pending ∧ (s.dropOp op).build = s.build ∧ (s.dropOp op).now = s.now ∧ (s.dropOp op).out = s.out ∧
    (s.dropOp op).free = s.free ∧ (s.dropOp op).sys = s.sys ∧ (s.dropOp op).cfg = s.cfg ∧ (s.dropOp op).mbs = s.mbs ∧ (s.dropOp op).ev = s.ev ∧
    (s.dropOp op).log = s.log ∧ (s.dropOp op).warn = s.warn ∧ (s.dropOp op).flagHist = s.flagHist ∧ (s.dropOp op).tb = s.tb ∧
    (s.dropOp op).tiu = s.tiu ∧ (s.dropOp op).trail = s.trail ∧ (s.dropOp op).grid = s.grid ∧ (s.dropOp op).gateRun = s.gateRun ∧
    (s.dropOp op).probeRun = s.probeRun ∧ (s.dropOp op).emit = s.emit ∧ (s.dropOp op).lines = s.lines ∧ (s.dropOp op).ctxs = s.ctxs ∧
    (s.dropOp op).streams = s.streams ∧ (s.dropOp op).ports = s.ports ∧ (s.dropOp op).vectors = s.vectors ∧ (s.dropOp op).pcie = s.pcie ∧
    (s.dropOp op).sec = s.sec ∧ (s.dropOp op).dbg = s.dbg ∧ (s.dropOp op).pwr = s.pwr ∧ (s.dropOp op).health = s.health ∧ (s.dropOp op).dram = s.dram ∧
    (s.dropOp op).ltune = s.ltune ∧ (s.dropOp op).quads = s.quads ∧ (s.dropOp op).cal = s.cal ∧ (s.dropOp op).ref2 = s.ref2 ∧
    (s.dropOp op).felt = s.felt ∧ (s.dropOp op).slow = s.slow ∧ (s.dropOp op).tiles = s.tiles ∧ (s.dropOp op).mem = s.mem ∧
    (s.dropOp op).trig = s.trig ∧ (s.dropOp op).therm = s.therm ∧ (s.dropOp op).zones = s.zones ∧ (s.dropOp op).panel = s.panel ∧
    (s.dropOp op).bale = s.bale ∧ (s.dropOp op).memMask = s.memMask ∧ (s.dropOp op).capMibNow = s.capMibNow := by
  simp [State.dropOp]

/-- `State.deliver` changes no part but `streams`. -/
@[simp] theorem State.deliver_frame (s : State) (sel : StreamDef → Bool) (i : Item) :
    (s.deliver sel i).pending = s.pending ∧ (s.deliver sel i).build = s.build ∧ (s.deliver sel i).now = s.now ∧ (s.deliver sel i).out = s.out ∧
    (s.deliver sel i).free = s.free ∧ (s.deliver sel i).sys = s.sys ∧ (s.deliver sel i).cfg = s.cfg ∧ (s.deliver sel i).mbs = s.mbs ∧
    (s.deliver sel i).pend = s.pend ∧ (s.deliver sel i).ev = s.ev ∧ (s.deliver sel i).log = s.log ∧ (s.deliver sel i).warn = s.warn ∧
    (s.deliver sel i).flagHist = s.flagHist ∧ (s.deliver sel i).tb = s.tb ∧ (s.deliver sel i).tiu = s.tiu ∧ (s.deliver sel i).trail = s.trail ∧
    (s.deliver sel i).grid = s.grid ∧ (s.deliver sel i).gateRun = s.gateRun ∧ (s.deliver sel i).probeRun = s.probeRun ∧
    (s.deliver sel i).emit = s.emit ∧ (s.deliver sel i).lines = s.lines ∧ (s.deliver sel i).ctxs = s.ctxs ∧ (s.deliver sel i).ports = s.ports ∧
    (s.deliver sel i).vectors = s.vectors ∧ (s.deliver sel i).pcie = s.pcie ∧ (s.deliver sel i).sec = s.sec ∧ (s.deliver sel i).dbg = s.dbg ∧
    (s.deliver sel i).pwr = s.pwr ∧ (s.deliver sel i).health = s.health ∧ (s.deliver sel i).dram = s.dram ∧ (s.deliver sel i).ltune = s.ltune ∧
    (s.deliver sel i).quads = s.quads ∧ (s.deliver sel i).cal = s.cal ∧ (s.deliver sel i).ref2 = s.ref2 ∧ (s.deliver sel i).felt = s.felt ∧
    (s.deliver sel i).slow = s.slow ∧ (s.deliver sel i).tiles = s.tiles ∧ (s.deliver sel i).mem = s.mem ∧ (s.deliver sel i).trig = s.trig ∧
    (s.deliver sel i).therm = s.therm ∧ (s.deliver sel i).zones = s.zones ∧ (s.deliver sel i).panel = s.panel ∧ (s.deliver sel i).bale = s.bale ∧
    (s.deliver sel i).memMask = s.memMask ∧ (s.deliver sel i).capMibNow = s.capMibNow := by
  simp [State.deliver]

/-- `State.abortItems` changes no part but `streams`. -/
@[simp] theorem State.abortItems_frame (s : State) (sel : StreamDef → Bool) (cause count line : Nat) (first last : BitVec 96) :
    (s.abortItems sel cause count line first last).pending = s.pending ∧ (s.abortItems sel cause count line first last).build = s.build ∧
    (s.abortItems sel cause count line first last).now = s.now ∧ (s.abortItems sel cause count line first last).out = s.out ∧
    (s.abortItems sel cause count line first last).free = s.free ∧ (s.abortItems sel cause count line first last).sys = s.sys ∧
    (s.abortItems sel cause count line first last).cfg = s.cfg ∧ (s.abortItems sel cause count line first last).mbs = s.mbs ∧
    (s.abortItems sel cause count line first last).pend = s.pend ∧ (s.abortItems sel cause count line first last).ev = s.ev ∧
    (s.abortItems sel cause count line first last).log = s.log ∧ (s.abortItems sel cause count line first last).warn = s.warn ∧
    (s.abortItems sel cause count line first last).flagHist = s.flagHist ∧ (s.abortItems sel cause count line first last).tb = s.tb ∧
    (s.abortItems sel cause count line first last).tiu = s.tiu ∧ (s.abortItems sel cause count line first last).trail = s.trail ∧
    (s.abortItems sel cause count line first last).grid = s.grid ∧ (s.abortItems sel cause count line first last).gateRun = s.gateRun ∧
    (s.abortItems sel cause count line first last).probeRun = s.probeRun ∧ (s.abortItems sel cause count line first last).emit = s.emit ∧
    (s.abortItems sel cause count line first last).lines = s.lines ∧ (s.abortItems sel cause count line first last).ctxs = s.ctxs ∧
    (s.abortItems sel cause count line first last).ports = s.ports ∧ (s.abortItems sel cause count line first last).vectors = s.vectors ∧
    (s.abortItems sel cause count line first last).pcie = s.pcie ∧ (s.abortItems sel cause count line first last).sec = s.sec ∧
    (s.abortItems sel cause count line first last).dbg = s.dbg ∧ (s.abortItems sel cause count line first last).pwr = s.pwr ∧
    (s.abortItems sel cause count line first last).health = s.health ∧ (s.abortItems sel cause count line first last).dram = s.dram ∧
    (s.abortItems sel cause count line first last).ltune = s.ltune ∧ (s.abortItems sel cause count line first last).quads = s.quads ∧
    (s.abortItems sel cause count line first last).cal = s.cal ∧ (s.abortItems sel cause count line first last).ref2 = s.ref2 ∧
    (s.abortItems sel cause count line first last).felt = s.felt ∧ (s.abortItems sel cause count line first last).slow = s.slow ∧
    (s.abortItems sel cause count line first last).tiles = s.tiles ∧ (s.abortItems sel cause count line first last).mem = s.mem ∧
    (s.abortItems sel cause count line first last).trig = s.trig ∧ (s.abortItems sel cause count line first last).therm = s.therm ∧
    (s.abortItems sel cause count line first last).zones = s.zones ∧ (s.abortItems sel cause count line first last).panel = s.panel ∧
    (s.abortItems sel cause count line first last).bale = s.bale ∧ (s.abortItems sel cause count line first last).memMask = s.memMask ∧
    (s.abortItems sel cause count line first last).capMibNow = s.capMibNow := by
  unfold State.abortItems; split <;> simp

/-- `State.cause` changes no part but `vectors`. -/
@[simp] theorem State.cause_frame (s : State) (v : Nat) :
    (s.cause v).pending = s.pending ∧ (s.cause v).build = s.build ∧ (s.cause v).now = s.now ∧ (s.cause v).out = s.out ∧ (s.cause v).free = s.free ∧
    (s.cause v).sys = s.sys ∧ (s.cause v).cfg = s.cfg ∧ (s.cause v).mbs = s.mbs ∧ (s.cause v).pend = s.pend ∧ (s.cause v).ev = s.ev ∧
    (s.cause v).log = s.log ∧ (s.cause v).warn = s.warn ∧ (s.cause v).flagHist = s.flagHist ∧ (s.cause v).tb = s.tb ∧ (s.cause v).tiu = s.tiu ∧
    (s.cause v).trail = s.trail ∧ (s.cause v).grid = s.grid ∧ (s.cause v).gateRun = s.gateRun ∧ (s.cause v).probeRun = s.probeRun ∧
    (s.cause v).emit = s.emit ∧ (s.cause v).lines = s.lines ∧ (s.cause v).ctxs = s.ctxs ∧ (s.cause v).streams = s.streams ∧
    (s.cause v).ports = s.ports ∧ (s.cause v).pcie = s.pcie ∧ (s.cause v).sec = s.sec ∧ (s.cause v).dbg = s.dbg ∧ (s.cause v).pwr = s.pwr ∧
    (s.cause v).health = s.health ∧ (s.cause v).dram = s.dram ∧ (s.cause v).ltune = s.ltune ∧ (s.cause v).quads = s.quads ∧ (s.cause v).cal = s.cal ∧
    (s.cause v).ref2 = s.ref2 ∧ (s.cause v).felt = s.felt ∧ (s.cause v).slow = s.slow ∧ (s.cause v).tiles = s.tiles ∧ (s.cause v).mem = s.mem ∧
    (s.cause v).trig = s.trig ∧ (s.cause v).therm = s.therm ∧ (s.cause v).zones = s.zones ∧ (s.cause v).panel = s.panel ∧ (s.cause v).bale = s.bale ∧
    (s.cause v).memMask = s.memMask ∧ (s.cause v).capMibNow = s.capMibNow := by
  simp [State.cause]

/-- `State.sendFrame` changes no part but `sec`, `ports`, `out`. -/
@[simp] theorem State.sendFrame_frame (s : State) (port sess : Nat) (data : List Byte) :
    (s.sendFrame port sess data).pending = s.pending ∧ (s.sendFrame port sess data).build = s.build ∧ (s.sendFrame port sess data).now = s.now ∧
    (s.sendFrame port sess data).free = s.free ∧ (s.sendFrame port sess data).sys = s.sys ∧ (s.sendFrame port sess data).cfg = s.cfg ∧
    (s.sendFrame port sess data).mbs = s.mbs ∧ (s.sendFrame port sess data).pend = s.pend ∧ (s.sendFrame port sess data).ev = s.ev ∧
    (s.sendFrame port sess data).log = s.log ∧ (s.sendFrame port sess data).warn = s.warn ∧ (s.sendFrame port sess data).flagHist = s.flagHist ∧
    (s.sendFrame port sess data).tb = s.tb ∧ (s.sendFrame port sess data).tiu = s.tiu ∧ (s.sendFrame port sess data).trail = s.trail ∧
    (s.sendFrame port sess data).grid = s.grid ∧ (s.sendFrame port sess data).gateRun = s.gateRun ∧
    (s.sendFrame port sess data).probeRun = s.probeRun ∧ (s.sendFrame port sess data).emit = s.emit ∧ (s.sendFrame port sess data).lines = s.lines ∧
    (s.sendFrame port sess data).ctxs = s.ctxs ∧ (s.sendFrame port sess data).streams = s.streams ∧ (s.sendFrame port sess data).vectors = s.vectors ∧
    (s.sendFrame port sess data).pcie = s.pcie ∧ (s.sendFrame port sess data).dbg = s.dbg ∧ (s.sendFrame port sess data).pwr = s.pwr ∧
    (s.sendFrame port sess data).health = s.health ∧ (s.sendFrame port sess data).dram = s.dram ∧ (s.sendFrame port sess data).ltune = s.ltune ∧
    (s.sendFrame port sess data).quads = s.quads ∧ (s.sendFrame port sess data).cal = s.cal ∧ (s.sendFrame port sess data).ref2 = s.ref2 ∧
    (s.sendFrame port sess data).felt = s.felt ∧ (s.sendFrame port sess data).slow = s.slow ∧ (s.sendFrame port sess data).tiles = s.tiles ∧
    (s.sendFrame port sess data).mem = s.mem ∧ (s.sendFrame port sess data).trig = s.trig ∧ (s.sendFrame port sess data).therm = s.therm ∧
    (s.sendFrame port sess data).zones = s.zones ∧ (s.sendFrame port sess data).panel = s.panel ∧ (s.sendFrame port sess data).bale = s.bale ∧
    (s.sendFrame port sess data).memMask = s.memMask ∧ (s.sendFrame port sess data).capMibNow = s.capMibNow := by
  simp [State.sendFrame]

/-- `State.respond` changes no part but `sec`, `ports`, `out`, `mbs`, `vectors`. -/
@[simp] theorem State.respond_frame (s : State) (c : Cmd) (bytes : List Byte) :
    (s.respond c bytes).pending = s.pending ∧ (s.respond c bytes).build = s.build ∧ (s.respond c bytes).now = s.now ∧
    (s.respond c bytes).free = s.free ∧ (s.respond c bytes).sys = s.sys ∧ (s.respond c bytes).cfg = s.cfg ∧ (s.respond c bytes).pend = s.pend ∧
    (s.respond c bytes).ev = s.ev ∧ (s.respond c bytes).log = s.log ∧ (s.respond c bytes).warn = s.warn ∧ (s.respond c bytes).flagHist = s.flagHist ∧
    (s.respond c bytes).tb = s.tb ∧ (s.respond c bytes).tiu = s.tiu ∧ (s.respond c bytes).trail = s.trail ∧ (s.respond c bytes).grid = s.grid ∧
    (s.respond c bytes).gateRun = s.gateRun ∧ (s.respond c bytes).probeRun = s.probeRun ∧ (s.respond c bytes).emit = s.emit ∧
    (s.respond c bytes).lines = s.lines ∧ (s.respond c bytes).ctxs = s.ctxs ∧ (s.respond c bytes).streams = s.streams ∧
    (s.respond c bytes).pcie = s.pcie ∧ (s.respond c bytes).dbg = s.dbg ∧ (s.respond c bytes).pwr = s.pwr ∧ (s.respond c bytes).health = s.health ∧
    (s.respond c bytes).dram = s.dram ∧ (s.respond c bytes).ltune = s.ltune ∧ (s.respond c bytes).quads = s.quads ∧ (s.respond c bytes).cal = s.cal ∧
    (s.respond c bytes).ref2 = s.ref2 ∧ (s.respond c bytes).felt = s.felt ∧ (s.respond c bytes).slow = s.slow ∧ (s.respond c bytes).tiles = s.tiles ∧
    (s.respond c bytes).mem = s.mem ∧ (s.respond c bytes).trig = s.trig ∧ (s.respond c bytes).therm = s.therm ∧ (s.respond c bytes).zones = s.zones ∧
    (s.respond c bytes).panel = s.panel ∧ (s.respond c bytes).bale = s.bale ∧ (s.respond c bytes).memMask = s.memMask ∧
    (s.respond c bytes).capMibNow = s.capMibNow := by
  unfold State.respond; dsimp only; (repeat' split) <;> simp

/-- `State.answer` changes no part but `sec`, `ports`, `out`, `mbs`, `vectors`. -/
@[simp] theorem State.answer_frame (s : State) (c : Cmd) (r : Resp) (eff : BitVec 96) :
    (s.answer c r eff).pending = s.pending ∧ (s.answer c r eff).build = s.build ∧ (s.answer c r eff).now = s.now ∧ (s.answer c r eff).free = s.free ∧
    (s.answer c r eff).sys = s.sys ∧ (s.answer c r eff).cfg = s.cfg ∧ (s.answer c r eff).pend = s.pend ∧ (s.answer c r eff).ev = s.ev ∧
    (s.answer c r eff).log = s.log ∧ (s.answer c r eff).warn = s.warn ∧ (s.answer c r eff).flagHist = s.flagHist ∧ (s.answer c r eff).tb = s.tb ∧
    (s.answer c r eff).tiu = s.tiu ∧ (s.answer c r eff).trail = s.trail ∧ (s.answer c r eff).grid = s.grid ∧ (s.answer c r eff).gateRun = s.gateRun ∧
    (s.answer c r eff).probeRun = s.probeRun ∧ (s.answer c r eff).emit = s.emit ∧ (s.answer c r eff).lines = s.lines ∧
    (s.answer c r eff).ctxs = s.ctxs ∧ (s.answer c r eff).streams = s.streams ∧ (s.answer c r eff).pcie = s.pcie ∧ (s.answer c r eff).dbg = s.dbg ∧
    (s.answer c r eff).pwr = s.pwr ∧ (s.answer c r eff).health = s.health ∧ (s.answer c r eff).dram = s.dram ∧ (s.answer c r eff).ltune = s.ltune ∧
    (s.answer c r eff).quads = s.quads ∧ (s.answer c r eff).cal = s.cal ∧ (s.answer c r eff).ref2 = s.ref2 ∧ (s.answer c r eff).felt = s.felt ∧
    (s.answer c r eff).slow = s.slow ∧ (s.answer c r eff).tiles = s.tiles ∧ (s.answer c r eff).mem = s.mem ∧ (s.answer c r eff).trig = s.trig ∧
    (s.answer c r eff).therm = s.therm ∧ (s.answer c r eff).zones = s.zones ∧ (s.answer c r eff).panel = s.panel ∧ (s.answer c r eff).bale = s.bale ∧
    (s.answer c r eff).memMask = s.memMask ∧ (s.answer c r eff).capMibNow = s.capMibNow := by
  simp [State.answer]

/-- `State.presentNonce` changes no part but `sec`. -/
@[simp] theorem State.presentNonce_frame (s : State) (op : Nat) (c : Cmd) :
    (s.presentNonce op c).pending = s.pending ∧ (s.presentNonce op c).build = s.build ∧ (s.presentNonce op c).now = s.now ∧
    (s.presentNonce op c).out = s.out ∧ (s.presentNonce op c).free = s.free ∧ (s.presentNonce op c).sys = s.sys ∧ (s.presentNonce op c).cfg = s.cfg ∧
    (s.presentNonce op c).mbs = s.mbs ∧ (s.presentNonce op c).pend = s.pend ∧ (s.presentNonce op c).ev = s.ev ∧ (s.presentNonce op c).log = s.log ∧
    (s.presentNonce op c).warn = s.warn ∧ (s.presentNonce op c).flagHist = s.flagHist ∧ (s.presentNonce op c).tb = s.tb ∧
    (s.presentNonce op c).tiu = s.tiu ∧ (s.presentNonce op c).trail = s.trail ∧ (s.presentNonce op c).grid = s.grid ∧
    (s.presentNonce op c).gateRun = s.gateRun ∧ (s.presentNonce op c).probeRun = s.probeRun ∧ (s.presentNonce op c).emit = s.emit ∧
    (s.presentNonce op c).lines = s.lines ∧ (s.presentNonce op c).ctxs = s.ctxs ∧ (s.presentNonce op c).streams = s.streams ∧
    (s.presentNonce op c).ports = s.ports ∧ (s.presentNonce op c).vectors = s.vectors ∧ (s.presentNonce op c).pcie = s.pcie ∧
    (s.presentNonce op c).dbg = s.dbg ∧ (s.presentNonce op c).pwr = s.pwr ∧ (s.presentNonce op c).health = s.health ∧
    (s.presentNonce op c).dram = s.dram ∧ (s.presentNonce op c).ltune = s.ltune ∧ (s.presentNonce op c).quads = s.quads ∧
    (s.presentNonce op c).cal = s.cal ∧ (s.presentNonce op c).ref2 = s.ref2 ∧ (s.presentNonce op c).felt = s.felt ∧
    (s.presentNonce op c).slow = s.slow ∧ (s.presentNonce op c).tiles = s.tiles ∧ (s.presentNonce op c).mem = s.mem ∧
    (s.presentNonce op c).trig = s.trig ∧ (s.presentNonce op c).therm = s.therm ∧ (s.presentNonce op c).zones = s.zones ∧
    (s.presentNonce op c).panel = s.panel ∧ (s.presentNonce op c).bale = s.bale ∧ (s.presentNonce op c).memMask = s.memMask ∧
    (s.presentNonce op c).capMibNow = s.capMibNow := by
  unfold State.presentNonce; split <;> simp

end Sys2Proof.Machine
end

