-- ==== Sys2Proof/Laws/Command.lean ====
section
/-! SUPPORT. What a host command does once: a command its mailbox takes and the checks pass is judged by its handler and answered. -/

namespace Sys2Proof.Machine

/-- A command placed in its mailbox's command area. -/
def State.placed (s : State) (op : Nat) (c : Cmd) : State :=
  s.modMb c.mb (fun m => { m with cmdArea := ssetL 0#8 m.cmdArea 0 (cmdBytes op c) })

/-- The checks do not read the mailboxes. -/
theorem precheck_modMb (op : Nat) (c : Cmd) (s : State) (n : Nat) (f : Mailbox → Mailbox) : precheck op c (s.modMb n f) = precheck op c s := rfl

/-- An entry of a list under an update at an index within it. -/
theorem nth_upd {α : Type} (l : List α) (n : Nat) (f : α → α) (d : α) (h : n < l.length) : nth (upd l n f) n d = f (nth l n d) := by
  simp [nth, upd, h]

/-- A command that is admitted is judged by its handler, consumes the nonce it presents, and is answered (R456, R457). -/
theorem State.hostCommand_admits (s : State) (op : Nat) (h : Handler) (c : Cmd) (ha : s.admits op c = true) :
    s.hostCommand op h c =
      ((h c (s.placed op c)).2.presentNonce op c).answer c (h c (s.placed op c)).1 (effective (h c (s.placed op c)).1 (s.placed op c)) := by
  simp only [State.admits, State.takes, Bool.and_eq_true, Option.isNone_iff_eq_none, decide_eq_true_eq, Bool.not_eq_true', bne_iff_ne, ne_eq] at ha
  obtain ⟨⟨⟨⟨⟨⟨⟨⟨he, hmb⟩, hheld⟩, h1⟩, h3⟩, hcpc⟩, hseq⟩, hpre⟩, hroom⟩ := ha
  have hnew : (s.placed op c).serve op h c =
      (judge op h c (s.placed op c)).2.answer c (judge op h c (s.placed op c)).1
        (effective (judge op h c (s.placed op c)).1 (s.placed op c)) := by
    have hm : (s.placed op c).mbOf c.mb = { s.mbOf c.mb with cmdArea := ssetL 0#8 (s.mbOf c.mb).cmdArea 0 (cmdBytes op c) } := by
      simp only [State.mbOf, State.placed, State.modMb_mbs]
      exact nth_upd _ _ _ _ (by omega)
    unfold State.serve
    simp only [hm]
    cases hl : (s.mbOf c.mb).lastSeq with
    | none => simp
    | some q =>
      rw [hl] at hseq
      simp only [Bool.and_eq_true, bne_iff_ne, ne_eq, decide_eq_true_eq] at hseq
      simp only
      rw [if_neg (by omega), if_neg (by omega)]
  have hj : judge op h c (s.placed op c) = ((h c (s.placed op c)).1, (h c (s.placed op c)).2.presentNonce op c) := by
    have hp : precheck op c (s.placed op c) = none := hpre
    have hr : (s.placed op c).hostPending.length < maxPending := hroom
    unfold judge
    rw [hp]
    simp [Nat.not_le.mpr hr]
  rw [hj] at hnew
  unfold State.hostCommand
  simp only [he, hheld, h1, h3, hcpc, Bool.false_or, decide_false, Bool.false_eq_true, if_false]
  exact hnew

/-- A placed command is a change of its mailbox. -/
@[simp] theorem State.placed_eq (s : State) (op : Nat) (c : Cmd) :
    s.placed op c = s.modMb c.mb (fun m => { m with cmdArea := ssetL 0#8 m.cmdArea 0 (cmdBytes op c) }) := rfl

/-- The answer stands in the mailbox. -/
theorem State.answer_answered (s : State) (c : Cmd) (r : Resp) (eff : BitVec 96) (hm : c.mb < s.mbs.length) (he : c.eth = none) :
    (s.answer c r eff).answered c r.status r.body := by
  have key : ∀ (u : State) (b : List Byte), c.mb < u.mbs.length → (u.mbOf c.mb).stored = b →
      ((u.respond c b).mbOf c.mb).stored = b ∧ ((u.respond c b).mbOf c.mb).lastSeq = (u.mbOf c.mb).lastSeq ∧
        ((u.respond c b).mbOf c.mb).st = 2 ∧ ((u.respond c b).mbOf c.mb).done = true := by
    intro u b hu hs
    unfold State.respond
    simp only [he]
    have hm : ∀ (f : Mailbox → Mailbox), (u.modMb c.mb f).mbOf c.mb = f (u.mbOf c.mb) := fun f => by
      simp only [State.mbOf, State.modMb_mbs]; exact nth_upd _ _ _ _ hu
    have hcong : ∀ (a b : State), a.mbs = b.mbs → a.mbOf c.mb = b.mbOf c.mb := fun a b h => by simp [State.mbOf, h]
    split <;> split <;> simp [State.mbOf, nth_upd, hu] at * <;> simp_all
  have hm : (s.modMb c.mb (fun m => { m with lastSeq := some (c.seq % 65536), stored := respBytes c.seq r eff })).mbOf c.mb =
      { s.mbOf c.mb with lastSeq := some (c.seq % 65536), stored := respBytes c.seq r eff } := by
    simp only [State.mbOf, State.modMb_mbs]; exact nth_upd _ _ _ _ hm
  have := key (s.modMb c.mb (fun m => { m with lastSeq := some (c.seq % 65536), stored := respBytes c.seq r eff }))
    (respBytes c.seq r eff) (by simpa [upd] using ‹c.mb < s.mbs.length›) (by rw [hm])
  rw [hm] at this
  exact ⟨⟨eff, this.1⟩, this.2.1, this.2.2.1, this.2.2.2⟩

/-- What a mailbox holds is in its own component. -/
theorem State.answered_congr (u v : State) (c : Cmd) (st : Nat) (body : List Byte) (h : u.mbs = v.mbs) : u.answered c st body ↔ v.answered c st body := by
  simp [State.answered, State.mbOf, h]

/-- An admitted host command completes: it is answered as its handler answers, and what it leaves is the handler's state, but for the mailbox,
the nonce it presented, and what follows the state. -/
theorem completes_of_handler (i : Instr) (t op : Nat) (h : Handler) (c : Cmd) (s s2 : State) (r : Resp) (post : State → Prop)
    (hx : exec i s = finish t s (fun s => s.hostCommand op h c)) (ha : (s.atInstant t).admits op c = true)
    (hh : h c ((s.atInstant t).placed op c) = (r, s2)) (hm : s2.mbs.length = ((s.atInstant t).placed op c).mbs.length)
    (hp : ∀ eff, post (((s2.presentNonce op c).answer c r eff).settle)) :
    Completes i s (fun u => u.answered c r.status r.body ∧ post u) := by
  have ha' := ha
  simp only [State.admits, State.takes, Bool.and_eq_true, Option.isNone_iff_eq_none, decide_eq_true_eq] at ha'
  refine ⟨_, by rw [hx]; rfl, ?_⟩
  simp only [State.hostCommand_admits _ _ _ _ ha, hh]
  refine ⟨?_, hp _⟩
  rw [State.answered_congr _ ((s2.presentNonce op c).answer c r (effective r ((s.atInstant t).placed op c))) _ _ _ (by simp)]
  refine State.answer_answered _ _ _ _ ?_ ha'.1.1.1.1.1.1.1.1
  simp only [State.presentNonce_frame, hm, State.placed, State.modMb_mbs, upd, List.length_modify]
  exact ha'.1.1.1.1.1.1.1.2

/-- A command that its handler lets wait is answered ST_PENDING and joins those that wait (R460). -/
theorem completes_pending (i : Instr) (t op : Nat) (h : Handler) (c : Cmd) (s : State) (units : List Nat) (due : Option Nat)
    (hx : exec i s = finish t s (fun s => s.hostCommand op h c)) (ha : (s.atInstant t).admits op c = true)
    (hh : h c ((s.atInstant t).placed op c) = pendWith ((s.atInstant t).placed op c) c op units due) :
    Completes i s (fun u => u.answered c stPending [] ∧ u.awaits (s.atInstant t) c op units due) :=
  completes_of_handler i t op h c s _ ⟨stPending, none, []⟩ (fun u => u.awaits (s.atInstant t) c op units due) hx ha hh rfl
    (fun eff => by simp only [State.awaits, State.settle_frame, State.answer_frame, State.presentNonce_frame]; rfl)

/-- A command that its handler carries out at once is answered ST_OK with the handler's payload. -/
theorem completes_okWith (i : Instr) (t op : Nat) (h : Handler) (c : Cmd) (s s2 : State) (body : List Byte) (post : State → Prop)
    (hx : exec i s = finish t s (fun s => s.hostCommand op h c)) (ha : (s.atInstant t).admits op c = true)
    (hh : h c ((s.atInstant t).placed op c) = okWith s2 body) (hm : s2.mbs = ((s.atInstant t).placed op c).mbs)
    (hp : ∀ eff, post (((s2.presentNonce op c).answer c ⟨stOk, none, body⟩ eff).settle)) :
    Completes i s (fun u => u.answered c stOk body ∧ post u) :=
  completes_of_handler i t op h c s s2 ⟨stOk, none, body⟩ post hx ha hh (by rw [hm]) hp

end Sys2Proof.Machine
end

