-- ==== Sys2Proof/Laws/Events.lean ====
section
/-! SUPPORT. The event queue: a record entered stays, whatever is raised after it and whatever follows the state. -/

namespace Sys2Proof.Machine

/-- The queue holds a record of which `P` holds; `P` reads code, source and arguments only. -/
def Holds (P : Nat → Nat → List Byte → Prop) (l : List EvRec) : Prop := ∃ r ∈ l, P r.code r.src r.args

theorem mem_insertRec (r a : EvRec) (l : List EvRec) : a ∈ insertRec r l ↔ a = r ∨ a ∈ l := by
  induction l with
  | nil => simp [insertRec]
  | cons b l ih =>
    unfold insertRec
    split
    · simp [ih]; tauto
    · simp

theorem holds_insertRec (P : Nat → Nat → List Byte → Prop) (r : EvRec) (l : List EvRec) (h : Holds P l) : Holds P (insertRec r l) := by
  obtain ⟨a, ha, hp⟩ := h
  exact ⟨a, (mem_insertRec r a l).mpr (Or.inr ha), hp⟩

theorem holds_joinRec (P : Nat → Nat → List Byte → Prop) (r : EvRec) (l m : List EvRec) (hj : joinRec r l = some m) (h : Holds P l) : Holds P m := by
  induction l generalizing m with
  | nil => simp [joinRec] at hj
  | cons b l ih =>
    obtain ⟨a, ha, hp⟩ := h
    unfold joinRec at hj
    split at hj
    · obtain rfl := Option.some.inj hj
      rcases List.mem_cons.mp ha with rfl | ha
      · exact ⟨_, List.mem_cons_self .., hp⟩
      · exact ⟨a, List.mem_cons_of_mem _ ha, hp⟩
    · rw [Option.map_eq_some_iff] at hj
      obtain ⟨m', hm', rfl⟩ := hj
      rcases List.mem_cons.mp ha with rfl | ha
      · exact ⟨_, List.mem_cons_self .., hp⟩
      · obtain ⟨a', ha', hp'⟩ := ih m' hm' ⟨a, ha, hp⟩
        exact ⟨a', List.mem_cons_of_mem _ ha', hp'⟩

/-- Entering a record loses none that is held. -/
theorem holds_enter (P : Nat → Nat → List Byte → Prop) (q : EvQueue) (p2 : Bool) (now : Nat) (r : EvRec) (h : Holds P q.held) :
    Holds P (q.enter p2 now r).1.held := by
  unfold EvQueue.enter
  split
  · exact holds_joinRec P r _ _ ‹_› h
  · split
    · split
      · exact h
      · split <;> exact h
    · split
      · exact h
      · split
        · split
          · exact holds_insertRec P _ _ h
          · exact holds_insertRec P _ _ h
        · exact holds_insertRec P _ _ h

theorem joinRec_none (r : EvRec) (l : List EvRec) (h : r.key = none) : joinRec r l = none := by
  induction l with
  | nil => rfl
  | cons a l ih => simp [joinRec, joins, h, ih]

/-- A record that joins finds one of its own code and source. -/
theorem holds_of_joinRec (r : EvRec) (l m : List EvRec) (hj : joinRec r l = some m) : Holds (fun c s _ => c = r.code ∧ s = r.src) m := by
  induction l generalizing m with
  | nil => simp [joinRec] at hj
  | cons b l ih =>
    unfold joinRec at hj
    split at hj
    · obtain rfl := Option.some.inj hj
      refine ⟨_, List.mem_cons_self .., ?_⟩
      have hb : joins r b = true := ‹_›
      unfold joins at hb
      split at hb
      · simp at hb; exact ⟨hb.1.1, hb.1.2⟩
      · exact absurd hb (by simp)
    · rw [Option.map_eq_some_iff] at hj
      obtain ⟨m', hm', rfl⟩ := hj
      obtain ⟨a', ha', hp'⟩ := ih m' hm'
      exact ⟨a', List.mem_cons_of_mem _ ha', hp'⟩

/-- Outside P2 and with room, a record that joins none is held. -/
theorem holds_enter_new (P : Nat → Nat → List Byte → Prop) (q : EvQueue) (now : Nat) (r : EvRec) (hk : r.key = none)
    (hroom : q.held.length < queueSpace) (hp : P r.code r.src r.args) : Holds P (q.enter false now r).1.held := by
  unfold EvQueue.enter
  rw [joinRec_none r _ hk]
  simp only [Bool.false_eq_true, if_false, Nat.not_le.mpr hroom]
  split
  · split
    · exact ⟨_, (mem_insertRec _ _ _).mpr (Or.inl rfl), hp⟩
    · exact ⟨_, (mem_insertRec _ _ _).mpr (Or.inl rfl), hp⟩
  · exact ⟨_, (mem_insertRec _ _ _).mpr (Or.inl rfl), hp⟩

/-- Outside P2 and with room, a record of an event's code and source is held, the event's own or one it joined. -/
theorem holds_enter_heard (q : EvQueue) (now : Nat) (r : EvRec) (hroom : q.held.length < queueSpace) :
    Holds (fun c s _ => c = r.code ∧ s = r.src) (q.enter false now r).1.held := by
  unfold EvQueue.enter
  split
  · exact holds_of_joinRec r _ _ ‹_›
  · simp only [Bool.false_eq_true, if_false, Nat.not_le.mpr hroom]
    split
    · split
      · exact ⟨_, (mem_insertRec _ _ _).mpr (Or.inl rfl), rfl, rfl⟩
      · exact ⟨_, (mem_insertRec _ _ _).mpr (Or.inl rfl), rfl, rfl⟩
    · exact ⟨_, (mem_insertRec _ _ _).mpr (Or.inl rfl), rfl, rfl⟩

theorem length_insertRec (r : EvRec) (l : List EvRec) : (insertRec r l).length = l.length + 1 := by
  induction l with
  | nil => rfl
  | cons a l ih => unfold insertRec; split <;> simp [ih]

theorem length_joinRec (r : EvRec) (l m : List EvRec) (h : joinRec r l = some m) : m.length = l.length := by
  induction l generalizing m with
  | nil => simp [joinRec] at h
  | cons a l ih =>
    unfold joinRec at h
    split at h
    · obtain rfl := Option.some.inj h; simp
    · rw [Option.map_eq_some_iff] at h
      obtain ⟨m', hm', rfl⟩ := h
      simp [ih m' hm']

theorem length_enter (q : EvQueue) (p2 : Bool) (now : Nat) (r : EvRec) : (q.enter p2 now r).1.held.length ≤ q.held.length + 1 := by
  unfold EvQueue.enter
  split
  · simp [length_joinRec r _ _ ‹_›]
  · (repeat' split) <;> simp [length_insertRec, EvQueue.lose]

/-! ### Raising -/

theorem logRecord_ev (s : State) (b : List Byte) : (s.logRecord b).ev = s.ev := by simp

theorem raise_ev (s : State) (code sev src : Nat) (stamp : BitVec 96) (inst : Nat) (args : List Byte) (key : Option (List Nat)) :
    (s.raise code sev src stamp inst args key).ev =
      (s.ev.enter s.onDie s.now ⟨code, sev, src, stamp, inst, inst + s.cfg.holdMs * ticksPerMs, 1, fit 12 args, key⟩).1 := by
  unfold State.raise State.enterEvent
  dsimp only
  split <;> simp

/-- Room for `n` more records in a queue that takes events. -/
def State.room (s : State) (n : Nat) : Prop := s.onDie = false ∧ s.ev.held.length + n ≤ queueSpace

theorem room_of_canReport (s : State) (h : s.canReport = true) : s.room 64 := by
  simpa [State.canReport, State.room] using h

theorem State.room_le {s : State} {n m : Nat} (h : s.room n) (hm : m ≤ n) : s.room m := ⟨h.1, by have := h.2; omega⟩

theorem onDie_congr (s u : State) (h1 : u.pwr = s.pwr) (h2 : u.sys = s.sys) : u.onDie = s.onDie := by simp [State.onDie, h1, h2]

theorem room_raise (s : State) (code sev src : Nat) (stamp : BitVec 96) (inst : Nat) (args : List Byte) (key : Option (List Nat)) (n : Nat)
    (h : s.room (n + 1)) : (s.raise code sev src stamp inst args key).room n := by
  refine ⟨by rw [onDie_congr s _ (by simp) (by simp)]; exact h.1, ?_⟩
  rw [raise_ev]
  have := length_enter s.ev s.onDie s.now ⟨code, sev, src, stamp, inst, inst + s.cfg.holdMs * ticksPerMs, 1, fit 12 args, key⟩
  have := h.2
  omega

theorem room_congr (s u : State) (n : Nat) (h1 : u.pwr = s.pwr) (h2 : u.sys = s.sys) (h3 : u.ev = s.ev) : u.room n ↔ s.room n := by
  simp [State.room, onDie_congr s u h1 h2, h3]

theorem holds_raise (P : Nat → Nat → List Byte → Prop) (s : State) (code sev src : Nat) (stamp : BitVec 96) (inst : Nat) (args : List Byte)
    (key : Option (List Nat)) (h : Holds P s.ev.held) : Holds P (s.raise code sev src stamp inst args key).ev.held := by
  rw [raise_ev]; exact holds_enter P _ _ _ _ h

theorem reported_raise (s : State) (code sev src : Nat) (stamp : BitVec 96) (inst : Nat) (args : List Byte) (h : s.room 1) :
    (s.raise code sev src stamp inst args none).reported code src args := by
  unfold State.reported
  rw [raise_ev, h.1]
  exact holds_enter_new (fun c s a => c = code ∧ s = src ∧ a = fit 12 args) _ _ _ rfl (by have := h.2; omega) ⟨rfl, rfl, rfl⟩

theorem heard_raise (s : State) (code sev src : Nat) (stamp : BitVec 96) (inst : Nat) (args : List Byte) (key : Option (List Nat)) (h : s.room 1) :
    (s.raise code sev src stamp inst args key).heard code src := by
  unfold State.heard
  rw [raise_ev, h.1]
  exact holds_enter_heard _ _ ⟨code, sev, src, stamp, inst, inst + s.cfg.holdMs * ticksPerMs, 1, fit 12 args, key⟩ (by have := h.2; omega)

theorem reported_raise_of (s : State) (code sev src : Nat) (stamp : BitVec 96) (inst : Nat) (args : List Byte) (key : Option (List Nat))
    (code' src' : Nat) (args' : List Byte) (h : s.reported code' src' args') : (s.raise code sev src stamp inst args key).reported code' src' args' :=
  holds_raise (fun c s a => c = code' ∧ s = src' ∧ a = fit 12 args') s _ _ _ _ _ _ _ h

theorem heard_raise_of (s : State) (code sev src : Nat) (stamp : BitVec 96) (inst : Nat) (args : List Byte) (key : Option (List Nat))
    (code' src' : Nat) (h : s.heard code' src') : (s.raise code sev src stamp inst args key).heard code' src' :=
  holds_raise (fun c s _ => c = code' ∧ s = src') s _ _ _ _ _ _ _ h

/-! ### What follows the state loses no record -/

theorem holds_reportLost (P : Nat → Nat → List Byte → Prop) (s : State) (h : Holds P s.ev.held) : Holds P s.reportLost.ev.held := by
  unfold State.reportLost
  split
  · simp only [logRecord_ev]; exact holds_insertRec P _ _ h
  · exact h

theorem holds_reportDropped (P : Nat → Nat → List Byte → Prop) (s : State) (h : Holds P s.ev.held) : Holds P s.reportDropped.ev.held := by
  unfold State.reportDropped
  split
  · simp only [logRecord_ev]; exact holds_enter P _ _ _ _ h
  · exact h

theorem holds_settle (P : Nat → Nat → List Byte → Prop) (s : State) (h : Holds P s.ev.held) : Holds P s.settle.ev.held := by
  have h1 := holds_reportDropped P _ (holds_reportLost P s h)
  simpa [State.settle] using h1

theorem reported_settle (s : State) (code src : Nat) (args : List Byte) (h : s.reported code src args) : s.settle.reported code src args :=
  holds_settle (fun c s a => c = code ∧ s = src ∧ a = fit 12 args) s h

theorem heard_settle (s : State) (code src : Nat) (h : s.heard code src) : s.settle.heard code src :=
  holds_settle (fun c s _ => c = code ∧ s = src) s h

theorem reported_congr (s u : State) (code src : Nat) (args : List Byte) (h : u.ev = s.ev) : u.reported code src args ↔ s.reported code src args := by
  simp [State.reported, h]

theorem heard_congr (s u : State) (code src : Nat) (h : u.ev = s.ev) : u.heard code src ↔ s.heard code src := by simp [State.heard, h]

end Sys2Proof.Machine
end

