-- ==== Sys2Proof/Laws/Memory.lean ====
section
/-! SUPPORT. The sparse lists and the DRAM: a write keeps the canonical form, a read after a write gives what was written, and other places stay. -/

namespace Sys2Proof.Machine

variable {α : Type} [DecidableEq α]

/-- A list whose addresses start later is canonical from an earlier address on too. -/
theorem swf_mono {d : α} {lo lo' : Nat} {m : List (Nat × α)} (h : lo' ≤ lo) (hm : swf d lo m = true) : swf d lo' m = true := by
  cases m with
  | nil => rfl
  | cons e r =>
    obtain ⟨a, w⟩ := e
    simp only [swf, Bool.and_eq_true, decide_eq_true_eq] at hm ⊢
    exact ⟨⟨by omega, hm.1.2⟩, hm.2⟩

/-- A write keeps the canonical form. -/
theorem sset_swf {d : α} {lo k : Nat} {m : List (Nat × α)} (v : α) (hk : lo ≤ k) (hm : swf d lo m = true) : swf d lo (sset d m k v) = true := by
  induction m generalizing lo with
  | nil =>
    unfold sset
    split
    · rfl
    · simp [swf, *]
  | cons e r ih =>
    obtain ⟨a, w⟩ := e
    simp only [swf, Bool.and_eq_true, decide_eq_true_eq] at hm
    obtain ⟨⟨h1, h2⟩, h3⟩ := hm
    unfold sset
    split
    · split
      · simp [swf, h1, h2, h3]
      · rename_i h4 h5
        simp only [swf, Bool.and_eq_true, decide_eq_true_eq]
        exact ⟨⟨hk, h5⟩, ⟨by omega, h2⟩, h3⟩
    · split
      · split
        · exact swf_mono (by omega) h3
        · rename_i h4 h5 h6
          simp only [swf, Bool.and_eq_true, decide_eq_true_eq]
          exact ⟨⟨hk, h6⟩, h5 ▸ h3⟩
      · simp only [swf, Bool.and_eq_true, decide_eq_true_eq]
        exact ⟨⟨h1, h2⟩, ih (by omega) h3⟩

/-- Below its first address a canonical list reads as an unlisted place. -/
theorem sget_below {d : α} {lo k : Nat} {m : List (Nat × α)} (h : k < lo) (hm : swf d lo m = true) : sget d m k = d := by
  induction m generalizing lo with
  | nil => rfl
  | cons e r ih =>
    obtain ⟨a, w⟩ := e
    simp only [swf, Bool.and_eq_true, decide_eq_true_eq] at hm
    unfold sget
    rw [if_neg (by omega)]
    exact ih (by omega) hm.2

/-- A read after a write: the value written at its place, every other place as before. -/
theorem sget_sset {d : α} {lo k : Nat} {m : List (Nat × α)} (v : α) (j : Nat) (hm : swf d lo m = true) :
    sget d (sset d m k v) j = if k = j then v else sget d m j := by
  induction m generalizing lo with
  | nil =>
    unfold sset
    split <;> rename_i h <;> simp [sget, h]
  | cons e r ih =>
    obtain ⟨a, w⟩ := e
    simp only [swf, Bool.and_eq_true, decide_eq_true_eq] at hm
    obtain ⟨⟨h1, h2⟩, h3⟩ := hm
    unfold sset
    by_cases hka : k < a
    · rw [if_pos hka]
      by_cases hv : v = d
      · rw [if_pos hv]
        by_cases hj : k = j
        · subst hj
          rw [if_pos rfl, hv]
          have : swf d a ((a, w) :: r) = true := by simp [swf, h2, h3]
          exact sget_below hka this
        · rw [if_neg hj]
      · rw [if_neg hv]
        rfl
    · rw [if_neg hka]
      by_cases hk : k = a
      · subst hk
        rw [if_pos rfl]
        by_cases hv : v = d
        · rw [if_pos hv]
          by_cases hj : k = j
          · subst hj
            rw [if_pos rfl, hv]
            exact sget_below (by omega) h3
          · simp [sget, hj]
        · rw [if_neg hv]
          by_cases hj : k = j <;> simp [sget, hj]
      · rw [if_neg hk]
        simp only [sget]
        by_cases haj : a = j
        · simp [haj, show k ≠ j by omega]
        · simp only [if_neg haj]
          exact ih h3

/-- A write of consecutive places keeps the canonical form. -/
theorem ssetL_swf {d : α} {m : List (Nat × α)} (k : Nat) (l : List α) (hm : swf d 0 m = true) : swf d 0 (ssetL d m k l) = true := by
  induction l generalizing m k with
  | nil => exact hm
  | cons v r ih => exact ih (k + 1) (sset_swf v (by omega) hm)

/-- A read after a write of consecutive places. -/
theorem sget_ssetL {d : α} {m : List (Nat × α)} (k : Nat) (l : List α) (j : Nat) (hm : swf d 0 m = true) :
    sget d (ssetL d m k l) j = if k ≤ j ∧ j < k + l.length then nth l (j - k) d else sget d m j := by
  induction l generalizing m k with
  | nil => simp [ssetL, show ¬ (k ≤ j ∧ j < k) by omega]
  | cons v r ih =>
    rw [ssetL, ih (k + 1) (sset_swf v (by omega) hm), sget_sset v j hm]
    by_cases hkj : k = j
    · subst hkj
      simp [nth]
    · by_cases h : k ≤ j ∧ j < k + (r.length + 1)
      · have e : j - k = (j - (k + 1)) + 1 := by omega
        rw [if_pos (by omega), if_pos (by simpa using h), e]
        simp [nth]
      · rw [if_neg (by omega), if_neg hkj, if_neg (by simpa using h)]

/-- Waking a channel leaves the bytes and the settings of the blocks. -/
@[simp] theorem State.wakeChannel_dram (s : State) (c : Nat) : (s.wakeChannel c).dram = s.dram := rfl
@[simp] theorem State.detect_dram (s : State) (k i : Nat) : (s.detect k i).dram = s.dram := by simp [State.detect, State.modHUnit]
@[simp] theorem State.rowDue_dram (s : State) (r : RowAt) : (s.rowDue r).dram = s.dram := by
  unfold State.rowDue; split <;> simp
@[simp] theorem State.badRead_dram (s : State) (port b : Nat) : (s.badRead port b).dram = s.dram := by
  unfold State.badRead; (repeat' split) <;> simp [State.modChan]

/-- A change of a block's state leaves the bytes. -/
@[simp] theorem State.setBlock_dram (s : State) (b v : Nat) : (s.setBlock b v).dram = s.dram := rfl

/-- The bytes after a write within one block. -/
theorem State.writeInBlock_dram (s : State) (port a : Nat) (data : List Byte) :
    (s.writeInBlock port a data).dram =
      if s.blockLost (a / 64) then s.dram
      else if data.length = 64 then ssetL 0 s.dram a data
      else if s.blockSt (a / 64) = 0 then ssetL 0 s.dram a data
      else ssetL 0 (ssetL 0 s.dram (a / 64 * 64) (zeros 64)) a data := by
  unfold State.writeInBlock
  dsimp only
  by_cases h1 : s.blockLost (a / 64) = true
  · rw [if_pos h1, if_pos h1]
    simp
  · rw [if_neg h1, if_neg h1]
    by_cases h2 : data.length = 64
    · rw [if_pos h2, if_pos h2]
      simp
    · rw [if_neg h2, if_neg h2]
      by_cases h3 : s.blockSt (a / 64) = 0
      · rw [if_pos h3, if_pos h3]
        simp
      · rw [if_neg h3, if_neg h3]
        simp

/-- A write within one block keeps the canonical form. -/
theorem State.writeInBlock_wf (s : State) (port a : Nat) (data : List Byte) (h : Memory.wf s.dram = true) :
    Memory.wf (s.writeInBlock port a data).dram = true := by
  rw [State.writeInBlock_dram]
  split
  · exact h
  · split
    · exact ssetL_swf _ _ h
    · split
      · exact ssetL_swf _ _ h
      · exact ssetL_swf _ _ (ssetL_swf _ _ h)

/-- A write of the DRAM keeps the canonical form. -/
theorem State.dramWriteGo_wf (port n : Nat) (s : State) (a : Nat) (data : List Byte) (h : Memory.wf s.dram = true) :
    Memory.wf (s.dramWriteGo port n a data).dram = true := by
  induction n generalizing s a data with
  | zero => exact h
  | succ n ih =>
    unfold State.dramWriteGo
    split
    · exact h
    · exact ih _ _ _ (s.writeInBlock_wf _ _ _ h)

/-- A write of any port keeps the canonical form. -/
theorem State.writeBy_wf (s : State) (port a : Nat) (data : List Byte) (h : Memory.wf s.dram = true) : Memory.wf (s.writeBy port a data).dram = true :=
  State.dramWriteGo_wf _ _ _ _ _ h

theorem State.dramWrite_wf (s : State) (a : Nat) (data : List Byte) (h : Memory.wf s.dram = true) : Memory.wf (s.dramWrite a data).dram = true :=
  s.writeBy_wf 4 a data h

/-- The bytes after a block is written poisoned. -/
theorem State.poisonBlock_dram (s : State) (b : Nat) : (s.poisonBlock b).dram = ssetL 0 s.dram (b * 64) (zeros 64) := by
  dsimp only [State.poisonBlock]

/-- A block written poisoned keeps the canonical form. -/
theorem State.poisonBlock_wf (s : State) (b : Nat) (h : Memory.wf s.dram = true) : Memory.wf (s.poisonBlock b).dram = true := by
  rw [State.poisonBlock_dram]
  exact ssetL_swf _ _ h

/-- The reset state's memory is canonical: it lists nothing. -/
theorem reset_memory_wf : Memory.wf State.reset.dram = true := rfl

end Sys2Proof.Machine
end

