-- ==== Sys2Proof/Tests/Slice0.lean ====
section
/-! SUPPORT. Tests: ill-formed commands that WellFormed refuses, states that meet the premises of the statements, and single steps whose results
were worked out from the spec by hand. -/

namespace Sys2Proof.Tests

open Sys2Proof.Machine

set_option maxRecDepth 100000

/-! ### States to test with -/

/-- The device after its start: P0, phase 4 of the boot, memory trained, emission permitted. -/
def readyState : State :=
  { State.reset with
    sys := { State.reset.sys with bootState := 4 }
    mbs := State.reset.mbs.map (fun m => { m with st := 0 })
    pwr := ⟨0, none, true, false⟩
    emit := ⟨true, none, none, []⟩
    mem := { State.reset.mem with available := true } }
/-- A plan of one tone for line 0: 10 000 shots a second, 1 000 points. -/
def planA : Plan :=
  { line := 0, probe := 0, decim := 0, period := 50000, offset := 0, first := 0, last := 999, blanket := 0, pitch := 1, thermMode := 0, gauge := 10
    riseFd := 0, fallFd := 0, thermN := 0, thermSlot := 0, thermCh := 0, thermStagger := 0, thermWidth := 0, thermAmp := 0
    tones := [⟨0, 0, 0, 0, 0xFF, 10, 1⟩] }
/-- Its payload (Table 2.1). -/
def planBytes : List Byte :=
  u8 0 ++ u8 0 ++ u8 1 ++ u8 0 ++ u32 50000 ++ u32 0 ++ u32 0 ++ u32 999 ++ u16 0 ++ u8 1 ++ u8 0 ++ u16 10 ++ u8 0 ++ u8 0 ++ zeros 20 ++
    (u32 0 ++ u8 0 ++ u8 0 ++ u8 0 ++ u8 0xFF ++ u16 10 ++ u16 1 ++ zeros 4)
/-- A waveform stands in slot 0 of probe 0. -/
def waveState : State := readyState.modCfg (fun g => { g with slots := upd g.slots 0 (fun l => l.set 0 ⟨0, 4, 100, 2⟩) })
/-- The plan is in effect on line 0. -/
def planState : State := waveState.modCfg (fun g => { g with plans := g.plans.set 0 (some planA) })
/-- Line 0 runs. -/
def runState : State := planState.modLine 0 (fun r => { r with st := 2 })
/-- The same plan with sixteen points, in effect on line 0, which runs; its felt ring is formatted and has one row, its slow-time processing runs. -/
def planS : Plan := { planA with last := 15 }
def feltState : State :=
  ((waveState.modCfg (fun g => { g with plans := g.plans.set 0 (some planS) })).modLine 0 (fun r => { r with st := 2 })).modFelt 0 (fun f =>
    { f with formatted := true, points := 16, ns := 1000, fsn := 1, begun := some 0, rows := [⟨0, 0, zeros 32, List.replicate 16 4#32, false, 0⟩] })
/-- A launch of its tone. -/
def launchS (tick : Nat) : Launch :=
  ⟨tick, 0, 0, .tone 0, 0, false, false, 0, planS, State.reset.lineCfg 0, false, false, false, [0, 0, 0, 0], [0, 1, 2, 3, 0, 1], 100⟩
/-- A quire of thirty-two rows is complete. -/
def quireState : State := feltState.modFelt 0 (fun f =>
  { f with fsn := 32, rows := (List.range 32).map (fun n => ⟨n, 0, zeros 32, List.replicate 16 4#32, false, 0⟩) })
/-- SOURCE is PTP, and one time transmitter (port identity 7) has been heard twice: its path delay and a Delay_Req stand. -/
def ptpState : State :=
  (State.reset.modCfg (fun g => { g with tb := { g.tb with source := 3 } })).modTb (fun b =>
    { b with ptp := ⟨[⟨7, ⟨128, 6, 33, 20000, 128, 7, 0, 0, true⟩, ticksPerSecond, some 0⟩], some 7, none, none, 4, some (4, 1000, 1, 3000), some 0⟩ })
/-- An arming of command 1: launches of line 0 to edges of PROBE_MON, or the other way round. -/
def armingA : Arming := ⟨3, 0, 4, 0, false, 1000, 0, 0, 1, false, some 10, []⟩
def armingB : Arming := ⟨4, 0, 3, 0, false, 1000, 0, 0, 1, false, none, [5, 300]⟩
/-- TIU0 holds an arming. -/
def armedState (a : Arming) : State := readyState.modUnit 0 (fun x => { x with arming := some a, locked := true })
/-- Every shot of a launch-zero measurement of line 0 has been fired. -/
def zeroState (hits : List Int) : State :=
  { (readyState.modTiu (fun q => { q with launchRun := some ⟨0, 0, 1, 100, 0, hits⟩ })) with pend := [⟨0x0804, 0, 1, 0, none, none, [0], zeros 12⟩] }
/-- A command of a payload in mailbox 0, with sequence 1. -/
def cmdWith (payload : List Byte) : Cmd := ⟨0, none, 0, 1, payload.length, 0#96, 0, 0, payload, default⟩
theorem nth_upd' {α : Type} (l : List α) (n m : Nat) (f : α → α) (d : α) :
    nth (upd l n f) m d = if n = m ∧ m < l.length then f (nth l m d) else nth l m d := by
  by_cases h : n = m
  · subst h
    by_cases hl : n < l.length
    · simp [hl, nth_upd]
    · simp [nth, upd, hl]
  · simp [nth, upd, h]
set_option exponentiation.threshold 600
def cellA : GathCell := ⟨0, 0, 0, [some 0, some 1, some 2, some 3], [11200#16, 0#16, 0#16, 0#16, 0#16]⟩
def cellB : GathCell := { cellA with words := [54336#16, 0#16, 0#16, 0#16, 0#16] }
/-- A block of Q16's first converter: 65 535 words of one phase and one of the opposite. -/
def blockA : List GathCell := List.replicate 65535 cellA ++ [cellB]
/-- A block of zero words. -/
def blockZ : List GathCell := List.replicate 65536 { cellA with words := List.replicate 5 0#16 }
/-- The first converter of Q16 has gathered a block. -/
def gathState (b : List GathCell) : State :=
  { readyState with cal := { readyState.cal with quads := upd readyState.cal.quads 16 (fun k => { k with cells := b.reverse, gathFrom := List.replicate 5 0 }) } }

theorem gath_block (b : List GathCell) (hl : b.length = 65536) (ho : ∀ c ∈ b, c.offers 0 = true) : ((gathState b).atInstant 0).gatheredBlock 16 0 = some b := by
  have hc : ((gathState b).atInstant 0).calOf 16 = { readyState.calOf 16 with cells := b.reverse, gathFrom := List.replicate 5 0 } := by
    simp [gathState, State.calOf, nth_upd', show (16 : Nat) < readyState.cal.quads.length by decide]
  have hf : b.filter (fun c => c.offers 0) = b := List.filter_eq_self.mpr ho
  have ht : b.take 65536 = b := List.take_of_length_le (by omega)
  unfold State.gatheredBlock
  rw [hc]
  simp only [blockOf]
  simp [nth, List.filter_reverse, GathCell.reflected, calBlockWords, hl, hf, ht]

theorem mem_blockA (c : GathCell) (h : c ∈ blockA) : c = cellA ∨ c = cellB := by
  simp only [blockA, List.mem_append, List.mem_replicate, List.mem_singleton] at h
  tauto
theorem mem_blockZ (c : GathCell) (h : c ∈ blockZ) : c = { cellA with words := List.replicate 5 0#16 } := (List.mem_replicate.mp h).2

theorem foldl_same {α β : Type} (f : β → α → β) (b : β) (a : α) (n : Nat) (h : f b a = b) : (List.replicate n a).foldl f b = b := by
  induction n with
  | zero => rfl
  | succ n ih => rw [List.replicate_succ, List.foldl_cons, h, ih]

theorem blockA_z : blockA.map (fun c => c.z 0 0 0) = List.replicate 65535 ⟨700, 0⟩ ++ [⟨-700, 0⟩] := by
  rw [blockA, List.map_append, List.map_replicate, show cellA.z 0 0 0 = ⟨700, 0⟩ by decide]
  rfl

theorem gath_radius : mean ((blockA.map (fun c => c.z 0 0 0)).map (fun x => (radius20 x : Rat) / 2 ^ 20)) = 700 := by
  rw [blockA_z, List.map_append, List.map_replicate, mean, List.sum_append, List.sum_replicate, List.length_append, List.length_replicate]
  simp only [List.map_cons, List.map_nil, show radius20 ⟨700, 0⟩ = 700 * 2 ^ 20 by decide, show radius20 ⟨-700, 0⟩ = 700 * 2 ^ 20 by decide]
  norm_num

theorem gath_span : phaseSpan (blockA.map (fun c => c.z 0 0 0)) = 524288 := by
  have h0 : argTurn20 ⟨700, 0⟩ = 0 := by decide
  have h1 : argTurn20 ⟨-700, 0⟩ = -524288 := by decide
  rw [blockA_z, phaseSpan, List.filter_append, List.filter_replicate_of_pos (by decide), List.map_append, List.map_replicate, h0, List.replicate_succ]
  simp only [List.cons_append, List.foldl_append]
  rw [foldl_same _ _ _ _ (by decide)]
  decide

theorem gath_passes : calFails 16 (measure 1 0 0 blockA) = [] := by
  have hcl : blockA.filter (fun c => c.clip 0) = [] := by
    rw [List.filter_eq_nil_iff]
    intro c hc
    rcases mem_blockA c hc with h | h <;> subst h <;> decide
  simp only [calFails, Machine.measure, show (0 / 2 : Nat) = 0 from rfl, gath_radius, gath_span, hcl]
  norm_num

theorem gath_fails : ∃ r, calFails 16 (measure 1 0 0 blockZ) = (4, 0) :: r := by
  have hz : mean ((blockZ.map (fun c => c.z 0 0 0)).map (fun x => (radius20 x : Rat) / 2 ^ 20)) = 0 := by
    rw [blockZ, List.map_replicate, List.map_replicate, mean, List.sum_replicate]
    simp only [show (radius20 (GathCell.z { cellA with words := List.replicate 5 0#16 } 0 0 0) : Rat) = 0 by norm_cast]
    norm_num
  have hcl : blockZ.filter (fun c => c.clip 0) = [] := by
    rw [List.filter_eq_nil_iff]
    intro c hc
    rw [mem_blockZ c hc]; decide
  simp only [calFails, Machine.measure, show (0 / 2 : Nat) = 0 from rfl, hz, hcl]
  norm_num [milli, rneDiv]
theorem blockA_offers (c : GathCell) (h : c ∈ blockA) : c.offers 0 = true := by
  rcases mem_blockA c h with h | h <;> subst h <;> decide

theorem blockZ_offers (c : GathCell) (h : c ∈ blockZ) : c.offers 0 = true := by
  rw [mem_blockZ c h]; decide


/-! ### Ill-formed commands are refused -/

/-- Each names an index one past the last. -/
theorem test_wellFormed_refuses_index_past_end_1 :
    (Instr.wellFormed (.mbDoorbell default 8 default default)) = false ∧
    (Instr.wellFormed (.heldDoorbellRuns default 8 default default)) = false ∧
    (Instr.wellFormed (.mbDoneClear default 8)) = false ∧
    (Instr.wellFormed (.ethMailboxFrame default 2 default default default default)) = false ∧
    (Instr.wellFormed (.contextDoorbell default 256 default)) = false ∧
    (Instr.wellFormed (.zspTransaction default 256 default)) = false ∧
    (Instr.wellFormed (.planTakesEffect default 16)) = false ∧
    (Instr.wellFormed (.probeChange default 16)) = false ∧
    (Instr.wellFormed (.probeIdleCodeChange default 2)) = false ∧
    (Instr.wellFormed (.gateLimitTakesEffect default 16)) = false ∧
    (Instr.wellFormed (.spotLaunch default 16)) = false ∧
    (Instr.wellFormed (.gridLaunch default 16)) = false ∧
    (Instr.wellFormed (.dutyTruncated default 16)) = false ∧
    (Instr.wellFormed (.laneWordRelease default 17 default default)) = false ∧
    (Instr.wellFormed (.laneWordRelease default default 5 default)) = false ∧
    (Instr.wellFormed (.monitorBlockEnd default 17 default)) = false ∧
    (Instr.wellFormed (.quadWake default 17)) = false ∧
    (Instr.wellFormed (.quadPowerDown default 17)) = false ∧
    (Instr.wellFormed (.rxConfigTakesEffect default 17)) = false ∧
    (Instr.wellFormed (.calBlockGathered default 17 default default)) = false ∧
    (Instr.wellFormed (.calBlockGathered default default 5 default)) = false ∧
    (Instr.wellFormed (.handover default 17)) = false ∧
    (Instr.wellFormed (.overlapEnd default 17)) = false ∧
    (Instr.wellFormed (.rotationMoveReady default 17)) = false ∧
    (Instr.wellFormed (.calStale default 17 default)) = false ∧
    (Instr.wellFormed (.calStale default default 4)) = false ∧
    (Instr.wellFormed (.sheetComplete default 16 default)) = false ∧
    (Instr.wellFormed (.lineSpared default 16 default)) = false ∧
    (Instr.wellFormed (.lineUnspared default 16)) = false ∧
    (Instr.wellFormed (.lineConfigTakesEffect default 16)) = false := by decide

/-- Each names an index one past the last. -/
theorem test_wellFormed_refuses_index_past_end_2 :
    (Instr.wellFormed (.lineStarted default 16)) = false ∧
    (Instr.wellFormed (.lineStopBoundary default 16)) = false ∧
    (Instr.wellFormed (.lineStopped default 16)) = false ∧
    (Instr.wellFormed (.feltQuireBegin default 16)) = false ∧
    (Instr.wellFormed (.quireComplete default 16)) = false ∧
    (Instr.wellFormed (.slowQuireReleased default 16)) = false ∧
    (Instr.wellFormed (.slowOverrun default 16)) = false ∧
    (Instr.wellFormed (.feltResizeTakesEffect default 16)) = false ∧
    (Instr.wellFormed (.slowConfigTakesEffect default 16)) = false ∧
    (Instr.wellFormed (.slowStopped default 16)) = false ∧
    (Instr.wellFormed (.jobDone default 36 default)) = false ∧
    (Instr.wellFormed (.tileAbort default 36 default default)) = false ∧
    (Instr.wellFormed (.tileSpared default 36 default)) = false ∧
    (Instr.wellFormed (.pointHitsDecided default 16)) = false ∧
    (Instr.wellFormed (.trigInEdge default 4 default default)) = false ∧
    (Instr.wellFormed (.trigOutAssert default 4)) = false ∧
    (Instr.wellFormed (.trigOutWidthEnd default 4)) = false ∧
    (Instr.wellFormed (.captureFormed default 16)) = false ∧
    (Instr.wellFormed (.rawTrigger default 4 default)) = false ∧
    (Instr.wellFormed (.rawTrigger default default 32)) = false ∧
    (Instr.wellFormed (.rawSegmentClose default 4)) = false ∧
    (Instr.wellFormed (.rawRearm default 4)) = false ∧
    (Instr.wellFormed (.rawCopyOut default 4)) = false ∧
    (Instr.wellFormed (.trigArmTakesEffect default 32)) = false ∧
    (Instr.wellFormed (.trigRebaseTakesEffect default 32)) = false ∧
    (Instr.wellFormed (.capRawDone default 4)) = false ∧
    (Instr.wellFormed (.tiuSelfCheck default 5 default default)) = false ∧
    (Instr.wellFormed (.tiuSpared default 5)) = false ∧
    (Instr.wellFormed (.tiuResult default 5 default default)) = false ∧
    (Instr.wellFormed (.tiuTimeout default 5)) = false := by decide

/-- Each names an index one past the last. -/
theorem test_wellFormed_refuses_index_past_end_3 :
    (Instr.wellFormed (.launchZeroDone default 16)) = false ∧
    (Instr.wellFormed (.bcastOriginate default 32)) = false ∧
    (Instr.wellFormed (.thermalSheetTaken default 16 default default default)) = false ∧
    (Instr.wellFormed (.thermalIntervalClose default 16)) = false ∧
    (Instr.wellFormed (.thermalSwitch default 4 default)) = false ∧
    (Instr.wellFormed (.thermalSwitchSettled default 4)) = false ∧
    (Instr.wellFormed (.thermSpared default 5)) = false ∧
    (Instr.wellFormed (.thermConfigTakesEffect default 16)) = false ∧
    (Instr.wellFormed (.refLead default 8 default default)) = false ∧
    (Instr.wellFormed (.zoneEvaluation default 256 default)) = false ∧
    (Instr.wellFormed (.zoneHoldEnd default 256 default)) = false ∧
    (Instr.wellFormed (.zoneHoldEnd default default 4)) = false ∧
    (Instr.wellFormed (.zoneFaultTimer default 256)) = false ∧
    (Instr.wellFormed (.baleRelease default 4 default default default default)) = false ∧
    (Instr.wellFormed (.baleNoSpace default 4 default default default)) = false ∧
    (Instr.wellFormed (.dramReadDecode default 5 default default)) = false ∧
    (Instr.wellFormed (.rowRemap default 4 default default default default)) = false ∧
    (Instr.wellFormed (.rowRemap default default 2 default default default)) = false ∧
    (Instr.wellFormed (.rowRemap default default default 2 default default)) = false ∧
    (Instr.wellFormed (.rowRemap default default default default 16 default)) = false ∧
    (Instr.wellFormed (.rowTestDone default 4 default default)) = false ∧
    (Instr.wellFormed (.scrub default 4 default)) = false ∧
    (Instr.wellFormed (.refresh default 4 default)) = false ∧
    (Instr.wellFormed (.wckDriftCheck default 4 default default)) = false ∧
    (Instr.wellFormed (.selfRefreshEntry default 4)) = false ∧
    (Instr.wellFormed (.selfRefreshExit default 4)) = false ∧
    (Instr.wellFormed (.requestLate default 5 default default)) = false ∧
    (Instr.wellFormed (.requestLate default default 4 default)) = false ∧
    (Instr.wellFormed (.channelLost default 4 default)) = false ∧
    (Instr.wellFormed (.descriptorComplete default 256 default default)) = false := by decide

/-- Each names an index one past the last. -/
theorem test_wellFormed_refuses_index_past_end_4 :
    (Instr.wellFormed (.dmaHalted default 256 default default default default)) = false ∧
    (Instr.wellFormed (.msixMessage default 64)) = false ∧
    (Instr.wellFormed (.streamRecordClose default 256)) = false ∧
    (Instr.wellFormed (.bufferFlush default 256 default)) = false ∧
    (Instr.wellFormed (.streamOverrun default 256)) = false ∧
    (Instr.wellFormed (.ethLinkChange default 2 default)) = false ∧
    (Instr.wellFormed (.arpRequest default 2 default)) = false ∧
    (Instr.wellFormed (.streamDetached default 256)) = false ∧
    (Instr.wellFormed (.sramError default 1152 default default default)) = false ∧
    (Instr.wellFormed (.d2dLaneError default 136 default default)) = false ∧
    (Instr.wellFormed (.trailLinkChange default 4 default)) = false ∧
    (Instr.wellFormed (.streamPacketSent default 256)) = false ∧
    (Instr.wellFormed (.tokenBucketRefill default 256)) = false ∧
    (Instr.wellFormed (.pauseFrameRx default 2 default)) = false ∧
    (Instr.wellFormed (.ethFrameDropped default 2 default)) = false ∧
    (Instr.wellFormed (.fullRetrainingDone default 4 default default)) = false := by decide

/-- Each names the last index. -/
theorem test_wellFormed_takes_last_index_1 :
    (Instr.wellFormed (.mbDoorbell default 7 default default)) = true ∧
    (Instr.wellFormed (.heldDoorbellRuns default 7 default default)) = true ∧
    (Instr.wellFormed (.mbDoneClear default 7)) = true ∧
    (Instr.wellFormed (.ethMailboxFrame default 1 default default default default)) = true ∧
    (Instr.wellFormed (.contextDoorbell default 255 default)) = true ∧
    (Instr.wellFormed (.zspTransaction default 255 default)) = true ∧
    (Instr.wellFormed (.planTakesEffect default 15)) = true ∧
    (Instr.wellFormed (.probeChange default 15)) = true ∧
    (Instr.wellFormed (.probeIdleCodeChange default 1)) = true ∧
    (Instr.wellFormed (.gateLimitTakesEffect default 15)) = true ∧
    (Instr.wellFormed (.spotLaunch default 15)) = true ∧
    (Instr.wellFormed (.gridLaunch default 15)) = true ∧
    (Instr.wellFormed (.dutyTruncated default 15)) = true ∧
    (Instr.wellFormed (.laneWordRelease default 16 4 default)) = true ∧
    (Instr.wellFormed (.monitorBlockEnd default 16 default)) = true ∧
    (Instr.wellFormed (.quadWake default 16)) = true ∧
    (Instr.wellFormed (.quadPowerDown default 16)) = true ∧
    (Instr.wellFormed (.rxConfigTakesEffect default 16)) = true ∧
    (Instr.wellFormed (.calBlockGathered default 16 4 default)) = true ∧
    (Instr.wellFormed (.handover default 16)) = true ∧
    (Instr.wellFormed (.overlapEnd default 16)) = true ∧
    (Instr.wellFormed (.rotationMoveReady default 16)) = true ∧
    (Instr.wellFormed (.calStale default 16 3)) = true ∧
    (Instr.wellFormed (.sheetComplete default 15 default)) = true ∧
    (Instr.wellFormed (.lineSpared default 15 default)) = true ∧
    (Instr.wellFormed (.lineUnspared default 15)) = true ∧
    (Instr.wellFormed (.lineConfigTakesEffect default 15)) = true ∧
    (Instr.wellFormed (.lineStarted default 15)) = true ∧
    (Instr.wellFormed (.lineStopBoundary default 15)) = true ∧
    (Instr.wellFormed (.lineStopped default 15)) = true := by decide

/-- Each names the last index. -/
theorem test_wellFormed_takes_last_index_2 :
    (Instr.wellFormed (.feltQuireBegin default 15)) = true ∧
    (Instr.wellFormed (.quireComplete default 15)) = true ∧
    (Instr.wellFormed (.slowQuireReleased default 15)) = true ∧
    (Instr.wellFormed (.slowOverrun default 15)) = true ∧
    (Instr.wellFormed (.feltResizeTakesEffect default 15)) = true ∧
    (Instr.wellFormed (.slowConfigTakesEffect default 15)) = true ∧
    (Instr.wellFormed (.slowStopped default 15)) = true ∧
    (Instr.wellFormed (.jobDone default 35 default)) = true ∧
    (Instr.wellFormed (.tileAbort default 35 default default)) = true ∧
    (Instr.wellFormed (.tileSpared default 35 default)) = true ∧
    (Instr.wellFormed (.pointHitsDecided default 15)) = true ∧
    (Instr.wellFormed (.trigInEdge default 3 default default)) = true ∧
    (Instr.wellFormed (.trigOutAssert default 3)) = true ∧
    (Instr.wellFormed (.trigOutWidthEnd default 3)) = true ∧
    (Instr.wellFormed (.captureFormed default 15)) = true ∧
    (Instr.wellFormed (.rawTrigger default 3 31)) = true ∧
    (Instr.wellFormed (.rawSegmentClose default 3)) = true ∧
    (Instr.wellFormed (.rawRearm default 3)) = true ∧
    (Instr.wellFormed (.rawCopyOut default 3)) = true ∧
    (Instr.wellFormed (.trigArmTakesEffect default 31)) = true ∧
    (Instr.wellFormed (.trigRebaseTakesEffect default 31)) = true ∧
    (Instr.wellFormed (.capRawDone default 3)) = true ∧
    (Instr.wellFormed (.tiuSelfCheck default 4 default default)) = true ∧
    (Instr.wellFormed (.tiuSpared default 4)) = true ∧
    (Instr.wellFormed (.tiuResult default 4 default default)) = true ∧
    (Instr.wellFormed (.tiuTimeout default 4)) = true ∧
    (Instr.wellFormed (.launchZeroDone default 15)) = true ∧
    (Instr.wellFormed (.bcastOriginate default 31)) = true ∧
    (Instr.wellFormed (.thermalSheetTaken default 15 default default default)) = true ∧
    (Instr.wellFormed (.thermalIntervalClose default 15)) = true := by decide

/-- Each names the last index. -/
theorem test_wellFormed_takes_last_index_3 :
    (Instr.wellFormed (.thermalSwitch default 3 default)) = true ∧
    (Instr.wellFormed (.thermalSwitchSettled default 3)) = true ∧
    (Instr.wellFormed (.thermSpared default 4)) = true ∧
    (Instr.wellFormed (.thermConfigTakesEffect default 15)) = true ∧
    (Instr.wellFormed (.refLead default 7 default default)) = true ∧
    (Instr.wellFormed (.zoneEvaluation default 255 default)) = true ∧
    (Instr.wellFormed (.zoneHoldEnd default 255 3)) = true ∧
    (Instr.wellFormed (.zoneFaultTimer default 255)) = true ∧
    (Instr.wellFormed (.baleRelease default 3 default default default default)) = true ∧
    (Instr.wellFormed (.baleNoSpace default 3 default default default)) = true ∧
    (Instr.wellFormed (.dramReadDecode default 4 default default)) = true ∧
    (Instr.wellFormed (.rowRemap default 3 1 1 15 default)) = true ∧
    (Instr.wellFormed (.rowTestDone default 3 default default)) = true ∧
    (Instr.wellFormed (.scrub default 3 default)) = true ∧
    (Instr.wellFormed (.refresh default 3 default)) = true ∧
    (Instr.wellFormed (.wckDriftCheck default 3 default default)) = true ∧
    (Instr.wellFormed (.selfRefreshEntry default 3)) = true ∧
    (Instr.wellFormed (.selfRefreshExit default 3)) = true ∧
    (Instr.wellFormed (.requestLate default 4 3 default)) = true ∧
    (Instr.wellFormed (.channelLost default 3 default)) = true ∧
    (Instr.wellFormed (.descriptorComplete default 255 default default)) = true ∧
    (Instr.wellFormed (.dmaHalted default 255 default default default default)) = true ∧
    (Instr.wellFormed (.msixMessage default 63)) = true ∧
    (Instr.wellFormed (.streamRecordClose default 255)) = true ∧
    (Instr.wellFormed (.bufferFlush default 255 default)) = true ∧
    (Instr.wellFormed (.streamOverrun default 255)) = true ∧
    (Instr.wellFormed (.ethLinkChange default 1 default)) = true ∧
    (Instr.wellFormed (.arpRequest default 1 default)) = true ∧
    (Instr.wellFormed (.streamDetached default 255)) = true ∧
    (Instr.wellFormed (.sramError default 1151 default default default)) = true := by decide

/-- Each names the last index. -/
theorem test_wellFormed_takes_last_index_4 :
    (Instr.wellFormed (.d2dLaneError default 135 default default)) = true ∧
    (Instr.wellFormed (.trailLinkChange default 3 default)) = true ∧
    (Instr.wellFormed (.streamPacketSent default 255)) = true ∧
    (Instr.wellFormed (.tokenBucketRefill default 255)) = true ∧
    (Instr.wellFormed (.pauseFrameRx default 1 default)) = true ∧
    (Instr.wellFormed (.ethFrameDropped default 1 default)) = true ∧
    (Instr.wellFormed (.fullRetrainingDone default 3 default default)) = true := by decide

/-- Every field of a command's header is held to its width, and the payload to a mailbox. -/
theorem test_wellFormed_refuses_headers :
    (Instr.wellFormed (.sysIdentify 0 { cmdWith [] with mb := 8 })) = false ∧
    (Instr.wellFormed (.sysIdentify 0 { cmdWith [] with flags := 65536 })) = false ∧
    (Instr.wellFormed (.sysIdentify 0 { cmdWith [] with seq := 65536 })) = false ∧
    (Instr.wellFormed (.sysIdentify 0 { cmdWith [] with len := 65536 })) = false ∧
    (Instr.wellFormed (.sysIdentify 0 { cmdWith [] with authRef := 2 ^ 32 })) = false ∧
    (Instr.wellFormed (.sysIdentify 0 { cmdWith [] with reserved := 2 ^ 64 })) = false ∧
    (Instr.wellFormed (.sysIdentify 0 { cmdWith [] with payload := zeros 4065 })) = false ∧
    (Instr.wellFormed (.sysIdentify 0 { cmdWith [] with eth := some (2, 0) })) = false ∧
    (Instr.wellFormed (.sysIdentify 0 { cmdWith [] with eth := some (0, 2 ^ 32) })) = false ∧
    (Instr.wellFormed (.sysIdentify 0 (cmdWith []))) = true := by decide

/-- A zone source names a line or a condition that exists. -/
theorem test_wellFormed_refuses_sources :
    (ZoneSource.row 16).wellFormed = false ∧ (ZoneSource.trace 16).wellFormed = false ∧ (ZoneSource.hit 32).wellFormed = false := by decide

/-- The SMBus target takes writes of LTUNE0 and LTUNE1 only (Table 18.13). -/
theorem test_wellFormed_refuses_ltune : (Instr.wellFormed (.smbLtuneWrite 0 4 0)) = false ∧ (Instr.wellFormed (.smbLtuneWrite 0 7 0)) = false := by decide

/-! ### The premises of the statements are met -/

/-- The premises of `PlanDefineCompletes` hold together. -/
theorem test_planDefine_premises :
    ∃ (t : Nat) (c : Cmd) (s : State),
      ((s.atInstant t).admits 0x0201 c = true) ∧
      ((s.atInstant t).planChecks c.arg = none) :=
  ⟨0, cmdWith planBytes, waveState, by decide⟩

/-- The premises of `PlanApplyCompletes` hold together. -/
theorem test_planApply_premises :
    ∃ (t : Nat) (c : Cmd) (s : State),
      ((s.atInstant t).admits 0x0202 c = true) ∧
      (rd c.arg 0 2 ≠ 0) ∧
      ((s.atInstant t).maskEnabled (rd c.arg 0 2) = true) ∧
      ((∀ l ∈ maskList 16 (rd c.arg 0 2), (s.atInstant t).applyPending l = false)) ∧
      ((∀ l ∈ maskList 16 (rd c.arg 0 2), ((s.atInstant t).gridOf l).staged.isSome = true)) ∧
      ((∀ l ∈ maskList 16 (rd c.arg 0 2), (s.atInstant t).running l = false)) ∧
      ((s.atInstant t).applyFault ((maskList 16 (rd c.arg 0 2)).filterMap (fun l => ((s.atInstant t).gridOf l).staged)) ((s.atInstant t).resulting (maskList 16 (rd c.arg 0 2))) = none) :=
  ⟨0, cmdWith (u16 1 ++ zeros 2), waveState.modGrid 0 (fun g => { g with staged := some planA }), by decide⟩

/-- The premises of `PlanTakesEffectCompletes` hold together. -/
theorem test_planTakesEffect_premises :
    ∃ (t l : Nat) (p : Pend) (q : Plan) (s : State),
      (s.pendOf 0x0202 l = some p) ∧
      ((s.gridOf l).staged = some q) ∧
      ((s.atInstant t).planDue l p ≤ max s.now t) ∧
      ((s.atInstant t).probeChanges l = false) :=
  ⟨5, 0, ⟨0x0202, 0, 1, 0, none, none, [0], zeros 4⟩, planA, { waveState.modGrid 0 (fun g => { g with staged := some planA }) with pend := [⟨0x0202, 0, 1, 0, none, none, [0], zeros 4⟩] }, by decide⟩

/-- The premises of `ProbeChangeCompletes` hold together. -/
theorem test_probeChange_premises :
    ∃ (t l : Nat) (p : Pend) (q : Plan) (s : State),
      (s.pendOf 0x0202 l = some p) ∧
      ((s.gridOf l).staged = some q) ∧
      ((s.atInstant t).planDue l p ≤ max s.now t) ∧
      ((s.atInstant t).probeChanges l = true) :=
  ⟨4 * 50000 * 256, 0, ⟨0x0202, 0, 1, 0, none, none, [0], zeros 4⟩, { planA with tones := [⟨0, 0, 0, 0, 0xFF, 10, 2⟩] }, { runState.modGrid 0 (fun g => { g with staged := some { planA with tones := [⟨0, 0, 0, 0, 0xFF, 10, 2⟩] } }) with pend := [⟨0x0202, 0, 1, 0, none, none, [0], zeros 4⟩] }, by decide⟩

/-- The premises of `PlanTimelineCompletes` hold together. -/
theorem test_planTimeline_premises :
    ∃ (t : Nat) (p : Plan) (c : Cmd) (s : State),
      ((s.atInstant t).admits 0x0203 c = true) ∧
      ((s.atInstant t).badLine (rd c.arg 0 1) = false) ∧
      (rd c.arg 1 1 = 0) ∧
      ((1 ≤ rd c.arg 2 2 ∧ rd c.arg 2 2 ≤ 500)) ∧
      ((s.atInstant t).plan? (rd c.arg 0 1) = some p) ∧
      (p.aligned = true) ∧
      (launchesFrom p.gridTrains (((s.atInstant t).secondWindow (rd c.arg 0 1) p (((s.atInstant t).boundaryOf (rd c.arg 4 8)).getD 0)).2 + cellsPerSecond) (rd c.arg 2 2) (seekLaunch p ((s.atInstant t).secondWindow (rd c.arg 0 1) p (((s.atInstant t).boundaryOf (rd c.arg 4 8)).getD 0)).2 (rd c.arg 12 4)) ≠ []) :=
  ⟨0, planA, cmdWith (u8 0 ++ u8 0 ++ u16 3 ++ u64 0 ++ u32 0), planState, by decide⟩

/-- The premises of `ProbeConfigCompletes` hold together. -/
theorem test_probeConfig_premises :
    ∃ (t : Nat) (c : Cmd) (s : State),
      ((s.atInstant t).admits 0x0204 c = true) ∧
      (rd c.arg 0 1 ≤ 1) ∧
      ((bit (rd c.arg 1 1) 0 = false → -256 ≤ rdS c.arg 2 2 ∧ rdS c.arg 2 2 ≤ 255 ∧ rd c.arg 4 2 ≤ 255)) ∧
      ((s.atInstant t).pendOf 0x0204 (rd c.arg 0 1) = none) ∧
      ((bit (rd c.arg 1 1) 0 = false → (s.atInstant t).probeBusy (rd c.arg 0 1) = false)) :=
  ⟨0, cmdWith (u8 1 ++ u8 0 ++ u16 7 ++ u16 20 ++ zeros 4), readyState, by decide⟩

/-- The premises of `ProbeIdleCodeChangeCompletes` hold together. -/
theorem test_probeIdleCodeChange_premises :
    ∃ (t b : Nat) (p : Pend) (s : State),
      (s.pendOf 0x0204 b = some p) ∧
      (p.applyAt.getD p.accepted ≤ max s.now t) ∧
      ((nth s.probeRun b default).playing = none) :=
  ⟨0, 1, ⟨0x0204, 0, 1, 0, none, none, [1], zeros 6 ++ u32 0x00400080⟩, { readyState with pend := [⟨0x0204, 0, 1, 0, none, none, [1], zeros 6 ++ u32 0x00400080⟩] }, by decide⟩

/-- The premises of `ProbeLoadCompletes` hold together. -/
theorem test_probeLoad_premises :
    ∃ (t : Nat) (c : Cmd) (s : State),
      ((s.atInstant t).admits 0x0205 c = true) ∧
      ((rd c.arg 0 1 ≤ 1 ∧ rd c.arg 1 1 ≤ 63 ∧ rd c.arg 14 2 ≤ 1000)) ∧
      (rd c.arg 2 2 = 3) ∧
      ((rd c.arg 4 4 ≤ 131071 ∧ 4 ≤ rd c.arg 8 4 ∧ rd c.arg 8 4 % 4 = 0 ∧ rd c.arg 4 4 + rd c.arg 8 4 ≤ 131072)) ∧
      (rd c.arg 16 4 + rd c.arg 14 2 ≤ rd c.arg 8 4) ∧
      ((s.atInstant t).slotNamed (rd c.arg 0 1) (rd c.arg 1 1) = false) ∧
      (slotCrc (ssetL 0#32 (nth s.cfg.waves (rd c.arg 0 1) []) (rd c.arg 4 4 + rd c.arg 16 4) (chunkWords c.arg (rd c.arg 14 2))) (rd c.arg 4 4) (rd c.arg 8 4) = rd c.arg 20 4) :=
  ⟨0, cmdWith (u8 0 ++ u8 5 ++ u16 3 ++ u32 0 ++ u32 4 ++ u16 100 ++ u16 4 ++ u32 0 ++ u32 (crc32c (zeros 16)) ++ zeros 16), readyState, by decide⟩

/-- The premises of `PlanGateLimitCompletes` hold together. -/
theorem test_planGateLimit_premises :
    ∃ (t : Nat) (c : Cmd) (s : State),
      ((s.atInstant t).admits 0x0206 c = true) ∧
      (rd c.arg 0 2 ≠ 0) ∧
      ((s.atInstant t).maskEnabled (rd c.arg 0 2) = true) ∧
      ((1 ≤ rd c.arg 2 1 ∧ rd c.arg 2 1 ≤ 100)) ∧
      ((1 ≤ rd c.arg 4 2 ∧ rd c.arg 4 2 ≤ 32768)) :=
  ⟨0, cmdWith (u16 3 ++ u8 50 ++ u8 0 ++ u16 100), readyState, by decide⟩

/-- The premises of `GateLimitTakesEffectCompletes` hold together. -/
theorem test_gateLimitTakesEffect_premises :
    ∃ (t g : Nat) (p : Pend) (s : State),
      (s.pendOf 0x0206 g = some p) ∧
      (s.running g = false) ∧
      (p.applyAt.getD p.accepted ≤ max s.now t) :=
  ⟨0, 1, ⟨0x0206, 0, 1, 0, none, none, [1], u16 2 ++ u8 5 ++ u8 0 ++ u16 9⟩, { readyState with pend := [⟨0x0206, 0, 1, 0, none, none, [1], u16 2 ++ u8 5 ++ u8 0 ++ u16 9⟩] }, by decide⟩

/-- The premises of `PlanSpotCompletes` hold together. -/
theorem test_planSpot_premises :
    ∃ (t x : Nat) (p : Plan) (c : Cmd) (s : State),
      ((s.atInstant t).admits 0x0207 c = true) ∧
      ((s.atInstant t).badLine (rd c.arg 0 1) = false) ∧
      ((s.atInstant t).plan? (rd c.arg 0 1) = some p) ∧
      (rd c.arg 1 1 < p.tones.length) ∧
      (s.emit.level = true) ∧
      (((s.atInstant t).gridOf (rd c.arg 0 1)).spot = none) ∧
      ((s.atInstant t).spotInstant (rd c.arg 0 1) p (rd c.arg 1 1) (c.at_ (s.atInstant t)) false = some x) :=
  ⟨0, 256, planA, cmdWith (zeros 4), planState, by decide⟩

/-- The premises of `SpotLaunchCompletes` hold together. -/
theorem test_spotLaunch_premises :
    ∃ (t l x tone : Nat) (p : Plan) (s : State),
      ((s.gridOf l).spot = some (x, tone)) ∧
      (s.plan? l = some p) ∧
      (x ≤ max s.now t) ∧
      ((s.atInstant t).dark = true) :=
  ⟨256, 0, 256, 0, planA, { planState.modGrid 0 (fun g => { g with spot := some (256, 0) }) with emit := ⟨false, some 0, none, []⟩ }, by decide⟩

/-- The premises of `SpotLaunchGateCompletes` hold together. -/
theorem test_spotLaunchGate_premises :
    ∃ (t l x tone : Nat) (p : Plan) (s : State),
      ((s.gridOf l).spot = some (x, tone)) ∧
      (s.plan? l = some p) ∧
      (x ≤ max s.now t) ∧
      ((s.atInstant t).dark = false) ∧
      (((s.atInstant t).fire l ((s.atInstant t).launchNow l p (.spot tone))).2.gateUntil ≠ 0) :=
  ⟨256, 0, 256, 0, planA, planState.modGrid 0 (fun g => { g with spot := some (256, 0) }), by decide⟩

/-- The premises of `PlanStatusCompletes` hold together. -/
theorem test_planStatus_premises :
    ∃ (t : Nat) (c : Cmd) (s : State),
      ((s.atInstant t).admits 0x0208 c = true) ∧
      ((s.atInstant t).maskEnabled (rd c.arg 0 2) = true) ∧
      (bit (rd c.arg 2 2) 0 = false) :=
  ⟨0, cmdWith (u16 3 ++ zeros 2), readyState, by decide⟩

/-- The premises of `GridLaunchDarkCompletes` hold together. -/
theorem test_gridLaunchDark_premises :
    ∃ (t l : Nat) (p : Plan) (k : LaunchKind) (s : State),
      (s.plan? l = some p) ∧
      ((s.atInstant t).gridAt l p (s.atInstant t).now = some k) ∧
      ((s.atInstant t).running l = true) ∧
      ((s.atInstant t).lineEnabled l = true) ∧
      (((s.gridOf l).lastLaunch = none)) ∧
      ((s.atInstant t).stopInstant l = none) ∧
      ((s.gridOf l).planFrom ≤ max s.now t) ∧
      ((s.atInstant t).dark = true) :=
  ⟨50000 * 256, 0, planA, .tone 0, { runState with emit := ⟨false, some 0, none, []⟩ }, by decide⟩

/-- The premises of `GridLaunchCompletes` hold together. -/
theorem test_gridLaunch_premises :
    ∃ (t l : Nat) (p : Plan) (k : LaunchKind) (s : State),
      (s.plan? l = some p) ∧
      ((s.atInstant t).gridAt l p (s.atInstant t).now = some k) ∧
      ((s.atInstant t).running l = true) ∧
      ((s.atInstant t).lineEnabled l = true) ∧
      (((s.gridOf l).lastLaunch = none)) ∧
      ((s.atInstant t).stopInstant l = none) ∧
      ((s.gridOf l).planFrom ≤ max s.now t) ∧
      ((s.atInstant t).dark = false) ∧
      (((s.atInstant t).fire l ((s.atInstant t).launchNow l p k)).2.gateUntil ≠ 0) :=
  ⟨50000 * 256, 0, planA, .tone 0, runState, by decide⟩

/-- The premises of `DutyTruncatedCompletes` hold together. -/
theorem test_dutyTruncated_premises :
    ∃ (t l x reached : Nat) (s : State),
      ((nth s.gateRun l default).truncs = [(x, reached)]) ∧
      (x ≤ max s.now t) :=
  ⟨256, 2, 256, 7, { readyState with gateRun := upd readyState.gateRun 2 (fun g => { g with truncs := [(256, 7)] }) }, by decide⟩

/-- The premises of `EmitPermitFallCompletes` hold together. -/
theorem test_emitPermitFall_premises :
    ∃ (t : Nat) (s : State),
      (s.emit.level = true) :=
  ⟨0, { readyState with gateRun := upd readyState.gateRun 2 (fun g => { g with openSince := some 0, openUntil := 100000 }) }, by decide⟩

/-- The premises of `EmitPermitRiseCompletes` hold together. -/
theorem test_emitPermitRise_premises :
    ∃ (t : Nat) (s : State),
      (s.emit.level = false) :=
  ⟨0, State.reset, by decide⟩

/-- The premises of `EmitQualifiedCompletes` hold together. -/
theorem test_emitQualified_premises :
    ∃ (t q : Nat) (s : State),
      (s.emit.level = true) ∧
      (s.emit.qualifyFrom = some q) ∧
      (q + 10 * ticksPerUs ≤ max s.now t) ∧
      ((s.atInstant t).canReport = true) :=
  ⟨12800000, 0, { readyState with emit := ⟨true, some 0, some 0, []⟩ }, by decide⟩

/-- The premises of `LaneWordReleaseCompletes` hold together. -/
theorem test_laneWordRelease_premises :
    ∃ (t q role : Nat) (vNv : Int) (s : State),
      ((s.atInstant t).quadEnabled q = true) ∧
      (role ≤ 4) ∧
      (768 * ticksPerCell ≤ max s.now t) ∧
      (s.pwr.st < 2) ∧
      (q < s.quads.length) ∧
      ((s.quadOf q).words.length = 5) :=
  ⟨1000000, 3, 1, 5000000, readyState.modQuad 3 (fun r => { r with ready := some 0 }), by decide⟩

/-- The premises of `MonitorBlockEndPassCompletes` hold together. -/
theorem test_monitorBlockEndPass_premises :
    ∃ (t q r a b c d : Nat) (s : State),
      (q < 16) ∧
      (q < s.quads.length) ∧
      ((s.quadOf q).inputs.length = 4) ∧
      ((s.quadOf q).ready = some r) ∧
      (r + blockTicks ≤ (s.atInstant t).blockFloor (s.atInstant t).now) ∧
      (s.pwr.st < 2) ∧
      (((s.quadOf q).roleConv 0).isSome = true) ∧
      (((s.atInstant t).windowFor q 0 ((s.atInstant t).blockFloor (s.atInstant t).now - blockTicks)).1 ≤ a) ∧
      (a ≤ ((s.atInstant t).windowFor q 0 ((s.atInstant t).blockFloor (s.atInstant t).now - blockTicks)).2) ∧
      (((s.quadOf q).inputOf 0).fault = none) :=
  ⟨65536, 3, 0, 900, 900, 900, 900, readyState.modQuad 3 (fun r => { r with ready := some 0 }), by decide⟩

/-- The premises of `MonitorBlockEndFailCompletes` hold together. -/
theorem test_monitorBlockEndFail_premises :
    ∃ (t q r a b c d : Nat) (s : State),
      (q < 16) ∧
      (q < s.quads.length) ∧
      ((s.quadOf q).inputs.length = 4) ∧
      ((s.quadOf q).ready = some r) ∧
      (r + blockTicks ≤ (s.atInstant t).blockFloor (s.atInstant t).now) ∧
      (s.pwr.st < 2) ∧
      (((s.quadOf q).roleConv 0).isSome = true) ∧
      (((s.atInstant t).windowFor q 0 ((s.atInstant t).blockFloor (s.atInstant t).now - blockTicks)).2 < a) ∧
      (((s.atInstant t).windowFor q 0 ((s.atInstant t).blockFloor (s.atInstant t).now - blockTicks)).1 ≤ ((s.atInstant t).windowFor q 0 ((s.atInstant t).blockFloor (s.atInstant t).now - blockTicks)).2) ∧
      (((s.quadOf q).inputOf 0).fault = none) :=
  ⟨65536, 3, 0, 1900, 900, 900, 900, readyState.modQuad 3 (fun r => { r with ready := some 0 }), by decide⟩

/-- The premises of `QuadWakeCompletes` hold together. -/
theorem test_quadWake_premises :
    ∃ (t q d : Nat) (s : State),
      (q < 16) ∧
      (q < s.quads.length) ∧
      ((s.atInstant t).quadEnabled q = true) ∧
      (s.pwr.st < 2) ∧
      ((s.quadOf q).ready = none) ∧
      ((s.atInstant t).nextDeckle q (s.atInstant t).now = some d) ∧
      ((s.atInstant t).readyFor d ≤ (s.atInstant t).now + wakeTicks) :=
  ⟨0, 0, 0, runState, by decide⟩

/-- The premises of `QuadPowerDownCompletes` hold together. -/
theorem test_quadPowerDown_premises :
    ∃ (t q : Nat) (s : State),
      (q < 16) ∧
      ((s.atInstant t).quadState q = 2) ∧
      ((s.atInstant t).mayPowerDown q ((s.atInstant t).blockFloor (s.atInstant t).now) = true) :=
  ⟨65536, 3, readyState.modQuad 3 (fun r => { r with ready := some 0 }), by decide⟩

/-- The premises of `QuadPowerDownReferenceCompletes` hold together. -/
theorem test_quadPowerDownReference_premises :
    ∃ (t : Nat) (s : State),
      ((s.atInstant t).quadState 16 = 2) ∧
      ((s.quadOf 16).held = false) ∧
      ((∀ l < 16, (s.atInstant t).lineEnabled l = true → (s.atInstant t).quadState l = 0 ∧ (s.quadOf l).held = false ∧ (s.atInstant t).nextDeckle l ((s.atInstant t).blockFloor (s.atInstant t).now) = none)) :=
  ⟨65536, readyState.modQuad 16 (fun r => { r with ready := some 0 }), by decide⟩

/-- The premises of `RxConfigCompletes` hold together. -/
theorem test_rxConfig_premises :
    ∃ (t : Nat) (c : Cmd) (s : State),
      ((s.atInstant t).admits 0x0301 c = true) ∧
      ((s.atInstant t).quadEnabled (rd c.arg 0 1) = true) ∧
      (rd c.arg 1 1 ≤ 5) ∧
      ((rd c.arg 0 1 < 16 → rd c.arg 2 1 = 0)) ∧
      ((∀ i < 4, windowOk c.arg i = true)) ∧
      ((s.atInstant t).pendOf 0x0301 (rd c.arg 0 1) = none) :=
  ⟨0, cmdWith (u8 2 ++ u8 1 ++ zeros 2 ++ (List.range 4).flatMap (fun _ => u16 700 ++ u16 1100)), readyState, by decide⟩

/-- The premises of `RxConfigTakesEffectCompletes` hold together. -/
theorem test_rxConfigTakesEffect_premises :
    ∃ (t q : Nat) (p : Pend) (s : State),
      (s.pendOf 0x0301 q = some p) ∧
      ((s.atInstant t).rxDue q p ≤ max s.now t) :=
  ⟨0, 2, ⟨0x0301, 0, 1, 0, none, none, [2], u8 2 ++ u8 3 ++ zeros 2 ++ (List.range 4).flatMap (fun _ => u16 700 ++ u16 1100)⟩, { readyState with pend := [⟨0x0301, 0, 1, 0, none, none, [2], u8 2 ++ u8 3 ++ zeros 2 ++ (List.range 4).flatMap (fun _ => u16 700 ++ u16 1100)⟩] }, by decide⟩

/-- The premises of `RxRefConfigCompletes` hold together. -/
theorem test_rxRefConfig_premises :
    ∃ (t : Nat) (c : Cmd) (s : State),
      ((s.atInstant t).admits 0x0302 c = true) ∧
      ((16384 ≤ rd c.arg 0 4 ∧ rd c.arg 0 4 ≤ 2097152)) ∧
      ((∀ l < 16, (s.atInstant t).running l = false)) :=
  ⟨0, cmdWith (u32 20000 ++ zeros 4), readyState, by decide⟩

/-- The premises of `RxHoldCompletes` hold together. -/
theorem test_rxHold_premises :
    ∃ (t q : Nat) (c : Cmd) (s : State),
      ((s.atInstant t).admits 0x0303 c = true) ∧
      (rd c.arg 0 4 < 131072) ∧
      ((∀ q < 17, bit (rd c.arg 0 4) q = true → (s.atInstant t).quadEnabled q = true)) ∧
      (q < s.quads.length) ∧
      (q < 17) :=
  ⟨0, 3, cmdWith (u32 8), readyState, by decide⟩

/-- The premises of `RxStatusCompletes` hold together. -/
theorem test_rxStatus_premises :
    ∃ (t : Nat) (c : Cmd) (s : State),
      ((s.atInstant t).admits 0x0304 c = true) ∧
      ((s.atInstant t).quadEnabled (rd c.arg 0 1) = true) :=
  ⟨0, cmdWith (u8 3 ++ u8 1 ++ zeros 2), readyState, by decide⟩

/-- The premises of `CalBlockGatheredCompletes` hold together. -/
theorem test_calBlockGathered_premises :
    ∃ (t q j i : Nat) (blk : List GathCell) (b : CalBlock) (s : State),
      (nth (s.quadOf q).convs j default = ⟨some i, false⟩) ∧
      ((s.atInstant t).quadEnabled q = true) ∧
      ((q = 16 → i < 2)) ∧
      ((s.atInstant t).gatheredBlock q j = some blk) ∧
      (calFails q (measure ((s.atInstant t).quadDecim q) i j blk) = []) ∧
      ((s.atInstant t).convHeld q j true = false) ∧
      ((s.calOf q).phase ≠ 4) ∧
      (s.cfg.conv.length = 510) ∧
      ((q < 17 ∧ j < 5 ∧ (s.quadCfg q).gain < 6)) ∧
      ((s.atInstant t).serviceable q = [0, 1, 2, 3, 4]) :=
  ⟨0, 16, 0, 0, blockA, ⟨[1, 2, 3, 4], [32768, 32768, 32768, 32768], [0, 0, 0, 0], 0, 32768, 0, 0⟩, gathState blockA, by decide, by decide, by decide, gath_block blockA (by simp [blockA, -List.reduceReplicate]) blockA_offers, gath_passes, by decide, by decide, by decide, by decide, by decide⟩

/-- The premises of `CalBlockFailsCompletes` hold together. -/
theorem test_calBlockFails_premises :
    ∃ (t q j i e : Nat) (v : Int) (rest : List (Nat × Int)) (k : Bool) (blk : List GathCell) (b : CalBlock) (s : State),
      (nth (s.quadOf q).convs j default = ⟨some i, k⟩) ∧
      ((s.atInstant t).quadEnabled q = true) ∧
      ((q = 16 → i < 2)) ∧
      ((s.atInstant t).gatheredBlock q j = some blk) ∧
      (calFails q (measure ((s.atInstant t).quadDecim q) i j blk) = (e, v) :: rest) ∧
      (q < s.cal.quads.length) ∧
      ((s.atInstant t).canReport = true) :=
  ⟨0, 16, 0, 0, 4, 0, gath_fails.choose, false, blockZ, default, gathState blockZ, by decide, by decide, by decide, gath_block blockZ (by simp [blockZ, -List.reduceReplicate]) blockZ_offers, gath_fails.choose_spec, by decide, by decide⟩

/-- The premises of `CalBlockNotWholeCompletes` hold together. -/
theorem test_calBlockNotWhole_premises :
    ∃ (t q j i : Nat) (k : Bool) (b : CalBlock) (s : State),
      (nth (s.quadOf q).convs j default = ⟨some i, k⟩) ∧
      ((s.atInstant t).gatheredBlock q j = none) :=
  ⟨0, 3, 1, 1, false, default, readyState, by decide⟩

/-- The premises of `HandoverCompletes` hold together. -/
theorem test_handover_premises :
    ∃ (t q d j i h old : Nat) (s : State),
      ((s.calOf q).dueAt = some d) ∧
      ((s.calOf q).spare = some j) ∧
      ((s.calOf q).input = some i) ∧
      ((s.calOf q).recheck = false) ∧
      ((s.atInstant t).handoverInstant q d = some h) ∧
      (h ≤ max s.now t) ∧
      ((s.atInstant t).hostFirst q h = false) ∧
      ((s.quadOf q).roleConv i = some old) :=
  ⟨65536 * 2, 16, 0, 4, 1, 65536, 1, { readyState with cal := { readyState.cal with quads := upd readyState.cal.quads 16 (fun k => { k with dueAt := some 0, spare := some 4, input := some 1, phase := 1 }) } }, by decide⟩

/-- The premises of `OverlapEndCompletes` hold together. -/
theorem test_overlapEnd_premises :
    ∃ (t q j : Nat) (s : State),
      ((s.calOf q).phase = 2) ∧
      ((s.atInstant t).overlapping q = false) ∧
      ((s.calOf q).spare = some j) ∧
      ((s.calOf q).erring = none) :=
  ⟨0, 3, 1, { readyState with cal := { readyState.cal with quads := upd readyState.cal.quads 3 (fun k => { k with spare := some 1, phase := 2 }) } }, by decide⟩

/-- The premises of `RotationMoveReadyCompletes` hold together. -/
theorem test_rotationMoveReady_premises :
    ∃ (t q j i x : Nat) (s : State),
      ((s.calOf q).movingUntil = some x) ∧
      ((s.calOf q).spare = some j) ∧
      ((s.calOf q).input = some i) ∧
      (x ≤ max s.now t) :=
  ⟨256000, 3, 4, 0, 256000, { readyState with cal := { readyState.cal with quads := upd readyState.cal.quads 3 (fun k => { k with movingUntil := some 256000, input := some 0 }) } }, by decide⟩

/-- The premises of `CalStaleCompletes` hold together. -/
theorem test_calStale_premises :
    ∃ (t q i : Nat) (s : State),
      ((s.atInstant t).quadEnabled q = true) ∧
      (i < 4) ∧
      ((s.calCfg q).staleS < (s.atInstant t).calAge q i) ∧
      ((nth (s.calOf q).stale i false) = false) ∧
      ((s.atInstant t).quadUsed q = true) ∧
      ((s.atInstant t).canReport = true) :=
  ⟨128000000000 * 5000, 0, 2, planState, by decide⟩

/-- The premises of `CalConfigCompletes` hold together. -/
theorem test_calConfig_premises :
    ∃ (t q : Nat) (c : Cmd) (s : State),
      ((s.atInstant t).admits 0x0305 c = true) ∧
      ((rd c.arg 0 4 ≠ 0 ∧ rd c.arg 0 4 < 131072)) ∧
      ((∀ q ∈ maskList 17 (rd c.arg 0 4), (s.atInstant t).quadEnabled q = true)) ∧
      ((40 ≤ rd c.arg 5 1 ∧ rd c.arg 5 1 ≤ 60)) ∧
      ((10 ≤ rd c.arg 6 2 ∧ rd c.arg 6 2 ≤ 3600)) ∧
      (s.cfg.cal.length = 17) ∧
      (q ∈ maskList 17 (rd c.arg 0 4)) :=
  ⟨0, 3, cmdWith (u32 8 ++ u8 1 ++ u8 45 ++ u16 60), readyState, by decide⟩

/-- The premises of `CalStatusCompletes` hold together. -/
theorem test_calStatus_premises :
    ∃ (t : Nat) (c : Cmd) (s : State),
      ((s.atInstant t).admits 0x0306 c = true) ∧
      ((s.atInstant t).quadEnabled (rd c.arg 0 1) = true) :=
  ⟨0, cmdWith (u8 3 ++ u8 1 ++ zeros 2), readyState, by decide⟩

/-- The premises of `CalReadCompletes` hold together. -/
theorem test_calRead_premises :
    ∃ (t : Nat) (v : ConvSet) (m : SetMark) (c : Cmd) (s : State),
      ((s.atInstant t).admits 0x0307 c = true) ∧
      ((s.atInstant t).quadEnabled (rd c.arg 0 1) = true) ∧
      (rd c.arg 2 1 ≤ 5) ∧
      (rd c.arg 1 1 ≤ 4) ∧
      (s.convSet (rd c.arg 0 1) (rd c.arg 1 1) (rd c.arg 2 1) = v) ∧
      (s.convMark (rd c.arg 0 1) (rd c.arg 1 1) (rd c.arg 2 1) = m) :=
  ⟨0, readyState.convSet 3 1 2, readyState.convMark 3 1 2, cmdWith (u8 3 ++ u8 1 ++ u8 2 ++ u8 0), readyState, by decide⟩

/-- The premises of `CalReadPairCompletes` hold together. -/
theorem test_calReadPair_premises :
    ∃ (t : Nat) (v : PairSet) (m : SetMark) (c : Cmd) (s : State),
      ((s.atInstant t).admits 0x0307 c = true) ∧
      ((s.atInstant t).quadEnabled (rd c.arg 0 1) = true) ∧
      (rd c.arg 2 1 ≤ 5) ∧
      ((rd c.arg 1 1 = 8 ∨ (rd c.arg 1 1 = 9 ∧ rd c.arg 0 1 < 16))) ∧
      (s.pairSet (rd c.arg 0 1) (rd c.arg 1 1 - 8) (rd c.arg 2 1) = v) ∧
      (s.pairMark (rd c.arg 0 1) (rd c.arg 1 1 - 8) (rd c.arg 2 1) = m) :=
  ⟨0, readyState.pairSet 3 1 2, readyState.pairMark 3 1 2, cmdWith (u8 3 ++ u8 9 ++ u8 2 ++ u8 0), readyState, by decide⟩

/-- The premises of `SheetCompleteCompletes` hold together. -/
theorem test_sheetComplete_premises :
    ∃ (t l k : Nat) (e : Launch) (i : SheetInput) (s : State),
      ((s.atInstant t).completing l i.launch = some e) ∧
      (e.kind = .tone k) ∧
      ((e.plan.tone k).cls ≠ 2) ∧
      ((s.feltOf l).formatted = true) ∧
      ((s.feltOf l).fsn % 32 ≠ 0) ∧
      (l < s.felt.length) ∧
      (l < s.lines.length) :=
  ⟨ticksPerMs, 0, 0, launchS 0, ⟨0, []⟩, feltState.modGrid 0 (fun g => { g with inFlight := [launchS 0] }), by decide⟩

/-- The premises of `LineSparedCompletes` hold together. -/
theorem test_lineSpared_premises :
    ∃ (t l : Nat) (b : Bool) (s : State),
      (l < 16) ∧
      ((s.lineOf l).engine = l) ∧
      ((s.hUnit kindLine l).due.isSome = true) ∧
      ((s.hUnit kindLine 16).st = 1) ∧
      ((s.hUnit kindLine 16).due = none) ∧
      ((s.atInstant t).running l = false) ∧
      ((s.pwr.st = 1 → (s.hUnit kindLine l).moveSince + 20 * ticksPerUs ≤ max s.now t)) ∧
      (17 ≤ (nth s.health.units kindLine []).length) :=
  ⟨0, 3, true, readyState.modHUnit kindLine 3 (fun u => { u with due := some (2, false) }), by decide⟩

/-- The premises of `LineUnsparedCompletes` hold together. -/
theorem test_lineUnspared_premises :
    ∃ (t l : Nat) (s : State),
      ((s.lineOf l).returnDue = true) ∧
      ((s.atInstant t).running l = false) :=
  ⟨0, 3, readyState.modLine 3 (fun r => { r with engine := 16, returnDue := true }), by decide⟩

/-- The premises of `LineConfigCompletes` hold together. -/
theorem test_lineConfig_premises :
    ∃ (t : Nat) (c : Cmd) (s : State),
      ((s.atInstant t).admits 0x0401 c = true) ∧
      ((s.atInstant t).badLine (rd c.arg 0 1) = false) ∧
      (lineCfgOk (readLineCfg c.arg) = true) ∧
      ((s.atInstant t).pendOf 0x0401 (rd c.arg 0 1) = none) :=
  ⟨0, cmdWith (u8 3 ++ u8 1 ++ u8 0 ++ u8 64 ++ u32 0 ++ u8 8 ++ u8 4 ++ u8 10 ++ u8 0 ++ u16 32 ++ u16 0), readyState, by decide⟩

/-- The premises of `LineConfigTakesEffectCompletes` hold together. -/
theorem test_lineConfigTakesEffect_premises :
    ∃ (t l : Nat) (p : Pend) (s : State),
      (s.pendOf 0x0401 l = some p) ∧
      ((s.atInstant t).lineCfgDue l p ≤ max s.now t) :=
  ⟨0, 3, ⟨0x0401, 0, 1, 0, none, none, [3], u8 3 ++ zeros 15⟩, { readyState with pend := [⟨0x0401, 0, 1, 0, none, none, [3], u8 3 ++ zeros 15⟩] }, by decide⟩

/-- The premises of `LineStartCompletes` hold together. -/
theorem test_lineStart_premises :
    ∃ (t l : Nat) (c : Cmd) (s : State),
      ((s.atInstant t).admits 0x0402 c = true) ∧
      (rd c.arg 0 2 ≠ 0) ∧
      ((s.atInstant t).maskEnabled (rd c.arg 0 2) = true) ∧
      (rd c.arg 2 1 = 0) ∧
      ((∀ l ∈ maskList 16 (rd c.arg 0 2), (s.atInstant t).lineBusy l = false ∧ ((s.atInstant t).plan? l).isSome = true ∧ ((s.atInstant t).lineOf l).st = 0 ∧ (s.atInstant t).lineLacksSpare l = false)) ∧
      (s.cfg.refDelay ≠ 0) ∧
      (s.mem.available = true) ∧
      (l ∈ maskList 16 (rd c.arg 0 2)) ∧
      (l < s.lines.length) :=
  ⟨0, 0, cmdWith (u16 1 ++ zeros 2), planState.modCfg (fun g => { g with refDelay := 20000 }), by decide⟩

/-- The premises of `LineStartedCompletes` hold together. -/
theorem test_lineStarted_premises :
    ∃ (t l x : Nat) (p : Pend) (s : State),
      ((s.lineOf l).st = 1) ∧
      (s.pendOf 0x0402 l = some p) ∧
      ((s.atInstant t).startInstant l p = some x) ∧
      (x ≤ max s.now t) ∧
      (l < s.lines.length) :=
  ⟨0, 0, 0, ⟨0x0402, 0, 1, 0, none, none, [0], u16 1 ++ zeros 2⟩, { planState.modLine 0 (fun r => { r with st := 1 }) with pend := [⟨0x0402, 0, 1, 0, none, none, [0], u16 1 ++ zeros 2⟩] }, by decide⟩

/-- The premises of `LineStopCompletes` hold together. -/
theorem test_lineStop_premises :
    ∃ (t l : Nat) (c : Cmd) (s : State),
      ((s.atInstant t).admits 0x0403 c = true) ∧
      (rd c.arg 0 2 ≠ 0) ∧
      ((s.atInstant t).maskEnabled (rd c.arg 0 2) = true) ∧
      (rd c.arg 2 1 ≤ 1) ∧
      ((∀ l ∈ maskList 16 (rd c.arg 0 2), (s.atInstant t).lineBusy l = false ∧ ((s.atInstant t).lineOf l).st = 2)) ∧
      (l ∈ maskList 16 (rd c.arg 0 2)) ∧
      (l < s.lines.length) :=
  ⟨0, 0, cmdWith (u16 1 ++ zeros 2), runState, by decide⟩

/-- The premises of `LineStopBoundaryCompletes` hold together. -/
theorem test_lineStopBoundary_premises :
    ∃ (t l x : Nat) (p : Pend) (s : State),
      ((s.lineOf l).stop = none) ∧
      (s.pendOf 0x0403 l = some p) ∧
      ((s.atInstant t).stopInstant l = some x) ∧
      (x ≤ max s.now t) ∧
      (l < s.lines.length) :=
  ⟨50000 * 256, 0, 0, ⟨0x0403, 0, 1, 0, none, none, [0], u16 1 ++ u8 1 ++ zeros 1⟩, { runState.modGrid 0 (fun g => { g with inFlight := [launchS 0] }) with pend := [⟨0x0403, 0, 1, 0, none, none, [0], u16 1 ++ u8 1 ++ zeros 1⟩] }, by decide⟩

/-- The premises of `LineStoppedCompletes` hold together. -/
theorem test_lineStopped_premises :
    ∃ (t l : Nat) (r : StopRun) (s : State),
      ((s.lineOf l).stop = some r) ∧
      ((s.atInstant t).engineDrained l = true) ∧
      (s.pwr.pend = none) ∧
      (s.sys.shutdown = none) ∧
      ((s.atInstant t).canReport = true) :=
  ⟨50000 * 256, 0, ⟨false, 0, 0⟩, runState.modLine 0 (fun r => { r with st := 3, stop := some ⟨false, 0, 0⟩ }), by decide⟩

/-- The premises of `LineStatusCompletes` hold together. -/
theorem test_lineStatus_premises :
    ∃ (t : Nat) (c : Cmd) (s : State),
      ((s.atInstant t).admits 0x0404 c = true) ∧
      ((s.atInstant t).badLine (rd c.arg 0 1) = false) :=
  ⟨0, cmdWith (u8 3 ++ u8 1 ++ zeros 2), readyState, by decide⟩

/-- The premises of `LineReadStateCompletes` hold together. -/
theorem test_lineReadState_premises :
    ∃ (t : Nat) (p : Plan) (c : Cmd) (s : State),
      ((s.atInstant t).admits 0x0405 c = true) ∧
      ((s.atInstant t).badLine (rd c.arg 0 1) = false) ∧
      ((s.atInstant t).plan? (rd c.arg 0 1) = some p) ∧
      ((1 ≤ rd c.arg 2 2 * p.tones.length ∧ rd c.arg 2 2 * p.tones.length ≤ 500)) ∧
      (rd c.arg 4 4 + rd c.arg 2 2 ≤ p.points) :=
  ⟨0, planA, cmdWith (u8 0 ++ u8 0 ++ u16 3 ++ u32 5), planState, by decide⟩

/-- The premises of `FeltQuireBeginCompletes` hold together. -/
theorem test_feltQuireBegin_premises :
    ∃ (t l : Nat) (s : State),
      ((s.atInstant t).sheetDue l = true) ∧
      ((s.feltOf l).atBoundary = true) ∧
      (s.pendOf 0x0501 l = none) ∧
      (s.pendOf 0x0504 l = none) ∧
      (s.pendOf 0x0505 l = none) ∧
      (l < s.felt.length) :=
  ⟨ticksPerMs, 0, (quireState.modGrid 0 (fun g => { g with inFlight := [launchS 0] })), by decide⟩

/-- The premises of `QuireCompleteCompletes` hold together. -/
theorem test_quireComplete_premises :
    ∃ (t l : Nat) (a b : FeltRow) (s : State),
      ((s.feltOf l).fsn % 32 = 0) ∧
      (0 < (s.feltOf l).fsn) ∧
      (((s.feltOf l).quireRows ((s.feltOf l).fsn / 32 - 1)).length = 32) ∧
      (((s.feltOf l).quireRows ((s.feltOf l).fsn / 32 - 1)).head? = some a) ∧
      (((s.feltOf l).quireRows ((s.feltOf l).fsn / 32 - 1)).getLast? = some b) ∧
      ((s.slowCfg l).started = true) ∧
      ((s.atInstant t).slowStopping l = false) ∧
      ((∀ j ∈ (s.slowOf l).queue, j.quire ≠ (s.feltOf l).fsn / 32 - 1)) :=
  ⟨5, 0, ⟨0, 0, zeros 32, List.replicate 16 4#32, false, 0⟩, ⟨31, 0, zeros 32, List.replicate 16 4#32, false, 0⟩, quireState, by decide⟩

/-- The premises of `SlowQuireReleasedCompletes` hold together. -/
theorem test_slowQuireReleased_premises :
    ∃ (t l : Nat) (j : QuireJob) (rest : List QuireJob) (s : State),
      ((s.slowOf l).queue = j :: rest) ∧
      ((s.feltOf l).oldest ≤ 32 * j.quire) ∧
      ((s.atInstant t).slowJobsLeft l j.quire = false) ∧
      (s.pwr.pend = none) ∧
      (s.sys.shutdown = none) ∧
      (l < s.slow.length) :=
  ⟨5, 0, ⟨0, 0, 0, 0#96, 0#96⟩, [], quireState.modSlow 0 (fun r => { r with queue := [⟨0, 0, 0, 0#96, 0#96⟩] }), by decide⟩

/-- The premises of `SlowOverrunCompletes` hold together. -/
theorem test_slowOverrun_premises :
    ∃ (t l : Nat) (j : QuireJob) (rest : List QuireJob) (s : State),
      ((s.slowOf l).queue = j :: rest) ∧
      (32 * j.quire < (s.feltOf l).oldest) ∧
      (s.pwr.pend = none) ∧
      (s.sys.shutdown = none) ∧
      ((s.atInstant t).canReport = true) :=
  ⟨5, 0, ⟨0, 0, 0, 0#96, 0#96⟩, [], (quireState.modSlow 0 (fun r => { r with queue := [⟨0, 0, 0, 0#96, 0#96⟩] })).modFelt 0 (fun f => { f with oldest := 32 }), by decide⟩

/-- The premises of `FeltResizeCompletes` hold together. -/
theorem test_feltResize_premises :
    ∃ (t : Nat) (c : Cmd) (s : State),
      ((s.atInstant t).admits 0x0501 c = true) ∧
      (rd c.arg 0 2 ≠ 0) ∧
      ((s.atInstant t).maskEnabled (rd c.arg 0 2) = true) ∧
      ((∀ l ∈ maskList 16 (rd c.arg 0 2), resizeParts c.arg l ≤ 1024 ∧ rd c.arg (6 + 4 * l) 1 ≤ 1 ∧ (s.atInstant t).pendOf 0x0501 l = none ∧ resizeHalf c.arg l = ((s.atInstant t).feltCfg l).half)) ∧
      (((s.atInstant t).enabledLines.map (fun l => (nth (resizedFelt (s.atInstant t).pendingFelt c.arg (maskList 16 (rd c.arg 0 2))) l ⟨64, false⟩).parts)).sum ≤ 1024) ∧
      ((bit (rd c.arg 2 1) 0 = true ∨ ∀ l ∈ maskList 16 (rd c.arg 0 2), (s.atInstant t).resizeInUse c.arg (resizedFelt (s.atInstant t).pendingFelt c.arg (maskList 16 (rd c.arg 0 2))) l = false)) ∧
      ((s.atInstant t).sharesOk (resizedFelt (s.atInstant t).pendingFelt c.arg (maskList 16 (rd c.arg 0 2))) (s.atInstant t).pendingSlow = true) :=
  ⟨0, cmdWith (u16 1 ++ u8 1 ++ u8 0 ++ u16 60 ++ zeros 62), readyState, by decide⟩

/-- The premises of `FeltResizeFormatCompletes` hold together. -/
theorem test_feltResizeFormat_premises :
    ∃ (t l : Nat) (c : Cmd) (s : State),
      ((s.atInstant t).admits 0x0501 c = true) ∧
      (l < 16) ∧
      (rd c.arg 0 2 = 2 ^ l) ∧
      ((s.atInstant t).maskEnabled (rd c.arg 0 2) = true) ∧
      ((resizeParts c.arg l ≤ 1024 ∧ rd c.arg (6 + 4 * l) 1 ≤ 1)) ∧
      ((s.atInstant t).pendOf 0x0501 l = none) ∧
      (resizeHalf c.arg l ≠ ((s.atInstant t).feltCfg l).half) ∧
      (((s.atInstant t).lineOf l).st = 0) ∧
      (((s.atInstant t).enabledLines.map (fun k => (nth (resizedFelt (s.atInstant t).pendingFelt c.arg [l]) k ⟨64, false⟩).parts)).sum ≤ 1024) ∧
      ((bit (rd c.arg 2 1) 0 = true ∨ (s.feltOf l).anyUse = false)) ∧
      ((s.atInstant t).sharesOk (resizedFelt (s.atInstant t).pendingFelt c.arg [l]) (s.atInstant t).pendingSlow = true) ∧
      (s.felt.length = 16) :=
  ⟨0, 0, cmdWith (u16 1 ++ u8 1 ++ u8 0 ++ u16 60 ++ u8 1 ++ zeros 61), readyState, by decide⟩

/-- The premises of `FeltResizeTakesEffectCompletes` hold together. -/
theorem test_feltResizeTakesEffect_premises :
    ∃ (t l : Nat) (p : Pend) (s : State),
      (s.pendOf 0x0501 l = some p) ∧
      (p.applyAt.getD p.accepted ≤ max s.now t) ∧
      ((s.atInstant t).running l = false) :=
  ⟨5, 1, ⟨0x0501, 0, 1, 0, none, none, [1], u16 2 ++ zeros 6 ++ u16 50 ++ zeros 58⟩, { readyState with pend := [⟨0x0501, 0, 1, 0, none, none, [1], u16 2 ++ zeros 6 ++ u16 50 ++ zeros 58⟩] }, by decide⟩

/-- The premises of `FeltReaderOpenCompletes` hold together. -/
theorem test_feltReaderOpen_premises :
    ∃ (t x : Nat) (c : Cmd) (s : State),
      ((s.atInstant t).admits 0x0502 c = true) ∧
      ((s.atInstant t).badLine (rd c.arg 0 1) = false) ∧
      (rd c.arg 1 1 ≤ 15) ∧
      (rd c.arg 2 1 ≤ 2) ∧
      (nth ((s.atInstant t).feltOf (rd c.arg 0 1)).readers (rd c.arg 1 1) none = none) ∧
      (x = (if rd c.arg 2 1 = 0 then ((s.atInstant t).feltOf (rd c.arg 0 1)).oldest else if rd c.arg 2 1 = 1 then ((s.atInstant t).feltOf (rd c.arg 0 1)).newestQuire else rd c.arg 4 8)) ∧
      (((s.atInstant t).feltOf (rd c.arg 0 1)).oldest ≤ x) ∧
      (x ≤ ((s.atInstant t).feltOf (rd c.arg 0 1)).fsn) ∧
      ((s.atInstant t).shrinkBound (rd c.arg 0 1) ≤ x) :=
  ⟨5, 0, cmdWith (u8 0 ++ u8 4 ++ zeros 10), feltState, by decide⟩

/-- The premises of `FeltReaderMoveCompletes` hold together. -/
theorem test_feltReaderMove_premises :
    ∃ (t x y : Nat) (c : Cmd) (s : State),
      ((s.atInstant t).admits 0x0502 c = true) ∧
      ((s.atInstant t).badLine (rd c.arg 0 1) = false) ∧
      (rd c.arg 1 1 ≤ 15) ∧
      (rd c.arg 2 1 = 3) ∧
      (nth ((s.atInstant t).feltOf (rd c.arg 0 1)).readers (rd c.arg 1 1) none = some y) ∧
      (x = rd c.arg 4 8) ∧
      (((s.atInstant t).feltOf (rd c.arg 0 1)).oldest ≤ x) ∧
      (x ≤ ((s.atInstant t).feltOf (rd c.arg 0 1)).fsn) ∧
      ((s.atInstant t).shrinkBound (rd c.arg 0 1) ≤ x) :=
  ⟨5, 1, 0, cmdWith (u8 0 ++ u8 4 ++ u8 3 ++ u8 0 ++ u64 1), feltState.modFelt 0 (fun f => { f with readers := f.readers.set 4 (some 0) }), by decide⟩

/-- The premises of `FeltReaderCloseCompletes` hold together. -/
theorem test_feltReaderClose_premises :
    ∃ (t y : Nat) (c : Cmd) (s : State),
      ((s.atInstant t).admits 0x0502 c = true) ∧
      ((s.atInstant t).badLine (rd c.arg 0 1) = false) ∧
      (rd c.arg 1 1 ≤ 15) ∧
      (rd c.arg 2 1 = 4) ∧
      (nth ((s.atInstant t).feltOf (rd c.arg 0 1)).readers (rd c.arg 1 1) none = some y) ∧
      ((s.atInstant t).readerAttached (rd c.arg 0 1) (rd c.arg 1 1) = false) :=
  ⟨5, 0, cmdWith (u8 0 ++ u8 4 ++ u8 4 ++ u8 0 ++ u64 0), feltState.modFelt 0 (fun f => { f with readers := f.readers.set 4 (some 0) }), by decide⟩

/-- The premises of `FeltStatusCompletes` hold together. -/
theorem test_feltStatus_premises :
    ∃ (t : Nat) (c : Cmd) (s : State),
      ((s.atInstant t).admits 0x0503 c = true) ∧
      ((s.atInstant t).badLine (rd c.arg 0 1) = false) :=
  ⟨0, cmdWith (u8 0 ++ u8 1 ++ zeros 2), feltState, by decide⟩

/-- The premises of `SlowConfigCompletes` hold together. -/
theorem test_slowConfig_premises :
    ∃ (t : Nat) (c : Cmd) (s : State),
      ((s.atInstant t).admits 0x0504 c = true) ∧
      ((s.atInstant t).badLine (rd c.arg 0 1) = false) ∧
      (slowCfgOk c.arg = true) ∧
      ((s.atInstant t).pendOf 0x0504 (rd c.arg 0 1) = none) ∧
      ((s.atInstant t).bandsInUse (rd c.arg 0 1) (readSlowCfg c.arg ((s.atInstant t).slowCfg (rd c.arg 0 1)).started).bands.length = false) ∧
      ((s.atInstant t).sharesOk (s.atInstant t).pendingFelt ((s.atInstant t).pendingSlow.set (rd c.arg 0 1) (readSlowCfg c.arg ((s.atInstant t).slowCfg (rd c.arg 0 1)).started)) = true) ∧
      ((readSlowCfg c.arg ((s.atInstant t).slowCfg (rd c.arg 0 1)).started).cost4096 ≤ 24576) :=
  ⟨0, cmdWith (u8 0 ++ u8 0 ++ u8 1 ++ u8 0 ++ u8 1 ++ zeros 9 ++ u8 0 ++ u8 0), feltState, by decide⟩

/-- The premises of `SlowConfigTakesEffectCompletes` hold together. -/
theorem test_slowConfigTakesEffect_premises :
    ∃ (t l : Nat) (p : Pend) (s : State),
      (s.pendOf 0x0504 l = some p) ∧
      (p.applyAt.getD p.accepted ≤ max s.now t) ∧
      ((s.atInstant t).running l = false) :=
  ⟨5, 1, ⟨0x0504, 0, 1, 0, none, none, [1], u8 1 ++ zeros 15⟩, { readyState with pend := [⟨0x0504, 0, 1, 0, none, none, [1], u8 1 ++ zeros 15⟩] }, by decide⟩

/-- The premises of `SlowStartCompletes` hold together. -/
theorem test_slowStart_premises :
    ∃ (t : Nat) (c : Cmd) (s : State),
      ((s.atInstant t).admits 0x0505 c = true) ∧
      (rd c.arg 0 2 ≠ 0) ∧
      ((s.atInstant t).maskEnabled (rd c.arg 0 2) = true) ∧
      (rd c.arg 2 1 = 0) ∧
      ((∀ l ∈ maskList 16 (rd c.arg 0 2), (s.atInstant t).slowBusy l = false ∧ ((s.atInstant t).slowCfg l).started = false ∧ (s.atInstant t).running l = true)) :=
  ⟨0, cmdWith (u16 1 ++ zeros 2), feltState.modCfg (fun g => { g with slow := upd g.slow 0 (fun k => { k with started := false }) }), by decide⟩

/-- The premises of `SlowStartStoppedCompletes` hold together. -/
theorem test_slowStartStopped_premises :
    ∃ (t l : Nat) (c : Cmd) (s : State),
      ((s.atInstant t).admits 0x0505 c = true) ∧
      (rd c.arg 0 2 = 2 ^ l) ∧
      ((s.atInstant t).maskEnabled (rd c.arg 0 2) = true) ∧
      (rd c.arg 2 1 = 0) ∧
      (l < 16) ∧
      ((s.atInstant t).slowBusy l = false) ∧
      (((s.atInstant t).slowCfg l).started = false) ∧
      ((s.atInstant t).running l = false) ∧
      (c.applyAt = 0#96) :=
  ⟨0, 0, cmdWith (u16 1 ++ zeros 2), readyState.modCfg (fun g => { g with slow := upd g.slow 0 (fun k => { k with started := false }) }), by decide⟩

/-- The premises of `SlowStopCompletes` hold together. -/
theorem test_slowStop_premises :
    ∃ (t : Nat) (c : Cmd) (s : State),
      ((s.atInstant t).admits 0x0506 c = true) ∧
      (rd c.arg 0 2 ≠ 0) ∧
      ((s.atInstant t).maskEnabled (rd c.arg 0 2) = true) ∧
      (rd c.arg 2 1 ≤ 1) ∧
      ((∀ l ∈ maskList 16 (rd c.arg 0 2), (s.atInstant t).slowBusy l = false ∧ ((s.atInstant t).slowCfg l).started = true)) :=
  ⟨0, cmdWith (u16 1 ++ zeros 2), feltState, by decide⟩

/-- The premises of `SlowStoppedCompletes` hold together. -/
theorem test_slowStopped_premises :
    ∃ (t l : Nat) (p : Pend) (s : State),
      ((s.slowOf l).lineStop = none) ∧
      (s.pendOf 0x0506 l = some p) ∧
      (p.applyAt.getD p.accepted ≤ max s.now t) ∧
      ((rd p.data 2 1 = 1 ∨ (s.slowOf l).queue = [])) ∧
      (s.pwr.pend = none) ∧
      (s.sys.shutdown = none) ∧
      ((s.atInstant t).canReport = true) :=
  ⟨5, 1, ⟨0x0506, 0, 1, 0, none, none, [1], u16 2 ++ zeros 2⟩, { readyState with pend := [⟨0x0506, 0, 1, 0, none, none, [1], u16 2 ++ zeros 2⟩] }, by decide⟩

/-- The premises of `SlowStatusCompletes` hold together. -/
theorem test_slowStatus_premises :
    ∃ (t : Nat) (c : Cmd) (s : State),
      ((s.atInstant t).admits 0x0507 c = true) ∧
      ((s.atInstant t).badLine (rd c.arg 0 1) = false) :=
  ⟨0, cmdWith (u8 0 ++ u8 1 ++ zeros 2), feltState, by decide⟩

/-- The premises of `JobDispatchCompletes` hold together. -/
theorem test_jobDispatch_premises :
    ∃ (t tile setup : Nat) (delays : List Nat) (j : Job) (s : State),
      ((s.atInstant t).runTiles.tileFree tile = true) ∧
      (s.pwr.st < 2) ∧
      (s.dbg.cpcHalted = false) ∧
      ((s.atInstant t).runTiles.nextJob tile = some j) ∧
      (j.kind.code < 2) :=
  ⟨5, 0, 0, [], ⟨.slow 0 0 0, 3, none⟩, quireState.modPool (fun q => { q with ready := [⟨.slow 0 0 0, 3, none⟩] }), by decide⟩

/-- The premises of `JobDispatchHostCompletes` hold together. -/
theorem test_jobDispatchHost_premises :
    ∃ (t tile setup : Nat) (delays : List Nat) (j : Job) (slot id n : Nat) (args : List Nat) (k : Kernel) (s : State),
      ((s.atInstant t).runTiles.tileFree tile = true) ∧
      (s.pwr.st < 2) ∧
      (s.dbg.cpcHalted = false) ∧
      ((s.atInstant t).runTiles.nextJob tile = some j) ∧
      (j.kind = .host slot id args n) ∧
      (nth s.cfg.kernels slot none = some k) :=
  ⟨5, 0, 16, [], ⟨.host 0 7 [] 0, 3, none⟩, 0, 7, 0, [], ⟨1, 0x1400, 0, 64, [0], [], []⟩, (readyState.modCfg (fun g => { g with kernels := [some ⟨1, 0x1400, 0, 64, [0], [], []⟩, none, none, none] })).modPool (fun q => { q with ready := [⟨.host 0 7 [] 0, 3, none⟩] }), by decide⟩

/-- The premises of `JobDoneCompletes` hold together. -/
theorem test_jobDone_premises :
    ∃ (t tile start : Nat) (j : Job) (f : TileFacts) (s : State),
      (((s.atInstant t).runTiles.tileOf tile).job = some (j, start)) ∧
      (j.kind.code < 2) ∧
      (start + f.cycles * cycleTicks ≤ max s.now t) :=
  ⟨500, 0, 5, ⟨.slow 0 0 0, 3, none⟩, { (default : TileFacts) with cycles := 2 }, quireState.modTile 0 (fun x => { x with job := some (⟨.slow 0 0 0, 3, none⟩, 5) }), by decide⟩

/-- The premises of `JobDoneHostCompletes` hold together. -/
theorem test_jobDoneHost_premises :
    ∃ (t tile start slot id serial code : Nat) (args : List Nat) (j : Job) (f : TileFacts) (s : State),
      (((s.atInstant t).runTiles.tileOf tile).job = some (j, start)) ∧
      (j.kind = .host slot id args serial) ∧
      (((s.atInstant t).runTiles.tileOf tile).run.ended = some (.done code)) ∧
      (start + ((s.atInstant t).runTiles.tileOf tile).run.cycles * cycleTicks ≤ max s.now t) ∧
      ((s.atInstant t).runTiles.canReport = true) :=
  ⟨50000, 0, 5, 0, 7, 0, 9, [], ⟨.host 0 7 [] 0, 3, none⟩, default, readyState.modTile 0 (fun x => { x with job := some (⟨.host 0 7 [] 0, 3, none⟩, 5), run := ⟨4, [], false, [], some (.done 9)⟩ }), by decide⟩

/-- The premises of `TileAbortCompletes` hold together. -/
theorem test_tileAbort_premises :
    ∃ (t tile start line quire group : Nat) (j : Job) (f : TileFacts) (s : State),
      (((s.atInstant t).runTiles.tileOf tile).job = some (j, start)) ∧
      (j.kind = .slow line quire group) ∧
      (f.committed = false) ∧
      ((s.atInstant t).canReport = true) :=
  ⟨500, 0, 5, 0, 0, 0, ⟨.slow 0 0 0, 3, none⟩, { (default : TileFacts) with cycles := 2 }, quireState.modTile 0 (fun x => { x with job := some (⟨.slow 0 0 0, 3, none⟩, 5) }), by decide⟩

/-- The premises of `TileAbortCommittedCompletes` hold together. -/
theorem test_tileAbortCommitted_premises :
    ∃ (t tile start line quire group : Nat) (j : Job) (q : QuireJob) (f : TileFacts) (s : State),
      (((s.atInstant t).runTiles.tileOf tile).job = some (j, start)) ∧
      (j.kind = .slow line quire group) ∧
      (f.committed = true) ∧
      (((s.atInstant t).runTiles.slowOf line).queue.find? (fun k => k.quire == quire) = some q) ∧
      ((s.atInstant t).runTiles.canReport = true) :=
  ⟨500, 0, 5, 0, 0, 0, ⟨.slow 0 0 0, 3, none⟩, ⟨0, 0, 0, 0#96, 0#96⟩, { (default : TileFacts) with cycles := 2, committed := true }, (quireState.modSlow 0 (fun r => { r with queue := [⟨0, 0, 0, 0#96, 0#96⟩] })).modTile 0 (fun x => { x with job := some (⟨.slow 0 0 0, 3, none⟩, 5) }), by decide⟩

/-- The premises of `TileAbortHostCompletes` hold together. -/
theorem test_tileAbortHost_premises :
    ∃ (t tile start slot id serial : Nat) (args : List Nat) (j : Job) (f : TileFacts) (s : State),
      (((s.atInstant t).runTiles.tileOf tile).job = some (j, start)) ∧
      (j.kind = .host slot id args serial) ∧
      (((s.atInstant t).runTiles.tileOf tile).run.ended = some (.abort 2)) ∧
      (tile < s.tiles.tiles.length) ∧
      ((s.atInstant t).runTiles.canReport = true) :=
  ⟨50000, 0, 5, 0, 7, 0, [], ⟨.host 0 7 [] 0, 3, none⟩, default, readyState.modTile 0 (fun x => { x with job := some (⟨.host 0 7 [] 0, 3, none⟩, 5), run := ⟨4, [], false, [], some (.abort 2)⟩ }), by decide⟩

/-- The premises of `TileSparedCompletes` hold together. -/
theorem test_tileSpared_premises :
    ∃ (t tile n q : Nat) (f : TileFacts) (s : State),
      (((s.atInstant t).hUnit kindTile tile).wantsSpare = true) ∧
      ((((s.atInstant t).hUnit kindTile tile).gone && ((s.atInstant t).hUnit kindTile tile).noSpare) = false) ∧
      (s.tiles.map.findIdx? (· == some tile) = some n) ∧
      ((s.atInstant t).spareFor kindTile tile = some q) ∧
      ((s.tileOf tile).job = none) ∧
      ((s.atInstant t).canReport = true) :=
  ⟨500, 3, 3, 32, default, readyState.modHUnit kindTile 3 (fun u => { u with due := some 0 }), by decide⟩

/-- The premises of `TileKernelLoadChunkCompletes` hold together. -/
theorem test_tileKernelLoadChunk_premises :
    ∃ (t : Nat) (l : KernelLoad) (c : Cmd) (s : State),
      ((s.atInstant t).admits 0x0601 c = true) ∧
      (rd c.arg 0 1 ≤ 3) ∧
      (rd c.arg 1 1 = 0) ∧
      (rd c.arg 2 2 ≤ 4000) ∧
      (nth s.tiles.loads (rd c.arg 0 1) none = some l) ∧
      (rd c.arg 4 4 + rd c.arg 2 2 ≤ l.length) :=
  ⟨500, ⟨100, []⟩, cmdWith (u8 1 ++ u8 0 ++ u16 4 ++ u32 8 ++ u32 0 ++ [1, 2, 3, 4]), readyState.modPool (fun q => { q with loads := q.loads.set 1 (some ⟨100, []⟩) }), by decide⟩

/-- The premises of `TileKernelLoadFirstCompletes` hold together. -/
theorem test_tileKernelLoadFirst_premises :
    ∃ (t : Nat) (c : Cmd) (s : State),
      ((s.atInstant t).admits 0x0601 c = true) ∧
      (rd c.arg 0 1 ≤ 3) ∧
      (rd c.arg 1 1 = 1) ∧
      (rd c.arg 2 2 ≤ 4000) ∧
      (rd c.arg 4 4 + rd c.arg 2 2 ≤ rd c.arg 8 4) ∧
      (s.slotBusy (rd c.arg 0 1) = false) :=
  ⟨500, cmdWith (u8 1 ++ u8 1 ++ u16 4 ++ u32 0 ++ u32 100 ++ [1, 2, 3, 4]), readyState, by decide⟩

/-- The premises of `TileKernelUnloadCompletes` hold together. -/
theorem test_tileKernelUnload_premises :
    ∃ (t : Nat) (c : Cmd) (s : State),
      ((s.atInstant t).admits 0x0602 c = true) ∧
      (rd c.arg 0 1 ≤ 3) ∧
      (nth s.cfg.kernels (rd c.arg 0 1) none ≠ none) ∧
      (s.slotBusy (rd c.arg 0 1) = false) :=
  ⟨500, cmdWith (u8 1 ++ zeros 3), readyState.modCfg (fun g => { g with kernels := [none, some ⟨1, 0x1400, 0, 64, [0], [], []⟩, none, none] }), by decide⟩

/-- The premises of `TileRunCompletes` hold together. -/
theorem test_tileRun_premises :
    ∃ (t : Nat) (c : Cmd) (s : State),
      ((s.atInstant t).admits 0x0603 c = true) ∧
      (rd c.arg 0 1 ≤ 3) ∧
      (nth s.cfg.kernels (rd c.arg 0 1) none ≠ none) ∧
      (s.hostQueued < 64) ∧
      (s.mem.available = true) :=
  ⟨500, cmdWith (u8 1 ++ zeros 3 ++ u32 9 ++ zeros 32), readyState.modCfg (fun g => { g with kernels := [none, some ⟨1, 0x1400, 0, 64, [0], [], []⟩, none, none] }), by decide⟩

/-- The premises of `TileStatusCompletes` hold together. -/
theorem test_tileStatus_premises :
    ∃ (t : Nat) (c : Cmd) (s : State),
      ((s.atInstant t).admits 0x0604 c = true) :=
  ⟨0, cmdWith (zeros 4), readyState, by decide⟩

/-- The premises of `PointHitsDecidedCompletes` hold together. -/
theorem test_pointHitsDecided_premises :
    ∃ (t line : Nat) (v : SlowSheet) (rest : List SlowSheet) (s : State),
      ((s.slowOf line).forTriggers = v :: rest) ∧
      (line < s.trig.lines.length) ∧
      (line < s.slow.length) :=
  ⟨5, 0, ⟨false, [], [0], 0, 0, 0, zeros 32, [[0#32, 0#32]]⟩, [], quireState.modSlow 0 (fun r => { r with forTriggers := [⟨false, [], [0], 0, 0, 0, zeros 32, [[0#32, 0#32]]⟩] }), by decide⟩

/-- The premises of `TrigInEdgeCompletes` hold together. -/
theorem test_trigInEdge_premises :
    ∃ (t n held : Nat) (rising : Bool) (d : CondDef) (s : State),
      (n ≤ 3) ∧
      (s.condDef? (16 + n) = some d) ∧
      ((s.atInstant t).evaluates (16 + n) = true) ∧
      (10 ≤ held) ∧
      ((d.edge = 2 ∨ d.edge = b2n (!rising))) ∧
      ((∀ x ∈ (s.condOf (16 + n)).lastEdge, x + 50 * ticksPerNs ≤ max s.now t)) ∧
      (16 + n < s.trig.conds.length) :=
  ⟨500, 0, 20, true, { (default : CondDef) with line := 0xFF }, readyState.modCfg (fun g => { g with armed := 2 ^ 16, conds := g.conds.set 16 (some { (default : CondDef) with line := 0xFF }) }), by decide⟩

/-- The premises of `TrigInEdgeGlitchCompletes` hold together. -/
theorem test_trigInEdgeGlitch_premises :
    ∃ (t n held x : Nat) (rising : Bool) (d : CondDef) (s : State),
      (n ≤ 3) ∧
      (s.condDef? (16 + n) = some d) ∧
      ((s.atInstant t).evaluates (16 + n) = true) ∧
      (10 ≤ held) ∧
      ((d.edge = 2 ∨ d.edge = b2n (!rising))) ∧
      ((s.condOf (16 + n)).lastEdge = some x) ∧
      (max s.now t < x + 50 * ticksPerNs) :=
  ⟨500, 0, 20, 400, true, { (default : CondDef) with line := 0xFF }, (readyState.modCfg (fun g => { g with armed := 2 ^ 16, conds := g.conds.set 16 (some { (default : CondDef) with line := 0xFF }) })).modCond 16 (fun r => { r with lastEdge := some 400 }), by decide⟩

/-- The premises of `BcastRxCompletes` hold together. -/
theorem test_bcastRx_premises :
    ∃ (t k : Nat) (rx : TrailRx) (s : State),
      (rx.port ≤ 2) ∧
      ((s.atInstant t).trailUp rx.port = true) ∧
      (frameOk rx.bytes = true) ∧
      (frameType rx.bytes = 4) ∧
      (rx.bytes.length = 19) ∧
      (rd rx.bytes 3 1 = k) ∧
      (k ≤ 1) ∧
      ((s.atInstant t).evaluates (28 + k) = true) ∧
      (28 + k < s.trig.conds.length) :=
  ⟨0, 1, ⟨1, (let b : List Byte := u8 4 ++ u16 (3 + 4096 * 2) ++ u8 1 ++ u8 16 ++ zeros 12; b ++ u16 (crc16 trailCrcInit b))⟩, (readyState.modCfg (fun g => { g with trail := ⟨0, 1 + 2 + 4 + 8, 0⟩, armed := 2 ^ 29, conds := g.conds.set 29 (some { (default : CondDef) with line := 0xFF }) })).modTrail (fun r => { r with linkUp := [true, true, true] }), by decide⟩

/-- The premises of `TrigOutAssertCompletes` hold together. -/
theorem test_trigOutAssert_premises :
    ∃ (t o : Nat) (s : State),
      (nth s.trig.outDue o false = true) :=
  ⟨5, 1, readyState.modTrig (fun r => { r with outDue := [false, true] }), by decide⟩

/-- The premises of `TrigOutWidthEndCompletes` hold together. -/
theorem test_trigOutWidthEnd_premises :
    ∃ (t o x : Nat) (s : State),
      (nth s.trig.outUntil o none = some x) ∧
      (x ≤ max s.now t) :=
  ⟨5, 1, 3, readyState.modTrig (fun r => { r with outUntil := [none, some 3] }), by decide⟩

/-- The premises of `CaptureFormedCompletes` hold together. -/
theorem test_captureFormed_premises :
    ∃ (t l row i p : Nat) (h : Hit) (s : State),
      ((s.ltOf l).hits = [h]) ∧
      (h.row = some row) ∧
      (row < (s.atInstant t).formable l) ∧
      ((s.atInstant t).missedBy l row h = false) ∧
      (h.cond < 32) ∧
      (h.first = h.last) ∧
      (h.last + h.pad < (s.feltOf l).points) ∧
      ((s.lineOf l).st ≠ 0) ∧
      (h.pre ≤ row) ∧
      ((s.feltOf l).oldest ≤ row - h.pre) ∧
      ((s.atInstant t).shrinkBound l ≤ row - h.pre) ∧
      (s.freeIndex = some i) ∧
      (firstFit s.pagesUsed s.heapPages (ceilDiv (128 + (h.pre + h.post + 1) * (32 + 4 * (h.last + h.pad - (h.first - h.pad) + 1))) 4096) = some p) ∧
      (128 + (h.pre + h.post + 1) * (32 + 4 * (h.last + h.pad - (h.first - h.pad) + 1)) ≤ 268435456) ∧
      (l < s.trig.lines.length) ∧
      (l < s.felt.length) :=
  ⟨5, 0, 3, 0, 0, ⟨0, 4, 4, 1, 2, 5, 0#96, 0, 0, some 3⟩, quireState.modLt 0 (fun x => { x with hits := [⟨0, 4, 4, 1, 2, 5, 0#96, 0, 0, some 3⟩], decided := 1 }), by decide⟩

/-- The premises of `CaptureRowCopyCompletes` hold together. -/
theorem test_captureRowCopy_premises :
    ∃ (t i : Nat) (r : CapRec) (x : FeltRow) (s : State),
      (s.recOf? i = some r) ∧
      (r.ready = false) ∧
      (r.raw = false) ∧
      (r.next < r.hi) ∧
      (r.next < (s.feltOf r.line).fsn) ∧
      ((s.feltOf r.line).rows.find? (fun x => x.fsn == r.next) = some x) ∧
      ((s.atInstant t).lostWords r.line r.next r.firstIndex r.count = []) :=
  ⟨5, 0, { (default : CapRec) with lo := 1, hi := 3, next := 1, count := 2, rowBytes := 40 }, ⟨1, 0, zeros 32, List.replicate 16 4#32, false, 0⟩, quireState.modTrig (fun g => { g with recs := [{ (default : CapRec) with lo := 1, hi := 3, next := 1, count := 2, rowBytes := 40 }] }), by decide⟩

/-- The premises of `RawTriggerCompletes` hold together. -/
theorem test_rawTrigger_premises :
    ∃ (t n : Nat) (h : RawHit) (g : RawSeg) (s : State),
      ((s.setOf n).triggers = [h]) ∧
      ((s.setOf n).seg = some g) ∧
      (g.trig = none) ∧
      ((s.setOf n).cfg.source ≤ 2) ∧
      (h.sample = none) ∧
      (g.ring = []) :=
  ⟨5, 0, ⟨31, 700, 0#96, 0, none⟩, ⟨default, 0, 0, [], [], none, none⟩, readyState.modSet 0 (fun r => { r with st := 1, cfg := ⟨1, 0, 1, 1, false, 0, 8, 2, 0, 0, 2 ^ 31, 0⟩, seg := some ⟨default, 0, 0, [], [], none, none⟩, triggers := [⟨31, 700, 0#96, 0, none⟩] }), by decide⟩

/-- The premises of `RawTriggerLateCompletes` hold together. -/
theorem test_rawTriggerLate_premises :
    ∃ (t n c : Nat) (h : RawHit) (g : RawSeg) (e : Nat × BitVec 96 × List Byte) (more : List (Nat × BitVec 96 × List Byte)) (s : State),
      ((s.setOf n).triggers = [h]) ∧
      (h.cond = c) ∧
      ((s.setOf n).seg = some g) ∧
      (g.trig = none) ∧
      ((s.setOf n).cfg.source ≤ 2) ∧
      (h.sample = none) ∧
      (g.ring = e :: more) ∧
      (ceilDiv h.inst ticksPerCell * ticksPerCell ≤ e.1) ∧
      ((s.setOf n).cfg.length ≤ g.delta (ceilDiv h.inst ticksPerCell * ticksPerCell)) ∧
      ((s.atInstant t).canReport = true) :=
  ⟨5, 0, 31, ⟨31, 700, 0#96, 0, none⟩, ⟨default, 0, 9, [(9000, 0#96, []), (8744, 0#96, [])], [], none, none⟩, (9000, 0#96, []), [(8744, 0#96, [])], readyState.modSet 0 (fun r => { r with st := 1, cfg := ⟨1, 0, 1, 1, false, 0, 2, 1, 0, 0, 2 ^ 31, 0⟩, seg := some ⟨default, 0, 9, [(9000, 0#96, []), (8744, 0#96, [])], [], none, none⟩, triggers := [⟨31, 700, 0#96, 0, none⟩] }), by decide⟩

/-- The premises of `RawSegmentCloseCompletes` hold together. -/
theorem test_rawSegmentClose_premises :
    ∃ (t n : Nat) (g : RawSeg) (s : State),
      ((s.setOf n).seg = some g) ∧
      (g.full = true) ∧
      (((s.setOf n).cfg.total = 0 ∨ (s.setOf n).segsClosed + 1 < (s.setOf n).cfg.total)) ∧
      ((s.setOf n).stop = none) ∧
      ((s.setOf n).closed.length + 1 < (s.setOf n).cfg.segments) ∧
      (n < s.trig.sets.length) :=
  ⟨5, 0, ⟨default, 0, 9, [], [], some ⟨0, true, 3, 0, 2, false, 0, 0, 0#96, 0⟩, none⟩, readyState.modSet 0 (fun r => { r with st := 1, cfg := ⟨1, 0, 1, 2, false, 0, 8, 2, 0, 0, 2 ^ 31, 0⟩, seg := some ⟨default, 0, 9, [], [], some ⟨0, true, 3, 0, 2, false, 0, 0, 0#96, 0⟩, none⟩ }), by decide⟩

/-- The premises of `RawSegmentCloseStallCompletes` hold together. -/
theorem test_rawSegmentCloseStall_premises :
    ∃ (t n : Nat) (g : RawSeg) (s : State),
      ((s.setOf n).seg = some g) ∧
      (g.full = true) ∧
      (((s.setOf n).cfg.total = 0 ∨ (s.setOf n).segsClosed + 1 < (s.setOf n).cfg.total)) ∧
      ((s.setOf n).stop = none) ∧
      ((s.setOf n).cfg.segments ≤ (s.setOf n).closed.length + 1) ∧
      (n < s.trig.sets.length) ∧
      ((s.atInstant t).canReport = true) :=
  ⟨5, 0, ⟨default, 0, 9, [], [], some ⟨0, true, 3, 0, 2, false, 0, 0, 0#96, 0⟩, none⟩, readyState.modSet 0 (fun r => { r with st := 1, cfg := ⟨1, 0, 1, 1, false, 0, 8, 2, 0, 0, 2 ^ 31, 0⟩, seg := some ⟨default, 0, 9, [], [], some ⟨0, true, 3, 0, 2, false, 0, 0, 0#96, 0⟩, none⟩ }), by decide⟩

/-- The premises of `RawRearmCompletes` hold together. -/
theorem test_rawRearm_premises :
    ∃ (t n : Nat) (m : Option Missed) (s : State),
      ((s.setOf n).seg = none) ∧
      ((s.setOf n).rearm = some m) ∧
      ((s.setOf n).st ≠ 0) ∧
      ((s.setOf n).closed.length < (s.setOf n).cfg.segments) ∧
      ((s.setOf n).stop = none) :=
  ⟨5, 0, none, readyState.modSet 0 (fun r => { r with st := 2, cfg := ⟨1, 0, 1, 1, false, 0, 8, 2, 0, 0, 2 ^ 31, 0⟩, rearm := some none }), by decide⟩

/-- The premises of `RawCopyOutCompletes` hold together. -/
theorem test_rawCopyOut_premises :
    ∃ (t n i p : Nat) (g : RawSeg) (rest : List RawSeg) (s : State),
      ((s.setOf n).closed = g :: rest) ∧
      (s.freeIndex = some i) ∧
      (firstFit s.pagesUsed s.heapPages (ceilDiv (128 + g.chosen.length * g.cfg.sampleBytes) 4096) = some p) ∧
      (n < s.trig.sets.length) ∧
      ((s.atInstant t).canReport = true) :=
  ⟨5, 0, 0, 0, ⟨⟨1, 0, 1, 1, false, 0, 2, 0, 0, 0, 2 ^ 31, 0⟩, 0, 9, [(9000, 0#96, [1, 2]), (8744, 0#96, [3, 4])], [], some ⟨8744, true, 1, 0, 1, false, 2 ^ 31, 31, 0#96, 0⟩, none⟩, [], readyState.modSet 0 (fun r => { r with st := 1, cfg := ⟨1, 0, 1, 1, false, 0, 2, 0, 0, 0, 2 ^ 31, 0⟩, closed := [⟨⟨1, 0, 1, 1, false, 0, 2, 0, 0, 0, 2 ^ 31, 0⟩, 0, 9, [(9000, 0#96, [1, 2]), (8744, 0#96, [3, 4])], [], some ⟨8744, true, 1, 0, 1, false, 2 ^ 31, 31, 0#96, 0⟩, none⟩] }), by decide⟩

/-- The premises of `TrigDefineCompletes` hold together. -/
theorem test_trigDefine_premises :
    ∃ (t : Nat) (c : Cmd) (s : State),
      ((s.atInstant t).admits 0x0701 c = true) ∧
      ((s.atInstant t).condOk (rd c.arg 0 1) (readCond c.arg) (rd c.arg 21 1) = true) ∧
      (s.isArmed (rd c.arg 0 1) = false) :=
  ⟨5, cmdWith (u8 16 ++ u8 0 ++ u8 0xFF ++ zeros 37), readyState, by decide⟩

/-- The premises of `TrigArmCompletes` hold together. -/
theorem test_trigArm_premises :
    ∃ (t : Nat) (c : Cmd) (s : State),
      ((s.atInstant t).admits 0x0702 c = true) ∧
      (rd c.arg 4 1 = 0) ∧
      (rd c.payload 4 1 = 0) ∧
      (rd c.arg 0 4 ≠ 0) ∧
      ((∀ k ∈ maskList 32 (rd c.arg 0 4), (s.atInstant t).pendOf 0x0702 k = none ∧ ∃ d ∈ s.condDef? k, k < 16 → d.kind < 2 → d.band < ((s.atInstant t).slowCfg d.line).bands.length)) :=
  ⟨5, cmdWith (u32 (2 ^ 16) ++ zeros 4), readyState.modCfg (fun g => { g with conds := g.conds.set 16 (some { (default : CondDef) with line := 0xFF }) }), by decide, by decide, by decide, by decide, by
intro k hk
have : maskList 32 (rd (cmdWith (u32 (2 ^ 16) ++ zeros 4)).arg 0 4) = [16] := by decide
rw [this] at hk; simp at hk; subst hk
exact ⟨by decide, _, rfl, fun h => absurd h (by decide)⟩⟩

/-- The premises of `TrigDisarmCompletes` hold together. -/
theorem test_trigDisarm_premises :
    ∃ (t : Nat) (c : Cmd) (s : State),
      ((s.atInstant t).admits 0x0702 c = true) ∧
      ((rd c.arg 4 1 = 1 ∨ rd c.arg 4 1 = 2)) ∧
      (rd c.payload 4 1 = rd c.arg 4 1) ∧
      (rd c.arg 0 4 ≠ 0) ∧
      ((∀ k ∈ maskList 32 (rd c.arg 0 4), (s.atInstant t).pendOf 0x0702 k = none ∧ s.condDef? k ≠ none)) :=
  ⟨5, cmdWith (u32 (2 ^ 16) ++ u8 1 ++ zeros 3), readyState.modCfg (fun g => { g with armed := 2 ^ 16, conds := g.conds.set 16 (some { (default : CondDef) with line := 0xFF }) }), by decide⟩

/-- The premises of `TrigArmTakesEffectCompletes` hold together. -/
theorem test_trigArmTakesEffect_premises :
    ∃ (t c : Nat) (d : CondDef) (p : Pend) (s : State),
      (s.pendOf 0x0702 c = some p) ∧
      (s.condDef? c = some d) ∧
      (16 ≤ c) ∧
      (p.applyAt.getD p.accepted ≤ max s.now t) ∧
      (rd p.data 4 1 = 0) :=
  ⟨5, 16, { (default : CondDef) with line := 0xFF }, ⟨0x0702, 0, 1, 0, none, none, [16], u32 (2 ^ 16) ++ zeros 4⟩, { readyState.modCfg (fun g => { g with conds := g.conds.set 16 (some { (default : CondDef) with line := 0xFF }) }) with pend := [⟨0x0702, 0, 1, 0, none, none, [16], u32 (2 ^ 16) ++ zeros 4⟩] }, by decide⟩

/-- The premises of `TrigArmTakesEffectDisarmCompletes` hold together. -/
theorem test_trigArmTakesEffectDisarm_premises :
    ∃ (t c : Nat) (d : CondDef) (p : Pend) (s : State),
      (s.pendOf 0x0702 c = some p) ∧
      (s.condDef? c = some d) ∧
      (p.applyAt.getD p.accepted ≤ max s.now t) ∧
      (rd p.data 4 1 = 1) ∧
      (s.running d.line = false) :=
  ⟨5, 0, default, ⟨0x0702, 0, 1, 0, none, none, [0], u32 1 ++ u8 1 ++ zeros 3⟩, { readyState.modCfg (fun g => { g with armed := 1, conds := g.conds.set 0 (some (default : CondDef)) }) with pend := [⟨0x0702, 0, 1, 0, none, none, [0], u32 1 ++ u8 1 ++ zeros 3⟩] }, by decide⟩

/-- The premises of `TrigRebaseCompletes` hold together. -/
theorem test_trigRebase_premises :
    ∃ (t : Nat) (c : Cmd) (s : State),
      ((s.atInstant t).admits 0x0703 c = true) ∧
      (rd c.arg 0 4 ≠ 0) ∧
      ((∀ k ∈ maskList 32 (rd c.arg 0 4), k ≤ 15 ∧ (s.atInstant t).pendOf 0x0703 k = none ∧ (s.condDef? k).map CondDef.kind = some 3)) :=
  ⟨5, cmdWith (u32 1), readyState.modCfg (fun g => { g with conds := g.conds.set 0 (some { (default : CondDef) with kind := 3 }) }), by decide⟩

/-- The premises of `TrigRebaseTakesEffectCompletes` hold together. -/
theorem test_trigRebaseTakesEffect_premises :
    ∃ (t c : Nat) (d : CondDef) (p : Pend) (s : State),
      (s.pendOf 0x0703 c = some p) ∧
      (s.condDef? c = some d) ∧
      (p.accepted ≤ max s.now t) ∧
      (s.running d.line = false) :=
  ⟨5, 0, { (default : CondDef) with kind := 3 }, ⟨0x0703, 0, 1, 0, none, none, [0], u32 1⟩, { readyState.modCfg (fun g => { g with conds := g.conds.set 0 (some { (default : CondDef) with kind := 3 }) }) with pend := [⟨0x0703, 0, 1, 0, none, none, [0], u32 1⟩] }, by decide⟩

/-- The premises of `TrigOutCompletes` hold together. -/
theorem test_trigOut_premises :
    ∃ (t : Nat) (c : Cmd) (s : State),
      ((s.atInstant t).admits 0x0704 c = true) ∧
      (rd c.arg 0 1 ≤ 1) ∧
      (rd c.arg 1 1 ≤ 1) ∧
      (4 ≤ rd c.arg 2 2) :=
  ⟨5, cmdWith (u8 1 ++ u8 1 ++ u16 500 ++ u32 0xFFFF), readyState, by decide⟩

/-- The premises of `TrigStatusCompletes` hold together. -/
theorem test_trigStatus_premises :
    ∃ (t : Nat) (c : Cmd) (s : State),
      ((s.atInstant t).admits 0x0705 c = true) ∧
      (rd c.arg 0 1 ≤ 31) :=
  ⟨5, cmdWith (u8 16 ++ u8 1 ++ zeros 2), readyState, by decide⟩

/-- The premises of `CapConfigCompletes` hold together. -/
theorem test_capConfig_premises :
    ∃ (t : Nat) (c : Cmd) (s : State),
      ((s.atInstant t).admits 0x0706 c = true) ∧
      ((256 ≤ rd c.arg 0 4 ∧ rd c.arg 0 4 ≤ 16384)) ∧
      (rd c.arg 0 4 % 64 = 0) ∧
      ((s.atInstant t).sharesOf (s.atInstant t).pendingFelt (s.atInstant t).pendingSlow ((s.atInstant t).usableUnder s.cfg.mem.mask) (rd c.arg 0 4) = true) :=
  ⟨5, cmdWith (u32 512), readyState, by decide⟩

/-- The premises of `CapRawArmCompletes` hold together. -/
theorem test_capRawArm_premises :
    ∃ (t : Nat) (c : Cmd) (s : State),
      ((s.atInstant t).admits 0x0707 c = true) ∧
      (rd c.arg 0 1 ≤ 3) ∧
      ((s.atInstant t).rawOk (readRaw c.arg) = true) ∧
      ((s.setOf (rd c.arg 0 1)).st = 0) ∧
      (((readRaw c.arg).source < 2 ∨ (s.plan? (readRaw c.arg).quad).isSome = true)) ∧
      ((readRaw c.arg).segments * (readRaw c.arg).segmentBytes + (((List.range 4).filter (fun k => k != rd c.arg 0 1 && (s.setOf k).st != 0)).map (fun k => (s.setOf k).cfg.segments * (s.setOf k).cfg.segmentBytes)).sum ≤ 33554432) ∧
      ((readRaw c.arg).segments + (((List.range 4).filter (fun k => k != rd c.arg 0 1 && (s.setOf k).st != 0)).map (fun k => (s.setOf k).cfg.segments)).sum ≤ 4096) ∧
      ((s.atInstant t).rawRate (readRaw c.arg) + (((List.range 4).filter (fun k => k != rd c.arg 0 1 && (s.setOf k).st != 0)).map (fun k => (s.atInstant t).rawRate (s.setOf k).cfg)).sum ≤ 16000000000) ∧
      (s.noDram = false) :=
  ⟨5, cmdWith (u8 0 ++ u8 1 ++ u8 0 ++ u8 1 ++ u16 1 ++ zeros 2 ++ u32 8 ++ u32 2 ++ u32 0 ++ u32 0 ++ u32 (2 ^ 31) ++ u32 0), readyState, by decide⟩

/-- The premises of `CapRawStopCompletes` hold together. -/
theorem test_capRawStop_premises :
    ∃ (t n : Nat) (c : Cmd) (s : State),
      ((s.atInstant t).admits 0x0708 c = true) ∧
      (n < 4) ∧
      (rd c.arg 0 1 = 2 ^ n) ∧
      (rd c.arg 1 1 = 0) ∧
      ((s.atInstant t).pendOf 0x0708 n = none) ∧
      ((s.setOf n).st ≠ 0) :=
  ⟨5, 0, cmdWith (u8 1 ++ zeros 3), readyState.modSet 0 (fun r => { r with st := 1, seg := some ⟨default, 0, 0, [], [], none, none⟩ }), by decide⟩

/-- The premises of `CapRawDoneCompletes` hold together. -/
theorem test_capRawDone_premises :
    ∃ (t n : Nat) (p : Pend) (s : State),
      ((s.setOf n).stop = some 1) ∧
      (((s.setOf n).seg = none ∧ (s.setOf n).closed = [])) ∧
      (s.pendOf 0x0708 n = some p) ∧
      (s.pwr.pend = none) ∧
      (s.sys.shutdown = none) ∧
      ((s.atInstant t).canReport = true) :=
  ⟨5, 0, ⟨0x0708, 0, 1, 0, none, none, [0], u8 1 ++ zeros 3⟩, { readyState.modSet 0 (fun r => { r with st := 1, stop := some 1 }) with pend := [⟨0x0708, 0, 1, 0, none, none, [0], u8 1 ++ zeros 3⟩] }, by decide⟩

/-- The premises of `CapForceCompletes` hold together. -/
theorem test_capForce_premises :
    ∃ (t : Nat) (c : Cmd) (s : State),
      ((s.atInstant t).admits 0x0709 c = true) ∧
      ((s.atInstant t).maskEnabled (rd c.arg 0 2) = true) ∧
      (s.evaluates 31 = true) ∧
      (s.noDram = false) ∧
      (31 < s.trig.conds.length) :=
  ⟨500000, cmdWith (u16 1 ++ zeros 2), readyState.modCfg (fun g => { g with armed := 2 ^ 31, conds := g.conds.set 31 (some { (default : CondDef) with line := 0xFF }) }), by decide⟩

/-- The premises of `CapListCompletes` hold together. -/
theorem test_capList_premises :
    ∃ (t : Nat) (c : Cmd) (s : State),
      ((s.atInstant t).admits 0x070A c = true) ∧
      ((1 ≤ rd c.arg 4 2 ∧ rd c.arg 4 2 ≤ 100)) :=
  ⟨5, cmdWith (u32 0 ++ u16 10 ++ zeros 2), readyState.modTrig (fun g => { g with recs := [{ (default : CapRec) with ready := true }] }), by decide⟩

/-- The premises of `CapReleaseCompletes` hold together. -/
theorem test_capRelease_premises :
    ∃ (t i : Nat) (r : CapRec) (c : Cmd) (s : State),
      ((s.atInstant t).admits 0x070B c = true) ∧
      (rd c.arg 2 2 = 1) ∧
      (rd c.arg 4 2 = i) ∧
      (i ≤ 4095) ∧
      (rd c.arg 0 2 = 0) ∧
      (s.recOf? i = some r) ∧
      (r.ready = true) ∧
      (s.delivering i = false) :=
  ⟨5, 0, { (default : CapRec) with ready := true }, cmdWith (u16 0 ++ u16 1 ++ u16 0), readyState.modTrig (fun g => { g with recs := [{ (default : CapRec) with ready := true }] }), by decide⟩

/-- The premises of `CapStatusCompletes` hold together. -/
theorem test_capStatus_premises :
    ∃ (t : Nat) (c : Cmd) (s : State),
      ((s.atInstant t).admits 0x070C c = true) :=
  ⟨0, cmdWith (zeros 4), readyState, by decide⟩

/-- The premises of `RefclkLostCompletes` hold together. -/
theorem test_refclkLost_premises :
    ∃ (t : Nat) (s : State),
      (s.tb.refclk = true) :=
  ⟨0, State.reset, by decide⟩

/-- The premises of `RefclkRestoredCompletes` hold together. -/
theorem test_refclkRestored_premises :
    ∃ (t : Nat) (s : State),
      (s.tb.refclk = false) :=
  ⟨0, State.reset.modTb (fun b => { b with refclk := false }), by decide⟩

/-- The premises of `PpsOutPulseCompletes` hold together. -/
theorem test_ppsOutPulse_premises :
    ∃ (t : Nat) (s : State),
      (s.cfg.tb.ppsOut = true) ∧
      (s.pwr.st ≤ 2) ∧
      ((s.atInstant t).isBoundary (s.atInstant t).now = true) :=
  ⟨0, State.reset, by decide⟩

/-- The premises of `PpsOutWidthEndCompletes` hold together. -/
theorem test_ppsOutWidthEnd_premises :
    ∃ (t : Nat) (s : State),
      (s.tb.ppsOutHigh = true) ∧
      (s.tb.ppsOutSince + s.cfg.tb.ppsOutWidth * ticksPerMs ≤ max s.now t) :=
  ⟨ticksPerSecond, State.reset.modTb (fun b => { b with ppsOutHigh := true }), by decide⟩

/-- The premises of `PpsInEdgeCompletes` hold together. -/
theorem test_ppsInEdge_premises :
    ∃ (t last : Nat) (rising : Bool) (s : State),
      ((s.cfg.tb.source = 1 ∨ s.cfg.tb.source = 2)) ∧
      (rising = (s.cfg.tb.ppsEdge == 0)) ∧
      (s.tb.ppsLocked = true) ∧
      (s.tb.ppsLast = some last) ∧
      (((s.atInstant t).takeStamp (s.atInstant t).now).2.2.1 = true) ∧
      (((((s.atInstant t).takeStamp (s.atInstant t).now).1 : Int) - s.cfg.tb.ppsDelay - last - (max 1 (rneDiv ((((s.atInstant t).takeStamp (s.atInstant t).now).1 : Int) - s.cfg.tb.ppsDelay - last) ticksPerSecond)) * (s.atInstant t).trueSecond).natAbs ≤ usTicks) :=
  ⟨128000000000, 0, true, (State.reset.modTb (fun b => { b with ppsLocked := true, ppsLast := some 0 })), by decide⟩

/-- The premises of `PpsInEdgeOutCompletes` hold together. -/
theorem test_ppsInEdgeOut_premises :
    ∃ (t last : Nat) (rising : Bool) (s : State),
      ((s.cfg.tb.source = 1 ∨ s.cfg.tb.source = 2)) ∧
      (rising = (s.cfg.tb.ppsEdge == 0)) ∧
      (s.tb.ppsLocked = true) ∧
      (s.tb.ppsLast = some last) ∧
      (usTicks < ((((s.atInstant t).takeStamp (s.atInstant t).now).1 : Int) - s.cfg.tb.ppsDelay - last - (max 1 (rneDiv ((((s.atInstant t).takeStamp (s.atInstant t).now).1 : Int) - s.cfg.tb.ppsDelay - last) ticksPerSecond)) * (s.atInstant t).trueSecond).natAbs) :=
  ⟨64000000000, 0, true, (State.reset.modTb (fun b => { b with ppsLocked := true, ppsLast := some 0 })), by decide⟩

/-- The premises of `PpsLostCompletes` hold together. -/
theorem test_ppsLost_premises :
    ∃ (t last : Nat) (s : State),
      (s.tb.ppsLocked = true) ∧
      (s.tb.ppsLast = some last) ∧
      ((s.cfg.tb.source = 1 ∨ s.cfg.tb.source = 2)) ∧
      ((last : Int) + 3 * (s.atInstant t).trueSecond + usTicks ≤ (max s.now t : Nat)) :=
  ⟨4 * ticksPerSecond, 0, State.reset.modTb (fun b => { b with ppsLocked := true, ppsLast := some 0 }), by decide⟩

/-- The premises of `PtpSyncTimeoutCompletes` hold together. -/
theorem test_ptpSyncTimeout_premises :
    ∃ (t last : Nat) (s : State),
      (s.tb.ptpValid = true) ∧
      (s.tb.ptpLast = some last) ∧
      ((s.cfg.tb.source = 1 ∨ s.cfg.tb.source = 3)) ∧
      (last + 3 * ticksPerSecond ≤ max s.now t) :=
  ⟨4 * ticksPerSecond, 0, (State.reset.modTb (fun b => { b with ptpValid := true, ptpLast := some 0 })).modCfg (fun g => { g with tb := { g.tb with source := 3 } }), by decide⟩

/-- The premises of `PtpMessageRxCompletes` hold together. -/
theorem test_ptpMessageRx_premises :
    ∃ (t seq second nanos : Nat) (corr d : Int) (s : State) (m : PtpMsg),
      (m.port = s.cfg.tb.ptpPort) ∧
      (m.domain = s.cfg.tb.ptpDomain) ∧
      (m.transport = s.cfg.tb.ptpTransport) ∧
      (m.kind = .sync seq false second nanos corr) ∧
      ((s.atInstant t).ptpChoose.tb.ptp.best = some m.sender) ∧
      ((s.atInstant t).ptpChoose.tb.ptp.delay = some d) ∧
      (s.cfg.tb.source = 3) :=
  ⟨ticksPerSecond, 5, 1, 0, 0, 0, ptpState, ⟨0, 0, 0, 7, .sync 5 false 1 0 0⟩, by decide⟩

/-- The premises of `PtpSyncTwoStepCompletes` hold together. -/
theorem test_ptpSyncTwoStep_premises :
    ∃ (t seq second nanos : Nat) (corr : Int) (s : State) (m : PtpMsg),
      (m.port = s.cfg.tb.ptpPort) ∧
      (m.domain = s.cfg.tb.ptpDomain) ∧
      (m.transport = s.cfg.tb.ptpTransport) ∧
      (m.kind = .sync seq true second nanos corr) ∧
      ((s.atInstant t).ptpChoose.tb.ptp.best = some m.sender) :=
  ⟨ticksPerSecond, 5, 1, 0, 0, ptpState, ⟨0, 0, 0, 7, .sync 5 true 1 0 0⟩, by decide⟩

/-- The premises of `PtpDelayRespCompletes` hold together. -/
theorem test_ptpDelayResp_premises :
    ∃ (t seq second nanos sent sec : Nat) (corr m0 : Int) (s : State) (m : PtpMsg),
      (m.port = s.cfg.tb.ptpPort) ∧
      (m.domain = s.cfg.tb.ptpDomain) ∧
      (m.transport = s.cfg.tb.ptpTransport) ∧
      (m.kind = .delayResp seq true second nanos corr) ∧
      ((s.atInstant t).ptpChoose.tb.ptp.best = some m.sender) ∧
      ((s.atInstant t).ptpChoose.tb.ptp.req = some (seq, sent, sec, m0)) :=
  ⟨ticksPerSecond, 4, 1, 0, 1000, 1, 0, 3000, ptpState, ⟨0, 0, 0, 7, .delayResp 4 true 1 0 0⟩, by decide⟩

/-- The premises of `PtpMessageOtherCompletes` hold together. -/
theorem test_ptpMessageOther_premises :
    ∃ (t : Nat) (s : State) (m : PtpMsg),
      (m.port ≠ s.cfg.tb.ptpPort) :=
  ⟨0, State.reset, ⟨1, 0, 0, 0, .other⟩, by decide⟩

/-- The premises of `ServoRunCompletes` hold together. -/
theorem test_servoRun_premises :
    ∃ (t x : Nat) (d : Int) (s : State),
      (s.cfg.tb.source ≠ 0) ∧
      (s.tb.measured = some (x, d)) ∧
      ((ticksToPs d).natAbs ≤ s.cfg.tb.stepNs * 1000) ∧
      (s.tb.timeSet = true) ∧
      (s.tb.measureNew = true) ∧
      (s.tb.holdover = none) ∧
      (s.tb.refclk = true) ∧
      (s.tb.synthLocked = true) :=
  ⟨0, 0, 1000, (State.reset.modTb (fun b => { b with measured := some (0, 1000), timeSet := true, measureNew := true, holdover := none, synthLocked := true })), by decide⟩

/-- The premises of `ServoStepCompletes` hold together. -/
theorem test_servoStep_premises :
    ∃ (t x : Nat) (d : Int) (s : State),
      (s.cfg.tb.source ≠ 0) ∧
      (s.tb.measured = some (x, d)) ∧
      (s.tb.measureNew = true) ∧
      (s.tb.refclk = true) ∧
      (s.tb.synthLocked = true) ∧
      (s.tb.holdover = none) ∧
      (s.cfg.tb.stepNs * 1000 < (ticksToPs d).natAbs) ∧
      (twoMeasured s.tb = true) ∧
      (s.tb.pendStep = none) ∧
      (s.tb.disagree < 3) :=
  ⟨0, 128000000000, 1000000, (State.reset.modTb (fun b => { b with measured := some (128000000000, 1000000), measuredPrev := some (0, 1000000), measureNew := true, synthLocked := true, holdover := none })), by decide⟩

/-- The premises of `ServoHeldCompletes` hold together. -/
theorem test_servoHeld_premises :
    ∃ (t : Nat) (s : State),
      (s.cfg.tb.source ≠ 0) ∧
      (s.tb.refclk = false) ∧
      (s.tb.disagree < 3) :=
  ⟨0, (State.reset.modTb (fun b => { b with measured := some (0, 1000), timeSet := true, measureNew := true, refclk := false })), by decide⟩

/-- The premises of `TbStepCompletes` hold together. -/
theorem test_tbStep_premises :
    ∃ (t : Nat) (p : PendStep) (s : State),
      (s.tb.pendStep = some p) ∧
      (p.at_ ≤ max s.now t) ∧
      (p.newSecTick ≠ p.at_) :=
  ⟨128000000000, ⟨128000000000, true, 128000000256, 1⟩, (State.reset.modTb (fun b => { b with pendStep := some ⟨128000000000, true, 128000000256, 1⟩ })), by decide⟩

/-- The premises of `TimeSetCompletes` hold together. -/
theorem test_timeSet_premises :
    ∃ (t : Nat) (s : State),
      ((s.atInstant t).isBoundary (s.atInstant t).now = true) ∧
      ((s.tb.phaseFixed = true ∨ s.cfg.tb.source = 0)) ∧
      (s.tb.secondFixed = true) :=
  ⟨0, (State.reset.modTb (fun b => { b with phaseFixed := true, secondFixed := true })), by decide⟩

/-- The premises of `HoldoverEndCompletes` hold together. -/
theorem test_holdoverEnd_premises :
    ∃ (t cause since : Nat) (s : State),
      (s.tb.holdover = some (cause, since)) ∧
      ((s.atInstant t).isBoundary (s.atInstant t).now = true) ∧
      (s.tb.refclk = true) ∧
      (s.tb.synthLocked = true) ∧
      (s.sourceLocked = true) ∧
      ((cause = 3 ∨ s.tb.regained = true)) ∧
      (s.tb.offsetPs.natAbs ≤ 50000) :=
  ⟨128000000000, 0, 0, (State.reset.modTb (fun b => { b with holdover := some (0, 0), ppsLocked := true, regained := true, synthLocked := true })), by decide⟩

/-- The premises of `ThermosWarmCompletes` hold together. -/
theorem test_thermosWarm_premises :
    ∃ (t : Nat) (s : State),
      (s.tb.warm = false) ∧
      (s.tb.refclk = true) ∧
      (s.cfg.tb.warmS ≤ (s.atInstant t).warmElapsed) ∧
      ((s.disciplined = false ∨ windowsCalm s.tb.steerHist (s.cfg.tb.warmPpb * 10) = true)) :=
  ⟨900 * ticksPerSecond, State.reset, by decide⟩

/-- The premises of `ThermosNotWarmCompletes` hold together. -/
theorem test_thermosNotWarm_premises :
    ∃ (t : Nat) (s : State),
      (s.tb.warm = true) ∧
      (s.disciplined = true) ∧
      (11 ≤ s.tb.steerHist.length) ∧
      (40 * s.cfg.tb.warmPpb < (nth s.tb.steerHist 0 0 - nth s.tb.steerHist 10 0).natAbs) :=
  ⟨0, (State.reset.modTb (fun b => { b with warm := true, ppsLocked := true, steerHist := 100000 :: List.replicate 10 0 })), by decide⟩

/-- The premises of `TbConfigCompletes` hold together. -/
theorem test_tbConfig_premises :
    ∃ (t : Nat) (c : Cmd) (s : State),
      ((s.atInstant t).admits 0x0801 c = true) ∧
      (tbCfgOk (readTbCfg c.arg) = true) ∧
      (s.pendOp 0x0801 = none) ∧
      (((readTbCfg c.arg).source = 4 → s.cfg.trail.root = false)) ∧
      (((readTbCfg c.arg).source ≠ 4 → s.cfg.trail.member = true → s.cfg.trail.root = true)) :=
  ⟨0, cmdWith (u8 2 ++ u8 0 ++ u8 0 ++ u8 0 ++ u8 0 ++ u8 1 ++ u16 100 ++ u32 0 ++ u32 1000 ++ u16 900 ++ u16 100 ++ u16 1000 ++ zeros 2), readyState, by decide⟩

/-- The premises of `TiuSelfCheckGoodCompletes` hold together. -/
theorem test_tiuSelfCheckGood_premises :
    ∃ (t u m : Nat) (s : State),
      (u ≤ 4) ∧
      ((s.hUnit kindTiu u).serves = true) ∧
      ((s.tiuOf u).arming = none) ∧
      (((m : Int) - 64 * 256).natAbs ≤ 2) :=
  ⟨0, 0, 16384, State.reset, by decide⟩

/-- The premises of `TiuSelfCheckBadCompletes` hold together. -/
theorem test_tiuSelfCheckBad_premises :
    ∃ (t u m : Nat) (s : State),
      (u ≤ 4) ∧
      ((s.hUnit kindTiu u).serves = true) ∧
      ((s.hUnit kindTiu u).due = none) ∧
      ((s.tiuOf u).arming = none) ∧
      (2 < ((m : Int) - 64 * 256).natAbs) ∧
      (u < (nth s.health.units kindTiu []).length) :=
  ⟨0, 0, 16387, State.reset, by decide⟩

/-- The premises of `TiuSparedCompletes` hold together. -/
theorem test_tiuSpared_premises :
    ∃ (t u j : Nat) (s : State),
      ((s.hUnit kindTiu u).due.isSome = true) ∧
      ((s.hUnit kindTiu u).serves = true) ∧
      (s.spareFor kindTiu u = some j) ∧
      ((s.tiuOf u).arming = none) ∧
      (u < (nth s.health.units kindTiu []).length) ∧
      (j < (nth s.health.units kindTiu []).length) :=
  ⟨0, 0, 4, State.reset.modHUnit kindTiu 0 (fun h => { h with due := some (2, false) }), by decide⟩

/-- The premises of `TiuResultCompletes` hold together. -/
theorem test_tiuResult_premises :
    ∃ (t u start x stop : Nat) (a : Arming) (s : State),
      ((s.tiuOf u).arming = some a) ∧
      (a.zero = false) ∧
      (a.startAt = some x) ∧
      (tiuHidden a.stop = true) ∧
      (a.armedAt ≤ stop) ∧
      (max x stop ≤ a.armedAt + a.timeout * ticksPerCell) ∧
      ((a.signed = true ∨ x ≤ stop)) ∧
      ((s.tiuOf u).locked = true) ∧
      (2 ≤ ((stop : Int) - x).natAbs) ∧
      ((s.atInstant t).canReport = true) :=
  ⟨0, 0, 0, 10, 300, armingA, armedState armingA, by decide⟩

/-- The premises of `TiuResultSeenCompletes` hold together. -/
theorem test_tiuResultSeen_premises :
    ∃ (t u start x y : Nat) (a : Arming) (s : State),
      ((s.tiuOf u).arming = some a) ∧
      (a.zero = false) ∧
      (a.startAt = none) ∧
      (tiuHidden a.start = true) ∧
      (tiuHidden a.stop = false) ∧
      (a.signed = false) ∧
      (a.armedAt ≤ start) ∧
      (start ≤ a.armedAt + a.timeout * ticksPerCell) ∧
      (a.stops.find? (fun y => decide (start ≤ y)) = some y) ∧
      ((s.tiuOf u).locked = true) ∧
      (2 ≤ ((y : Int) - start).natAbs) ∧
      ((s.atInstant t).canReport = true) :=
  ⟨0, 0, 10, 0, 300, armingB, armedState armingB, by decide⟩

/-- The premises of `TiuWrongOrderCompletes` hold together. -/
theorem test_tiuWrongOrder_premises :
    ∃ (t u start x stop : Nat) (a : Arming) (s : State),
      ((s.tiuOf u).arming = some a) ∧
      (a.startAt = some x) ∧
      (tiuHidden a.stop = true) ∧
      (a.armedAt ≤ stop) ∧
      (x ≤ a.armedAt + a.timeout * ticksPerCell) ∧
      (a.signed = false) ∧
      (stop < x) :=
  ⟨0, 0, 0, 10, 5, armingA, armedState armingA, by decide⟩

/-- The premises of `TiuTimeoutCompletes` hold together. -/
theorem test_tiuTimeout_premises :
    ∃ (t u : Nat) (a : Arming) (s : State),
      ((s.tiuOf u).arming = some a) ∧
      (a.zero = false) ∧
      (a.armedAt + a.timeout * ticksPerCell ≤ max s.now t) :=
  ⟨256000, 0, armingA, armedState armingA, by decide⟩

/-- The premises of `TiuMeasureCompletes` hold together. -/
theorem test_tiuMeasure_premises :
    ∃ (t : Nat) (c : Cmd) (s : State),
      ((s.atInstant t).admits 0x0803 c = true) ∧
      (tiuSrcOk (s.atInstant t) (rd c.arg 0 1) (rd c.arg 1 1) true = true) ∧
      (tiuSrcOk (s.atInstant t) (rd c.arg 2 1) (rd c.arg 3 1) false = true) ∧
      (rd c.arg 4 1 ≤ 1) ∧
      (1 ≤ rd c.arg 8 4) ∧
      (rd c.arg 8 4 ≤ 2000000000) ∧
      ((s.atInstant t).armRefusal = none) ∧
      ((c.applyAt = 0#96 → (s.atInstant t).freeUnit.isSome = true)) :=
  ⟨0, cmdWith (u8 0 ++ u8 0 ++ u8 0 ++ u8 1 ++ u8 0 ++ zeros 3 ++ u32 1000), readyState, by decide⟩

/-- The premises of `TiuArmedCompletes` hold together. -/
theorem test_tiuArmed_premises :
    ∃ (t u : Nat) (p : Pend) (s : State),
      (s.pendOp 0x0803 = some p) ∧
      (p.applyAt.getD p.accepted ≤ max s.now t) ∧
      ((s.atInstant t).freeUnit = some u) ∧
      ((s.atInstant t).armings < (s.atInstant t).armLimit) ∧
      (s.tiu.units.length = 5) :=
  ⟨0, 0, ⟨0x0803, 0, 1, 0, none, none, [0], zeros 12⟩, { readyState with pend := [⟨0x0803, 0, 1, 0, none, none, [0], zeros 12⟩] }, by decide⟩

/-- The premises of `TiuLaunchZeroCompletes` hold together. -/
theorem test_tiuLaunchZero_premises :
    ∃ (t : Nat) (q : Plan) (c : Cmd) (s : State),
      ((s.atInstant t).admits 0x0804 c = true) ∧
      ((s.atInstant t).badLine (rd c.arg 0 1) = false) ∧
      ((1 ≤ rd c.arg 2 1 ∧ rd c.arg 2 1 ≤ 64)) ∧
      ((10 ≤ rd c.arg 4 2 ∧ rd c.arg 4 2 ≤ 500 ∧ rd c.arg 4 2 % 10 = 0)) ∧
      ((-2097152 ≤ rdS c.arg 8 4 ∧ rdS c.arg 8 4 ≤ 2097152)) ∧
      ((s.atInstant t).plan? (rd c.arg 0 1) = some q) ∧
      (rd c.arg 1 1 < q.tones.length) ∧
      (s.tiu.launchRun = none) ∧
      (s.emit.level = true) ∧
      (((s.atInstant t).gridOf (rd c.arg 0 1)).spot = none) ∧
      ((s.atInstant t).armRefusal = none) ∧
      ((s.atInstant t).spotInstant (rd c.arg 0 1) q (rd c.arg 1 1) (c.at_ (s.atInstant t)) true ≠ none) :=
  ⟨0, planA, cmdWith (u8 0 ++ u8 0 ++ u8 1 ++ u8 0 ++ u16 10 ++ u16 0 ++ u32 0), planState, by decide⟩

/-- The premises of `TiuStatusCompletes` hold together. -/
theorem test_tiuStatus_premises :
    ∃ (t : Nat) (c : Cmd) (s : State),
      ((s.atInstant t).admits 0x0805 c = true) :=
  ⟨0, cmdWith (zeros 4), readyState, by decide⟩

/-- The premises of `LaunchZeroDoneCompletes` hold together. -/
theorem test_launchZeroDone_premises :
    ∃ (t : Nat) (r : LaunchZeroRun) (p : Pend) (s : State),
      (s.tiu.launchRun = some r) ∧
      (s.pendOp 0x0804 = some p) ∧
      (r.left = 0) ∧
      (s.tiu.units.all (fun u => match u.arming with | some a => !a.zero | none => true) = true) ∧
      (r.hits ≠ []) :=
  ⟨0, ⟨0, 0, 1, 100, 0, [512]⟩, ⟨0x0804, 0, 1, 0, none, none, [0], zeros 12⟩, zeroState [512], by decide⟩

/-- The premises of `LaunchZeroMissedCompletes` hold together. -/
theorem test_launchZeroMissed_premises :
    ∃ (t : Nat) (r : LaunchZeroRun) (p : Pend) (s : State),
      (s.tiu.launchRun = some r) ∧
      (s.pendOp 0x0804 = some p) ∧
      (r.left = 0) ∧
      (s.tiu.units.all (fun u => match u.arming with | some a => !a.zero | none => true) = true) ∧
      (r.hits = []) :=
  ⟨0, ⟨0, 0, 1, 100, 0, []⟩, ⟨0x0804, 0, 1, 0, none, none, [0], zeros 12⟩, zeroState [], by decide⟩

/-- The premises of `TbConfigTakesEffectCompletes` hold together. -/
theorem test_tbConfigTakesEffect_premises :
    ∃ (t : Nat) (p : Pend) (s : State),
      (s.pendOp 0x0801 = some p) ∧
      ((s.atInstant t).boundaryAtOrAfter (p.applyAt.getD p.accepted) ≤ max s.now t) :=
  ⟨0, ⟨0x0801, 0, 1, 0, none, none, [0], zeros 24⟩, { readyState with pend := [⟨0x0801, 0, 1, 0, none, none, [0], zeros 24⟩] }, by decide⟩

/-- The premises of `TbStatusCompletes` hold together. -/
theorem test_tbStatus_premises :
    ∃ (t : Nat) (c : Cmd) (s : State),
      ((s.atInstant t).admits 0x0802 c = true) :=
  ⟨0, cmdWith (zeros 4), readyState, by decide⟩

/-- The premises of `TrailConfigCompletes` hold together. -/
theorem test_trailConfig_premises :
    ∃ (t : Nat) (c : Cmd) (s : State),
      ((s.atInstant t).admits 0x0806 c = true) ∧
      ((readTrailCfg c.arg).nodeId ≤ 4095) ∧
      ((-512 ≤ (readTrailCfg c.arg).asym ∧ (readTrailCfg c.arg).asym ≤ 512)) ∧
      (¬ ((readTrailCfg c.arg).root = true ∧ (readTrailCfg c.arg).port 0 = true)) ∧
      (s.pendOp 0x0806 = none) ∧
      (((readTrailCfg c.arg).root = true → s.cfg.tb.source ≠ 4)) ∧
      (((readTrailCfg c.arg).root = false → (readTrailCfg c.arg).port 0 = true → s.cfg.tb.source = 4 ∨ (s.atInstant t).pendTrailSource = true)) :=
  ⟨0, cmdWith (u16 5 ++ u8 1 ++ zeros 5), readyState, by decide⟩

/-- The premises of `TrailConfigTakesEffectCompletes` hold together. -/
theorem test_trailConfigTakesEffect_premises :
    ∃ (t : Nat) (p : Pend) (s : State),
      (s.pendOp 0x0806 = some p) ∧
      ((s.atInstant t).boundaryAtOrAfter (p.applyAt.getD p.accepted) ≤ max s.now t) :=
  ⟨0, ⟨0x0806, 0, 1, 0, none, none, [0], zeros 8⟩, { readyState with pend := [⟨0x0806, 0, 1, 0, none, none, [0], zeros 8⟩] }, by decide⟩

/-- The premises of `TrailStatusCompletes` hold together. -/
theorem test_trailStatus_premises :
    ∃ (t : Nat) (c : Cmd) (s : State),
      ((s.atInstant t).admits 0x0807 c = true) :=
  ⟨0, cmdWith (zeros 4), readyState, by decide⟩

/-- The premises of `SyncTxCompletes` hold together. -/
theorem test_syncTx_premises :
    ∃ (t p : Nat) (s : State),
      ((s.atInstant t).isBoundary (s.atInstant t).now = true) ∧
      ((p = 1 ∨ p = 2)) ∧
      ((s.atInstant t).mayForward p = true) :=
  ⟨0, 1, (readyState.modCfg (fun g => { g with trail := ⟨0, 1 + 4, 0⟩ })).modTrail (fun r => { r with linkUp := [true, true, true] }), by decide⟩

/-- The premises of `TopoTxCompletes` hold together. -/
theorem test_topoTx_premises :
    ∃ (t : Nat) (s : State),
      ((s.atInstant t).trailUp 0 = true) ∧
      (((s.atInstant t).secondAt (s.atInstant t).now).2 = 100000000 * ticksPerCell) :=
  ⟨100000000 * 256, (readyState.modCfg (fun g => { g with trail := ⟨0, 2, 0⟩ })).modTrail (fun r => { r with linkUp := [true, true, true] }), by decide⟩

/-- The premises of `DelayReqTxCompletes` hold together. -/
theorem test_delayReqTx_premises :
    ∃ (t : Nat) (s : State),
      ((s.atInstant t).trailUp 0 = true) ∧
      (((s.atInstant t).secondAt (s.atInstant t).now).2 = 250000000 * ticksPerCell) :=
  ⟨250000000 * 256, (readyState.modCfg (fun g => { g with trail := ⟨0, 2, 0⟩ })).modTrail (fun r => { r with linkUp := [true, true, true] }), by decide⟩

/-- The premises of `TopoRxCompletes` hold together. -/
theorem test_topoRx_premises :
    ∃ (t : Nat) (rx : TrailRx) (s : State),
      ((rx.port = 1 ∨ rx.port = 2)) ∧
      ((s.atInstant t).trailUp rx.port = true) ∧
      (frameOk rx.bytes = true) ∧
      (frameType rx.bytes = 5) :=
  ⟨0, ⟨1, (let b : List Byte := u8 5 ++ u16 (3 + 4096 * 2) ++ u16 4 ++ u8 5; b ++ u16 (crc16 trailCrcInit b))⟩, (readyState.modCfg (fun g => { g with trail := ⟨0, 1 + 2 + 4 + 8, 0⟩ })).modTrail (fun r => { r with linkUp := [true, true, true] }), by decide⟩

/-- The premises of `DelayReqRxCompletes` hold together. -/
theorem test_delayReqRx_premises :
    ∃ (t : Nat) (rx : TrailRx) (s : State),
      (rx.port ≠ 0) ∧
      ((s.atInstant t).trailUp rx.port = true) ∧
      (frameOk rx.bytes = true) ∧
      (frameType rx.bytes = 2) :=
  ⟨0, ⟨1, (let b : List Byte := u8 2 ++ u16 (3 + 4096 * 2) ++ u8 7; b ++ u16 (crc16 trailCrcInit b))⟩, (readyState.modCfg (fun g => { g with trail := ⟨0, 1 + 2 + 4 + 8, 0⟩ })).modTrail (fun r => { r with linkUp := [true, true, true] }), by decide⟩

/-- The premises of `DelayRespRxCompletes` hold together. -/
theorem test_delayRespRx_premises :
    ∃ (t t1 : Nat) (rx : TrailRx) (s : State),
      (rx.port = 0) ∧
      ((s.atInstant t).trailUp 0 = true) ∧
      (frameOk rx.bytes = true) ∧
      (frameType rx.bytes = 3) ∧
      (s.trail.t1 = some t1) ∧
      (rd rx.bytes 3 1 = s.trail.reqSeq) ∧
      ((((s.atInstant t).frameIn 0).takeStamp (s.atInstant t).now).2.2.1 = true) :=
  ⟨0, 0, ⟨0, (let b : List Byte := u8 3 ++ u16 (3 + 4096 * 2) ++ u8 0 ++ leBytes 5 10 ++ u32 300; b ++ u16 (crc16 trailCrcInit b))⟩, (readyState.modCfg (fun g => { g with trail := ⟨0, 2 + 4 + 8, 0⟩ })).modTrail (fun r => { r with linkUp := [true, true, true], t1 := some 0 }), by decide⟩

/-- The premises of `TrailSourceLostCompletes` hold together. -/
theorem test_trailSourceLost_premises :
    ∃ (t : Nat) (s : State),
      (s.cfg.tb.source = 4) ∧
      (s.tb.trailLocked = true) ∧
      (3 ≤ s.trail.syncMissRun) :=
  ⟨0, ((readyState.modCfg (fun g => { g with tb := { g.tb with source := 4 } })).modTrail (fun r => { r with syncMissRun := 3 })).modTb (fun b => { b with trailLocked := true }), by decide⟩

/-- The premises of `SyncRxCompletes` hold together. -/
theorem test_syncRx_premises :
    ∃ (t : Nat) (rx : TrailRx) (s : State),
      (rx.port = 0) ∧
      ((s.atInstant t).trailUp 0 = true) ∧
      (frameOk rx.bytes = true) ∧
      (frameType rx.bytes = 1) ∧
      (frameDepth rx.bytes < 12) :=
  ⟨0, ⟨0, (let b : List Byte := u8 1 ++ u16 (3 + 4096 * 2) ++ leBytes 5 9 ++ u8 3; b ++ u16 (crc16 trailCrcInit b))⟩, (readyState.modCfg (fun g => { g with trail := ⟨0, 2 + 4 + 8, 0⟩ })).modTrail (fun r => { r with linkUp := [true, true, true], t1 := some 0 }), by decide⟩

/-- The premises of `SyncRxBadCompletes` hold together. -/
theorem test_syncRxBad_premises :
    ∃ (t : Nat) (rx : TrailRx) (s : State),
      (rx.port = 0) ∧
      ((s.atInstant t).trailUp 0 = true) ∧
      (frameOk rx.bytes = false) :=
  ⟨0, ⟨0, [1#8, 2#8]⟩, (readyState.modCfg (fun g => { g with trail := ⟨0, 2 + 4 + 8, 0⟩ })).modTrail (fun r => { r with linkUp := [true, true, true], t1 := some 0 }), by decide⟩

/-- The premises of `BcastOriginateCompletes` hold together. -/
theorem test_bcastOriginate_premises :
    ∃ (t cond p : Nat) (e : Nat × BitVec 96) (d : CondDef) (s : State),
      (s.trig.bcast.find? (fun e => e.1 == cond) = some e) ∧
      (s.condDef? cond = some d) ∧
      ((p ≤ 2)) ∧
      ((s.atInstant t).mayForward p = true) :=
  ⟨0, 3, 1, (3, 77#96), default, (((readyState.modCfg (fun g => { g with trail := ⟨0, 1 + 2 + 4 + 8, 0⟩ })).modTrail (fun r => { r with linkUp := [true, true, true] })).modCfg (fun g => { g with conds := g.conds.set 3 (some default) })).modTrig (fun q => { q with bcast := [(3, 77#96)] }), by decide⟩

/-- The premises of `TrailLinkChangeCompletes` hold together. -/
theorem test_trailLinkChange_premises :
    ∃ (t p : Nat) (up : Bool) (s : State),
      (p ≤ 2) ∧
      (s.cfg.trail.port p = true) ∧
      (nth s.trail.linkUp p false ≠ up) :=
  ⟨0, 1, false, (readyState.modCfg (fun g => { g with trail := ⟨0, 1 + 2 + 4 + 8, 0⟩ })).modTrail (fun r => { r with linkUp := [true, true, true] }), by decide⟩

/-- The premises of `ThermalSheetTakenCompletes` hold together. -/
theorem test_thermalSheetTaken_premises :
    ∃ (t l k : Nat) (as st : List Int) (g : ThermCfg) (e : ThermSheet) (rest : List ThermSheet) (s : State),
      (s.thermCfg? l = some g) ∧
      (s.sliceAt l = some k) ∧
      (s.pwr.st < 2) ∧
      ((s.sliceOf k).leave = false) ∧
      ((s.sliceOf k).iv.taken < g.interval) ∧
      ((s.sliceOf k).cand = e :: rest) ∧
      ((s.sliceOf k).held = none) ∧
      ((s.sliceOf k).closeAt = none) ∧
      ((s.sliceOf k).discardNext = false) ∧
      (e.dark = false) ∧
      (g.background = false) ∧
      (e.tick + g.endCell * ticksPerCell ≤ max s.now t) :=
  ⟨500000, 0, 0, List.replicate 4 9, List.replicate 4 7, { (default : ThermCfg) with interval := 3, bins := 2, tbin := 4, darkFirst := 8, darkCount := 4 }, ⟨0, 0, 0, false, false, 0⟩, [], (readyState.modCfg (fun r => { r with therm := r.therm.set 0 (some { (default : ThermCfg) with interval := 3, bins := 2, tbin := 4, darkFirst := 8, darkCount := 4 }) })).modSlice 0 (fun c => { c with line := some 0, cand := [⟨0, 0, 0, false, false, 0⟩] }), by decide⟩

/-- The premises of `ThermalSheetTakenDarkCompletes` hold together. -/
theorem test_thermalSheetTakenDark_premises :
    ∃ (t l k : Nat) (as st : List Int) (g : ThermCfg) (e : ThermSheet) (rest : List ThermSheet) (s : State),
      (s.thermCfg? l = some g) ∧
      (s.sliceAt l = some k) ∧
      (s.pwr.st < 2) ∧
      ((s.sliceOf k).leave = false) ∧
      ((s.sliceOf k).iv.taken < g.interval) ∧
      ((s.sliceOf k).cand = e :: rest) ∧
      ((s.sliceOf k).held = none) ∧
      ((s.sliceOf k).closeAt = none) ∧
      (e.dark = true) ∧
      (g.background = false) ∧
      (e.tick + g.endCell * ticksPerCell ≤ max s.now t) :=
  ⟨500000, 0, 0, List.replicate 4 9, List.replicate 4 7, { (default : ThermCfg) with interval := 3, bins := 2, tbin := 4, darkFirst := 8, darkCount := 4 }, ⟨0, 0, 0, true, false, 0⟩, [], (readyState.modCfg (fun r => { r with therm := r.therm.set 0 (some { (default : ThermCfg) with interval := 3, bins := 2, tbin := 4, darkFirst := 8, darkCount := 4 }) })).modSlice 0 (fun c => { c with line := some 0, cand := [⟨0, 0, 0, true, false, 0⟩] }), by decide⟩

/-- The premises of `ThermalIntervalCloseCompletes` hold together. -/
theorem test_thermalIntervalClose_premises :
    ∃ (t l k : Nat) (g : ThermCfg) (a b : ThermSheet) (s : State),
      (s.thermCfg? l = some g) ∧
      (s.sliceAt l = some k) ∧
      ((s.sliceOf k).leave = false) ∧
      (g.interval ≤ (s.sliceOf k).iv.taken) ∧
      (0 < g.interval) ∧
      ((s.sliceOf k).iv.first = some a) ∧
      ((s.sliceOf k).iv.last = some b) ∧
      (l < s.therm.lines.length) :=
  ⟨500000, 0, 0, { (default : ThermCfg) with interval := 1, bins := 2, tbin := 4, darkFirst := 8, darkCount := 4, refBins := 1, fixedRef := true }, ⟨0, 0, 0, false, false, 0⟩, ⟨0, 0, 0, false, false, 0⟩, (readyState.modCfg (fun r => { r with therm := r.therm.set 0 (some { (default : ThermCfg) with interval := 1, bins := 2, tbin := 4, darkFirst := 8, darkCount := 4, refBins := 1, fixedRef := true }) })).modSlice 0 (fun c => { c with line := some 0, iv := { Interval.empty with taken := 1, first := some ⟨0, 0, 0, false, false, 0⟩, last := some ⟨0, 0, 0, false, false, 0⟩ } }), by decide⟩

/-- The premises of `ThermalSwitchCompletes` hold together. -/
theorem test_thermalSwitch_premises :
    ∃ (t k p l : Nat) (s : State),
      (k ≤ 3) ∧
      ((s.sliceOf k).phys = some p) ∧
      ((s.atInstant t).nextOfRing k (s.sliceOf k).line = some l) ∧
      (s.pwr.st < 2) ∧
      ((s.atInstant t).mayLeave k = true) ∧
      ((s.sliceOf k).switching = false) ∧
      ((s.sliceOf k).line ≠ some l) :=
  ⟨500000, 0, 0, 0, (((waveState.modCfg (fun g => { g with plans := g.plans.set 0 (some { planA with thermMode := 2 }) })).modLine 0 (fun r => { r with st := 2 })).modCfg (fun r => { r with rings := [1, 0, 0, 0], therm := r.therm.set 0 (some { (default : ThermCfg) with interval := 1 }) })), by decide⟩

/-- The premises of `ThermalSwitchSettledCompletes` hold together. -/
theorem test_thermalSwitchSettled_premises :
    ∃ (t k : Nat) (s : State),
      ((s.sliceOf k).switching = true) ∧
      ((s.sliceOf k).settleAt ≤ max s.now t) :=
  ⟨500000, 0, readyState.modSlice 0 (fun c => { c with switching := true, settleAt := 10 }), by decide⟩

/-- The premises of `ThermSparedCompletes` hold together. -/
theorem test_thermSpared_premises :
    ∃ (t p k n : Nat) (s : State),
      (¬ (((s.atInstant t).hUnit kindSlice p).st = 5 ∧ ((s.atInstant t).hUnit kindSlice p).noSpare = true)) ∧
      (((s.atInstant t).hUnit kindSlice p).wantsSpare = true) ∧
      (s.logicalOf p = some k) ∧
      ((s.atInstant t).spareFor kindSlice p = some n) ∧
      ((s.atInstant t).canReport = true) :=
  ⟨500, 1, 1, 4, readyState.modHUnit kindSlice 1 (fun u => { u with due := some 0 }), by decide⟩

/-- The premises of `ThermConfigCompletes` hold together. -/
theorem test_thermConfig_premises :
    ∃ (t : Nat) (c : Cmd) (s : State),
      ((s.atInstant t).admits 0x0901 c = true) ∧
      ((s.atInstant t).badLine (rd c.arg 0 1) = false) ∧
      ((bit (rd c.arg 1 1) 3 = true ∨ (readTherm c.arg).ok (s.plan? (rd c.arg 0 1)) = true)) ∧
      ((s.atInstant t).pendOf 0x0901 (rd c.arg 0 1) = none) :=
  ⟨0, cmdWith (u8 0 ++ u8 8 ++ zeros 46), readyState, by decide⟩

/-- The premises of `ThermConfigTakesEffectCompletes` hold together. -/
theorem test_thermConfigTakesEffect_premises :
    ∃ (t l : Nat) (p : Pend) (s : State),
      (s.pendOf 0x0901 l = some p) ∧
      ((∀ k ∈ s.sliceAt l, (s.sliceOf k).inProgress = false)) :=
  ⟨0, 1, ⟨0x0901, 0, 1, 0, none, none, [1], u8 1 ++ u8 8 ++ zeros 46⟩, { readyState with pend := [⟨0x0901, 0, 1, 0, none, none, [1], u8 1 ++ u8 8 ++ zeros 46⟩] }, by decide⟩

/-- The premises of `ThermRouteCompletes` hold together. -/
theorem test_thermRoute_premises :
    ∃ (t : Nat) (c : Cmd) (s : State),
      ((s.atInstant t).admits 0x0902 c = true) ∧
      (rd c.arg 0 1 = 1) ∧
      ((∀ l < 16, (((List.range 4).map (fun k => rd c.arg (4 + 2 * k) 2)).filter (fun m => bit m l)).length ≤ 1)) ∧
      ((s.atInstant t).maskEnabled (((List.range 4).map (fun k => rd c.arg (4 + 2 * k) 2)).foldl (· ||| ·) 0) = true) ∧
      (s.pendOp 0x0902 = none) ∧
      ((∀ l ∈ maskList 16 (((List.range 4).map (fun k => rd c.arg (4 + 2 * k) 2)).foldl (· ||| ·) 0), s.thermCfg? l ≠ none)) ∧
      ((∀ k < 4, rd c.arg (4 + 2 * k) 2 = s.ringOf k ∨ rd c.arg (4 + 2 * k) 2 = 0 ∨ (s.sliceOf k).phys ≠ none)) :=
  ⟨0, cmdWith (u8 1 ++ zeros 3 ++ u16 1 ++ u16 0 ++ u16 0 ++ u16 0), readyState.modCfg (fun r => { r with therm := r.therm.set 0 (some { (default : ThermCfg) with interval := 1 }) }), by decide⟩

/-- The premises of `ThermStatusCompletes` hold together. -/
theorem test_thermStatus_premises :
    ∃ (t : Nat) (c : Cmd) (s : State),
      ((s.atInstant t).admits 0x0903 c = true) ∧
      ((s.atInstant t).badLine (rd c.arg 0 1) = false) :=
  ⟨0, cmdWith (zeros 4), readyState, by decide⟩

/-- The premises of `RefScanStartCompletes` hold together. -/
theorem test_refScanStart_premises :
    ∃ (t n : Nat) (more : List Nat) (s : State),
      (s.pwr.st < 2) ∧
      (s.cfg.scan = n :: more) ∧
      ((s.atInstant t).scanInstant s.cfg.scanMs = true) ∧
      (s.pendOp 0x0905 = none) ∧
      (s.pendOp 0x0906 = none) ∧
      (s.therm.front.rest = []) ∧
      (s.therm.front.conv = none) :=
  ⟨ticksPerSecond, 3, [4], readyState.modCfg (fun g => { g with scanMs := 100, scan := [3, 4] }), by decide⟩

/-- The premises of `RefConversionDoneCompletes` hold together. -/
theorem test_refConversionDone_premises :
    ∃ (t : Nat) (v : RefConv) (w : RefConversion) (s : State),
      (s.therm.front.conv = some v) ∧
      (v.channel = w.channel) ∧
      (v.start + v.cfg.duration ≤ max s.now t) ∧
      (v.cfg.paired = false) ∧
      (v.cfg.outputs = false) ∧
      (w.plus.length = v.cfg.bits) ∧
      (w.minus = []) ∧
      (v.cfg.cmBad w.cmMv = false) ∧
      (w.compliance = false) ∧
      (s.therm.front.rest = []) ∧
      (s.pendOp 0x0906 = none) ∧
      (v.channel < s.therm.front.chans.length) :=
  ⟨ticksPerSecond, ⟨2, 0, { RefChCfg.factory with type := 3, single := true }, false, 0, false, false, false⟩, { channel := 2, plus := List.replicate 64 true, minus := [], cmMv := 700, compliance := false, clamp := false }, readyState.modFront (fun r => { r with conv := some ⟨2, 0, { RefChCfg.factory with type := 3, single := true }, false, 0, false, false, false⟩ }), by decide⟩

/-- The premises of `RefLeadCompletes` hold together. -/
theorem test_refLead_premises :
    ∃ (t n cm : Nat) (v : RefConv) (s : State),
      (s.therm.front.conv = some v) ∧
      (v.channel = n) ∧
      (v.cfg.cmBad cm = true) ∧
      (v.leadCm = false) ∧
      ((s.atInstant t).canReport = true) :=
  ⟨ticksPerSecond, 2, 10, ⟨2, 0, { RefChCfg.factory with type := 3, single := true }, false, 0, false, false, false⟩, readyState.modFront (fun r => { r with conv := some ⟨2, 0, { RefChCfg.factory with type := 3, single := true }, false, 0, false, false, false⟩ }), by decide⟩

/-- The premises of `RefConfigCompletes` hold together. -/
theorem test_refConfig_premises :
    ∃ (t : Nat) (c : Cmd) (s : State),
      ((s.atInstant t).admits 0x0904 c = true) ∧
      (rd c.arg 0 1 ≤ 7) ∧
      ((readRefCh c.arg).ok = true) ∧
      (s.scanNames (rd c.arg 0 1) = false) ∧
      ((∀ o ∈ s.cfg.therm, ∀ g ∈ o, ThermCfg.refSensor g ≠ rd c.arg 0 1)) :=
  ⟨0, cmdWith (u8 1 ++ u8 3 ++ u8 0 ++ u8 0 ++ u8 0 ++ u8 0 ++ u8 5 ++ u8 1 ++ u32 1000 ++ zeros 12 ++ u16 50 ++ u16 1450 ++ zeros 4), readyState, by decide⟩

/-- The premises of `RefScanCompletes` hold together. -/
theorem test_refScan_premises :
    ∃ (t : Nat) (c : Cmd) (s : State),
      ((s.atInstant t).admits 0x0905 c = true) ∧
      ((10 ≤ rd c.arg 0 4 ∧ rd c.arg 0 4 ≤ 60000)) ∧
      (rd c.arg 4 1 ≤ 16) ∧
      ((∀ k < rd c.arg 4 1, rd c.arg (8 + k) 1 ≤ 7 ∧ (s.refCfg (rd c.arg (8 + k) 1)).type ≠ 0)) ∧
      ((1000 % rd c.arg 0 4 = 0 ∨ rd c.arg 0 4 % 1000 = 0)) ∧
      (s.pendOp 0x0905 = none) ∧
      ((s.atInstant t).sdmDead = false) ∧
      (scanFits s.refCfg ((List.range (rd c.arg 4 1)).map (fun k => rd c.arg (8 + k) 1)) (rd c.arg 0 4) = true) :=
  ⟨0, cmdWith (u32 100 ++ u8 1 ++ zeros 3 ++ u8 2), readyState.modCfg (fun g => { g with refCh := g.refCh.set 2 { RefChCfg.factory with type := 1 } }), by decide⟩

/-- The premises of `RefUrgentCompletes` hold together. -/
theorem test_refUrgent_premises :
    ∃ (t : Nat) (v : RefConv) (c : Cmd) (s : State),
      ((s.atInstant t).admits 0x0906 c = true) ∧
      (rd c.arg 0 1 ≤ 7) ∧
      (s.pendOp 0x0906 = none) ∧
      (((s.refCfg (rd c.arg 0 1)).type ≠ 0 ∧ (s.refCfg (rd c.arg 0 1)).type ≠ 3)) ∧
      ((s.atInstant t).sdmDead = false) ∧
      (s.therm.front.conv = some v) :=
  ⟨0, default, cmdWith (u8 2 ++ zeros 3), (readyState.modCfg (fun g => { g with refCh := g.refCh.set 2 { RefChCfg.factory with type := 1 } })).modFront (fun r => { r with conv := some default }), by decide⟩

/-- The premises of `RefUrgentIdleCompletes` hold together. -/
theorem test_refUrgentIdle_premises :
    ∃ (t n : Nat) (c : Cmd) (s : State),
      ((s.atInstant t).admits 0x0906 c = true) ∧
      (rd c.arg 0 1 = n) ∧
      (n ≤ 7) ∧
      (s.pendOp 0x0906 = none) ∧
      (((s.refCfg n).type ≠ 0 ∧ (s.refCfg n).type ≠ 3)) ∧
      ((s.atInstant t).sdmDead = false) ∧
      (s.therm.front.conv = none) ∧
      (s.pwr.st < 2) :=
  ⟨300, 2, cmdWith (u8 2 ++ zeros 3), readyState.modCfg (fun g => { g with refCh := g.refCh.set 2 { RefChCfg.factory with type := 1 } }), by decide⟩

/-- The premises of `RefStatusCompletes` hold together. -/
theorem test_refStatus_premises :
    ∃ (t : Nat) (c : Cmd) (s : State),
      ((s.atInstant t).admits 0x0907 c = true) :=
  ⟨0, cmdWith (zeros 4), readyState, by decide⟩

/-- The premises of `ZoneEvaluationCompletes` hold together. -/
theorem test_zoneEvaluation_premises :
    ∃ (t n c x : Nat) (v : BitVec 96) (d : ZoneDef) (r : ZRule) (rest : List ZoneIn) (s : State),
      (s.zoneDef? n = some d) ∧
      ((s.zoneOf n).inbox = .hit c v x :: rest) ∧
      (s.zonesOn = true) ∧
      (s.panel.evaluating = true) ∧
      (d.rules = [r]) ∧
      ((r.kind = 0 ∧ r.cond = c ∧ r.target = 3 ∧ r.confirm = 1)) ∧
      ((s.zoneOf n).rules ≠ []) ∧
      (n < s.zones.length) :=
  ⟨5, 0, 16, 0, 0#96, ⟨false, 0, 10, 1, 1, [⟨0, 0, 5⟩], [⟨0, 3, false, 16, 1, 100, 0, 1⟩]⟩, ⟨0, 3, false, 16, 1, 100, 0, 1⟩, [], (({ readyState with zones := readyState.zones.set 0 { ZoneRun.reset true 0 with inbox := [.hit 16 0#96 0] } }).modCfg (fun g => { g with zones := g.zones.set 0 (some ⟨false, 0, 10, 1, 1, [⟨0, 0, 5⟩], [⟨0, 3, false, 16, 1, 100, 0, 1⟩]⟩) })).modPanel (fun p => { p with evaluating := true }), by decide⟩

/-- The premises of `ZoneHoldEndCompletes` hold together. -/
theorem test_zoneHoldEnd_premises :
    ∃ (t n k : Nat) (d : ZoneDef) (r : RuleRun) (rule : ZRule) (s : State),
      (s.zoneDef? n = some d) ∧
      (d.rules[k]? = some rule) ∧
      ((s.zoneOf n).rules[k]? = some r) ∧
      (r.on = true) ∧
      (rule.holdMs ≠ 0) ∧
      (r.fired + rule.holdMs * ticksPerMs ≤ max s.now t) ∧
      (s.zonesOn = true) ∧
      (s.panel.evaluating = true) ∧
      (n < s.zones.length) :=
  ⟨ticksPerSecond, 0, 0, ⟨false, 0, 10, 1, 1, [⟨0, 0, 5⟩], [⟨0, 3, false, 16, 1, 100, 0, 1⟩]⟩, { RuleRun.reset with on := true }, ⟨0, 3, false, 16, 1, 100, 0, 1⟩, (({ readyState with zones := readyState.zones.set 0 { ZoneRun.reset true 0 with rules := [{ RuleRun.reset with on := true }] } }).modCfg (fun g => { g with zones := g.zones.set 0 (some ⟨false, 0, 10, 1, 1, [⟨0, 0, 5⟩], [⟨0, 3, false, 16, 1, 100, 0, 1⟩]⟩) })).modPanel (fun p => { p with evaluating := true }), by decide⟩

/-- The premises of `ZoneFaultTimerCompletes` hold together. -/
theorem test_zoneFaultTimer_premises :
    ∃ (t n : Nat) (d : ZoneDef) (s : State),
      (s.zoneDef? n = some d) ∧
      (s.zonesOn = true) ∧
      (((s.atInstant t).faultBits d (s.zoneOf n)).2.1 = true) ∧
      (¬ ((s.zoneOf n).rules.zipIdx.any (fun e => e.1.active && (nth d.rules e.2 default).target == 3)) = true) ∧
      (n < s.zones.length) :=
  ⟨2 * ticksPerSecond, 0, ⟨true, 0, 10, 1, 1, [⟨0, 0, 5⟩], [⟨0, 3, false, 16, 1, 100, 0, 1⟩]⟩, (({ readyState with zones := readyState.zones.set 0 (ZoneRun.reset true 0) }).modCfg (fun g => { g with zones := g.zones.set 0 (some ⟨true, 0, 10, 1, 1, [⟨0, 0, 5⟩], [⟨0, 3, false, 16, 1, 100, 0, 1⟩]⟩) })).modPanel (fun p => { p with evaluating := true }), by decide⟩

/-- The premises of `VrefZMeasureCompletes` hold together. -/
theorem test_vrefZMeasure_premises :
    ∃ (t mv : Nat) (s : State),
      ((1000 ≤ mv ∧ mv ≤ 3300)) :=
  ⟨0, 2500, readyState, by decide⟩

/-- The premises of `VrefZMeasureOutsideCompletes` hold together. -/
theorem test_vrefZMeasureOutside_premises :
    ∃ (t mv : Nat) (s : State),
      ((mv < 1000 ∨ 3300 < mv)) ∧
      ((s.atInstant t).canReport = true) :=
  ⟨0, 500, readyState, by decide⟩

/-- The premises of `ZoneDefineCompletes` hold together. -/
theorem test_zoneDefine_premises :
    ∃ (t : Nat) (c : Cmd) (s : State),
      ((s.atInstant t).admits 0x0A01 c = true) ∧
      (bit (rd c.arg 1 1) 0 = false) ∧
      ((s.atInstant t).zoneOk (readZone c.arg) = true) ∧
      (rd c.arg 0 1 < s.zones.length) ∧
      ((s.atInstant t).canReport = true) :=
  ⟨5, cmdWith (u8 3 ++ u8 0 ++ u8 1 ++ u8 0 ++ u8 0 ++ u8 10 ++ u16 5 ++ u16 5 ++ zeros 6 ++ u8 0 ++ zeros 3 ++ u32 0 ++ u32 9 ++ zeros 100), readyState, by decide⟩

/-- The premises of `ZoneDefineRemoveCompletes` hold together. -/
theorem test_zoneDefineRemove_premises :
    ∃ (t : Nat) (c : Cmd) (s : State),
      ((s.atInstant t).admits 0x0A01 c = true) ∧
      (bit (rd c.arg 1 1) 0 = true) ∧
      (rd c.arg 0 1 < s.zones.length) ∧
      ((s.atInstant t).canReport = true) :=
  ⟨5, cmdWith (u8 3 ++ u8 1 ++ zeros 126), readyState, by decide⟩

/-- The premises of `ZoneAckCompletes` hold together. -/
theorem test_zoneAck_premises :
    ∃ (t : Nat) (c : Cmd) (s : State),
      ((s.atInstant t).admits 0x0A02 c = true) ∧
      (rd c.arg 0 32 ≠ 0) ∧
      (s.zones.length = 256) :=
  ⟨5, cmdWith (u8 1 ++ zeros 31), (({ readyState with zones := readyState.zones.set 0 { ZoneRun.reset true 0 with rules := [{ RuleRun.reset with latched := true }] } }).modCfg (fun g => { g with zones := g.zones.set 0 (some ⟨false, 0, 10, 1, 1, [⟨0, 0, 5⟩], [⟨0, 3, false, 16, 1, 100, 0, 1⟩]⟩) })).modPanel (fun p => { p with evaluating := true }), by decide⟩

/-- The premises of `ZoneStatusCompletes` hold together. -/
theorem test_zoneStatus_premises :
    ∃ (t : Nat) (c : Cmd) (s : State),
      ((s.atInstant t).admits 0x0A03 c = true) :=
  ⟨0, cmdWith (zeros 4), readyState, by decide⟩

/-- The premises of `PanelPinsCompletes` hold together. -/
theorem test_panelPins_premises :
    ∃ (t : Nat) (c : Cmd) (s : State),
      ((s.atInstant t).admits 0x0A04 c = true) ∧
      ((∀ k < 4, rd c.arg (36 * k) 1 ≤ 31)) :=
  ⟨0, cmdWith (u8 8 ++ zeros 3 ++ u32 1 ++ zeros 168), readyState, by decide⟩

/-- The premises of `PanelZoutCompletes` hold together. -/
theorem test_panelZout_premises :
    ∃ (t : Nat) (c : Cmd) (s : State),
      ((s.atInstant t).admits 0x0A05 c = true) ∧
      (rd c.arg 0 1 ≤ 7) ∧
      (rd c.arg 2 1 ≤ 2) ∧
      ((∀ k < 5, rd c.arg (4 + 2 * k) 2 ≤ 4095)) :=
  ⟨0, cmdWith (u8 1 ++ u8 3 ++ u8 1 ++ u8 0 ++ u16 1 ++ u16 2 ++ u16 3 ++ u16 4 ++ u16 5), readyState, by decide⟩

/-- The premises of `PanelStatusCompletes` hold together. -/
theorem test_panelStatus_premises :
    ∃ (t : Nat) (c : Cmd) (s : State),
      ((s.atInstant t).admits 0x0A06 c = true) :=
  ⟨0, cmdWith (zeros 4), readyState, by decide⟩

/-- The premises of `BaleReleaseCompletes` hold together. -/
theorem test_baleRelease_premises :
    ∃ (t lane id : Nat) (j : BaleJob) (p : Profile) (r : List Byte × BaleOut) (s : State),
      (s.job? id = some j) ∧
      (j.decode = false) ∧
      (j.stopped = false) ∧
      (j.result = none) ∧
      ((s.atInstant t).laneServes lane = true) ∧
      (s.profile? j.profile = some p) ∧
      (makeBale j.geom p.coding false ((s.atInstant t).jobBale j p).1 j.group j.row j.seq (j.outLen - j.outPos) ((s.atInstant t).jobBale j p).2.1 = some r) ∧
      (r.2.full = false) :=
  ⟨5, 0, 7, ⟨7, 0x0B02, 0, 1, false, 0, ⟨0, 0xFF, [0], 0, 16⟩, 1, 0, 0, 64, 4096, 1000, 0, 0, 0, 0, 0, 0, 0, 0, none, false⟩, ⟨⟨0, [0, 0, 0, 0, 0, 0], [0, 0, 0, 0, 0, 0]⟩, 32⟩, (makeBale ⟨0, 0xFF, [0], 0, 16⟩ ⟨0, [0, 0, 0, 0, 0, 0], [0, 0, 0, 0, 0, 0]⟩ false [] 0 0 0 1000 [⟨[], List.replicate 16 0⟩]).getD ([], default), (readyState.modBale (fun b => { b with jobs := [⟨7, 0x0B02, 0, 1, false, 0, ⟨0, 0xFF, [0], 0, 16⟩, 1, 0, 0, 64, 4096, 1000, 0, 0, 0, 0, 0, 0, 0, 0, none, false⟩] })).modCfg (fun g => { g with profiles := g.profiles.set 0 (some ⟨⟨0, [0, 0, 0, 0, 0, 0], [0, 0, 0, 0, 0, 0]⟩, 32⟩) }), by decide, by decide, by decide, by decide, by decide, by decide, by rfl, by rfl⟩

/-- The premises of `BaleNoSpaceCompletes` hold together. -/
theorem test_baleNoSpace_premises :
    ∃ (t lane id room : Nat) (fd : Option Nat) (rf : Bool) (j : BaleJob) (p : Profile) (s : State),
      (s.job? id = some j) ∧
      (j.decode = false) ∧
      (j.stopped = false) ∧
      (j.result = none) ∧
      ((s.atInstant t).laneServes lane = true) ∧
      (s.profile? j.profile = some p) ∧
      (makeBale j.geom p.coding false ((s.atInstant t).jobBale j p).1 j.group j.row j.seq (j.outLen - j.outPos) ((s.atInstant t).jobBale j p).2.1 = none) :=
  ⟨5, 0, 7, 0, none, false, { (⟨7, 0x0B02, 0, 1, false, 0, ⟨0, 0xFF, [0], 0, 16⟩, 1, 0, 0, 64, 4096, 1000, 0, 0, 0, 0, 0, 0, 0, 0, none, false⟩ : BaleJob) with outLen := 10 }, ⟨⟨0, [0, 0, 0, 0, 0, 0], [0, 0, 0, 0, 0, 0]⟩, 32⟩, (readyState.modBale (fun b => { b with jobs := [{ (⟨7, 0x0B02, 0, 1, false, 0, ⟨0, 0xFF, [0], 0, 16⟩, 1, 0, 0, 64, 4096, 1000, 0, 0, 0, 0, 0, 0, 0, 0, none, false⟩ : BaleJob) with outLen := 10 }] })).modCfg (fun g => { g with profiles := g.profiles.set 0 (some ⟨⟨0, [0, 0, 0, 0, 0, 0], [0, 0, 0, 0, 0, 0]⟩, 32⟩) }), by decide⟩

/-- The premises of `BaleProfileCompletes` hold together. -/
theorem test_baleProfile_premises :
    ∃ (t : Nat) (c : Cmd) (s : State),
      ((s.atInstant t).admits 0x0B01 c = true) ∧
      (rd c.arg 0 1 ≤ 15) ∧
      (bit (rd c.arg 1 1) 0 = false) ∧
      (rd c.arg 2 1 ≤ 2) ∧
      ((∀ j < 6, rd c.arg (4 + j) 1 ≤ 2 ∧ rd c.arg (10 + j) 1 ≤ 8)) ∧
      ((1 ≤ rd c.arg 16 2 ∧ rd c.arg 16 2 ≤ 4096)) :=
  ⟨5, cmdWith (u8 2 ++ u8 0 ++ u8 1 ++ zeros 13 ++ u16 32 ++ zeros 6), readyState, by decide⟩

/-- The premises of `BaleProfileRemoveCompletes` hold together. -/
theorem test_baleProfileRemove_premises :
    ∃ (t : Nat) (c : Cmd) (s : State),
      ((s.atInstant t).admits 0x0B01 c = true) ∧
      (rd c.arg 0 1 ≤ 15) ∧
      (bit (rd c.arg 1 1) 0 = true) ∧
      (s.profile? (rd c.arg 0 1) ≠ none) ∧
      (s.profileUsed (rd c.arg 0 1) = false) :=
  ⟨5, cmdWith (u8 0 ++ u8 1 ++ zeros 22), readyState.modCfg (fun g => { g with profiles := g.profiles.set 0 (some ⟨⟨0, [0, 0, 0, 0, 0, 0], [0, 0, 0, 0, 0, 0]⟩, 32⟩) }), by decide⟩

/-- The premises of `BaleRunEncodeCompletes` hold together. -/
theorem test_baleRunEncode_premises :
    ∃ (t : Nat) (p : Profile) (c : Cmd) (s : State),
      ((s.atInstant t).admits 0x0B02 c = true) ∧
      (rd c.payload 1 1 = 0) ∧
      (rd c.arg 1 1 = 0) ∧
      (encodeArgsOk c.arg (readBaleJob c 0x0B02) = true) ∧
      (rd c.arg 24 8 + rd c.arg 32 4 ≤ jobRegionBytes) ∧
      (rd c.arg 40 8 + rd c.arg 48 4 ≤ jobRegionBytes) ∧
      (rangesMeet (rd c.arg 24 8) (rd c.arg 32 4) (rd c.arg 40 8) (rd c.arg 48 4) = false) ∧
      (s.profile? (rd c.arg 0 1) = some p) ∧
      (p.fits 0 (readBaleJob c 0x0B02).geom.types = true) ∧
      (s.job? (rd c.arg 2 2) = none) ∧
      (s.bale.jobs.length < 16) ∧
      (s.noDram = false) ∧
      ((s.atInstant t).anyLane = true) :=
  ⟨5, ⟨⟨0, [0, 0, 0, 0, 0, 0], [0, 0, 0, 0, 0, 0]⟩, 32⟩, cmdWith (u8 0 ++ u8 0 ++ u16 7 ++ u8 1 ++ u8 0 ++ zeros 6 ++ u32 16 ++ u32 1 ++ u32 0 ++ u64 0 ++ u32 64 ++ zeros 4 ++ u64 4096 ++ u32 1000 ++ zeros 4), readyState.modCfg (fun g => { g with profiles := g.profiles.set 0 (some ⟨⟨0, [0, 0, 0, 0, 0, 0], [0, 0, 0, 0, 0, 0]⟩, 32⟩) }), by decide⟩

/-- The premises of `BaleRunDecodeCompletes` hold together. -/
theorem test_baleRunDecode_premises :
    ∃ (t : Nat) (c : Cmd) (s : State),
      ((s.atInstant t).admits 0x0B02 c = true) ∧
      (rd c.payload 1 1 = 1) ∧
      (rd c.arg 1 1 = 1) ∧
      (zeroAt c.arg 4 20 = true) ∧
      (rd c.arg 24 8 + rd c.arg 32 4 ≤ jobRegionBytes) ∧
      (rd c.arg 40 8 + rd c.arg 48 4 ≤ jobRegionBytes) ∧
      (rangesMeet (rd c.arg 24 8) (rd c.arg 32 4) (rd c.arg 40 8) (rd c.arg 48 4) = false) ∧
      (s.job? (rd c.arg 2 2) = none) ∧
      (s.bale.jobs.length < 16) ∧
      (s.noDram = false) ∧
      ((s.atInstant t).anyLane = true) :=
  ⟨5, cmdWith (u8 0 ++ u8 1 ++ u16 7 ++ zeros 20 ++ u64 0 ++ u32 64 ++ zeros 4 ++ u64 4096 ++ u32 1000 ++ zeros 4), readyState, by decide⟩

/-- The premises of `BaleJobDoneCompletes` hold together. -/
theorem test_baleJobDone_premises :
    ∃ (t id st : Nat) (j : BaleJob) (p : Pend) (s : State),
      (s.job? id = some j) ∧
      (j.result = some st) ∧
      (j.stopped = false) ∧
      ((st ≠ stBaleCancelled ∧ st ≠ stBaleNoSpace)) ∧
      (s.pendOf j.op id = some p) ∧
      ((s.atInstant t).canReport = true) :=
  ⟨5, 7, 0, { (⟨7, 0x0B02, 0, 1, false, 0, ⟨0, 0xFF, [0], 0, 16⟩, 1, 0, 0, 64, 4096, 1000, 0, 0, 0, 0, 0, 0, 0, 0, none, false⟩ : BaleJob) with result := some 0 }, ⟨0x0B02, 0, 1, 0, none, none, [7], zeros 56⟩, { readyState.modBale (fun b => { b with jobs := [{ (⟨7, 0x0B02, 0, 1, false, 0, ⟨0, 0xFF, [0], 0, 16⟩, 1, 0, 0, 64, 4096, 1000, 0, 0, 0, 0, 0, 0, 0, 0, none, false⟩ : BaleJob) with result := some 0 }] }) with pend := [⟨0x0B02, 0, 1, 0, none, none, [7], zeros 56⟩] }, by decide⟩

/-- The premises of `BaleJobStoppedCompletes` hold together. -/
theorem test_baleJobStopped_premises :
    ∃ (t id : Nat) (j : BaleJob) (p : Pend) (s : State),
      (s.job? id = some j) ∧
      (j.result = some stBaleNoSpace) ∧
      (j.stopped = false) ∧
      (s.pendOf j.op id = some p) ∧
      ((s.atInstant t).canReport = true) :=
  ⟨5, 7, { (⟨7, 0x0B02, 0, 1, false, 0, ⟨0, 0xFF, [0], 0, 16⟩, 1, 0, 0, 64, 4096, 1000, 0, 0, 0, 0, 0, 0, 0, 0, none, false⟩ : BaleJob) with result := some 0x8B01 }, ⟨0x0B02, 0, 1, 0, none, none, [7], zeros 56⟩, { readyState.modBale (fun b => { b with jobs := [{ (⟨7, 0x0B02, 0, 1, false, 0, ⟨0, 0xFF, [0], 0, 16⟩, 1, 0, 0, 64, 4096, 1000, 0, 0, 0, 0, 0, 0, 0, 0, none, false⟩ : BaleJob) with result := some 0x8B01 }] }) with pend := [⟨0x0B02, 0, 1, 0, none, none, [7], zeros 56⟩] }, by decide⟩

/-- The premises of `BaleResumeCompletes` hold together. -/
theorem test_baleResume_premises :
    ∃ (t id : Nat) (j : BaleJob) (c : Cmd) (s : State),
      ((s.atInstant t).admits 0x0B03 c = true) ∧
      (rd c.arg 0 2 = id) ∧
      (s.job? id = some j) ∧
      (j.stopped = true) ∧
      (rd c.arg 4 8 + rd c.arg 12 4 ≤ jobRegionBytes) ∧
      (rangesMeet j.input j.inLen (rd c.arg 4 8) (rd c.arg 12 4) = false) ∧
      (s.noDram = false) ∧
      ((s.atInstant t).anyLane = true) :=
  ⟨5, 7, { (⟨7, 0x0B02, 0, 1, false, 0, ⟨0, 0xFF, [0], 0, 16⟩, 1, 0, 0, 64, 4096, 1000, 0, 0, 0, 0, 0, 0, 0, 0, none, false⟩ : BaleJob) with stopped := true }, cmdWith (u16 7 ++ zeros 2 ++ u64 8192 ++ u32 1000), readyState.modBale (fun b => { b with jobs := [{ (⟨7, 0x0B02, 0, 1, false, 0, ⟨0, 0xFF, [0], 0, 16⟩, 1, 0, 0, 64, 4096, 1000, 0, 0, 0, 0, 0, 0, 0, 0, none, false⟩ : BaleJob) with stopped := true }] }), by decide⟩

/-- The premises of `BaleCancelCompletes` hold together. -/
theorem test_baleCancel_premises :
    ∃ (t id : Nat) (j : BaleJob) (c : Cmd) (s : State),
      ((s.atInstant t).admits 0x0B04 c = true) ∧
      (rd c.arg 0 2 = id) ∧
      (s.job? id = some j) :=
  ⟨5, 7, ⟨7, 0x0B02, 0, 1, false, 0, ⟨0, 0xFF, [0], 0, 16⟩, 1, 0, 0, 64, 4096, 1000, 0, 0, 0, 0, 0, 0, 0, 0, none, false⟩, cmdWith (u16 7 ++ zeros 2), readyState.modBale (fun b => { b with jobs := [⟨7, 0x0B02, 0, 1, false, 0, ⟨0, 0xFF, [0], 0, 16⟩, 1, 0, 0, 64, 4096, 1000, 0, 0, 0, 0, 0, 0, 0, 0, none, false⟩] }), by decide⟩

/-- The premises of `BaleStatusCompletes` hold together. -/
theorem test_baleStatus_premises :
    ∃ (t : Nat) (c : Cmd) (s : State),
      ((s.atInstant t).admits 0x0B05 c = true) :=
  ⟨0, cmdWith (zeros 4), readyState, by decide⟩

/-- The premises of `DramReadDecodeCompletes` hold together. -/
theorem test_dramReadDecode_premises :
    ∃ (t port a : Nat) (s : State),
      (a < s.usableBytes) ∧
      (s.mem.available = true) ∧
      (s.blockLost (a / 64) = false) ∧
      (s.blockSt (a / 64) = 0) :=
  ⟨5, 3, 128, { readyState with dram := [(130, 7)] }, by decide⟩

/-- The premises of `DramReadDecodeCorrectedCompletes` hold together. -/
theorem test_dramReadDecodeCorrected_premises :
    ∃ (t port a k : Nat) (x : BitVec 8) (s : State),
      (a < s.usableBytes) ∧
      (s.mem.available = true) ∧
      (s.blockLost (a / 64) = false) ∧
      (s.blockSt (a / 64) = 0) ∧
      (k < 72) ∧
      (x ≠ 0) ∧
      ((s.channelOf a).1 < s.mem.chans.length) ∧
      ((s.atInstant t).canReport = true) :=
  ⟨5, 3, 128, 9, 4, { readyState with dram := [(130, 7)] }, by decide⟩

/-- The premises of `DramReadDecodeUncorrectableCompletes` hold together. -/
theorem test_dramReadDecodeUncorrectable_premises :
    ∃ (t port a : Nat) (errors : List (Nat × BitVec 8)) (s : State),
      (a < s.usableBytes) ∧
      (s.mem.available = true) ∧
      (s.blockLost (a / 64) = false) ∧
      (s.blockSt (a / 64) = 0) ∧
      (errVector errors ≠ errVector poisonPattern) ∧
      ((3 ≤ ((errVector errors).filter (fun x => x != 0)).length ∧ ((errVector errors).filter (fun x => x != 0)).length ≤ 6)) ∧
      ((s.channelOf a).1 < s.mem.chans.length) ∧
      ((s.atInstant t).canReport = true) :=
  ⟨5, 3, 128, [(0, 1), (1, 1), (2, 1)], { readyState with dram := [(130, 7)] }, by decide⟩

/-- The premises of `RowRemapCompletes` hold together. -/
theorem test_rowRemap_premises :
    ∃ (t ch rank sub bank row k : Nat) (s : State),
      (⟨ch, rank, sub, bank, row⟩ ∈ s.mem.rowsDue) ∧
      (s.freeSpare ch sub = some k) :=
  ⟨5, 1, 0, 1, 3, 77, 512, readyState.modMem (fun m => { m with rowsDue := [⟨1, 0, 1, 3, 77⟩] }), by decide⟩

/-- The premises of `RowTestDoneCompletes` hold together. -/
theorem test_rowTestDone_premises :
    ∃ (t ch k : Nat) (r : Remap) (s : State),
      (s.mem.remaps.find? (fun r => r.at_.channel == ch && r.spare == k && !r.permanent) = some r) ∧
      ((s.atInstant t).rowTransientCount r.at_ < 7) ∧
      ((s.atInstant t).canReport = true) :=
  ⟨5, 1, 512, ⟨512, ⟨1, 0, 1, 3, 77⟩, false, 0⟩, readyState.modMem (fun m => { m with remaps := [⟨512, ⟨1, 0, 1, 3, 77⟩, false, 0⟩] }), by decide⟩

/-- The premises of `RowTestFailedCompletes` hold together. -/
theorem test_rowTestFailed_premises :
    ∃ (t ch k : Nat) (r : Remap) (s : State),
      (s.mem.remaps.find? (fun r => r.at_.channel == ch && r.spare == k && !r.permanent) = some r) ∧
      ((s.atInstant t).canReport = true) :=
  ⟨5, 1, 512, ⟨512, ⟨1, 0, 1, 3, 77⟩, false, 0⟩, readyState.modMem (fun m => { m with remaps := [⟨512, ⟨1, 0, 1, 3, 77⟩, false, 0⟩] }), by decide⟩

/-- The premises of `ScrubCompletes` hold together. -/
theorem test_scrub_premises :
    ∃ (t ch : Nat) (s : State),
      (ch ∈ s.channels) ∧
      (s.pwr.st < 2) ∧
      ((s.chanOf ch).st = 0) ∧
      (s.mem.available = true) ∧
      (ch < s.mem.chans.length) :=
  ⟨5, 2, readyState, by decide⟩

/-- The premises of `RefreshCompletes` hold together. -/
theorem test_refresh_premises :
    ∃ (t ch bank rate : Nat) (s : State),
      (ch ∈ s.channels) ∧
      ((s.chanOf ch).st = 0) :=
  ⟨5, 2, 3, 2, readyState, by decide⟩

/-- The premises of `WckDriftCheckCompletes` hold together. -/
theorem test_wckDriftCheck_premises :
    ∃ (t ch drift : Nat) (ok : Bool) (s : State),
      (ch ∈ s.channels) ∧
      ((s.chanOf ch).st = 0) ∧
      (125 < drift) :=
  ⟨5, 2, 200, false, readyState, by decide⟩

/-- The premises of `SelfRefreshEntryCompletes` hold together. -/
theorem test_selfRefreshEntry_premises :
    ∃ (t ch us : Nat) (s : State),
      ((s.chanOf ch).srAfter = some us) ∧
      (ch ∈ s.channels) ∧
      ((s.chanOf ch).st = 0) ∧
      ((s.chanOf ch).lastReq + us * ticksPerUs ≤ max s.now t) :=
  ⟨ticksPerSecond, 2, 20, readyState.modChan 2 (fun x => { x with srAfter := some 20 }), by decide⟩

/-- The premises of `SelfRefreshExitCompletes` hold together. -/
theorem test_selfRefreshExit_premises :
    ∃ (t ch : Nat) (s : State),
      ((s.chanOf ch).st = 1) ∧
      (s.pwr.st ≠ 2) :=
  ⟨ticksPerSecond, 2, readyState.modChan 2 (fun x => { x with st := 1 }), by decide⟩

/-- The premises of `RequestLateCompletes` hold together. -/
theorem test_requestLate_premises :
    ∃ (t port ch ns : Nat) (s : State),
      (port ≤ 4) ∧
      ((s.atInstant t).latencyTarget port ((s.atInstant t).now - ns * ticksPerUs / 1000) ≤ ns) ∧
      ((s.atInstant t).canReport = true) :=
  ⟨5, 0, 1, 2500, readyState, by decide⟩

/-- The premises of `ChannelLostCompletes` hold together. -/
theorem test_channelLost_premises :
    ∃ (t ch cause : Nat) (s : State),
      (ch ∈ s.channels) ∧
      ((s.chanOf ch).st ≠ 3) ∧
      ((s.atInstant t).canReport = true) :=
  ⟨5, 1, 1, readyState, by decide⟩

/-- The premises of `MemConfigCompletes` hold together. -/
theorem test_memConfig_premises :
    ∃ (t : Nat) (c : Cmd) (s : State),
      ((s.atInstant t).admits 0x0C01 c = true) ∧
      (memCfgOk (readMemCfg c.arg) = true) ∧
      (((readMemCfg c.arg).mask = s.cfg.mem.mask ∨ (s.atInstant t).sharesUnder (readMemCfg c.arg).mask = true)) :=
  ⟨5, cmdWith (u8 0x0F ++ u8 3 ++ u16 20 ++ u16 24 ++ zeros 2 ++ u16 4 ++ u16 4 ++ u16 50 ++ u16 20 ++ zeros 8), readyState, by decide⟩

/-- The premises of `MemStatusCompletes` hold together. -/
theorem test_memStatus_premises :
    ∃ (t : Nat) (c : Cmd) (s : State),
      ((s.atInstant t).admits 0x0C02 c = true) :=
  ⟨0, cmdWith (zeros 4), readyState, by decide⟩

/-- The premises of `MemRemapsCompletes` hold together. -/
theorem test_memRemaps_premises :
    ∃ (t : Nat) (c : Cmd) (s : State),
      ((s.atInstant t).admits 0x0C03 c = true) ∧
      (rd c.arg 0 1 ≤ 3) ∧
      ((1 ≤ rd c.arg 4 2 ∧ rd c.arg 4 2 ≤ 256)) ∧
      (rd c.arg 2 2 + rd c.arg 4 2 ≤ 1024) :=
  ⟨5, cmdWith (u8 1 ++ u8 0 ++ u16 0 ++ u16 4 ++ zeros 2), readyState, by decide⟩

/-- The premises of `DescriptorCompleteCompletes` hold together. -/
theorem test_descriptorComplete_premises :
    ∃ (t i : Nat) (b data : List Byte) (d : Desc) (s : State),
      (d = readDesc (s.ctxOf i).fetchAddr b) ∧
      (b.length = 32) ∧
      ((s.ctxOf i).configured = true) ∧
      ((s.ctxOf i).cfg.kind = 0) ∧
      ((s.ctxOf i).hasWork = true) ∧
      ((s.ctxOf i).ended = false) ∧
      (((s.ctxOf i).st ≠ 0 ∧ (s.ctxOf i).st ≠ 4)) ∧
      (s.pcie.up = true) ∧
      ((s.ctxOf i).skip = false) ∧
      ((s.ctxOf i).chainOk d = true) ∧
      ((s.ctxOf i).formatOk d = true) ∧
      ((s.atInstant t).rangeOk (s.ctxOf i) d = true) ∧
      ((s.atInstant t).mayMove i ((s.ctxOf i).destBytes d) = true) ∧
      (i < s.ctxs.length) :=
  ⟨5, 1, u64 0x1000 ++ u64 jobRegionBase ++ u32 4 ++ u16 0 ++ u16 2 ++ u64 0, [1, 2, 3, 4], readDesc 0 (u64 0x1000 ++ u64 jobRegionBase ++ u32 4 ++ u16 0 ++ u16 2 ++ u64 0), { readyState.modCtx 1 (fun x => { x with configured := true, postedIdx := 1, st := 1 }) with pcie := ⟨true, 4, 8, 0, 0⟩ }, by decide⟩

/-- The premises of `DescriptorCompleteToHostCompletes` hold together. -/
theorem test_descriptorCompleteToHost_premises :
    ∃ (t i : Nat) (b data : List Byte) (d : Desc) (s : State),
      (d = readDesc (s.ctxOf i).fetchAddr b) ∧
      (b.length = 32) ∧
      ((s.ctxOf i).configured = true) ∧
      ((s.ctxOf i).cfg.kind = 1) ∧
      ((s.ctxOf i).cfg.widths = 0) ∧
      ((s.ctxOf i).hasWork = true) ∧
      ((s.ctxOf i).ended = false) ∧
      (((s.ctxOf i).st ≠ 0 ∧ (s.ctxOf i).st ≠ 4)) ∧
      (s.pcie.up = true) ∧
      ((s.ctxOf i).skip = false) ∧
      ((s.ctxOf i).chainOk d = true) ∧
      ((s.ctxOf i).formatOk d = true) ∧
      ((s.atInstant t).rangeOk (s.ctxOf i) d = true) ∧
      ((s.atInstant t).mayMove i ((s.ctxOf i).destBytes d) = true) ∧
      ((s.dramRead d.devAddr d.length).2 = []) ∧
      (i < s.ctxs.length) :=
  ⟨5, 1, u64 0x1000 ++ u64 jobRegionBase ++ u32 4 ++ u16 0 ++ u16 2 ++ u64 0, [], readDesc 0 (u64 0x1000 ++ u64 jobRegionBase ++ u32 4 ++ u16 0 ++ u16 2 ++ u64 0), { readyState.modCtx 1 (fun x => { x with configured := true, postedIdx := 1, st := 1, cfg := { x.cfg with kind := 1 } }) with pcie := ⟨true, 4, 8, 0, 0⟩ }, by decide⟩

/-- The premises of `DmaHaltedCompletes` hold together. -/
theorem test_dmaHalted_premises :
    ∃ (t i cause addr : Nat) (w dev : Bool) (s : State),
      ((s.ctxOf i).configured = true) ∧
      (((s.ctxOf i).st ≠ 0 ∧ (s.ctxOf i).st ≠ 4)) ∧
      ((s.ctxOf i).hasWork = true) ∧
      ((s.ctxOf i).cfg.kind < 3) ∧
      ((3 ≤ cause ∧ cause ≤ 5)) ∧
      ((s.atInstant t).canReport = true) :=
  ⟨5, 1, 3, 77, false, false, { readyState.modCtx 1 (fun x => { x with configured := true, postedIdx := 1, st := 1 }) with pcie := ⟨true, 4, 8, 0, 0⟩ }, by decide⟩

/-- The premises of `MsixMessageCompletes` hold together. -/
theorem test_msixMessage_premises :
    ∃ (t n : Nat) (v : Vector) (s : State),
      (s.vectors[n]? = some v) ∧
      (n < 64) ∧
      (v.due (s.atInstant t).now = true) ∧
      (s.pcie.up = true) :=
  ⟨5, 3, { Vector.reset with causes := [1], masked := false }, { readyState.modVector 3 (fun v => { v with causes := [1], masked := false }) with pcie := ⟨true, 4, 8, 0, 0⟩ }, by decide⟩

/-- The premises of `StreamRecordCloseCompletes` hold together. -/
theorem test_streamRecordClose_premises :
    ∃ (t k x : Nat) (i : Item) (rest : List (Nat × Item)) (r : StreamRun) (d : StreamDef) (s : State),
      (s.streamRun k = some r) ∧
      (s.streamDef k = some d) ∧
      (r.waiting = (x, i) :: rest) ∧
      (i.lost = none) ∧
      (d.profile = 0xFF) ∧
      (x + d.flushUs * ticksPerUs ≤ max s.now t) ∧
      (rest = []) ∧
      (1 ≤ d.itemsMax) :=
  ⟨5000000, 3, 0, ⟨[1, 2], 0#96, 0, 0xFF, 0, none⟩, [], ⟨0, 0, 0, [(0, ⟨[1, 2], 0#96, 0, 0xFF, 0, none⟩)], [], 0, 0, none, false, 0, 0, 0, 0, false⟩, ⟨5, 0, 0, 0xFF, 0, 4, 10⟩, { readyState.modCfg (fun g => { g with streams := g.streams.set 3 (some ⟨5, 0, 0, 0xFF, 0, 4, 10⟩) }) with streams := readyState.streams.set 3 (some ⟨0, 0, 0, [(0, ⟨[1, 2], 0#96, 0, 0xFF, 0, none⟩)], [], 0, 0, none, false, 0, 0, 0, 0, false⟩) }, by decide⟩

/-- The premises of `BufferFlushCompletes` hold together. -/
theorem test_bufferFlush_premises :
    ∃ (t i k : Nat) (b : List Byte) (d : Desc) (r : StreamRun) (f : StreamDef) (c : Closed) (s : State),
      (d = readDesc (s.ctxOf i).fetchAddr b) ∧
      (b.length = 32) ∧
      ((s.ctxOf i).configured = true) ∧
      ((s.ctxOf i).cfg.kind = 2) ∧
      ((s.ctxOf i).hasWork = true) ∧
      ((s.ctxOf i).ended = false) ∧
      (((s.ctxOf i).st ≠ 0 ∧ (s.ctxOf i).st ≠ 4)) ∧
      (s.pcie.up = true) ∧
      ((s.ctxOf i).skip = false) ∧
      ((s.ctxOf i).chainOk d = true) ∧
      ((s.ctxOf i).formatOk d = true) ∧
      ((s.ctxOf i).stream = some k) ∧
      (s.streamRun k = some r) ∧
      (s.streamDef k = some f) ∧
      (r.waiting = []) ∧
      (r.closed = [c]) ∧
      (r.headOff = 0) ∧
      ((0 < c.bytes.length ∧ c.bytes.length < d.length)) ∧
      (r.lastReady + f.flushUs * ticksPerUs ≤ max s.now t) ∧
      ((s.atInstant t).mayMove i c.bytes.length = true) ∧
      (i < s.ctxs.length) :=
  ⟨5000000, 1, 3, u64 0x1000 ++ u64 0 ++ u32 4096 ++ u16 0 ++ u16 2 ++ u64 0, readDesc 0 (u64 0x1000 ++ u64 0 ++ u32 4096 ++ u16 0 ++ u16 2 ++ u64 0), ⟨1, 0, 0, [], [⟨0, [1, 2, 3, 4], []⟩], 0, 0, none, false, 0, 0, 0, 0, false⟩, ⟨5, 0, 0, 0xFF, 0, 4, 10⟩, ⟨0, [1, 2, 3, 4], []⟩, { (readyState.modCfg (fun g => { g with streams := g.streams.set 3 (some ⟨5, 0, 0, 0xFF, 0, 4, 10⟩) })).modCtx 1 (fun x => { x with configured := true, postedIdx := 1, st := 1, stream := some 3, cfg := { x.cfg with kind := 2 } }) with streams := readyState.streams.set 3 (some ⟨1, 0, 0, [], [⟨0, [1, 2, 3, 4], []⟩], 0, 0, none, false, 0, 0, 0, 0, false⟩), pcie := ⟨true, 4, 8, 0, 0⟩ }, by decide⟩

/-- The premises of `StreamOverrunCompletes` hold together. -/
theorem test_streamOverrun_premises :
    ∃ (t k x : Nat) (i : Item) (r : StreamRun) (d : StreamDef) (s : State),
      (s.streamRun k = some r) ∧
      (s.streamDef k = some d) ∧
      (d.source = 1) ∧
      (r.closed = []) ∧
      (r.waiting = [(x, i)]) ∧
      (i.lost = none) ∧
      (i.ident < (s.feltOf d.line).oldest) ∧
      ((s.atInstant t).canReport = true) :=
  ⟨50, 3, 0, ⟨[1, 2], 0#96, 0, 0, 0, none⟩, ⟨1, 0, 0, [(0, ⟨[1, 2], 0#96, 0, 0, 0, none⟩)], [], 0, 0, none, false, 0, 0, 0, 0, false⟩, ⟨1, 0, 0, 0xFF, 0, 4, 10⟩, { (readyState.modCfg (fun g => { g with streams := g.streams.set 3 (some ⟨1, 0, 0, 0xFF, 0, 4, 10⟩) })).modFelt 0 (fun f => { f with oldest := 9 }) with streams := readyState.streams.set 3 (some ⟨1, 0, 0, [(0, ⟨[1, 2], 0#96, 0, 0, 0, none⟩)], [], 0, 0, none, false, 0, 0, 0, 0, false⟩) }, by decide⟩

/-- The premises of `PcieLinkResetCompletes` hold together. -/
theorem test_pcieLinkReset_premises :
    ∃ (t cause : Nat) (s : State),
      (s.ctxs.length = 256) ∧
      (((s.atInstant t).onDie = false ∧ s.ev.held.length + 1024 ≤ queueSpace)) :=
  ⟨50, 0, { readyState.modCtx 1 (fun x => { x with configured := true, postedIdx := 1, st := 1 }) with pcie := ⟨true, 4, 8, 0x200000, 0⟩ }, by decide⟩

/-- The premises of `EthLinkChangeCompletes` hold together. -/
theorem test_ethLinkChange_premises :
    ∃ (t p : Nat) (up : Bool) (s : State),
      (p < 2) ∧
      ((s.portRun p).up ≠ up) ∧
      ((up = true → (s.portCfg p).enabled = true)) ∧
      ((s.atInstant t).canReport = true) :=
  ⟨50, 1, true, readyState.modCfg (fun g => { g with ports := upd g.ports 1 (fun x => { x with flags := 1 }) }), by decide⟩

/-- The premises of `ArpRequestCompletes` hold together. -/
theorem test_arpRequest_premises :
    ∃ (t p : Nat) (s : State),
      ((s.portCfg p).enabled = true) ∧
      ((s.portRun p).up = true) ∧
      ((s.portCfg p).ip < 2 ^ 32) :=
  ⟨50, 1, (readyState.modCfg (fun g => { g with ports := upd g.ports 1 (fun x => { x with flags := 1, ip := 0x0A000001 }) })).modPort 1 (fun x => { x with up := true }), by decide⟩

/-- The premises of `DmaConfigCompletes` hold together. -/
theorem test_dmaConfig_premises :
    ∃ (t : Nat) (c : Cmd) (s : State),
      ((s.atInstant t).admits 0x0D01 c = true) ∧
      (ctxArgsOk (rd c.arg 0 1) c.arg (readCtxCfg c.arg) = true) ∧
      ((s.ctxOf (rd c.arg 0 1)).st = 0) ∧
      ((s.ctxOf (rd c.arg 0 1)).stream = none) ∧
      ((s.atInstant t).shareSum (rd c.arg 0 1) (readCtxCfg c.arg) ≤ 256) :=
  ⟨50, cmdWith (u8 1 ++ u8 0 ++ u8 2 ++ u8 0 ++ u8 0 ++ u8 0 ++ u8 4 ++ u8 0 ++ u64 0x1000 ++ u64 0 ++ u32 4096 ++ zeros 20), readyState, by decide⟩

/-- The premises of `DmaResumeCompletes` hold together. -/
theorem test_dmaResume_premises :
    ∃ (t i : Nat) (c : Cmd) (s : State),
      ((s.atInstant t).admits 0x0D02 c = true) ∧
      (rd c.arg 0 1 = i) ∧
      (rd c.arg 1 1 ≤ 1) ∧
      ((s.ctxOf i).st = 4) ∧
      ((rd c.arg 1 1 = 0 ∨ 3 ≤ (s.ctxOf i).cause)) ∧
      ((s.ctxOf i).stream = none) :=
  ⟨50, 1, cmdWith (u8 1 ++ zeros 3), readyState.modCtx 1 (fun x => { x with configured := true, st := 4, cause := 3 }), by decide⟩

/-- The premises of `DmaAbortCompletes` hold together. -/
theorem test_dmaAbort_premises :
    ∃ (t i : Nat) (c : Cmd) (s : State),
      ((s.atInstant t).admits 0x0D03 c = true) ∧
      (rd c.arg 0 1 = i) ∧
      ((s.ctxOf i).st ≠ 0) ∧
      ((s.ctxOf i).stream = none) :=
  ⟨50, 1, cmdWith (u8 1 ++ zeros 3), readyState.modCtx 1 (fun x => { x with configured := true, st := 4, cause := 3 }), by decide⟩

/-- The premises of `DmaLinkCompletes` hold together. -/
theorem test_dmaLink_premises :
    ∃ (t : Nat) (c : Cmd) (s : State),
      ((s.atInstant t).admits 0x0D04 c = true) ∧
      ((1 ≤ rd c.arg 0 4 ∧ rd c.arg 0 4 ≤ 64000)) :=
  ⟨50, cmdWith (u32 500 ++ zeros 4), readyState, by decide⟩

/-- The premises of `DmaPortCompletes` hold together. -/
theorem test_dmaPort_premises :
    ∃ (t n : Nat) (c : Cmd) (s : State),
      ((s.atInstant t).admits 0x0D05 c = true) ∧
      (rd c.arg 0 1 = n) ∧
      (n ≤ 1) ∧
      ((readPortCfg c.arg).fec ≤ 2) ∧
      ((1500 ≤ (readPortCfg c.arg).mtu ∧ (readPortCfg c.arg).mtu ≤ 9000)) ∧
      ((s.cfg.tb.ptpPort ≠ n ∨ (s.portCfg n).enabled = false ∨ (readPortCfg c.arg).enabled = true)) :=
  ⟨50, 1, cmdWith (u8 1 ++ u8 1 ++ u8 0 ++ u8 0 ++ u16 1500 ++ zeros 26), readyState, by decide⟩

/-- The premises of `StreamDefineCompletes` hold together. -/
theorem test_streamDefine_premises :
    ∃ (t : Nat) (c : Cmd) (s : State),
      ((s.atInstant t).admits 0x0D06 c = true) ∧
      (rd c.arg 1 1 ≤ 5) ∧
      ((rd c.arg 1 1 = 0 ∨ 4 ≤ rd c.arg 1 1 ∨ (s.atInstant t).lineEnabled (rd c.arg 2 1) = true)) ∧
      ((rd c.arg 1 1 = 1 → rd c.arg 3 1 < 16)) ∧
      (rd c.arg 4 1 = 0xFF) ∧
      ((rd c.arg 5 1 = 0 ∨ rd c.arg 1 1 = 4)) ∧
      ((1 ≤ rd c.arg 6 2 ∧ rd c.arg 6 2 ≤ 1024)) ∧
      ((10 ≤ rd c.arg 8 4 ∧ rd c.arg 8 4 ≤ 1000000)) ∧
      (s.streamRun (rd c.arg 0 1) = none) :=
  ⟨50, cmdWith (u8 3 ++ u8 5 ++ u8 0 ++ u8 0 ++ u8 0xFF ++ u8 0 ++ u16 4 ++ u32 100 ++ zeros 4), readyState, by decide⟩

/-- The premises of `StreamAttachCompletes` hold together. -/
theorem test_streamAttach_premises :
    ∃ (t k i : Nat) (d : StreamDef) (c : Cmd) (s : State),
      ((s.atInstant t).admits 0x0D07 c = true) ∧
      (rd c.arg 0 1 = k) ∧
      (rd c.arg 1 1 = i) ∧
      (s.streamDef k = some d) ∧
      (d.profile = 0xFF) ∧
      (d.source = 5) ∧
      ((s.ctxOf i).st = 0) ∧
      ((s.ctxOf i).configured = true) ∧
      (((s.ctxOf i).cfg.kind = 2 ∨ (s.ctxOf i).cfg.kind = 3)) ∧
      (i ≠ 0) ∧
      ((∀ j < 256, s.streamRun j = none)) :=
  ⟨50, 3, 1, ⟨5, 0, 0, 0xFF, 0, 4, 10⟩, cmdWith (u8 3 ++ u8 1 ++ zeros 2), (readyState.modCfg (fun g => { g with streams := g.streams.set 3 (some ⟨5, 0, 0, 0xFF, 0, 4, 10⟩) })).modCtx 1 (fun x => { x with configured := true, cfg := { x.cfg with kind := 2 } }), by decide⟩

/-- The premises of `StreamDetachCompletes` hold together. -/
theorem test_streamDetach_premises :
    ∃ (t k : Nat) (r : StreamRun) (c : Cmd) (s : State),
      ((s.atInstant t).admits 0x0D08 c = true) ∧
      (rd c.arg 0 1 = k) ∧
      (rd c.arg 1 1 = 0) ∧
      ((s.atInstant t).pendOf 0x0D08 k = none) ∧
      (s.streamRun k = some r) :=
  ⟨50, 3, ⟨1, 0, 0, [], [], 0, 0, none, false, 0, 0, 0, 0, false⟩, cmdWith (u8 3 ++ zeros 3), { readyState with streams := readyState.streams.set 3 (some ⟨1, 0, 0, [], [], 0, 0, none, false, 0, 0, 0, 0, false⟩) }, by decide⟩

/-- The premises of `StreamDetachedCompletes` hold together. -/
theorem test_streamDetached_premises :
    ∃ (t k mode : Nat) (r : StreamRun) (p : Pend) (s : State),
      (s.streamRun k = some r) ∧
      (r.detach = some mode) ∧
      (r.ended = true) ∧
      ((r.closed = [] ∧ r.waiting = [])) ∧
      (s.pendOf 0x0D08 k = some p) ∧
      (s.pwr.pend = none) ∧
      (s.sys.shutdown = none) ∧
      ((s.atInstant t).canReport = true) :=
  ⟨50, 3, 0, ⟨1, 0, 0, [], [], 0, 0, some 0, true, 0, 0, 0, 0, false⟩, ⟨0x0D08, 0, 1, 0, none, none, [3], u8 3 ++ zeros 3⟩, { readyState with streams := readyState.streams.set 3 (some ⟨1, 0, 0, [], [], 0, 0, some 0, true, 0, 0, 0, 0, false⟩), pend := [⟨0x0D08, 0, 1, 0, none, none, [3], u8 3 ++ zeros 3⟩] }, by decide⟩

/-- The premises of `DmaStatusCompletes` hold together. -/
theorem test_dmaStatus_premises :
    ∃ (t : Nat) (c : Cmd) (s : State),
      ((s.atInstant t).admits 0x0D09 c = true) ∧
      (rd c.arg 0 2 < 256) :=
  ⟨50, cmdWith (u16 1 ++ u8 1 ++ u8 0), readyState, by decide⟩

/-- The premises of `EventReleaseCompletes` hold together. -/
theorem test_eventRelease_premises :
    ∃ (t k : Nat) (r : EvRec) (rest : List EvRec) (q : StreamRun) (d : StreamDef) (s : State),
      (s.ev.held = r :: rest) ∧
      (s.eventsFlow = true) ∧
      ((s.ctxOf 0).stream = some k) ∧
      (s.streamRun k = some q) ∧
      (s.streamDef k = some d) ∧
      (d.source = 0) ∧
      (r.due ≤ max s.now t) ∧
      (s.ev.lost = [0, 0, 0, 0]) ∧
      (s.log.droppedPending = 0) :=
  ⟨50, 3, ⟨0x0702, 1, srcLine 0, 0#96, 0, 0, 1, zeros 12, none⟩, [], ⟨0, 0, 0, [], [], 0, 0, none, false, 0, 0, 0, 0, false⟩, ⟨0, 0, 0, 0xFF, 0, 4, 10⟩, { (readyState.modCfg (fun g => { g with streams := g.streams.set 3 (some ⟨0, 0, 0, 0xFF, 0, 4, 10⟩) })).modCtx 0 (fun x => { x with configured := true, st := 2, stream := some 3, cfg := { x.cfg with kind := 2 } }) with streams := readyState.streams.set 3 (some ⟨0, 0, 0, [], [], 0, 0, none, false, 0, 0, 0, 0, false⟩), ev := { readyState.ev with held := [⟨0x0702, 1, srcLine 0, 0#96, 0, 0, 1, zeros 12, none⟩] } }, by decide⟩

/-- The premises of `HeartbeatTickCompletes` hold together. -/
theorem test_heartbeatTick_premises :
    ∃ (t : Nat) (s : State),
      (s.cpcRuns = true) :=
  ⟨50, readyState, by decide⟩

/-- The premises of `MbDoorbellCompletes` hold together. -/
theorem test_mbDoorbell_premises :
    ∃ (t n : Nat) (fetched : List Byte) (facts : Facts) (c : Cmd) (s : State),
      (c = (readCmd n none ((s.mbOf n).commandBytes fetched) facts).2) ∧
      ((readCmd n none ((s.mbOf n).commandBytes fetched) facts).1 = 0x0101) ∧
      ((s.atInstant t).admits 0x0101 c = true) ∧
      (n < 8) :=
  ⟨5, 0, [], default, (readCmd 0 none (((readyState.modMb 0 (fun m => { m with cmdArea := ssetL 0#8 [] 0 (u16 0x0101 ++ u16 0 ++ u16 1) })).mbOf 0).commandBytes []) default).2, readyState.modMb 0 (fun m => { m with cmdArea := ssetL 0#8 [] 0 (u16 0x0101 ++ u16 0 ++ u16 1) }), rfl, by decide, by decide, by decide⟩

/-- The premises of `HeldDoorbellRunsCompletes` hold together. -/
theorem test_heldDoorbellRuns_premises :
    ∃ (t n : Nat) (fetched : List Byte) (facts : Facts) (c : Cmd) (s : State),
      (c = (readCmd n none ((s.mbOf n).commandBytes fetched) facts).2) ∧
      ((readCmd n none ((s.mbOf n).commandBytes fetched) facts).1 = 0x0101) ∧
      (precheck 0x0101 c (s.atInstant t) = none) ∧
      (n < 8) ∧
      (s.mbs.length = 8) ∧
      ((s.mbOf n).held = true) ∧
      ((s.mbOf n).st ≠ 3) ∧
      ((s.mbOf n).lastSeq = none) ∧
      (s.dbg.cpcHalted = false) :=
  ⟨5, 0, [], default, (readCmd 0 none ((readyState.modMb 0 (fun m => { m with held := true, st := 1, cmdArea := ssetL 0#8 [] 0 (u16 0x0101 ++ u16 0 ++ u16 1) })).mbOf 0 |>.commandBytes []) default).2, readyState.modMb 0 (fun m => { m with held := true, st := 1, cmdArea := ssetL 0#8 [] 0 (u16 0x0101 ++ u16 0 ++ u16 1) }), rfl, by decide, by decide, by decide, by decide, by decide, by decide, by decide, by decide⟩

/-- The premises of `EthMailboxFrameCompletes` hold together. -/
theorem test_ethMailboxFrame_premises :
    ∃ (t p : Nat) (f : List Byte) (plain : List Byte) (facts : Facts) (c : Cmd) (s : State),
      (c = (readCmd (rd f 5 1) (some (p, 0)) plain facts).2) ∧
      ((readCmd (rd f 5 1) (some (p, 0)) plain facts).1 = 0x0101) ∧
      (((s.portCfg p).enabled = true ∧ (s.portRun p).up = true ∧ p < 2)) ∧
      ((rd f 0 4 = 0x464D4244 ∧ rd f 4 1 = 1 ∧ rd f 5 1 ≤ 7 ∧ rd f 6 2 = plain.length ∧ f.length = 36 + plain.length ∧ 32 ≤ plain.length)) ∧
      (rd f 8 4 = 0) ∧
      (s.session? 0 = none) ∧
      (precheck 0x0101 c (s.atInstant t) = none) ∧
      (((s.mbOf c.mb).st ≠ 3 ∧ (s.mbOf c.mb).st ≠ 1)) ∧
      ((s.mbOf c.mb).lastSeq = none) ∧
      (s.dbg.cpcHalted = false) :=
  ⟨5, 0, u32 0x464D4244 ++ u8 1 ++ u8 0 ++ u16 32 ++ zeros 60, u16 0x0101 ++ u16 0 ++ u16 1 ++ u16 0 ++ zeros 24, default, (readCmd 0 (some (0, 0)) (u16 0x0101 ++ u16 0 ++ u16 1 ++ u16 0 ++ zeros 24) default).2, { readyState.modCfg (fun g => { g with ports := upd g.ports 0 (fun x => { x with flags := 1 }) }) with ports := upd readyState.ports 0 (fun x => { x with up := true }) }, by decide⟩

/-- The premises of `ContextDoorbellCompletes` hold together. -/
theorem test_contextDoorbell_premises :
    ∃ (t i : Nat) (v : BitVec 32) (s : State),
      (i < s.ctxs.length) :=
  ⟨5, 1, 7, readyState, by decide⟩

/-- The premises of `ContextDoorbellStartsCompletes` hold together. -/
theorem test_contextDoorbellStarts_premises :
    ∃ (t i : Nat) (v : BitVec 32) (s : State),
      (i < s.ctxs.length) ∧
      ((s.ctxOf i).configured = true) ∧
      ((s.ctxOf i).cfg.kind < 2) ∧
      ((s.ctxOf i).st = 0) ∧
      ((s.ctxOf i).ended = false) ∧
      (({ s.ctxOf i with postedIdx := v.toNat % 65536, postedWrap := bit v.toNat 16 } : Ctx).hasWork = true) :=
  ⟨5, 1, 7, readyState.modCtx 1 (fun x => { x with configured := true }), by decide⟩

/-- The premises of `Bar2WindowReadCompletes` hold together. -/
theorem test_bar2WindowRead_premises :
    ∃ (t off n : Nat) (s : State),
      (s.mem.available = true) ∧
      ((s.atInstant t).deniedRead (s.pcie.winBase + off) n = false) ∧
      ((s.dramRead (s.pcie.winBase + off) n).2 = []) :=
  ⟨5, jobRegionBase, 4, readyState.dramWrite jobRegionBase [1, 2, 3, 4], by decide⟩

/-- The premises of `Bar2WindowReadDeniedCompletes` hold together. -/
theorem test_bar2WindowReadDenied_premises :
    ∃ (t off n : Nat) (s : State),
      (s.mem.available = true) ∧
      (0 < n) ∧
      ((s.atInstant t).usableBytes ≤ s.pcie.winBase + off) :=
  ⟨5, 2 ^ 40, 4, readyState, by decide⟩

/-- The premises of `Bar2WindowWriteCompletes` hold together. -/
theorem test_bar2WindowWrite_premises :
    ∃ (t off : Nat) (data : List Byte) (s : State),
      (s.mem.available = true) ∧
      (jobRegionBase ≤ s.pcie.winBase + off) ∧
      (s.pcie.winBase + off + data.length ≤ jobRegionEnd) :=
  ⟨5, jobRegionBase, [1, 2, 3, 4], readyState, by decide⟩

/-- The premises of `Bar2WindowWriteDeniedCompletes` hold together. -/
theorem test_bar2WindowWriteDenied_premises :
    ∃ (t off : Nat) (data : List Byte) (s : State),
      (s.pcie.winBase + off < jobRegionBase) :=
  ⟨5, 0, [1, 2, 3, 4], readyState, by decide⟩

/-- The premises of `DebugWindowWriteCompletes` hold together. -/
theorem test_debugWindowWrite_premises :
    ∃ (t o : Nat) (v : Byte) (s : State),
      (2 ≤ s.dbg.level) ∧
      (s.dbg.cpcHalted = true) ∧
      ((0x100000 ≤ o ∧ o < 0x200000)) :=
  ⟨5, 0x100010, 7, { readyState with dbg := { readyState.dbg with level := 2, cpcHalted := true } }, by decide⟩

/-- The premises of `RegisterWriteCompletes` hold together. -/
theorem test_registerWrite_premises :
    ∃ (t n : Nat) (b0 b1 b2 b4 b5 : Byte) (v : Vector) (s : State),
      (n < 64) ∧
      (s.vectors[n]? = some v) ∧
      ((v.maxDelay < 1024 ∧ v.minGap < 1024)) :=
  ⟨5, 3, 7, 0xFF, 9, 5, 1, nth readyState.vectors 3 default, readyState, by decide⟩

/-- The premises of `ZspTransactionCompletes` hold together. -/
theorem test_zspTransaction_premises :
    ∃ (t zone edges : Nat) (s : State),
      (24 ≤ edges) :=
  ⟨5, 3, 25, readyState, by decide⟩

/-- The premises of `ZspTransactionAbandonedCompletes` hold together. -/
theorem test_zspTransactionAbandoned_premises :
    ∃ (t zone edges : Nat) (s : State),
      (edges < 24) ∧
      ((s.atInstant t).canReport = true) :=
  ⟨5, 3, 12, readyState, by decide⟩

/-- The premises of `SmbLtuneWriteCompletes` hold together. -/
theorem test_smbLtuneWrite_premises :
    ∃ (t reg : Nat) (code : BitVec 16) (s : State),
      (s.pwr.railsUp = true) ∧
      ((reg = 5 ∨ reg = 6)) :=
  ⟨5, 6, 0x1234, readyState, by decide⟩

/-- The premises of `SmbAlertResponseCompletes` hold together. -/
theorem test_smbAlertResponse_premises :
    ∃ (t : Nat) (s : State),
      (s.health.smbAlert = true) ∧
      (s.health.alertCond = true) :=
  ⟨5, readyState.modHealth (fun h => { h with smbAlert := true, alertCond := true }), by decide⟩

/-- The premises of `SysIdentifyCompletes` hold together. -/
theorem test_sysIdentify_premises :
    ∃ (t : Nat) (c : Cmd) (s : State),
      ((s.atInstant t).admits 0x0101 c = true) :=
  ⟨5, cmdWith [], readyState, by decide⟩

/-- The premises of `SysSnapshotCompletes` hold together. -/
theorem test_sysSnapshot_premises :
    ∃ (t : Nat) (c : Cmd) (s : State),
      ((s.atInstant t).admits 0x0102 c = true) ∧
      ((bit (rd c.arg 0 2) 1 = true → 1 ≤ rd c.arg 2 2 ∧ rd c.arg 2 2 ≤ 3600)) ∧
      (s.sys.snapshot = none) :=
  ⟨5, cmdWith (u16 2 ++ u16 1), readyState, by decide⟩

/-- The premises of `SnapshotCommittedCompletes` hold together. -/
theorem test_snapshotCommitted_premises :
    ∃ (t : Nat) (ok : Bool) (p : SnapPend) (q : Pend) (s : State),
      (s.sys.snapshot = some p) ∧
      (p.shutdown = false) ∧
      ((s.atInstant t).norHeld = false) ∧
      (s.pendOp 0x0102 = some q) ∧
      (q.mb ≠ ownMb) ∧
      ((s.atInstant t).canReport = true) :=
  ⟨5, true, ⟨1, Bank.blank readyState.build, 0, 1, false⟩, ⟨0x0102, 0, 1, 0, none, none, [0], []⟩, { readyState.modSys (fun y => { y with snapshot := some ⟨1, Bank.blank readyState.build, 0, 1, false⟩ }) with pend := [⟨0x0102, 0, 1, 0, none, none, [0], []⟩] }, by decide⟩

/-- The premises of `SysRestoreCompletes` hold together. -/
theorem test_sysRestore_premises :
    ∃ (t : Nat) (c : Cmd) (s : State),
      ((s.atInstant t).admits 0x0103 c = true) ∧
      ((rd c.arg 0 1 = 0 ∨ rd c.arg 0 1 = 3)) ∧
      (s.sys.snapshot = none) :=
  ⟨5, cmdWith (u8 3 ++ u8 1 ++ u16 0), readyState, by decide⟩

/-- The premises of `SysRestoreBankCompletes` hold together. -/
theorem test_sysRestoreBank_premises :
    ∃ (t : Nat) (c : Cmd) (s : State),
      ((s.atInstant t).admits 0x0103 c = true) ∧
      ((rd c.arg 0 1 = 1 ∨ rd c.arg 0 1 = 2)) ∧
      (s.sys.snapshot = none) :=
  ⟨5, cmdWith (u8 1 ++ u8 1 ++ u16 0), readyState, by decide⟩

/-- The premises of `SysShutdownCompletes` hold together. -/
theorem test_sysShutdown_premises :
    ∃ (t : Nat) (c : Cmd) (s : State),
      ((s.atInstant t).admits 0x0104 c = true) ∧
      (rd c.arg 0 1 ≤ 1) ∧
      (s.sys.snapshot = none) ∧
      (s.lines.length = 16) ∧
      ((∃ l < 16, (s.lineOf l).st = 2)) :=
  ⟨5, cmdWith (u8 1 ++ u8 7 ++ u16 0), runState, by decide⟩

/-- The premises of `ShutdownCompleteCompletes` hold together. -/
theorem test_shutdownComplete_premises :
    ∃ (t : Nat) (d : Shutdown) (s : State),
      (s.sys.shutdown = some d) ∧
      (d.stage = 4) ∧
      ((s.atInstant t).ctx0Drained true = true) ∧
      ((s.atInstant t).canReport = true) :=
  ⟨5, { mode := 0, flags := 0, mb := 0, seq := 1, norFailed := false, stage := 4, running := 0 }, readyState.modSys (fun y => { y with shutdown := some { mode := 0, flags := 0, mb := 0, seq := 1, norFailed := false, stage := 4, running := 0 } }), by decide⟩

/-- The premises of `SysResetCompletes` hold together. -/
theorem test_sysReset_premises :
    ∃ (t : Nat) (c : Cmd) (s : State),
      ((s.atInstant t).admits 0x0105 c = true) ∧
      (rd c.arg 0 1 ≤ 1) :=
  ⟨5, cmdWith (u8 1 ++ u8 1 ++ u16 0), readyState, by decide⟩

/-- The premises of `ResetBeginsCompletes` hold together. -/
theorem test_resetBegins_premises :
    ∃ (t : Nat) (p : ResetPend) (s : State),
      (s.sys.resetPend = some p) ∧
      (p.notBefore ≤ (s.atInstant t).now) :=
  ⟨128000, ⟨true, 5, 2, none, none, false⟩, readyState.modSys (fun y => { y with resetPend := some ⟨true, 5, 2, none, none, false⟩ }), by decide⟩

/-- The premises of `SysTimeReadCompletes` hold together. -/
theorem test_sysTimeRead_premises :
    ∃ (t : Nat) (c : Cmd) (s : State),
      ((s.atInstant t).admits 0x0106 (asForm c 0 0 [1]) = true) ∧
      (rd (asForm c 0 0 [1]).arg 0 1 = 0) ∧
      (rd (asForm c 0 0 [1]).arg 4 8 = 0) :=
  ⟨5, cmdWith (zeros 12), readyState, by decide⟩

/-- The premises of `SysTimeSetCompletes` hold together. -/
theorem test_sysTimeSet_premises :
    ∃ (t : Nat) (c : Cmd) (s : State),
      ((s.atInstant t).admits 0x0106 (asForm c 0 1 [0]) = true) ∧
      (rd (asForm c 0 1 [0]).arg 0 1 = 1) ∧
      (rd (asForm c 0 1 [0]).arg 4 8 < 2 ^ 40) ∧
      (s.tb.pendSet = none) ∧
      ((s.cfg.tb.source = 0 ∨ s.cfg.tb.source = 2)) :=
  ⟨5, cmdWith (u32 1 ++ u64 77), readyState, by decide⟩

/-- The premises of `SysTimeSetBoundaryCompletes` hold together. -/
theorem test_sysTimeSetBoundary_premises :
    ∃ (t b v : Nat) (p : PendSet) (c : Pend) (s : State),
      (s.tb.pendSet = some p) ∧
      (s.pendOp 0x0106 = some c) ∧
      (c.mb ≠ ownMb) ∧
      ((s.atInstant t).namedBoundary p = some b) ∧
      ((s.atInstant t).secondAt b = (v, 0)) ∧
      ((s.atInstant t).canReport = true) :=
  ⟨ticksPerSecond, ticksPerSecond, 1, ⟨77, 100⟩, ⟨0x0106, 0, 1, 0, none, none, [0], []⟩, { (readyState.modCfg (fun g => { g with tb := { g.tb with source := 0 } })).modTb (fun b => { b with pendSet := some ⟨77, 100⟩ }) with pend := [⟨0x0106, 0, 1, 0, none, none, [0], []⟩] }, by decide⟩

/-- The premises of `SysStatusCompletes` hold together. -/
theorem test_sysStatus_premises :
    ∃ (t : Nat) (c : Cmd) (s : State),
      ((s.atInstant t).admits 0x0107 c = true) :=
  ⟨0, cmdWith (u8 1 ++ zeros 3), readyState.modSys (fun y => { y with stale := 3 }), by decide⟩

/-- The premises of `SysEventsCompletes` hold together. -/
theorem test_sysEvents_premises :
    ∃ (t : Nat) (c : Cmd) (s : State),
      ((s.atInstant t).admits 0x0108 c = true) ∧
      ((1 ≤ rd c.arg 0 2 ∧ rd c.arg 0 2 ≤ 1000)) :=
  ⟨5, cmdWith (u16 1000 ++ u16 0), readyState, by decide⟩

/-- The premises of `PwrWarnRiseCompletes` hold together. -/
theorem test_pwrWarnRise_premises :
    ∃ (t : Nat) (s : State),
      (s.warn.level = false) ∧
      (s.pwr.railsUp = true) :=
  ⟨5, readyState, by decide⟩

/-- The premises of `PwrWarnClearCompletes` hold together. -/
theorem test_pwrWarnClear_premises :
    ∃ (t : Nat) (s : State),
      (s.warn.level = true) ∧
      (s.pwr.railsUp = true) ∧
      (s.warn.withheld = []) ∧
      ((s.atInstant t).canReport = true) :=
  ⟨5, { readyState with warn := { readyState.warn with level := true, losses := [⟨0, 1, 0, 0, true, false⟩] } }, by decide⟩

/-- The premises of `PowerUpCompletes` hold together. -/
theorem test_powerUp_premises :
    ∃ (t : Nat) (s : State),
      (s.pwr.railsUp = false) :=
  ⟨5, { readyState with pwr := { readyState.pwr with railsUp := false } }, by decide⟩

/-- The premises of `ResetNLowCompletes` hold together. -/
theorem test_resetNLow_premises :
    ∃ (t ns : Nat) (s : State),
      (10000 ≤ ns) :=
  ⟨5, 10000, readyState, by decide⟩

/-- The premises of `ReleaseFromResetCompletes` hold together. -/
theorem test_releaseFromReset_premises :
    ∃ (t : Nat) (boot : BootFacts) (s : State),
      (s.pwr.inReset = true) ∧
      (s.pwr.railsUp = true) ∧
      (s.sec.trialPending = false) ∧
      (s.sec.trialRunning = false) ∧
      (s.bootable s.sec.preferred (if s.sec.preferred = 0 then boot.slotAOk else boot.slotBOk) = true) :=
  ⟨5, ⟨true, true⟩, State.reset, by decide⟩

/-- The premises of `ReleaseFromResetFailsCompletes` hold together. -/
theorem test_releaseFromResetFails_premises :
    ∃ (t : Nat) (boot : BootFacts) (s : State),
      (s.pwr.inReset = true) ∧
      (s.pwr.railsUp = true) ∧
      (s.sec.preferred < 2) ∧
      ((s.bootable 0 boot.slotAOk = false ∧ s.bootable 1 boot.slotBOk = false)) :=
  ⟨5, ⟨false, true⟩, State.reset, by decide⟩

/-- The premises of `DramTrainedCompletes` hold together. -/
theorem test_dramTrained_premises :
    ∃ (t ms : Nat) (cached : Bool) (changed : List Nat) (s : State),
      (s.sys.bootState = 1) ∧
      (s.pwr.inReset = false) ∧
      ((s.atInstant t).canReport = true) :=
  ⟨5, 100, false, [], { readyState.modSys (fun y => { y with bootState := 1 }) with mem := { readyState.mem with available := false } }, by decide⟩

/-- The premises of `RestoreCompleteCompletes` hold together. -/
theorem test_restoreComplete_premises :
    ∃ (t sigs : Nat) (s : State),
      (s.sys.bootState = 3) ∧
      (s.health.testRun = none) ∧
      (s.health.units.all (fun l => l.all (fun u => u.st != 2)) = true) :=
  ⟨5, 0, { readyState.modSys (fun y => { y with bootState := 3 }) with mbs := State.reset.mbs }, by decide⟩

/-- The premises of `ResumeLinesStartCompletes` hold together. -/
theorem test_resumeLinesStart_premises :
    ∃ (t : Nat) (r : Resume) (s : State),
      (s.sys.resume = some r) ∧
      (r.waitTime = false) ∧
      (s.lines.length = 16) :=
  ⟨5, ⟨1, false, 0⟩, (planState.modCfg (fun g => { g with refDelay := 100 })).modSys (fun y => { y with resume := some ⟨1, false, 0⟩ }), by decide⟩

/-- The premises of `PcieLinkUpCompletes` hold together. -/
theorem test_pcieLinkUp_premises :
    ∃ (t speed width : Nat) (s : State),
      ((1 ≤ speed ∧ speed ≤ 5)) ∧
      ((width = 1 ∨ width = 2 ∨ width = 4 ∨ width = 8)) ∧
      ((s.atInstant t).canReport = true) :=
  ⟨5, 5, 8, readyState, by decide⟩

/-- The premises of `StreamPacketSentCompletes` hold together. -/
theorem test_streamPacketSent_premises :
    ∃ (t i k : Nat) (r : StreamRun) (d : StreamDef) (q : Closed) (rest : List Closed) (s : State),
      ((s.ctxOf i).stream = some k) ∧
      (s.streamRun k = some r) ∧
      (s.streamDef k = some d) ∧
      (r.closed = q :: rest) ∧
      ((s.ctxOf i).cfg.kind = 3) ∧
      ((s.atInstant t).portOpen (s.ctxOf i).cfg.port = true) ∧
      (((s.ctxOf i).st ≠ 0 ∧ (s.ctxOf i).st ≠ 4)) ∧
      (r.headOff = 0) ∧
      (q.bytes.length ≤ (s.portCfg (s.ctxOf i).cfg.port).fragment) ∧
      ((s.atInstant t).mayMove i ((s.portCfg (s.ctxOf i).cfg.port).wire q.bytes.length) = true) :=
  ⟨5, 1, 3, ⟨1, 0, 0, [], [⟨0, [1, 2, 3, 4], []⟩], 0, 0, none, false, 0, 0, 0, 0, false⟩, ⟨5, 0, 0, 0xFF, 0, 4, 10⟩, ⟨0, [1, 2, 3, 4], []⟩, [], { (readyState.modCfg (fun g => { g with streams := g.streams.set 3 (some ⟨5, 0, 0, 0xFF, 0, 4, 10⟩), ports := upd g.ports 0 (fun x => { x with flags := 1, mtu := 1500 }) })).modCtx 1 (fun x => { x with configured := true, st := 1, stream := some 3, tokens := 2 ^ 40, cfg := { x.cfg with kind := 3, port := 0, burst := 9216 } }) with streams := readyState.streams.set 3 (some ⟨1, 0, 0, [], [⟨0, [1, 2, 3, 4], []⟩], 0, 0, none, false, 0, 0, 0, 0, false⟩), ports := upd readyState.ports 0 (fun x => { x with up := true }) }, by decide⟩

/-- The premises of `PauseFrameRxCompletes` hold together. -/
theorem test_pauseFrameRx_premises :
    ∃ (t p q : Nat) (s : State),
      (((s.portCfg p).enabled = true ∧ (s.portRun p).up = true)) ∧
      (bit (s.portCfg p).flags 1 = true) :=
  ⟨5, 0, 9, { readyState.modCfg (fun g => { g with ports := upd g.ports 0 (fun x => { x with flags := 3 }) }) with ports := upd readyState.ports 0 (fun x => { x with up := true }) }, by decide⟩

/-- The premises of `EthFrameDroppedCompletes` hold together. -/
theorem test_ethFrameDropped_premises :
    ∃ (t p : Nat) (ok : Bool) (s : State),
      (((s.portCfg p).enabled = true ∧ (s.portRun p).up = true)) :=
  ⟨5, 0, false, { readyState.modCfg (fun g => { g with ports := upd g.ports 0 (fun x => { x with flags := 3 }) }) with ports := upd readyState.ports 0 (fun x => { x with up := true }) }, by decide⟩

/-- The premises of `FullRetrainingDoneCompletes` hold together. -/
theorem test_fullRetrainingDone_premises :
    ∃ (t c us x : Nat) (s : State),
      ((s.chanOf c).retraining = some x) ∧
      ((s.atInstant t).canReport = true) :=
  ⟨5, 1, 700, 3, readyState.modChan 1 (fun x => { x with retraining := some 3 }), by decide⟩

/-- The premises of `JtagHaltCompletes` hold together. -/
theorem test_jtagHalt_premises :
    ∃ (t : Nat) (op : JtagOp) (s : State),
      ((op = .haltCpc ∨ op = .scan ∨ op = .bist)) ∧
      (jtagLevel op ≤ s.dbg.level) :=
  ⟨5, .bist, { readyState with dbg := { readyState.dbg with level := 3 } }, by decide⟩

/-- The premises of `JtagResumeCompletes` hold together. -/
theorem test_jtagResume_premises :
    ∃ (t : Nat) (s : State),
      (2 ≤ s.dbg.level) :=
  ⟨5, { readyState with dbg := { readyState.dbg with level := 2, cpcHalted := true } }, by decide⟩

/-- The premises of `JtagClosedCompletes` hold together. -/
theorem test_jtagClosed_premises :
    ∃ (t : Nat) (op : JtagOp) (s : State),
      (s.dbg.level < jtagLevel op) :=
  ⟨5, .scan, { readyState with dbg := { readyState.dbg with level := 2 } }, by decide⟩

/-- The premises of `SecChallengeCompletes` hold together. -/
theorem test_secChallenge_premises :
    ∃ (t : Nat) (c : Cmd) (s : State),
      ((s.atInstant t).admits 0x0E01 c = true) ∧
      ((s.sec.nonces.filter (fun e => decide ((s.atInstant t).now < e.2))).length < 8) :=
  ⟨5, cmdWith [], readyState, by decide⟩

/-- The premises of `SecEnrollCompletes` hold together. -/
theorem test_secEnroll_premises :
    ∃ (t : Nat) (c : Cmd) (s : State),
      ((s.atInstant t).admits 0x0E02 c = true) ∧
      (s.sec.lifecycle = 0) ∧
      (s.newestOwner = none) ∧
      (c.facts.progOk = true) ∧
      (s.dbg.level = 0) ∧
      (s.sec.sessions = []) ∧
      ((s.atInstant t).canReport = true) :=
  ⟨5, { cmdWith (zeros 324) with facts := ⟨true, true, [], []⟩ }, readyState, by decide⟩

/-- The premises of `SecServiceEnterCompletes` hold together. -/
theorem test_secServiceEnter_premises :
    ∃ (t : Nat) (c : Cmd) (s : State),
      ((s.atInstant t).admits 0x0E03 (asForm c 0 0 [1]) = true) ∧
      (rd (asForm c 0 0 [1]).arg 0 1 = 0) ∧
      ((readToken ((asForm c 0 0 [1]).arg.drop 4)).wellFormed = true) ∧
      (s.sec.lifecycle = 1) ∧
      ((s.atInstant t).tokenFault (readToken ((asForm c 0 0 [1]).arg.drop 4)) 2 [0] c.facts.sigOk = none) ∧
      (c.facts.progOk = true) ∧
      ((s.dbg.level = 0 ∧ s.sec.sessions = [])) ∧
      ((s.atInstant t).canReport = true) :=
  ⟨5, { cmdWith (u32 0 ++ u32 0x4E4B5441 ++ u8 2 ++ u8 0 ++ u16 0 ++ zeros 16 ++ zeros 32 ++ u32 60 ++ zeros 68 ++ zeros 96) with facts := ⟨true, true, [], []⟩ }, { readyState.modSec (fun k => { k with lifecycle := 1, nonces := [(zeros 32, 9)], owners := k.owners.set 0 ⟨sha384 (zeros 97), false, some (zeros 97)⟩ }) with build := { readyState.build with serial := zeros 16 } }, by decide⟩

/-- The premises of `SecServiceLeaveCompletes` hold together. -/
theorem test_secServiceLeave_premises :
    ∃ (t : Nat) (c : Cmd) (s : State),
      ((s.atInstant t).admits 0x0E03 (asForm c 0 1 [0]) = true) ∧
      (rd (asForm c 0 1 [0]).arg 0 1 = 1) ∧
      (s.sec.lifecycle = 2) ∧
      (c.facts.progOk = true) ∧
      ((s.dbg.level = 0 ∧ s.sec.sessions = [])) ∧
      ((s.atInstant t).canReport = true) :=
  ⟨5, { cmdWith (u32 1) with facts := ⟨true, true, [], []⟩ }, (readyState.modSec (fun k => { k with lifecycle := 2 })).modSys (fun y => { y with boot := { y.boot with pcieRights := 0x3F } }), by decide⟩

/-- The premises of `ServiceExpiryCompletes` hold together. -/
theorem test_serviceExpiry_premises :
    ∃ (t : Nat) (s : State),
      (s.sec.lifecycle = 2) ∧
      (s.sec.serviceUntil ≤ (s.atInstant t).elapsed) ∧
      ((s.dbg.level = 0 ∧ s.sec.sessions = [])) ∧
      ((s.atInstant t).canReport = true) :=
  ⟨5, readyState.modSec (fun k => { k with lifecycle := 2 }), by decide⟩

/-- The premises of `SecScrapCompletes` hold together. -/
theorem test_secScrap_premises :
    ∃ (t : Nat) (c : Cmd) (s : State),
      ((s.atInstant t).admits 0x0E04 c = true) ∧
      (s.sec.lifecycle = 0) ∧
      (c.arg.all (fun x => x == 0) = true) ∧
      (c.facts.progOk = true) :=
  ⟨5, { cmdWith (zeros 224) with facts := ⟨true, true, [], []⟩ }, readyState, by decide⟩

/-- The premises of `SecFwLoadCompletes` hold together. -/
theorem test_secFwLoad_premises :
    ∃ (t : Nat) (c : Cmd) (s : State),
      ((s.atInstant t).admits 0x0E05 c = true) ∧
      ((bit (rd c.arg 0 1) 0 = true ∧ bit (rd c.arg 0 1) 1 = false)) ∧
      (rd c.arg 2 2 ≤ 4000) ∧
      (rd c.arg 4 4 + rd c.arg 2 2 ≤ 512 + rd c.arg 8 4) ∧
      (512 + rd c.arg 8 4 ≤ s.slotBytes) ∧
      (s.sec.load = none) :=
  ⟨5, cmdWith (u8 1 ++ u8 0 ++ u16 4 ++ u32 0 ++ u32 100 ++ u32 7), readyState, by decide⟩

/-- The premises of `SecFwLoadChunkCompletes` hold together. -/
theorem test_secFwLoadChunk_premises :
    ∃ (t : Nat) (c : Cmd) (l : FwLoad) (s : State),
      ((s.atInstant t).admits 0x0E05 c = true) ∧
      ((bit (rd c.arg 0 1) 0 = false ∧ bit (rd c.arg 0 1) 1 = false)) ∧
      (rd c.arg 2 2 ≤ 4000) ∧
      (s.sec.load = some l) ∧
      (l.erasing = false) ∧
      (rd c.arg 4 4 + rd c.arg 2 2 ≤ 512 + l.length) :=
  ⟨5, cmdWith (u8 0 ++ u8 0 ++ u16 4 ++ u32 8 ++ u32 0 ++ u32 7), ⟨1, 100, [], false, none⟩, readyState.modSec (fun k => { k with load := some ⟨1, 100, [], false, none⟩ }), by decide⟩

/-- The premises of `FwEraseDoneCompletes` hold together. -/
theorem test_fwEraseDone_premises :
    ∃ (t : Nat) (l : FwLoad) (q : Pend) (s : State),
      (s.sec.load = some l) ∧
      (l.erasing = true) ∧
      (l.final = none) ∧
      ((s.atInstant t).norHeld = false) ∧
      (s.pendOp 0x0E05 = some q) ∧
      (q.mb ≠ ownMb) ∧
      ((s.atInstant t).canReport = true) :=
  ⟨5, ⟨1, 100, [], true, none⟩, ⟨0x0E05, 0, 1, 0, none, none, [0], []⟩, { readyState.modSec (fun k => { k with load := some ⟨1, 100, [], true, none⟩ }) with pend := [⟨0x0E05, 0, 1, 0, none, none, [0], []⟩] }, by decide⟩

/-- The premises of `SecFwActivateCompletes` hold together. -/
theorem test_secFwActivate_premises :
    ∃ (t : Nat) (c : Cmd) (s : State),
      ((s.atInstant t).admits 0x0E06 (asForm c 0 0 [1]) = true) ∧
      (rd (asForm c 0 0 [1]).arg 0 1 = 0) ∧
      ((nth s.sec.fw (1 - s.sec.running) default).loaded = true) ∧
      ((s.atInstant t).canReport = true) :=
  ⟨5, cmdWith (u32 0), readyState.modSec (fun k => { k with fw := k.fw.set 1 ⟨[], true, 9, 1⟩ }), by decide⟩

/-- The premises of `SecFwCommitCompletes` hold together. -/
theorem test_secFwCommit_premises :
    ∃ (t : Nat) (c : Cmd) (s : State),
      ((s.atInstant t).admits 0x0E06 (asForm c 0 1 [0]) = true) ∧
      (rd (asForm c 0 1 [0]).arg 0 1 = 1) ∧
      (s.sec.trialRunning = true) ∧
      (c.facts.progOk = true) ∧
      ((s.atInstant t).canReport = true) :=
  ⟨5, { cmdWith (u32 1) with facts := ⟨true, true, [], []⟩ }, readyState.modSec (fun k => { k with fw := k.fw.set 1 ⟨[], true, 9, 1⟩, running := 1, trialRunning := true }), by decide⟩

/-- The premises of `TrialBootTimeoutCompletes` hold together. -/
theorem test_trialBootTimeout_premises :
    ∃ (t : Nat) (s : State),
      (s.sec.trialRunning = true) ∧
      (s.sys.bootState < 4) ∧
      (s.pwr.inReset = false) ∧
      (s.sec.trialSince + 5 * ticksPerSecond ≤ (s.atInstant t).now) :=
  ⟨5 * ticksPerSecond, (readyState.modSec (fun k => { k with trialRunning := true })).modSys (fun y => { y with bootState := 2 }), by decide⟩

/-- The premises of `SecSessionOpenCompletes` hold together. -/
theorem test_secSessionOpen_premises :
    ∃ (t : Nat) (c : Cmd) (s : State),
      ((s.atInstant t).admits 0x0E07 c = true) ∧
      (s.sec.lifecycle = 1) ∧
      ((readToken (c.arg.drop 100)).wellFormed = true) ∧
      (s.sec.sessions.length < 16) ∧
      ((s.atInstant t).tokenFault (readToken (c.arg.drop 100)) 5 [0] c.facts.sigOk = none) ∧
      ((s.atInstant t).canReport = true) :=
  ⟨5, { cmdWith (zeros 100 ++ u32 0x4E4B5441 ++ u8 5 ++ u8 0 ++ u16 0 ++ zeros 16 ++ zeros 32 ++ u32 60 ++ u8 3 ++ zeros 67 ++ zeros 96) with facts := ⟨true, true, [7], []⟩ }, { readyState.modSec (fun k => { k with lifecycle := 1, nonces := [(zeros 32, 9)], owners := k.owners.set 0 ⟨sha384 (zeros 97), false, some (zeros 97)⟩ }) with build := { readyState.build with serial := zeros 16 } }, by decide⟩

/-- The premises of `SecSessionCloseCompletes` hold together. -/
theorem test_secSessionClose_premises :
    ∃ (t : Nat) (c : Cmd) (e : Session) (s : State),
      ((s.atInstant t).admits 0x0E08 c = true) ∧
      (s.session? (rd c.arg 0 4) = some e) ∧
      (s.sec.sessions.filter (fun x => x.id == rd c.arg 0 4) = [e]) ∧
      ((s.atInstant t).canReport = true) :=
  ⟨5, cmdWith (u32 9), ⟨9, 3, 100, none, 0, []⟩, readyState.modSec (fun k => { k with sessions := [⟨9, 3, 100, none, 0, []⟩] }), by decide⟩

/-- The premises of `SessionExpiryCompletes` hold together. -/
theorem test_sessionExpiry_premises :
    ∃ (t id : Nat) (e : Session) (s : State),
      (s.session? id = some e) ∧
      (s.sec.sessions.filter (fun x => x.id == id) = [e]) ∧
      (e.expiry ≤ (s.atInstant t).elapsed) ∧
      ((s.atInstant t).canReport = true) :=
  ⟨ticksPerSecond, 9, ⟨9, 3, 1, none, 0, []⟩, readyState.modSec (fun k => { k with sessions := [⟨9, 3, 1, none, 0, []⟩] }), by decide⟩

/-- The premises of `SecRightsCompletes` hold together. -/
theorem test_secRights_premises :
    ∃ (t : Nat) (c : Cmd) (s : State),
      ((s.atInstant t).admits 0x0E09 c = true) ∧
      ((readToken c.arg).wellFormed = true) ∧
      ((s.atInstant t).tokenFault (readToken c.arg) 6 [0] c.facts.sigOk = none) :=
  ⟨5, { cmdWith (u32 0x4E4B5441 ++ u8 6 ++ u8 0 ++ u16 0 ++ zeros 16 ++ zeros 32 ++ u32 0 ++ u8 3 ++ zeros 67 ++ zeros 96) with facts := ⟨true, true, [], []⟩ }, { (readyState.modSec (fun k => { k with lifecycle := 1, nonces := [(zeros 32, 9)], owners := k.owners.set 0 ⟨sha384 (zeros 97), false, some (zeros 97)⟩ })).modSys (fun y => { y with boot := { y.boot with pcieRights := 0x3F } }) with build := { readyState.build with serial := zeros 16 } }, by decide⟩

/-- The premises of `SecStatusCompletes` hold together. -/
theorem test_secStatus_premises :
    ∃ (t : Nat) (c : Cmd) (s : State),
      ((s.atInstant t).admits 0x0E0A c = true) :=
  ⟨5, cmdWith [], readyState, by decide⟩

/-- The premises of `DbgOpenCompletes` hold together. -/
theorem test_dbgOpen_premises :
    ∃ (t : Nat) (c : Cmd) (s : State),
      ((s.atInstant t).admits 0x0E0B c = true) ∧
      (s.sec.lifecycle = 0) ∧
      ((rd (readToken c.arg).arg 0 1 = 1 ∨ rd (readToken c.arg).arg 0 1 = 2)) ∧
      ((s.atInstant t).judgedPower < 2) ∧
      (s.dbg.level = 0) ∧
      (((c.arg.take 60).all (fun x => x == 0) = true ∧ (c.arg.drop 61).all (fun x => x == 0) = true)) ∧
      ((s.atInstant t).canReport = true) :=
  ⟨5, cmdWith (zeros 60 ++ u8 2 ++ zeros 163), readyState, by decide⟩

/-- The premises of `DbgCloseCompletes` hold together. -/
theorem test_dbgClose_premises :
    ∃ (t : Nat) (c : Cmd) (s : State),
      ((s.atInstant t).admits 0x0E0C c = true) ∧
      ((1 ≤ s.dbg.level ∧ s.dbg.level ≤ 2)) ∧
      ((s.atInstant t).canReport = true) :=
  ⟨5, cmdWith [], { readyState with dbg := { readyState.dbg with level := 2 } }, by decide⟩

/-- The premises of `DebugLevelExpiryCompletes` hold together. -/
theorem test_debugLevelExpiry_premises :
    ∃ (t : Nat) (s : State),
      ((1 ≤ s.dbg.level ∧ s.dbg.level ≤ 2)) ∧
      ((s.dbg.until_ ≠ 0 ∧ s.dbg.until_ ≤ (s.atInstant t).elapsed)) ∧
      ((s.atInstant t).canReport = true) :=
  ⟨ticksPerSecond, { readyState with dbg := { readyState.dbg with level := 2, until_ := 1 } }, by decide⟩

/-- The premises of `PwrConfigCompletes` hold together. -/
theorem test_pwrConfig_premises :
    ∃ (t : Nat) (c : Cmd) (s : State),
      ((s.atInstant t).admits 0x0E0D c = true) :=
  ⟨5, cmdWith (u32 1), readyState, by decide⟩

/-- The premises of `PwrStateCompletes` hold together. -/
theorem test_pwrState_premises :
    ∃ (t : Nat) (c : Cmd) (s : State),
      ((s.atInstant t).admits 0x0E0E c = true) ∧
      ((2 ≤ rd c.arg 0 1 ∧ rd c.arg 0 1 ≤ 3)) ∧
      (s.pwr.pend = none) ∧
      (s.pwr.st < 2) ∧
      (s.lines.length = 16) :=
  ⟨5, cmdWith (u8 2 ++ u8 1 ++ u16 0), runState, by decide⟩

/-- The premises of `PwrStateSwapCompletes` hold together. -/
theorem test_pwrStateSwap_premises :
    ∃ (t : Nat) (c : Cmd) (s : State),
      ((s.atInstant t).admits 0x0E0E c = true) ∧
      (rd c.arg 0 1 < 2) ∧
      (s.pwr.pend = none) ∧
      (s.pwr.st < 2) :=
  ⟨5, cmdWith (u8 1 ++ u8 0 ++ u16 0), readyState, by decide⟩

/-- The premises of `P2EnteredCompletes` hold together. -/
theorem test_p2Entered_premises :
    ∃ (t : Nat) (p : PwrPend) (q : Pend) (s : State),
      (s.pwr.pend = some p) ∧
      ((p.target = 2 ∧ p.stage = 0)) ∧
      (s.stopsDone = true) ∧
      (s.pendOp 0x0E0E = some q) ∧
      (q.mb ≠ ownMb) ∧
      ((s.ctxOf 0).stream = none) ∧
      (s.pwr.st < 2) :=
  ⟨5, ⟨2, true, 0, 1, 0⟩, ⟨0x0E0E, 0, 1, 0, none, none, [0], []⟩, { readyState with pwr := { readyState.pwr with pend := some ⟨2, true, 0, 1, 0⟩ }, pend := [⟨0x0E0E, 0, 1, 0, none, none, [0], []⟩] }, by decide⟩

/-- The premises of `P2ExitCompletes` hold together. -/
theorem test_p2Exit_premises :
    ∃ (t : Nat) (p : PwrPend) (s : State),
      (s.pwr.pend = some p) ∧
      ((s.pwr.st = 2 ∧ p.target < 2)) ∧
      (p.resume = false) :=
  ⟨5, ⟨1, false, 0, 1, 0⟩, { readyState with pwr := { readyState.pwr with st := 2, pend := some ⟨1, false, 0, 1, 0⟩ }, pend := [⟨0x0E0E, 0, 1, 0, none, none, [0], []⟩] }, by decide⟩

/-- The premises of `P3EnteredCompletes` hold together. -/
theorem test_p3Entered_premises :
    ∃ (t : Nat) (p : PwrPend) (s : State),
      (s.pwr.pend = some p) ∧
      ((p.target = 3 ∧ p.stage = 1)) ∧
      (s.otherStreams = []) ∧
      ((s.atInstant t).norHeld = false) ∧
      ((s.ctxOf 0).stream = none) :=
  ⟨5, ⟨3, true, 0, 1, 1⟩, { readyState with pwr := { readyState.pwr with pend := some ⟨3, true, 0, 1, 1⟩ }, pend := [⟨0x0E0E, 0, 1, 0, none, none, [0], []⟩] }, by decide⟩

/-- The premises of `P3EnteredFailsCompletes` hold together. -/
theorem test_p3EnteredFails_premises :
    ∃ (t : Nat) (p : PwrPend) (s : State),
      (s.pwr.pend = some p) ∧
      ((p.target = 3 ∧ p.stage = 1)) ∧
      (s.otherStreams = []) ∧
      ((s.atInstant t).norHeld = false) ∧
      (s.pwr.st ≠ 3) :=
  ⟨5, ⟨3, true, 0, 1, 1⟩, { readyState with pwr := { readyState.pwr with pend := some ⟨3, true, 0, 1, 1⟩ }, pend := [⟨0x0E0E, 0, 1, 0, none, none, [0], []⟩] }, by decide⟩

/-- The premises of `P3ExitCompletes` hold together. -/
theorem test_p3Exit_premises :
    ∃ (t sigs ms : Nat) (boot : BootFacts) (cached : Bool) (p : PwrPend) (s : State),
      (s.pwr.pend = some p) ∧
      ((s.pwr.st = 3 ∧ p.target < 2)) ∧
      (p.resume = false) ∧
      (s.bootable s.sec.running (if s.sec.running = 0 then boot.slotAOk else boot.slotBOk) = true) ∧
      (s.sys.rest.valid = true) ∧
      (s.sec.secretErased = false) :=
  ⟨5, 0, 100, ⟨true, true⟩, false, ⟨0, false, 0, 1, 0⟩, { readyState.modSys (fun y => { y with rest := { y.rest with valid := true } }) with pwr := { readyState.pwr with st := 3, pend := some ⟨0, false, 0, 1, 0⟩ }, pend := [⟨0x0E0E, 0, 1, 0, none, none, [0], []⟩] }, by decide⟩

/-- The premises of `PwrStatusCompletes` hold together. -/
theorem test_pwrStatus_premises :
    ∃ (t : Nat) (c : Cmd) (s : State),
      ((s.atInstant t).admits 0x0E0F c = true) :=
  ⟨5, cmdWith [], readyState, by decide⟩

/-- The premises of `TargetedTestDoneCompletes` hold together. -/
theorem test_targetedTestDone_premises :
    ∃ (t k i : Nat) (s : State),
      ((s.hUnit k i).st = 2) ∧
      ((k = 2 ∧ i < 36)) ∧
      ((s.hUnit k i).testSince ≤ (s.atInstant t).now) ∧
      (s.pwr.st ≠ 3) ∧
      (s.tb.synthLocked = true) ∧
      ((s.hUnit k i).onDemand = true) ∧
      (s.holdsWork k i = false) ∧
      (s.health.units.length = 11) ∧
      ((nth s.health.units k []).length = 36) ∧
      ((s.atInstant t).canReport = true) :=
  ⟨500000, 2, 33, (readyState.modTb (fun b => { b with synthLocked := true })).modHUnit 2 33 (fun u => { u with st := 2, onDemand := true }), by decide⟩

/-- The premises of `TargetedTestFailedCompletes` hold together. -/
theorem test_targetedTestFailed_premises :
    ∃ (t k i : Nat) (s : State),
      ((s.hUnit k i).st = 2) ∧
      ((k = 2 ∧ i < 36)) ∧
      ((s.hUnit k i).testSince ≤ (s.atInstant t).now) ∧
      (s.pwr.st ≠ 3) ∧
      (s.tb.synthLocked = true) ∧
      (s.health.units.length = 11) ∧
      ((nth s.health.units k []).length = 36) ∧
      ((s.atInstant t).canReport = true) :=
  ⟨500000, 2, 33, (readyState.modTb (fun b => { b with synthLocked := true })).modHUnit 2 33 (fun u => { u with st := 2 }), by decide⟩

/-- The premises of `NoSpareCompletes` hold together. -/
theorem test_noSpare_premises :
    ∃ (t i : Nat) (s : State),
      (s.spareCauseOf 5 i = some 0) ∧
      ((s.atInstant t).canReport = true) :=
  ⟨5, 0, (readyState.modHUnit 5 0 (fun u => { u with st := 3 })).modHUnit 5 1 (fun u => { u with st := 3 }), by decide⟩

/-- The premises of `SramErrorCompletes` hold together. -/
theorem test_sramError_premises :
    ∃ (t m row b : Nat) (s : State),
      (m < 1152) ∧
      ((s.atInstant t).canReport = true) ∧
      ((s.health.sramErrs.filter (fun e => e.1 == m && e.2.1 == row)).length < 3) :=
  ⟨5, 77, 3, 9, readyState, by decide⟩

/-- The premises of `SramErrorDetectedCompletes` hold together. -/
theorem test_sramErrorDetected_premises :
    ∃ (t m row b : Nat) (s : State),
      (m < 1152) ∧
      (s.hUnit 7 m = Unit_.fresh) ∧
      (s.pwr.st < 2) ∧
      (s.health.sramErrs = []) :=
  ⟨5, 77, 3, 9, readyState, by decide⟩

/-- The premises of `D2dLaneErrorCompletes` hold together. -/
theorem test_d2dLaneError_premises :
    ∃ (t lane n : Nat) (s : State),
      (s.health.d2dMap.contains lane = true) ∧
      ((n < 16 ∧ s.health.d2dErrs = [])) :=
  ⟨5, 7, 9, readyState, by decide⟩

/-- The premises of `D2dLaneReplacedCompletes` hold together. -/
theorem test_d2dLaneReplaced_premises :
    ∃ (t lane n j g : Nat) (s : State),
      (s.health.d2dMap.findIdx? (· == lane) = some g) ∧
      (s.health.d2dMap.contains lane = true) ∧
      (s.spareFor 8 lane = some j) ∧
      ((lane < 136 ∧ j < 136 ∧ j ≠ lane)) ∧
      ((s.hUnit 8 lane).st = 0) ∧
      ((s.hUnit 8 lane).due = none) ∧
      (s.health.units.length = 11) ∧
      ((nth s.health.units 8 []).length = 136) ∧
      ((s.atInstant t).canReport = true) :=
  ⟨5, 7, 0, 32, 7, readyState, by decide⟩

/-- The premises of `SelftestSegmentDoneCompletes` hold together. -/
theorem test_selftestSegmentDone_premises :
    ∃ (t since : Nat) (o : SegmentOutcome) (s : State),
      (s.health.testRun = some (false, since)) ∧
      (s.segmentNext = some o.segment) ∧
      ((1 ≤ o.segment ∧ o.segment ≤ 10)) ∧
      (o.ended = true) ∧
      (o.conditions = true) ∧
      (o.restored = true) ∧
      (o.cycles = segmentCycles o.segment) ∧
      ((o.suspects = [] ∧ o.fails = [])) ∧
      (s.health.segments.length = 10) ∧
      (s.pwr.pend = none) ∧
      (s.sys.shutdown = none) :=
  ⟨5, 0, { segment := 1, cycles := 120000000, ended := true, conditions := true, restored := true, suspects := [], fails := [], atBoot := false }, readyState.beginRun, by decide⟩

/-- The premises of `SensorSampleCompletes` hold together. -/
theorem test_sensorSample_premises :
    ∃ (t : Nat) (thermal rails : List Int) (s : State),
      ((thermal.length = 24 ∧ rails.length = 16)) ∧
      ((s.health.thermal.length = 24 ∧ s.health.rails.length = 16)) :=
  ⟨5, List.replicate 24 500, List.replicate 16 700, readyState, by decide⟩

/-- The premises of `CounterSaturatedCompletes` hold together. -/
theorem test_counterSaturated_premises :
    ∃ (t op off sel : Nat) (s : State),
      (sel < statusSelectors op) ∧
      ((counterOffsets op sel).contains off = true) ∧
      (rd ((s.atInstant t).statusBody op sel) off 4 = satMax) ∧
      (s.health.saturated.contains (op, off, sel) = false) ∧
      ((s.atInstant t).canReport = true) :=
  ⟨5, 0x0107, 0, 0, readyState.modMb 0 (fun m => { m with ignored := satMax }), by decide⟩

/-- The premises of `HealthStatusCompletes` hold together. -/
theorem test_healthStatus_premises :
    ∃ (t : Nat) (c : Cmd) (s : State),
      ((s.atInstant t).admits 0x0F01 c = true) :=
  ⟨5, cmdWith (u32 1), readyState, by decide⟩

/-- The premises of `HealthUnitsCompletes` hold together. -/
theorem test_healthUnits_premises :
    ∃ (t : Nat) (c : Cmd) (s : State),
      ((s.atInstant t).admits 0x0F02 c = true) ∧
      (rd c.arg 0 1 ≤ 10) ∧
      ((1 ≤ rd c.arg 4 2 ∧ rd c.arg 4 2 ≤ 64)) ∧
      (rd c.arg 2 2 + rd c.arg 4 2 ≤ unitCount (rd c.arg 0 1)) :=
  ⟨5, cmdWith (u8 2 ++ u8 0 ++ u16 30 ++ u16 6), readyState, by decide⟩

/-- The premises of `HealthTestCompletes` hold together. -/
theorem test_healthTest_premises :
    ∃ (t : Nat) (c : Cmd) (s : State),
      ((s.atInstant t).admits 0x0F03 c = true) ∧
      (rd c.arg 0 1 = 2) ∧
      ((s.atInstant t).unitNamed 2 (rd c.arg 2 2) = true) ∧
      (((s.hUnit 2 (rd c.arg 2 2)).st = 1 ∧ (s.hUnit 2 (rd c.arg 2 2)).due = none)) ∧
      (s.health.units.length = 11) ∧
      ((nth s.health.units 2 []).length = 36) :=
  ⟨5, cmdWith (u8 2 ++ u8 0 ++ u16 33), readyState, by decide⟩

/-- The premises of `HealthAcceptCompletes` hold together. -/
theorem test_healthAccept_premises :
    ∃ (t : Nat) (c : Cmd) (s : State),
      ((s.atInstant t).admits 0x0F04 c = true) ∧
      (rd c.arg 0 1 ≤ 10) ∧
      (rd c.arg 2 2 < unitCount (rd c.arg 0 1)) ∧
      ((s.hUnit (rd c.arg 0 1) (rd c.arg 2 2)).noSpare = true) :=
  ⟨5, cmdWith (u8 2 ++ u8 0 ++ u16 33), readyState.modHUnit 2 33 (fun u => { u with st := 5, noSpare := true }), by decide⟩

/-- The premises of `HealthFuseRepairCompletes` hold together. -/
theorem test_healthFuseRepair_premises :
    ∃ (t : Nat) (c : Cmd) (s : State),
      ((s.atInstant t).admits 0x0F05 c = true) ∧
      ((1 ≤ rd c.arg 0 2 ∧ rd c.arg 0 2 ≤ 512)) ∧
      ((s.atInstant t).pendOp 0x0F05 = none) ∧
      ((s.atInstant t).conditionsNow = true) ∧
      (s.health.fusesUsed < 512) :=
  ⟨5, cmdWith (u16 4 ++ u16 0), ((readyState.modHealth (fun h => { h with rails := h.rails.map (fun r => { r with value := 750 }) })).modTb (fun b => { b with synthLocked := true })).modSys (fun y => { y with boot := { y.boot with pcieRights := 0x3F } }), by decide⟩

/-- The premises of `FuseRepairDoneCompletes` hold together. -/
theorem test_fuseRepairDone_premises :
    ∃ (t : Nat) (q : Pend) (r : Repair) (s : State),
      (s.pendOp 0x0F05 = some q) ∧
      ((s.health.repairs.filter (fun r => !r.fused)).take (q.units.headD 0) = [r]) ∧
      ((s.atInstant t).norHeld = false) ∧
      (s.health.fusesUsed < 512) ∧
      (q.mb ≠ ownMb) ∧
      ((s.atInstant t).canReport = true) :=
  ⟨5, ⟨0x0F05, 0, 1, 0, none, none, [1], []⟩, ⟨0, 3, 7, false⟩, { readyState.modHealth (fun h => { h with repairs := [⟨0, 3, 7, false⟩, ⟨0, 4, 7, false⟩] }) with pend := [⟨0x0F05, 0, 1, 0, none, none, [1], []⟩] }, by decide⟩

/-- The premises of `HealthResultsCompletes` hold together. -/
theorem test_healthResults_premises :
    ∃ (t : Nat) (c : Cmd) (s : State),
      ((s.atInstant t).admits 0x0F06 c = true) ∧
      (rd c.arg 0 1 ≤ 10) :=
  ⟨5, cmdWith (u32 3), readyState, by decide⟩

/-- The premises of `HealthSensorsCompletes` hold together. -/
theorem test_healthSensors_premises :
    ∃ (t : Nat) (c : Cmd) (s : State),
      ((s.atInstant t).admits 0x0F07 c = true) :=
  ⟨5, cmdWith (u32 1), readyState, by decide⟩

/-- The premises of `HealthLimitsCompletes` hold together. -/
theorem test_healthLimits_premises :
    ∃ (t : Nat) (c : Cmd) (s : State),
      ((s.atInstant t).admits 0x0F08 c = true) ∧
      ((rd c.arg 0 1 ≤ 23 ∨ (32 ≤ rd c.arg 0 1 ∧ rd c.arg 0 1 ≤ 47))) ∧
      (rdS c.arg 2 2 < rdS c.arg 4 2) :=
  ⟨5, cmdWith (u8 33 ++ u8 0 ++ u16 600 ++ u16 800 ++ u16 0), readyState, by decide⟩

/-- The premises of `HealthLogReadCompletes` hold together. -/
theorem test_healthLogRead_premises :
    ∃ (t : Nat) (c : Cmd) (s : State),
      ((s.atInstant t).admits 0x0F09 c = true) ∧
      ((1 ≤ rd c.arg 8 2 ∧ rd c.arg 8 2 ≤ 60)) :=
  ⟨5, cmdWith (u64 0 ++ u16 5 ++ u16 0), readyState, by decide⟩

/-- The premises of `DoorbellIgnoredCompletes` hold together. -/
theorem test_doorbellIgnored_premises :
    ∃ (t n : Nat) (fetched : List Byte) (facts : Facts) (s : State),
      (n < 8) ∧
      (((s.mbOf n).held = true ∨ (s.mbOf n).st = 1)) :=
  ⟨5, 2, [], default, readyState.modMb 2 (fun m => { m with held := true }), by decide⟩

/-- The premises of `DoorbellHeldCompletes` hold together. -/
theorem test_doorbellHeld_premises :
    ∃ (t n : Nat) (fetched : List Byte) (facts : Facts) (s : State),
      (n < 8) ∧
      (((s.mbOf n).held = false ∧ (s.mbOf n).st = 3)) :=
  ⟨5, 2, [], default, State.reset, by decide⟩

/-- The premises of `DoorbellRunsCompletes` hold together. -/
theorem test_doorbellRuns_premises :
    ∃ (t n : Nat) (fetched : List Byte) (facts : Facts) (s : State),
      (n < 8) ∧
      (((s.mbOf n).held = true ∧ (s.mbOf n).st ≠ 3)) ∧
      (s.dbg.cpcHalted = false) :=
  ⟨5, 2, [], default, readyState.modMb 2 (fun m => { m with held := true, st := 1 }), by decide⟩

/-- The premises of `BusyFrameCompletes` hold together. -/
theorem test_busyFrame_premises :
    ∃ (t p : Nat) (f : List Byte) (plain : List Byte) (facts : Facts) (s : State),
      (((s.portCfg p).enabled = true ∧ (s.portRun p).up = true ∧ p < 2)) ∧
      ((rd f 0 4 = 0x464D4244 ∧ rd f 4 1 = 1 ∧ rd f 5 1 ≤ 7 ∧ rd f 6 2 = plain.length ∧ f.length = 36 + plain.length ∧ 32 ≤ plain.length)) ∧
      ((rd f 8 4 = 0 ∧ s.session? 0 = none ∨ ∃ e ∈ s.sec.sessions, s.session? (rd f 8 4) = some e ∧ e.rxCounter = none)) ∧
      ((s.mbOf (rd f 5 1)).st = 1) ∧
      (s.dbg.cpcHalted = false) :=
  ⟨5, 0, u32 0x464D4244 ++ u8 1 ++ u8 0 ++ u16 32 ++ zeros 60, u16 0x0101 ++ u16 0 ++ u16 1 ++ u16 0 ++ zeros 24, default, { (readyState.modCfg (fun g => { g with ports := upd g.ports 0 (fun x => { x with flags := 1 }) })).modMb 0 (fun m => { m with st := 1, lastSeq := some 7 }) with ports := upd readyState.ports 0 (fun x => { x with up := true }) }, by decide⟩

/-- The premises of `ResetPinLongCompletes` hold together. -/
theorem test_resetPinLong_premises :
    ∃ (t ns : Nat) (s : State),
      (10000 ≤ ns) :=
  ⟨5, 10000, readyState, by decide⟩

/-- The premises of `ResetPinAsKind1Completes` hold together. -/
theorem test_resetPinAsKind1_premises :
    ∃ (t ns : Nat) (s : State),
      (10000 ≤ ns) :=
  ⟨5, 10000, readyState, by decide⟩

/-- The premises of `ResetPinShortCompletes` hold together. -/
theorem test_resetPinShort_premises :
    ∃ (t ns : Nat) (s : State),
      (ns < 1000) :=
  ⟨5, 999, readyState, by decide⟩

/-- The premises of `CommandAreaReadsCompletes` hold together. -/
theorem test_commandAreaReads_premises :
    ∃ (t n o : Nat) (data : List Byte) (s : State),
      (n < 8) ∧
      (n < s.mbs.length) ∧
      (o + data.length ≤ 4096) :=
  ⟨5, 7, 4092, u32 0x12345678, readyState, by decide⟩

/-! ### Premises of the frames, invariants and single rules -/

/-- Each family has a command that answers a next state. -/
theorem test_frames_premises :
    (∃ (i : Instr) (s u : State), familyOf i = .planRx ∧ exec i s = .next u ∧ StatePart.dram ∉ writesOf i) ∧
    (∃ (i : Instr) (s u : State), familyOf i = .lineFelt ∧ exec i s = .next u ∧ StatePart.sec ∉ writesOf i) ∧
    (∃ (i : Instr) (s u : State), familyOf i = .tileTrig ∧ exec i s = .next u ∧ StatePart.sec ∉ writesOf i) ∧
    (∃ (i : Instr) (s u : State), familyOf i = .time ∧ exec i s = .next u ∧ StatePart.dram ∉ writesOf i) ∧
    (∃ (i : Instr) (s u : State), familyOf i = .thermZone ∧ exec i s = .next u ∧ StatePart.dram ∉ writesOf i) ∧
    (∃ (i : Instr) (s u : State), familyOf i = .memoryLinks ∧ exec i s = .next u ∧ StatePart.lines ∉ writesOf i) ∧
    (∃ (i : Instr) (s u : State), familyOf i = .hostAccess ∧ exec i s = .next u ∧ StatePart.lines ∉ writesOf i) ∧
    (∃ (i : Instr) (s u : State), familyOf i = .system ∧ exec i s = .next u ∧ StatePart.dram ∉ writesOf i) :=
  ⟨⟨.emitPermitFall 0, State.reset, _, rfl, rfl, by decide⟩, ⟨.lineSpared 0 0 false, State.reset, _, rfl, rfl, by decide⟩,
    ⟨.jobDispatch 0 ⟨0, 0, []⟩, State.reset, _, rfl, rfl, by decide⟩, ⟨.refclkLost 0, State.reset, _, rfl, rfl, by decide⟩,
    ⟨.vrefZMeasure 0 1200, State.reset, _, rfl, rfl, by decide⟩, ⟨.refresh 0 0 ⟨0, 0⟩, State.reset, _, rfl, rfl, by decide⟩,
    ⟨.winBaseWrite 0 0, State.reset, _, rfl, rfl, by decide⟩, ⟨.nonceExpiry 0, State.reset, _, rfl, rfl, by decide⟩⟩

/-- The premises of the invariants hold together: a canonical memory, and a command that answers a next state; EMIT_PERMIT low and P2 after it. -/
theorem test_invariants_premises :
    ∃ (i : Instr) (s u : State), Memory.wf s.dram = true ∧ exec i s = .next u ∧ s.sec.lifecycle = 3 ∧ s.sec.secretErased = true :=
  ⟨.emitPermitFall 0, { State.reset with sec := { State.reset.sec with lifecycle := 3, secretErased := true } }, _, by decide, rfl, by decide, by decide⟩

/-- Emission is forbidden after a command in both ways R60 and R62 name, and a revoked owner slot exists. -/
theorem test_dark_premises :
    (∃ u : State, exec (.emitPermitFall 0) readyState = .next u ∧ u.emit.level = false) ∧
    (∃ (s u : State), exec (.nonceExpiry 0) s = .next u ∧ 2 ≤ u.pwr.st) ∧
    (∃ o, ({ State.reset.sec with owners := [⟨[], true, none⟩] } : Security).owners[0]? = some o ∧ o.revoked = true) :=
  ⟨⟨_, rfl, by decide⟩, ⟨{ readyState with pwr := { readyState.pwr with st := 2 } }, _, rfl, by decide⟩, ⟨_, rfl, rfl⟩⟩

/-- A mailbox with a LAST_SEQ meets the premises of each case of the sequence rule, at the ends of their ranges. -/
theorem test_sequence_premises :
    (∃ q, ((readyState.modMb 0 (fun m => { m with lastSeq := some 1 })).mbOf 0).lastSeq = some q ∧ (1 + 65536 - q % 65536) % 65536 = 0) ∧
    (∃ q, ((readyState.modMb 0 (fun m => { m with lastSeq := some 32769 })).mbOf 0).lastSeq = some q ∧ (1 + 65536 - q % 65536) % 65536 = 32768) ∧
    (∃ q, ((readyState.modMb 0 (fun m => { m with lastSeq := some 2 })).mbOf 0).lastSeq = some q ∧ (1 + 65536 - q % 65536) % 65536 = 65535) ∧
    (∃ q, ((readyState.modMb 0 (fun m => { m with lastSeq := some 0 })).mbOf 0).lastSeq = some q ∧ (1 + 65536 - q % 65536) % 65536 = 1) ∧
    (∃ q, ((readyState.modMb 0 (fun m => { m with lastSeq := some 32770 })).mbOf 0).lastSeq = some q ∧ (1 + 65536 - q % 65536) % 65536 = 32767) ∧
    (readyState.mbOf 0).lastSeq = none ∧ (cmdWith []).mb < readyState.mbs.length ∧ (cmdWith []).eth = none :=
  ⟨⟨1, by decide, by decide⟩, ⟨32769, by decide, by decide⟩, ⟨2, by decide, by decide⟩, ⟨0, by decide, by decide⟩, ⟨32770, by decide, by decide⟩,
    by decide, by decide, by decide⟩

/-- Sound blocks of a channel in service, and a canonical memory. -/
theorem test_dram_premises :
    Memory.wf readyState.dram = true ∧ ∀ b ∈ blocksOf jobRegionBase 4, readyState.blockLost b = false ∧ readyState.blockSt b = 0 := by decide

/-! ### Single steps -/

/-- The state a step answers. -/
def after (s : State) : State := match step s with | .next u => u | _ => s

/-- A step runs the command in front and leaves the rest waiting. -/
theorem test_step_takes_front :
    (after { State.reset with pending := [.smbLtuneWrite 0 5 0x1234, .nonceExpiry 0] }).ltune = [0x1234, 0x8000] ∧
    (after { State.reset with pending := [.smbLtuneWrite 0 5 0x1234, .nonceExpiry 0] }).pending = [.nonceExpiry 0] := by decide

/-- WIN_BASE keeps bits 63 to 21 (R434): 0x40012345 becomes 0x40000000. -/
theorem test_winBase_low_bits : (after { State.reset with pending := [.winBaseWrite 0 0x40012345] }).pcie.winBase = 0x40000000 := by decide

/-- A doorbell on a mailbox that is not ready is held (R452), and a second one behind it is counted. -/
theorem test_doorbell_held :
    (after { State.reset with pending := [.mbDoorbell 0 3 [] default] }).mbs[3]?.map Mailbox.held = some true ∧
    (after { (after { State.reset with pending := [.mbDoorbell 0 3 [] default] }) with pending := [.mbDoorbell 0 3 [] default] }).mbs[3]?.map
      Mailbox.ignored = some 1 := by decide

/-- EMIT_PERMIT low closes every gate at once (R60). -/
theorem test_emit_closes_gates :
    (after { readyState with gateRun := upd readyState.gateRun 4 (fun g => { g with openSince := some 0, openUntil := 100000 }), pending := [.emitPermitFall 5] }).quiet
      = true := by decide

/-- A stamp's bytes, lowest first (R25). -/
theorem test_stamp_bytes : stampBytes 0x0B0A09080706050403020100#96 = [0, 1, 2, 3, 4, 5, 6, 7, 8, 9, 10, 11] := by decide

/-- A zone word's parity bit makes the number of ones even (R356): 0x0001 has one, so P is one. -/
theorem test_zsp_parity : (zspBits 0x0001).getLast? = some true ∧ (zspBits 0x0001).length = 17 ∧ (zspBits 0x0003).getLast? = some false := by decide

/-- Five error symbols' worth of syndromes of a clean codeword are zero: the check bytes of 64 zero bytes are zero (R394). -/
theorem test_rs_check_of_zeros : rsCheck (zeros 64) = zeros 8 := by decide

/-- A pulse on RESET_N of 999 ns does nothing; one of 10 us resets (R545). -/
theorem test_reset_pin :
    (after { readyState with pending := [.resetNLow 0 999] }).sys.bootState = 4 ∧ (after { readyState with pending := [.resetNLow 0 10000] }).sys.bootState = 0 := by
  decide

end Sys2Proof.Tests
end

/-! PROOFS of position and time: the bytes of a stamp, and what no command touches. -/

namespace Sys2Proof.Machine

/-! ### The bytes of a stamp (R25) -/

theorem length_leBytes (n v : Nat) : (leBytes n v).length = n := by
  induction n generalizing v with
  | zero => rfl
  | succ n ih => simp [leBytes, ih]

theorem leBytes_getElem? {n k : Nat} (v : Nat) (hk : k < n) : (leBytes n v)[k]? = some (BitVec.ofNat 8 (v / 2 ^ (8 * k))) := by
  induction n generalizing v k with
  | zero => omega
  | succ n ih =>
    cases k with
    | zero => simp [leBytes]
    | succ k => rw [leBytes, List.getElem?_cons_succ, ih _ (by omega), Nat.div_div_eq_div_mul, Nat.mul_succ, Nat.pow_add, Nat.mul_comm 256]

/-- Settles O5: byte k of the little-endian layout is the stamp shifted right by 8k, cut to a byte. -/
theorem stampBytesInOrder : Obligations.StampBytesInOrder := by
  intro x
  refine ⟨length_leBytes 12 _, fun k hk => ?_⟩
  rw [stampBytes, nth, leBytes_getElem? _ hk, Option.getD_some, BitVec.extractLsb', Nat.shiftRight_eq_div_pow]

/-! ### The parts of the state that no effect touches

The clock, the build and the waiting commands are written by no operation of the model but the passage of time, so one lemma per operation that
answers a state, `<operation>_fixed`, says that it keeps all three. Each proof goes along the branches of its operation and rests on the lemmas of the
operations called; every command is then such an operation between `State.atInstant` and `State.settle`. -/

/-- The clock, the build of the part and the commands that wait: the model's own choices (logs 1, 3 and 122). -/
def State.fixed (s : State) : Nat × Build × List Instr := (s.now, s.build, s.pending)

theorem State.fixed_iff {s u : State} : u.fixed = s.fixed ↔ u.now = s.now ∧ u.build = s.build ∧ u.pending = s.pending := by
  simp only [State.fixed, Prod.mk.injEq]

-- stated by `by rfl`, not `rfl`: as definitional rewrites they would leave `simp` without a proof for the hypothesis of `foldl_fixed`
@[simp] theorem State.fixed_eta (s : State) : (s.now, s.build, s.pending) = s.fixed := by rfl
@[simp] theorem State.fixed_mk (pending build now out free sys cfg mbs pend ev log warn flagHist tb tiu trail grid gateRun probeRun emit lines
    ctxs streams ports vectors pcie sec dbg pwr health dram ltune quads cal ref2 felt slow tiles mem trig therm zones panel bale memMask capMibNow) :
    (State.mk pending build now out free sys cfg mbs pend ev log warn flagHist tb tiu trail grid gateRun probeRun emit lines ctxs streams ports
      vectors pcie sec dbg pwr health dram ltune quads cal ref2 felt slow tiles mem trig therm zones panel bale memMask capMibNow).fixed =
      (now, build, pending) := by rfl

theorem State.blank_now (b : Build) (t : Nat) : (State.blank b t).now = t := by rfl

theorem State.blank_build (b : Build) (t : Nat) : (State.blank b t).build = b := by rfl

@[simp] theorem State.fixed_ite (c : Prop) [Decidable c] (s u : State) : (if c then s else u).fixed = if c then s.fixed else u.fixed :=
  apply_ite State.fixed c s u

@[simp] theorem State.fixed_snd_ite {α : Type} (c : Prop) [Decidable c] (p q : α × State) :
    (if c then p else q).2.fixed = if c then p.2.fixed else q.2.fixed :=
  apply_ite (fun p => State.fixed p.2) c p q

@[simp] theorem State.fixed_fst_ite {α : Type} (c : Prop) [Decidable c] (p q : State × α) :
    (if c then p else q).1.fixed = if c then p.1.fixed else q.1.fixed :=
  apply_ite (fun p => State.fixed p.1) c p q

/-- A fold keeps the fixed parts of the state in its accumulator when every step does. -/
theorem foldl_fixed_of {α β : Type} (g : β → State) (f : β → α → β) (h : ∀ b a, (g (f b a)).fixed = (g b).fixed)
    (l : List α) (b : β) : (g (l.foldl f b)).fixed = (g b).fixed := by
  induction l generalizing b with
  | nil => rfl
  | cons a l ih => rw [List.foldl_cons, ih, h]

@[simp] theorem foldl_fixed {α : Type} (f : State → α → State) (h : ∀ s a, (f s a).fixed = s.fixed) (l : List α) (s : State) :
    (l.foldl f s).fixed = s.fixed :=
  foldl_fixed_of id f h l s

/-! ### Shared operations -/

@[simp] theorem State.modSys_fixed (s : State) (f : Sys → Sys) : (s.modSys f).fixed = s.fixed := by rfl
@[simp] theorem State.modCfg_fixed (s : State) (f : Retained → Retained) : (s.modCfg f).fixed = s.fixed := by rfl
@[simp] theorem State.modTb_fixed (s : State) (f : TimeBase → TimeBase) : (s.modTb f).fixed = s.fixed := by rfl
@[simp] theorem State.modTiu_fixed (s : State) (f : TiuState → TiuState) : (s.modTiu f).fixed = s.fixed := by rfl
@[simp] theorem State.modTrail_fixed (s : State) (f : Trail → Trail) : (s.modTrail f).fixed = s.fixed := by rfl
@[simp] theorem State.modSec_fixed (s : State) (f : Security → Security) : (s.modSec f).fixed = s.fixed := by rfl
@[simp] theorem State.modHealth_fixed (s : State) (f : Health → Health) : (s.modHealth f).fixed = s.fixed := by rfl
@[simp] theorem State.modGrid_fixed (s : State) (l : Nat) (f : LineGrid → LineGrid) : (s.modGrid l f).fixed = s.fixed := by rfl
@[simp] theorem State.modLine_fixed (s : State) (l : Nat) (f : LineRun → LineRun) : (s.modLine l f).fixed = s.fixed := by rfl
@[simp] theorem State.modCtx_fixed (s : State) (c : Nat) (f : Ctx → Ctx) : (s.modCtx c f).fixed = s.fixed := by rfl
@[simp] theorem State.modMb_fixed (s : State) (n : Nat) (f : Mailbox → Mailbox) : (s.modMb n f).fixed = s.fixed := by rfl
@[simp] theorem State.modPort_fixed (s : State) (n : Nat) (f : PortRun → PortRun) : (s.modPort n f).fixed = s.fixed := by rfl
@[simp] theorem State.modVector_fixed (s : State) (n : Nat) (f : Vector → Vector) : (s.modVector n f).fixed = s.fixed := by rfl
@[simp] theorem State.emit1_fixed (s : State) (o : Out) : (s.emit1 o).fixed = s.fixed := by rfl
@[simp] theorem State.logRecord_fixed (s : State) (record : List Byte) : (s.logRecord record).fixed = s.fixed := by simp [State.logRecord]
@[simp] theorem State.enterEvent_fixed (s : State) (p2 : Bool) (r : EvRec) : (s.enterEvent p2 r).fixed = s.fixed := by simp [State.enterEvent]

@[simp] theorem State.raise_fixed (s : State) (code sev src : Nat) (stamp : BitVec 96) (inst : Nat) (args : List Byte) (key : Option (List Nat)) :
    (s.raise code sev src stamp inst args key).fixed = s.fixed := by
  simp [State.raise]

@[simp] theorem State.raiseNow_fixed (s : State) (code sev src : Nat) (args : List Byte) (key : Option (List Nat)) :
    (s.raiseNow code sev src args key).fixed = s.fixed := by
  simp [State.raiseNow]

@[simp] theorem State.raiseLine_fixed (s : State) (code sev l x : Nat) (args : List Byte) (key : Option (List Nat)) :
    (s.raiseLine code sev l x args key).fixed = s.fixed := by
  simp [State.raiseLine]

@[simp] theorem State.reportLost_fixed (s : State) : s.reportLost.fixed = s.fixed := by simp [State.reportLost]
@[simp] theorem State.reportDropped_fixed (s : State) : s.reportDropped.fixed = s.fixed := by simp [State.reportDropped]

@[simp] theorem State.applied_fixed (s : State) (p : Pend) (src : Nat) (stamp : BitVec 96) (inst status : Nat) :
    (s.applied p src stamp inst status).fixed = s.fixed := by
  simp [State.applied]

@[simp] theorem State.strike_fixed (s : State) (op unit : Nat) : (s.strike op unit).fixed = s.fixed := by rfl

@[simp] theorem State.strikeLast_fixed (s : State) (p : Pend) (unit : Nat) (stamp : BitVec 96) (inst : Nat) :
    (s.strikeLast p unit stamp inst).fixed = s.fixed := by
  simp [State.strikeLast]

@[simp] theorem State.dropOp_fixed (s : State) (op : Nat) : (s.dropOp op).fixed = s.fixed := by rfl
@[simp] theorem State.deliver_fixed (s : State) (sel : StreamDef → Bool) (i : Item) : (s.deliver sel i).fixed = s.fixed := by rfl

@[simp] theorem State.abortItems_fixed (s : State) (sel : StreamDef → Bool) (cause count line : Nat) (first last : BitVec 96) :
    (s.abortItems sel cause count line first last).fixed = s.fixed := by
  simp [State.abortItems]

@[simp] theorem State.streamLose_fixed (s : State) (k : Nat) (gone : Item → Bool) (count : Option Nat) :
    (s.streamLose k gone count).fixed = s.fixed := by
  unfold State.streamLose; dsimp only; (repeat' split) <;> simp

@[simp] theorem State.cause_fixed (s : State) (v : Nat) : (s.cause v).fixed = s.fixed := by rfl
@[simp] theorem State.settleEmission_fixed (s : State) : s.settleEmission.fixed = s.fixed := by rfl
@[simp] theorem State.settleFlags_fixed (s : State) : s.settleFlags.fixed = s.fixed := by unfold State.settleFlags; split <;> simp
@[simp] theorem State.settleZones_fixed (s : State) : s.settleZones.fixed = s.fixed := by simp [State.settleZones]
@[simp] theorem State.settlePins_fixed (s : State) : s.settlePins.fixed = s.fixed := by rfl
@[simp] theorem State.settleAlert_fixed (s : State) : s.settleAlert.fixed = s.fixed := by rfl
@[simp] theorem State.settle_fixed (s : State) : s.settle.fixed = s.fixed := by simp [State.settle]

/-! ### Units of the hamper -/

@[simp] theorem State.detect_fixed (s : State) (k i : Nat) : (s.detect k i).fixed = s.fixed := by rfl
@[simp] theorem State.beginTest_fixed (s : State) (k i : Nat) : (s.beginTest k i).fixed = s.fixed := by rfl
@[simp] theorem State.testIfDue_fixed (s : State) (k i : Nat) : (s.testIfDue k i).fixed = s.fixed := by simp [State.testIfDue]
@[simp] theorem State.spareTakes_fixed (s : State) (k i j : Nat) : (s.spareTakes k i j).fixed = s.fixed := by simp [State.spareTakes]
@[simp] theorem State.reportNoSpare_fixed (s : State) (k i cause : Nat) : (s.reportNoSpare k i cause).fixed = s.fixed := by simp [State.reportNoSpare]
@[simp] theorem State.reportTest_fixed (s : State) (k i outcome : Nat) : (s.reportTest k i outcome).fixed = s.fixed := by simp [State.reportTest]
@[simp] theorem State.tiuEvent_fixed (s : State) (src arg x : Nat) : (s.tiuEvent src arg x).fixed = s.fixed := by rfl

/-! ### The command protocol -/

@[simp] theorem reject_fixed (s : State) (st : Nat) : (reject s st).2.fixed = s.fixed := by rfl
@[simp] theorem okWith_fixed (s : State) (body : List Byte) : (okWith s body).2.fixed = s.fixed := by rfl
@[simp] theorem okay_fixed (s : State) : (okay s).2.fixed = s.fixed := by rfl

@[simp] theorem pendWith_fixed (s : State) (c : Cmd) (op : Nat) (units : List Nat) (due : Option Nat) :
    (pendWith s c op units due).2.fixed = s.fixed := by
  rfl

@[simp] theorem State.authFailed_fixed (s : State) (op reason : Nat) : (s.authFailed op reason).fixed = s.fixed := by simp [State.authFailed]

@[simp] theorem State.presentNonce_fixed (s : State) (op : Nat) (c : Cmd) : (s.presentNonce op c).fixed = s.fixed := by
  unfold State.presentNonce; split <;> simp

@[simp] theorem judge_fixed (op : Nat) (h : Handler) (c : Cmd) (s : State) (hh : ∀ c s, (h c s).2.fixed = s.fixed) :
    (judge op h c s).2.fixed = s.fixed := by
  unfold judge; split <;> simp [hh]

@[simp] theorem State.sendFrame_fixed (s : State) (port sess : Nat) (data : List Byte) : (s.sendFrame port sess data).fixed = s.fixed := by rfl

@[simp] theorem State.respond_fixed (s : State) (c : Cmd) (bytes : List Byte) : (s.respond c bytes).fixed = s.fixed := by
  unfold State.respond; split <;> simp

@[simp] theorem State.answer_fixed (s : State) (c : Cmd) (r : Resp) (eff : BitVec 96) : (s.answer c r eff).fixed = s.fixed := by simp [State.answer]

@[simp] theorem State.serve_fixed (s : State) (op : Nat) (h : Handler) (c : Cmd) (hh : ∀ c s, (h c s).2.fixed = s.fixed) :
    (s.serve op h c).fixed = s.fixed := by
  simp [State.serve, hh]

@[simp] theorem State.hostCommand_fixed (s : State) (op : Nat) (h : Handler) (c : Cmd) (hh : ∀ c s, (h c s).2.fixed = s.fixed) :
    (s.hostCommand op h c).fixed = s.fixed := by
  unfold State.hostCommand; dsimp only; split <;> simp [hh]

/-! ### Plans -/

@[simp] theorem planDefine_fixed (c : Cmd) (s : State) : (planDefine c s).2.fixed = s.fixed := by unfold planDefine; split <;> simp
@[simp] theorem planApply_fixed (c : Cmd) (s : State) : (planApply c s).2.fixed = s.fixed := by unfold planApply; dsimp only; (repeat' split) <;> simp

@[simp] theorem planTimeline_fixed (c : Cmd) (s : State) : (planTimeline c s).2.fixed = s.fixed := by
  unfold planTimeline; dsimp only; (repeat' split) <;> simp

@[simp] theorem State.clearSat_fixed (s : State) (op sel : Nat) : (s.clearSat op sel).fixed = s.fixed := by rfl
@[simp] theorem planStatus_fixed (c : Cmd) (s : State) : (planStatus c s).2.fixed = s.fixed := by simp [planStatus]

/-! ### Probes, gate bounds and spot shots -/

@[simp] theorem probeConfig_fixed (c : Cmd) (s : State) : (probeConfig c s).2.fixed = s.fixed := by simp [probeConfig]

@[simp] theorem State.idleCodeChange_fixed (s : State) (b : Nat) : (s.idleCodeChange b).fixed = s.fixed := by
  unfold State.idleCodeChange; split <;> simp

@[simp] theorem probeLoad_fixed (c : Cmd) (s : State) : (probeLoad c s).2.fixed = s.fixed := by simp [probeLoad]
@[simp] theorem planGateLimit_fixed (c : Cmd) (s : State) : (planGateLimit c s).2.fixed = s.fixed := by simp [planGateLimit]

@[simp] theorem State.gateLimitEffect_fixed (s : State) (g : Nat) : (s.gateLimitEffect g).fixed = s.fixed := by
  unfold State.gateLimitEffect; split <;> simp

@[simp] theorem planSpot_fixed (c : Cmd) (s : State) : (planSpot c s).2.fixed = s.fixed := by unfold planSpot; dsimp only; (repeat' split) <;> simp

/-! ### Coherent receivers -/

@[simp] theorem State.modQuad_fixed (s : State) (q : Nat) (f : QuadRun → QuadRun) : (s.modQuad q f).fixed = s.fixed := by rfl
@[simp] theorem State.wake1_fixed (s : State) (q ready : Nat) : (s.wake1 q ready).fixed = s.fixed := by unfold State.wake1; split <;> simp
@[simp] theorem State.wakeQuad_fixed (s : State) (q ready : Nat) : (s.wakeQuad q ready).fixed = s.fixed := by simp [State.wakeQuad]
@[simp] theorem State.wakeFor_fixed (s : State) (l firstCell : Nat) : (s.wakeFor l firstCell).fixed = s.fixed := by simp [State.wakeFor]

@[simp] theorem State.quadWake_fixed (s : State) (q : Nat) : (s.quadWake q).fixed = s.fixed := by
  unfold State.quadWake; dsimp only; (repeat' split) <;> simp

@[simp] theorem State.sleepQuad_fixed (s : State) (q x : Nat) : (s.sleepQuad q x).fixed = s.fixed := by rfl
@[simp] theorem State.quadPowerDown_fixed (s : State) (q : Nat) : (s.quadPowerDown q).fixed = s.fixed := by simp [State.quadPowerDown]
@[simp] theorem State.setConvs_fixed (s : State) (q x : Nat) (f : List Conv → List Conv) : (s.setConvs q x f).fixed = s.fixed := by rfl
@[simp] theorem State.countClip_fixed (s : State) (q i x : Nat) : (s.countClip q i x).fixed = s.fixed := by simp [State.countClip]

@[simp] theorem State.keepWord_fixed (s : State) (q role x : Nat) (vNv : Int) (w : BitVec 16) : (s.keepWord q role x vNv w).fixed = s.fixed := by
  unfold State.keepWord; split <;> simp

@[simp] theorem State.closeSheet_fixed (s : State) (l : Nat) (e : Launch) (late : Nat) : (s.closeSheet l e late).fixed = s.fixed := by
  simp [State.closeSheet]

@[simp] theorem State.closeThermal_fixed (s : State) (q x : Nat) : (s.closeThermal q x).fixed = s.fixed := by simp [State.closeThermal]

@[simp] theorem State.leadFault_fixed (s : State) (q i start mv : Nat) (high : Bool) : (s.leadFault q i start mv high).fixed = s.fixed := by
  simp [State.leadFault]

@[simp] theorem State.leadClear_fixed (s : State) (q i stop first : Nat) : (s.leadClear q i stop first).fixed = s.fixed := by simp [State.leadClear]

@[simp] theorem State.judgeBlock_fixed (s : State) (q start i mv : Nat) : (s.judgeBlock q start i mv).fixed = s.fixed := by
  unfold State.judgeBlock; dsimp only; (repeat' split) <;> simp

@[simp] theorem State.monitorBlock_fixed (s : State) (q : Nat) (means : List Nat) : (s.monitorBlock q means).fixed = s.fixed := by
  simp [State.monitorBlock]

@[simp] theorem rxConfig_fixed (c : Cmd) (s : State) : (rxConfig c s).2.fixed = s.fixed := by simp [rxConfig]
@[simp] theorem State.gainSwitch_fixed (s : State) (q x gain : Nat) : (s.gainSwitch q x gain).fixed = s.fixed := by simp [State.gainSwitch]

@[simp] theorem State.rxConfigEffect_fixed (s : State) (q : Nat) : (s.rxConfigEffect q).fixed = s.fixed := by
  unfold State.rxConfigEffect; split <;> simp

@[simp] theorem rxRefConfig_fixed (c : Cmd) (s : State) : (rxRefConfig c s).2.fixed = s.fixed := by simp [rxRefConfig]
@[simp] theorem rxHold_fixed (c : Cmd) (s : State) : (rxHold c s).2.fixed = s.fixed := by simp [rxHold]
@[simp] theorem rxStatus_fixed (c : Cmd) (s : State) : (rxStatus c s).2.fixed = s.fixed := by simp [rxStatus]

/-! ### The calender -/

@[simp] theorem State.setConv_fixed (s : State) (q j g : Nat) (v : ConvSet) : (s.setConv q j g v).fixed = s.fixed := by rfl
@[simp] theorem State.setPair_fixed (s : State) (q p g : Nat) (v : PairSet) : (s.setPair q p g v).fixed = s.fixed := by rfl

@[simp] theorem State.gatherWord_fixed (s : State) (q role x : Nat) (w : BitVec 16) : (s.gatherWord q role x w).fixed = s.fixed := by
  unfold State.gatherWord; split <;> simp

@[simp] theorem State.dropBlocks_fixed (s : State) (q x : Nat) : (s.dropBlocks q x).fixed = s.fixed := by rfl
@[simp] theorem State.takeBlock_fixed (s : State) (q j : Nat) (b : List GathCell) : (s.takeBlock q j b).fixed = s.fixed := by rfl

@[simp] theorem State.calPrecondition_fixed (s : State) (q i j : Nat) (e : Nat × Int) : (s.calPrecondition q i j e).fixed = s.fixed := by
  simp [State.calPrecondition]

@[simp] theorem State.centreSkews_fixed (s : State) (q j g : Nat) : (s.centreSkews q j g).fixed = s.fixed := by simp [State.centreSkews]
@[simp] theorem State.moveSpare_fixed (s : State) (q j i phase : Nat) : (s.moveSpare q j i phase).fixed = s.fixed := by rfl
@[simp] theorem State.parkSpare_fixed (s : State) (q j next : Nat) : (s.parkSpare q j next).fixed = s.fixed := by rfl
@[simp] theorem State.nextStep_fixed (s : State) (q j next : Nat) : (s.nextStep q j next).fixed = s.fixed := by simp [State.nextStep]

@[simp] theorem State.startEmergency_fixed (s : State) (q : Nat) : (s.startEmergency q).fixed = s.fixed := by
  unfold State.startEmergency; (repeat' split) <;> simp

@[simp] theorem State.converterWithdraw_fixed (s : State) (q j : Nat) : (s.converterWithdraw q j).fixed = s.fixed := by simp [State.converterWithdraw]
@[simp] theorem State.converterError_fixed (s : State) (q j : Nat) : (s.converterError q j).fixed = s.fixed := by simp [State.converterError]
@[simp] theorem State.rejectStep_fixed (s : State) (q i j g : Nat) : (s.rejectStep q i j g).fixed = s.fixed := by simp [State.rejectStep]

@[simp] theorem State.convergeBlock_fixed (s : State) (q i j g : Nat) (pass : Bool) : (s.convergeBlock q i j g pass).fixed = s.fixed := by
  simp [State.convergeBlock]

@[simp] theorem State.deepBlock_fixed (s : State) (q i j : Nat) : (s.deepBlock q i j).fixed = s.fixed := by simp [State.deepBlock]

@[simp] theorem State.publish_fixed (s : State) (q i j g : Nat) (serving : Bool) (blk : List GathCell) (m : CalMeas) (b : CalBlock) :
    (s.publish q i j g serving blk m b).fixed = s.fixed := by
  simp [State.publish]

@[simp] theorem State.updateSets_fixed (s : State) (q i j g : Nat) (serving : Bool) (b : CalBlock) :
    (s.updateSets q i j g serving b).fixed = s.fixed := by
  simp [State.updateSets]

@[simp] theorem State.acceptBlock_fixed (s : State) (q i j : Nat) (serving : Bool) (blk : List GathCell) (m : CalMeas) (b : CalBlock) :
    (s.acceptBlock q i j serving blk m b).fixed = s.fixed := by
  simp [State.acceptBlock]

@[simp] theorem State.calBlock_fixed (s : State) (q j : Nat) (b : CalBlock) : (s.calBlock q j b).fixed = s.fixed := by
  unfold State.calBlock; dsimp only; (repeat' split) <;> simp

@[simp] theorem State.handover_fixed (s : State) (q : Nat) : (s.handover q).fixed = s.fixed := by
  unfold State.handover; dsimp only; (repeat' split) <;> simp

@[simp] theorem State.overlapEnd_fixed (s : State) (q : Nat) : (s.overlapEnd q).fixed = s.fixed := by
  unfold State.overlapEnd; dsimp only; (repeat' split) <;> simp

@[simp] theorem State.moveReady_fixed (s : State) (q : Nat) : (s.moveReady q).fixed = s.fixed := by unfold State.moveReady; dsimp only; split <;> simp
@[simp] theorem State.calStale_fixed (s : State) (q i : Nat) : (s.calStale q i).fixed = s.fixed := by simp [State.calStale]
@[simp] theorem State.enterInPlace_fixed (s : State) (q : Nat) : (s.enterInPlace q).fixed = s.fixed := by simp [State.enterInPlace]
@[simp] theorem State.assignInOrder_fixed (s : State) (q : Nat) : (s.assignInOrder q).fixed = s.fixed := by rfl

@[simp] theorem State.retireConverter_fixed (s : State) (u cause : Nat) : (s.retireConverter u cause).fixed = s.fixed := by
  unfold State.retireConverter; dsimp only; (repeat' split) <;> simp

@[simp] theorem State.returnConverter_fixed (s : State) (u : Nat) : (s.returnConverter u).fixed = s.fixed := by
  unfold State.returnConverter; dsimp only; split <;> simp

@[simp] theorem State.bootQuad_fixed (s : State) (q : Nat) : (s.bootQuad q).fixed = s.fixed := by simp [State.bootQuad]

@[simp] theorem State.heedRotate_fixed (s : State) (q : Nat) : (s.heedRotate q).fixed = s.fixed := by
  unfold State.heedRotate; dsimp only; split <;> simp

@[simp] theorem calConfig_fixed (c : Cmd) (s : State) : (calConfig c s).2.fixed = s.fixed := by simp [calConfig]
@[simp] theorem calStatus_fixed (c : Cmd) (s : State) : (calStatus c s).2.fixed = s.fixed := by simp [calStatus]
@[simp] theorem calRead_fixed (c : Cmd) (s : State) : (calRead c s).2.fixed = s.fixed := by simp [calRead]

/-! ### The stages of a sheet -/

@[simp] theorem State.refCell_fixed (s : State) (x : Nat) (p serving : Nat × Nat) : (s.refCell x p serving).fixed = s.fixed := by simp [State.refCell]
@[simp] theorem State.refStep_fixed (s : State) (x : Nat) : (s.refStep x).fixed = s.fixed := by simp [State.refStep]

/-! ### Addresses in DRAM -/

@[simp] theorem State.modFelt_fixed (s : State) (l : Nat) (f : FeltRing → FeltRing) : (s.modFelt l f).fixed = s.fixed := by rfl
@[simp] theorem State.modSlow_fixed (s : State) (l : Nat) (f : SlowRun → SlowRun) : (s.modSlow l f).fixed = s.fixed := by rfl
@[simp] theorem State.modMem_fixed (s : State) (f : MemRun → MemRun) : (s.modMem f).fixed = s.fixed := by rfl
@[simp] theorem State.setBlock_fixed (s : State) (b v : Nat) : (s.setBlock b v).fixed = s.fixed := by rfl
@[simp] theorem State.wakeChannel_fixed (s : State) (c : Nat) : (s.wakeChannel c).fixed = s.fixed := by rfl

@[simp] theorem State.touchDram_fixed (s : State) (a n : Nat) : (s.touchDram a n).fixed = s.fixed :=
  foldl_fixed _ (fun s c => s.wakeChannel_fixed c) _ _

@[simp] theorem State.lostWrite_fixed (s : State) (bs : List Nat) : (s.lostWrite bs).fixed = s.fixed := by simp [State.lostWrite]
@[simp] theorem State.overwriteBlocks_fixed (s : State) (lo hi : Nat) : (s.overwriteBlocks lo hi).fixed = s.fixed := by rfl
@[simp] theorem State.decodeFresh_fixed (s : State) (l : Nat) (e : Launch) : (s.decodeFresh l e).fixed = s.fixed := by simp [State.decodeFresh]

/-! ### Line engines -/

@[simp] theorem State.sheetEvent_fixed (s : State) (l : Nat) (e : Launch) (code sev : Nat) (args : List Byte) (join : Bool) :
    (s.sheetEvent l e code sev args join).fixed = s.fixed := by
  simp [State.sheetEvent]

@[simp] theorem State.frontEvents_fixed (s : State) (l : Nat) (e : Launch) (fr : Front) (sat4 sat5 : Nat) :
    (s.frontEvents l e fr sat4 sat5).fixed = s.fixed := by
  simp [State.frontEvents]

@[simp] theorem State.trackEnd_fixed (s : State) (l : Nat) (e : Launch) (powers : List Nat) : (s.trackEnd l e powers).1.fixed = s.fixed := by
  unfold State.trackEnd; dsimp only; split <;> simp

@[simp] theorem State.produce_fixed (s : State) (l : Nat) (e : Launch) (words : List (Int × Nat)) (inv clip : List Bool) (powers : List Nat)
    (dark failed gainStep spared : Bool) (weak : Nat) (bad : List (Nat × Nat)) :
    (s.produce l e words inv clip powers dark failed gainStep spared weak bad).1.fixed = s.fixed := by
  unfold State.produce; dsimp only; split <;> simp

@[simp] theorem State.finishSheet_fixed (s : State) (l : Nat) (e : Launch) (bad : List (Nat × Nat)) : (s.finishSheet l e bad).1.fixed = s.fixed := by
  unfold State.finishSheet; dsimp only; (repeat' split) <;> simp

@[simp] theorem State.dropLaunch_fixed (s : State) (l tick : Nat) : (s.dropLaunch l tick).fixed = s.fixed := by rfl

@[simp] theorem lineStart_fixed (c : Cmd) (s : State) : (lineStart c s).2.fixed = s.fixed := by
  unfold lineStart
  dsimp only
  iterate 5 (split; · rfl)
  refine (pendWith_fixed _ _ _ _ _).trans (foldl_fixed _ (fun s l => ?_) _ _)
  split <;> simp

@[simp] theorem lineStop_fixed (c : Cmd) (s : State) : (lineStop c s).2.fixed = s.fixed := by simp [lineStop]

@[simp] theorem State.beginLine_fixed (s : State) (l x : Nat) : (s.beginLine l x).fixed = s.fixed := by
  unfold State.beginLine; dsimp only; split <;> simp

@[simp] theorem State.lineStarted_fixed (s : State) (l : Nat) : (s.lineStarted l).fixed = s.fixed := by
  unfold State.lineStarted; (repeat' split) <;> simp

@[simp] theorem State.dropSheets_fixed (s : State) (l : Nat) : (s.dropSheets l).fixed = s.fixed := by simp [State.dropSheets]
@[simp] theorem State.stopBoundary_fixed (s : State) (l : Nat) : (s.stopBoundary l).fixed = s.fixed := by unfold State.stopBoundary; split <;> simp
@[simp] theorem State.endLine_fixed (s : State) (l : Nat) : (s.endLine l).fixed = s.fixed := by unfold State.endLine; split <;> simp

@[simp] theorem State.lineSpared_fixed (s : State) (l : Nat) (unreliable : Bool) : (s.lineSpared l unreliable).fixed = s.fixed := by
  simp [State.lineSpared]

@[simp] theorem State.lineUnspared_fixed (s : State) (l : Nat) : (s.lineUnspared l).fixed = s.fixed := by simp [State.lineUnspared]
@[simp] theorem lineConfig_fixed (c : Cmd) (s : State) : (lineConfig c s).2.fixed = s.fixed := by simp [lineConfig]

@[simp] theorem State.lineCfgEffect_fixed (s : State) (l : Nat) : (s.lineCfgEffect l).1.fixed = s.fixed := by
  unfold State.lineCfgEffect; split <;> simp

@[simp] theorem lineStatus_fixed (c : Cmd) (s : State) : (lineStatus c s).2.fixed = s.fixed := by simp [lineStatus]

@[simp] theorem lineReadState_fixed (c : Cmd) (s : State) : (lineReadState c s).2.fixed = s.fixed := by
  unfold lineReadState; dsimp only; (repeat' split) <;> simp

/-! ### The felt -/

@[simp] theorem State.clipReader_fixed (s : State) (l r oldest cause skipped : Nat) :
    (s.clipReader l r oldest cause skipped).fixed = s.fixed := by
  refine (foldl_fixed _ (fun s k => ?_) _ _).trans (by simp)
  split <;> simp

@[simp] theorem State.overtake_fixed (s : State) (l oldest cause : Nat) : (s.overtake l oldest cause).fixed = s.fixed := by
  refine (State.modFelt_fixed _ _ _).trans (foldl_fixed _ (fun s r => ?_) _ _)
  split <;> simp

@[simp] theorem State.dropJobs_fixed (s : State) (f : JobKind → Bool) : (s.dropJobs f).fixed = s.fixed := by rfl
@[simp] theorem State.loseQuire_fixed (s : State) (l q : Nat) : (s.loseQuire l q).fixed = s.fixed := by unfold State.loseQuire; split <;> simp

@[simp] theorem State.formatRing_fixed (s : State) (l points decode : Nat) : (s.formatRing l points decode).fixed = s.fixed := by
  refine (State.modFelt_fixed _ _ _).trans ((foldl_fixed _ (fun s r => ?_) _ _).trans (by simp))
  split <;> simp

@[simp] theorem State.feltStart_fixed (s : State) (l : Nat) : (s.feltStart l).fixed = s.fixed := by unfold State.feltStart; split <;> simp
@[simp] theorem State.beginQuire_fixed (s : State) (l : Nat) : (s.beginQuire l).fixed = s.fixed := by simp [State.beginQuire]

@[simp] theorem State.feltWrite_fixed (s : State) (l tick : Nat) (record : List Byte) (samples : List (BitVec 32)) (restart : Bool) :
    (s.feltWrite l tick record samples restart).fixed = s.fixed := by
  simp [State.feltWrite]

@[simp] theorem State.resizeLine_fixed (s : State) (l : Nat) (p : List Byte) : (s.resizeLine l p).fixed = s.fixed := by
  unfold State.resizeLine; dsimp only; (repeat' split) <;> simp

@[simp] theorem feltResize_fixed (c : Cmd) (s : State) : (feltResize c s).2.fixed = s.fixed := by
  unfold feltResize; dsimp only; (repeat' split) <;> simp

@[simp] theorem State.feltResizeEffect_fixed (s : State) (l : Nat) : (s.feltResizeEffect l).fixed = s.fixed := by
  unfold State.feltResizeEffect; split <;> simp

@[simp] theorem feltReader_fixed (c : Cmd) (s : State) : (feltReader c s).2.fixed = s.fixed := by
  unfold feltReader; dsimp only; (repeat' split) <;> simp

@[simp] theorem feltStatus_fixed (c : Cmd) (s : State) : (feltStatus c s).2.fixed = s.fixed := by simp [feltStatus]

/-! ### The DRAM subsystem -/

@[simp] theorem State.rowDue_fixed (s : State) (r : RowAt) : (s.rowDue r).fixed = s.fixed := by simp [State.rowDue]
@[simp] theorem State.badRead_fixed (s : State) (port b : Nat) : (s.badRead port b).fixed = s.fixed := by simp [State.badRead]
@[simp] theorem State.readBy_fixed (s : State) (port a n : Nat) : (s.readBy port a n).1.fixed = s.fixed := by simp [State.readBy]
@[simp] theorem State.readRange_fixed (s : State) (port lo hi : Nat) : (s.readRange port lo hi).fixed = s.fixed := by simp [State.readRange]

@[simp] theorem State.writeInBlock_fixed (s : State) (port a : Nat) (data : List Byte) : (s.writeInBlock port a data).fixed = s.fixed := by
  simp [State.writeInBlock]

@[simp] theorem State.dramWriteGo_fixed (s : State) (port n a : Nat) (data : List Byte) :
    (s.dramWriteGo port n a data).fixed = s.fixed := by
  induction n generalizing s a data with
  | zero => rfl
  | succ n ih => unfold State.dramWriteGo; split <;> simp [ih]

@[simp] theorem State.writeBy_fixed (s : State) (port a : Nat) (data : List Byte) : (s.writeBy port a data).fixed = s.fixed := by simp [State.writeBy]
@[simp] theorem State.dramWrite_fixed (s : State) (a : Nat) (data : List Byte) : (s.dramWrite a data).fixed = s.fixed := by simp [State.dramWrite]
@[simp] theorem State.poisonBlock_fixed (s : State) (b : Nat) : (s.poisonBlock b).fixed = s.fixed := by simp [State.poisonBlock]
@[simp] theorem State.rowRemap_fixed (s : State) (r : RowAt) : (s.rowRemap r).fixed = s.fixed := by unfold State.rowRemap; (repeat' split) <;> simp

@[simp] theorem State.rowTestDone_fixed (s : State) (c spare : Nat) (pass : Bool) : (s.rowTestDone c spare pass).fixed = s.fixed := by
  unfold State.rowTestDone; split <;> simp

@[simp] theorem State.decodeBlock_fixed (s : State) (port a : Nat) (errors : List (Nat × Byte)) :
    (s.decodeBlock port a errors).1.fixed = s.fixed := by
  unfold State.decodeBlock; split <;> simp

@[simp] theorem State.readDecode_fixed (s : State) (port a : Nat) (errors : List (Nat × Byte)) : (s.readDecode port a errors).fixed = s.fixed := by
  simp [State.readDecode]

@[simp] theorem State.scrub_fixed (s : State) (c : Nat) (errors : List (Nat × Byte)) : (s.scrub c errors).fixed = s.fixed := by simp [State.scrub]
@[simp] theorem State.refresh_fixed (s : State) (c bank rate : Nat) : (s.refresh c bank rate).fixed = s.fixed := by simp [State.refresh]
@[simp] theorem State.channelLost_fixed (s : State) (c cause : Nat) : (s.channelLost c cause).fixed = s.fixed := by simp [State.channelLost]

@[simp] theorem State.driftCheck_fixed (s : State) (c drift : Nat) (ok : Bool) : (s.driftCheck c drift ok).fixed = s.fixed := by
  simp [State.driftCheck]

@[simp] theorem State.retrained_fixed (s : State) (c us : Nat) (pass : Bool) : (s.retrained c us pass).fixed = s.fixed := by
  unfold State.retrained; split <;> simp

@[simp] theorem State.srEntry_fixed (s : State) (c : Nat) : (s.srEntry c).fixed = s.fixed := by unfold State.srEntry; split <;> simp
@[simp] theorem State.srExit_fixed (s : State) (c : Nat) : (s.srExit c).fixed = s.fixed := by simp [State.srExit]
@[simp] theorem State.requestLate_fixed (s : State) (port c ns : Nat) : (s.requestLate port c ns).fixed = s.fixed := by simp [State.requestLate]
@[simp] theorem memConfig_fixed (c : Cmd) (s : State) : (memConfig c s).2.fixed = s.fixed := by simp [memConfig]
@[simp] theorem memStatus_fixed (c : Cmd) (s : State) : (memStatus c s).2.fixed = s.fixed := by simp [memStatus]
@[simp] theorem memRemaps_fixed (c : Cmd) (s : State) : (memRemaps c s).2.fixed = s.fixed := by simp [memRemaps]

/-! ### Slow-time processing -/

@[simp] theorem State.addJobs_fixed (s : State) (l : List JobKind) : (s.addJobs l).fixed = s.fixed := by rfl
@[simp] theorem State.quireReady_fixed (s : State) (l q : Nat) : (s.quireReady l q).fixed = s.fixed := by simp [State.quireReady]
@[simp] theorem State.quireComplete_fixed (s : State) (l : Nat) : (s.quireComplete l).fixed = s.fixed := by simp [State.quireComplete]

@[simp] theorem State.slowSaturated_fixed (s : State) (l : Nat) (stages : List Nat) : (s.slowSaturated l stages).fixed = s.fixed := by
  simp [State.slowSaturated]

@[simp] theorem State.releaseQuire_fixed (s : State) (l : Nat) : (s.releaseQuire l).fixed = s.fixed := by unfold State.releaseQuire; split <;> simp
@[simp] theorem State.slowOverrun_fixed (s : State) (l : Nat) : (s.slowOverrun l).fixed = s.fixed := by unfold State.slowOverrun; split <;> simp
@[simp] theorem State.discardQuires_fixed (s : State) (l : Nat) : (s.discardQuires l).1.fixed = s.fixed := by simp [State.discardQuires]

@[simp] theorem State.slowLineStopped_fixed (s : State) (l : Nat) (immediate : Bool) : (s.slowLineStopped l immediate).fixed = s.fixed := by
  simp [State.slowLineStopped]

@[simp] theorem State.slowStopped_fixed (s : State) (l : Nat) : (s.slowStopped l).fixed = s.fixed := by
  unfold State.slowStopped; (repeat' split) <;> simp

@[simp] theorem slowConfigWith_fixed (inUse : State → Nat → Nat → Bool) (c : Cmd) (s : State) : (slowConfigWith inUse c s).2.fixed = s.fixed := by
  simp [slowConfigWith]

@[simp] theorem State.slowConfigEffect_fixed (s : State) (l : Nat) : (s.slowConfigEffect l).fixed = s.fixed := by
  unfold State.slowConfigEffect; split <;> simp

@[simp] theorem State.slowStartEffect_fixed (s : State) (l : Nat) : (s.slowStartEffect l).fixed = s.fixed := by
  unfold State.slowStartEffect; split <;> simp

@[simp] theorem slowStart_fixed (c : Cmd) (s : State) : (slowStart c s).2.fixed = s.fixed := by simp [slowStart]
@[simp] theorem slowStop_fixed (c : Cmd) (s : State) : (slowStop c s).2.fixed = s.fixed := by simp [slowStop]
@[simp] theorem slowStatus_fixed (c : Cmd) (s : State) : (slowStatus c s).2.fixed = s.fixed := by simp [slowStatus]

/-! ### Runs of the vector tiles -/

@[simp] theorem State.noteCells_fixed (s : State) (l : List (Nat × Nat)) : (s.noteCells l).fixed = s.fixed := by
  unfold State.noteCells; split <;> simp

@[simp] theorem State.putBytes_fixed (s : State) (l : List (Nat × Byte)) : (s.putBytes l).fixed = s.fixed := by simp [State.putBytes]

/-! ### Vector tiles -/

@[simp] theorem State.modPool_fixed (s : State) (f : TilePool → TilePool) : (s.modPool f).fixed = s.fixed := by rfl

/-! A run of a host kernel keeps the fixed parts of the state it carries. -/

@[simp] theorem Run.finish_fixed (r : Run) (m : Mv) : (r.finish m).1.s.fixed = r.s.fixed := by
  unfold Run.finish
  split
  · rfl
  · split
    · simp
    · dsimp only; split <;> simp

@[simp] theorem Run.pump_fixed (n : Nat) (r : Run) : (Run.pump n r).1.s.fixed = r.s.fixed := by
  induction n generalizing r with
  | zero => rfl
  | succ n ih => unfold Run.pump; dsimp only; (repeat' split) <;> simp [ih]

@[simp] theorem Run.parallel_fixed (r : Run) (w : Nat) : (r.parallel w).1.s.fixed = r.s.fixed := by
  unfold Run.parallel; dsimp only; split <;> rfl

@[simp] theorem Run.control_fixed (r : Run) (base w : Nat) : (r.control base w).1.s.fixed = r.s.fixed := by
  unfold Run.control; dsimp only; (repeat' split) <;> rfl

@[simp] theorem Run.step_fixed (r : Run) (limit : Nat) : (r.step limit).1.s.fixed = r.s.fixed := by
  unfold Run.step
  dsimp only
  split
  · simp
  · split <;> simp [apply_ite Prod.fst, apply_ite Run.s]

@[simp] theorem Run.drain_fixed (r : Run) : r.drain.s.fixed = r.s.fixed := by
  unfold Run.drain; (repeat' split) <;> simp

@[simp] theorem State.hostRun_fixed (s : State) (p : Nat) : (s.hostRun p).s.fixed = s.fixed := by rfl
@[simp] theorem Run.settle_fixed (r : Run) (p : Nat) (e : Option RunEnd) : (r.settle p e).fixed = r.s.fixed := by simp [Run.settle]
@[simp] theorem State.stepTile_fixed (s : State) (p : Nat) : (s.stepTile p).fixed = s.fixed := by simp [State.stepTile]

@[simp] theorem State.runTilesGo_fixed (n : Nat) (s : State) : (State.runTilesGo n s).fixed = s.fixed := by
  induction n generalizing s with
  | zero => rfl
  | succ n ih => unfold State.runTilesGo; split <;> simp [ih]

@[simp] theorem State.runTiles_fixed (s : State) : s.runTiles.fixed = s.fixed := State.runTilesGo_fixed _ s

@[simp] theorem State.dispatch_fixed (s0 : State) (p setup : Nat) (delays : List Nat) : (s0.dispatch p setup delays).fixed = s0.fixed := by
  unfold State.dispatch; dsimp only; (repeat' split) <;> simp

@[simp] theorem State.freeTile_fixed (s : State) (p : Nat) (c : Completion) : (s.freeTile p c).fixed = s.fixed := by
  unfold State.freeTile; split <;> simp

@[simp] theorem State.hostDone_fixed (s : State) (p id serial status cycles : Nat) : (s.hostDone p id serial status cycles).fixed = s.fixed := by
  unfold State.hostDone; dsimp only; split <;> simp

@[simp] theorem State.jobDone_fixed (s0 : State) (p : Nat) (f : TileFacts) : (s0.jobDone p f).fixed = s0.fixed := by
  unfold State.jobDone; dsimp only; (repeat' split) <;> simp

@[simp] theorem State.abortEvent_fixed (s : State) (p cause : Nat) (k : JobKind) (pc : Nat) : (s.abortEvent p cause k pc).fixed = s.fixed := by
  simp [State.abortEvent]

@[simp] theorem State.loseTrigger_fixed (s : State) (l q g : Nat) : (s.loseTrigger l q g).fixed = s.fixed := by simp [State.loseTrigger]
@[simp] theorem State.redispatch_fixed (s : State) (p : Nat) (j : Job) : (s.redispatch p j).fixed = s.fixed := by rfl

@[simp] theorem State.abortJob_fixed (s0 : State) (p cause : Nat) (f : TileFacts) : (s0.abortJob p cause f).fixed = s0.fixed := by
  fun_cases State.abortJob s0 p cause f <;> simp +zetaDelta [apply_ite Run.s]

@[simp] theorem State.tileAbort_fixed (s : State) (p cause : Nat) (f : TileFacts) : (s.tileAbort p cause f).fixed = s.fixed := by
  simp [State.tileAbort]

@[simp] theorem State.tileSpared_fixed (s : State) (p : Nat) (f : TileFacts) : (s.tileSpared p f).fixed = s.fixed := by
  unfold State.tileSpared; dsimp only; split <;> simp

@[simp] theorem tileKernelLoad_fixed (c : Cmd) (s : State) : (tileKernelLoad c s).2.fixed = s.fixed := by
  unfold tileKernelLoad; dsimp only; (repeat' split) <;> simp

@[simp] theorem tileKernelUnload_fixed (c : Cmd) (s : State) : (tileKernelUnload c s).2.fixed = s.fixed := by simp [tileKernelUnload]
@[simp] theorem tileRun_fixed (c : Cmd) (s : State) : (tileRun c s).2.fixed = s.fixed := by simp [tileRun]
@[simp] theorem tileStatus_fixed (c : Cmd) (s : State) : (tileStatus c s).2.fixed = s.fixed := by simp [tileStatus]

/-! ### The time base -/

@[simp] theorem State.takeStamp_fixed (s : State) (t : Nat) : (s.takeStamp t).2.2.2.fixed = s.fixed := by unfold State.takeStamp; split <;> simp
@[simp] theorem State.steerTo_fixed (s : State) (base corr : Int) : (s.steerTo base corr).fixed = s.fixed := by rfl
@[simp] theorem State.measure_fixed (s : State) (x : Int) : (s.measure x).fixed = s.fixed := by rfl
@[simp] theorem State.measureFirst_fixed (s : State) (x : Int) : (s.measureFirst x).fixed = s.fixed := by rfl
@[simp] theorem State.regain_fixed (s : State) : s.regain.fixed = s.fixed := by rfl

@[simp] theorem State.enterHoldover_fixed (s : State) (cause : Nat) : (s.enterHoldover cause).fixed = s.fixed := by
  unfold State.enterHoldover; split <;> simp

@[simp] theorem State.endHoldover_fixed (s : State) : s.endHoldover.fixed = s.fixed := by unfold State.endHoldover; split <;> simp

@[simp] theorem State.reportSecond_fixed (s : State) (boundary reported : Nat) : (s.reportSecond boundary reported).fixed = s.fixed := by
  simp [State.reportSecond]

@[simp] theorem State.secondStep_fixed (s : State) : s.secondStep.fixed = s.fixed := by simp [State.secondStep]

@[simp] theorem State.ppsEdge_fixed (s : State) (rising : Bool) : (s.ppsEdge rising).fixed = s.fixed := by
  unfold State.ppsEdge; (repeat' split) <;> simp

@[simp] theorem State.ppsLost_fixed (s : State) : s.ppsLost.fixed = s.fixed := by unfold State.ppsLost; split <;> simp
@[simp] theorem State.ptpChoose_fixed (s : State) : s.ptpChoose.fixed = s.fixed := by simp [State.ptpChoose]
@[simp] theorem State.ptpAnnounce_fixed (s : State) (sender : Nat) (a : PtpAnnounce) : (s.ptpAnnounce sender a).fixed = s.fixed := by rfl

@[simp] theorem State.ptpSynced_fixed (s : State) (arrival second nanos : Nat) (corr : Int) :
    (s.ptpSynced arrival second nanos corr).fixed = s.fixed := by
  simp [State.ptpSynced]

@[simp] theorem State.ptpRx_fixed (s0 : State) (m : PtpMsg) : (s0.ptpRx m).fixed = s0.fixed := by
  unfold State.ptpRx; dsimp only; (repeat' split) <;> simp

@[simp] theorem State.ptpTimeout_fixed (s : State) : s.ptpTimeout.fixed = s.fixed := by unfold State.ptpTimeout; split <;> simp
@[simp] theorem State.servo_fixed (s : State) : s.servo.fixed = s.fixed := by unfold State.servo; dsimp only; (repeat' split) <;> simp
@[simp] theorem State.thermosWarm_fixed (s : State) : s.thermosWarm.fixed = s.fixed := by simp [State.thermosWarm]
@[simp] theorem State.thermosNotWarm_fixed (s : State) : s.thermosNotWarm.fixed = s.fixed := by simp [State.thermosNotWarm]
@[simp] theorem State.refclkLost_fixed (s : State) : s.refclkLost.fixed = s.fixed := by simp [State.refclkLost]
@[simp] theorem State.refclkRestored_fixed (s : State) : s.refclkRestored.fixed = s.fixed := by simp [State.refclkRestored]
@[simp] theorem State.timeFixed_fixed (s : State) : s.timeFixed.fixed = s.fixed := by rfl
@[simp] theorem State.setTime_fixed (s : State) : s.setTime.fixed = s.fixed := by simp [State.setTime]
@[simp] theorem State.ppsOutRise_fixed (s : State) : s.ppsOutRise.fixed = s.fixed := by simp [State.ppsOutRise]
@[simp] theorem State.ppsOutFall_fixed (s : State) : s.ppsOutFall.fixed = s.fixed := by simp [State.ppsOutFall]
@[simp] theorem tbConfig_fixed (c : Cmd) (s : State) : (tbConfig c s).2.fixed = s.fixed := by simp [tbConfig]

@[simp] theorem State.tbConfigEffect_fixed (s : State) : s.tbConfigEffect.fixed = s.fixed := by
  unfold State.tbConfigEffect
  split
  · rfl
  · extract_lets due g old s1 s2 usesPps s4 s5 s3
    have h2 : s2.fixed = s.fixed := by simp [s2, s1]
    have h4 : s4.fixed = s.fixed := by simp [s4, h2]
    have h5 : s5.fixed = s.fixed := by simp [s5, h4]
    have h3 : s3.fixed = s.fixed := by
      unfold s3
      split
      · exact h2
      · split
        · split <;> simp [h5]
        · split <;> simp [h4]
    simp [h3]

@[simp] theorem tbStatus_fixed (c : Cmd) (s : State) : (tbStatus c s).2.fixed = s.fixed := by simp [tbStatus]

/-! ### Time-interval units -/

@[simp] theorem tiuMeasure_fixed (c : Cmd) (s : State) : (tiuMeasure c s).2.fixed = s.fixed := by unfold tiuMeasure; split <;> simp
@[simp] theorem State.armEffect_fixed (s : State) : s.armEffect.fixed = s.fixed := by unfold State.armEffect; (repeat' split) <;> simp

@[simp] theorem State.tiuDone_fixed (s : State) (u : Nat) (a : Arming) (word : Nat) (interval : Option Int) :
    (s.tiuDone u a word interval).fixed = s.fixed := by
  simp [State.tiuDone]

@[simp] theorem State.tiuMeasured_fixed (s : State) (u : Nat) (a : Arming) (start stop : Nat) : (s.tiuMeasured u a start stop).fixed = s.fixed := by
  simp [State.tiuMeasured]

@[simp] theorem State.tiuResult_fixed (s : State) (u start stop : Nat) : (s.tiuResult u start stop).fixed = s.fixed := by
  unfold State.tiuResult; dsimp only; (repeat' split) <;> simp

@[simp] theorem State.tiuTimeout_fixed (s : State) (u : Nat) : (s.tiuTimeout u).fixed = s.fixed := by unfold State.tiuTimeout; split <;> simp
@[simp] theorem State.tiuAbort_fixed (s : State) (u : Nat) : (s.tiuAbort u).fixed = s.fixed := by unfold State.tiuAbort; split <;> simp

@[simp] theorem tiuLaunchZero_fixed (c : Cmd) (s : State) : (tiuLaunchZero c s).2.fixed = s.fixed := by
  fun_cases tiuLaunchZero c s <;> rfl

@[simp] theorem State.launchZeroDone_fixed (s : State) (line : Nat) : (s.launchZeroDone line).fixed = s.fixed := by
  unfold State.launchZeroDone; split <;> simp

@[simp] theorem State.armShot_fixed (s : State) (l x : Nat) : (s.armShot l x).fixed = s.fixed := by unfold State.armShot; split <;> simp

@[simp] theorem State.nextZeroShot_fixed (s : State) (l : Nat) : (s.nextZeroShot l).fixed = s.fixed := by
  unfold State.nextZeroShot; (repeat' split) <;> simp

@[simp] theorem State.tiuCheck_fixed (s : State) (u measured : Nat) (loopLocked : Bool) : (s.tiuCheck u measured loopLocked).fixed = s.fixed := by
  simp [State.tiuCheck]

@[simp] theorem State.tiuSpared_fixed (s : State) (u : Nat) : (s.tiuSpared u).fixed = s.fixed := by unfold State.tiuSpared; split <;> simp
@[simp] theorem tiuStatus_fixed (c : Cmd) (s : State) : (tiuStatus c s).2.fixed = s.fixed := by simp [tiuStatus]

/-! ### The trail link -/

@[simp] theorem State.frameIn_fixed (s : State) (p : Nat) : (s.frameIn p).fixed = s.fixed := by rfl
@[simp] theorem State.syncTx_fixed (s : State) : s.syncTx.fixed = s.fixed := by simp [State.syncTx]
@[simp] theorem State.badFrame_fixed (s : State) : s.badFrame.fixed = s.fixed := by rfl
@[simp] theorem State.syncRx_fixed (s0 : State) (rx : TrailRx) : (s0.syncRx rx).fixed = s0.fixed := by simp [State.syncRx]
@[simp] theorem State.trailLost_fixed (s : State) : s.trailLost.fixed = s.fixed := by simp [State.trailLost]
@[simp] theorem State.delayReqTx_fixed (s : State) : s.delayReqTx.fixed = s.fixed := by simp [State.delayReqTx]
@[simp] theorem State.delayReqRx_fixed (s0 : State) (rx : TrailRx) : (s0.delayReqRx rx).fixed = s0.fixed := by simp [State.delayReqRx]

@[simp] theorem State.delayRespRx_fixed (s0 : State) (rx : TrailRx) : (s0.delayRespRx rx).fixed = s0.fixed := by
  unfold State.delayRespRx; dsimp only; (repeat' split) <;> simp

@[simp] theorem State.topoTx_fixed (s : State) : s.topoTx.fixed = s.fixed := by simp [State.topoTx]
@[simp] theorem State.topoRx_fixed (s0 : State) (rx : TrailRx) : (s0.topoRx rx).fixed = s0.fixed := by simp [State.topoRx]
@[simp] theorem State.trailLink_fixed (s : State) (p : Nat) (up : Bool) : (s.trailLink p up).fixed = s.fixed := by simp [State.trailLink]
@[simp] theorem State.forwardBcast_fixed (s : State) (rx : TrailRx) : (s.forwardBcast rx).fixed = s.fixed := by simp [State.forwardBcast]
@[simp] theorem trailConfig_fixed (c : Cmd) (s : State) : (trailConfig c s).2.fixed = s.fixed := by simp [trailConfig]
@[simp] theorem State.trailConfigEffect_fixed (s : State) : s.trailConfigEffect.fixed = s.fixed := by unfold State.trailConfigEffect; split <;> simp
@[simp] theorem trailStatus_fixed (c : Cmd) (s : State) : (trailStatus c s).2.fixed = s.fixed := by simp [trailStatus]

/-! ### Triggers -/

@[simp] theorem State.modTrig_fixed (s : State) (f : TrigState → TrigState) : (s.modTrig f).fixed = s.fixed := by rfl
@[simp] theorem State.setArmed_fixed (s : State) (c : Nat) (v : Bool) : (s.setArmed c v).fixed = s.fixed := by rfl
@[simp] theorem State.pulseOuts_fixed (s : State) (c : Nat) : (s.pulseOuts c).fixed = s.fixed := by rfl

@[simp] theorem State.queueBcast_fixed (s : State) (c : Nat) (d : CondDef) (stamp : BitVec 96) : (s.queueBcast c d stamp).fixed = s.fixed := by
  simp [State.queueBcast]

@[simp] theorem State.rawHit_fixed (s : State) (h : RawHit) : (s.rawHit h).fixed = s.fixed := by rfl
@[simp] theorem State.lineHit_fixed (s : State) (l : Nat) (h : Hit) : (s.lineHit l h).fixed = s.fixed := by rfl
@[simp] theorem State.toZones_fixed (s : State) (sel : ZoneDef → Bool) (i : ZoneIn) : (s.toZones sel i).fixed = s.fixed := by simp [State.toZones]

@[simp] theorem State.meet_fixed (s : State) (c inst : Nat) (stamp : BitVec 96) (node : Nat) (sample : Option Nat) (lines : Nat) :
    (s.meet c inst stamp node sample lines).fixed = s.fixed := by
  unfold State.meet; split <;> simp

@[simp] theorem State.trigEdge_fixed (s : State) (n : Nat) (rising : Bool) (heldNs : Nat) : (s.trigEdge n rising heldNs).fixed = s.fixed := by
  unfold State.trigEdge; dsimp only; (repeat' split) <;> simp

@[simp] theorem State.laneCond_fixed (s : State) (c : Nat) (d : CondDef) (x : Nat) (w : BitVec 16) : (s.laneCond c d x w).fixed = s.fixed := by
  simp [State.laneCond]

@[simp] theorem State.laneConds_fixed (s : State) (q role x : Nat) (w : BitVec 16) : (s.laneConds q role x w).fixed = s.fixed := by
  refine foldl_fixed _ (fun s k => ?_) _ _
  dsimp only; split <;> simp

@[simp] theorem State.bcastRx_fixed (s0 : State) (rx : TrailRx) : (s0.bcastRx rx).fixed = s0.fixed := by simp [State.bcastRx]

@[simp] theorem State.bcastOriginate_fixed (s : State) (c : Nat) : (s.bcastOriginate c).fixed = s.fixed := by
  unfold State.bcastOriginate; split <;> simp

@[simp] theorem State.outAssert_fixed (s : State) (o : Nat) : (s.outAssert o).fixed = s.fixed := by simp [State.outAssert]
@[simp] theorem State.outEnd_fixed (s : State) (o : Nat) : (s.outEnd o).fixed = s.fixed := by unfold State.outEnd; split <;> simp

@[simp] theorem State.decideRow_fixed (s : State) (l : Nat) (v : SlowSheet) (lost : List Nat) : (s.decideRow l v lost).fixed = s.fixed := by
  refine (State.toZones_fixed _ _ _).trans (foldl_fixed_of Prod.fst _ (fun a c => ?_) _ _)
  dsimp only
  split
  · simp
  · split <;> simp

@[simp] theorem State.decideHits_fixed (s : State) (l : Nat) : (s.decideHits l).fixed = s.fixed := by unfold State.decideHits; split <;> simp
@[simp] theorem State.trigFormat_fixed (s : State) (l : Nat) : (s.trigFormat l).fixed = s.fixed := by rfl
@[simp] theorem trigDefine_fixed (c : Cmd) (s : State) : (trigDefine c s).2.fixed = s.fixed := by simp [trigDefine]
@[simp] theorem trigArm_fixed (c : Cmd) (s : State) : (trigArm c s).2.fixed = s.fixed := by simp [trigArm]
@[simp] theorem State.armOne_fixed (s : State) (c mode : Nat) : (s.armOne c mode).fixed = s.fixed := by unfold State.armOne; split <;> simp
@[simp] theorem trigRebase_fixed (c : Cmd) (s : State) : (trigRebase c s).2.fixed = s.fixed := by simp [trigRebase]
@[simp] theorem State.rebaseEffect_fixed (s : State) (c : Nat) : (s.rebaseEffect c).fixed = s.fixed := by unfold State.rebaseEffect; split <;> simp
@[simp] theorem trigOut_fixed (c : Cmd) (s : State) : (trigOut c s).2.fixed = s.fixed := by simp [trigOut]

@[simp] theorem trigStatus_fixed (c : Cmd) (s : State) : (trigStatus c s).2.fixed = s.fixed := by
  unfold trigStatus; dsimp only; (repeat' split) <;> simp

@[simp] theorem capForce_fixed (c : Cmd) (s : State) : (capForce c s).2.fixed = s.fixed := by simp [capForce]
@[simp] theorem slowConfig_fixed (c : Cmd) (s : State) : (slowConfig c s).2.fixed = s.fixed := by simp [slowConfig]

/-! ### Captures -/

@[simp] theorem State.writeEntry_fixed (s : State) (r : CapRec) : (s.writeEntry r).fixed = s.fixed := by simp [State.writeEntry]
@[simp] theorem State.freeRec_fixed (s : State) (i : Nat) : (s.freeRec i).fixed = s.fixed := by simp [State.freeRec]
@[simp] theorem State.recReady_fixed (s : State) (i : Nat) : (s.recReady i).fixed = s.fixed := by unfold State.recReady; split <;> simp
@[simp] theorem State.miss_fixed (s : State) (l : Nat) (h : Hit) : (s.miss l h).fixed = s.fixed := by rfl
@[simp] theorem State.writeStorm_fixed (s : State) (l : Nat) : (s.writeStorm l).fixed = s.fixed := by unfold State.writeStorm; split <;> simp

@[simp] theorem State.notMade_fixed (s : State) (l causes node : Nat) (stamp : BitVec 96) (lo hi : Nat) :
    (s.notMade l causes node stamp lo hi).fixed = s.fixed := by
  simp [State.notMade]

@[simp] theorem State.closeStorm_fixed (s : State) (l : Nat) : (s.closeStorm l).fixed = s.fixed := by unfold State.closeStorm; split <;> simp

@[simp] theorem State.takeMissed_fixed (s : State) (line : Nat) (conds : List Nat) : (s.takeMissed line conds).1.fixed = s.fixed := by
  simp [State.takeMissed]

-- the record that the definition writes out is deeper than the default bound
set_option maxRecDepth 2000 in
@[simp] theorem State.makeCapture_fixed (s : State) (l row : Nat) (r : Region) : (s.makeCapture l row r).fixed = s.fixed := by
  unfold State.makeCapture; dsimp only; split <;> simp

@[simp] theorem State.formCapture_fixed (s : State) (l : Nat) : (s.formCapture l).fixed = s.fixed := by
  unfold State.formCapture; dsimp only; split <;> simp

@[simp] theorem State.dropHold_fixed (s : State) (l i : Nat) : (s.dropHold l i).fixed = s.fixed := by rfl

@[simp] theorem State.copyRow_fixed (s : State) (i : Nat) : (s.copyRow i).fixed = s.fixed := by
  unfold State.copyRow; dsimp only; (repeat' split) <;> simp

@[simp] theorem State.sweepHolds_fixed (s : State) (l : Nat) : (s.sweepHolds l).fixed = s.fixed := by
  refine foldl_fixed _ (fun s h => ?_) _ _
  dsimp only; split <;> simp

@[simp] theorem State.clipCaptures_fixed (s : State) (l : Nat) : (s.clipCaptures l).fixed = s.fixed := by simp [State.clipCaptures]
@[simp] theorem State.discardDisarmed_fixed (s : State) (c : Nat) : (s.discardDisarmed c).fixed = s.fixed := by simp [State.discardDisarmed]
@[simp] theorem State.armEffectOf_fixed (s : State) (c : Nat) : (s.armEffectOf c).fixed = s.fixed := by unfold State.armEffectOf; split <;> simp

@[simp] theorem State.rawWrite_fixed (s : State) (n x : Nat) (stamp : BitVec 96) (bytes : List Byte) :
    (s.rawWrite n x stamp bytes).fixed = s.fixed := by
  rfl

@[simp] theorem State.rawLane_fixed (s : State) (q role x : Nat) (w : BitVec 16) : (s.rawLane q role x w).fixed = s.fixed := by simp [State.rawLane]
@[simp] theorem State.rawStage2_fixed (s : State) (l x : Nat) : (s.rawStage2 l x).fixed = s.fixed := by simp [State.rawStage2]
@[simp] theorem State.rawSheet_fixed (s : State) (l : Nat) (o : SheetOut) : (s.rawSheet l o).fixed = s.fixed := by simp [State.rawSheet]

@[simp] theorem State.rawTrigger_fixed (s : State) (n c : Nat) : (s.rawTrigger n c).fixed = s.fixed := by
  unfold State.rawTrigger; dsimp only; (repeat' split) <;> simp

@[simp] theorem State.rawClose_fixed (s : State) (n : Nat) : (s.rawClose n).fixed = s.fixed := by unfold State.rawClose; dsimp only; split <;> simp
@[simp] theorem State.rawRearm_fixed (s : State) (n : Nat) : (s.rawRearm n).fixed = s.fixed := by unfold State.rawRearm; dsimp only; split <;> simp

@[simp] theorem State.rawCopy_fixed (s : State) (n : Nat) : (s.rawCopy n).fixed = s.fixed := by
  unfold State.rawCopy; dsimp only; (repeat' split) <;> simp

@[simp] theorem State.rawDone_fixed (s : State) (n : Nat) : (s.rawDone n).fixed = s.fixed := by
  unfold State.rawDone; dsimp only; (repeat' split) <;> simp

@[simp] theorem capConfig_fixed (c : Cmd) (s : State) : (capConfig c s).2.fixed = s.fixed := by simp [capConfig]
@[simp] theorem capRawArm_fixed (c : Cmd) (s : State) : (capRawArm c s).2.fixed = s.fixed := by simp [capRawArm]
@[simp] theorem State.stopSets_fixed (s : State) (sets : List Nat) (mode : Nat) : (s.stopSets sets mode).fixed = s.fixed := by simp [State.stopSets]
@[simp] theorem capRawStop_fixed (c : Cmd) (s : State) : (capRawStop c s).2.fixed = s.fixed := by simp [capRawStop]
@[simp] theorem capList_fixed (c : Cmd) (s : State) : (capList c s).2.fixed = s.fixed := by simp [capList]
@[simp] theorem capRelease_fixed (c : Cmd) (s : State) : (capRelease c s).2.fixed = s.fixed := by simp [capRelease]
@[simp] theorem capStatus_fixed (c : Cmd) (s : State) : (capStatus c s).2.fixed = s.fixed := by simp [capStatus]

/-! ### Thermal slices -/

@[simp] theorem State.modTherm_fixed (s : State) (f : Therm → Therm) : (s.modTherm f).fixed = s.fixed := by rfl
@[simp] theorem State.thermSee_fixed (s : State) (l : Nat) (e : Launch) : (s.thermSee l e).fixed = s.fixed := by unfold State.thermSee; split <;> simp
@[simp] theorem State.thermDiscard_fixed (s : State) (k l n : Nat) : (s.thermDiscard k l n).fixed = s.fixed := by rfl

@[simp] theorem State.thermTake_fixed (s : State) (k l : Nat) (g : ThermCfg) (e : ThermSheet) (as st : List Int) (back : Option (List Int × List Int)) :
    (s.thermTake k l g e as st back).fixed = s.fixed := by
  simp [State.thermTake]

@[simp] theorem State.thermSheet_fixed (s : State) (l : Nat) (as st : List Int) (background : Bool) :
    (s.thermSheet l as st background).fixed = s.fixed := by
  unfold State.thermSheet; dsimp only; (repeat' split) <;> simp

@[simp] theorem State.formTrace_fixed (s : State) (k l : Nat) (g : ThermCfg) : (s.formTrace k l g).fixed = s.fixed := by
  unfold State.formTrace; dsimp only; split <;> simp

@[simp] theorem State.discardInterval_fixed (s : State) (k : Nat) : (s.discardInterval k).fixed = s.fixed := by
  unfold State.discardInterval; dsimp only; (repeat' split) <;> simp

@[simp] theorem State.intervalOver_fixed (s : State) (k : Nat) (stay : Bool) : (s.intervalOver k stay).fixed = s.fixed := by rfl
@[simp] theorem State.routeDone_fixed (s : State) (k : Nat) : (s.routeDone k).fixed = s.fixed := by unfold State.routeDone; split <;> simp
@[simp] theorem State.thermClose_fixed (s : State) (l : Nat) : (s.thermClose l).fixed = s.fixed := by unfold State.thermClose; split <;> simp

@[simp] theorem State.thermEarly_fixed (s : State) (l x : Nat) (stay : Bool) : (s.thermEarly l x stay).fixed = s.fixed := by
  unfold State.thermEarly; split <;> simp

@[simp] theorem State.thermStop_fixed (s : State) (l x : Nat) (immediate : Bool) : (s.thermStop l x immediate).fixed = s.fixed := by
  unfold State.thermStop; split <;> simp

@[simp] theorem State.wakeSlice_fixed (s : State) (k : Nat) : (s.wakeSlice k).fixed = s.fixed := by simp [State.wakeSlice]
@[simp] theorem State.switchTo_fixed (s : State) (k l : Nat) : (s.switchTo k l).fixed = s.fixed := by rfl

@[simp] theorem State.thermSwitch_fixed (s : State) (k : Nat) (refError : Bool) : (s.thermSwitch k refError).fixed = s.fixed := by
  unfold State.thermSwitch; dsimp only; split <;> simp

@[simp] theorem State.thermSettled_fixed (s : State) (k : Nat) : (s.thermSettled k).fixed = s.fixed := by simp [State.thermSettled]

@[simp] theorem State.thermSpared_fixed (s : State) (p : Nat) : (s.thermSpared p).fixed = s.fixed := by
  unfold State.thermSpared; dsimp only; (repeat' split) <;> simp

@[simp] theorem State.sliceUnserved_fixed (s : State) (p : Nat) : (s.sliceUnserved p).fixed = s.fixed := by unfold State.sliceUnserved; split <;> simp
@[simp] theorem State.thermHalt_fixed (s : State) : s.thermHalt.fixed = s.fixed := by simp [State.thermHalt]
@[simp] theorem thermConfig_fixed (c : Cmd) (s : State) : (thermConfig c s).2.fixed = s.fixed := by simp [thermConfig]

@[simp] theorem State.thermCfgEffect_fixed (s : State) (l : Nat) : (s.thermCfgEffect l).fixed = s.fixed := by
  unfold State.thermCfgEffect; dsimp only; (repeat' split) <;> simp

@[simp] theorem thermRoute_fixed (c : Cmd) (s : State) : (thermRoute c s).2.fixed = s.fixed := by simp [thermRoute]
@[simp] theorem thermStatus_fixed (c : Cmd) (s : State) : (thermStatus c s).2.fixed = s.fixed := by simp [thermStatus]

/-! ### Reference sensors -/

@[simp] theorem State.modFront_fixed (s : State) (f : RefFront → RefFront) : (s.modFront f).fixed = s.fixed := by rfl
@[simp] theorem State.modChanRef_fixed (s : State) (n : Nat) (f : RefChan → RefChan) : (s.modChanRef n f).fixed = s.fixed := by rfl

@[simp] theorem State.putRef_fixed (s : State) (inst channel kind flags : Nat) (code : Int) (word : BitVec 32) (res : Nat) :
    (s.putRef inst channel kind flags code word res).fixed = s.fixed := by
  simp [State.putRef]

@[simp] theorem State.startConv_fixed (s : State) (n x : Nat) (urgent : Bool) : (s.startConv n x urgent).fixed = s.fixed := by simp [State.startConv]
@[simp] theorem State.nextConv_fixed (s : State) (x : Nat) : (s.nextConv x).fixed = s.fixed := by unfold State.nextConv; (repeat' split) <;> simp

@[simp] theorem State.leadCheck_fixed (s : State) (check cmMv : Nat) : (s.leadCheck check cmMv).fixed = s.fixed := by
  unfold State.leadCheck; split <;> simp

@[simp] theorem State.refLead_fixed (s : State) (n check cmMv : Nat) : (s.refLead n check cmMv).fixed = s.fixed := by
  unfold State.refLead; split <;> simp

@[simp] theorem State.putOutputs_fixed (s : State) (v : RefConv) (x flags : Nat) (l : List (Int × Bool)) :
    (s.putOutputs v x flags l).fixed = s.fixed := by
  simp [State.putOutputs]

@[simp] theorem State.convDone_fixed (s : State) (w : RefConversion) : (s.convDone w).fixed = s.fixed := by
  unfold State.convDone
  split
  · rfl
  · extract_lets c stop sA sB v plus minus cp code clamp bad base x1 x2 s1 den mOhm pick t out invalid
      codes va vb var tc word res s2 passed fault s3 s4
    have h1 : s1.fixed = s.fixed := by simp [s1, sB, sA]
    have h3 : s3.fixed = s.fixed := by rw [State.modChanRef_fixed, State.putRef_fixed]; exact h1
    have h4 : s4.fixed = s.fixed := by
      clear_value fault
      cases fault <;> simp [s4, h3]
    rw [State.fixed_ite, State.nextConv_fixed, State.modFront_fixed, h4, ite_self]

@[simp] theorem State.sdmWithdraw_fixed (s : State) : s.sdmWithdraw.fixed = s.fixed := by unfold State.sdmWithdraw; dsimp only; split <;> simp
@[simp] theorem State.sdmCheck_fixed (s : State) (refError : Bool) : (s.sdmCheck refError).fixed = s.fixed := by simp [State.sdmCheck]
@[simp] theorem State.scanEffect_fixed (s : State) : s.scanEffect.fixed = s.fixed := by unfold State.scanEffect; split <;> simp
@[simp] theorem State.scanStart_fixed (s : State) (refError : Bool) : (s.scanStart refError).fixed = s.fixed := by simp [State.scanStart]
@[simp] theorem State.refHalt_fixed (s : State) : s.refHalt.fixed = s.fixed := by rfl
@[simp] theorem State.refResume_fixed (s : State) : s.refResume.fixed = s.fixed := by simp [State.refResume]
@[simp] theorem refConfig_fixed (c : Cmd) (s : State) : (refConfig c s).2.fixed = s.fixed := by simp [refConfig]
@[simp] theorem refScan_fixed (c : Cmd) (s : State) : (refScan c s).2.fixed = s.fixed := by simp [refScan]
@[simp] theorem refUrgent_fixed (c : Cmd) (s : State) : (refUrgent c s).2.fixed = s.fixed := by simp [refUrgent]
@[simp] theorem refStatus_fixed (c : Cmd) (s : State) : (refStatus c s).2.fixed = s.fixed := by simp [refStatus]

/-! ### Streams -/

@[simp] theorem State.modStream_fixed (s : State) (k : Nat) (f : StreamRun → StreamRun) : (s.modStream k f).fixed = s.fixed := by rfl
@[simp] theorem State.settleBucket_fixed (s : State) (i : Nat) : (s.settleBucket i).fixed = s.fixed := by rfl

@[simp] theorem State.closeRecord_fixed (s : State) (k kind line : Nat) (stamp : BitVec 96) (items : Nat) (payload : List Byte) (ends : List (Nat × Item)) :
    (s.closeRecord k kind line stamp items payload ends).fixed = s.fixed := by
  unfold State.closeRecord; split <;> simp

@[simp] theorem State.closeAborted_fixed (s : State) (k : Nat) (i : Item) : (s.closeAborted k i).fixed = s.fixed := by
  unfold State.closeAborted; split <;> simp

@[simp] theorem State.streamClose_fixed (s : State) (k : Nat) : (s.streamClose k).fixed = s.fixed := by
  unfold State.streamClose; (repeat' split) <;> simp

@[simp] theorem State.streamOverrun_fixed (s : State) (k : Nat) : (s.streamOverrun k).fixed = s.fixed := by unfold State.streamOverrun; split <;> simp

@[simp] theorem State.itemDelivered_fixed (s : State) (d : StreamDef) (i : Item) : (s.itemDelivered d i).fixed = s.fixed := by
  unfold State.itemDelivered; split <;> simp

@[simp] theorem State.streamMoved_fixed (s : State) (k : Nat) (d : StreamDef) (fuel n : Nat) :
    (s.streamMoved k d fuel n).fixed = s.fixed := by
  induction fuel generalizing s n with
  | zero => rfl
  | succ fuel ih =>
    unfold State.streamMoved
    split
    · rfl
    · split <;> simp [ih]

@[simp] theorem State.streamEnd_fixed (s : State) (k mode discarded : Nat) : (s.streamEnd k mode discarded).fixed = s.fixed := by
  unfold State.streamEnd; dsimp only; (repeat' split) <;> simp

/-! ### Compression -/

@[simp] theorem State.modBale_fixed (s : State) (f : BaleRun → BaleRun) : (s.modBale f).fixed = s.fixed := by rfl
@[simp] theorem State.reportLane_fixed (s : State) (lane st : Nat) : (s.reportLane lane st).fixed = s.fixed := by simp [State.reportLane]
@[simp] theorem State.laneTest_fixed (s : State) (lane : Nat) : (s.laneTest lane).fixed = s.fixed := by simp [State.laneTest]

@[simp] theorem State.verifyFailed_fixed (s : State) (lane seq at_ : Nat) : (s.verifyFailed lane seq at_).fixed = s.fixed := by
  simp [State.verifyFailed]

@[simp] theorem State.countBale_fixed (s : State) (bytes : Nat) (o : BaleOut) : (s.countBale bytes o).fixed = s.fixed := by rfl

@[simp] theorem State.baleTaken_fixed (s : State) (k : Nat) (v : StreamBale) (bale : List Byte) (o : BaleOut) (suspend : Bool) :
    (s.baleTaken k v bale o suspend).fixed = s.fixed := by
  unfold State.baleTaken; split <;> simp

@[simp] theorem State.baleLost_fixed (s : State) (k : Nat) (v : StreamBale) : (s.baleLost k v).fixed = s.fixed := by rfl

@[simp] theorem State.streamRelease_fixed (s : State) (lane k : Nat) (room firstDiff : Option Nat) (rawFails : Bool) :
    (s.streamRelease lane k room firstDiff rawFails).fixed = s.fixed := by
  unfold State.streamRelease; dsimp only; (repeat' split) <;> simp

@[simp] theorem State.jobWrite_fixed (s : State) (j : BaleJob) (bytes : List Byte) (bad : Bool) : (s.jobWrite j bytes bad).fixed = s.fixed := by
  simp [State.jobWrite]

@[simp] theorem State.jobTaken_fixed (s : State) (j : BaleJob) (bytes : List Byte) (o : BaleOut) (bad : List Nat) :
    (s.jobTaken j bytes o bad).fixed = s.fixed := by
  simp [State.jobTaken]

@[simp] theorem State.jobRelease_fixed (s : State) (lane id : Nat) (space : Bool) (firstDiff : Option Nat) (rawFails : Bool) :
    (s.jobRelease lane id space firstDiff rawFails).fixed = s.fixed := by
  unfold State.jobRelease; dsimp only; (repeat' split) <;> simp

@[simp] theorem State.jobDecode_fixed (s : State) (id : Nat) (space : Bool) : (s.jobDecode id space).fixed = s.fixed := by
  unfold State.jobDecode; split <;> simp

@[simp] theorem State.baleRelease_fixed (s : State) (lane : Nat) (stream : Bool) (ix : Nat) (firstDiff : Option Nat) (rawFails : Bool) :
    (s.baleRelease lane stream ix firstDiff rawFails).fixed = s.fixed := by
  simp [State.baleRelease]

@[simp] theorem State.baleNoSpace_fixed (s : State) (lane : Nat) (stream : Bool) (ix room : Nat) (firstDiff : Option Nat) (rawFails : Bool) :
    (s.baleNoSpace lane stream ix room firstDiff rawFails).fixed = s.fixed := by
  simp [State.baleNoSpace]

@[simp] theorem State.freeTail_fixed (s : State) (j : BaleJob) : (s.freeTail j).fixed = s.fixed := by simp [State.freeTail]
@[simp] theorem State.jobUnserved_fixed (s : State) (id : Nat) : (s.jobUnserved id).fixed = s.fixed := by simp [State.jobUnserved]

@[simp] theorem State.baleJobDone_fixed (s : State) (id : Nat) : (s.baleJobDone id).fixed = s.fixed := by
  unfold State.baleJobDone; dsimp only; (repeat' split) <;> simp

@[simp] theorem baleProfile_fixed (c : Cmd) (s : State) : (baleProfile c s).2.fixed = s.fixed := by simp [baleProfile]
@[simp] theorem baleRun_fixed (c : Cmd) (s : State) : (baleRun c s).2.fixed = s.fixed := by simp [baleRun]

@[simp] theorem baleResume_fixed (c : Cmd) (s : State) : (baleResume c s).2.fixed = s.fixed := by
  unfold baleResume; dsimp only; (repeat' split) <;> simp

@[simp] theorem baleCancel_fixed (c : Cmd) (s : State) : (baleCancel c s).2.fixed = s.fixed := by unfold baleCancel; dsimp only; split <;> simp
@[simp] theorem baleStatus_fixed (c : Cmd) (s : State) : (baleStatus c s).2.fixed = s.fixed := by simp [baleStatus]

/-! ### DMA and host links -/

@[simp] theorem State.doorbell_fixed (s : State) (n : Nat) (v : BitVec 32) : (s.doorbell n v).fixed = s.fixed := by
  simp [State.doorbell]; split <;> simp

@[simp] theorem State.haltCtx_fixed (s : State) (n cause addr : Nat) (write dev : Bool) : (s.haltCtx n cause addr write dev).fixed = s.fixed := by
  simp [State.haltCtx]

@[simp] theorem State.spend_fixed (s : State) (i n : Nat) : (s.spend i n).fixed = s.fixed := by rfl
@[simp] theorem State.limited_fixed (s : State) (i : Nat) : (s.limited i).fixed = s.fixed := by rfl
@[simp] theorem State.refillTokens_fixed (s : State) (i : Nat) : (s.refillTokens i).fixed = s.fixed := by rfl
@[simp] theorem State.descDone_fixed (s : State) (i : Nat) (d : Desc) : (s.descDone i d).fixed = s.fixed := by simp [State.descDone]

@[simp] theorem State.toHost_fixed (s : State) (i addr src : Nat) (bad : List Nat) (c : Ctx) (data : List Byte) :
    (s.toHost i addr src bad c data).fixed = s.fixed := by
  simp [State.toHost]

@[simp] theorem State.writeStatus_fixed (s : State) (d : Desc) (used status : Nat) : (s.writeStatus d used status).fixed = s.fixed := by rfl

@[simp] theorem State.streamSkip_fixed (s : State) (k room : Nat) : (s.streamSkip k room).fixed = s.fixed := by
  unfold State.streamSkip; dsimp only; (repeat' split) <;> simp

@[simp] theorem State.fillBuffer_fixed (s : State) (i k : Nat) (def_ : StreamDef) (d : Desc) (n status : Nat) :
    (s.fillBuffer i k def_ d n status).fixed = s.fixed := by
  unfold State.fillBuffer; split <;> simp

@[simp] theorem State.process_fixed (s : State) (i : Nat) (b data : List Byte) (flush : Bool) : (s.process i b data flush).fixed = s.fixed := by
  fun_cases State.process s i b data flush <;> simp +zetaDelta

@[simp] theorem State.dmaHalt_fixed (s : State) (i cause addr : Nat) (write dev : Bool) : (s.dmaHalt i cause addr write dev).fixed = s.fixed := by
  simp [State.dmaHalt]

@[simp] theorem State.msix_fixed (s : State) (n : Nat) : (s.msix n).fixed = s.fixed := by simp [State.msix]

@[simp] theorem State.packetSent_fixed (s : State) (i : Nat) : (s.packetSent i).fixed = s.fixed := by
  unfold State.packetSent; dsimp only; (repeat' split) <;> simp

@[simp] theorem State.ethLink_fixed (s : State) (p : Nat) (up : Bool) : (s.ethLink p up).fixed = s.fixed := by simp [State.ethLink]
@[simp] theorem State.arp_fixed (s : State) (p : Nat) (ip : BitVec 32) : (s.arp p ip).fixed = s.fixed := by simp [State.arp]
@[simp] theorem State.pauseFrame_fixed (s : State) (p quanta : Nat) : (s.pauseFrame p quanta).fixed = s.fixed := by simp [State.pauseFrame]

@[simp] theorem State.frameDropped_fixed (s : State) (p : Nat) (fcsOk : Bool) : (s.frameDropped p fcsOk).fixed = s.fixed := by
  simp [State.frameDropped]

@[simp] theorem State.abortPackets_fixed (s : State) (i k : Nat) : (s.abortPackets i k).fixed = s.fixed := by
  unfold State.abortPackets; split <;> simp

@[simp] theorem State.abortCtx_fixed (s : State) (i : Nat) : (s.abortCtx i).fixed = s.fixed := by
  unfold State.abortCtx; dsimp only; (repeat' split) <;> simp

@[simp] theorem State.pcieReset_fixed (s : State) (cause : Nat) : (s.pcieReset cause).fixed = s.fixed := by simp [State.pcieReset]
@[simp] theorem State.pcieUp_fixed (s : State) (speed width : Nat) : (s.pcieUp speed width).fixed = s.fixed := by simp [State.pcieUp]
@[simp] theorem dmaConfig_fixed (c : Cmd) (s : State) : (dmaConfig c s).2.fixed = s.fixed := by simp [dmaConfig]
@[simp] theorem dmaResume_fixed (c : Cmd) (s : State) : (dmaResume c s).2.fixed = s.fixed := by simp [dmaResume]
@[simp] theorem dmaAbort_fixed (c : Cmd) (s : State) : (dmaAbort c s).2.fixed = s.fixed := by simp [dmaAbort]
@[simp] theorem dmaLink_fixed (c : Cmd) (s : State) : (dmaLink c s).2.fixed = s.fixed := by simp [dmaLink]
@[simp] theorem dmaPort_fixed (c : Cmd) (s : State) : (dmaPort c s).2.fixed = s.fixed := by simp [dmaPort]
@[simp] theorem streamDefine_fixed (c : Cmd) (s : State) : (streamDefine c s).2.fixed = s.fixed := by simp [streamDefine]
@[simp] theorem streamAttach_fixed (c : Cmd) (s : State) : (streamAttach c s).2.fixed = s.fixed := by unfold streamAttach; dsimp only; split <;> simp

@[simp] theorem State.detachStream_fixed (s : State) (k mode : Nat) : (s.detachStream k mode).fixed = s.fixed := by
  unfold State.detachStream; split <;> simp

@[simp] theorem streamDetach_fixed (c : Cmd) (s : State) : (streamDetach c s).2.fixed = s.fixed := by simp [streamDetach]

@[simp] theorem State.streamDetached_fixed (s : State) (k : Nat) : (s.streamDetached k).fixed = s.fixed := by
  unfold State.streamDetached; (repeat' split) <;> simp

@[simp] theorem dmaStatus_fixed (c : Cmd) (s : State) : (dmaStatus c s).2.fixed = s.fixed := by simp [dmaStatus]

/-! ### Tests and repairs -/

@[simp] theorem State.d2dWithdraw_fixed (s : State) (lane : Nat) : (s.d2dWithdraw lane).fixed = s.fixed := by unfold State.d2dWithdraw; split <;> simp
@[simp] theorem State.converterNext_fixed (s : State) (q : Nat) : (s.converterNext q).fixed = s.fixed := by unfold State.converterNext; split <;> simp

@[simp] theorem State.repairEvent_fixed (s : State) (kind m index result : Nat) : (s.repairEvent kind m index result).fixed = s.fixed := by
  simp [State.repairEvent]

@[simp] theorem State.sramTested_fixed (s : State) (m : Nat) (keep : Bool) : (s.sramTested m keep).fixed = s.fixed := by
  unfold State.sramTested; split <;> simp

@[simp] theorem State.returnUnit_fixed (s : State) (k i : Nat) : (s.returnUnit k i).fixed = s.fixed := by simp [State.returnUnit]

@[simp] theorem State.retireUnit_fixed (s : State) (k i cause : Nat) : (s.retireUnit k i cause).fixed = s.fixed := by
  unfold State.retireUnit; dsimp only; (repeat' split) <;> simp

@[simp] theorem State.passTransient_fixed (s : State) (k i : Nat) : (s.passTransient k i).fixed = s.fixed := by simp [State.passTransient]

@[simp] theorem State.testDone_fixed (s : State) (k i : Nat) (pass conditions : Bool) : (s.testDone k i pass conditions).fixed = s.fixed := by
  unfold State.testDone; dsimp only; (repeat' split) <;> simp

@[simp] theorem State.vacate_fixed (s : State) (k i : Nat) : (s.vacate k i).fixed = s.fixed := by simp [State.vacate]
@[simp] theorem State.noSpareRow_fixed (s : State) (k i cause : Nat) : (s.noSpareRow k i cause).fixed = s.fixed := by simp [State.noSpareRow]

@[simp] theorem State.sramBegin_fixed (s : State) (m : Nat) : (s.sramBegin m).fixed = s.fixed := by
  unfold State.sramBegin; dsimp only; (repeat' split) <;> simp

@[simp] theorem State.sramError_fixed (s : State) (m row b : Nat) (uncorrectable : Bool) : (s.sramError m row b uncorrectable).fixed = s.fixed := by
  simp [State.sramError]

@[simp] theorem State.d2dError_fixed (s : State) (lane symbols : Nat) (uncorrectable : Bool) :
    (s.d2dError lane symbols uncorrectable).fixed = s.fixed := by
  simp [State.d2dError]

@[simp] theorem State.beginRun_fixed (s : State) : s.beginRun.fixed = s.fixed := by rfl
@[simp] theorem State.softRepair_fixed (s : State) (boot : Bool) (e : Nat × Nat) : (s.softRepair boot e).fixed = s.fixed := by simp [State.softRepair]
@[simp] theorem State.suspect_fixed (s : State) (boot : Bool) (e : Nat × Nat) : (s.suspect boot e).fixed = s.fixed := by simp [State.suspect]
@[simp] theorem State.endRun_fixed (s : State) : s.endRun.fixed = s.fixed := by unfold State.endRun; split <;> simp

@[simp] theorem State.segmentDone_fixed (s : State) (o : SegmentOutcome) : (s.segmentDone o).fixed = s.fixed := by
  unfold State.segmentDone; split <;> simp

@[simp] theorem State.beginReruns_fixed (s : State) (quick : Bool) : (s.beginReruns quick).fixed = s.fixed := by simp [State.beginReruns]

@[simp] theorem State.senseOne_fixed (s : State) (n : Nat) (old : Sensor) (lo hi v hyst : Int) :
    (s.senseOne n old lo hi v hyst).1.fixed = s.fixed := by
  simp [State.senseOne]

@[simp] theorem State.putOffReruns_fixed (s : State) : s.putOffReruns.fixed = s.fixed := by simp [State.putOffReruns]

@[simp] theorem State.sensorSample_fixed (s : State) (thermal rails : List Int) : (s.sensorSample thermal rails).fixed = s.fixed := by
  simp [State.sensorSample]

@[simp] theorem healthStatus_fixed (c : Cmd) (s : State) : (healthStatus c s).2.fixed = s.fixed := by simp [healthStatus]
@[simp] theorem healthUnits_fixed (c : Cmd) (s : State) : (healthUnits c s).2.fixed = s.fixed := by simp [healthUnits]
@[simp] theorem healthTest_fixed (c : Cmd) (s : State) : (healthTest c s).2.fixed = s.fixed := by simp [healthTest]
@[simp] theorem healthAccept_fixed (c : Cmd) (s : State) : (healthAccept c s).2.fixed = s.fixed := by simp [healthAccept]
@[simp] theorem healthFuseRepair_fixed (c : Cmd) (s : State) : (healthFuseRepair c s).2.fixed = s.fixed := by simp [healthFuseRepair]
@[simp] theorem State.fuseOne_fixed (s : State) (e : Repair × Bool) : (s.fuseOne e).fixed = s.fixed := by simp [State.fuseOne]
@[simp] theorem State.fuseDone_fixed (s : State) (ok : List Bool) : (s.fuseDone ok).fixed = s.fixed := by unfold State.fuseDone; split <;> simp
@[simp] theorem healthResults_fixed (c : Cmd) (s : State) : (healthResults c s).2.fixed = s.fixed := by simp [healthResults]
@[simp] theorem healthSensors_fixed (c : Cmd) (s : State) : (healthSensors c s).2.fixed = s.fixed := by simp [healthSensors]
@[simp] theorem healthLimits_fixed (c : Cmd) (s : State) : (healthLimits c s).2.fixed = s.fixed := by simp [healthLimits]
@[simp] theorem healthLogRead_fixed (c : Cmd) (s : State) : (healthLogRead c s).2.fixed = s.fixed := by simp [healthLogRead]

/-! ### Zones -/

@[simp] theorem State.modZone_fixed (s : State) (n : Nat) (f : ZoneRun → ZoneRun) : (s.modZone n f).fixed = s.fixed := by rfl
@[simp] theorem State.modPanel_fixed (s : State) (f : Panel → Panel) : (s.modPanel f).fixed = s.fixed := by rfl

@[simp] theorem State.recompute_fixed (s : State) (n : Nat) (d : ZoneDef) (old z : ZoneRun) (w : ZoneWhy) :
    (s.recompute n d old z w).fixed = s.fixed := by
  simp [State.recompute]

@[simp] theorem State.zoneEvaluate_fixed (s : State) (n : Nat) (src : ZoneSource) : (s.zoneEvaluate n src).fixed = s.fixed := by
  unfold State.zoneEvaluate; split <;> simp

@[simp] theorem State.zoneHoldEnd_fixed (s : State) (n k : Nat) : (s.zoneHoldEnd n k).fixed = s.fixed := by unfold State.zoneHoldEnd; split <;> simp
@[simp] theorem State.zoneJudge_fixed (s : State) (n : Nat) : (s.zoneJudge n).fixed = s.fixed := by unfold State.zoneJudge; split <;> simp

@[simp] theorem State.zonesOfCond_fixed (s : State) (c : Nat) : (s.zonesOfCond c).fixed = s.fixed := by
  refine foldl_fixed _ (fun s n => ?_) _ _
  split <;> simp

@[simp] theorem State.zsp_fixed (s : State) (n edges : Nat) : (s.zsp n edges).fixed = s.fixed := by simp [State.zsp]
@[simp] theorem State.vrefMeasure_fixed (s : State) (mv : Nat) : (s.vrefMeasure mv).fixed = s.fixed := by simp [State.vrefMeasure]
@[simp] theorem zoneDefine_fixed (c : Cmd) (s : State) : (zoneDefine c s).2.fixed = s.fixed := by simp [zoneDefine]

@[simp] theorem zoneAck_fixed (c : Cmd) (s : State) : (zoneAck c s).2.fixed = s.fixed := by
  unfold zoneAck
  dsimp only
  split
  · rfl
  · refine (okay_fixed _).trans (foldl_fixed _ (fun s n => ?_) _ _)
    split <;> simp

@[simp] theorem zoneStatus_fixed (c : Cmd) (s : State) : (zoneStatus c s).2.fixed = s.fixed := by simp [zoneStatus]
@[simp] theorem panelPins_fixed (c : Cmd) (s : State) : (panelPins c s).2.fixed = s.fixed := by simp [panelPins]
@[simp] theorem panelZout_fixed (c : Cmd) (s : State) : (panelZout c s).2.fixed = s.fixed := by simp [panelZout]
@[simp] theorem panelStatus_fixed (c : Cmd) (s : State) : (panelStatus c s).2.fixed = s.fixed := by simp [panelStatus]

/-! ### Launches, gates and the interlock -/

@[simp] theorem State.playProbe_fixed (s : State) (e : Launch) : (s.playProbe e).fixed = s.fixed := by simp [State.playProbe]
@[simp] theorem State.bumpGrid_fixed (s : State) (l : Nat) (f : LineGrid → LineGrid) : (s.bumpGrid l f).fixed = s.fixed := by rfl
@[simp] theorem State.fire_fixed (s : State) (l : Nat) (e : Launch) : (s.fire l e).1.fixed = s.fixed := by simp [State.fire]
@[simp] theorem State.shootCal_fixed (s : State) (l : Nat) (e : Launch) (t : Nat) : (s.shootCal l e t).fixed = s.fixed := by rfl

@[simp] theorem State.gridLaunch_fixed (s : State) (l : Nat) : (s.gridLaunch l).fixed = s.fixed := by
  unfold State.gridLaunch; (repeat' split) <;> simp

@[simp] theorem State.spotLaunch_fixed (s : State) (l : Nat) : (s.spotLaunch l).fixed = s.fixed := by
  unfold State.spotLaunch; dsimp only; (repeat' split) <;> simp

@[simp] theorem State.dutyTruncated_fixed (s : State) (l : Nat) : (s.dutyTruncated l).fixed = s.fixed := by simp [State.dutyTruncated]
@[simp] theorem State.cutLaunches_fixed (s : State) (l : Nat) : (s.cutLaunches l).fixed = s.fixed := by rfl
@[simp] theorem State.emitFall_fixed (s : State) : s.emitFall.fixed = s.fixed := by simp [State.emitFall]
@[simp] theorem State.emitRise_fixed (s : State) : s.emitRise.fixed = s.fixed := by simp [State.emitRise]
@[simp] theorem State.emitQualified_fixed (s : State) : s.emitQualified.fixed = s.fixed := by unfold State.emitQualified; split <;> simp

@[simp] theorem State.planEffect_fixed (s : State) (l : Nat) (change : Bool) : (s.planEffect l change).fixed = s.fixed := by
  unfold State.planEffect; split <;> simp

/-! ### Finished sheets and quire boundaries -/

@[simp] theorem State.laneWordRelease_fixed (s : State) (q role : Nat) (vNv : Int) : (s.laneWordRelease q role vNv).fixed = s.fixed := by
  simp [State.laneWordRelease]

@[simp] theorem State.boundaryConds_fixed (s : State) (l : Nat) : (s.boundaryConds l).fixed = s.fixed := by
  refine foldl_fixed _ (fun s c => ?_) _ _
  split <;> simp

@[simp] theorem State.resizeEffect_fixed (s : State) (l : Nat) : (s.resizeEffect l).fixed = s.fixed := by simp [State.resizeEffect]
@[simp] theorem State.quireBegin_fixed (s : State) (l : Nat) : (s.quireBegin l).fixed = s.fixed := by simp [State.quireBegin]

@[simp] theorem State.atQuireBegin_fixed (s : State) (l : Nat) (f : State → State) (h : (f s).fixed = s.fixed) :
    (s.atQuireBegin l f).fixed = s.fixed := by
  simp [State.atQuireBegin, h]

@[simp] theorem State.quireBeginRow_fixed (s : State) (l : Nat) : (s.quireBeginRow l).fixed = s.fixed := by simp [State.quireBeginRow]
@[simp] theorem State.resizeRow_fixed (s : State) (l : Nat) : (s.resizeRow l).fixed = s.fixed := by simp [State.resizeRow]
@[simp] theorem State.slowConfigRow_fixed (s : State) (l : Nat) : (s.slowConfigRow l).fixed = s.fixed := by simp [State.slowConfigRow]

@[simp] theorem State.settleOver_fixed (s : State) (l : Nat) (samples : List Sample) : (s.settleOver l samples).fixed = s.fixed := by
  simp [State.settleOver]

@[simp] theorem State.sheetComplete_fixed (s : State) (l : Nat) (i : SheetInput) : (s.sheetComplete l i).fixed = s.fixed := by
  unfold State.sheetComplete; split <;> simp

@[simp] theorem State.quireReleased_fixed (s : State) (l : Nat) : (s.quireReleased l).fixed = s.fixed := by simp [State.quireReleased]
@[simp] theorem State.calWaits_fixed (s : State) (q : Nat) : (s.calWaits q).fixed = s.fixed := by rfl
@[simp] theorem State.lineStartedRow_fixed (s : State) (l : Nat) : (s.lineStartedRow l).fixed = s.fixed := by simp [State.lineStartedRow]

@[simp] theorem State.stopBoundaryRow_fixed (s : State) (l : Nat) : (s.stopBoundaryRow l).fixed = s.fixed := by
  unfold State.stopBoundaryRow; dsimp only; (repeat' split) <;> simp

@[simp] theorem State.lineStoppedRow_fixed (s : State) (l : Nat) : (s.lineStoppedRow l).fixed = s.fixed := by simp [State.lineStoppedRow]
@[simp] theorem State.spotLaunchRow_fixed (s : State) (l : Nat) : (s.spotLaunchRow l).fixed = s.fixed := by simp [State.spotLaunchRow]

@[simp] theorem State.atCondQuire_fixed (s : State) (c : Nat) (f : State → State) (h : (f s).fixed = s.fixed) :
    (s.atCondQuire c f).fixed = s.fixed := by
  unfold State.atCondQuire; split <;> simp [h]

@[simp] theorem State.armRow_fixed (s : State) (c : Nat) : (s.armRow c).fixed = s.fixed := by simp [State.armRow]
@[simp] theorem State.rebaseRow_fixed (s : State) (c : Nat) : (s.rebaseRow c).fixed = s.fixed := by simp [State.rebaseRow]

/-! ### Reset, boot and restore -/

@[simp] theorem State.afterReset_fixed (s : State) (why : BootWhy) : (s.afterReset why).fixed = s.fixed := by rfl

@[simp] theorem State.sessionsEnded_fixed (s : State) (l : List Session) (state : Nat) : (s.sessionsEnded l state).fixed = s.fixed := by
  simp [State.sessionsEnded]

@[simp] theorem State.debugClosed_fixed (s : State) (old cause : Nat) : (s.debugClosed old cause).fixed = s.fixed := by simp [State.debugClosed]
@[simp] theorem State.resetWith_fixed (s : State) (why : BootWhy) : (s.resetWith why).fixed = s.fixed := by simp [State.resetWith]
@[simp] theorem State.coreReset_fixed (s : State) (why : BootWhy) : (s.coreReset why).fixed = s.fixed := by simp [State.coreReset]
@[simp] theorem State.resetBegins_fixed (s : State) : s.resetBegins.fixed = s.fixed := by unfold State.resetBegins; split <;> simp
@[simp] theorem State.resetPin_fixed (s : State) (lowNs : Nat) : (s.resetPin lowNs).fixed = s.fixed := by simp [State.resetPin]
@[simp] theorem State.watchdog_fixed (s : State) : s.watchdog.fixed = s.fixed := by simp [State.watchdog]
@[simp] theorem State.powerLoss_fixed (s : State) : s.powerLoss.fixed = s.fixed := by rfl
@[simp] theorem State.powerUp_fixed (s : State) : s.powerUp.fixed = s.fixed := by simp [State.powerUp]
@[simp] theorem State.fwEvent_fixed (s : State) (op slot version : Nat) : (s.fwEvent op slot version).fixed = s.fixed := by simp [State.fwEvent]
@[simp] theorem State.chooseFw_fixed (s : State) (ok : Nat → Bool) : (s.chooseFw ok).1.fixed = s.fixed := by simp [State.chooseFw]
@[simp] theorem State.bootLacks_fixed (s : State) (k i : Nat) : (s.bootLacks k i).fixed = s.fixed := by simp [State.bootLacks]

@[simp] theorem State.bootVacate_fixed (s : State) (k i : Nat) : (s.bootVacate k i).fixed = s.fixed := by
  unfold State.bootVacate; dsimp only; (repeat' split) <;> simp

@[simp] theorem State.applyRetirements_fixed (s : State) : s.applyRetirements.fixed = s.fixed := by simp [State.applyRetirements]
@[simp] theorem State.reportLosses_fixed (s : State) : s.reportLosses.fixed = s.fixed := by simp [State.reportLosses]

@[simp] theorem State.release_fixed (s : State) (f : BootFacts) : (s.release f).fixed = s.fixed := by
  unfold State.release; dsimp only; (repeat' split) <;> simp

@[simp] theorem State.trainDram_fixed (s : State) (mask : Nat) (cached : Bool) (ms : Nat) (failed changed : List Nat) :
    (s.trainDram mask cached ms failed changed).fixed = s.fixed := by
  simp [State.trainDram]

@[simp] theorem State.dramTrained_fixed (s : State) (cached : Bool) (ms : Nat) (failed changed : List Nat) :
    (s.dramTrained cached ms failed changed).fixed = s.fixed := by
  simp [State.dramTrained]

@[simp] theorem State.restoreCfg_fixed (s : State) (image : Retained) (saved resume : Bool) (kernelSigs : Nat) :
    (s.restoreCfg image saved resume kernelSigs).fixed = s.fixed := by
  have failed (l : List (Option Kernel × Option Kernel)) (s : State) : (l.foldl (fun s _ => s.authFailed 0x0601 0) s).fixed = s.fixed :=
    foldl_fixed _ (fun s _ => s.authFailed_fixed 0x0601 0) l s
  fun_cases State.restoreCfg s image saved resume kernelSigs
  · exact (foldl_fixed _ (fun s c => s.armOne_fixed c 0) _ _).trans (failed _ _)
  · exact failed _ _

@[simp] theorem State.ownStart_fixed (s : State) (lines : List Nat) : (s.ownStart lines).fixed = s.fixed := by
  unfold State.ownStart
  split
  · rfl
  · refine foldl_fixed _ (fun s l => ?_) _ _
    dsimp only; split <;> simp

@[simp] theorem State.mailboxesReady_fixed (s : State) : s.mailboxesReady.fixed = s.fixed := by rfl

@[simp] theorem State.bootEvent_fixed (s : State) (src generation lines : Nat) : (s.bootEvent src generation lines).fixed = s.fixed := by
  simp [State.bootEvent]

@[simp] theorem State.restoreComplete_fixed (s : State) (kernelSigs : Nat) : (s.restoreComplete kernelSigs).fixed = s.fixed := by
  simp [State.restoreComplete]

@[simp] theorem State.resumeLines_fixed (s : State) : s.resumeLines.fixed = s.fixed := by unfold State.resumeLines; split <;> simp

/-! ### Steps of the time base -/

@[simp] theorem State.wakeAtStep_fixed (s : State) (at_ l : Nat) : (s.wakeAtStep at_ l).fixed = s.fixed := by unfold State.wakeAtStep; split <;> simp

@[simp] theorem State.stepLine_fixed (s : State) (at_ : Nat) (phase : Bool) (discards l : Nat) :
    (s.stepLine at_ phase discards l).fixed = s.fixed := by
  unfold State.stepLine; split <;> simp

@[simp] theorem State.stepSpot_fixed (s old : State) (at_ l : Nat) : (s.stepSpot old at_ l).fixed = s.fixed := by
  unfold State.stepSpot; split <;> simp

@[simp] theorem State.stepScale_fixed (s : State) (at_ tick second : Nat) (phase : Bool) : (s.stepScale at_ tick second phase).fixed = s.fixed := by
  simp [State.stepScale]

@[simp] theorem State.fixPhase_fixed (s : State) : s.fixPhase.fixed = s.fixed := by simp [State.fixPhase]
@[simp] theorem State.tbStep_fixed (s : State) : s.tbStep.fixed = s.fixed := by unfold State.tbStep; split <;> simp
@[simp] theorem sysTime_fixed (c : Cmd) (s : State) : (sysTime c s).2.fixed = s.fixed := by simp [sysTime]

@[simp] theorem State.timeSetBoundary_fixed (s : State) : s.timeSetBoundary.fixed = s.fixed := by
  unfold State.timeSetBoundary; (repeat' split) <;> simp

@[simp] theorem State.holdoverEnd_fixed (s : State) : s.holdoverEnd.fixed = s.fixed := by simp [State.holdoverEnd]

/-! ### System commands -/

@[simp] theorem sysIdentify_fixed (c : Cmd) (s : State) : (sysIdentify c s).2.fixed = s.fixed := by rfl

@[simp] theorem State.beginSnapshot_fixed (s : State) (flags waitS running mb seq : Nat) (shutdown : Bool) :
    (s.beginSnapshot flags waitS running mb seq shutdown).fixed = s.fixed := by
  rfl

@[simp] theorem sysSnapshot_fixed (c : Cmd) (s : State) : (sysSnapshot c s).2.fixed = s.fixed := by simp [sysSnapshot]
@[simp] theorem State.withdrawStarts_fixed (s : State) : s.withdrawStarts.fixed = s.fixed := by simp [State.withdrawStarts]

@[simp] theorem State.ownStop_fixed (s : State) (mode : Nat) (applyAt : Option Nat) : (s.ownStop mode applyAt).fixed = s.fixed := by
  simp [State.ownStop]

@[simp] theorem State.ownDetach_fixed (s : State) (mode : Nat) : (s.ownDetach mode).fixed = s.fixed := by simp [State.ownDetach]
@[simp] theorem State.flushDie_fixed (s : State) : s.flushDie.fixed = s.fixed := by simp [State.flushDie]

@[simp] theorem State.powerOff_fixed (s : State) : s.powerOff.fixed = s.fixed := by
  unfold State.powerOff
  extract_lets s1 b y
  have h1 : s1.fixed = s.fixed := foldl_fixed _ (fun s i => by split <;> simp) _ _
  obtain ⟨-, -, hp⟩ := State.fixed_iff.1 h1
  rw [State.fixed_mk, State.blank_now, State.blank_build, hp, State.fixed_eta]

@[simp] theorem State.shutdownApplied_fixed (s : State) (d : Shutdown) : (s.shutdownApplied d).fixed = s.fixed := by
  unfold State.shutdownApplied; dsimp only; split <;> simp

@[simp] theorem State.shutdownStep_fixed (s : State) : s.shutdownStep.fixed = s.fixed := by unfold State.shutdownStep; (repeat' split) <;> simp
@[simp] theorem State.shutdownAdvance_fixed (s : State) : s.shutdownAdvance.fixed = s.fixed := by simp [State.shutdownAdvance]
@[simp] theorem sysShutdown_fixed (c : Cmd) (s : State) : (sysShutdown c s).2.fixed = s.fixed := by simp [sysShutdown]

@[simp] theorem State.shutdownComplete_fixed (s : State) : s.shutdownComplete.fixed = s.fixed := by
  unfold State.shutdownComplete; dsimp only; split <;> simp

@[simp] theorem State.snapshotCommitted_fixed (s : State) (ok : Bool) : (s.snapshotCommitted ok).fixed = s.fixed := by
  unfold State.snapshotCommitted; dsimp only; (repeat' split) <;> simp

@[simp] theorem State.schedule_fixed (s : State) (full : Bool) (cause : Nat) (source : Option Nat) (quick : Option Bool) (noResume : Bool) :
    (s.schedule full cause source quick noResume).fixed = s.fixed := by
  rfl

@[simp] theorem sysRestore_fixed (c : Cmd) (s : State) : (sysRestore c s).2.fixed = s.fixed := by simp [sysRestore]
@[simp] theorem sysReset_fixed (c : Cmd) (s : State) : (sysReset c s).2.fixed = s.fixed := by simp [sysReset]
@[simp] theorem sysStatus_fixed (c : Cmd) (s : State) : (sysStatus c s).2.fixed = s.fixed := by simp [sysStatus]
@[simp] theorem sysEvents_fixed (c : Cmd) (s : State) : (sysEvents c s).2.fixed = s.fixed := by simp [sysEvents]
@[simp] theorem State.eventRelease_fixed (s : State) : s.eventRelease.fixed = s.fixed := by unfold State.eventRelease; split <;> simp
@[simp] theorem State.heartbeat_fixed (s : State) : s.heartbeat.fixed = s.fixed := by simp [State.heartbeat]
@[simp] theorem State.warnRise_fixed (s : State) : s.warnRise.fixed = s.fixed := by simp [State.warnRise]
@[simp] theorem State.warnClear_fixed (s : State) : s.warnClear.fixed = s.fixed := by simp [State.warnClear]

/-! ### Security and debug access -/

@[simp] theorem State.closeDebug_fixed (s : State) (cause : Nat) : (s.closeDebug cause).fixed = s.fixed := by simp [State.closeDebug]
@[simp] theorem State.closeSessions_fixed (s : State) : s.closeSessions.fixed = s.fixed := by simp [State.closeSessions]
@[simp] theorem State.transition_fixed (s : State) (new_ cause : Nat) : (s.transition new_ cause).fixed = s.fixed := by simp [State.transition]
@[simp] theorem State.refuseToken_fixed (s : State) (op reason : Nat) : (s.refuseToken op reason).2.fixed = s.fixed := by simp [State.refuseToken]
@[simp] theorem State.withToken_fixed (s : State) (op kind : Nat) (signers : List Nat) (t : Token) (c : Cmd) (act : Resp × State)
    (h : act.2.fixed = s.fixed) : (s.withToken op kind signers t c act).2.fixed = s.fixed := by
  unfold State.withToken; split <;> simp [h]

@[simp] theorem secChallenge_fixed (c : Cmd) (s : State) : (secChallenge c s).2.fixed = s.fixed := by rfl
@[simp] theorem State.nonceExpiry_fixed (s : State) : s.nonceExpiry.fixed = s.fixed := by rfl
@[simp] theorem State.storeKey_fixed (s : State) (slot : Nat) (key : List Byte) : (s.storeKey slot key).fixed = s.fixed := by rfl
@[simp] theorem State.fuseOwner_fixed (s : State) (slot : Nat) (hash : List Byte) : (s.fuseOwner slot hash).fixed = s.fixed := by rfl

@[simp] theorem State.enrolAt_fixed (s : State) (slot : Nat) (key : List Byte) (progOk : Bool) : (s.enrolAt slot key progOk).2.fixed = s.fixed := by
  simp [State.enrolAt]

@[simp] theorem secEnroll_fixed (c : Cmd) (s : State) : (secEnroll c s).2.fixed = s.fixed := by unfold secEnroll; split <;> simp
@[simp] theorem secService_fixed (c : Cmd) (s : State) : (secService c s).2.fixed = s.fixed := by unfold secService; split <;> simp
@[simp] theorem State.serviceExpiry_fixed (s : State) : s.serviceExpiry.fixed = s.fixed := by simp [State.serviceExpiry]
@[simp] theorem State.scrapStops_fixed (s : State) : s.scrapStops.fixed = s.fixed := by unfold State.scrapStops; dsimp only; split <;> simp
@[simp] theorem State.scrapErase_fixed (s : State) : s.scrapErase.fixed = s.fixed := by rfl
@[simp] theorem State.dropSnapshot_fixed (s : State) : s.dropSnapshot.fixed = s.fixed := by unfold State.dropSnapshot; split <;> simp
@[simp] theorem secScrap_fixed (c : Cmd) (s : State) : (secScrap c s).2.fixed = s.fixed := by simp [secScrap]
@[simp] theorem State.fwVerify_fixed (s : State) (l : FwLoad) (sigOk : Bool) : (s.fwVerify l sigOk).2.fixed = s.fixed := by simp [State.fwVerify]
@[simp] theorem secFwLoad_fixed (c : Cmd) (s : State) : (secFwLoad c s).2.fixed = s.fixed := by unfold secFwLoad; (repeat' split) <;> simp

@[simp] theorem State.fwEraseDone_fixed (s : State) : s.fwEraseDone.fixed = s.fixed := by
  unfold State.fwEraseDone; dsimp only; (repeat' split) <;> simp

@[simp] theorem secFwControl_fixed (c : Cmd) (s : State) : (secFwControl c s).2.fixed = s.fixed := by unfold secFwControl; split <;> simp
@[simp] theorem State.trialTimeout_fixed (s : State) : s.trialTimeout.fixed = s.fixed := by simp [State.trialTimeout]
@[simp] theorem secSessionOpen_fixed (c : Cmd) (s : State) : (secSessionOpen c s).2.fixed = s.fixed := by simp [secSessionOpen]
@[simp] theorem State.endSession_fixed (s : State) (id state : Nat) : (s.endSession id state).fixed = s.fixed := by simp [State.endSession]
@[simp] theorem secSessionClose_fixed (c : Cmd) (s : State) : (secSessionClose c s).2.fixed = s.fixed := by simp [secSessionClose]

@[simp] theorem State.sessionExpiry_fixed (s : State) (id : Nat) : (s.sessionExpiry id).fixed = s.fixed := by
  unfold State.sessionExpiry; split <;> simp

@[simp] theorem secRights_fixed (c : Cmd) (s : State) : (secRights c s).2.fixed = s.fixed := by simp [secRights]
@[simp] theorem secStatus_fixed (c : Cmd) (s : State) : (secStatus c s).2.fixed = s.fixed := by rfl
@[simp] theorem State.openDebug_fixed (s : State) (level until_ : Nat) : (s.openDebug level until_).fixed = s.fixed := by simp [State.openDebug]
@[simp] theorem dbgOpen_fixed (c : Cmd) (s : State) : (dbgOpen c s).2.fixed = s.fixed := by unfold dbgOpen; dsimp only; split <;> simp
@[simp] theorem dbgClose_fixed (c : Cmd) (s : State) : (dbgClose c s).2.fixed = s.fixed := by simp [dbgClose]
@[simp] theorem State.debugExpiry_fixed (s : State) : s.debugExpiry.fixed = s.fixed := by simp [State.debugExpiry]
@[simp] theorem State.denyWindow_fixed (s : State) : s.denyWindow.fixed = s.fixed := by rfl
@[simp] theorem State.winBaseWrite_fixed (s : State) (v : BitVec 64) : (s.winBaseWrite v).fixed = s.fixed := by rfl
@[simp] theorem State.barRead_fixed (s : State) (offset n : Nat) : (s.barRead offset n).fixed = s.fixed := by simp [State.barRead]

@[simp] theorem State.barWrite_fixed (s : State) (offset : Nat) (data : List Byte) : (s.barWrite offset data).fixed = s.fixed := by
  simp [State.barWrite]

@[simp] theorem State.debugPoke_fixed (s : State) (o : Nat) (v : Byte) : (s.debugPoke o v).fixed = s.fixed := by simp [State.debugPoke]

@[simp] theorem State.debugAccess_fixed (s : State) (o : Nat) (write : Bool) (data : List Byte) : (s.debugAccess o write data).fixed = s.fixed := by
  simp [State.debugAccess]

@[simp] theorem State.haltCpc_fixed (s : State) : s.haltCpc.fixed = s.fixed := by simp [State.haltCpc]
@[simp] theorem State.runCpc_fixed (s : State) (halted : Bool) : (s.runCpc halted).fixed = s.fixed := by rfl
@[simp] theorem State.jtag_fixed (s : State) (op : JtagOp) : (s.jtag op).fixed = s.fixed := by unfold State.jtag; (repeat' split) <;> simp

/-! ### Power states -/

@[simp] theorem State.powerEvent_fixed (s : State) (old new_ : Nat) : (s.powerEvent old new_).fixed = s.fixed := by simp [State.powerEvent]
@[simp] theorem State.setPower_fixed (s : State) (v : Nat) : (s.setPower v).fixed = s.fixed := by rfl
@[simp] theorem State.setTransition_fixed (s : State) (p : Option PwrPend) : (s.setTransition p).fixed = s.fixed := by rfl
@[simp] theorem State.setKept_fixed (s : State) (m : Nat) : (s.setKept m).fixed = s.fixed := by rfl
@[simp] theorem State.setTrim_fixed (s : State) (trim : Bool) : (s.setTrim trim).fixed = s.fixed := by simp [State.setTrim]
@[simp] theorem pwrConfig_fixed (c : Cmd) (s : State) : (pwrConfig c s).2.fixed = s.fixed := by simp [pwrConfig]
@[simp] theorem pwrState_fixed (c : Cmd) (s : State) : (pwrState c s).2.fixed = s.fixed := by simp [pwrState]

@[simp] theorem State.powerApplied_fixed (s : State) (status : Nat) : (s.powerApplied status).fixed = s.fixed := by
  unfold State.powerApplied; split <;> simp

@[simp] theorem State.enterP2_fixed (s : State) : s.enterP2.fixed = s.fixed := by simp [State.enterP2]
@[simp] theorem State.p2Entered_fixed (s : State) : s.p2Entered.fixed = s.fixed := by unfold State.p2Entered; split <;> simp
@[simp] theorem State.resumeKept_fixed (s : State) (resume : Bool) : (s.resumeKept resume).fixed = s.fixed := by simp [State.resumeKept]
@[simp] theorem State.p2Exit_fixed (s : State) : s.p2Exit.fixed = s.fixed := by unfold State.p2Exit; split <;> simp
@[simp] theorem State.powerAdvance_fixed (s : State) : s.powerAdvance.fixed = s.fixed := by unfold State.powerAdvance; split <;> simp
@[simp] theorem State.writeRest_fixed (s : State) : s.writeRest.fixed = s.fixed := by rfl

@[simp] theorem State.p3Entered_fixed (s : State) (norOk : Bool) : (s.p3Entered norOk).fixed = s.fixed := by
  unfold State.p3Entered; dsimp only; split <;> simp

@[simp] theorem State.wakeFw_fixed (s : State) (ok : Nat → Bool) : (s.wakeFw ok).1.fixed = s.fixed := by simp [State.wakeFw]
@[simp] theorem State.wakeTime_fixed (s : State) : s.wakeTime.fixed = s.fixed := by unfold State.wakeTime; split <;> simp

@[simp] theorem State.p3Exit_fixed (s : State) (kernelSigs : Nat) (boot : BootFacts) (cached : Bool) (ms : Nat) (failed : List Nat) :
    (s.p3Exit kernelSigs boot cached ms failed).fixed = s.fixed := by
  unfold State.p3Exit; split <;> simp

@[simp] theorem State.advance_fixed (s : State) : s.advance.fixed = s.fixed := by simp [State.advance]
@[simp] theorem pwrStatus_fixed (c : Cmd) (s : State) : (pwrStatus c s).2.fixed = s.fixed := by rfl

/-! ### Registers and the SMBus -/

@[simp] theorem State.pokeByte_fixed (s : State) (a : Nat) (b : Byte) : (s.pokeByte a b).fixed = s.fixed := by simp [State.pokeByte]

@[simp] theorem State.registerWrite_fixed (s : State) (a : Nat) (data : List Byte) : (s.registerWrite a data).fixed = s.fixed := by
  simp [State.registerWrite]

@[simp] theorem State.clearDone_fixed (s : State) (n : Nat) : (s.clearDone n).fixed = s.fixed := by rfl

@[simp] theorem State.ltuneWrite_fixed (s : State) (reg : Nat) (code : BitVec 16) : (s.ltuneWrite reg code).fixed = s.fixed := by
  simp [State.ltuneWrite]

@[simp] theorem State.alertResponse_fixed (s : State) : s.alertResponse.fixed = s.fixed := by simp [State.alertResponse]

/-! ### Mailboxes -/

@[simp] theorem feltResizeAll_fixed (c : Cmd) (s : State) : (feltResizeAll c s).2.fixed = s.fixed := by simp [feltResizeAll]
@[simp] theorem unknownOp_fixed (c : Cmd) (s : State) : (unknownOp c s).2.fixed = s.fixed := by rfl
@[simp] theorem groupSys_fixed (n : Nat) (c : Cmd) (s : State) : (groupSys n c s).2.fixed = s.fixed := by unfold groupSys; split <;> simp
@[simp] theorem groupPlan_fixed (n : Nat) (c : Cmd) (s : State) : (groupPlan n c s).2.fixed = s.fixed := by unfold groupPlan; split <;> simp
@[simp] theorem groupRx_fixed (n : Nat) (c : Cmd) (s : State) : (groupRx n c s).2.fixed = s.fixed := by unfold groupRx; split <;> simp
@[simp] theorem groupLine_fixed (n : Nat) (c : Cmd) (s : State) : (groupLine n c s).2.fixed = s.fixed := by unfold groupLine; split <;> simp
@[simp] theorem groupFelt_fixed (n : Nat) (c : Cmd) (s : State) : (groupFelt n c s).2.fixed = s.fixed := by unfold groupFelt; split <;> simp
@[simp] theorem groupTile_fixed (n : Nat) (c : Cmd) (s : State) : (groupTile n c s).2.fixed = s.fixed := by unfold groupTile; split <;> simp
@[simp] theorem groupTrig_fixed (n : Nat) (c : Cmd) (s : State) : (groupTrig n c s).2.fixed = s.fixed := by unfold groupTrig; split <;> simp
@[simp] theorem groupTime_fixed (n : Nat) (c : Cmd) (s : State) : (groupTime n c s).2.fixed = s.fixed := by unfold groupTime; split <;> simp
@[simp] theorem groupTherm_fixed (n : Nat) (c : Cmd) (s : State) : (groupTherm n c s).2.fixed = s.fixed := by unfold groupTherm; split <;> simp
@[simp] theorem groupZone_fixed (n : Nat) (c : Cmd) (s : State) : (groupZone n c s).2.fixed = s.fixed := by unfold groupZone; split <;> simp
@[simp] theorem groupBale_fixed (n : Nat) (c : Cmd) (s : State) : (groupBale n c s).2.fixed = s.fixed := by unfold groupBale; split <;> simp
@[simp] theorem groupMem_fixed (n : Nat) (c : Cmd) (s : State) : (groupMem n c s).2.fixed = s.fixed := by unfold groupMem; split <;> simp
@[simp] theorem groupDma_fixed (n : Nat) (c : Cmd) (s : State) : (groupDma n c s).2.fixed = s.fixed := by unfold groupDma; split <;> simp
@[simp] theorem groupSec_fixed (n : Nat) (c : Cmd) (s : State) : (groupSec n c s).2.fixed = s.fixed := by unfold groupSec; split <;> simp
@[simp] theorem groupHealth_fixed (n : Nat) (c : Cmd) (s : State) : (groupHealth n c s).2.fixed = s.fixed := by unfold groupHealth; split <;> simp

@[simp] theorem handlerOf_fixed (op : Nat) (c : Cmd) (s : State) : (handlerOf op c s).2.fixed = s.fixed := by
  unfold handlerOf
  generalize op / 256 = g
  split <;> simp

@[simp] theorem State.runMailbox_fixed (s : State) (n : Nat) (fetched : List Byte) (facts : Facts) :
    (s.runMailbox n fetched facts).fixed = s.fixed := by
  simp [State.runMailbox]

@[simp] theorem State.mbDoorbell_fixed (s : State) (n : Nat) (fetched : List Byte) (facts : Facts) :
    (s.mbDoorbell n fetched facts).fixed = s.fixed := by
  simp [State.mbDoorbell]

@[simp] theorem State.heldRuns_fixed (s : State) (n : Nat) (fetched : List Byte) (facts : Facts) : (s.heldRuns n fetched facts).fixed = s.fixed := by
  simp [State.heldRuns]

@[simp] theorem State.frameRefused_fixed (s : State) (p sess reason : Nat) : (s.frameRefused p sess reason).fixed = s.fixed := by
  simp [State.frameRefused]

@[simp] theorem State.mailboxFrame_fixed (s : State) (p : Nat) (f : List Byte) (tagOk : Bool) (plain : List Byte) (facts : Facts) :
    (s.mailboxFrame p f tagOk plain facts).fixed = s.fixed := by
  simp [State.mailboxFrame]

/-! ### Counters -/

@[simp] theorem State.counterSaturated_fixed (s : State) (op off sel : Nat) : (s.counterSaturated op off sel).fixed = s.fixed := by
  simp [State.counterSaturated]

/-! ### Every command -/

/-- An outcome whose next state, if any, lies no earlier, on the same build and with the same commands waiting. -/
def KeepsTimeAndQueue (s : State) (o : Host.Outcome State Fault Refusal) : Prop :=
  ∀ u, o = .next u → s.now ≤ u.now ∧ u.build = s.build ∧ u.pending = s.pending

/-- Of an operation that keeps the fixed parts, `finish` makes a meaning that moves the clock to the later of its own instant and the command's. -/
theorem keepsTimeAndQueue_finish {t : Nat} {s : State} {f : State → State} (hf : ∀ s, (f s).fixed = s.fixed) :
    KeepsTimeAndQueue s (finish t s f) := by
  intro u hu
  obtain rfl : (f (s.atInstant t)).settle = u := Host.Outcome.next.inj hu
  have h : (f (s.atInstant t)).settle.fixed = (s.atInstant t).fixed := by rw [State.settle_fixed, hf]
  obtain ⟨hn, hb, hp⟩ := State.fixed_iff.1 h
  exact ⟨by rw [hn, State.atInstant_now]; exact Nat.le_max_left _ _, hb, hp⟩

theorem keepsTimeAndQueue_refused (s : State) (r : Refusal) : KeepsTimeAndQueue s (.refused r) :=
  fun _ h => by cases h

theorem keepsTimeAndQueue_jtag (t : Nat) (op : JtagOp) (s : State) : KeepsTimeAndQueue s (execJtagInstruction t op s) := by
  unfold execJtagInstruction
  split
  · exact keepsTimeAndQueue_refused s _
  · exact keepsTimeAndQueue_finish (fun s => s.jtag_fixed _)

theorem keepsTimeAndQueue_exec (i : Instr) (s : State) : KeepsTimeAndQueue s (exec i s) := by
  cases i with
  | jtagInstruction t op => exact keepsTimeAndQueue_jtag t op s
  | _ => unfold exec; exact keepsTimeAndQueue_finish (fun s => by simp)

/-- Settles O16: every meaning is `finish` of an operation that keeps the clock, the build and the queue; only a vendor JTAG instruction is refused. -/
theorem timeAndQueueAreKept : Obligations.TimeAndQueueAreKept :=
  fun i s u h => keepsTimeAndQueue_exec i s u h

end Sys2Proof.Machine

/-! PROOFS of plans and probes: the interlock on emission, the state after reset. -/

namespace Sys2Proof.Machine

/-! ### The interlock on emission (R4, R51, R60, R62, R569) -/

/-- A closed gate stays inactive as its window moves on. -/
theorem Gate.pass_close_openSince (g : Gate) (x now : Nat) : ((g.close x).pass now).openSince = none := by
  have hc : ∀ (g : Gate) (x : Nat), (g.close x).openSince = none := fun g x => by
    unfold Gate.close; split
    · rfl
    · assumption
  unfold Gate.pass
  split
  · exact hc _ now
  · exact hc g x

/-- Whether emission is forbidden is read of the interlock, the power state and the lifecycle alone. -/
theorem State.dark_congr {s u : State} (he : u.emit = s.emit) (hp : u.pwr = s.pwr) (hk : u.sec = s.sec) : u.dark = s.dark := by
  simp only [State.dark, he, hp, hk]

theorem State.lineEnabled_congr {s u : State} (hb : u.build = s.build) (l : Nat) : u.lineEnabled l = s.lineEnabled l := by
  rw [State.lineEnabled, State.lineCount, hb]; rfl

theorem State.settle_dark (s : State) : s.settle.dark = s.dark := State.dark_congr (by simp) (by simp) (by simp)

theorem State.settle_gateRun (s : State) : s.settle.gateRun = s.settleEmission.gateRun := by
  have hd : s.reportLost.reportDropped.settleFlags.dark = s.dark := State.dark_congr (by simp) (by simp) (by simp)
  have hl : ∀ l, s.reportLost.reportDropped.settleFlags.lineEnabled l = s.lineEnabled l := State.lineEnabled_congr (by simp)
  simp [State.settle, State.settleEmission, hd, hl]

theorem State.settle_probeRun (s : State) : s.settle.probeRun = s.settleEmission.probeRun := by
  have hd : s.reportLost.reportDropped.settleFlags.dark = s.dark := State.dark_congr (by simp) (by simp) (by simp)
  simp [State.settle, State.settleEmission, hd]

/-- A gate under the interlock: it is inactive while emission is forbidden, and always when its line is disabled. -/
theorem State.settle_gate_inactive (s : State) {n : Nat} {g : Gate} (hg : s.settle.gateRun[n]? = some g)
    (h : s.dark = true ∨ s.lineEnabled n = false) : g.openSince = none := by
  rw [State.settle_gateRun, State.settleEmission, List.getElem?_map, Option.map_eq_some_iff] at hg
  obtain ⟨⟨a, m⟩, ha, rfl⟩ := hg
  obtain ⟨-, rfl⟩ : s.gateRun[n]? = some a ∧ n = m := by
    simpa [List.getElem?_zipIdx, Option.map_eq_some_iff, eq_comm] using ha
  have hc : (s.dark || !s.lineEnabled n) = true := by simpa using h
  simp only [hc, if_true]
  exact Gate.pass_close_openSince a s.now s.now

/-- A settled state emits nothing while emission is forbidden. -/
theorem State.settle_emissionSafe (s : State) : s.settle.emissionSafe := by
  intro hd
  rw [State.settle_dark] at hd
  have hg : ∀ g ∈ s.settle.gateRun, g.openSince = none := fun g hm => by
    obtain ⟨n, hn⟩ := List.getElem?_of_mem hm
    exact s.settle_gate_inactive hn (.inl hd)
  have hp : ∀ p ∈ s.settle.probeRun, p.playing = none := by
    rw [State.settle_probeRun, State.settleEmission]
    simp only [hd, if_true, List.mem_map]
    rintro _ ⟨p, -, rfl⟩
    rfl
  simp only [State.quiet, Bool.and_eq_true, List.all_eq_true, Option.isNone_iff_eq_none]
  exact ⟨hg, hp⟩

/-- Every meaning is `finish` of an operation, or the command is refused. -/
theorem exec_finish (i : Instr) (s : State) : (∃ t f, exec i s = finish t s f) ∨ ∃ r, exec i s = .refused r := by
  cases i with
  | jtagInstruction t op =>
    show (∃ t' f, execJtagInstruction t op s = finish t' s f) ∨ ∃ r, execJtagInstruction t op s = .refused r
    unfold execJtagInstruction
    split
    · exact .inr ⟨_, rfl⟩
    · exact .inl ⟨_, _, rfl⟩
  | _ => unfold exec; exact .inl ⟨_, _, rfl⟩

/-- What a command answers has been settled. -/
theorem exec_next_settled {i : Instr} {s u : State} (h : exec i s = .next u) : ∃ v : State, u = v.settle := by
  obtain ⟨t, f, hf⟩ | ⟨r, hr⟩ := exec_finish i s
  · exact ⟨f (s.atInstant t), (Host.Outcome.next.inj (hf.symm.trans h)).symm⟩
  · cases hr.symm.trans h

/-- Settles O12: every state a command answers has been settled, and settling brings gates and probes under the interlock. -/
theorem emissionIsGated : Obligations.EmissionIsGated := by
  intro i s u h
  obtain ⟨v, rfl⟩ := exec_next_settled h
  refine ⟨v.settle_emissionSafe, fun hl => ?_, fun hp => ?_, fun n hn g hg => v.settle_gate_inactive hg (.inr ?_)⟩
  · simp only [State.dark, hl, Bool.not_false, Bool.true_or]
  · simp only [State.dark, hp, decide_true, Bool.or_true, Bool.true_or]
  · rwa [State.lineEnabled_congr (u := v.settle) (s := v) (by simp)] at hn

/-- Settles O4: the reset state is dark and quiet, lists no byte of DRAM, asserts no SMB_ALERT_N, and has no command pending. -/
theorem resetMeetsTheInvariants : Obligations.ResetMeetsTheInvariants := by
  refine ⟨fun _ => ?quiet, ?dark, ?canonical, fun hs => ?alert, ?pending⟩
  case quiet => decide
  case dark => rfl
  case canonical => rfl
  case alert => cases hs
  case pending => rfl

end Sys2Proof.Machine

/-! PROOFS of plans and probes: a timeline over a step of the time base, and a fall of EMIT_PERMIT during qualification. -/

namespace Sys2Proof.Machine

/-! ### What a response says (R455) -/

/-- A response's payload begins after its 32 bytes of header. -/
theorem respBytes_drop (seq : Nat) (r : Resp) (eff : BitVec 96) : (respBytes seq r eff).drop 32 = r.body := by
  have h : (u16 seq ++ u16 r.status ++ stampBytes eff ++ u16 r.body.length ++ zeros 14).length = 32 := by
    simp [u16, stampBytes, length_leBytes, zeros]
  rw [respBytes, ← h, List.drop_left]

/-- A mailbox holds one answer: two claims about its payload agree. -/
theorem State.answered_body_unique {u : State} {c : Cmd} {st st' : Nat} {b b' : List Byte} (h : u.answered c st b) (h' : u.answered c st' b') : b = b' := by
  obtain ⟨⟨eff, he⟩, -⟩ := h
  obtain ⟨⟨eff', he'⟩, -⟩ := h'
  have := congrArg (List.drop 32) (he.symm.trans he')
  simpa only [respBytes_drop] using this

/-- An admitted command that completes with a payload is answered with its handler's. -/
theorem body_of_completes {i : Instr} {t op : Nat} {h : Handler} {c : Cmd} {s : State} {st : Nat} {b : List Byte}
    (hx : exec i s = finish t s (fun s => s.hostCommand op h c)) (ha : (s.atInstant t).admits op c = true)
    (hm : (h c ((s.atInstant t).placed op c)).2.mbs.length = ((s.atInstant t).placed op c).mbs.length)
    (hc : Completes i s (fun u => u.answered c st b)) : b = (h c ((s.atInstant t).placed op c)).1.body := by
  obtain ⟨u, hu, hb⟩ := hc
  obtain ⟨v, hv, hv', -⟩ := completes_of_handler i t op h c s _ _ (fun _ => True) hx ha rfl hm (fun _ => trivial)
  obtain rfl : u = v := Host.Outcome.next.inj (hu.symm.trans hv)
  exact State.answered_body_unique hb hv'

/-! ### A timeline of a second within which the time base steps (R27, R70) -/

/-- A plan of one tone on line 0, launched at cell 0 of every 50 000. -/
def onePlan : Plan :=
  { line := 0, probe := 0, decim := 0, period := 50000, offset := 0, first := 0, last := 999, blanket := 0, pitch := 1, thermMode := 0, gauge := 10
    riseFd := 0, fallFd := 0, thermN := 0, thermSlot := 0, thermCh := 0, thermStagger := 0, thermWidth := 0, thermAmp := 0
    tones := [⟨0, 0, 0, 0, 0xFF, 10, 1⟩] }

/-- A part in operation with that plan in effect, whose time base stepped one cell after second 0 began: R27 counts that second's launches from the
step, so its first one is at cell 50 000. -/
def steppedInSecond : State :=
  { State.reset with
    sys := { State.reset.sys with bootState := 4 }
    mbs := State.reset.mbs.map (fun m => { m with st := 0 })
    pwr := ⟨0, none, true, false⟩
    tb := { State.reset.tb with scaleFrom := ticksPerCell }
    cfg := { State.reset.cfg with plans := State.reset.cfg.plans.set 0 (some onePlan) } }

/-- `plan.timeline` for one launch of line 0 in second 0, from sheet index 0. -/
def askFirstLaunch : Cmd := ⟨0, none, 0, 1, 16, 0#96, 0, 0, u8 0 ++ u8 0 ++ u16 1 ++ u64 0 ++ u32 0, default⟩

set_option maxRecDepth 100000 in
/-- The device takes that command, and answers the launch at cell 50 000. -/
theorem planTimeline_steppedInSecond :
    (steppedInSecond.atInstant ticksPerCell).admits 0x0203 askFirstLaunch = true ∧
      planTimeline askFirstLaunch ((steppedInSecond.atInstant ticksPerCell).placed 0x0203 askFirstLaunch) =
        okWith ((steppedInSecond.atInstant ticksPerCell).placed 0x0203 askFirstLaunch) (u32 50000 ++ u8 0 ++ u8 0xFF ++ u16 0) := by
  decide

set_option maxRecDepth 100000 in
/-- Refutes O27: `PlanTimelineCompletes` seeks a second's launches from its own first cell, the device from the step of the time base within it. Asked
for the first launch of such a second, the device answers cell 50 000 and the statement cell 0. -/
theorem not_planCommandsComplete : ¬ Obligations.PlanCommandsComplete := by
  rintro ⟨-, -, -, -, htimeline, -⟩
  obtain ⟨hadmits, hanswer⟩ := planTimeline_steppedInSecond
  have hc := htimeline ticksPerCell onePlan askFirstLaunch steppedInSecond hadmits (by decide) (by decide) (by decide) (by decide) (by decide) (by decide)
  have hbody := body_of_completes rfl hadmits (by rw [hanswer]; rfl) hc
  rw [hanswer] at hbody
  exact absurd hbody (by decide)

/-! ### A fall of EMIT_PERMIT during qualification (R569) -/

/-- A fall during qualification begins no inhibition. -/
theorem State.emitFall_emit_of_qualifying {s : State} (hl : s.emit.level = true) (hq : s.emit.qualifyFrom.isSome = true) :
    s.emitFall.emit = { s.emit with level := false, qualifyFrom := none } := by
  have hcut : ∀ (ls : List Nat) (s : State), (ls.foldl (fun s l => s.cutLaunches l) s).emit = s.emit := fun ls => by
    induction ls with
    | nil => exact fun _ => rfl
    | cons l ls ih => exact fun s => ih (s.cutLaunches l)
  simp [State.emitFall, hl, hq, hcut]

/-- Refutes O28: `EmitPermitFallCompletes` has every fall leave an inhibition running, but a fall during qualification begins none (R569): after
EMIT_PERMIT has risen on the reset state and fallen again before its 10 µs, none runs. -/
theorem not_launchesComplete : ¬ Obligations.LaunchesComplete := by
  rintro ⟨-, -, -, -, -, -, -, hfall, -, -⟩
  obtain ⟨u, hu, -, -, hsince, -⟩ := hfall 0 State.reset.emitRise rfl
  obtain rfl : (State.reset.emitRise.atInstant 0).emitFall.settle = u := Host.Outcome.next.inj hu
  have hemit : (State.reset.emitRise.atInstant 0).emitFall.emit = ⟨false, none, none, []⟩ := State.emitFall_emit_of_qualifying rfl rfl
  simp [hemit] at hsince

end Sys2Proof.Machine


/-! PROOFS of frames: what the operations of plans, probes, launches, receivers and the calender leave as it was. -/

namespace Sys2Proof.Machine

/-! ### A component of the state

`State.keeps` compares two states component by component. `State.part` is the function that it compares by, so that a frame is an equation which `simp`
carries through branches, folds and compositions: one lemma `<operation>_part` per operation names the components it may write, and every other one of
the state it answers is that of the state it was given. -/

/-- The type of a component as a frame reads it. -/
def StatePart.Val : StatePart → Type
  | .freeUse => Nat
  | .sys => Sys
  | .cfg => Retained
  | .mbs => List Mailbox
  | .pend => List Pend
  | .tb => TimeBase
  | .tiu => TiuState
  | .trail => Trail
  | .grid => List LineGrid
  | .emit => Emit
  | .lines => List LineRun
  | .ctxs => List Ctx
  | .streams => List (Option StreamRun)
  | .ports => List PortRun
  | .vectors => List Vector
  | .pcie => Pcie
  | .sec => Security
  | .dbg => Debug
  | .pwr => Power
  | .health => Health
  | .dram => List Host.Cell
  | .ltune => List (BitVec 16)
  | .quads => List QuadRun
  | .cal => Cal
  | .refPath => List RefPath
  | .felt => List FeltRing
  | .slow => List SlowRun
  | .tiles => TilePool
  | .mem => MemRun
  | .trig => TrigState
  | .therm => Therm
  | .zones => List ZoneRun
  | .panel => Panel
  | .bale => BaleRun
  | .memMask => Nat
  | .capMibNow => Nat

/-- A component of a state, but for what moves at every command. -/
def State.part (s : State) : (p : StatePart) → p.Val
  | .freeUse => s.free
  | .sys => s.sys.kept
  | .cfg => s.cfg
  | .mbs => s.mbs
  | .pend => s.pend
  | .tb => s.tb
  | .tiu => s.tiu
  | .trail => s.trail
  | .grid => s.grid
  | .emit => s.emit
  | .lines => s.lines
  | .ctxs => s.ctxs
  | .streams => s.streams
  | .ports => s.ports.map PortRun.kept
  | .vectors => s.vectors.map Vector.kept
  | .pcie => s.pcie
  | .sec => s.sec.kept
  | .dbg => s.dbg
  | .pwr => s.pwr
  | .health => s.health.kept
  | .dram => s.dram
  | .ltune => s.ltune
  | .quads => s.quads
  | .cal => s.cal
  | .refPath => s.ref2
  | .felt => s.felt
  | .slow => s.slow
  | .tiles => s.tiles
  | .mem => s.mem
  | .trig => s.trig
  | .therm => s.therm
  | .zones => mutedZones s.zones
  | .panel => s.panel.kept
  | .bale => s.bale
  | .memMask => s.memMask
  | .capMibNow => s.capMibNow

theorem State.keeps_iff {s u : State} {p : StatePart} : s.keeps u p ↔ u.part p = s.part p := by
  cases p <;> exact Iff.rfl

section
variable {p : StatePart}

@[simp] theorem State.part_ite (c : Prop) [Decidable c] (s u : State) : (if c then s else u).part p = if c then s.part p else u.part p :=
  apply_ite (fun s => State.part s p) c s u

@[simp] theorem State.part_snd_ite {α : Type} (c : Prop) [Decidable c] (a b : α × State) :
    (if c then a else b).2.part p = if c then a.2.part p else b.2.part p :=
  apply_ite (fun a => State.part a.2 p) c a b

@[simp] theorem State.part_fst_ite {α : Type} (c : Prop) [Decidable c] (a b : State × α) :
    (if c then a else b).1.part p = if c then a.1.part p else b.1.part p :=
  apply_ite (fun a => State.part a.1 p) c a b

/-- A fold keeps a component when every step does. -/
theorem foldl_part {α : Type} (f : State → α → State) (h : ∀ s a, (f s a).part p = s.part p) (l : List α) (s : State) :
    (l.foldl f s).part p = s.part p := by
  induction l generalizing s with
  | nil => rfl
  | cons a l ih => rw [List.foldl_cons, ih, h]

/-! ### Updates of one component -/

@[simp] theorem State.modCfg_part (s : State) (f : Retained → Retained) (h : p ≠ .cfg) : (s.modCfg f).part p = s.part p := by
  cases p with
  | cfg => exact absurd rfl h
  | _ => rfl

@[simp] theorem State.modTiu_part (s : State) (f : TiuState → TiuState) (h : p ≠ .tiu) : (s.modTiu f).part p = s.part p := by
  cases p with
  | tiu => exact absurd rfl h
  | _ => rfl

@[simp] theorem State.modHealth_part (s : State) (f : Health → Health) (h : p ≠ .health) : (s.modHealth f).part p = s.part p := by
  cases p with
  | health => exact absurd rfl h
  | _ => rfl

@[simp] theorem State.modGrid_part (s : State) (l : Nat) (f : LineGrid → LineGrid) (h : p ≠ .grid) : (s.modGrid l f).part p = s.part p := by
  cases p with
  | grid => exact absurd rfl h
  | _ => rfl

@[simp] theorem State.modLine_part (s : State) (l : Nat) (f : LineRun → LineRun) (h : p ≠ .lines) : (s.modLine l f).part p = s.part p := by
  cases p with
  | lines => exact absurd rfl h
  | _ => rfl

@[simp] theorem State.modMb_part (s : State) (n : Nat) (f : Mailbox → Mailbox) (h : p ≠ .mbs) : (s.modMb n f).part p = s.part p := by
  cases p with
  | mbs => exact absurd rfl h
  | _ => rfl

@[simp] theorem State.modQuad_part (s : State) (q : Nat) (f : QuadRun → QuadRun) (h : p ≠ .quads) : (s.modQuad q f).part p = s.part p := by
  cases p with
  | quads => exact absurd rfl h
  | _ => rfl

@[simp] theorem State.modTherm_part (s : State) (f : Therm → Therm) (h : p ≠ .therm) : (s.modTherm f).part p = s.part p := by
  cases p with
  | therm => exact absurd rfl h
  | _ => rfl

@[simp] theorem State.modTrig_part (s : State) (f : TrigState → TrigState) (h : p ≠ .trig) : (s.modTrig f).part p = s.part p := by
  cases p with
  | trig => exact absurd rfl h
  | _ => rfl

@[simp] theorem State.setCal_part (s : State) (c : Cal) (h : p ≠ .cal) : ({ s with cal := c }).part p = s.part p := by
  cases p with
  | cal => exact absurd rfl h
  | _ => rfl

@[simp] theorem State.setQuads_part (s : State) (l : List QuadRun) (h : p ≠ .quads) : ({ s with quads := l }).part p = s.part p := by
  cases p with
  | quads => exact absurd rfl h
  | _ => rfl

@[simp] theorem State.setEmit_part (s : State) (e : Emit) (h : p ≠ .emit) : ({ s with emit := e }).part p = s.part p := by
  cases p with
  | emit => exact absurd rfl h
  | _ => rfl

/-! Gates, probe DACs and the outputs of a step are in no component. -/

@[simp] theorem State.setGateRun_part (s : State) (l : List Gate) : ({ s with gateRun := l }).part p = s.part p := by cases p <;> rfl
@[simp] theorem State.setProbeRun_part (s : State) (l : List ProbeRun) : ({ s with probeRun := l }).part p = s.part p := by cases p <;> rfl
@[simp] theorem State.emit1_part (s : State) (o : Out) : (s.emit1 o).part p = s.part p := by cases p <;> rfl

/-! ### Shared operations -/

@[simp] theorem State.raise_part (s : State) (code sev src : Nat) (stamp : BitVec 96) (inst : Nat) (args : List Byte) (key : Option (List Nat)) :
    (s.raise code sev src stamp inst args key).part p = s.part p := by
  cases p <;> simp [State.part, StatePart.Val]

@[simp] theorem State.raiseNow_part (s : State) (code sev src : Nat) (args : List Byte) (key : Option (List Nat)) :
    (s.raiseNow code sev src args key).part p = s.part p := by
  simp [State.raiseNow]

@[simp] theorem State.raiseLine_part (s : State) (code sev l x : Nat) (args : List Byte) (key : Option (List Nat)) :
    (s.raiseLine code sev l x args key).part p = s.part p := by
  simp [State.raiseLine]

@[simp] theorem State.applied_part (s : State) (q : Pend) (src : Nat) (stamp : BitVec 96) (inst status : Nat) :
    (s.applied q src stamp inst status).part p = s.part p := by
  simp [State.applied]

@[simp] theorem State.strike_part (s : State) (op unit : Nat) (h : p ≠ .pend) : (s.strike op unit).part p = s.part p := by
  cases p with
  | pend => exact absurd rfl h
  | _ => rfl

@[simp] theorem State.settle_part (s : State) : s.settle.part p = s.part p := by
  cases p <;> simp [State.part, StatePart.Val]

@[simp] theorem State.atInstant_part (s : State) (t : Nat) : (s.atInstant t).part p = s.part p := by
  cases p <;> rfl

/-- What an operation keeps, the command that is that operation keeps. -/
theorem part_of_finish {t : Nat} {s u : State} {f : State → State} (hu : finish t s f = .next u) (hf : ∀ s, (f s).part p = s.part p) :
    u.part p = s.part p := by
  obtain rfl : (f (s.atInstant t)).settle = u := Host.Outcome.next.inj hu
  rw [State.settle_part, hf, State.atInstant_part]

/-! ### The command protocol -/

/-- Updating one entry in a way that a reading of the entries does not see changes nothing of that reading. -/
theorem map_upd {α β : Type} (l : List α) (n : Nat) (f : α → α) (g : α → β) (h : ∀ a, g (f a) = g a) : (upd l n f).map g = l.map g := by
  induction l generalizing n with
  | nil => simp [upd]
  | cons a l ih =>
    cases n with
    | zero => simp [upd, h]
    | succ n => simpa [upd] using ih n

/-- A session but for its frame counters. -/
def Session.kept (e : Session) : Session := { e with rxCounter := none, txCounter := 0 }

theorem Security.kept_mapSessions (k : Security) (f : Session → Session) (h : ∀ e, (f e).kept = e.kept) :
    ({ k with sessions := k.sessions.map f } : Security).kept = k.kept := by
  have hs : (k.sessions.map f).map Session.kept = k.sessions.map Session.kept := by
    rw [List.map_map]
    exact List.map_congr_left fun e _ => h e
  exact congrArg (fun l => ({ k with nonces := [], authFails := 0, sessions := l } : Security)) hs

/-- The counts of duplicate and stale sequences are in no component. -/
theorem State.modSys_part_of_kept (s : State) (f : Sys → Sys) (h : ∀ y, (f y).kept = y.kept) : (s.modSys f).part p = s.part p := by
  cases p with
  | sys => exact h s.sys
  | _ => rfl

@[simp] theorem State.cause_part (s : State) (v : Nat) : (s.cause v).part p = s.part p := by
  cases p with
  | vectors => exact map_upd _ _ _ _ fun _ => rfl
  | _ => rfl

@[simp] theorem State.presentNonce_part (s : State) (op : Nat) (c : Cmd) : (s.presentNonce op c).part p = s.part p := by
  unfold State.presentNonce
  split
  · cases p <;> rfl
  · rfl

@[simp] theorem State.sendFrame_part (s : State) (port sess : Nat) (data : List Byte) : (s.sendFrame port sess data).part p = s.part p := by
  cases p with
  | sec => exact s.sec.kept_mapSessions _ fun e => by split <;> rfl
  | ports => exact map_upd _ _ _ _ fun _ => rfl
  | _ => rfl

@[simp] theorem State.respond_part (s : State) (c : Cmd) (bytes : List Byte) (h : p ≠ .mbs) : (s.respond c bytes).part p = s.part p := by
  unfold State.respond
  split <;> simp [h]

@[simp] theorem State.answer_part (s : State) (c : Cmd) (r : Resp) (eff : BitVec 96) (h : p ≠ .mbs) : (s.answer c r eff).part p = s.part p := by
  simp [State.answer, h]

@[simp] theorem reject_part (s : State) (st : Nat) : (reject s st).2.part p = s.part p := by rfl
@[simp] theorem okWith_part (s : State) (body : List Byte) : (okWith s body).2.part p = s.part p := by rfl
@[simp] theorem okay_part (s : State) : (okay s).2.part p = s.part p := by rfl

@[simp] theorem pendWith_part (s : State) (c : Cmd) (op : Nat) (units : List Nat) (due : Option Nat) (h : p ≠ .pend) :
    (pendWith s c op units due).2.part p = s.part p := by
  cases p with
  | pend => exact absurd rfl h
  | _ => rfl

/-- What a handler keeps, judging its command keeps. -/
theorem judge_part (op : Nat) (f : Handler) (c : Cmd) (s : State) (hf : ∀ c s, (f c s).2.part p = s.part p) :
    (judge op f c s).2.part p = s.part p := by
  unfold judge
  split <;> simp [hf]

/-- What a handler keeps, serving its command keeps but for the mailboxes. -/
theorem State.serve_part (s : State) (op : Nat) (f : Handler) (c : Cmd) (h : p ≠ .mbs) (hf : ∀ c s, (f c s).2.part p = s.part p) :
    (s.serve op f c).part p = s.part p := by
  have hdup : (s.modSys (fun y => { y with duplicates := satAdd y.duplicates 1 })).part p = s.part p := s.modSys_part_of_kept _ fun _ => rfl
  have hstale : (s.modSys (fun y => { y with stale := satAdd y.stale 1 })).part p = s.part p := s.modSys_part_of_kept _ fun _ => rfl
  simp [State.serve, h, hdup, hstale, judge_part op f c s hf]

/-- What a handler keeps, its command keeps but for the mailboxes. -/
theorem State.hostCommand_part (s : State) (op : Nat) (f : Handler) (c : Cmd) (h : p ≠ .mbs) (hf : ∀ c s, (f c s).2.part p = s.part p) :
    (s.hostCommand op f c).part p = s.part p := by
  have hserve : ∀ s : State, (s.serve op f c).part p = s.part p := fun s => s.serve_part op f c h hf
  unfold State.hostCommand
  split <;> simp [h, hserve]

/-- What a handler keeps, the row that serves its command keeps but for the mailboxes. -/
theorem part_of_hostCommand {t op : Nat} {s u : State} {f : Handler} {c : Cmd} (hu : finish t s (fun s => s.hostCommand op f c) = .next u)
    (h : p ≠ .mbs) (hf : ∀ c s, (f c s).2.part p = s.part p) : u.part p = s.part p :=
  part_of_finish hu fun s => s.hostCommand_part op f c h hf

/-! ### Units of the hamper, interval armings, triggers and zones -/

@[simp] theorem State.detect_part (s : State) (k i : Nat) (h : p ≠ .health) : (s.detect k i).part p = s.part p := s.modHealth_part _ h
@[simp] theorem State.beginTest_part (s : State) (k i : Nat) (h : p ≠ .health) : (s.beginTest k i).part p = s.part p := s.modHealth_part _ h
@[simp] theorem State.testIfDue_part (s : State) (k i : Nat) (h : p ≠ .health) : (s.testIfDue k i).part p = s.part p := by simp [State.testIfDue, h]
@[simp] theorem State.clearSat_part (s : State) (op sel : Nat) (h : p ≠ .health) : (s.clearSat op sel).part p = s.part p := s.modHealth_part _ h
@[simp] theorem State.tiuEvent_part (s : State) (src arg x : Nat) (h : p ≠ .tiu) : (s.tiuEvent src arg x).part p = s.part p := s.modTiu_part _ h

@[simp] theorem State.toZones_part (s : State) (sel : ZoneDef → Bool) (i : ZoneIn) (h : p ≠ .zones) : (s.toZones sel i).part p = s.part p := by
  unfold State.toZones
  split
  · rfl
  · cases p with
    | zones => exact absurd rfl h
    | _ => rfl

@[simp] theorem State.meet_part (s : State) (c inst : Nat) (stamp : BitVec 96) (node : Nat) (sample : Option Nat) (lines : Nat) (h : p ∉ [.trig, .zones]) :
    (s.meet c inst stamp node sample lines).part p = s.part p := by
  simp at h
  unfold State.meet
  split <;> simp [State.pulseOuts, State.queueBcast, State.rawHit, State.lineHit, h]

/-! ### Plans, probes, gate bounds and spot shots -/

@[simp] theorem planDefine_part (c : Cmd) (s : State) (h : p ≠ .grid) : (planDefine c s).2.part p = s.part p := by
  unfold planDefine
  split <;> simp [h]

@[simp] theorem planApply_part (c : Cmd) (s : State) (h : p ≠ .pend) : (planApply c s).2.part p = s.part p := by
  fun_cases planApply c s <;> simp [h]

@[simp] theorem planTimeline_part (c : Cmd) (s : State) : (planTimeline c s).2.part p = s.part p := by
  fun_cases planTimeline c s <;> simp

@[simp] theorem planStatus_part (c : Cmd) (s : State) (h : p ∉ [.grid, .health]) : (planStatus c s).2.part p = s.part p := by
  simp at h
  simp [planStatus, foldl_part, h]

@[simp] theorem probeConfig_part (c : Cmd) (s : State) (h : p ∉ [.cfg, .pend]) : (probeConfig c s).2.part p = s.part p := by
  simp at h
  simp [probeConfig, h]

@[simp] theorem State.idleCodeChange_part (s : State) (b : Nat) (h : p ∉ [.cfg, .pend]) : (s.idleCodeChange b).part p = s.part p := by
  simp at h
  unfold State.idleCodeChange
  split <;> simp [h]

@[simp] theorem probeLoad_part (c : Cmd) (s : State) (h : p ≠ .cfg) : (probeLoad c s).2.part p = s.part p := by
  simp [probeLoad, h]

@[simp] theorem planGateLimit_part (c : Cmd) (s : State) (h : p ≠ .pend) : (planGateLimit c s).2.part p = s.part p := by
  simp [planGateLimit, h]

@[simp] theorem State.gateLimitEffect_part (s : State) (g : Nat) (h : p ∉ [.cfg, .pend]) : (s.gateLimitEffect g).part p = s.part p := by
  simp at h
  unfold State.gateLimitEffect
  split <;> simp [h]

@[simp] theorem planSpot_part (c : Cmd) (s : State) (h : p ≠ .grid) : (planSpot c s).2.part p = s.part p := by
  fun_cases planSpot c s <;> simp [h]

/-! ### The calender's registers -/

@[simp] theorem State.modCal_part (s : State) (q : Nat) (f : CalQuad → CalQuad) (h : p ≠ .cal) : (s.modCal q f).part p = s.part p := s.setCal_part _ h

@[simp] theorem State.modConvMark_part (s : State) (q j g : Nat) (f : SetMark → SetMark) (h : p ≠ .cal) : (s.modConvMark q j g f).part p = s.part p :=
  s.setCal_part _ h

@[simp] theorem State.modPairMark_part (s : State) (q k g : Nat) (f : SetMark → SetMark) (h : p ≠ .cal) : (s.modPairMark q k g f).part p = s.part p :=
  s.setCal_part _ h

@[simp] theorem State.setConv_part (s : State) (q j g : Nat) (v : ConvSet) (h : p ≠ .cfg) : (s.setConv q j g v).part p = s.part p := s.modCfg_part _ h
@[simp] theorem State.setPair_part (s : State) (q k g : Nat) (v : PairSet) (h : p ≠ .cfg) : (s.setPair q k g v).part p = s.part p := s.modCfg_part _ h
@[simp] theorem State.dropBlocks_part (s : State) (q x : Nat) (h : p ≠ .cal) : (s.dropBlocks q x).part p = s.part p := s.modCal_part q _ h

@[simp] theorem State.takeBlock_part (s : State) (q j : Nat) (b : List GathCell) (h : p ≠ .cal) : (s.takeBlock q j b).part p = s.part p :=
  s.modCal_part q _ h

@[simp] theorem State.shootCal_part (s : State) (l : Nat) (e : Launch) (t : Nat) (h : p ≠ .cal) : (s.shootCal l e t).part p = s.part p :=
  s.modCal_part l _ h

@[simp] theorem State.setConvs_part (s : State) (q x : Nat) (f : List Conv → List Conv) (h : p ≠ .quads) : (s.setConvs q x f).part p = s.part p :=
  s.modQuad_part q _ h

/-! ### Launches, gates and the interlock -/

@[simp] theorem State.thermEarly_part (s : State) (l x : Nat) (stay : Bool) (h : p ≠ .therm) : (s.thermEarly l x stay).part p = s.part p := by
  unfold State.thermEarly
  split <;> simp [h]

@[simp] theorem State.thermSee_part (s : State) (l : Nat) (e : Launch) (h : p ≠ .therm) : (s.thermSee l e).part p = s.part p := by
  unfold State.thermSee
  split <;> simp [h]

@[simp] theorem State.planEffect_part (s : State) (l : Nat) (change : Bool) (h : p ∉ [.cfg, .pend, .grid, .lines, .cal, .therm]) :
    (s.planEffect l change).part p = s.part p := by
  simp at h
  unfold State.planEffect
  split <;> simp [h]

@[simp] theorem State.playProbe_part (s : State) (e : Launch) : (s.playProbe e).part p = s.part p := by simp [State.playProbe]
@[simp] theorem State.bumpGrid_part (s : State) (l : Nat) (f : LineGrid → LineGrid) (h : p ≠ .grid) : (s.bumpGrid l f).part p = s.part p :=
  s.modGrid_part l f h

@[simp] theorem State.fire_part (s : State) (l : Nat) (e : Launch) (h : p ≠ .grid) : (s.fire l e).1.part p = s.part p := by simp [State.fire, h]

@[simp] theorem State.gridLaunch_part (s : State) (l : Nat) (h : p ∉ [.tiu, .grid, .lines, .cal, .therm]) : (s.gridLaunch l).part p = s.part p := by
  simp at h
  unfold State.gridLaunch
  (repeat' split) <;> simp [h, -State.modCal_eq]

@[simp] theorem State.spotLaunch_part (s : State) (l : Nat) (h : p ∉ [.grid, .trig, .zones]) : (s.spotLaunch l).part p = s.part p := by
  simp at h
  unfold State.spotLaunch
  dsimp only
  (repeat' split) <;> simp [h]

@[simp] theorem State.armShot_part (s : State) (l x : Nat) (h : p ≠ .tiu) : (s.armShot l x).part p = s.part p := by
  unfold State.armShot
  split <;> simp [h]

@[simp] theorem State.nextZeroShot_part (s : State) (l : Nat) (h : p ∉ [.tiu, .grid]) : (s.nextZeroShot l).part p = s.part p := by
  simp at h
  unfold State.nextZeroShot
  (repeat' split) <;> simp [h]

@[simp] theorem State.spotLaunchRow_part (s : State) (l : Nat) (h : p ∉ [.tiu, .grid, .trig, .zones]) : (s.spotLaunchRow l).part p = s.part p := by
  simp at h
  simp [State.spotLaunchRow, h]

@[simp] theorem State.dutyTruncated_part (s : State) (l : Nat) (h : p ≠ .grid) : (s.dutyTruncated l).part p = s.part p := by
  simp [State.dutyTruncated, foldl_part, h]

@[simp] theorem State.cutLaunches_part (s : State) (l : Nat) (h : p ∉ [.grid, .cal, .therm]) : (s.cutLaunches l).part p = s.part p := by
  cases p with
  | grid | cal | therm => simp at h
  | _ => rfl

@[simp] theorem State.emitFall_part (s : State) (h : p ∉ [.grid, .emit, .cal, .therm]) : s.emitFall.part p = s.part p := by
  simp at h
  simp [State.emitFall, foldl_part, h]

@[simp] theorem State.emitRise_part (s : State) (h : p ≠ .emit) : s.emitRise.part p = s.part p := by
  simp [State.emitRise, h]

@[simp] theorem State.emitQualified_part (s : State) (h : p ≠ .emit) : s.emitQualified.part p = s.part p := by
  unfold State.emitQualified
  split <;> simp [h]

/-! ### Lane words -/

@[simp] theorem State.countClip_part (s : State) (q i x : Nat) (h : p ∉ [.grid, .quads]) : (s.countClip q i x).part p = s.part p := by
  simp at h
  simp [State.countClip, h]

@[simp] theorem State.keepWord_part (s : State) (q role x : Nat) (vNv : Int) (w : BitVec 16) (h : p ∉ [.grid, .quads]) :
    (s.keepWord q role x vNv w).part p = s.part p := by
  simp at h
  unfold State.keepWord
  split <;> simp [h]

@[simp] theorem State.gatherWord_part (s : State) (q role x : Nat) (w : BitVec 16) (h : p ≠ .cal) : (s.gatherWord q role x w).part p = s.part p := by
  unfold State.gatherWord
  split <;> simp [h, -State.modCal_eq]

@[simp] theorem State.closeSheet_part (s : State) (l : Nat) (e : Launch) (late : Nat) (h : p ≠ .quads) : (s.closeSheet l e late).part p = s.part p := by
  simp [State.closeSheet, foldl_part, h]

@[simp] theorem State.closeThermal_part (s : State) (q x : Nat) (h : p ∉ [.grid, .quads]) : (s.closeThermal q x).part p = s.part p := by
  simp at h
  simp [State.closeThermal, foldl_part, h]

@[simp] theorem State.laneConds_part (s : State) (q role x : Nat) (w : BitVec 16) (h : p ∉ [.trig, .zones]) :
    (s.laneConds q role x w).part p = s.part p := by
  simp at h
  refine foldl_part _ (fun s k => ?_) _ _
  dsimp only
  split <;> simp [State.laneCond, h]

@[simp] theorem State.rawWrite_part (s : State) (n x : Nat) (stamp : BitVec 96) (bytes : List Byte) (h : p ≠ .trig) :
    (s.rawWrite n x stamp bytes).part p = s.part p :=
  s.modTrig_part _ h

@[simp] theorem State.rawLane_part (s : State) (q role x : Nat) (w : BitVec 16) (h : p ≠ .trig) : (s.rawLane q role x w).part p = s.part p :=
  foldl_part _ (fun s n => by simp [h]) _ _

@[simp] theorem State.rawStage2_part (s : State) (l x : Nat) (h : p ≠ .trig) : (s.rawStage2 l x).part p = s.part p := by
  simp [State.rawStage2, foldl_part, h]

theorem State.setRef2_part (s : State) (x : List RefPath) (h : p ≠ .refPath) : ({ s with ref2 := x } : State).part p = s.part p := by
  cases p with
  | refPath => exact absurd rfl h
  | _ => rfl

@[simp] theorem State.refCell_part (s : State) (x : Nat) (k serving : Nat × Nat) (h : p ≠ .refPath) : (s.refCell x k serving).part p = s.part p := by
  simp only [State.refCell, State.part_ite, State.setRef2_part _ _ h, ite_self]

@[simp] theorem State.refStep_part (s : State) (x : Nat) (h : p ≠ .refPath) : (s.refStep x).part p = s.part p := by
  simp [State.refStep, foldl_part, h]

@[simp] theorem State.laneWordRelease_part (s : State) (q role : Nat) (vNv : Int) (h : p ∉ [.grid, .quads, .cal, .refPath, .trig, .zones]) :
    (s.laneWordRelease q role vNv).part p = s.part p := by
  simp at h
  simp [State.laneWordRelease, h]

/-! ### Monitoring, sleep and wake, receiver settings -/

@[simp] theorem State.leadFault_part (s : State) (q i start mv : Nat) (high : Bool) (h : p ∉ [.health, .quads]) :
    (s.leadFault q i start mv high).part p = s.part p := by
  simp at h
  simp [State.leadFault, h]

@[simp] theorem State.leadClear_part (s : State) (q i stop first : Nat) (h : p ≠ .quads) : (s.leadClear q i stop first).part p = s.part p := by
  simp [State.leadClear, h]

@[simp] theorem State.judgeBlock_part (s : State) (q start i mv : Nat) (h : p ∉ [.health, .quads]) : (s.judgeBlock q start i mv).part p = s.part p := by
  simp at h
  unfold State.judgeBlock
  dsimp only
  (repeat' split) <;> simp [h]

@[simp] theorem State.monitorBlock_part (s : State) (q : Nat) (means : List Nat) (h : p ∉ [.health, .quads]) :
    (s.monitorBlock q means).part p = s.part p := by
  simp at h
  simp [State.monitorBlock, foldl_part, h]

@[simp] theorem State.wake1_part (s : State) (q ready : Nat) (h : p ≠ .quads) : (s.wake1 q ready).part p = s.part p := by
  unfold State.wake1
  split <;> simp [h]

@[simp] theorem State.wakeQuad_part (s : State) (q ready : Nat) (h : p ≠ .quads) : (s.wakeQuad q ready).part p = s.part p := by
  simp [State.wakeQuad, h]

@[simp] theorem State.quadWake_part (s : State) (q : Nat) (h : p ≠ .quads) : (s.quadWake q).part p = s.part p := by
  fun_cases State.quadWake s q <;> simp [h]

@[simp] theorem State.sleepQuad_part (s : State) (q x : Nat) (h : p ≠ .quads) : (s.sleepQuad q x).part p = s.part p := s.modQuad_part q _ h

@[simp] theorem State.quadPowerDown_part (s : State) (q : Nat) (h : p ≠ .quads) : (s.quadPowerDown q).part p = s.part p := by
  simp [State.quadPowerDown, h]

@[simp] theorem rxConfig_part (c : Cmd) (s : State) (h : p ≠ .pend) : (rxConfig c s).2.part p = s.part p := by
  simp [rxConfig, h]

theorem State.setQuadsCal_part (s : State) (x : List QuadRun) (c : Cal) (h : p ≠ .quads) (h' : p ≠ .cal) :
    ({ s with quads := x, cal := c } : State).part p = s.part p :=
  (({ s with quads := x } : State).setCal_part c h').trans (s.setQuads_part x h)

@[simp] theorem State.gainSwitch_part (s : State) (q x gain : Nat) (h : p ∉ [.cfg, .lines, .quads, .cal]) : (s.gainSwitch q x gain).part p = s.part p := by
  simp at h
  simp [State.gainSwitch, ↓State.setQuadsCal_part, h]

@[simp] theorem State.rxConfigEffect_part (s : State) (q : Nat) (h : p ∉ [.cfg, .pend, .lines, .quads, .cal]) : (s.rxConfigEffect q).part p = s.part p := by
  simp at h
  unfold State.rxConfigEffect
  split <;> simp [h]

@[simp] theorem rxRefConfig_part (c : Cmd) (s : State) (h : p ≠ .cfg) : (rxRefConfig c s).2.part p = s.part p := by
  simp [rxRefConfig, h]

@[simp] theorem rxHold_part (c : Cmd) (s : State) (h : p ≠ .quads) : (rxHold c s).2.part p = s.part p := by
  simp [rxHold, foldl_part, h]

@[simp] theorem rxStatus_part (c : Cmd) (s : State) (h : p ∉ [.health, .quads]) : (rxStatus c s).2.part p = s.part p := by
  simp at h
  simp [rxStatus, h]

/-! ### The calender -/

@[simp] theorem State.calPrecondition_part (s : State) (q i j : Nat) (e : Nat × Int) (h : p ≠ .cal) : (s.calPrecondition q i j e).part p = s.part p := by
  simp [State.calPrecondition, h, -State.modCal_eq]

@[simp] theorem State.centreSkews_part (s : State) (q j g : Nat) (h : p ≠ .cfg) : (s.centreSkews q j g).part p = s.part p := by
  simp [State.centreSkews, foldl_part, h]

@[simp] theorem State.moveSpare_part (s : State) (q j i phase : Nat) (h : p ∉ [.quads, .cal]) : (s.moveSpare q j i phase).part p = s.part p := by
  simp at h
  simp [State.moveSpare, h, -State.modCal_eq]

@[simp] theorem State.parkSpare_part (s : State) (q j next : Nat) (h : p ∉ [.quads, .cal]) : (s.parkSpare q j next).part p = s.part p := by
  simp at h
  simp [State.parkSpare, h, -State.modCal_eq]

@[simp] theorem State.nextStep_part (s : State) (q j next : Nat) (h : p ∉ [.quads, .cal]) : (s.nextStep q j next).part p = s.part p := by
  simp at h
  simp [State.nextStep, h]

@[simp] theorem State.startEmergency_part (s : State) (q : Nat) (h : p ∉ [.quads, .cal]) : (s.startEmergency q).part p = s.part p := by
  simp at h
  fun_cases State.startEmergency s q <;> simp [h]

@[simp] theorem State.converterWithdraw_part (s : State) (q j : Nat) (h : p ∉ [.health, .quads, .cal]) :
    (s.converterWithdraw q j).part p = s.part p := by
  simp at h
  simp [State.converterWithdraw, h, -State.modCal_eq]

@[simp] theorem State.converterError_part (s : State) (q j : Nat) (h : p ∉ [.health, .quads, .cal]) : (s.converterError q j).part p = s.part p := by
  simp at h
  simp [State.converterError, h]

@[simp] theorem State.rejectStep_part (s : State) (q i j g : Nat) (h : p ∉ [.cfg, .health, .quads, .cal]) :
    (s.rejectStep q i j g).part p = s.part p := by
  simp at h
  simp [State.rejectStep, foldl_part, h, -State.modCal_eq]

@[simp] theorem State.convergeBlock_part (s : State) (q i j g : Nat) (pass : Bool) (h : p ∉ [.cfg, .health, .quads, .cal]) :
    (s.convergeBlock q i j g pass).part p = s.part p := by
  simp at h
  simp [State.convergeBlock, h, -State.modCal_eq]

@[simp] theorem State.deepBlock_part (s : State) (q i j : Nat) (h : p ∉ [.quads, .cal]) : (s.deepBlock q i j).part p = s.part p := by
  simp at h
  simp [State.deepBlock, h, -State.modCal_eq]

@[simp] theorem State.publish_part (s : State) (q i j g : Nat) (serving : Bool) (blk : List GathCell) (m : CalMeas) (b : CalBlock) (h : p ≠ .cal) :
    (s.publish q i j g serving blk m b).part p = s.part p := by
  simp [State.publish, h, -State.modCal_eq]

@[simp] theorem State.updateSets_part (s : State) (q i j g : Nat) (serving : Bool) (b : CalBlock) (h : p ∉ [.cfg, .health, .quads, .cal]) :
    (s.updateSets q i j g serving b).part p = s.part p := by
  simp at h
  simp [State.updateSets, foldl_part, h, -State.modCal_eq, -State.modConvMark_eq, -State.modPairMark_eq]

@[simp] theorem State.acceptBlock_part (s : State) (q i j : Nat) (serving : Bool) (blk : List GathCell) (m : CalMeas) (b : CalBlock)
    (h : p ∉ [.cfg, .health, .quads, .cal]) : (s.acceptBlock q i j serving blk m b).part p = s.part p := by
  simp at h
  simp [State.acceptBlock, h]

@[simp] theorem State.calBlock_part (s : State) (q j : Nat) (b : CalBlock) (h : p ∉ [.cfg, .health, .quads, .cal]) :
    (s.calBlock q j b).part p = s.part p := by
  simp at h
  unfold State.calBlock
  dsimp only
  (repeat' split) <;> simp [h]

@[simp] theorem State.handover_part (s : State) (q : Nat) (h : p ∉ [.health, .quads, .cal]) : (s.handover q).part p = s.part p := by
  simp at h
  unfold State.handover
  dsimp only
  (repeat' split) <;> simp [h, -State.modCal_eq]

@[simp] theorem State.overlapEnd_part (s : State) (q : Nat) (h : p ∉ [.health, .quads, .cal]) : (s.overlapEnd q).part p = s.part p := by
  simp at h
  unfold State.overlapEnd
  dsimp only
  (repeat' split) <;> simp [h, -State.modCal_eq]

@[simp] theorem State.moveReady_part (s : State) (q : Nat) (h : p ∉ [.quads, .cal]) : (s.moveReady q).part p = s.part p := by
  simp at h
  fun_cases State.moveReady s q <;> simp [h, -State.modCal_eq]

@[simp] theorem State.calStale_part (s : State) (q i : Nat) (h : p ≠ .cal) : (s.calStale q i).part p = s.part p := by
  simp [State.calStale, h, -State.modCal_eq]

@[simp] theorem State.heedRotate_part (s : State) (q : Nat) (h : p ∉ [.quads, .cal]) : (s.heedRotate q).part p = s.part p := by
  simp at h
  unfold State.heedRotate
  dsimp only
  split <;> simp [h]

@[simp] theorem calConfig_part (c : Cmd) (s : State) (h : p ∉ [.cfg, .quads, .cal]) : (calConfig c s).2.part p = s.part p := by
  simp at h
  simp [calConfig, foldl_part, h]

@[simp] theorem calStatus_part (c : Cmd) (s : State) (h : p ∉ [.health, .cal]) : (calStatus c s).2.part p = s.part p := by
  simp at h
  simp [calStatus, h, -State.modCal_eq]

@[simp] theorem calRead_part (c : Cmd) (s : State) : (calRead c s).2.part p = s.part p := by
  simp [calRead]

end

/-! ### The rows -/

/-- Settles O19: a row is `finish` of one operation, whose `_part` lemma names the components it may write; a host command writes its mailbox besides. -/
theorem planAndReceiverFrames : Obligations.PlanAndReceiverFrames := by
  intro i s u hf hx p hp
  rw [State.keeps_iff]
  cases i with
  | planDefine | planApply | planTimeline | probeConfig | probeLoad | planGateLimit | planSpot | planStatus | rxConfig | rxRefConfig | rxHold
  | rxStatus | calConfig | calStatus | calRead =>
    unfold exec at hx
    simp only [writesOf, List.mem_cons, List.not_mem_nil, or_false, not_or] at hp
    exact part_of_hostCommand hx (by simp [hp]) fun c s => by simp [hp]
  | planTakesEffect | probeChange | probeIdleCodeChange | gateLimitTakesEffect | spotLaunch | gridLaunch | dutyTruncated | emitPermitFall
  | emitPermitRise | emitQualified | laneWordRelease | monitorBlockEnd | quadWake | quadPowerDown | rxConfigTakesEffect | calBlockGathered
  | handover | overlapEnd | rotationMoveReady | calStale =>
    unfold exec at hx
    simp only [writesOf, List.mem_cons, List.not_mem_nil, or_false, not_or] at hp
    exact part_of_finish hx fun s => by simp [hp]
  | _ => cases hf

end Sys2Proof.Machine

/-! PROOFS of receivers and reset: the values of the reset state, and where a released lane word is kept. -/

namespace Sys2Proof.Machine

/-! ### The state after reset (R101, R434, R452, R456, R502, R554) -/

/-- Settles O3: each value is read of the record that reset leaves; it is quiet because it is dark. -/
theorem resetValues : Obligations.ResetValues := by
  refine ⟨rfl, rfl, rfl, ?mailboxes, ?lines, ?plans, rfl, ?felt, rfl, rfl, rfl, rfl, ?rights, rfl, rfl, ?quiet, rfl, rfl⟩
  case mailboxes => decide
  case lines => decide
  case plans => decide
  case felt => decide
  case rights => decide
  case quiet =>
    obtain ⟨hsafe, hdark, -⟩ := resetMeetsTheInvariants
    exact hsafe hdark

/-! ### The released lane words of a converter (R82, R83, R117) -/

/-- The released lane words that a quad keeps of one of its converters, newest first. -/
def State.wordsOf (s : State) (q j : Nat) : List (Nat × BitVec 16) := nth (s.quadOf q).words j []

theorem State.wordsOf_congr {s u : State} (h : u.quads = s.quads) (q j : Nat) : u.wordsOf q j = s.wordsOf q j := by
  simp only [State.wordsOf, State.quadOf, h]

@[simp] theorem State.wordsOf_ite (c : Prop) [Decidable c] (s u : State) (q j : Nat) :
    (if c then s else u).wordsOf q j = if c then s.wordsOf q j else u.wordsOf q j :=
  apply_ite (fun s => State.wordsOf s q j) c s u

@[simp] theorem State.modQuad_wordsOf (s : State) (p q j : Nat) {f : QuadRun → QuadRun} (hf : ∀ r, nth (f r).words j [] = nth r.words j []) :
    (s.modQuad p f).wordsOf q j = s.wordsOf q j := by
  simp only [State.wordsOf, State.quadOf, State.modQuad_quads, nth, upd, List.getElem?_modify] at hf ⊢
  cases s.quads[q]? with
  | none => rfl
  | some r => by_cases h : p = q <;> simp [h, hf]

@[simp] theorem State.modGrid_wordsOf (s : State) (l q j : Nat) (f : LineGrid → LineGrid) : (s.modGrid l f).wordsOf q j = s.wordsOf q j := rfl

@[simp] theorem State.raise_wordsOf (s : State) (code sev src : Nat) (stamp : BitVec 96) (inst : Nat) (args : List Byte) (key : Option (List Nat))
    (q j : Nat) : (s.raise code sev src stamp inst args key).wordsOf q j = s.wordsOf q j :=
  State.wordsOf_congr (by simp) q j

theorem foldl_wordsOf {α : Type} {q j : Nat} (f : State → α → State) (h : ∀ s a, (f s a).wordsOf q j = s.wordsOf q j) (l : List α) (s : State) :
    (l.foldl f s).wordsOf q j = s.wordsOf q j := by
  induction l generalizing s with
  | nil => rfl
  | cons a l ih => rw [List.foldl_cons, ih, h]

@[simp] theorem State.countClip_wordsOf (s : State) (p i x q j : Nat) : (s.countClip p i x).wordsOf q j = s.wordsOf q j := by
  simp [State.countClip]

@[simp] theorem State.closeSheet_wordsOf (s : State) (l : Nat) (e : Launch) (late q j : Nat) : (s.closeSheet l e late).wordsOf q j = s.wordsOf q j := by
  simp [State.closeSheet, foldl_wordsOf]

@[simp] theorem State.closeThermal_wordsOf (s : State) (p x q j : Nat) : (s.closeThermal p x).wordsOf q j = s.wordsOf q j := by
  simp [State.closeThermal, foldl_wordsOf]

/-- The word of a role is kept with the converter that serves the role: every other one keeps what it had. -/
theorem State.keepWord_wordsOf_of_not_serving {s : State} {q role x j : Nat} (h : roleIn ((s.quadOf q).convsAt x) role ≠ some j) (vNv : Int)
    (w : BitVec 16) : (s.keepWord q role x vNv w).wordsOf q j = s.wordsOf q j := by
  unfold State.keepWord
  split
  · rfl
  · next k hk =>
    have hkj : k ≠ j := fun e => h (e ▸ hk)
    have hput : ∀ f, (s.modQuad q (fun r => { r with words := upd r.words k f })).wordsOf q j = s.wordsOf q j :=
      fun f => s.modQuad_wordsOf q q j fun r => by simp [nth, upd, hkj]
    simp [hput]

/-- The instant sampled 768 cells ago, whose words are released now. -/
def State.releasedCell (s : State) : Nat := (s.now - 768 * ticksPerCell) / ticksPerCell * ticksPerCell

/-- A released word joins the words of no converter but the one that serves its role. -/
theorem State.laneWordRelease_wordsOf_of_not_serving {s : State} {q role j : Nat}
    (h : roleIn ((s.quadOf q).convsAt s.releasedCell) role ≠ some j) (vNv : Int) : (s.laneWordRelease q role vNv).wordsOf q j = s.wordsOf q j := by
  have hpart : ∀ {v u : State}, u.part .quads = v.part .quads → u.wordsOf q j = v.wordsOf q j := fun h => State.wordsOf_congr h q j
  unfold State.laneWordRelease
  unfold State.releasedCell at h
  dsimp only
  generalize (s.now - 768 * ticksPerCell) / ticksPerCell * ticksPerCell = x at h ⊢
  generalize s.laneWord q role x vNv = w
  split
  · rfl
  · rw [hpart (v := ((s.keepWord q role x vNv w).gatherWord q role x w).closeThermal q x) (by simp), State.closeThermal_wordsOf,
      hpart (State.gatherWord_part _ _ _ _ _ (by decide))]
    exact State.keepWord_wordsOf_of_not_serving h vNv w

/-! ### A word released after a handover -/

/-- Q16, awake, once its calibration has handed input 0 from converter 0 to converter 4, and converter 0 moves on to the next input (R117, R118). -/
def handedOver : State :=
  State.reset.modQuad 16 (fun r => { r with
    ready := some 0, convs := [⟨none, false⟩, ⟨some 1, false⟩, ⟨some 2, false⟩, ⟨some 3, false⟩, ⟨some 0, false⟩] })

/-- Refutes O29: `LaneWordReleaseCompletes` puts a role's word with the converter of the role's number, the device with the converter that serves the
role. After a handover these are two: the word of input 0 of Q16 is kept with converter 4, and converter 0 keeps none. -/
theorem not_receiverComplete : ¬ Obligations.ReceiverComplete := by
  rintro ⟨hrelease, -⟩
  have hserving : roleIn (((handedOver.atInstant (768 * ticksPerCell)).quadOf 16).convsAt (handedOver.atInstant (768 * ticksPerCell)).releasedCell) 0
      ≠ some 0 := by decide
  obtain ⟨u, hu, hwords⟩ := hrelease (768 * ticksPerCell) 16 0 0 handedOver (by decide) (by decide) (by decide) (by decide) (by decide) (by decide)
  obtain rfl : ((handedOver.atInstant (768 * ticksPerCell)).laneWordRelease 16 0 0).settle = u := Host.Outcome.next.inj hu
  have hkept : ((handedOver.atInstant (768 * ticksPerCell)).laneWordRelease 16 0 0).settle.wordsOf 16 0 = [] :=
    (State.wordsOf_congr (by simp) 16 0).trans (State.laneWordRelease_wordsOf_of_not_serving hserving 0)
  exact List.cons_ne_nil _ _ (hwords.symm.trans hkept)

end Sys2Proof.Machine

/-! PROOFS of the calender: a block marks no set whose mark the state does not hold. -/

namespace Sys2Proof.Machine

/-! ### How many converter sets bear a mark (R124, R130) -/

/-- The number of converter sets whose marks the state holds. -/
def State.markCount (s : State) : Nat := s.cal.conv.length

theorem State.markCount_congr {s u : State} (h : u.part .cal = s.part .cal) : u.markCount = s.markCount := by
  simp only [State.markCount, show u.cal = s.cal from h]

@[simp] theorem State.markCount_ite (c : Prop) [Decidable c] (s u : State) :
    (if c then s else u).markCount = if c then s.markCount else u.markCount :=
  apply_ite State.markCount c s u

theorem foldl_markCount {α : Type} (f : State → α → State) (h : ∀ s a, (f s a).markCount = s.markCount) (l : List α) (s : State) :
    (l.foldl f s).markCount = s.markCount := by
  induction l generalizing s with
  | nil => rfl
  | cons a l ih => rw [List.foldl_cons, ih, h]

@[simp] theorem State.modCal_markCount (s : State) (q : Nat) (f : CalQuad → CalQuad) : (s.modCal q f).markCount = s.markCount := rfl

@[simp] theorem State.modConvMark_markCount (s : State) (q j g : Nat) (f : SetMark → SetMark) : (s.modConvMark q j g f).markCount = s.markCount := by
  simp [State.markCount, upd]

@[simp] theorem State.modPairMark_markCount (s : State) (q p g : Nat) (f : SetMark → SetMark) : (s.modPairMark q p g f).markCount = s.markCount := rfl

@[simp] theorem State.setConv_markCount (s : State) (q j g : Nat) (v : ConvSet) : (s.setConv q j g v).markCount = s.markCount := rfl

@[simp] theorem State.setPair_markCount (s : State) (q p g : Nat) (v : PairSet) : (s.setPair q p g v).markCount = s.markCount := rfl

@[simp] theorem State.takeBlock_markCount (s : State) (q j : Nat) (blk : List GathCell) : (s.takeBlock q j blk).markCount = s.markCount := rfl

@[simp] theorem State.moveSpare_markCount (s : State) (q j i phase : Nat) : (s.moveSpare q j i phase).markCount = s.markCount := rfl

@[simp] theorem State.nextStep_markCount (s : State) (q j next : Nat) : (s.nextStep q j next).markCount = s.markCount := by
  unfold State.nextStep
  split <;> rfl

@[simp] theorem State.raiseNow_markCount (s : State) (code sev src : Nat) (args : List Byte) (key : Option (List Nat)) :
    (s.raiseNow code sev src args key).markCount = s.markCount :=
  State.markCount_congr (by simp)

@[simp] theorem State.detect_markCount (s : State) (k i : Nat) : (s.detect k i).markCount = s.markCount := rfl

@[simp] theorem State.startEmergency_markCount (s : State) (q : Nat) : (s.startEmergency q).markCount = s.markCount := by
  unfold State.startEmergency
  (repeat' split) <;> rfl

@[simp] theorem State.converterWithdraw_markCount (s : State) (q j : Nat) : (s.converterWithdraw q j).markCount = s.markCount := by
  unfold State.converterWithdraw
  dsimp only
  split
  · rfl
  · simp [-State.modCal_eq]

@[simp] theorem State.converterError_markCount (s : State) (q j : Nat) : (s.converterError q j).markCount = s.markCount := by
  simp [State.converterError]

@[simp] theorem State.centreSkews_markCount (s : State) (q j g : Nat) : (s.centreSkews q j g).markCount = s.markCount :=
  State.markCount_congr (by simp)

@[simp] theorem State.rejectStep_markCount (s : State) (q i j g : Nat) : (s.rejectStep q i j g).markCount = s.markCount := by
  have hsets := foldl_markCount (fun t g => t.setConv q j g (nth (s.calOf q).startSets g ConvSet.neutral)) (fun _ _ => rfl)
  simp [State.rejectStep, hsets, -State.modCal_eq]

@[simp] theorem State.convergeBlock_markCount (s : State) (q i j g : Nat) (pass : Bool) : (s.convergeBlock q i j g pass).markCount = s.markCount := by
  simp [State.convergeBlock, -State.modCal_eq]

@[simp] theorem State.deepBlock_markCount (s : State) (q i j : Nat) : (s.deepBlock q i j).markCount = s.markCount := by
  simp [State.deepBlock, -State.modCal_eq]

@[simp] theorem State.publish_markCount (s : State) (q i j g : Nat) (serving : Bool) (blk : List GathCell) (m : CalMeas) (b : CalBlock) :
    (s.publish q i j g serving blk m b).markCount = s.markCount := by
  unfold State.publish
  dsimp only
  split <;> rfl

@[simp] theorem State.updateSets_markCount (s : State) (q i j g : Nat) (serving : Bool) (b : CalBlock) :
    (s.updateSets q i j g serving b).markCount = s.markCount := by
  simp [State.updateSets, foldl_markCount, -State.modCal_eq, -State.modConvMark_eq, -State.modPairMark_eq]

@[simp] theorem State.acceptBlock_markCount (s : State) (q i j : Nat) (serving : Bool) (blk : List GathCell) (m : CalMeas) (b : CalBlock) :
    (s.acceptBlock q i j serving blk m b).markCount = s.markCount := by
  simp [State.acceptBlock]

/-- A block, whatever its tests say of it, makes and loses no mark (R112, R115). -/
@[simp] theorem State.calBlock_markCount (s : State) (q j : Nat) (b : CalBlock) : (s.calBlock q j b).markCount = s.markCount := by
  unfold State.calBlock
  dsimp only
  (repeat' split) <;> simp [State.calPrecondition, -State.modCal_eq]

/-- Where no marks are held, every set reads as marked at tick 0. -/
theorem State.convMark_of_markCount_zero {s : State} (h : s.markCount = 0) (q j g : Nat) : s.convMark q j g = SetMark.fresh 0 := by
  simp [State.convMark, nth, List.eq_nil_of_length_eq_zero h]

/-! ### A block of Q16 that passes its tests (R109 to R114, R132) -/

/-- A cell of Q16 of which only the first converter's word is known. -/
def wordCell (w : BitVec 16) : GathCell := ⟨0, 0, 0, [], [w]⟩

/-- A block of the first converter of Q16: code 512 in every cell but the last, which has code −512. -/
def halfTurnBlock : List GathCell := List.replicate 65535 (wordCell 0x2000) ++ [wordCell 0xE000]

theorem length_halfTurnBlock : halfTurnBlock.length = calBlockWords := by
  rw [halfTurnBlock, List.length_append, List.length_replicate]
  rfl

/-- What holds of its two words holds of every cell. -/
theorem forall_mem_halfTurnBlock {P : GathCell → Prop} (h : P (wordCell 0x2000)) (h' : P (wordCell 0xE000)) : ∀ c ∈ halfTurnBlock, P c := by
  intro c hc
  rw [halfTurnBlock, List.mem_append, List.mem_replicate, List.mem_singleton] at hc
  obtain ⟨-, rfl⟩ | rfl := hc
  · exact h
  · exact h'

theorem mean_replicate {n : Nat} (hn : n ≠ 0) (r : Rat) : mean (List.replicate n r) = r := by
  rw [mean, List.sum_replicate, List.length_replicate, nsmul_eq_mul, mul_div_cancel_left₀ _ (Nat.cast_ne_zero.mpr hn)]

theorem measure_radius_input0 (d j : Nat) (b : List GathCell) :
    (measure d 0 j b).radius = mean ((b.map (fun c => c.z 0 0 j)).map (fun z => (radius20 z : Rat) / 2 ^ 20)) := rfl

theorem measure_span_input0 (d j : Nat) (b : List GathCell) : (measure d 0 j b).span = phaseSpan (b.map (fun c => c.z 0 0 j)) := rfl

/-- Cells of Q16 whose words qualify are taken as they stand: no reflection is sought there (R109, R110). -/
theorem blockOf_reference {j : Nat} {b : List GathCell} (hl : b.length = calBlockWords) (ho : ∀ c ∈ b, c.offers j = true) :
    blockOf 16 j 0 b.reverse = some b := by
  have hf : b.filter (fun c => c.offers j) = b := List.filter_eq_self.mpr ho
  simp [blockOf, List.filter_reverse, GathCell.reflected, hf, hl, List.take_of_length_le]

/-- The tests of Q16: clipped words, the mean radius and the span of the phase (Table 4.2). -/
theorem calFails_reference {m : CalMeas} (hc : m.clipped ≤ 6) (hr : 512 ≤ m.radius ∧ m.radius ≤ 921) (hs : 2 ^ 20 ≤ 3 * m.span) : calFails 16 m = [] := by
  simpa [calFails, hc, hr] using hs

/-- The phasors of that block on input 0: one phase, and at the end the opposite one. -/
theorem halfTurnBlock_z : halfTurnBlock.map (fun c => c.z 0 0 0) = List.replicate 65535 ⟨512, 0⟩ ++ [⟨-512, 0⟩] := by
  rw [halfTurnBlock, List.map_append, List.map_replicate]
  congr 1

theorem radius_halfTurnBlock : mean ((halfTurnBlock.map (fun c => c.z 0 0 0)).map (fun z => (radius20 z : Rat) / 2 ^ 20)) = 512 := by
  have hr : ∀ re ∈ [512, -512], (radius20 ⟨re, 0⟩ : Rat) / 2 ^ 20 = 512 := fun re h => by
    rw [show radius20 ⟨re, 0⟩ = 512 * 2 ^ 20 by revert re; decide]
    norm_num
  rw [halfTurnBlock_z, List.map_append, List.map_replicate, List.map_singleton, hr 512 (by simp), hr (-512) (by simp), ← List.replicate_succ']
  exact mean_replicate (by omega) 512

theorem foldl_replicate_of_fixed {α β : Type} {f : β → α → β} {b : β} {a : α} (h : f b a = b) (n : Nat) : (List.replicate n a).foldl f b = b := by
  induction n with
  | zero => rfl
  | succ n ih => rw [List.replicate_succ, List.foldl_cons, h, ih]

set_option maxRecDepth 100000 in
/-- The phase turns by half a turn, at the last word (test 5 of Table 4.2). -/
theorem phaseSpan_halfTurnBlock : phaseSpan (halfTurnBlock.map (fun c => c.z 0 0 0)) = 2 ^ 19 := by
  have h0 : argTurn20 ⟨512, 0⟩ = 0 := by decide
  have h1 : argTurn20 ⟨-512, 0⟩ = -2 ^ 19 := by decide
  rw [halfTurnBlock_z, phaseSpan, List.filter_append, List.filter_replicate_of_pos (by decide), List.map_append, List.map_replicate, h0,
    List.replicate_succ, List.cons_append]
  dsimp only
  rw [List.foldl_append, foldl_replicate_of_fixed (by decide)]
  decide

theorem calFails_halfTurnBlock (d : Nat) : calFails 16 (measure d 0 0 halfTurnBlock) = [] := by
  have hclip : halfTurnBlock.filter (fun c => c.clip 0) = [] := List.filter_eq_nil_iff.mpr (forall_mem_halfTurnBlock (by decide) (by decide))
  refine calFails_reference ?clipped ?radius ?span
  case clipped => simp [measure, hclip]
  case radius =>
    rw [measure_radius_input0, radius_halfTurnBlock]
    norm_num
  case span =>
    rw [measure_span_input0, phaseSpan_halfTurnBlock]
    norm_num

/-! ### A state without marks -/

/-- Q16 as reset leaves it, once its first converter has gathered that block, in a state that holds no mark of any converter set. -/
def unmarked : State :=
  { State.reset with
    cal := { Cal.reset with conv := [], quads := Cal.reset.quads.set 16 { CalQuad.reset with cells := halfTurnBlock.reverse } } }

theorem gatheredBlock_unmarked : (unmarked.atInstant 1).gatheredBlock 16 0 = some halfTurnBlock := by
  have hcal : (unmarked.atInstant 1).calOf 16 = { CalQuad.reset with cells := halfTurnBlock.reverse } := rfl
  unfold State.gatheredBlock
  simpa [hcal, CalQuad.reset, nth] using blockOf_reference length_halfTurnBlock (forall_mem_halfTurnBlock (by decide) (by decide))

set_option maxRecDepth 100000 in
/-- Refutes O30: `CalBlockGatheredCompletes` has the serving converter's set marked as updated now, and its premises do not ask for a state that
holds that mark. In one that holds none, an accepted block of Q16 at tick 1 marks no set. -/
theorem not_calenderComplete : ¬ Obligations.CalenderComplete := by
  rintro ⟨hgathered, -⟩
  obtain ⟨u, hu, -, -, -, -, -, hmark⟩ := hgathered 1 16 0 0 halfTurnBlock default unmarked (by decide) (by decide) (by decide)
    gatheredBlock_unmarked (calFails_halfTurnBlock _) (by decide) (by decide) (by decide) (by decide) (by decide)
  obtain rfl : ((unmarked.atInstant 1).calBlock 16 0 default).settle = u := Host.Outcome.next.inj hu
  have hcount : ((unmarked.atInstant 1).calBlock 16 0 default).settle.markCount = 0 := by
    rw [State.markCount_congr (s := (unmarked.atInstant 1).calBlock 16 0 default) (by simp), State.calBlock_markCount]
    rfl
  rw [State.convMark_of_markCount_zero hcount] at hmark
  exact absurd hmark (by decide)

end Sys2Proof.Machine

/-! PROOFS of line engines and felt: what each row leaves as it was, and a return to its own engine that a host command holds back. -/

namespace Sys2Proof.Machine

section
variable {p : StatePart}

/-! ### Updates of one component -/

@[simp] theorem State.modSys_part (s : State) (f : Sys → Sys) (h : p ≠ .sys) : (s.modSys f).part p = s.part p := by
  cases p with
  | sys => exact absurd rfl h
  | _ => rfl

@[simp] theorem State.modCtx_part (s : State) (c : Nat) (f : Ctx → Ctx) (h : p ≠ .ctxs) : (s.modCtx c f).part p = s.part p := by
  cases p with
  | ctxs => exact absurd rfl h
  | _ => rfl

@[simp] theorem State.modFelt_part (s : State) (l : Nat) (f : FeltRing → FeltRing) (h : p ≠ .felt) : (s.modFelt l f).part p = s.part p := by
  cases p with
  | felt => exact absurd rfl h
  | _ => rfl

@[simp] theorem State.modSlow_part (s : State) (l : Nat) (f : SlowRun → SlowRun) (h : p ≠ .slow) : (s.modSlow l f).part p = s.part p := by
  cases p with
  | slow => exact absurd rfl h
  | _ => rfl

@[simp] theorem State.modMem_part (s : State) (f : MemRun → MemRun) (h : p ≠ .mem) : (s.modMem f).part p = s.part p := by
  cases p with
  | mem => exact absurd rfl h
  | _ => rfl

@[simp] theorem State.modStream_part (s : State) (k : Nat) (f : StreamRun → StreamRun) (h : p ≠ .streams) : (s.modStream k f).part p = s.part p := by
  cases p with
  | streams => exact absurd rfl h
  | _ => rfl

theorem State.setStreams_part (s : State) (l : List (Option StreamRun)) (h : p ≠ .streams) : ({ s with streams := l } : State).part p = s.part p := by
  cases p with
  | streams => exact absurd rfl h
  | _ => rfl

@[simp] theorem State.setTransition_part (s : State) (q : Option PwrPend) (h : p ≠ .pwr) : (s.setTransition q).part p = s.part p := by
  cases p with
  | pwr => exact absurd rfl h
  | _ => rfl

@[simp] theorem State.setDram_part (s : State) (m : List Host.Cell) (h : p ≠ .dram) : ({ s with dram := m } : State).part p = s.part p := by
  cases p with
  | dram => exact absurd rfl h
  | _ => rfl

@[simp] theorem State.setFree_part (s : State) (n : Nat) (h : p ≠ .freeUse) : ({ s with free := n } : State).part p = s.part p := by
  cases p with
  | freeUse => exact absurd rfl h
  | _ => rfl

@[simp] theorem State.dropOp_part (s : State) (op : Nat) (h : p ≠ .pend) : (s.dropOp op).part p = s.part p := by
  cases p with
  | pend => exact absurd rfl h
  | _ => rfl

@[simp] theorem State.dropJobs_part (s : State) (f : JobKind → Bool) (h : p ≠ .tiles) : (s.dropJobs f).part p = s.part p := by
  cases p with
  | tiles => exact absurd rfl h
  | _ => rfl

@[simp] theorem State.addJobs_part (s : State) (l : List JobKind) (h : p ≠ .tiles) : (s.addJobs l).part p = s.part p := by
  cases p with
  | tiles => exact absurd rfl h
  | _ => rfl

@[simp] theorem State.strikeLast_part (s : State) (q : Pend) (unit : Nat) (stamp : BitVec 96) (inst : Nat) (h : p ≠ .pend) :
    (s.strikeLast q unit stamp inst).part p = s.part p := by
  simp [State.strikeLast, h]

/-! ### Streams -/

@[simp] theorem State.deliver_part (s : State) (sel : StreamDef → Bool) (i : Item) (h : p ≠ .streams) : (s.deliver sel i).part p = s.part p :=
  s.setStreams_part _ h

@[simp] theorem State.abortItems_part (s : State) (sel : StreamDef → Bool) (cause count line : Nat) (first last : BitVec 96) (h : p ≠ .streams) :
    (s.abortItems sel cause count line first last).part p = s.part p := by
  simp [State.abortItems, h]

@[simp] theorem State.streamLose_part (s : State) (k : Nat) (gone : Item → Bool) (count : Option Nat) (h : p ∉ [.ctxs, .streams]) :
    (s.streamLose k gone count).part p = s.part p := by
  simp at h
  unfold State.streamLose
  dsimp only
  (repeat' split) <;> simp [State.setStreams_part, h]

@[simp] theorem State.detachStream_part (s : State) (k mode : Nat) (h : p ∉ [.ctxs, .streams]) : (s.detachStream k mode).part p = s.part p := by
  simp at h
  unfold State.detachStream
  split <;> simp [h]

@[simp] theorem State.ownDetach_part (s : State) (mode : Nat) (h : p ∉ [.ctxs, .streams]) : (s.ownDetach mode).part p = s.part p :=
  foldl_part _ (fun s k => s.detachStream_part k mode h) _ _

/-! ### What waits for stops and detaches (R478, R500) -/

@[simp] theorem State.beginSnapshot_part (s : State) (flags waitS running mb seq : Nat) (shutdown : Bool) (h : p ≠ .sys) :
    (s.beginSnapshot flags waitS running mb seq shutdown).part p = s.part p :=
  s.modSys_part _ h

@[simp] theorem State.beginRun_part (s : State) (h : p ≠ .health) : s.beginRun.part p = s.part p := s.modHealth_part _ h

@[simp] theorem State.shutdownApplied_part (s : State) (d : Shutdown) (h : p ∉ [.sys, .pend]) : (s.shutdownApplied d).part p = s.part p := by
  simp at h
  unfold State.shutdownApplied
  dsimp only
  split <;> simp [h]

@[simp] theorem State.shutdownStep_part (s : State) (h : p ∉ [.sys, .pend, .ctxs, .streams, .health]) : s.shutdownStep.part p = s.part p := by
  simp at h
  unfold State.shutdownStep
  (repeat' split) <;> simp [h]

@[simp] theorem State.shutdownAdvance_part (s : State) (h : p ∉ [.sys, .pend, .ctxs, .streams, .health]) : s.shutdownAdvance.part p = s.part p := by
  simp only [State.shutdownAdvance, State.shutdownStep_part _ h]

@[simp] theorem State.powerAdvance_part (s : State) (h : p ∉ [.ctxs, .streams, .pwr]) : s.powerAdvance.part p = s.part p := by
  simp at h
  unfold State.powerAdvance
  split <;> simp [h]

@[simp] theorem State.advance_part (s : State) (h : p ∉ [.sys, .pend, .ctxs, .streams, .pwr, .health]) : s.advance.part p = s.part p := by
  simp at h
  simp [State.advance, h]

/-! ### DRAM -/

@[simp] theorem State.setBlock_part (s : State) (b v : Nat) (h : p ≠ .mem) : (s.setBlock b v).part p = s.part p := s.modMem_part _ h
@[simp] theorem State.wakeChannel_part (s : State) (c : Nat) (h : p ≠ .mem) : (s.wakeChannel c).part p = s.part p := s.modMem_part _ h

@[simp] theorem State.touchDram_part (s : State) (a n : Nat) (h : p ≠ .mem) : (s.touchDram a n).part p = s.part p :=
  foldl_part _ (fun s c => s.wakeChannel_part c h) _ _

@[simp] theorem State.lostWrite_part (s : State) (bs : List Nat) (h : p ≠ .mem) : (s.lostWrite bs).part p = s.part p := by
  simp [State.lostWrite, foldl_part, h]

@[simp] theorem State.overwriteBlocks_part (s : State) (lo hi : Nat) (h : p ≠ .mem) : (s.overwriteBlocks lo hi).part p = s.part p := s.modMem_part _ h

@[simp] theorem State.decodeFresh_part (s : State) (l : Nat) (e : Launch) (h : p ≠ .mem) : (s.decodeFresh l e).part p = s.part p := by
  simp [State.decodeFresh, h]

@[simp] theorem State.rowDue_part (s : State) (r : RowAt) (h : p ∉ [.health, .mem]) : (s.rowDue r).part p = s.part p := by
  simp at h
  simp [State.rowDue, h]

@[simp] theorem State.badRead_part (s : State) (port b : Nat) (h : p ∉ [.health, .mem]) : (s.badRead port b).part p = s.part p := by
  simp at h
  simp [State.badRead, h]

@[simp] theorem State.readRange_part (s : State) (port lo hi : Nat) (h : p ∉ [.health, .mem]) : (s.readRange port lo hi).part p = s.part p := by
  simp at h
  simp [State.readRange, foldl_part, h]

@[simp] theorem State.writeInBlock_part (s : State) (port a : Nat) (data : List Byte) (h : p ∉ [.health, .dram, .mem]) :
    (s.writeInBlock port a data).part p = s.part p := by
  simp at h
  simp [State.writeInBlock, h]

@[simp] theorem State.dramWriteGo_part (s : State) (port n a : Nat) (data : List Byte) (h : p ∉ [.health, .dram, .mem]) :
    (s.dramWriteGo port n a data).part p = s.part p := by
  induction n generalizing s a data with
  | zero => rfl
  | succ n ih =>
    unfold State.dramWriteGo
    split
    · rfl
    · rw [ih, State.writeInBlock_part _ _ _ _ h]

@[simp] theorem State.writeBy_part (s : State) (port a : Nat) (data : List Byte) (h : p ∉ [.health, .dram, .mem]) :
    (s.writeBy port a data).part p = s.part p :=
  s.dramWriteGo_part port _ a data h
/-! ### Captures and trigger conditions -/

@[simp] theorem State.setArmed_part (s : State) (c : Nat) (v : Bool) (h : p ≠ .cfg) : (s.setArmed c v).part p = s.part p := s.modCfg_part _ h
@[simp] theorem State.dropHold_part (s : State) (l i : Nat) (h : p ≠ .felt) : (s.dropHold l i).part p = s.part p := s.modFelt_part l _ h

@[simp] theorem State.trigFormat_part (s : State) (l : Nat) (h : p ≠ .trig) : (s.trigFormat l).part p = s.part p := by
  simp [State.trigFormat, h]

@[simp] theorem State.writeEntry_part (s : State) (r : CapRec) (h : p ∉ [.health, .dram, .mem]) : (s.writeEntry r).part p = s.part p :=
  s.writeBy_part 2 _ _ h

@[simp] theorem State.freeRec_part (s : State) (i : Nat) (h : p ∉ [.health, .dram, .mem, .trig]) : (s.freeRec i).part p = s.part p := by
  simp at h
  simp [State.freeRec, h]

@[simp] theorem State.recReady_part (s : State) (i : Nat) (h : p ∉ [.streams, .health, .dram, .mem, .trig]) : (s.recReady i).part p = s.part p := by
  simp at h
  unfold State.recReady
  split <;> simp [h]

@[simp] theorem State.sweepHolds_part (s : State) (l : Nat) (h : p ∉ [.streams, .health, .dram, .felt, .mem, .trig]) :
    (s.sweepHolds l).part p = s.part p := by
  simp at h
  refine foldl_part _ (fun s r => ?_) _ _
  dsimp only
  split <;> simp [h]

@[simp] theorem State.clipCaptures_part (s : State) (l : Nat) (h : p ∉ [.streams, .health, .dram, .felt, .mem, .trig]) :
    (s.clipCaptures l).part p = s.part p := by
  simp at h
  simp [State.clipCaptures, foldl_part, h]

@[simp] theorem State.discardDisarmed_part (s : State) (c : Nat) (h : p ∉ [.streams, .health, .dram, .felt, .mem, .trig]) :
    (s.discardDisarmed c).part p = s.part p := by
  simp at h
  simp [State.discardDisarmed, foldl_part, h]

@[simp] theorem State.armOne_part (s : State) (c mode : Nat) (h : p ∉ [.cfg, .trig]) : (s.armOne c mode).part p = s.part p := by
  simp at h
  unfold State.armOne
  split <;> simp [h]

@[simp] theorem State.armEffectOf_part (s : State) (c : Nat) (h : p ∉ [.cfg, .pend, .streams, .health, .dram, .felt, .mem, .trig]) :
    (s.armEffectOf c).part p = s.part p := by
  simp at h
  unfold State.armEffectOf
  split <;> simp [h]

@[simp] theorem State.rebaseEffect_part (s : State) (c : Nat) (h : p ∉ [.pend, .trig]) : (s.rebaseEffect c).part p = s.part p := by
  simp at h
  unfold State.rebaseEffect
  split <;> simp [h]

@[simp] theorem State.boundaryConds_part (s : State) (l : Nat) (h : p ∉ [.cfg, .pend, .streams, .health, .dram, .felt, .mem, .trig]) :
    (s.boundaryConds l).part p = s.part p := by
  simp at h
  refine foldl_part _ (fun s c => ?_) _ _
  split <;> simp [h]

@[simp] theorem State.rawSheet_part (s : State) (l : Nat) (o : SheetOut) (h : p ≠ .trig) : (s.rawSheet l o).part p = s.part p := by
  simp [State.rawSheet, foldl_part, h]

/-! ### The felt -/

@[simp] theorem State.clipReader_part (s : State) (l r oldest cause skipped : Nat) (h : p ∉ [.ctxs, .streams, .felt]) :
    (s.clipReader l r oldest cause skipped).part p = s.part p := by
  simp at h
  refine (foldl_part _ (fun s k => ?_) _ _).trans (by simp [h])
  split <;> simp [h]

@[simp] theorem State.overtake_part (s : State) (l oldest cause : Nat) (h : p ∉ [.ctxs, .streams, .felt]) :
    (s.overtake l oldest cause).part p = s.part p := by
  simp at h
  refine (State.modFelt_part _ _ _ (by simp [h])).trans (foldl_part _ (fun s r => ?_) _ _)
  split <;> simp [h]

@[simp] theorem State.loseQuire_part (s : State) (l q : Nat) (h : p ∉ [.streams, .slow, .tiles]) : (s.loseQuire l q).part p = s.part p := by
  simp at h
  unfold State.loseQuire
  split <;> simp [h]

@[simp] theorem State.formatRing_part (s : State) (l points decode : Nat) (h : p ∉ [.ctxs, .streams, .felt, .slow, .tiles]) :
    (s.formatRing l points decode).part p = s.part p := by
  simp at h
  refine (State.modFelt_part _ _ _ (by simp [h])).trans ((foldl_part _ (fun s r => ?_) _ _).trans (by simp [foldl_part, h]))
  split <;> simp [h]

@[simp] theorem State.feltStart_part (s : State) (l : Nat) (h : p ∉ [.ctxs, .streams, .felt, .slow, .tiles]) : (s.feltStart l).part p = s.part p := by
  simp at h
  unfold State.feltStart
  split <;> simp [h]

@[simp] theorem State.beginQuire_part (s : State) (l : Nat) (h : p ∉ [.ctxs, .streams, .felt, .slow, .mem]) : (s.beginQuire l).part p = s.part p := by
  simp at h
  simp [State.beginQuire, h]

@[simp] theorem State.feltWrite_part (s : State) (l tick : Nat) (record : List Byte) (samples : List (BitVec 32)) (restart : Bool)
    (h : p ∉ [.ctxs, .streams, .felt, .slow, .mem]) : (s.feltWrite l tick record samples restart).part p = s.part p := by
  simp at h
  simp [State.feltWrite, h]

@[simp] theorem State.resizeLine_part (s : State) (l : Nat) (r : List Byte) (h : p ∉ [.cfg, .ctxs, .streams, .felt, .slow, .tiles]) :
    (s.resizeLine l r).part p = s.part p := by
  simp at h
  unfold State.resizeLine
  dsimp only
  (repeat' split) <;> simp [h]

@[simp] theorem State.feltResizeEffect_part (s : State) (l : Nat) (h : p ∉ [.cfg, .pend, .ctxs, .streams, .felt, .slow, .tiles]) :
    (s.feltResizeEffect l).part p = s.part p := by
  simp at h
  unfold State.feltResizeEffect
  split <;> simp [h]

@[simp] theorem feltResize_part (c : Cmd) (s : State) (h : p ∉ [.cfg, .pend, .ctxs, .streams, .felt, .slow, .tiles]) :
    (feltResize c s).2.part p = s.part p := by
  simp at h
  unfold feltResize
  dsimp only
  (repeat' split) <;> simp [foldl_part, h]

@[simp] theorem feltReader_part (c : Cmd) (s : State) (h : p ≠ .felt) : (feltReader c s).2.part p = s.part p := by
  unfold feltReader
  dsimp only
  (repeat' split) <;> simp [h]

@[simp] theorem feltStatus_part (c : Cmd) (s : State) (h : p ∉ [.health, .felt]) : (feltStatus c s).2.part p = s.part p := by
  simp at h
  simp [feltStatus, h]

/-! ### Slow-time processing -/

@[simp] theorem State.quireReady_part (s : State) (l q : Nat) (h : p ∉ [.slow, .tiles]) : (s.quireReady l q).part p = s.part p := by
  simp at h
  simp [State.quireReady, h]

@[simp] theorem State.quireComplete_part (s : State) (l : Nat) (h : p ∉ [.slow, .tiles]) : (s.quireComplete l).part p = s.part p := by
  simp at h
  simp [State.quireComplete, h]

@[simp] theorem State.slowSaturated_part (s : State) (l : Nat) (stages : List Nat) (h : p ≠ .slow) :
    (s.slowSaturated l stages).part p = s.part p := by
  simp [State.slowSaturated, foldl_part, h]

@[simp] theorem State.releaseQuire_part (s : State) (l : Nat) (h : p ∉ [.streams, .health, .slow, .tiles, .mem]) :
    (s.releaseQuire l).part p = s.part p := by
  simp at h
  unfold State.releaseQuire
  split <;> simp [foldl_part, h]

@[simp] theorem State.quireReleased_part (s : State) (l : Nat) (h : p ∉ [.grid, .streams, .health, .slow, .tiles, .mem]) :
    (s.quireReleased l).part p = s.part p := by
  simp at h
  simp [State.quireReleased, h]

@[simp] theorem State.slowOverrun_part (s : State) (l : Nat) (h : p ∉ [.streams, .slow, .tiles]) : (s.slowOverrun l).part p = s.part p := by
  simp at h
  unfold State.slowOverrun
  split <;> simp [h]

@[simp] theorem State.discardQuires_part (s : State) (l : Nat) (h : p ∉ [.streams, .slow, .tiles]) : (s.discardQuires l).1.part p = s.part p := by
  simp at h
  simp [State.discardQuires, h]

@[simp] theorem State.slowLineStopped_part (s : State) (l : Nat) (immediate : Bool) (h : p ∉ [.streams, .slow, .tiles]) :
    (s.slowLineStopped l immediate).part p = s.part p := by
  simp at h
  simp [State.slowLineStopped, h]

@[simp] theorem State.slowStopped_part (s : State) (l : Nat) (h : p ∉ [.cfg, .pend, .streams, .slow, .tiles]) :
    (s.slowStopped l).part p = s.part p := by
  simp at h
  unfold State.slowStopped
  (repeat' split) <;> simp [h]

@[simp] theorem slowConfig_part (c : Cmd) (s : State) (h : p ≠ .pend) : (slowConfig c s).2.part p = s.part p := by
  simp [slowConfig, slowConfigWith, h]

@[simp] theorem State.slowConfigEffect_part (s : State) (l : Nat) (h : p ∉ [.cfg, .pend, .slow]) : (s.slowConfigEffect l).part p = s.part p := by
  simp at h
  unfold State.slowConfigEffect
  split <;> simp [h]

@[simp] theorem State.slowStartEffect_part (s : State) (l : Nat) (h : p ∉ [.cfg, .pend, .slow]) : (s.slowStartEffect l).part p = s.part p := by
  simp at h
  unfold State.slowStartEffect
  split <;> simp [h]

@[simp] theorem slowStart_part (c : Cmd) (s : State) (h : p ∉ [.cfg, .pend, .slow]) : (slowStart c s).2.part p = s.part p := by
  simp at h
  simp [slowStart, foldl_part, h]

@[simp] theorem slowStop_part (c : Cmd) (s : State) (h : p ≠ .pend) : (slowStop c s).2.part p = s.part p := by
  simp [slowStop, h]

@[simp] theorem slowStatus_part (c : Cmd) (s : State) (h : p ∉ [.health, .slow]) : (slowStatus c s).2.part p = s.part p := by
  simp at h
  simp [slowStatus, h]

/-! ### Quire boundaries -/

@[simp] theorem State.resizeEffect_part (s : State) (l : Nat)
    (h : p ∉ [.cfg, .pend, .ctxs, .streams, .health, .dram, .felt, .slow, .tiles, .mem, .trig]) : (s.resizeEffect l).part p = s.part p := by
  simp at h
  simp [State.resizeEffect, h]

@[simp] theorem feltResizeAll_part (c : Cmd) (s : State) (h : p ∉ [.cfg, .pend, .ctxs, .streams, .health, .dram, .felt, .slow, .tiles, .mem, .trig]) :
    (feltResizeAll c s).2.part p = s.part p := by
  simp at h
  simp [feltResizeAll, foldl_part, h]

@[simp] theorem State.quireBegin_part (s : State) (l : Nat)
    (h : p ∉ [.cfg, .pend, .ctxs, .streams, .health, .dram, .felt, .slow, .tiles, .mem, .trig]) : (s.quireBegin l).part p = s.part p := by
  simp at h
  simp [State.quireBegin, h]

/-- What an effect keeps, it keeps where it waits for a quire to begin. -/
theorem State.atQuireBegin_part (s : State) (l : Nat) {f : State → State} (hf : (f s).part p = s.part p) :
    (s.atQuireBegin l f).part p = s.part p := by
  simp [State.atQuireBegin, hf]

@[simp] theorem State.quireBeginRow_part (s : State) (l : Nat)
    (h : p ∉ [.cfg, .pend, .ctxs, .streams, .health, .dram, .felt, .slow, .tiles, .mem, .trig]) : (s.quireBeginRow l).part p = s.part p := by
  simp at h
  simp [State.quireBeginRow, State.atQuireBegin_part, h]

@[simp] theorem State.resizeRow_part (s : State) (l : Nat)
    (h : p ∉ [.cfg, .pend, .ctxs, .streams, .health, .dram, .felt, .slow, .tiles, .mem, .trig]) : (s.resizeRow l).part p = s.part p :=
  s.atQuireBegin_part l (s.resizeEffect_part l h)

@[simp] theorem State.slowConfigRow_part (s : State) (l : Nat) (h : p ∉ [.cfg, .pend, .slow]) : (s.slowConfigRow l).part p = s.part p :=
  s.atQuireBegin_part l (s.slowConfigEffect_part l h)

/-! ### A finished sheet -/

@[simp] theorem State.sheetEvent_part (s : State) (l : Nat) (e : Launch) (code sev : Nat) (args : List Byte) (join : Bool) :
    (s.sheetEvent l e code sev args join).part p = s.part p := by
  simp [State.sheetEvent]

@[simp] theorem State.frontEvents_part (s : State) (l : Nat) (e : Launch) (fr : Front) (sat4 sat5 : Nat) (h : p ∉ [.lines, .quads]) :
    (s.frontEvents l e fr sat4 sat5).part p = s.part p := by
  simp at h
  simp [State.frontEvents, h]

@[simp] theorem State.trackEnd_part (s : State) (l : Nat) (e : Launch) (powers : List Nat) (h : p ≠ .lines) :
    (s.trackEnd l e powers).1.part p = s.part p := by
  unfold State.trackEnd
  dsimp only
  split <;> simp [h]

@[simp] theorem State.produce_part (s : State) (l : Nat) (e : Launch) (words : List (Int × Nat)) (inv clip : List Bool) (powers : List Nat)
    (dark failed gainStep spared : Bool) (weak : Nat) (bad : List (Nat × Nat)) (h : p ∉ [.lines, .health]) :
    (s.produce l e words inv clip powers dark failed gainStep spared weak bad).1.part p = s.part p := by
  simp at h
  unfold State.produce
  dsimp only
  split <;> simp [foldl_part, h]

@[simp] theorem State.finishSheet_part (s : State) (l : Nat) (e : Launch) (bad : List (Nat × Nat))
    (h : p ∉ [.freeUse, .lines, .health, .quads, .mem]) : (s.finishSheet l e bad).1.part p = s.part p := by
  simp at h
  unfold State.finishSheet
  dsimp only
  (repeat' split) <;> simp [h]

@[simp] theorem State.dropLaunch_part (s : State) (l tick : Nat) (h : p ≠ .grid) : (s.dropLaunch l tick).part p = s.part p := s.modGrid_part l _ h

@[simp] theorem State.settleOver_part (s : State) (l : Nat) (samples : List Sample) (h : p ≠ .grid) : (s.settleOver l samples).part p = s.part p := by
  simp [State.settleOver, h]

@[simp] theorem State.sheetComplete_part (s : State) (l : Nat) (i : SheetInput)
    (h : p ∉ [.freeUse, .cfg, .pend, .grid, .lines, .ctxs, .streams, .health, .dram, .quads, .felt, .slow, .tiles, .mem, .trig]) :
    (s.sheetComplete l i).part p = s.part p := by
  simp at h
  unfold State.sheetComplete
  split <;> simp [h]

/-! ### The spare engine, settings and status of a line -/

@[simp] theorem State.spareTakes_part (s : State) (k i j : Nat) (h : p ≠ .health) : (s.spareTakes k i j).part p = s.part p := by
  simp [State.spareTakes, h]

@[simp] theorem State.lineSpared_part (s : State) (l : Nat) (unreliable : Bool) (h : p ∉ [.lines, .health]) :
    (s.lineSpared l unreliable).part p = s.part p := by
  simp at h
  simp [State.lineSpared, h]

@[simp] theorem State.lineUnspared_part (s : State) (l : Nat) (h : p ∉ [.lines, .health]) : (s.lineUnspared l).part p = s.part p := by
  simp at h
  simp [State.lineUnspared, h]

@[simp] theorem lineConfig_part (c : Cmd) (s : State) (h : p ≠ .pend) : (lineConfig c s).2.part p = s.part p := by
  simp [lineConfig, h]

@[simp] theorem State.lineCfgEffect_part (s : State) (l : Nat) (h : p ∉ [.cfg, .pend, .lines]) : (s.lineCfgEffect l).1.part p = s.part p := by
  simp at h
  unfold State.lineCfgEffect
  split <;> simp [h]

@[simp] theorem lineStatus_part (c : Cmd) (s : State) (h : p ∉ [.lines, .health]) : (lineStatus c s).2.part p = s.part p := by
  simp at h
  simp [lineStatus, h]

@[simp] theorem lineReadState_part (c : Cmd) (s : State) : (lineReadState c s).2.part p = s.part p := by
  fun_cases lineReadState c s <;> simp

/-! ### Starts and stops of lines -/

@[simp] theorem State.wakeFor_part (s : State) (l firstCell : Nat) (h : p ≠ .quads) : (s.wakeFor l firstCell).part p = s.part p := by
  simp [State.wakeFor, h]

@[simp] theorem lineStart_part (c : Cmd) (s : State) (h : p ∉ [.pend, .lines, .quads]) : (lineStart c s).2.part p = s.part p := by
  simp at h
  unfold lineStart
  dsimp only
  iterate 5 (split; · rfl)
  refine (pendWith_part _ _ _ _ _ (by simp [h])).trans (foldl_part _ (fun s l => ?_) _ _)
  split <;> simp [h]

@[simp] theorem lineStop_part (c : Cmd) (s : State) (h : p ∉ [.pend, .lines]) : (lineStop c s).2.part p = s.part p := by
  simp at h
  simp [lineStop, foldl_part, h]

@[simp] theorem State.beginLine_part (s : State) (l x : Nat) (h : p ≠ .lines) : (s.beginLine l x).part p = s.part p := by
  unfold State.beginLine
  dsimp only
  split <;> simp [h]

@[simp] theorem State.lineStarted_part (s : State) (l : Nat) (h : p ∉ [.pend, .lines]) : (s.lineStarted l).part p = s.part p := by
  simp at h
  fun_cases State.lineStarted s l <;> simp [h]

@[simp] theorem State.calWaits_part (s : State) (q : Nat) (h : p ≠ .cal) : (s.calWaits q).part p = s.part p := s.modCal_part q _ h

@[simp] theorem State.lineStartedRow_part (s : State) (l : Nat)
    (h : p ∉ [.pend, .lines, .ctxs, .streams, .health, .dram, .cal, .felt, .slow, .tiles, .mem, .trig]) : (s.lineStartedRow l).part p = s.part p := by
  simp at h
  simp [State.lineStartedRow, h]

@[simp] theorem State.dropSheets_part (s : State) (l : Nat) (h : p ∉ [.grid, .quads]) : (s.dropSheets l).part p = s.part p := by
  simp at h
  simp [State.dropSheets, foldl_part, h]

@[simp] theorem State.stopBoundary_part (s : State) (l : Nat) (h : p ∉ [.pend, .grid, .lines, .quads]) : (s.stopBoundary l).part p = s.part p := by
  simp at h
  unfold State.stopBoundary
  split <;> simp [h]

@[simp] theorem State.discardInterval_part (s : State) (k : Nat) (h : p ∉ [.streams, .therm]) : (s.discardInterval k).part p = s.part p := by
  simp at h
  unfold State.discardInterval
  dsimp only
  (repeat' split) <;> simp [h]

@[simp] theorem State.thermStop_part (s : State) (l x : Nat) (immediate : Bool) (h : p ∉ [.streams, .therm]) :
    (s.thermStop l x immediate).part p = s.part p := by
  simp at h
  unfold State.thermStop
  split <;> simp [h]

@[simp] theorem State.stopBoundaryRow_part (s : State) (l : Nat) (h : p ∉ [.pend, .grid, .lines, .streams, .quads, .therm]) :
    (s.stopBoundaryRow l).part p = s.part p := by
  simp at h
  unfold State.stopBoundaryRow
  dsimp only
  (repeat' split) <;> simp [h]

@[simp] theorem State.endLine_part (s : State) (l : Nat) (h : p ≠ .lines) : (s.endLine l).part p = s.part p := by
  unfold State.endLine
  split <;> simp [h]

@[simp] theorem State.lineStoppedRow_part (s : State) (l : Nat)
    (h : p ∉ [.lines, .streams, .health, .dram, .quads, .cal, .felt, .slow, .tiles, .mem, .trig]) : (s.lineStoppedRow l).part p = s.part p := by
  simp at h
  simp [State.lineStoppedRow, h]

end

/-! ### The rows -/

/-- Settles O20: as for O19, a row is `finish` of one operation, whose `_part` lemma names the components it may write. -/
theorem lineAndFeltFrames : Obligations.LineAndFeltFrames := by
  intro i s u hf hx p hp
  rw [State.keeps_iff]
  cases i with
  | lineConfig | lineStart | lineStop | lineStatus | lineReadState | feltResize | feltStatus | slowConfig | slowStart | slowStop | slowStatus
  | feltReaderOpen | feltReaderMove | feltReaderClose =>
    unfold exec at hx
    simp only [writesOf, List.mem_cons, List.not_mem_nil, or_false, not_or] at hp
    exact part_of_hostCommand hx (by simp [hp]) fun c s => by simp [hp]
  | sheetComplete | lineSpared | lineUnspared | lineConfigTakesEffect | lineStarted | lineStopBoundary | lineStopped | feltQuireBegin | quireComplete
  | slowQuireReleased | slowOverrun | feltResizeTakesEffect | slowConfigTakesEffect | slowStopped =>
    unfold exec at hx
    simp only [writesOf, List.mem_cons, List.not_mem_nil, or_false, not_or] at hp
    exact part_of_finish hx fun s => by simp [hp]
  | _ => cases hf

/-! ### A return that a host command holds back (R10, R169) -/

/-- A line does not return to its own engine where no substitution may act. -/
theorem State.lineUnspared_of_not_maySubstitute {s : State} {l : Nat} (h : s.maySubstitute l = false) : s.lineUnspared l = s := by
  simp [State.lineUnspared, h]

/-- A host command of the line that is due goes before a substitution. -/
theorem State.not_maySubstitute_of_hostDue {s : State} {l : Nat} (h : s.hostDue l s.now = true) : s.maySubstitute l = false := by
  simp [State.maySubstitute, h]

/-- Line 0, stopped, is served by LE16 and its own engine has passed its test, when a `line.config` of the line has been accepted and is due. -/
def returningConfigured : State :=
  { State.reset.modLine 0 (fun r => { r with engine := 16, returnDue := true }) with
    pend := [⟨0x0401, 0, 1, 0, none, none, [0], [0, 1, 0, 0, 0, 0, 0, 0, 8, 4, 10, 0, 16, 0, 0, 0]⟩] }

/-- Refutes O31: `LineUnsparedCompletes` has a stopped line return whenever its return is due, but a host command that is due goes first (R10): while
a `line.config` of line 0 is, the line stays on LE16. -/
theorem not_linesComplete : ¬ Obligations.LinesComplete := by
  rintro ⟨-, -, hunspared, -⟩
  obtain ⟨u, hu, hlines⟩ := hunspared 0 0 returningConfigured rfl rfl
  obtain rfl : ((returningConfigured.atInstant 0).lineUnspared 0).settle = u := Host.Outcome.next.inj hu
  have hdue : (returningConfigured.atInstant 0).hostDue 0 (returningConfigured.atInstant 0).now = true := by decide
  rw [State.lineUnspared_of_not_maySubstitute (State.not_maySubstitute_of_hostDue hdue)] at hlines
  have hkept : (returningConfigured.atInstant 0).settle.lines = returningConfigured.lines := by simp
  have hstays : returningConfigured.lines ≠ upd returningConfigured.lines 0 (fun r =>
      { r with engine := 0, restartNext := true, sparedNext := true, unreliableBefore := none, returnDue := false }) := by decide
  exact hstays (hkept.symm.trans hlines)

end Sys2Proof.Machine

/-! PROOFS of slow-time processing: how a row completes, and what each row of it leaves. -/

namespace Sys2Proof.Machine

/-! ### Lists and masks -/

theorem nth_map {α β : Type} (g : α → β) (l : List α) (n : Nat) (d : α) : nth (l.map g) n (g d) = g (nth l n d) := by
  simp [nth, Option.getD_map]

/-- Two lists that read alike entry by entry read alike at an index. -/
theorem nth_eq_of_map {α β : Type} {g : α → β} {l m : List α} (h : l.map g = m.map g) (n : Nat) (d : α) : g (nth l n d) = g (nth m n d) :=
  (nth_map g l n d).symm.trans ((congrArg (nth · n (g d)) h).trans (nth_map g m n d))

/-- What every step of a fold keeps, the fold keeps. -/
theorem foldl_keeps {α β γ : Type} (g : β → γ) {f : β → α → β} (h : ∀ b a, g (f b a) = g b) (l : List α) (b : β) :
    g (l.foldl f b) = g b := by
  induction l generalizing b with
  | nil => rfl
  | cons a l ih => rw [List.foldl_cons, ih, h]

theorem maskList_two_pow : ∀ l < 16, maskList 16 (2 ^ l) = [l] := by decide

theorem maskList_ne_nil {n m : Nat} (h0 : m ≠ 0) (h : m < 2 ^ n) : maskList n m ≠ [] := by
  obtain ⟨i, hi⟩ := Nat.exists_testBit_of_ne_zero h0
  have hin : i < n := by
    by_contra hge
    rw [Nat.testBit_lt_two_pow (h.trans_le (Nat.pow_le_pow_right two_pos (not_lt.mp hge)))] at hi
    exact absurd hi (by decide)
  exact List.ne_nil_of_mem (List.mem_filter.mpr ⟨List.mem_range.mpr hin, hi⟩)

/-- The lines of a mask that the variant has are named by its low 16 bits. -/
theorem State.lt_of_maskEnabled {s : State} {m : Nat} (h : s.maskEnabled m = true) : m < 2 ^ 16 := by
  have hm : m < 2 ^ s.lineCount := of_decide_eq_true h
  refine hm.trans_le (Nat.pow_le_pow_right two_pos ?_)
  unfold State.lineCount
  split <;> decide

/-! ### Completion -/

/-- A row that is `finish` of an operation completes with what the operation leaves, settled. -/
theorem completes_finish {i : Instr} {t : Nat} {s : State} {f : State → State} {post : State → Prop} (hx : exec i s = finish t s f)
    (hp : post (f (s.atInstant t)).settle) : Completes i s post :=
  ⟨_, hx, hp⟩

/-- `completes_pending` for a command whose ST_PENDING carries a payload. -/
theorem completes_pendingWith {i : Instr} {t op : Nat} {h : Handler} {c : Cmd} {s : State} {units : List Nat} {body : List Byte}
    (hx : exec i s = finish t s (fun s => s.hostCommand op h c)) (ha : (s.atInstant t).admits op c = true)
    (hh : h c ((s.atInstant t).placed op c) = (⟨stPending, none, body⟩, (pendWith ((s.atInstant t).placed op c) c op units none).2)) :
    Completes i s (fun u => u.answered c stPending body ∧ u.awaits (s.atInstant t) c op units none) :=
  completes_of_handler i t op h c s _ ⟨stPending, none, body⟩ _ hx ha hh rfl fun eff => by
    simp only [State.awaits, State.settle_frame, State.answer_frame, State.presentNonce_frame]
    rfl

/-! ### What waits (R460) -/

theorem State.pendOf_op {s : State} {op unit : Nat} {p : Pend} (h : s.pendOf op unit = some p) : p.op = op := by
  have hp := List.find?_some (show s.pend.find? (fun q => q.op == op && q.units.contains unit) = some p from h)
  exact eq_of_beq (Bool.and_eq_true_iff.mp hp).1

/-- A command that joins those that wait is the first of its opcode for a unit that none before it names. -/
theorem State.pendOf_pendWith {s : State} {c : Cmd} {op unit : Nat} {units : List Nat} (h : s.pendOf op unit = none) (hu : unit ∈ units) :
    (pendWith s c op units none).2.pendOf op unit = some ⟨op, c.mb, c.seq, s.now, c.at_ s, none, units, c.arg⟩ := by
  unfold State.pendOf at h ⊢
  rw [pendWith, List.find?_append, h]
  simp [hu]

@[simp] theorem State.strikeLast_pend (s : State) (p : Pend) (unit : Nat) (stamp : BitVec 96) (inst : Nat) :
    (s.strikeLast p unit stamp inst).pend = Machine.strike p.op unit s.pend := by
  unfold State.strikeLast
  dsimp only
  split <;> simp [State.strike]

/-- Striking a unit off loses no record of the event queue. -/
theorem State.strikeLast_heard {s : State} {p : Pend} {unit : Nat} {stamp : BitVec 96} {inst code src : Nat} (h : s.heard code src) :
    (s.strikeLast p unit stamp inst).heard code src := by
  unfold State.strikeLast State.applied
  dsimp only
  split
  · split
    · exact h
    · exact heard_raise_of _ _ _ _ _ _ _ _ _ _ h
  · exact h

/-- With no change of power and no shutdown under way nothing goes on. -/
theorem State.advance_idle {s : State} (hp : s.pwr.pend = none) (hd : s.sys.shutdown = none) : s.advance = s := by
  simp [State.advance, State.powerAdvance, State.shutdownAdvance, State.shutdownStep, hp, hd]

/-- `State.advance_idle` after an operation that keeps `pwr` and `sys`. -/
theorem State.advance_of_part {s u : State} (hpwr : u.part .pwr = s.part .pwr) (hsys : u.part .sys = s.part .sys) (hp : s.pwr.pend = none)
    (hd : s.sys.shutdown = none) : u.advance = u :=
  State.advance_idle ((congrArg Power.pend hpwr).trans hp) ((congrArg Sys.shutdown hsys).trans hd)

/-- On a line that does not run, what waits for a quire boundary need not. -/
theorem State.atQuireBegin_stopped {s : State} {l : Nat} (f : State → State) (hrun : s.running l = false) : s.atQuireBegin l f = f s := by
  simp [State.atQuireBegin, hrun]

/-! ### `slow.config` (R207) -/

theorem slowConfig_pends {c : Cmd} {s : State} {l : Nat} {g : SlowCfg} (hl : l = rd c.arg 0 1) (hg : g = readSlowCfg c.arg (s.slowCfg l).started)
    (hline : s.badLine l = false) (hok : slowCfgOk c.arg = true) (hfree : s.pendOf 0x0504 l = none) (hbands : s.bandsInUse l g.bands.length = false)
    (hshares : s.sharesOk s.pendingFelt (s.pendingSlow.set l g) = true) (hcost : g.cost4096 ≤ 24576) :
    slowConfig c s = (⟨stPending, none, g.response⟩, (pendWith s c 0x0504 [l] none).2) := by
  subst hl hg
  simp [slowConfig, slowConfigWith, hline, hok, hfree, hbands, hshares, Nat.not_lt.mpr hcost]

theorem slowConfigCompletes : SlowConfigCompletes := by
  intro t c s ha hline hok hfree hbands hshares hcost
  exact completes_pendingWith rfl ha (slowConfig_pends rfl rfl hline hok hfree hbands hshares hcost)

theorem State.slowConfigEffect_due {s : State} {l : Nat} {p : Pend} (hp : s.pendOf 0x0504 l = some p) (hdue : p.applyAt.getD p.accepted ≤ s.now)
    (hrun : s.running l = false) :
    (s.slowConfigEffect l).cfg.slow = upd s.cfg.slow l (fun k => readSlowCfg p.data k.started) ∧
      (s.slowConfigEffect l).slow = upd s.slow l (fun r => { r with markNext := 2, old := r.old ++ [(ceilDiv (s.feltOf l).fsn 32, s.slowCfg l)] }) ∧
        (s.slowConfigEffect l).pend = Machine.strike 0x0504 l s.pend := by
  unfold State.slowConfigEffect
  simp [hp, Nat.not_lt.mpr hdue, hrun, State.strike]

theorem slowConfigTakesEffectCompletes : SlowConfigTakesEffectCompletes := by
  intro t l p s hp hdue hrun
  refine completes_finish (f := fun s => s.slowConfigRow l) rfl ?_
  rw [State.slowConfigRow, State.atQuireBegin_stopped _ hrun]
  simp only [State.settle_frame]
  exact State.slowConfigEffect_due (s := s.atInstant t) hp hdue hrun

/-! ### `slow.start` and `slow.stop` (R204) -/

theorem State.slowBusy_eq_false {s : State} {l : Nat} :
    s.slowBusy l = false ↔ s.pendOf 0x0504 l = none ∧ s.pendOf 0x0505 l = none ∧ s.pendOf 0x0506 l = none := by
  simp [State.slowBusy, and_assoc]

/-- A `slow.start` that is accepted waits, and comes into force at once on the lines that do not run. -/
theorem slowStart_accepted {c : Cmd} {s : State} {lines : List Nat} (hl : maskList 16 (rd c.arg 0 2) = lines) (hm : rd c.arg 0 2 ≠ 0)
    (hen : s.maskEnabled (rd c.arg 0 2) = true) (hmode : rd c.arg 2 1 = 0) (hbusy : ∀ l ∈ lines, s.slowBusy l = false)
    (hst : ∀ l ∈ lines, (s.slowCfg l).started = false) :
    slowStart c s = (⟨stPending, none, []⟩,
      (lines.filter (fun l => !s.running l)).foldl (fun s l => s.slowStartEffect l) (pendWith s c 0x0505 lines none).2) := by
  subst hl
  have hb : (maskList 16 (rd c.arg 0 2)).any s.slowBusy = false := by simpa using hbusy
  have hs : (maskList 16 (rd c.arg 0 2)).any (fun l => (s.slowCfg l).started) = false := by simpa using hst
  simp only [slowStart, hm, hen, hmode, hb, hs]
  rfl

theorem slowStartCompletes : SlowStartCompletes := by
  intro t c s ha hm hen hmode hlines
  simp only [imp_and, forall_and] at hlines
  obtain ⟨hbusy, hst, hrun⟩ := hlines
  refine completes_pendingWith rfl ha ?_
  rw [slowStart_accepted (s := (s.atInstant t).placed 0x0505 c) rfl hm hen hmode hbusy hst]
  have hnone : (maskList 16 (rd c.arg 0 2)).filter (fun l => !((s.atInstant t).placed 0x0505 c).running l) = [] :=
    List.filter_eq_nil_iff.mpr fun l hl => by
      rw [show ((s.atInstant t).placed 0x0505 c).running l = true from hrun l hl]
      decide
  rw [hnone, List.foldl_nil]

theorem State.slowStartEffect_due {s : State} {l : Nat} {p : Pend} (hp : s.pendOf 0x0505 l = some p) (hdue : p.applyAt.getD p.accepted ≤ s.now)
    (hrun : s.running l = false) : (s.slowStartEffect l).cfg.slow = upd s.cfg.slow l (fun k => { k with started := true }) := by
  unfold State.slowStartEffect
  simp [hp, Nat.not_lt.mpr hdue, hrun]

theorem slowStart_stopped {c : Cmd} {s : State} {l : Nat} (hl : l < 16) (hmask : rd c.arg 0 2 = 2 ^ l) (hen : s.maskEnabled (rd c.arg 0 2) = true)
    (hmode : rd c.arg 2 1 = 0) (hbusy : s.slowBusy l = false) (hst : (s.slowCfg l).started = false) (hrun : s.running l = false) :
    slowStart c s = (⟨stPending, none, []⟩, (pendWith s c 0x0505 [l] none).2.slowStartEffect l) := by
  rw [slowStart_accepted (by rw [hmask, maskList_two_pow l hl]) (by simp [hmask]) hen hmode (List.forall_mem_singleton.mpr hbusy)
    (List.forall_mem_singleton.mpr hst), List.filter_cons_of_pos (by simp [hrun])]
  rfl

theorem slowStartStoppedCompletes : SlowStartStoppedCompletes := by
  intro t l c s ha hmask hen hmode hl hbusy hstarted hrun hnow
  let v := (s.atInstant t).placed 0x0505 c
  have hfree : v.pendOf 0x0505 l = none := (State.slowBusy_eq_false.mp hbusy).2.1
  have hp := State.pendOf_pendWith (c := c) hfree (List.mem_singleton_self l)
  have hat : c.at_ v = none := by simp [Cmd.at_, hnow]
  refine completes_of_handler _ t _ _ c s _ ⟨stPending, none, []⟩ _ rfl ha (slowStart_stopped hl hmask hen hmode hbusy hstarted hrun) ?_ fun eff => ?_
  · exact congrArg List.length (State.slowStartEffect_part (p := .mbs) _ l (by decide))
  · simp only [State.settle_frame, State.answer_frame, State.presentNonce_frame]
    exact State.slowStartEffect_due hp (by rw [hat]; exact le_rfl) hrun

theorem slowStop_pends {c : Cmd} {s : State} (hm : rd c.arg 0 2 ≠ 0) (hen : s.maskEnabled (rd c.arg 0 2) = true) (hmode : rd c.arg 2 1 ≤ 1)
    (hbusy : ∀ l ∈ maskList 16 (rd c.arg 0 2), s.slowBusy l = false) (hst : ∀ l ∈ maskList 16 (rd c.arg 0 2), (s.slowCfg l).started = true) :
    slowStop c s = pendWith s c 0x0506 (maskList 16 (rd c.arg 0 2)) none := by
  have hb : (maskList 16 (rd c.arg 0 2)).any s.slowBusy = false := by simpa using hbusy
  have hs : (maskList 16 (rd c.arg 0 2)).any (fun l => !(s.slowCfg l).started) = false := by simpa using hst
  simp only [slowStop, hm, hen, hb, hs, Nat.not_lt.mpr hmode]
  rfl

theorem slowStopCompletes : SlowStopCompletes := by
  intro t c s ha hm hen hmode hlines
  simp only [imp_and, forall_and] at hlines
  exact completes_pending _ t _ _ c s _ none rfl ha (slowStop_pends hm hen hmode hlines.1 hlines.2)

/-- Discarding the quires of a line raises no event. -/
theorem State.discardQuires_room {s : State} {l n : Nat} (h : s.room n) : (s.discardQuires l).1.room n :=
  (room_congr s _ n (State.discardQuires_part (p := .pwr) s l (by decide)) (by simp [State.discardQuires, State.dropJobs])
    (by simp [State.discardQuires, State.dropJobs])).mpr h

/-- A stop in force whose drain, if it is one, is over ends the processing, and says so. -/
theorem State.slowStopped_due {s : State} {l : Nat} {p : Pend} (hstop : (s.slowOf l).lineStop = none) (hp : s.pendOf 0x0506 l = some p)
    (hdue : p.applyAt.getD p.accepted ≤ s.now) (hdone : rd p.data 2 1 = 1 ∨ (s.slowOf l).queue = []) (hroom : s.room 1) :
    (s.slowStopped l).cfg.slow = upd s.cfg.slow l (fun k => { k with started := false }) ∧
      (s.slowStopped l).pend = Machine.strike 0x0506 l s.pend ∧ (s.slowStopped l).heard 0x0504 (srcLine l) := by
  have hgo : (decide (s.now < p.applyAt.getD p.accepted) || (!(rd p.data 2 1 == 1) && !(s.slowOf l).queue.isEmpty)) = false := by
    rcases hdone with h | h <;> simp [h, hdue]
  have hop : p.op = 0x0506 := State.pendOf_op hp
  unfold State.slowStopped
  simp only [hstop, hp, hgo, Bool.false_eq_true, if_false]
  generalize hr : (if (rd p.data 2 1 == 1) = true then s.discardQuires l else (s, 0)) = r
  have hkeep : r.1.cfg = s.cfg ∧ r.1.pend = s.pend ∧ r.1.room 1 := by
    subst hr
    split
    · exact ⟨State.discardQuires_part (p := .cfg) s l (by decide), State.discardQuires_part (p := .pend) s l (by decide),
        State.discardQuires_room hroom⟩
    · exact ⟨rfl, rfl, hroom⟩
  obtain ⟨hcfg, hpend, hroom⟩ := hkeep
  refine ⟨by simp [State.raiseLine, hcfg], by simp [State.raiseLine, hpend, hop], State.strikeLast_heard (heard_raise _ _ _ _ _ _ _ _ ?_)⟩
  exact (room_congr r.1 _ 1 rfl rfl rfl).mpr hroom

theorem slowStoppedCompletes : SlowStoppedCompletes := by
  intro t l p s hstop hp hdue hdone hpwr hshut hreport
  refine completes_finish (f := fun s => (s.slowStopped l).advance) rfl ?_
  rw [State.advance_of_part (s := s.atInstant t) (State.slowStopped_part _ l (by decide)) (State.slowStopped_part _ l (by decide)) hpwr hshut]
  obtain ⟨hcfg, hpend, hheard⟩ :=
    State.slowStopped_due (s := s.atInstant t) hstop hp hdue hdone (State.room_le (room_of_canReport _ hreport) (by decide))
  simp only [State.settle_frame]
  exact ⟨hcfg, hpend, heard_settle _ _ _ hheard⟩

/-! ### `slow.status` (R206) -/

theorem slowStatus_ok {c : Cmd} {s : State} (hline : s.badLine (rd c.arg 0 1) = false) :
    slowStatus c s = okWith (if bit (rd c.arg 1 1) 0 then (s.modSlow (rd c.arg 0 1) (fun r =>
      { r with quires := 0, overruns := 0, saturations := 0, stateErrors := 0 })).clearSat 0x0507 (rd c.arg 0 1) else s) (s.slowBody (rd c.arg 0 1)) := by
  simp only [slowStatus, hline]
  rfl

theorem slowStatusCompletes : SlowStatusCompletes := by
  intro t c s ha hline
  refine completes_okWith _ t _ _ c s _ _ _ rfl ha (slowStatus_ok hline) ?_ fun eff => ?_
  · split <;> rfl
  · simp only [State.settle_frame, State.answer_frame, State.presentNonce_frame]
    split <;> rfl

/-- Settles O33: each row is `finish` of an operation or of a handler; the lemma about the operation says what it leaves where the premises hold. -/
theorem slowTimeComplete : Obligations.SlowTimeComplete :=
  ⟨slowConfigCompletes, slowConfigTakesEffectCompletes, slowStartCompletes, slowStartStoppedCompletes, slowStopCompletes, slowStoppedCompletes,
    slowStatusCompletes⟩

end Sys2Proof.Machine

/-! PROOFS of felt: what each row of it leaves. -/

namespace Sys2Proof.Machine

/-! ### `felt.reader` (R184) and `felt.status` (R206) -/

theorem asForm_own {c : Cmd} {off own : Nat} {others : List Nat} (h : rd c.arg off 1 ∉ others) : asForm c off own others = c := by
  simp [asForm, h]

theorem feltReader_open {c : Cmd} {s : State} {x : Nat} (hline : s.badLine (rd c.arg 0 1) = false) (hr : rd c.arg 1 1 ≤ 15) (hop : rd c.arg 2 1 ≤ 2)
    (hclosed : nth (s.feltOf (rd c.arg 0 1)).readers (rd c.arg 1 1) none = none)
    (hx : x = (if rd c.arg 2 1 = 0 then (s.feltOf (rd c.arg 0 1)).oldest else if rd c.arg 2 1 = 1 then (s.feltOf (rd c.arg 0 1)).newestQuire
      else rd c.arg 4 8))
    (hlo : (s.feltOf (rd c.arg 0 1)).oldest ≤ x) (hhi : x ≤ (s.feltOf (rd c.arg 0 1)).fsn) (hshrink : s.shrinkBound (rd c.arg 0 1) ≤ x) :
    feltReader c s = okWith (s.modFelt (rd c.arg 0 1) (fun f => { f with readers := f.readers.set (rd c.arg 1 1) (some x) }))
      (s.readerBody (rd c.arg 0 1) x) := by
  obtain h | h | h : rd c.arg 2 1 = 0 ∨ rd c.arg 2 1 = 1 ∨ rd c.arg 2 1 = 2 := by omega
  all_goals
    simp only [h, Nat.reduceEqDiff, if_true, if_false] at hx
    subst hx
    simp [feltReader, okWith, hline, Nat.not_lt.mpr hr, h, hclosed, hlo, hhi, hshrink]

theorem feltReader_move {c : Cmd} {s : State} {x y : Nat} (hline : s.badLine (rd c.arg 0 1) = false) (hr : rd c.arg 1 1 ≤ 15) (hop : rd c.arg 2 1 = 3)
    (hopen : nth (s.feltOf (rd c.arg 0 1)).readers (rd c.arg 1 1) none = some y) (hx : x = rd c.arg 4 8)
    (hlo : (s.feltOf (rd c.arg 0 1)).oldest ≤ x) (hhi : x ≤ (s.feltOf (rd c.arg 0 1)).fsn) (hshrink : s.shrinkBound (rd c.arg 0 1) ≤ x) :
    feltReader c s = okWith (s.modFelt (rd c.arg 0 1) (fun f => { f with readers := f.readers.set (rd c.arg 1 1) (some x) }))
      (s.readerBody (rd c.arg 0 1) x) := by
  subst hx
  simp [feltReader, okWith, hline, Nat.not_lt.mpr hr, hop, hopen, hlo, hhi, hshrink]

theorem feltReader_close {c : Cmd} {s : State} {y : Nat} (hline : s.badLine (rd c.arg 0 1) = false) (hr : rd c.arg 1 1 ≤ 15) (hop : rd c.arg 2 1 = 4)
    (hopen : nth (s.feltOf (rd c.arg 0 1)).readers (rd c.arg 1 1) none = some y) (hfree : s.readerAttached (rd c.arg 0 1) (rd c.arg 1 1) = false) :
    feltReader c s = okWith (s.modFelt (rd c.arg 0 1) (fun f => { f with readers := f.readers.set (rd c.arg 1 1) none }))
      (s.readerBody (rd c.arg 0 1) y) := by
  simp [feltReader, okWith, hline, Nat.not_lt.mpr hr, hop, hopen, hfree]

/-- A `felt.reader` that its handler carries out is answered with the reader's position and the ring's bounds, and sets the reader. -/
theorem completes_feltReader {i : Instr} {t l r x own : Nat} {others : List Nat} {c : Cmd} {s : State} {v : Option Nat}
    (hx : exec i s = finish t s (fun s => s.hostCommand 0x0502 feltReader (asForm c 2 own others))) (hown : rd c.arg 2 1 ∉ others)
    (ha : (s.atInstant t).admits 0x0502 c = true)
    (hh : feltReader c ((s.atInstant t).placed 0x0502 c) =
      okWith (((s.atInstant t).placed 0x0502 c).modFelt l (fun f => { f with readers := f.readers.set r v }))
        (((s.atInstant t).placed 0x0502 c).readerBody l x)) :
    Completes i s (fun u => u.answered c stOk ((s.atInstant t).readerBody l x) ∧
      u.felt = upd s.felt l (fun f => { f with readers := f.readers.set r v })) := by
  rw [asForm_own hown] at hx
  refine completes_okWith _ t _ _ c s _ _ _ hx ha hh rfl fun eff => ?_
  simp only [State.settle_frame, State.answer_frame, State.presentNonce_frame]
  rfl

theorem feltReaderOpenCompletes : FeltReaderOpenCompletes := by
  intro t x c s ha hline hr hop hclosed hx hlo hhi hshrink
  exact completes_feltReader rfl (by simp; omega) ha (feltReader_open hline hr hop hclosed hx hlo hhi hshrink)

theorem feltReaderMoveCompletes : FeltReaderMoveCompletes := by
  intro t x y c s ha hline hr hop hopen hx hlo hhi hshrink
  exact completes_feltReader rfl (by simp [hop]) ha (feltReader_move hline hr hop hopen hx hlo hhi hshrink)

theorem feltReaderCloseCompletes : FeltReaderCloseCompletes := by
  intro t y c s ha hline hr hop hopen hfree
  exact completes_feltReader rfl (by simp [hop]) ha (feltReader_close hline hr hop hopen hfree)

theorem feltStatus_ok {c : Cmd} {s : State} (hline : s.badLine (rd c.arg 0 1) = false) :
    feltStatus c s = okWith (if bit (rd c.arg 1 1) 0 then (s.modFelt (rd c.arg 0 1) (fun f =>
      { f with clips := 0, holdsBroken := 0 })).clearSat 0x0503 (rd c.arg 0 1) else s) (s.feltBody (rd c.arg 0 1)) := by
  simp only [feltStatus, hline]
  rfl

theorem feltStatusCompletes : FeltStatusCompletes := by
  intro t c s ha hline
  refine completes_okWith _ t _ _ c s _ _ _ rfl ha (feltStatus_ok hline) ?_ fun eff => ?_
  · split <;> rfl
  · simp only [State.settle_frame, State.answer_frame, State.presentNonce_frame]
    split <;> rfl

/-! ### Complete quires and their release (R178, R200) -/

theorem State.quireReady_slow {s : State} {l q : Nat} {a b : FeltRow} (hstart : (s.slowCfg l).started = true) (hstop : s.slowStopping l = false)
    (hnew : ∀ j ∈ (s.slowOf l).queue, j.quire ≠ q) (hfirst : ((s.feltOf l).quireRows q).head? = some a)
    (hlast : ((s.feltOf l).quireRows q).getLast? = some b) :
    s.quireReady l q = (s.modSlow l (fun r => { r with queue := r.queue ++ [⟨q, s.now, (((s.feltOf l).quireRows q).map FeltRow.chain).foldl max 0,
      BitVec.ofNat 96 (rd a.record 0 12), BitVec.ofNat 96 (rd b.record 0 12)⟩] })).addJobs
        ((List.range (ceilDiv (s.feltOf l).points 256)).map (fun g => .slow l q g)) := by
  have hq : (s.slowOf l).queue.any (fun j => j.quire == q) = false := by simpa using hnew
  simp [State.quireReady, hstart, hstop, hq, hfirst, hlast]

theorem quireCompleteCompletes : QuireCompleteCompletes := by
  intro t l a b s hfull hpos hrows hfirst hlast hstart hstop hnew
  refine completes_finish (f := fun s => s.quireComplete l) rfl ?_
  have hgo : (s.atInstant t).quireComplete l = (s.atInstant t).quireReady l ((s.feltOf l).fsn / 32 - 1) := by
    unfold State.quireComplete
    exact if_pos (by simp [hfull, hpos, hrows, show (s.atInstant t).feltOf l = s.feltOf l from rfl])
  rw [hgo, State.quireReady_slow (s := s.atInstant t) hstart hstop hnew hfirst hlast]
  simp only [State.settle_frame]
  refine ⟨rfl, ?_⟩
  simp only [State.addJobs, State.modSlow_tiles, State.modSlow_now, List.map_map]
  rfl

/-- What of a line's slow-time processing the release of a quire moves: the quires that wait, the count of those released, and the lag of the last. -/
def SlowRun.served (r : SlowRun) : List QuireJob × Nat × Nat := (r.queue, r.quires, r.lagUs)

theorem State.slowSaturated_served (s : State) (l : Nat) (stages : List Nat) :
    (s.slowSaturated l stages).slow.map SlowRun.served = s.slow.map SlowRun.served := by
  refine foldl_keeps (fun s : State => s.slow.map SlowRun.served) (fun s k => ?_) stages s
  simp only [State.raiseLine, State.raise_frame, State.modSlow_slow]
  exact map_upd _ _ _ _ fun _ => rfl

/-- What the release of a quire does besides: the read of its slot, the reports of saturations, the delivery of its slow sheets and the jobs of the
point conditions. -/
theorem State.afterRelease_served (s : State) (l lo hi : Nat) (hurt armed : Bool) (sats : List Nat) (sheets : List SlowSheet) (jobs : List JobKind) :
    (if armed then (sheets.foldl (fun s v => s.deliver (fun d => d.source == 2 && d.line == l) (v.item l))
        ((if hurt then s.readRange 1 lo hi else s).slowSaturated l sats)).addJobs jobs
      else sheets.foldl (fun s v => s.deliver (fun d => d.source == 2 && d.line == l) (v.item l))
        ((if hurt then s.readRange 1 lo hi else s).slowSaturated l sats)).slow.map SlowRun.served = s.slow.map SlowRun.served := by
  have hfold : ∀ v : State, (sheets.foldl (fun s v => s.deliver (fun d => d.source == 2 && d.line == l) (v.item l)) v).slow = v.slow := fun v =>
    foldl_part (p := .slow) _ (fun s v => s.deliver_part _ _ (by decide)) _ _
  have hread : (s.readRange 1 lo hi).slow = s.slow := s.readRange_part (p := .slow) 1 lo hi (by decide)
  have hjobs : ∀ v : State, (v.addJobs jobs).slow = v.slow := fun _ => rfl
  simp only [apply_ite State.slow, hjobs, hfold, ite_self, State.slowSaturated_served, hread]

theorem State.releaseQuire_served {s : State} {l : Nat} {j : QuireJob} {rest : List QuireJob} (hq : (s.slowOf l).queue = j :: rest)
    (hheld : (s.feltOf l).oldest ≤ 32 * j.quire) (hdone : s.slowJobsLeft l j.quire = false) (hl : l < s.slow.length) :
    ((s.releaseQuire l).slowOf l).served = (rest, satAdd (s.slowOf l).quires 1, satTo 4 ((s.now - j.completeAt) / ticksPerUs)) := by
  have hgo : ¬ (decide (32 * j.quire < (s.feltOf l).oldest) || s.slowJobsLeft l j.quire) = true := by simp [hheld, hdone]
  unfold State.releaseQuire
  simp only [hq, if_neg hgo]
  refine (nth_eq_of_map (State.afterRelease_served _ l _ _ _ _ _ _ _) l SlowRun.reset).trans ?_
  rw [State.modSlow_slow, nth_upd _ _ _ _ hl]
  rfl

theorem State.quireReleased_slow (s : State) (l : Nat) : (s.quireReleased l).slow = (s.releaseQuire l).slow := by
  simp only [State.quireReleased, apply_ite State.slow, State.modGrid_slow, ite_self]

theorem slowQuireReleasedCompletes : SlowQuireReleasedCompletes := by
  intro t l j rest s hq hheld hdone hpwr hshut hl
  refine completes_finish (f := fun s => (s.quireReleased l).advance) rfl ?_
  rw [State.advance_of_part (s := s.atInstant t) (State.quireReleased_part _ l (by decide)) (State.quireReleased_part _ l (by decide)) hpwr hshut]
  have hserved := State.releaseQuire_served (s := s.atInstant t) hq hheld hdone hl
  simp only [SlowRun.served, Prod.mk.injEq] at hserved
  simp only [State.slowOf, State.settle_frame, State.quireReleased_slow]
  exact hserved

theorem State.loseQuire_head {s : State} {l : Nat} {j : QuireJob} {rest : List QuireJob} (hq : (s.slowOf l).queue = j :: rest) (hroom : s.room 1) :
    (s.loseQuire l j.quire).slow = upd s.slow l (fun r =>
      { r with queue := r.queue.filter (fun k => k.quire != j.quire), overruns := satAdd r.overruns 1, chainFor := max r.chainFor (max j.mark 1) }) ∧
      (s.loseQuire l j.quire).heard 0x0503 (srcLine l) := by
  have hfind : (s.slowOf l).queue.find? (fun k => k.quire == j.quire) = some j := by simp [hq]
  unfold State.loseQuire
  simp only [hfind]
  refine ⟨by simp [State.raiseLine, State.dropJobs], heard_raise _ _ _ _ _ _ _ _ ?_⟩
  exact (room_congr s _ 1 (by simp [State.dropJobs]) (by simp [State.dropJobs]) (by simp [State.dropJobs])).mpr hroom

theorem slowOverrunCompletes : SlowOverrunCompletes := by
  intro t l j rest s hq hlost hpwr hshut hreport
  refine completes_finish (f := fun s => (s.slowOverrun l).advance) rfl ?_
  rw [State.advance_of_part (s := s.atInstant t) (State.slowOverrun_part _ l (by decide)) (State.slowOverrun_part _ l (by decide)) hpwr hshut]
  have hgo : (s.atInstant t).slowOverrun l = (s.atInstant t).loseQuire l j.quire := by
    unfold State.slowOverrun
    rw [show (s.atInstant t).slowOf l = s.slowOf l from rfl, hq]
    exact if_neg (Nat.not_le.mpr hlost)
  obtain ⟨hslow, hheard⟩ := State.loseQuire_head (s := s.atInstant t) hq (State.room_le (room_of_canReport _ hreport) (by decide))
  rw [hgo]
  simp only [State.settle_frame]
  exact ⟨hslow, heard_settle _ _ _ hheard⟩

/-! ### What lays out the rings (R175 to R180) -/

/-- A ring but for its holds. -/
def FeltRing.unheld (f : FeltRing) : FeltRing := { f with holds := [] }

/-- What lays out the rings in DRAM: the rings but for their holds, and what their shares are computed from (R175 to R180). -/
def State.layout (s : State) : List FeltRing × List FeltCfg × List SlowCfg × Build × Nat × Nat :=
  (s.felt.map FeltRing.unheld, s.cfg.felt, s.cfg.slow, s.build, s.memMask, s.capMibNow)

theorem State.layout_of_part {s u : State} (hp : ∀ p ∈ [StatePart.felt, .cfg, .memMask, .capMibNow], u.part p = s.part p) (hf : u.fixed = s.fixed) :
    u.layout = s.layout := by
  obtain ⟨-, hb, -⟩ := State.fixed_iff.mp hf
  simp only [List.forall_mem_cons, State.part] at hp
  obtain ⟨hfelt, hcfg, hmask, hcap, -⟩ := hp
  simp only [State.layout, hfelt, hcfg, hmask, hcap, hb]

theorem State.unheld_of_layout {s u : State} (h : u.layout = s.layout) (l : Nat) : (u.feltOf l).unheld = (s.feltOf l).unheld :=
  nth_eq_of_map (congrArg Prod.fst h) l FeltRing.reset

theorem State.slotsNow_of_layout {s u : State} (h : u.layout = s.layout) (l points decode : Nat) :
    u.slotsNow l points decode = s.slotsNow l points decode := by
  simp only [State.layout, Prod.mk.injEq] at h
  obtain ⟨-, hfelt, hslow, hb, hmask, hcap⟩ := h
  have hen : u.lineEnabled = s.lineEnabled := funext (State.lineEnabled_congr hb)
  simp only [State.slotsNow, State.sharePages, State.feltPages, State.usableMib, State.usableUnder, State.stateMib, State.enabledLines,
    State.feltCfg, hfelt, hslow, hb, hmask, hcap, hen]

@[simp] theorem State.layout_ite (c : Prop) [Decidable c] (s u : State) : (if c then s else u).layout = if c then s.layout else u.layout :=
  apply_ite State.layout c s u

@[simp] theorem State.dropHold_layout (s : State) (l i : Nat) : (s.dropHold l i).layout = s.layout :=
  Prod.ext (map_upd _ _ _ _ fun _ => rfl) rfl

@[simp] theorem State.recReady_layout (s : State) (i : Nat) : (s.recReady i).layout = s.layout :=
  State.layout_of_part (by simp) (by simp)

@[simp] theorem State.modRec_layout (s : State) (i : Nat) (f : CapRec → CapRec) : (s.modRec i f).layout = s.layout :=
  State.layout_of_part (by simp) (by simp)

@[simp] theorem State.raiseLine_layout (s : State) (code sev l x : Nat) (args : List Byte) (key : Option (List Nat)) :
    (s.raiseLine code sev l x args key).layout = s.layout :=
  State.layout_of_part (by simp) (by simp)

@[simp] theorem State.sweepHolds_layout (s : State) (l : Nat) : (s.sweepHolds l).layout = s.layout := by
  refine foldl_keeps State.layout (fun s h => ?_) _ s
  split
  · simp
  · simp [-State.modRec_eq]

@[simp] theorem State.trigFormat_layout (s : State) (l : Nat) : (s.trigFormat l).layout = s.layout :=
  State.layout_of_part (by simp) (by simp)

@[simp] theorem State.setArmed_layout (s : State) (c : Nat) (v : Bool) : (s.setArmed c v).layout = s.layout := rfl
@[simp] theorem State.modCond_layout (s : State) (c : Nat) (f : CondRun → CondRun) : (s.modCond c f).layout = s.layout := rfl

@[simp] theorem State.armOne_layout (s : State) (c mode : Nat) : (s.armOne c mode).layout = s.layout := by
  unfold State.armOne
  split
  · rfl
  · simp [-State.modCond_eq]

@[simp] theorem State.discardDisarmed_layout (s : State) (c : Nat) : (s.discardDisarmed c).layout = s.layout := by
  refine foldl_keeps State.layout (fun s r => ?_) _ s
  have h1 : ∀ v : State, (v.abortItems (fun d => d.source == 4) 4 1 r.line r.trigger r.trigger).layout = v.layout := fun v =>
    State.layout_of_part (by simp) (by simp)
  have h2 : (s.freeRec r.index).layout = s.layout := State.layout_of_part (by simp) (by simp)
  simp [h1, h2]

@[simp] theorem State.strikeLast_layout (s : State) (p : Pend) (unit : Nat) (stamp : BitVec 96) (inst : Nat) :
    (s.strikeLast p unit stamp inst).layout = s.layout :=
  State.layout_of_part (by simp) (by simp)

@[simp] theorem State.armEffectOf_layout (s : State) (c : Nat) : (s.armEffectOf c).layout = s.layout := by
  unfold State.armEffectOf
  split
  · rfl
  · simp

@[simp] theorem State.rebaseEffect_layout (s : State) (c : Nat) : (s.rebaseEffect c).layout = s.layout :=
  State.layout_of_part (by simp) (by simp)

@[simp] theorem State.boundaryConds_layout (s : State) (l : Nat) : (s.boundaryConds l).layout = s.layout := by
  refine foldl_keeps State.layout (fun s c => ?_) _ s
  split <;> simp

/-! ### The writer begins a quire (R185) -/

/-- The slots of a ring: the quire begun last, and how many quires it holds. -/
def FeltRing.slots (f : FeltRing) : Option Nat × Nat := (f.begun, f.ns)

theorem State.clipReader_slots (s : State) (l r oldest cause skipped : Nat) :
    (s.clipReader l r oldest cause skipped).felt.map FeltRing.slots = s.felt.map FeltRing.slots := by
  have hfelt : (s.clipReader l r oldest cause skipped).felt =
      upd s.felt l (fun f => { f with readers := f.readers.set r (some oldest), clips := satAdd f.clips 1 }) := by
    refine (foldl_part (p := .felt) _ (fun s k => ?_) _ _).trans ?_
    · split
      · simp
      · rfl
    · exact State.raiseLine_part (p := .felt) _ _ _ _ _ _ _
  rw [hfelt]
  exact map_upd _ _ _ _ fun _ => rfl

theorem State.overtake_slots (s : State) (l oldest cause : Nat) : (s.overtake l oldest cause).felt.map FeltRing.slots = s.felt.map FeltRing.slots := by
  unfold State.overtake
  dsimp only
  rw [State.modFelt_felt]
  refine (map_upd _ _ _ _ ?_).trans (foldl_keeps (fun s : State => s.felt.map FeltRing.slots) (fun s r => ?_) _ s)
  · exact fun _ => rfl
  split
  · split
    · exact s.clipReader_slots _ _ _ _ _
    · rfl
  · rfl

theorem State.afterBegin_slots (s : State) (l lo hi oldest : Nat) (f : SlowRun → SlowRun) :
    ((if ((s.overwriteBlocks lo hi).feltOf l).oldest < oldest then (s.overwriteBlocks lo hi).overtake l oldest 0
      else s.overwriteBlocks lo hi).modSlow l f).felt.map FeltRing.slots = s.felt.map FeltRing.slots := by
  rw [State.modSlow_felt]
  split
  · exact State.overtake_slots _ _ _ _
  · rfl

theorem State.beginQuire_slots {s : State} {l : Nat} (hb : (s.feltOf l).atBoundary = true) (hl : l < s.felt.length) :
    ((s.beginQuire l).feltOf l).slots = (some ((s.feltOf l).fsn / 32), s.slotsNow l (s.feltOf l).points (s.feltOf l).decode) := by
  unfold State.beginQuire
  simp only [hb, Bool.not_true, Bool.false_eq_true, if_false]
  refine (nth_eq_of_map (State.afterBegin_slots _ l _ _ _ _) l FeltRing.reset).trans ?_
  rw [State.modFelt_felt, nth_upd _ _ _ _ hl]
  rfl

theorem State.slowConfigEffect_none {s : State} {l : Nat} (h : s.pendOf 0x0504 l = none) : s.slowConfigEffect l = s := by
  simp [State.slowConfigEffect, h]

theorem State.slowStartEffect_none {s : State} {l : Nat} (h : s.pendOf 0x0505 l = none) : s.slowStartEffect l = s := by
  simp [State.slowStartEffect, h]

theorem State.feltResizeEffect_none {s : State} {l : Nat} (h : s.pendOf 0x0501 l = none) : s.feltResizeEffect l = s := by
  simp [State.feltResizeEffect, h]

theorem State.resizeEffect_none {s : State} {l : Nat} (h : s.pendOf 0x0501 l = none) : s.resizeEffect l = s.sweepHolds l := by
  have hkept : ((s.feltOf l).fsn ≠ 0 && (s.feltOf l).fsn == 0) = false := by cases (s.feltOf l).fsn <;> rfl
  simp only [State.resizeEffect, State.feltResizeEffect_none h, hkept]
  rfl

theorem State.quireBegin_idle {s : State} {l : Nat} (hb : (s.feltOf l).atBoundary = true) (hresize : s.pendOf 0x0501 l = none)
    (hconfig : s.pendOf 0x0504 l = none) (hstart : s.pendOf 0x0505 l = none) :
    s.quireBegin l = (((s.sweepHolds l).boundaryConds l).beginQuire l).sweepHolds l := by
  simp [State.quireBegin, hb, State.slowConfigEffect_none hconfig, State.slowStartEffect_none hstart, State.resizeEffect_none hresize]

theorem State.quireBegin_slots {s : State} {l : Nat} (hb : (s.feltOf l).atBoundary = true) (hresize : s.pendOf 0x0501 l = none)
    (hconfig : s.pendOf 0x0504 l = none) (hstart : s.pendOf 0x0505 l = none) (hl : l < s.felt.length) :
    ((s.quireBegin l).feltOf l).slots = (some ((s.feltOf l).fsn / 32), s.slotsNow l (s.feltOf l).points (s.feltOf l).decode) := by
  rw [State.quireBegin_idle hb hresize hconfig hstart]
  generalize hv : (s.sweepHolds l).boundaryConds l = v
  have hlay : v.layout = s.layout := by rw [← hv, State.boundaryConds_layout, State.sweepHolds_layout]
  have hring : (v.feltOf l).unheld = (s.feltOf l).unheld := State.unheld_of_layout hlay l
  have hlen : v.felt.length = s.felt.length := by simpa [State.layout] using congrArg (fun r => r.1.length) hlay
  have hbegun := State.beginQuire_slots (s := v) ((congrArg FeltRing.atBoundary hring).trans hb) (hlen ▸ hl)
  calc (((v.beginQuire l).sweepHolds l).feltOf l).slots
      = ((v.beginQuire l).feltOf l).slots :=
        (congrArg FeltRing.slots (State.unheld_of_layout (State.sweepHolds_layout (v.beginQuire l) l) l) :)
    _ = (some ((v.feltOf l).fsn / 32), v.slotsNow l (v.feltOf l).points (v.feltOf l).decode) := hbegun
    _ = (some ((s.feltOf l).fsn / 32), s.slotsNow l (s.feltOf l).points (s.feltOf l).decode) := by
      rw [State.slotsNow_of_layout hlay]
      exact (congrArg (fun f => (some (FeltRing.fsn f / 32), s.slotsNow l f.points f.decode)) hring :)

theorem feltQuireBeginCompletes : FeltQuireBeginCompletes := by
  intro t l s hdue hb hresize hconfig hstart hl
  refine completes_finish (f := fun s => s.quireBeginRow l) rfl ?_
  have hgo : (s.atInstant t).quireBeginRow l = (s.atInstant t).quireBegin l := by
    rw [State.quireBeginRow, State.atQuireBegin, State.slowStartEffect_none (s := s.atInstant t) hstart, ite_self]
    exact if_pos hdue
  have hslots := State.quireBegin_slots (s := s.atInstant t) hb hresize hconfig hstart hl
  rw [hgo]
  simp only [State.feltOf, State.settle_frame]
  exact Prod.mk.inj hslots

/-! ### `felt.resize` (R201, R202) -/

theorem State.formatRing_empty {s : State} {l : Nat} (points decode : Nat) (hl : l < s.felt.length) :
    ((s.formatRing l points decode).feltOf l).fsn = 0 ∧ ((s.formatRing l points decode).feltOf l).rows = [] := by
  have hlost : ((s.slowOf l).queue.foldl (fun s j => s.loseQuire l j.quire) s).felt = s.felt :=
    foldl_part (p := .felt) (fun (s : State) (j : QuireJob) => s.loseQuire l j.quire) (fun s j => s.loseQuire_part l j.quire (by decide)) _ s
  unfold State.formatRing
  dsimp only
  rw [State.feltOf, State.modFelt_felt, nth_upd _ _ _ _ ?len]
  · exact ⟨rfl, rfl⟩
  case len =>
    refine lt_of_lt_of_eq hl (Eq.symm ((foldl_keeps (fun s : State => s.felt.length) (fun s r => ?_) _ _).trans (congrArg List.length hlost)))
    split
    · simpa using congrArg List.length (s.clipReader_slots l r 0 2 _)
    · rfl

theorem State.resizeLine_cfg (s : State) (l : Nat) (r : List Byte) :
    (s.resizeLine l r).cfg = { s.cfg with felt := s.cfg.felt.set l ⟨resizeParts r l, resizeHalf r l⟩ } := by
  have hpart : (s.resizeLine l r).part .cfg = (s.modCfg (fun g => { g with felt := g.felt.set l ⟨resizeParts r l, resizeHalf r l⟩ })).part .cfg := by
    unfold State.resizeLine
    dsimp only
    rw [State.raiseLine_part]
    split
    · split <;> simp
    · simp
  exact hpart

theorem State.resizeLine_empty {s : State} {l : Nat} {r : List Byte} (hchange : resizeHalf r l ≠ (s.feltCfg l).half) (hl : l < s.felt.length) :
    ((s.resizeLine l r).feltOf l).fsn = 0 ∧ ((s.resizeLine l r).feltOf l).rows = [] := by
  have hraise : ∀ (v : State) (args : List Byte), (v.raiseLine 0x0502 sevInfo l v.now args none).felt = v.felt := fun v args =>
    State.raiseLine_part (p := .felt) v _ _ _ _ _ _
  unfold State.resizeLine
  simp only [bne_iff_ne.mpr hchange, if_true, State.feltOf, hraise]
  split <;> exact State.formatRing_empty _ _ hl

theorem State.feltResizeEffect_due {s : State} {l : Nat} {p : Pend} (hp : s.pendOf 0x0501 l = some p) (hdue : p.applyAt.getD p.accepted ≤ s.now)
    (hrun : s.running l = false) :
    (s.feltResizeEffect l).cfg.felt = s.cfg.felt.set l ⟨resizeParts p.data l, resizeHalf p.data l⟩ ∧
      (s.feltResizeEffect l).pend = Machine.strike 0x0501 l s.pend := by
  have hpend : (s.resizeLine l p.data).pend = s.pend := State.resizeLine_part (p := .pend) s l p.data (by decide)
  unfold State.feltResizeEffect
  simp [hp, Nat.not_lt.mpr hdue, hrun, State.pendOf_op hp, hpend, State.resizeLine_cfg]

theorem State.resizeEffect_part_eq {p : StatePart} (s : State) (l : Nat) (h : p ∉ [.streams, .health, .dram, .felt, .mem, .trig]) :
    (s.resizeEffect l).part p = (s.feltResizeEffect l).part p := by
  simp at h
  simp [State.resizeEffect, h]

theorem feltResizeTakesEffectCompletes : FeltResizeTakesEffectCompletes := by
  intro t l p s hp hdue hrun
  refine completes_finish (f := fun s => s.resizeRow l) rfl ?_
  have hcfg : ((s.atInstant t).resizeEffect l).cfg = ((s.atInstant t).feltResizeEffect l).cfg :=
    State.resizeEffect_part_eq (p := .cfg) _ l (by decide)
  have hpend : ((s.atInstant t).resizeEffect l).pend = ((s.atInstant t).feltResizeEffect l).pend :=
    State.resizeEffect_part_eq (p := .pend) _ l (by decide)
  rw [State.resizeRow, State.atQuireBegin_stopped _ hrun]
  simp only [State.settle_frame, hcfg, hpend]
  exact State.feltResizeEffect_due (s := s.atInstant t) hp hdue hrun

theorem feltResize_later {c : Cmd} {s : State} {lines : List Nat} {felt : List FeltCfg} (hl : maskList 16 (rd c.arg 0 2) = lines)
    (hf : felt = resizedFelt s.pendingFelt c.arg lines) (hm : rd c.arg 0 2 ≠ 0) (hen : s.maskEnabled (rd c.arg 0 2) = true)
    (hparts : ∀ l ∈ lines, resizeParts c.arg l ≤ 1024) (hform : ∀ l ∈ lines, rd c.arg (6 + 4 * l) 1 ≤ 1)
    (hfree : ∀ l ∈ lines, s.pendOf 0x0501 l = none) (hsame : ∀ l ∈ lines, resizeHalf c.arg l = (s.feltCfg l).half)
    (hsum : (s.enabledLines.map (fun l => (nth felt l ⟨64, false⟩).parts)).sum ≤ 1024)
    (huse : bit (rd c.arg 2 1) 0 = true ∨ ∀ l ∈ lines, s.resizeInUse c.arg felt l = false) (hshares : s.sharesOk felt s.pendingSlow = true) :
    feltResize c s = pendWith s c 0x0501 lines none := by
  have hne : lines ≠ [] := hl ▸ maskList_ne_nil hm (State.lt_of_maskEnabled hen)
  have hrange : lines.any (fun l => decide (1024 < resizeParts c.arg l) || decide (1 < rd c.arg (6 + 4 * l) 1)) = false := by
    simpa using fun l h => ⟨hparts l h, hform l h⟩
  have hbusy : lines.any (fun l => (s.pendOf 0x0501 l).isSome) = false := by simpa using hfree
  have hkind : lines.filter (fun l => resizeHalf c.arg l != (s.feltCfg l).half) = [] := by simpa using hsame
  have hstate : lines.any (fun l => resizeHalf c.arg l != (s.feltCfg l).half && (s.lineOf l).st != 0) = false := by
    simpa using fun l h hne => absurd (hsame l h) hne
  have hforce : (!bit (rd c.arg 2 1) 0 && lines.any (s.resizeInUse c.arg felt)) = false := by
    rcases huse with h | h
    · simp [h]
    · simpa using fun _ => h
  subst hf
  simp only [feltResize, hl, hm, hen, hrange, hbusy, hstate, hforce, hkind, hshares, Nat.not_lt.mpr hsum]
  simp [hne]

theorem feltResize_format {c : Cmd} {s : State} {l : Nat} {felt : List FeltCfg} (hl : maskList 16 (rd c.arg 0 2) = [l])
    (hf : felt = resizedFelt s.pendingFelt c.arg [l]) (hm : rd c.arg 0 2 ≠ 0) (hen : s.maskEnabled (rd c.arg 0 2) = true)
    (hrange : resizeParts c.arg l ≤ 1024 ∧ rd c.arg (6 + 4 * l) 1 ≤ 1) (hfree : s.pendOf 0x0501 l = none)
    (hchange : resizeHalf c.arg l ≠ (s.feltCfg l).half) (hst : (s.lineOf l).st = 0)
    (hsum : (s.enabledLines.map (fun k => (nth felt k ⟨64, false⟩).parts)).sum ≤ 1024)
    (huse : bit (rd c.arg 2 1) 0 = true ∨ (s.feltOf l).anyUse = false) (hshares : s.sharesOk felt s.pendingSlow = true) :
    (feltResize c s).1 = ⟨stPending, none, []⟩ ∧ ∀ p ≠ StatePart.pend, (feltResize c s).2.part p = (s.resizeLine l c.arg).part p := by
  have hforce : (!bit (rd c.arg 2 1) 0 && [l].any (s.resizeInUse c.arg felt)) = false := by
    rcases huse with h | h
    · simp [h]
    · simp [State.resizeInUse, hchange, h]
  have hkind : [l].filter (fun l => resizeHalf c.arg l != (s.feltCfg l).half) = [l] := by simpa using hchange
  have hout : [l].any (fun l => decide (1024 < resizeParts c.arg l) || decide (1 < rd c.arg (6 + 4 * l) 1)) = false := by simpa using hrange
  have hbusy : [l].any (fun l => (s.pendOf 0x0501 l).isSome) = false := by simpa using hfree
  have hstate : [l].any (fun l => resizeHalf c.arg l != (s.feltCfg l).half && (s.lineOf l).st != 0) = false := by simp [hst]
  have hnow : ([l].filter (fun k => !([l].contains k))).isEmpty = true := by simp
  subst hf
  simp only [feltResize, hl, hm, hen, hout, hbusy, hstate, hforce, hkind, hshares, hnow, Nat.not_lt.mpr hsum, decide_false, Bool.not_true, Bool.or_self,
    Bool.false_eq_true, if_false, if_true, List.foldl_cons, List.foldl_nil]
  split
  · exact ⟨rfl, fun p hp => by simp [hp]⟩
  · exact ⟨rfl, fun p hp => by simp [hp]⟩

/-- What follows a resize on the triggers and holds keeps every component but these. -/
theorem feltResizeAll_part_eq {p : StatePart} (c : Cmd) (s : State) (h : p ∉ [.streams, .health, .dram, .felt, .mem, .trig]) :
    (feltResizeAll c s).2.part p = (feltResize c s).2.part p := by
  simp at h
  exact foldl_part _ (fun v l => by simp [h]) _ _

theorem feltResizeAll_layout (c : Cmd) (s : State) : (feltResizeAll c s).2.layout = (feltResize c s).2.layout :=
  foldl_keeps State.layout (fun v l => by simp) _ _

theorem feltResizeCompletes : FeltResizeCompletes := by
  intro t c s ha hm hen hlines hsum huse hshares
  simp only [imp_and, forall_and] at hlines
  obtain ⟨hparts, hform, hfree, hsame⟩ := hlines
  have hh := feltResize_later (s := (s.atInstant t).placed 0x0501 c) rfl rfl hm hen hparts hform hfree hsame hsum huse hshares
  have hpend := feltResizeAll_part_eq (p := .pend) c ((s.atInstant t).placed 0x0501 c) (by decide)
  rw [hh] at hpend
  have hresp : (feltResize c ((s.atInstant t).placed 0x0501 c)).1 = ⟨stPending, none, []⟩ := congrArg Prod.fst hh
  refine completes_of_handler _ t _ _ c s _ ⟨stPending, none, []⟩ _ rfl ha (Prod.ext hresp rfl) ?_ fun eff => ?_
  · exact congrArg List.length (feltResizeAll_part (p := .mbs) c _ (by decide))
  · simp only [State.awaits, State.settle_frame, State.answer_frame, State.presentNonce_frame]
    exact hpend

/-- A resize that formats a ring leaves it empty, whatever follows on the triggers and holds. -/
theorem feltResizeAll_ring {c : Cmd} {s v : State} {l : Nat} (hfelt : (feltResize c s).2.felt = v.felt)
    (hempty : (v.feltOf l).fsn = 0 ∧ (v.feltOf l).rows = []) :
    ((feltResizeAll c s).2.feltOf l).fsn = 0 ∧ ((feltResizeAll c s).2.feltOf l).rows = [] := by
  have hring := State.unheld_of_layout (feltResizeAll_layout c s) l
  rw [State.feltOf, State.feltOf, hfelt] at hring
  exact ⟨(congrArg FeltRing.fsn hring).trans hempty.1, (congrArg FeltRing.rows hring).trans hempty.2⟩

theorem feltResizeFormatCompletes : FeltResizeFormatCompletes := by
  intro t l c s ha hl hmask hen hrange hfree hchange hst hsum huse hshares hlen
  have hone : maskList 16 (rd c.arg 0 2) = [l] := by rw [hmask, maskList_two_pow l hl]
  obtain ⟨hresp, hpart⟩ :=
    feltResize_format (s := (s.atInstant t).placed 0x0501 c) hone rfl (by simp [hmask]) hen hrange hfree hchange hst hsum huse hshares
  have hring := feltResizeAll_ring (hpart .felt (by decide)) (State.resizeLine_empty hchange (hlen.symm ▸ hl))
  have hcfg := (feltResizeAll_part_eq (p := .cfg) c _ (by decide)).trans ((hpart .cfg (by decide)).trans (State.resizeLine_cfg _ l c.arg))
  refine completes_of_handler _ t _ _ c s _ ⟨stPending, none, []⟩ _ rfl ha (Prod.ext hresp rfl) ?_ fun eff => ?_
  · exact congrArg List.length (feltResizeAll_part (p := .mbs) c _ (by decide))
  · simp only [State.feltOf, State.settle_frame, State.answer_frame, State.presentNonce_frame]
    exact ⟨congrArg Retained.felt hcfg, hring⟩

/-- Settles O32: each row is `finish` of an operation or of a handler; a fold over readers, conditions or holds is carried by what it keeps
of the rings. -/
theorem feltComplete : Obligations.FeltComplete :=
  ⟨feltQuireBeginCompletes, quireCompleteCompletes, slowQuireReleasedCompletes, slowOverrunCompletes, feltResizeCompletes, feltResizeFormatCompletes,
    feltResizeTakesEffectCompletes, feltReaderOpenCompletes, feltReaderMoveCompletes, feltReaderCloseCompletes, feltStatusCompletes⟩

end Sys2Proof.Machine

/-! PROOFS of host kernels as time passes: what a running kernel may write, and a dispatch that lets one store. -/

namespace Sys2Proof.Machine

/-! ### What running host kernels keep (R229)

A kernel reaches the device through the mover alone: it writes DRAM and the channels' state, and reads of unsound blocks are counted. What these
operations keep is kept by every run. -/

/-- What the mover's reads and writes of DRAM keep. -/
structure MoverKeeps (Q : State → Prop) : Prop where
  dram : ∀ s m, Q s → Q { s with dram := m }
  mem : ∀ s f, Q s → Q (s.modMem f)
  read : ∀ s b, Q s → Q (s.badRead 4 b)

theorem foldl_holds {α β : Type} {Q : β → Prop} {f : β → α → β} (h : ∀ b a, Q b → Q (f b a)) (l : List α) {b : β} (hb : Q b) :
    Q (l.foldl f b) :=
  List.foldlRecOn l f hb fun b hb a _ => h b a hb

section
variable {Q : State → Prop}

theorem State.writeInBlock_keeps (hQ : MoverKeeps Q) {s : State} (a : Nat) (data : List Byte) (h : Q s) : Q (s.writeInBlock 4 a data) := by
  have hmem : ∀ c f, Q (s.modChan c f) := fun c f => hQ.mem s _ h
  unfold State.writeInBlock
  dsimp only
  split
  · exact hQ.mem _ _ (hmem _ _)
  · split
    · exact hQ.dram _ _ (hQ.mem _ _ (hmem _ _))
    · split
      · exact hQ.dram _ _ (hmem _ _)
      · exact hQ.dram _ _ (hQ.mem _ _ (hQ.read _ _ (hmem _ _)))

theorem State.dramWrite_keeps (hQ : MoverKeeps Q) {s : State} (a : Nat) (data : List Byte) (h : Q s) : Q (s.dramWrite a data) := by
  unfold State.dramWrite State.writeBy
  generalize data.length / 64 + 2 = n
  induction n generalizing s a data with
  | zero => exact h
  | succ n ih =>
    unfold State.dramWriteGo
    split
    · exact h
    · exact ih _ _ (State.writeInBlock_keeps hQ _ _ h)

theorem State.putBytes_keeps (hQ : MoverKeeps Q) {s : State} (l : List (Nat × Byte)) (h : Q s) : Q (s.putBytes l) :=
  foldl_holds (fun _ _ => State.dramWrite_keeps hQ _ _) _ h

theorem State.wakeChannel_keeps (hQ : MoverKeeps Q) (s : State) (c : Nat) (h : Q s) : Q (s.wakeChannel c) := by
  unfold State.wakeChannel State.modChan
  exact hQ.mem s _ h

theorem State.touchDram_keeps (hQ : MoverKeeps Q) {s : State} (a n : Nat) (h : Q s) : Q (s.touchDram a n) :=
  foldl_holds (State.wakeChannel_keeps hQ) _ h

theorem State.noteCells_keeps (hQ : MoverKeeps Q) {s : State} (l : List (Nat × Nat)) (h : Q s) : Q (s.noteCells l) := by
  unfold State.noteCells
  refine foldl_holds (fun s b => hQ.read s b) _ ?_
  split
  · exact State.touchDram_keeps hQ _ _ (State.touchDram_keeps hQ _ _ h)
  · exact h

theorem Run.finish_keeps (hQ : MoverKeeps Q) {r : Run} (m : Mv) (h : Q r.s) : Q (r.finish m).1.s := by
  unfold Run.finish
  split
  · exact h
  · split
    · exact State.putBytes_keeps hQ _ h
    · dsimp only
      split <;> exact State.noteCells_keeps hQ _ h

theorem Run.pump_keeps (hQ : MoverKeeps Q) (n : Nat) {r : Run} (h : Q r.s) : Q (Run.pump n r).1.s := by
  induction n generalizing r with
  | zero => exact h
  | succ n ih =>
    unfold Run.pump
    split
    · exact h
    · next m rest _ =>
      have hf : Q (({ r with queue := rest }).finish m).1.s := Run.finish_keeps hQ m h
      dsimp only
      iterate 3 (split; · exact h)
      split
      · exact hf
      · exact ih hf

/-! An instruction's own work stays within the tile. -/

@[simp] theorem Run.parallel_s (r : Run) (w : Nat) : (r.parallel w).1.s = r.s := by
  unfold Run.parallel; dsimp only; split <;> rfl

@[simp] theorem Run.control_s (r : Run) (base w : Nat) : (r.control base w).1.s = r.s := by
  unfold Run.control; dsimp only; (repeat' split) <;> rfl

/-- What an instruction does to the device its mover does. -/
theorem Run.step_s (r : Run) (limit : Nat) : (r.step limit).1.s = (Run.pump 5 r).1.s := by
  unfold Run.step
  dsimp only
  split
  · rfl
  · split <;> simp [apply_ite Prod.fst, apply_ite Run.s]

theorem Run.step_keeps (hQ : MoverKeeps Q) {r : Run} (limit : Nat) (h : Q r.s) : Q (r.step limit).1.s := by
  rw [Run.step_s]
  exact Run.pump_keeps hQ 5 h

theorem Run.drain_keeps (hQ : MoverKeeps Q) {r : Run} (h : Q r.s) : Q r.drain.s := by
  unfold Run.drain
  split
  · exact h
  · split
    · exact h
    · exact State.putBytes_keeps hQ _ h

theorem State.stepTile_keeps (hQ : MoverKeeps Q) (hpool : ∀ s f, Q s → Q (s.modPool f)) {s : State} (p : Nat) (h : Q s) : Q (s.stepTile p) := by
  unfold State.stepTile Run.settle State.modTile
  exact hpool _ _ (Run.step_keeps hQ (r := s.hostRun p) _ h)

theorem State.runTiles_keeps (hQ : MoverKeeps Q) (hpool : ∀ s f, Q s → Q (s.modPool f)) {s : State} (h : Q s) : Q s.runTiles := by
  unfold State.runTiles
  generalize 3601200 = n
  induction n generalizing s with
  | zero => exact h
  | succ n ih =>
    unfold State.runTilesGo
    split
    · exact ih (State.stepTile_keeps hQ hpool _ h)
    · exact h

end

/-! ### Components that running kernels keep -/

theorem moverKeeps_part {p : StatePart} (s : State) (h : p ∉ [.health, .dram, .mem]) : MoverKeeps (fun u => u.part p = s.part p) where
  dram u m hu := by simp at h; rw [State.setDram_part _ _ (by simp [h]), hu]
  mem u f hu := by simp at h; rw [State.modMem_part _ _ (by simp [h]), hu]
  read u b hu := by simp at h; rw [State.badRead_part _ _ _ (by simp [h]), hu]

@[simp] theorem State.modPool_part {p : StatePart} (s : State) (f : TilePool → TilePool) (h : p ≠ .tiles) : (s.modPool f).part p = s.part p := by
  cases p with
  | tiles => exact absurd rfl h
  | _ => rfl

theorem Run.drain_part {p : StatePart} (r : Run) (h : p ∉ [.health, .dram, .mem]) : r.drain.s.part p = r.s.part p :=
  Run.drain_keeps (moverKeeps_part r.s h) rfl

theorem State.runTiles_part {p : StatePart} (s : State) (h : p ∉ [.health, .dram, .mem, .tiles]) : s.runTiles.part p = s.part p := by
  simp at h
  exact State.runTiles_keeps (moverKeeps_part s (by simp [h])) (fun u f hu => by rw [State.modPool_part _ _ (by simp [h]), hu]) rfl

theorem State.runTiles_now (s : State) : s.runTiles.now = s.now := (State.fixed_iff.mp s.runTiles_fixed).1

/-! ### A dispatch that lets a kernel store -/

/-- A kernel of one instruction, DONE. -/
def doneKernel : Kernel := ⟨0, 0x1400, 0, 64, [0x8A * 2 ^ 56], [], []⟩

/-- Tile 0 runs a host job of that kernel; its mover has come to the end of a descriptor that stores one byte of X memory at the begin of the job
region. -/
def storingKernel : State :=
  (State.reset.modCfg (fun g => { g with kernels := [some doneKernel, none, none, none] })).modTile 0 (fun t =>
    { t with
      regs := TileRegs.entry 0x1400, x := [(0x4000, 1)], job := some (⟨.host 0 0 [] 0, 0, none⟩, 0)
      run := ⟨1, [⟨true, 4, false, false, jobRegionBase, 0x4000, 1, 1, 0, 0, 0, 1, 0, 1⟩], false, [], none⟩ })

theorem State.runTiles_of_one {s : State} {p x : Nat} (h : s.nextTile = some (p, x)) (h' : (s.stepTile p).nextTile = none) :
    s.runTiles = s.stepTile p := by
  have hgo : State.runTilesGo (3601198 + 1) (s.stepTile p) = s.stepTile p := by
    rw [State.runTilesGo, h']
  show State.runTilesGo (3601199 + 1) s = _
  rw [State.runTilesGo, h]
  exact hgo

theorem State.dispatch_busy {s : State} {p : Nat} (setup : Nat) (delays : List Nat) (h : s.runTiles.tileFree p = false) :
    s.dispatch p setup delays = s.runTiles := by
  simp [State.dispatch, h]

theorem storingKernel_run : (storingKernel.atInstant 1000).runTiles = (storingKernel.atInstant 1000).stepTile 0 :=
  State.runTiles_of_one (x := 128) (by decide) (by decide)

/-- Refutes O21: `writesOf` lists the tile pool alone for JOB_DISPATCH, but a dispatch brings the running host kernels up to its instant (R229), and
their stores go to DRAM. -/
theorem not_tileAndTriggerFrames : ¬ Obligations.TileAndTriggerFrames := by
  intro h
  have hkept : ((storingKernel.atInstant 1000).dispatch 0 0 []).settle.dram = storingKernel.dram :=
    h (.jobDispatch 1000 ⟨0, 0, []⟩) storingKernel _ rfl rfl .dram (by decide)
  have hbusy : (storingKernel.atInstant 1000).runTiles.tileFree 0 = false := by rw [storingKernel_run]; decide
  rw [State.dispatch_busy _ _ hbusy, storingKernel_run] at hkept
  simp only [State.settle_frame] at hkept
  have hstored : ((storingKernel.atInstant 1000).stepTile 0).dram ≠ storingKernel.dram := by decide
  exact hstored hkept

end Sys2Proof.Machine

/-! PROOFS of the tile pool: dispatch, completion, aborts, spares, and the commands of group 0x06. -/

namespace Sys2Proof.Machine

/-! ### Reads of unsound blocks open at most one record for each channel (R395, R466) -/

/-- What of a record says whether an occurrence joins it (R466). -/
def EvRec.ident (r : EvRec) : Nat × Nat × Option (List Nat) := (r.code, r.src, r.key)

/-- What makes an occurrence of EV_MEM_UNCORRECTABLE join: its code, its channel, no further key. -/
def uncorrectableOf (c : Nat) : Nat × Nat × Option (List Nat) := (0x0C02, srcChannel c, some [])

/-- The channels that have no such record in a queue. -/
def silentChannels (l : List EvRec) : List Nat := (List.range 4).filter (fun c => !(l.map EvRec.ident).contains (uncorrectableOf c))

/-- Room for `n` more records, whatever reads of unsound blocks are reported before them. -/
def State.roomBeyondReads (s : State) (n : Nat) : Prop :=
  s.onDie = false ∧ s.ev.held.length + (silentChannels s.ev.held).length + n ≤ queueSpace

theorem State.roomBeyondReads_of_room {s : State} {n : Nat} (h : s.room (n + 4)) : s.roomBeyondReads n := by
  have hlen : (silentChannels s.ev.held).length ≤ 4 := (List.length_filter_le _ _).trans (by simp)
  obtain ⟨hdie, hroom⟩ := h
  exact ⟨hdie, by omega⟩

theorem State.room_of_roomBeyondReads {s : State} {n : Nat} (h : s.roomBeyondReads n) : s.room n :=
  ⟨h.1, by have := h.2; omega⟩

theorem joins_iff {r a : EvRec} : joins r a = true ↔ a.ident = r.ident ∧ r.key.isSome := by
  unfold joins EvRec.ident
  cases r.key with
  | none => simp
  | some k =>
    cases a.key with
    | none => simp
    | some k' => simp [and_assoc, @eq_comm _ k k']

theorem joinRec_ident {r : EvRec} {l m : List EvRec} (h : joinRec r l = some m) : m.map EvRec.ident = l.map EvRec.ident := by
  induction l generalizing m with
  | nil => simp [joinRec] at h
  | cons a l ih =>
    unfold joinRec at h
    split at h
    · obtain rfl := Option.some.inj h
      rfl
    · obtain ⟨m', hm', rfl⟩ := Option.map_eq_some_iff.mp h
      simp [ih hm']

theorem not_mem_of_joinRec_none {r : EvRec} {l : List EvRec} (hk : r.key.isSome) (h : joinRec r l = none) : r.ident ∉ l.map EvRec.ident := by
  induction l with
  | nil => simp
  | cons a l ih =>
    unfold joinRec at h
    split at h
    · cases h
    · next hj =>
      rw [Option.map_eq_none_iff] at h
      have ha : a.ident ≠ r.ident := fun ha => hj (joins_iff.mpr ⟨ha, hk⟩)
      simp only [List.map_cons, List.mem_cons, not_or]
      exact ⟨ha.symm, ih h⟩

theorem silentChannels_of_ident {l m : List EvRec} (h : m.map EvRec.ident = l.map EvRec.ident) : silentChannels m = silentChannels l := by
  rw [silentChannels, silentChannels, h]

/-- The first record of a silent channel ends its silence. -/
theorem silentChannels_insert {c : Nat} (hc : c < 4) {r : EvRec} {l : List EvRec} (hr : r.ident = uncorrectableOf c)
    (hnew : r.ident ∉ l.map EvRec.ident) : (silentChannels (insertRec r l)).length < (silentChannels l).length := by
  have hsub : silentChannels (insertRec r l) = (silentChannels l).filter (fun k => k != c) := by
    rw [silentChannels, silentChannels, List.filter_filter]
    refine List.filter_congr fun k _ => ?_
    rw [Bool.eq_iff_iff]
    simp only [Bool.not_eq_true', List.contains_eq_mem, List.mem_map, mem_insertRec, decide_eq_false_iff_not, Bool.and_eq_true, bne_iff_ne]
    have hk : r.ident = uncorrectableOf k ↔ k = c := by
      rw [hr]; simp [uncorrectableOf, srcChannel, eq_comm]
    constructor
    · intro h
      exact ⟨fun hkc => h ⟨r, .inl rfl, hk.mpr hkc⟩, fun ⟨a, ha, he⟩ => h ⟨a, .inr ha, he⟩⟩
    · rintro ⟨hkc, h⟩ ⟨a, rfl | ha, he⟩
      · exact hkc (hk.mp he)
      · exact h ⟨a, ha, he⟩
  rw [hsub]
  refine List.length_filter_lt_length_iff_exists.mpr ⟨c, List.mem_filter.mpr ⟨List.mem_range.mpr hc, ?_⟩, by simp⟩
  rw [← hr]
  simpa using hnew

/-- A record of such a read joins one of its channel, finds no space, or ends the channel's silence. -/
theorem enter_uncorrectable {q : EvQueue} {now c : Nat} {r : EvRec} (hc : c < 4) (hr : r.ident = uncorrectableOf c) :
    (q.enter false now r).1.held.length + (silentChannels (q.enter false now r).1.held).length ≤
      q.held.length + (silentChannels q.held).length := by
  have hkey : r.key.isSome := by
    obtain ⟨-, hkey⟩ := Prod.mk.inj (Prod.mk.inj hr).2
    rw [hkey]
    rfl
  unfold EvQueue.enter
  split
  · next m hj =>
    dsimp only
    rw [length_joinRec r _ _ hj, silentChannels_of_ident (joinRec_ident hj)]
  · next hj =>
    have hins : ∀ x : EvRec, x.ident = r.ident → (insertRec x q.held).length + (silentChannels (insertRec x q.held)).length ≤
        q.held.length + (silentChannels q.held).length := fun x hx => by
      have hlt := silentChannels_insert hc (hx.trans hr) (hx ▸ not_mem_of_joinRec_none hkey hj)
      rw [length_insertRec]
      omega
    simp only [Bool.false_eq_true, if_false]
    split
    · exact le_rfl
    · split
      · split
        · exact hins _ rfl
        · exact hins _ rfl
      · exact hins _ rfl

theorem State.roomBeyondReads_raise {s : State} {n c : Nat} (hc : c < 4) (sev : Nat) (args : List Byte) (h : s.roomBeyondReads n) :
    (s.raiseNow 0x0C02 sev (srcChannel c) args (some [])).roomBeyondReads n := by
  obtain ⟨hdie, hroom⟩ := h
  refine ⟨(onDie_congr s _ (by simp) (by simp)).trans hdie, ?_⟩
  unfold State.raiseNow
  rw [raise_ev, hdie]
  exact (Nat.add_le_add_right (enter_uncorrectable hc rfl) n).trans hroom

theorem State.channelOf_lt (s : State) (a : Nat) : (s.channelOf a).1 < 4 := by
  have hmem : ∀ l : List Nat, (∀ c ∈ l, c < 4) → ∀ k, nth l k 0 < 4 := fun l hl k => by
    unfold nth
    cases hk : l[k]? with
    | none => simp
    | some c => exact hl c (List.mem_of_getElem? hk)
  refine hmem _ (fun c hc => ?_) _
  exact List.mem_range.mp (List.mem_filter.mp hc).1

theorem moverKeeps_roomBeyondReads (n : Nat) : MoverKeeps (fun s => s.roomBeyondReads n) where
  dram _ _ h := h
  mem _ _ h := h
  read s b h := by
    have hdue : ∀ (u : State) (r : RowAt), u.roomBeyondReads n → (u.rowDue r).roomBeyondReads n := fun u r hu => by
      unfold State.rowDue
      dsimp only
      split <;> exact hu
    unfold State.badRead
    dsimp only
    (repeat' split)
    · exact h
    · exact h
    · exact hdue _ _ (State.roomBeyondReads_raise (s := s.modChan _ _) (s.channelOf_lt _) _ _ h)
    · exact h

/-- Running host kernels take at most one record for each channel of DRAM. -/
theorem State.runTiles_room {s : State} {n : Nat} (h : s.room (n + 4)) : s.runTiles.room n :=
  State.room_of_roomBeyondReads
    (State.runTiles_keeps (moverKeeps_roomBeyondReads n) (fun _ _ h => h) (State.roomBeyondReads_of_room h))

theorem Run.drain_room {r : Run} {n : Nat} (h : r.s.room (n + 4)) : r.drain.s.room n :=
  State.room_of_roomBeyondReads (Run.drain_keeps (moverKeeps_roomBeyondReads n) (State.roomBeyondReads_of_room h))

/-! ### Operations of the pool -/

theorem upd_congr {α : Type} {l : List α} {n : Nat} {f g : α → α} {d : α} (h : f (nth l n d) = g (nth l n d)) : upd l n f = upd l n g := by
  refine List.ext_getElem (by simp [upd]) fun k hk hk' => ?_
  simp only [upd, List.length_modify] at hk
  simp only [upd, List.getElem_modify]
  split
  · next heq =>
    subst heq
    simpa [nth, hk] using h
  · rfl

/-- A tile with a job is freed: its completion record stands on it, and the pool keeps what it had but for the times tiles were busy. -/
theorem State.freeTile_running {s : State} {p start : Nat} {j : Job} (c : Completion) (h : (s.tileOf p).job = some (j, start)) :
    ∃ busy, s.freeTile p c = s.modPool (fun q =>
      { q with tiles := upd q.tiles p (fun t => { t with job := none, last := some c }), busy := busy }) := by
  unfold State.freeTile
  rw [h]
  exact ⟨_, rfl⟩

theorem State.applied_heard {s : State} {q : Pend} {source inst status code src : Nat} {stamp : BitVec 96} (h : s.heard code src) :
    (s.applied q source stamp inst status).heard code src := by
  unfold State.applied
  split
  · exact h
  · exact heard_raise_of _ _ _ _ _ _ _ _ _ _ h

theorem State.abortEvent_tiles (s : State) (p cause : Nat) (k : JobKind) (pc : Nat) :
    (s.abortEvent p cause k pc).tiles = { s.tiles with aborts := satAdd s.tiles.aborts 1 } := by
  simp [State.abortEvent]

theorem State.abortEvent_heard {s : State} (p cause : Nat) (k : JobKind) (pc : Nat) (h : s.room 1) :
    (s.abortEvent p cause k pc).heard 0x0601 (srcTile p) :=
  heard_raise (s.modPool _) _ _ _ _ _ _ _ h

theorem State.abortEvent_room {s : State} {n : Nat} (p cause : Nat) (k : JobKind) (pc : Nat) (h : s.room (n + 1)) :
    (s.abortEvent p cause k pc).room n :=
  room_raise (s.modPool _) _ _ _ _ _ _ _ _ h

theorem State.hostDone_tiles (s : State) (p id serial status cycles : Nat) :
    (s.hostDone p id serial status cycles).tiles = { s.tiles with hostJobs := satAdd s.tiles.hostJobs 1 } := by
  unfold State.hostDone
  dsimp only
  split <;> simp [State.applied, State.strike, apply_ite State.tiles]

/-- What the end of a host job leaves in the queue after its event. -/
theorem State.hostDone_heard_of {s : State} {code src : Nat} (p id serial status cycles : Nat)
    (h : ((s.modPool (fun q => { q with hostJobs := satAdd q.hostJobs 1 })).raiseNow 0x0603 sevInfo (srcTile p)
      (u32 id ++ u16 status ++ u32 cycles) none).heard code src) : (s.hostDone p id serial status cycles).heard code src := by
  unfold State.hostDone
  dsimp only
  split
  · exact h
  · exact State.applied_heard h

theorem State.hostDone_heard {s : State} (p id serial status cycles : Nat) (h : s.room 1) :
    (s.hostDone p id serial status cycles).heard 0x0603 (srcTile p) :=
  State.hostDone_heard_of _ _ _ _ _ (heard_raise (s.modPool _) _ _ _ _ _ _ _ h)

theorem State.hostDone_keeps_heard {s : State} {code src : Nat} (p id serial status cycles : Nat) (h : s.heard code src) :
    (s.hostDone p id serial status cycles).heard code src :=
  State.hostDone_heard_of _ _ _ _ _ (heard_raise_of (s.modPool _) _ _ _ _ _ _ _ _ _ h)

/-! ### JOB_DISPATCH (R210, R212) -/

theorem State.runTiles_pwr (s : State) : s.runTiles.pwr = s.pwr := s.runTiles_part (p := .pwr) (by decide)
theorem State.runTiles_dbg (s : State) : s.runTiles.dbg = s.dbg := s.runTiles_part (p := .dbg) (by decide)
theorem State.runTiles_cfg (s : State) : s.runTiles.cfg = s.cfg := s.runTiles_part (p := .cfg) (by decide)

/-- A system kernel's job starts with empty memories but for its descriptor. -/
theorem State.dispatch_system {s : State} {p setup : Nat} {delays : List Nat} {j : Job} (hfree : s.runTiles.tileFree p = true) (hp : s.pwr.st < 2)
    (hd : s.dbg.cpcHalted = false) (hj : s.runTiles.nextJob p = some j) (hk : j.kind.code < 2) :
    (s.dispatch p setup delays).tiles = { s.runTiles.tiles with
      ready := s.runTiles.tiles.ready.erase j
      tiles := upd s.runTiles.tiles.tiles p (fun x => { x with
        regs := TileRegs.entry 0, x := ssetL 0 x.x 0x4000 [], y := ssetL 0 (ssetL 0 x.y 0x4000 []) 0xFFC0 (s.runTiles.jobWords j.kind)
        job := some (j, s.now), run := TileRun.reset }) } := by
  rw [← State.runTiles_pwr] at hp
  rw [← State.runTiles_dbg] at hd
  rw [← State.runTiles_now]
  unfold State.dispatch
  simp only [hfree, hd, hj, Nat.not_le.mpr hp]
  obtain ⟨kind, readyAt, notOn⟩ := j
  cases kind with
  | slow l q g | trigger l q g => rfl
  | host slot id args n => exact absurd hk (Nat.lt_irrefl 2)

/-- A host job starts at its kernel's entry, with the kernel's initial data. -/
theorem State.dispatch_host {s : State} {p setup slot id n : Nat} {args delays : List Nat} {j : Job} {k : Kernel}
    (hfree : s.runTiles.tileFree p = true) (hp : s.pwr.st < 2) (hd : s.dbg.cpcHalted = false) (hj : s.runTiles.nextJob p = some j)
    (hk : j.kind = .host slot id args n) (hkernel : nth s.cfg.kernels slot none = some k) :
    (s.dispatch p setup delays).tiles = { s.runTiles.tiles with
      ready := s.runTiles.tiles.ready.erase j
      tiles := upd s.runTiles.tiles.tiles p (fun x => { x with
        regs := TileRegs.entry (k.base + k.entry), x := ssetL 0 x.x 0x4000 k.xinit
        y := ssetL 0 (ssetL 0 x.y 0x4000 k.yinit) 0xFFC0 (s.runTiles.jobWords j.kind)
        job := some (j, s.now), run := ⟨setup, [], false, delays, none⟩ }) } := by
  rw [← State.runTiles_pwr] at hp
  rw [← State.runTiles_dbg] at hd
  rw [← State.runTiles_cfg] at hkernel
  rw [← State.runTiles_now]
  unfold State.dispatch
  simp only [hfree, hd, hj, hk, hkernel, Nat.not_le.mpr hp]
  rfl

theorem jobDispatchCompletes : JobDispatchCompletes := by
  intro t tile setup delays j s hfree hp hd hj hk
  refine completes_finish (f := fun s => s.dispatch tile setup delays) rfl ?_
  simp only [State.settle_frame, State.dispatch_system (s := s.atInstant t) hfree hp hd hj hk, and_self]

theorem jobDispatchHostCompletes : JobDispatchHostCompletes := by
  intro t tile setup delays j slot id n args k s hfree hp hd hj hk hkernel
  refine completes_finish (f := fun s => s.dispatch tile setup delays) rfl ?_
  simp only [State.settle_frame, State.dispatch_host (s := s.atInstant t) hfree hp hd hj hk hkernel, and_self]

/-! ### JOB_DONE (R233) -/

theorem State.jobDone_system {s : State} {p start : Nat} {j : Job} {f : TileFacts} (hjob : (s.runTiles.tileOf p).job = some (j, start))
    (hk : j.kind.code < 2) (hdue : start + f.cycles * cycleTicks ≤ s.now) :
    s.jobDone p f = s.runTiles.freeTile p ⟨p, j.kind.code, j.kind.tag, f.code, f.cycles, f.bmst % 2 ^ 25, 0⟩ := by
  rw [← State.runTiles_now] at hdue
  obtain ⟨kind, readyAt, notOn⟩ := j
  unfold State.jobDone
  cases kind with
  | slow l q g | trigger l q g => simp only [hjob, Nat.not_lt.mpr hdue, if_false]
  | host slot id args n => exact absurd hk (Nat.lt_irrefl 2)

theorem State.jobDone_host {s : State} {p start slot id serial code : Nat} {args : List Nat} {j : Job} {f : TileFacts}
    (hjob : (s.runTiles.tileOf p).job = some (j, start)) (hk : j.kind = .host slot id args serial)
    (hend : (s.runTiles.tileOf p).run.ended = some (.done code)) (hdue : start + (s.runTiles.tileOf p).run.cycles * cycleTicks ≤ s.now) :
    s.jobDone p f = (s.runTiles.freeTile p ⟨p, 2, id, code, (s.runTiles.tileOf p).run.cycles,
      (s.runTiles.tileOf p).regs.bmst 0, 0⟩).hostDone p id serial stOk (s.runTiles.tileOf p).run.cycles := by
  rw [← State.runTiles_now] at hdue
  unfold State.jobDone
  simp only [hjob, hk, hend, Nat.not_lt.mpr hdue, if_false]

theorem jobDoneCompletes : JobDoneCompletes := by
  intro t tile start j f s hjob hk hdue
  refine completes_finish (f := fun s => s.jobDone tile f) rfl ?_
  obtain ⟨busy, hfree⟩ := State.freeTile_running ⟨tile, j.kind.code, j.kind.tag, f.code, f.cycles, f.bmst % 2 ^ 25, 0⟩ hjob
  simp only [State.settle_frame, State.jobDone_system hjob hk hdue, hfree, State.modPool_tiles]

theorem jobDoneHostCompletes : JobDoneHostCompletes := by
  intro t tile start slot id serial code args j f s hjob hk hend hdue hreport
  refine completes_finish (f := fun s => s.jobDone tile f) rfl ?_
  have hroom : (s.atInstant t).runTiles.room 1 := State.room_le (room_of_canReport _ hreport) (by decide)
  obtain ⟨busy, hfree⟩ := State.freeTile_running ⟨tile, 2, id, code, ((s.atInstant t).runTiles.tileOf tile).run.cycles,
    ((s.atInstant t).runTiles.tileOf tile).regs.bmst 0, 0⟩ hjob
  rw [State.jobDone_host hjob hk hend hdue, hfree]
  simp only [State.settle_frame, State.hostDone_tiles, State.modPool_tiles]
  exact ⟨upd_congr (d := Tile.reset) rfl, trivial, heard_settle _ _ _ (State.hostDone_heard _ _ _ _ _ hroom)⟩

/-! ### TILE_ABORT (R234) -/

/-- Causes 2 to 4 come of the job's own run: the abort needs no occasion besides it. -/
theorem State.tileAbort_own {s : State} {p cause : Nat} {f : TileFacts} (h2 : 2 ≤ cause) (h4 : cause ≤ 4) :
    s.tileAbort p cause f = s.abortJob p cause f := by
  unfold State.tileAbort
  exact if_neg (by simp; omega)

theorem State.tileAbort_slow {s : State} {p start cause line quire group : Nat} {j : Job} {f : TileFacts} (h2 : 2 ≤ cause) (h4 : cause ≤ 4)
    (hjob : (s.runTiles.tileOf p).job = some (j, start)) (hk : j.kind = .slow line quire group) :
    s.tileAbort p cause f =
      if f.committed then
        ((s.runTiles.freeTile p ⟨p, 0, j.kind.tag, 0, f.cycles, f.bmst % 2 ^ 25, cause⟩).abortEvent p cause j.kind f.pc).loseQuire line quire
      else ((s.runTiles.freeTile p ⟨p, 0, j.kind.tag, 0, f.cycles, f.bmst % 2 ^ 25, cause⟩).abortEvent p cause j.kind f.pc).redispatch p j := by
  rw [State.tileAbort_own h2 h4]
  unfold State.abortJob
  simp [hjob, hk, show cause ≠ 1 by omega, show cause ≠ 5 by omega]

theorem tileAbortCompletes : TileAbortCompletes := by
  intro t tile start line quire group j f s hjob hk hf hreport
  refine completes_finish (f := fun s => s.tileAbort tile 2 f) rfl ?_
  have hroom : (s.atInstant t).runTiles.room 1 := State.runTiles_room (State.room_le (room_of_canReport _ hreport) (by decide))
  obtain ⟨busy, hfree⟩ := State.freeTile_running ⟨tile, 0, j.kind.tag, 0, f.cycles, f.bmst % 2 ^ 25, 2⟩ hjob
  rw [State.tileAbort_slow (by decide) (by decide) hjob hk, hf, if_neg Bool.false_ne_true, hfree]
  simp only [State.settle_frame, State.redispatch, State.modPool_tiles, State.abortEvent_tiles]
  exact ⟨trivial, trivial, trivial, trivial,
    heard_settle _ _ _ (State.abortEvent_heard (s := (s.atInstant t).runTiles.modPool _) _ _ _ _ hroom)⟩

/-- A quire of a line that waits is lost to the slow-time processing, and said to be. -/
theorem State.loseQuire_found {s : State} {l q : Nat} {j : QuireJob} (hq : (s.slowOf l).queue.find? (fun k => k.quire == q) = some j)
    (hroom : s.room 1) :
    (s.loseQuire l q).slow = upd s.slow l (fun r =>
      { r with queue := r.queue.filter (fun k => k.quire != q), overruns := satAdd r.overruns 1, chainFor := max r.chainFor (max j.mark 1) }) ∧
      (s.loseQuire l q).tiles.redispatches = s.tiles.redispatches ∧ (s.loseQuire l q).heard 0x0503 (srcLine l) ∧
        ∀ code src, s.heard code src → (s.loseQuire l q).heard code src := by
  unfold State.loseQuire
  simp only [hq]
  refine ⟨by simp [State.raiseLine, State.dropJobs], by simp [State.raiseLine, State.dropJobs], heard_raise _ _ _ _ _ _ _ _ ?_,
    fun code src h => heard_raise_of _ _ _ _ _ _ _ _ _ _ ?_⟩
  · exact (room_congr s _ 1 (by simp [State.dropJobs]) (by simp [State.dropJobs]) (by simp [State.dropJobs])).mpr hroom
  · exact (heard_congr s _ code src (by simp [State.dropJobs])).mpr h

theorem tileAbortCommittedCompletes : TileAbortCommittedCompletes := by
  intro t tile start line quire group j q f s hjob hk hf hq hreport
  refine completes_finish (f := fun s => s.tileAbort tile 3 f) rfl ?_
  have hroom : (s.atInstant t).runTiles.room 2 := State.room_le (room_of_canReport _ hreport) (by decide)
  obtain ⟨busy, hfree⟩ := State.freeTile_running ⟨tile, 0, j.kind.tag, 0, f.cycles, f.bmst % 2 ^ 25, 3⟩ hjob
  rw [State.tileAbort_slow (by decide) (by decide) hjob hk, hf, if_pos rfl, hfree]
  generalize hv : State.abortEvent _ tile 3 j.kind f.pc = v
  have hslow : v.slow = (s.atInstant t).runTiles.slow := by subst hv; simp [State.abortEvent]
  have hre : v.tiles.redispatches = (s.atInstant t).runTiles.tiles.redispatches := by
    subst hv; simp only [State.abortEvent_tiles, State.modPool_tiles]
  have hheard : v.heard 0x0601 (srcTile tile) := by
    subst hv; exact State.abortEvent_heard _ _ _ _ (State.room_le hroom (by decide))
  have hroom1 : v.room 1 := by subst hv; exact State.abortEvent_room _ _ _ _ hroom
  rw [State.slowOf, ← hslow] at hq
  obtain ⟨hlost, hkept, hlose, hkeeps⟩ := State.loseQuire_found hq hroom1
  simp only [State.settle_frame]
  exact ⟨hlost.trans (by rw [hslow]), hkept.trans hre, heard_settle _ _ _ (hkeeps _ _ hheard), heard_settle _ _ _ hlose⟩

/-- A host job whose program came to an abort ends with what is left of its mover queue drained. -/
theorem State.tileAbort_host {s : State} {p start cause slot id serial : Nat} {args : List Nat} {j : Job} {f : TileFacts} (h2 : 2 ≤ cause)
    (h4 : cause ≤ 4) (hjob : (s.runTiles.tileOf p).job = some (j, start)) (hk : j.kind = .host slot id args serial)
    (hend : (s.runTiles.tileOf p).run.ended = some (.abort cause)) :
    s.tileAbort p cause f = ((((s.runTiles.hostRun p).drain.settle p none).freeTile p ⟨p, 2, id, 0, (s.runTiles.hostRun p).drain.cycles,
      (s.runTiles.hostRun p).drain.regs.bmst 0, cause⟩).abortEvent p cause j.kind (s.runTiles.hostRun p).drain.regs.pc).hostDone p id serial
        (abortStatus cause) (s.runTiles.hostRun p).drain.cycles := by
  rw [State.tileAbort_own h2 h4]
  unfold State.abortJob
  simp [hjob, hk, hend, show cause ≠ 1 by omega, show cause ≠ 5 by omega]

theorem State.tileOf_modTile {s : State} {p : Nat} (f : Tile → Tile) (h : p < s.tiles.tiles.length) : (s.modTile p f).tileOf p = f (s.tileOf p) :=
  nth_upd _ _ _ _ h

/-- Only a tile of the pool runs a job. -/
theorem State.lt_of_job {s : State} {p : Nat} {x : Job × Nat} (h : (s.tileOf p).job = some x) : p < s.tiles.tiles.length := by
  by_contra hge
  simp [State.tileOf, nth, List.getElem?_eq_none (not_lt.mp hge), Tile.reset] at h

theorem tileAbortHostCompletes : TileAbortHostCompletes := by
  intro t tile start slot id serial args j f s hjob hk hend _ hreport
  refine completes_finish (f := fun s => s.tileAbort tile 2 f) rfl ?_
  rw [State.tileAbort_host (by decide) (by decide) hjob hk hend]
  have hlt := State.lt_of_job hjob
  have hroom : (s.atInstant t).runTiles.room 64 := room_of_canReport _ hreport
  generalize (s.atInstant t).runTiles = v at *
  have htiles : (v.hostRun tile).drain.s.tiles = v.tiles := Run.drain_part (p := .tiles) _ (by decide)
  have hdrain : (v.hostRun tile).drain.s.room 2 :=
    Run.drain_room (r := v.hostRun tile) (State.room_le (n := 64) hroom (by decide))
  generalize (v.hostRun tile).drain = r at *
  have hput : ((r.settle tile none).tileOf tile).job = some (j, start) := by
    rw [Run.settle, State.tileOf_modTile _ (by rw [htiles]; exact hlt)]
    simpa [State.tileOf, htiles] using hjob
  obtain ⟨busy, hfree⟩ := State.freeTile_running ⟨tile, 2, id, 0, r.cycles, r.regs.bmst 0, 2⟩ hput
  rw [hfree]
  generalize hw : State.modPool (r.settle tile none) _ = w
  have hroomw : w.room 2 := by subst hw; exact hdrain
  have hheard := State.abortEvent_heard tile 2 j.kind r.regs.pc (State.room_le hroomw (by decide))
  have hroom1 := State.abortEvent_room tile 2 j.kind r.regs.pc hroomw
  have hidle : (w.tileOf tile).job = none := by
    subst hw
    rw [State.tileOf, State.modPool_tiles, nth_upd _ _ _ _ (by simpa [Run.settle, State.modTile, upd, htiles] using hlt)]
  have hcounts : w.tiles.aborts = r.s.tiles.aborts ∧ w.tiles.hostJobs = r.s.tiles.hostJobs := by subst hw; exact ⟨rfl, rfl⟩
  rw [htiles] at hcounts
  simp only [State.tileOf, State.settle_frame, State.hostDone_tiles, State.abortEvent_tiles]
  exact ⟨hidle, by rw [hcounts.1], by rw [hcounts.2], heard_settle _ _ _ (State.hostDone_keeps_heard _ _ _ _ _ hheard),
    heard_settle _ _ _ (State.hostDone_heard _ _ _ _ _ hroom1)⟩

/-! ### TILE_SPARED (R238) -/

theorem State.tileSpared_idle {s : State} {p n q : Nat} {f : TileFacts} (hwants : (s.hUnit kindTile p).wantsSpare = true)
    (hserved : ((s.hUnit kindTile p).gone && (s.hUnit kindTile p).noSpare) = false) (hn : s.tiles.map.findIdx? (· == some p) = some n)
    (hq : s.spareFor kindTile p = some q) (hidle : (s.tileOf p).job = none) :
    s.tileSpared p f = ((s.modPool (fun x => { x with map := x.map.set n (some q) })).spareTakes kindTile p q).raiseNow 0x0602 sevNotice (srcTile p)
      (u8 n ++ u8 q ++ u8 (s.hUnit kindTile p).spareCause) none := by
  unfold State.tileSpared
  simp only [hserved, Bool.false_eq_true, if_false, hn, hq, hwants, hidle]
  rfl

theorem State.spareTakes_tiles (s : State) (k i j : Nat) : (s.spareTakes k i j).tiles = s.tiles := s.spareTakes_part (p := .tiles) k i j (by decide)

theorem State.spareTakes_room {s : State} {n : Nat} (k i j : Nat) (h : s.room n) : (s.spareTakes k i j).room n := by
  unfold State.spareTakes
  dsimp only
  split <;> exact h

theorem tileSparedCompletes : TileSparedCompletes := by
  intro t tile n q f s hwants hserved hn hq hidle hreport
  refine completes_finish (f := fun s => s.tileSpared tile f) rfl ?_
  rw [State.tileSpared_idle (s := s.atInstant t) hwants hserved hn hq hidle]
  refine ⟨by simp [State.spareTakes_tiles], heard_settle _ _ _ (heard_raise _ _ _ _ _ _ _ _ (State.spareTakes_room _ _ _ ?_))⟩
  exact State.room_le (room_of_canReport _ hreport) (by decide)

/-! ### `tile.kernel_load`, `tile.kernel_unload`, `tile.run`, `tile.status` (R236, R237, R240) -/

/-- A chunk that is not the last goes into the image of its slot: that of the load in progress, or a new one. -/
theorem tileKernelLoad_chunk {c : Cmd} {s : State} {l : KernelLoad} (hslot : rd c.arg 0 1 ≤ 3) (hfinal : bit (rd c.arg 1 1) 1 = false)
    (hn : rd c.arg 2 2 ≤ 4000) (hlen : rd c.arg 4 4 + rd c.arg 2 2 ≤ l.length)
    (hl : if bit (rd c.arg 1 1) 0 then l = ⟨rd c.arg 8 4, []⟩ ∧ s.slotBusy (rd c.arg 0 1) = false
      else nth s.tiles.loads (rd c.arg 0 1) none = some l) :
    tileKernelLoad c s = okay (s.modPool (fun q => { q with loads := q.loads.set (rd c.arg 0 1) (some ⟨l.length, ssetL 0
      l.image (rd c.arg 4 4) ((c.arg.drop 12).take (rd c.arg 2 2))⟩) })) := by
  cases hfirst : bit (rd c.arg 1 1) 0 with
  | true =>
    obtain ⟨rfl, hbusy⟩ : l = ⟨rd c.arg 8 4, []⟩ ∧ s.slotBusy (rd c.arg 0 1) = false := by simpa [hfirst] using hl
    simp [tileKernelLoad, hfirst, hfinal, hbusy, Nat.not_lt.mpr hslot, Nat.not_lt.mpr hn, Nat.not_lt.mpr hlen]
  | false =>
    have hload : nth s.tiles.loads (rd c.arg 0 1) none = some l := by simpa [hfirst] using hl
    simp [tileKernelLoad, hfirst, hfinal, hload, Nat.not_lt.mpr hslot, Nat.not_lt.mpr hn, Nat.not_lt.mpr hlen]

theorem completes_tileKernelLoad {t : Nat} {c : Cmd} {s : State} {o : Option KernelLoad} (ha : (s.atInstant t).admits 0x0601 c = true)
    (hh : tileKernelLoad c ((s.atInstant t).placed 0x0601 c) =
      okay (((s.atInstant t).placed 0x0601 c).modPool (fun q => { q with loads := q.loads.set (rd c.arg 0 1) o }))) :
    Completes (.tileKernelLoad t c) s (fun u => u.answered c stOk [] ∧ u.tiles.loads = s.tiles.loads.set (rd c.arg 0 1) o) :=
  completes_okWith _ t _ _ c s _ [] _ rfl ha hh rfl fun eff => by
    simp only [State.settle_frame, State.answer_frame, State.presentNonce_frame]
    rfl

theorem tileKernelLoadChunkCompletes : TileKernelLoadChunkCompletes := by
  intro t l c s ha hslot hflags hn hload hlen
  exact completes_tileKernelLoad ha (tileKernelLoad_chunk hslot (by rw [hflags]; decide) hn hlen (by rw [hflags]; exact hload))

theorem tileKernelLoadFirstCompletes : TileKernelLoadFirstCompletes := by
  intro t c s ha hslot hflags hn hlen hbusy
  exact completes_tileKernelLoad ha (tileKernelLoad_chunk (l := ⟨rd c.arg 8 4, []⟩) hslot (by rw [hflags]; decide) hn hlen
    (by rw [hflags]; exact ⟨rfl, hbusy⟩))

theorem tileKernelUnload_ok {c : Cmd} {s : State} (hslot : rd c.arg 0 1 ≤ 3) (hk : nth s.cfg.kernels (rd c.arg 0 1) none ≠ none)
    (hbusy : s.slotBusy (rd c.arg 0 1) = false) :
    tileKernelUnload c s = okay (s.modCfg (fun g => { g with kernels := g.kernels.set (rd c.arg 0 1) none })) := by
  simp [tileKernelUnload, Nat.not_lt.mpr hslot, hk, hbusy]

theorem tileKernelUnloadCompletes : TileKernelUnloadCompletes := by
  intro t c s ha hslot hk hbusy
  refine completes_okWith _ t _ _ c s _ [] _ rfl ha (tileKernelUnload_ok hslot hk hbusy) rfl fun eff => ?_
  simp only [State.settle_frame, State.answer_frame, State.presentNonce_frame]
  rfl

/-- `tile.run` joins the commands that wait, and its job the ready ones under the serial of the next host job. -/
theorem tileRun_queues {c : Cmd} {s : State} (hslot : rd c.arg 0 1 ≤ 3) (hk : nth s.cfg.kernels (rd c.arg 0 1) none ≠ none)
    (hroom : s.hostQueued < 64) (hmem : s.mem.available = true) :
    tileRun c s = (⟨stPending, none, []⟩, ((pendWith s c 0x0603 [s.tiles.serial] none).2.addJobs [.host (rd c.arg 0 1) (rd c.arg 4 4)
      ((List.range 8).map (fun i => rd c.arg (8 + 4 * i) 4)) s.tiles.serial]).modPool (fun q => { q with serial := q.serial + 1 })) := by
  simp [tileRun, pendWith, hk, hmem, Nat.not_lt.mpr hslot, Nat.not_le.mpr hroom]

theorem tileRunCompletes : TileRunCompletes := by
  intro t c s ha hslot hk hroom hmem
  refine completes_of_handler _ t _ _ c s _ ⟨stPending, none, []⟩ _ rfl ha (tileRun_queues hslot hk hroom hmem) rfl fun eff => ?_
  simp only [State.awaits, State.settle_frame, State.answer_frame, State.presentNonce_frame]
  exact ⟨rfl, rfl, rfl⟩

theorem tileStatusCompletes : TileStatusCompletes := by
  intro t c s ha
  refine completes_okWith _ t _ _ c s _ _ _ rfl ha rfl ?_ fun eff => ?_
  · split <;> rfl
  · simp only [State.settle_frame, State.answer_frame, State.presentNonce_frame]
    split <;> rfl

/-- Settles O34: each row is `finish` of an operation or of a handler; where the host kernels are brought up to the instant first, what they report
takes at most one record for each channel of DRAM. -/
theorem tilesComplete : Obligations.TilesComplete :=
  ⟨jobDispatchCompletes, jobDispatchHostCompletes, jobDoneCompletes, jobDoneHostCompletes, tileAbortCompletes, tileAbortCommittedCompletes,
    tileAbortHostCompletes, tileSparedCompletes, tileKernelLoadChunkCompletes, tileKernelLoadFirstCompletes, tileKernelUnloadCompletes,
    tileRunCompletes, tileStatusCompletes⟩

end Sys2Proof.Machine

/-! PROOFS of raw sets and trigger conditions: segments, their records, arming and rebasing. -/

namespace Sys2Proof.Machine

/-! ### Zones that name a condition (R353) -/

section
variable {p : StatePart}

@[simp] theorem State.modZone_part (s : State) (n : Nat) (f : ZoneRun → ZoneRun) (h : p ≠ .zones) : (s.modZone n f).part p = s.part p := by
  cases p with
  | zones => exact absurd rfl h
  | _ => rfl

@[simp] theorem State.recompute_part (s : State) (n : Nat) (d : ZoneDef) (old z : ZoneRun) (w : ZoneWhy) (h : p ≠ .zones) :
    (s.recompute n d old z w).part p = s.part p := by
  simp [State.recompute, h]

@[simp] theorem State.zoneJudge_part (s : State) (n : Nat) (h : p ≠ .zones) : (s.zoneJudge n).part p = s.part p := by
  unfold State.zoneJudge
  split <;> simp [h]

@[simp] theorem State.zonesOfCond_part (s : State) (c : Nat) (h : p ≠ .zones) : (s.zonesOfCond c).part p = s.part p := by
  refine foldl_part _ (fun s n => ?_) _ _
  split <;> simp [h]

end

/-! ### Raw sets -/

theorem State.setOf_modSet {s : State} {n : Nat} (f : RawSet → RawSet) (h : n < s.trig.sets.length) : (s.modSet n f).setOf n = f (s.setOf n) :=
  nth_upd _ _ _ _ h

/-- A raw set reads alike in two states with the same trigger state. -/
theorem State.setOf_congr {s u : State} (h : u.trig = s.trig) (n : Nat) : u.setOf n = s.setOf n := by
  rw [State.setOf, h, State.setOf]

/-! ### RAW_SEGMENT_CLOSE and RAW_REARM (R263, R264) -/

/-- A raw set whose segment `g` has closed and that goes on, armed or stalled. -/
def RawSet.goesOn (r : RawSet) (g : RawSeg) (st : Nat) : RawSet :=
  { r with seg := none, closed := r.closed ++ [g], segsClosed := r.segsClosed + 1, made := satAdd r.made 1, roleWords := []
           rearm := some (r.rearm.getD none), st := st }

/-- A full segment of a set that goes on closes; the set stalls, and says so, when no segment is free. -/
theorem State.rawClose_goesOn {s : State} {n : Nat} {g : RawSeg} (hseg : (s.setOf n).seg = some g) (hfull : g.full = true)
    (hmore : (s.setOf n).cfg.total = 0 ∨ (s.setOf n).segsClosed + 1 < (s.setOf n).cfg.total) (hstop : (s.setOf n).stop = none) :
    s.rawClose n =
      if (s.setOf n).cfg.segments ≤ (s.setOf n).closed.length + 1 then
        (s.modSet n (fun r => r.goesOn g 2)).raiseNow 0x0708 sevNotice srcDevice (u8 n) (some [])
      else s.modSet n (fun r => r.goesOn g r.st) := by
  have hgo : ((decide ((s.setOf n).cfg.total = 0) || decide ((s.setOf n).segsClosed + 1 < (s.setOf n).cfg.total)) &&
      (s.setOf n).stop.isNone) = true := by
    rcases hmore with h | h <;> simp [h, hstop]
  unfold State.rawClose
  simp only [hseg, hfull, hgo]
  by_cases hfree : (s.setOf n).cfg.segments ≤ (s.setOf n).closed.length + 1
  · simp [hfree, RawSet.goesOn]
  · simp [hfree, RawSet.goesOn]

theorem rawSegmentCloseCompletes : RawSegmentCloseCompletes := by
  intro t n g s hseg hfull hmore hstop hfree hn
  refine completes_finish (f := fun s => s.rawClose n) rfl ?_
  rw [(State.rawClose_goesOn (s := s.atInstant t) hseg hfull hmore hstop).trans (if_neg (not_le.mpr hfree))]
  have hset := State.setOf_modSet (s := s.atInstant t) (fun r => r.goesOn g r.st) hn
  rw [State.setOf_congr (State.settle_part (p := .trig) _), hset]
  exact ⟨rfl, rfl, rfl, rfl, rfl, rfl⟩

theorem rawSegmentCloseStallCompletes : RawSegmentCloseStallCompletes := by
  intro t n g s hseg hfull hmore hstop hnone hn hreport
  refine completes_finish (f := fun s => s.rawClose n) rfl ?_
  rw [(State.rawClose_goesOn (s := s.atInstant t) hseg hfull hmore hstop).trans (if_pos hnone)]
  have hset := State.setOf_modSet (s := s.atInstant t) (fun r => r.goesOn g 2) hn
  have hroom : (s.atInstant t).room 1 := State.room_le (room_of_canReport _ hreport) (by decide)
  rw [State.setOf_congr (State.settle_part (p := .trig) _), State.setOf_congr (State.raiseNow_part (p := .trig) _ _ _ _ _ _), hset]
  exact ⟨rfl, rfl, rfl, heard_settle _ _ _ (heard_raise _ _ _ _ _ _ _ _ hroom)⟩

/-- A set that waits to be re-armed arms its next segment once one is free. -/
theorem State.rawRearm_free {s : State} {n : Nat} {m : Option Missed} (hseg : (s.setOf n).seg = none) (hrearm : (s.setOf n).rearm = some m)
    (hst : (s.setOf n).st ≠ 0) (hfree : (s.setOf n).closed.length < (s.setOf n).cfg.segments) (hstop : (s.setOf n).stop = none) :
    s.rawRearm n = s.modSet n (fun r => { r with seg := some (RawSeg.fresh r.cfg s.now m), rearm := none, st := 1 }) := by
  unfold State.rawRearm
  simp [hseg, hrearm, hst, hfree, hstop]

theorem rawRearmCompletes : RawRearmCompletes := by
  intro t n m s hseg hrearm hst hfree hstop
  refine completes_finish (f := fun s => s.rawRearm n) rfl ?_
  rw [State.rawRearm_free (s := s.atInstant t) hseg hrearm hst hfree hstop]
  simp only [State.settle_frame]
  exact upd_congr (d := RawSet.reset) rfl

/-! ### Writes of DRAM open at most one record for each channel (R395, R397, R466) -/

theorem State.roomBeyondReads_badRead {s : State} {k : Nat} (port b : Nat) (h : s.roomBeyondReads k) : (s.badRead port b).roomBeyondReads k := by
  have hdue : ∀ (u : State) (r : RowAt), u.roomBeyondReads k → (u.rowDue r).roomBeyondReads k := fun u r hu => by
    unfold State.rowDue
    dsimp only
    split <;> exact hu
  unfold State.badRead
  dsimp only
  split
  · exact h
  · split
    · exact h
    · split
      · exact hdue _ _ (State.roomBeyondReads_raise (s := s.modChan _ _) (s.channelOf_lt _) _ _ h)
      · exact h

theorem State.roomBeyondReads_writeInBlock {s : State} {k : Nat} (port a : Nat) (data : List Byte) (h : s.roomBeyondReads k) :
    (s.writeInBlock port a data).roomBeyondReads k := by
  unfold State.writeInBlock
  dsimp only
  split
  · exact h
  · split
    · exact h
    · split
      · exact h
      · have hread := State.roomBeyondReads_badRead (s := s.wakeChannel (s.channelOf a).1) port (a / 64) h
        exact (moverKeeps_roomBeyondReads k).dram _ _ ((moverKeeps_roomBeyondReads k).mem _ _ hread)

theorem State.roomBeyondReads_writeBy {s : State} {k : Nat} (port a : Nat) (data : List Byte) (h : s.roomBeyondReads k) :
    (s.writeBy port a data).roomBeyondReads k := by
  unfold State.writeBy
  generalize data.length / 64 + 2 = m
  induction m generalizing s a data with
  | zero => exact h
  | succ m ih =>
    unfold State.dramWriteGo
    split
    · exact h
    · exact ih _ _ (State.roomBeyondReads_writeInBlock port a _ h)

theorem State.writeBy_trig (s : State) (port a : Nat) (data : List Byte) : (s.writeBy port a data).trig = s.trig :=
  s.writeBy_part (p := .trig) port a data (by decide)

/-! ### A record of the pool becomes ready (R261, R266) -/

theorem State.index_ne_of_freeIndex {s : State} {i : Nat} (h : s.freeIndex = some i) : ∀ r ∈ s.trig.recs, r.index ≠ i := by
  have hfree := List.find?_some h
  simpa using hfree

/-- A record entered at a free index is the one found there. -/
theorem State.recOf?_entered {s u : State} {r : CapRec} (h : s.freeIndex = some r.index) (hu : u.trig.recs = s.trig.recs ++ [r]) :
    u.recOf? r.index = some r := by
  have hnone : s.trig.recs.find? (fun k => k.index == r.index) = none :=
    List.find?_eq_none.mpr fun k hk => by simpa using State.index_ne_of_freeIndex h k hk
  rw [State.recOf?, hu, List.find?_append, hnone]
  simp

/-- A record as it is when its last row has been written. -/
def CapRec.complete (r : CapRec) : CapRec := { r with ready := true, bytes := 128 + r.rows * r.rowBytes }

/-- What makes a record ready changes that record alone of the trigger state. -/
theorem State.recReady_trig {s : State} {i : Nat} {r : CapRec} (hr : s.recOf? i = some r) :
    (s.recReady i).trig = { s.trig with recs := s.trig.recs.map (fun k => if k.index = i then r.complete else k) } := by
  unfold State.recReady
  simp only [hr, State.deliver_frame, State.raise_frame, State.writeEntry, State.writeBy_trig]
  rfl

theorem State.recReady_heard {s : State} {i : Nat} {r : CapRec} (hr : s.recOf? i = some r) (h : s.roomBeyondReads 1) :
    (s.recReady i).heard 0x0701 (if r.line < 16 then srcLine r.line else srcQuad 16) := by
  unfold State.recReady
  simp only [hr]
  refine (heard_congr _ _ _ _ (State.deliver_frame _ _ _).2.2.2.2.2.2.2.2.2.1).mpr (heard_raise _ _ _ _ _ _ _ _ ?_)
  exact State.room_of_roomBeyondReads
    (State.roomBeyondReads_writeBy 2 _ _ (State.roomBeyondReads_writeBy (s := s.modRec i _) 3 _ _ h))

/-! ### RAW_COPY_OUT (R265) -/

/-- Each of the causes of a capture counts it. -/
def State.countCapture (s : State) (c : Nat) : State := s.modCond c (fun k => { k with captures := satAdd k.captures 1 })
def State.countCaptures (s : State) (causes : List Nat) : State := causes.foldl State.countCapture s

theorem State.countCaptures_trig (s : State) (causes : List Nat) :
    (s.countCaptures causes).trig.recs = s.trig.recs ∧ (s.countCaptures causes).trig.seq = s.trig.seq ∧
      (s.countCaptures causes).trig.sets = s.trig.sets :=
  have hkeeps : ∀ {γ : Type} (g : TrigState → γ), (∀ s c, g (State.countCapture s c).trig = g s.trig) →
      g (s.countCaptures causes).trig = g s.trig := fun g h => foldl_keeps (fun s : State => g s.trig) h causes s
  ⟨hkeeps TrigState.recs fun _ _ => rfl, hkeeps TrigState.seq fun _ _ => rfl, hkeeps TrigState.sets fun _ _ => rfl⟩

theorem State.roomBeyondReads_countCaptures {s : State} {k : Nat} (causes : List Nat) (h : s.roomBeyondReads k) :
    (s.countCaptures causes).roomBeyondReads k :=
  foldl_holds (Q := fun s : State => s.roomBeyondReads k) (f := State.countCapture) (fun _ _ h => h) causes h

/-- A record of a raw set enters the pool in place of the set's oldest closed segment, its data are written, and its causes count it. -/
def State.enterRaw (s : State) (n : Nat) (rest : List RawSeg) (r : CapRec) (data : List Byte) (causes : List Nat) : State :=
  (((s.modTrig (fun t => { t with recs := t.recs ++ [r], seq := (t.seq + 1) % 2 ^ 32 })).modSet n (fun r => { r with closed := rest })).writeBy 3
    (pageAddr r.page + 128) data).countCaptures causes

theorem State.enterRaw_trig (s : State) (n : Nat) (rest : List RawSeg) (r : CapRec) (data : List Byte) (causes : List Nat) :
    (s.enterRaw n rest r data causes).trig.recs = s.trig.recs ++ [r] ∧ (s.enterRaw n rest r data causes).trig.seq = (s.trig.seq + 1) % 2 ^ 32 ∧
      (s.enterRaw n rest r data causes).trig.sets = upd s.trig.sets n (fun r => { r with closed := rest }) := by
  simp only [State.enterRaw, State.countCaptures_trig, State.writeBy_trig]
  exact ⟨rfl, rfl, rfl⟩

theorem State.roomBeyondReads_enterRaw {s : State} {k : Nat} (n : Nat) (rest : List RawSeg) (r : CapRec) (data : List Byte) (causes : List Nat)
    (h : s.roomBeyondReads k) : (s.enterRaw n rest r data causes).roomBeyondReads k :=
  State.roomBeyondReads_countCaptures _ (State.roomBeyondReads_writeBy (s := State.modSet _ n _) 3 _ _ h)

/-- The oldest closed segment of a set, for which the pool has an index and pages, makes a record. -/
theorem State.rawCopy_enters {s : State} {n i p : Nat} {g : RawSeg} {rest : List RawSeg} (hclosed : (s.setOf n).closed = g :: rest)
    (hi : s.freeIndex = some i) (hp : firstFit s.pagesUsed s.heapPages (ceilDiv (128 + g.chosen.length * g.cfg.sampleBytes) 4096) = some p) :
    ∃ (r : CapRec) (data : List Byte) (causes : List Nat), s.rawCopy n = (s.enterRaw n rest r data causes).recReady i ∧ r.index = i ∧
      r.raw = true ∧ r.set = n ∧ r.page = p ∧ r.seq = s.trig.seq ∧ r.rows = g.chosen.length ∧
      r.line = if g.cfg.quad < 16 then g.cfg.quad else 0xFF := by
  unfold State.rawCopy
  simp only [hclosed, hi, hp]
  exact ⟨_, _, _, rfl, rfl, rfl, rfl, rfl, rfl, rfl, rfl⟩

theorem rawCopyOutCompletes : RawCopyOutCompletes := by
  intro t n i p g rest s hclosed hi hp hn hreport
  refine completes_finish (f := fun s => s.rawCopy n) rfl ?_
  obtain ⟨r, data, causes, hcopy, rfl, hraw, hset, hpage, hseq, hrows, hline⟩ := State.rawCopy_enters (s := s.atInstant t) hclosed hi hp
  obtain ⟨hrecs, hnext, hsets⟩ := State.enterRaw_trig (s.atInstant t) n rest r data causes
  have hroom : ((s.atInstant t).enterRaw n rest r data causes).roomBeyondReads 1 :=
    State.roomBeyondReads_enterRaw _ _ _ _ _ (State.roomBeyondReads_of_room (State.room_le (room_of_canReport _ hreport) (by decide)))
  rw [hcopy]
  generalize (s.atInstant t).enterRaw n rest r data causes = v at *
  have hfound : v.recOf? r.index = some r := State.recOf?_entered hi hrecs
  have hheard := State.recReady_heard hfound hroom
  simp only [State.setOf, State.settle_frame, State.recReady_trig hfound, hrecs, hnext, hsets]
  refine ⟨?_, rfl, ⟨r.complete, ?_, rfl, rfl, hraw, hset, hpage, hseq, hrows⟩, heard_settle _ _ _ ?_⟩
  · exact congrArg RawSet.closed (nth_upd _ _ _ _ hn)
  · exact List.mem_map.mpr ⟨r, by simp, if_pos rfl⟩
  · convert hheard using 1
    by_cases hq : g.cfg.quad < 16 <;> simp [hline, hq]

/-! ### `trig.define`, `trig.arm` and `trig.rebase` (R246, R271, R272) -/

theorem trigDefine_ok {c : Cmd} {s : State} (hok : s.condOk (rd c.arg 0 1) (readCond c.arg) (rd c.arg 21 1) = true)
    (harmed : s.isArmed (rd c.arg 0 1) = false) :
    trigDefine c s = okay (s.modCfg (fun g => { g with conds := g.conds.set (rd c.arg 0 1) (some (readCond c.arg)) })) := by
  simp [trigDefine, hok, harmed]

theorem trigDefineCompletes : TrigDefineCompletes := by
  intro t c s ha hok harmed
  refine completes_okWith _ t _ _ c s _ [] _ rfl ha (trigDefine_ok hok harmed) rfl fun eff => ?_
  simp only [State.settle_frame, State.answer_frame, State.presentNonce_frame]
  rfl

/-- An arming or disarming of conditions that are defined, none of which waits for one, joins the commands that wait. -/
theorem trigArm_pends {c : Cmd} {s : State} (hmask : rd c.arg 0 4 ≠ 0) (hmode : rd c.arg 4 1 ≤ 2)
    (hconds : ∀ k ∈ maskList 32 (rd c.arg 0 4), s.pendOf 0x0702 k = none ∧ ∃ d, s.condDef? k = some d ∧
      (rd c.arg 4 1 = 0 → k < 16 → d.kind < 2 → d.band < (s.slowCfg d.line).bands.length)) :
    trigArm c s = pendWith s c 0x0702 (maskList 32 (rd c.arg 0 4)) none := by
  have hbusy : (maskList 32 (rd c.arg 0 4)).any (fun k => (s.pendOf 0x0702 k).isSome) = false := by
    simpa using fun k hk => (hconds k hk).1
  unfold trigArm
  simp only [hmask, hbusy, Nat.not_lt.mpr hmode, decide_false, Bool.or_self, Bool.false_eq_true, if_false]
  refine if_neg ?_
  rw [Bool.not_eq_true, List.any_eq_false]
  intro k hk
  obtain ⟨-, d, hd, hband⟩ := hconds k hk
  simpa [hd] using hband

theorem trigArmCompletes : TrigArmCompletes := by
  intro t c s ha hmode _ hmask hconds
  refine completes_pending _ t _ trigArm c s _ none ?_ ha (trigArm_pends hmask (by omega) fun k hk => ?_)
  · show finish t s (fun s => s.hostCommand 0x0702 trigArm (asForm c 4 0 [1, 2])) = _
    rw [asForm_own (by simp [hmode])]
  · obtain ⟨hfree, d, hd, hband⟩ := hconds k hk
    exact ⟨hfree, d, hd, fun _ => hband⟩

theorem trigDisarmCompletes : TrigDisarmCompletes := by
  intro t c s ha hmode _ hmask hconds
  refine completes_pending _ t _ trigArm c s _ none ?_ ha (trigArm_pends hmask (by omega) fun k hk => ?_)
  · show finish t s (fun s => s.hostCommand 0x0702 trigArm (asForm c 4 1 [0])) = _
    rw [asForm_own (by rw [List.mem_singleton]; omega)]
  · obtain ⟨hfree, hdef⟩ := hconds k hk
    obtain ⟨d, hd⟩ := Option.ne_none_iff_exists'.mp hdef
    exact ⟨hfree, d, hd, fun h0 => by omega⟩

theorem trigRebase_pends {c : Cmd} {s : State} (hmask : rd c.arg 0 4 ≠ 0)
    (hconds : ∀ k ∈ maskList 32 (rd c.arg 0 4), k ≤ 15 ∧ s.pendOf 0x0703 k = none ∧ (s.condDef? k).map CondDef.kind = some 3) :
    trigRebase c s = pendWith s c 0x0703 (maskList 32 (rd c.arg 0 4)) none := by
  have hbusy : (maskList 32 (rd c.arg 0 4)).any (fun k => (s.pendOf 0x0703 k).isSome) = false := by
    simpa using fun k hk => (hconds k hk).2.1
  unfold trigRebase
  simp only [hmask, hbusy, decide_false, Bool.false_or, Bool.false_eq_true, if_false]
  refine if_neg ?_
  rw [Bool.not_eq_true, List.any_eq_false]
  intro k hk
  obtain ⟨hpoint, -, hkind⟩ := hconds k hk
  obtain ⟨d, hd, hd3⟩ := Option.map_eq_some_iff.mp hkind
  simp [hd, hd3, hpoint]

theorem trigRebaseCompletes : TrigRebaseCompletes := by
  intro t c s ha hmask hconds
  exact completes_pending _ t _ _ c s _ none rfl ha (trigRebase_pends hmask hconds)

/-! ### Arming, disarming and rebasing take effect (R246, R272) -/

/-- What waits for a quire boundary need not when its condition is no point condition, or its line does not run. -/
theorem State.atCondQuire_free {s : State} {c : Nat} {d : CondDef} (f : State → State) (hd : s.condDef? c = some d)
    (h : 16 ≤ c ∨ s.running d.line = false) : s.atCondQuire c f = f s := by
  unfold State.atCondQuire
  simp only [hd]
  split
  · exact State.atQuireBegin_stopped f (h.resolve_left (by omega))
  · rfl

theorem State.armReady_free {s : State} {c x : Nat} {d : CondDef} (hd : s.condDef? c = some d) (hx : x ≤ s.now)
    (h : 16 ≤ c ∨ s.running d.line = false) : s.armReady c x = true := by
  rcases h with h | h <;> simp [State.armReady, hd, hx, h]

/-- An arming or disarming in drain form that is due does what `armOne` does, and is struck off. -/
theorem State.armRow_due {s : State} {c : Nat} {d : CondDef} {p : Pend} (hp : s.pendOf 0x0702 c = some p) (hd : s.condDef? c = some d)
    (hfree : 16 ≤ c ∨ s.running d.line = false) (hdue : p.applyAt.getD p.accepted ≤ s.now) (hmode : rd p.data 4 1 ≠ 2) :
    (s.armRow c).cfg = (s.armOne c (rd p.data 4 1)).cfg ∧ (s.armRow c).trig = (s.armOne c (rd p.data 4 1)).trig ∧
      (s.armRow c).pend = Machine.strike 0x0702 c s.pend := by
  have hop : p.op = 0x0702 := State.pendOf_op hp
  have hrow : s.armEffectOf c =
      (s.armOne c (rd p.data 4 1)).strikeLast p c ((s.armOne c (rd p.data 4 1)).effStamp (s.armOne c (rd p.data 4 1)).now none)
        (s.armOne c (rd p.data 4 1)).now := by
    unfold State.armEffectOf
    simp [hp, State.armReady_free hd hdue hfree, hmode]
  have hpart : ∀ q : StatePart, q ≠ .zones → (s.armRow c).part q = (s.armEffectOf c).part q := fun q hq => by
    rw [State.armRow, State.zonesOfCond_part _ _ hq, State.atCondQuire_free _ hd hfree]
  refine ⟨(hpart .cfg (by decide)).trans ?_, (hpart .trig (by decide)).trans ?_, (hpart .pend (by decide)).trans ?_⟩
  · rw [hrow]; exact State.strikeLast_part (p := .cfg) _ _ _ _ _ (by decide)
  · rw [hrow]; exact State.strikeLast_part (p := .trig) _ _ _ _ _ (by decide)
  · rw [hrow]
    refine (State.strikeLast_pend _ _ _ _ _).trans ?_
    rw [hop]
    exact congrArg _ (State.armOne_part (p := .pend) s c _ (by decide))

theorem State.armOne_arm {s : State} {c : Nat} {d : CondDef} (hd : s.condDef? c = some d) (hc : 16 ≤ c) :
    s.armOne c 0 = (s.setArmed c true).modCond c (fun r => { r with spans := [], prevWord := none, riseReady := true, fallReady := true }) := by
  unfold State.armOne
  simp [hd, Nat.not_lt.mpr hc]

theorem State.armOne_disarm {s : State} {c mode : Nat} {d : CondDef} (hd : s.condDef? c = some d) (hmode : mode ≠ 0)
    (hrun : s.running d.line = false) :
    s.armOne c mode = (s.setArmed c false).modCond c (fun r => { r with
      spans := r.spans.map (fun e => if e.until_.isNone then { e with until_ := some (ceilDiv (s.feltOf d.line).fsn 32) } else e) }) := by
  unfold State.armOne
  simp [hd, hmode, hrun, State.armQuire]

theorem trigArmTakesEffectCompletes : TrigArmTakesEffectCompletes := by
  intro t c d p s hp hd hc hdue hmode
  refine completes_finish (f := fun s => s.armRow c) rfl ?_
  obtain ⟨hcfg, htrig, hpend⟩ := State.armRow_due (s := s.atInstant t) hp hd (.inl hc) hdue (by omega)
  simp only [State.settle_frame, hcfg, htrig, hpend, hmode, State.armOne_arm (s := s.atInstant t) hd hc]
  exact ⟨rfl, rfl, rfl⟩

theorem trigArmTakesEffectDisarmCompletes : TrigArmTakesEffectDisarmCompletes := by
  intro t c d p s hp hd hdue hmode hrun
  refine completes_finish (f := fun s => s.armRow c) rfl ?_
  obtain ⟨hcfg, htrig, hpend⟩ := State.armRow_due (s := s.atInstant t) hp hd (.inr hrun) hdue (by omega)
  simp only [State.settle_frame, hcfg, htrig, hpend, hmode, State.armOne_disarm (s := s.atInstant t) hd one_ne_zero hrun]
  exact ⟨rfl, rfl, rfl⟩

/-- A rebasing that is due clears BASE of the points of the armings in force, and is struck off. -/
theorem State.rebaseEffect_due {s : State} {c : Nat} {p : Pend} (hp : s.pendOf 0x0703 c = some p) (hready : s.armReady c p.accepted = true) :
    (s.rebaseEffect c).trig.conds = upd s.trig.conds c (fun r => { r with spans := r.spans.map (fun e =>
      if e.until_.isNone then { e with pts := e.pts.filterMap (fun x => if x.2.run = 0 then none else some (x.1, { x.2 with base := none })) }
      else e) }) ∧ (s.rebaseEffect c).pend = Machine.strike 0x0703 c s.pend := by
  have hop : p.op = 0x0703 := State.pendOf_op hp
  unfold State.rebaseEffect
  simp only [hp, hready, Bool.not_true, Bool.false_eq_true, if_false, State.strikeLast_pend, hop]
  exact ⟨congrArg TrigState.conds (State.strikeLast_part (p := .trig) _ p c _ _ (by decide)), rfl⟩

theorem trigRebaseTakesEffectCompletes : TrigRebaseTakesEffectCompletes := by
  intro t c d p s hp hd hdue hrun
  refine completes_finish (f := fun s => s.rebaseRow c) rfl ?_
  rw [State.rebaseRow, State.atCondQuire_free (s := s.atInstant t) _ hd (.inr hrun)]
  simp only [State.settle_frame]
  exact State.rebaseEffect_due (s := s.atInstant t) hp (State.armReady_free hd hdue (.inr hrun))

/-- Settles O36: each row is `finish` of an operation or of a handler; the lemma about the operation says what it leaves where the premises hold, and
the writes that make a record ready take at most one place of the event queue for each channel of DRAM. -/
theorem rawSetsAndConditionsComplete : Obligations.RawSetsAndConditionsComplete :=
  ⟨rawSegmentCloseCompletes, rawSegmentCloseStallCompletes, rawRearmCompletes, rawCopyOutCompletes, trigDefineCompletes, trigArmCompletes,
    trigDisarmCompletes, trigArmTakesEffectCompletes, trigArmTakesEffectDisarmCompletes, trigRebaseCompletes, trigRebaseTakesEffectCompletes⟩

end Sys2Proof.Machine

/-! PROOFS of triggers and captures: a quire whose trigger jobs are not done, and the stamp of a software trigger that makes a capture. -/

namespace Sys2Proof.Machine

/-! ### A quire whose trigger jobs are not done (R247) -/

/-- The trigger jobs of a quire of a line. -/
def triggerJobs (l q : Nat) (k : JobKind) : Bool :=
  match k with
  | .trigger a b _ => a == l && b == q
  | _ => false

/-- While a trigger job of the oldest released quire is left, nothing of it is decided. -/
theorem State.decideHits_waiting {s : State} {l : Nat} {v : SlowSheet} {rest : List SlowSheet} (hv : (s.slowOf l).forTriggers = v :: rest)
    (hleft : s.jobsLeft (triggerJobs l (v.fsn / 32)) = true) (hp : s.pwr.st < 2) : s.decideHits l = s := by
  unfold State.decideHits
  simp only [hv]
  refine if_pos ?_
  show (s.jobsLeft (triggerJobs l (v.fsn / 32)) && decide (s.pwr.st < 2)) = true
  rw [hleft, decide_eq_true hp, Bool.and_self]

/-- The first row of the first quire of a line, of one point. -/
def firstSlowSheet : SlowSheet := ⟨false, [], [0], 0, 0, 0, zeros 32, [[0#32, 0#32]]⟩

/-- The first quire of line 0 has been released to the triggers, and its one trigger job is ready but not run. -/
def quireAwaitingItsJob : State :=
  (State.reset.modSlow 0 (fun r => { r with forTriggers := [firstSlowSheet] })).addJobs [.trigger 0 0 0]

/-- Refutes O35: `PointHitsDecidedCompletes` has a released quire decided whatever its trigger jobs do, but a quire is decided when they are done
(R247): while the job of quire 0 of line 0 is ready, DECIDED stays 0. -/
theorem not_triggersComplete : ¬ Obligations.TriggersComplete := by
  rintro ⟨hdecided, -⟩
  obtain ⟨u, hu, hquire, -⟩ := hdecided 0 0 firstSlowSheet [] quireAwaitingItsJob rfl (by decide) (by decide)
  obtain rfl : ((quireAwaitingItsJob.atInstant 0).decideHits 0).settle = u := Host.Outcome.next.inj hu
  rw [State.decideHits_waiting (s := quireAwaitingItsJob.atInstant 0) (v := firstSlowSheet) rfl (by decide) (by decide)] at hquire
  simp only [State.ltOf, State.settle_frame] at hquire
  exact absurd hquire (by decide)

/-! ### The stamp of a software trigger that makes a capture (R243) -/

/-- A part in operation whose armed condition 31 makes captures on line 0. -/
def softwareTriggerOnLine : State :=
  { State.reset with
    sys := { State.reset.sys with bootState := 4 }
    mbs := State.reset.mbs.map (fun m => { m with st := 0 })
    pwr := ⟨0, none, true, false⟩
    mem := { State.reset.mem with available := true }
    cfg := { State.reset.cfg with
      armed := 2 ^ 31, conds := State.reset.cfg.conds.set 31 (some { (default : CondDef) with line := 0, actions := 1 }) } }

/-- `cap.force` for line 0. -/
def forceLineZero : Cmd := ⟨0, none, 0, 1, 4, 0#96, 0, 0, u16 1 ++ zeros 2, default⟩

set_option maxRecDepth 100000 in
/-- The device takes that command, and its EFFECTIVE stamp names the line. -/
theorem capForce_softwareTriggerOnLine :
    (softwareTriggerOnLine.atInstant 500000).admits 0x0709 forceLineZero = true ∧
      rd (((softwareTriggerOnLine.atInstant 500000).hostCommand 0x0709 capForce forceLineZero).mbOf 0).stored 4 12 =
        ((softwareTriggerOnLine.atInstant 500000).secStamp 303616 (some 0) false).toNat := by
  decide

set_option maxRecDepth 100000 in
/-- Refutes O37: `CapForceCompletes` has every `cap.force` answered with the stamp of no line, but where condition 31 makes a capture on a line of the
mask it is that line's stamp (R243): for line 0, which has launched nothing, NO_LINE is 0 and the line number is given. -/
theorem not_capturesComplete : ¬ Obligations.CapturesComplete := by
  rintro ⟨-, -, -, -, -, -, hforce, -⟩
  obtain ⟨hadmits, hstamp⟩ := capForce_softwareTriggerOnLine
  obtain ⟨u, hu, -, -, hnoLine⟩ := hforce 500000 forceLineZero softwareTriggerOnLine hadmits (by decide) (by decide) (by decide) (by decide)
  obtain rfl : ((softwareTriggerOnLine.atInstant 500000).hostCommand 0x0709 capForce forceLineZero).settle = u := Host.Outcome.next.inj hu
  simp only [State.mbOf, State.settle_frame] at hnoLine
  rw [show forceLineZero.mb = 0 from rfl, ← State.mbOf, hstamp] at hnoLine
  exact absurd hnoLine (by decide)

end Sys2Proof.Machine

/-! PROOFS of the time base, the time-interval units and the trail: what each row leaves as it was. -/

namespace Sys2Proof.Machine

section
variable {p : StatePart}

/-! ### Updates of one component -/

@[simp] theorem State.modTb_part (s : State) (f : TimeBase → TimeBase) (h : p ≠ .tb) : (s.modTb f).part p = s.part p := by
  cases p with
  | tb => exact absurd rfl h
  | _ => rfl

@[simp] theorem State.modTrail_part (s : State) (f : Trail → Trail) (h : p ≠ .trail) : (s.modTrail f).part p = s.part p := by
  cases p with
  | trail => exact absurd rfl h
  | _ => rfl

theorem State.setPendLines_part (s : State) (x : List Pend) (l : List LineRun) (h : p ≠ .pend) (h' : p ≠ .lines) :
    ({ s with pend := x, lines := l } : State).part p = s.part p := by
  cases p with
  | pend => exact absurd rfl h
  | lines => exact absurd rfl h'
  | _ => rfl

@[simp] theorem State.modUnit_part (s : State) (u : Nat) (f : Tiu → Tiu) (h : p ≠ .tiu) : (s.modUnit u f).part p = s.part p := s.modTiu_part _ h

/-! ### Event stamps, steering and measurements -/

@[simp] theorem State.takeStamp_part (s : State) (x : Nat) (h : p ≠ .tiu) : (s.takeStamp x).2.2.2.part p = s.part p := by
  unfold State.takeStamp
  split <;> simp [h]

@[simp] theorem State.steerTo_part (s : State) (base corr : Int) (h : p ≠ .tb) : (s.steerTo base corr).part p = s.part p := s.modTb_part _ h
@[simp] theorem State.measure_part (s : State) (x : Int) (h : p ≠ .tb) : (s.measure x).part p = s.part p := s.modTb_part _ h
@[simp] theorem State.measureFirst_part (s : State) (x : Int) (h : p ≠ .tb) : (s.measureFirst x).part p = s.part p := s.modTb_part _ h
@[simp] theorem State.regain_part (s : State) (h : p ≠ .tb) : s.regain.part p = s.part p := s.modTb_part _ h

@[simp] theorem State.reportSecond_part (s : State) (boundary reported : Nat) (h : p ≠ .tb) : (s.reportSecond boundary reported).part p = s.part p := by
  simp [State.reportSecond, h]

@[simp] theorem State.secondStep_part (s : State) (h : p ≠ .tb) : s.secondStep.part p = s.part p := by
  simp [State.secondStep, h]

/-! ### Holdover and the sources -/

@[simp] theorem State.enterHoldover_part (s : State) (cause : Nat) (h : p ≠ .tb) : (s.enterHoldover cause).part p = s.part p := by
  unfold State.enterHoldover
  split <;> simp [h]

@[simp] theorem State.endHoldover_part (s : State) (h : p ≠ .tb) : s.endHoldover.part p = s.part p := by
  unfold State.endHoldover
  split <;> simp [h]

@[simp] theorem State.holdoverEnd_part (s : State) (h : p ≠ .tb) : s.holdoverEnd.part p = s.part p := by
  simp [State.holdoverEnd, h]

@[simp] theorem State.ppsEdge_part (s : State) (rising : Bool) (h : p ∉ [.tb, .tiu]) : (s.ppsEdge rising).part p = s.part p := by
  simp at h
  unfold State.ppsEdge
  dsimp only
  (repeat' split) <;> simp [h]

@[simp] theorem State.ppsLost_part (s : State) (h : p ≠ .tb) : s.ppsLost.part p = s.part p := by
  unfold State.ppsLost
  split <;> simp [h]

@[simp] theorem State.ptpChoose_part (s : State) (h : p ≠ .tb) : s.ptpChoose.part p = s.part p := by
  simp [State.ptpChoose, h]

@[simp] theorem State.ptpAnnounce_part (s : State) (sender : Nat) (a : PtpAnnounce) (h : p ≠ .tb) : (s.ptpAnnounce sender a).part p = s.part p :=
  s.modTb_part _ h

@[simp] theorem State.ptpSynced_part (s : State) (arrival second nanos : Nat) (corr : Int) (h : p ≠ .tb) :
    (s.ptpSynced arrival second nanos corr).part p = s.part p := by
  simp [State.ptpSynced, h]

@[simp] theorem State.ptpRx_part (s : State) (m : PtpMsg) (h : p ≠ .tb) : (s.ptpRx m).part p = s.part p := by
  unfold State.ptpRx
  dsimp only
  (repeat' split) <;> simp [h]

@[simp] theorem State.ptpTimeout_part (s : State) (h : p ≠ .tb) : s.ptpTimeout.part p = s.part p := by
  unfold State.ptpTimeout
  split <;> simp [h]

@[simp] theorem State.refclkLost_part (s : State) (h : p ≠ .tb) : s.refclkLost.part p = s.part p := by
  simp [State.refclkLost, h]

@[simp] theorem State.refclkRestored_part (s : State) (h : p ≠ .tb) : s.refclkRestored.part p = s.part p := by
  simp [State.refclkRestored, h]

/-! ### The servo, the thermos and the setting of time -/

@[simp] theorem State.servo_part (s : State) (h : p ≠ .tb) : s.servo.part p = s.part p := by
  unfold State.servo
  dsimp only
  (repeat' split) <;> simp [h]

@[simp] theorem State.thermosWarm_part (s : State) (h : p ≠ .tb) : s.thermosWarm.part p = s.part p := by
  simp only [State.thermosWarm, State.part_ite, State.raiseNow_part, State.modTb_part _ _ h, ite_self]

@[simp] theorem State.thermosNotWarm_part (s : State) (h : p ≠ .tb) : s.thermosNotWarm.part p = s.part p := by
  simp only [State.thermosNotWarm, State.part_ite, State.raiseNow_part, State.modTb_part _ _ h, ite_self]

@[simp] theorem State.timeFixed_part (s : State) (h : p ≠ .tb) : s.timeFixed.part p = s.part p := s.modTb_part _ h

@[simp] theorem State.setTime_part (s : State) (h : p ≠ .tb) : s.setTime.part p = s.part p := by
  simp [State.setTime, h]

@[simp] theorem State.ppsOutRise_part (s : State) (h : p ∉ [.tb, .tiu]) : s.ppsOutRise.part p = s.part p := by
  simp at h
  simp [State.ppsOutRise, h]

/-! ### Steps of the time base -/

@[simp] theorem State.wakeAtStep_part (s : State) (at_ l : Nat) (h : p ≠ .quads) : (s.wakeAtStep at_ l).part p = s.part p := by
  unfold State.wakeAtStep
  split <;> simp [h]

@[simp] theorem State.stepLine_part (s : State) (at_ : Nat) (phase : Bool) (discards l : Nat) (h : p ∉ [.grid, .lines, .quads]) :
    (s.stepLine at_ phase discards l).part p = s.part p := by
  simp at h
  unfold State.stepLine
  split <;> simp [h]

@[simp] theorem State.stepSpot_part (s old : State) (at_ l : Nat) (h : p ≠ .grid) : (s.stepSpot old at_ l).part p = s.part p := by
  unfold State.stepSpot
  split <;> simp [h]

@[simp] theorem State.stepScale_part (s : State) (at_ tick second : Nat) (phase : Bool) (h : p ∉ [.pend, .tb, .grid, .lines, .quads]) :
    (s.stepScale at_ tick second phase).part p = s.part p := by
  simp at h
  unfold State.stepScale
  dsimp only
  rw [State.raise_part, foldl_part _ fun s l => by simp [h], State.timeFixed_part _ h.2.1, State.modTb_part _ _ h.2.1,
    State.setPendLines_part _ _ _ h.1 h.2.2.2.1, State.modTb_part _ _ h.2.1]

@[simp] theorem State.fixPhase_part (s : State) (h : p ≠ .tb) : s.fixPhase.part p = s.part p := by
  simp [State.fixPhase, h]

@[simp] theorem State.tbStep_part (s : State) (h : p ∉ [.pend, .tb, .grid, .lines, .quads]) : s.tbStep.part p = s.part p := by
  simp at h
  unfold State.tbStep
  split <;> simp [h]

/-! ### `tb.config` and `tb.status` -/

@[simp] theorem tbConfig_part (c : Cmd) (s : State) (h : p ≠ .pend) : (tbConfig c s).2.part p = s.part p := by
  simp [tbConfig, h]

/-- A `tb.config` in force moves the time base besides its own settings and the list of what waits. -/
theorem State.tbConfigEffect_due {s : State} {q : Pend} (hq : s.pendOp 0x0801 = some q)
    (hdue : s.boundaryAtOrAfter (q.applyAt.getD q.accepted) ≤ s.now) (h : p ≠ .tb) :
    s.tbConfigEffect.part p = ((s.dropOp 0x0801).modCfg (fun r => { r with tb := readTbCfg q.data })).part p := by
  unfold State.tbConfigEffect
  simp only [hq]
  rw [if_neg (Nat.not_lt.mpr hdue), State.applied_part]
  generalize hv : State.modTb (State.modCfg (State.dropOp (s.steerTo _ _) _) _) _ = v
  have hbase : v.part p = ((s.dropOp 0x0801).modCfg (fun r => { r with tb := readTbCfg q.data })).part p := by
    subst hv
    refine (State.modTb_part _ _ h).trans ?_
    cases p with
    | tb => exact absurd rfl h
    | _ => rfl
  generalize hw : (if (readTbCfg q.data).ppsOut = true then v else _) = w
  have hout : w.part p = v.part p := by
    subst hw
    simp [h]
  rw [← hbase, ← hout]
  simp only [State.part_ite]
  split
  · rfl
  · split
    · split <;> simp [h]
    · split <;> simp [h]

@[simp] theorem State.tbConfigEffect_part (s : State) (h : p ∉ [.cfg, .pend, .tb]) : s.tbConfigEffect.part p = s.part p := by
  simp at h
  obtain ⟨hcfg, hpend, htb⟩ := h
  rcases hq : s.pendOp 0x0801 with _ | q
  · simp [State.tbConfigEffect, hq]
  · by_cases hdue : s.boundaryAtOrAfter (q.applyAt.getD q.accepted) ≤ s.now
    · rw [State.tbConfigEffect_due hq hdue htb, State.modCfg_part _ _ hcfg, State.dropOp_part _ _ hpend]
    · simp [State.tbConfigEffect, hq, not_le.mp hdue]

@[simp] theorem tbStatus_part (c : Cmd) (s : State) (h : p ∉ [.tb, .health]) : (tbStatus c s).2.part p = s.part p := by
  simp at h
  simp [tbStatus, h]

/-! ### Time-interval units -/

@[simp] theorem tiuMeasure_part (c : Cmd) (s : State) (h : p ≠ .pend) : (tiuMeasure c s).2.part p = s.part p := by
  fun_cases tiuMeasure c s <;> simp [h]

@[simp] theorem State.armEffect_part (s : State) (h : p ∉ [.pend, .tiu]) : s.armEffect.part p = s.part p := by
  simp at h
  unfold State.armEffect
  dsimp only
  (repeat' split) <;> simp [h]

@[simp] theorem State.tiuDone_part (s : State) (u : Nat) (a : Arming) (word : Nat) (interval : Option Int) (h : p ≠ .tiu) :
    (s.tiuDone u a word interval).part p = s.part p := by
  simp [State.tiuDone, h]

@[simp] theorem State.tiuMeasured_part (s : State) (u : Nat) (a : Arming) (start stop : Nat) (h : p ≠ .tiu) :
    (s.tiuMeasured u a start stop).part p = s.part p := by
  simp [State.tiuMeasured, h]

@[simp] theorem State.tiuResult_part (s : State) (u start stop : Nat) (h : p ≠ .tiu) : (s.tiuResult u start stop).part p = s.part p := by
  unfold State.tiuResult
  dsimp only
  (repeat' split) <;> simp [h]

@[simp] theorem State.tiuTimeout_part (s : State) (u : Nat) (h : p ≠ .tiu) : (s.tiuTimeout u).part p = s.part p := by
  unfold State.tiuTimeout
  split <;> simp [h]

@[simp] theorem State.tiuAbort_part (s : State) (u : Nat) (h : p ≠ .tiu) : (s.tiuAbort u).part p = s.part p := by
  unfold State.tiuAbort
  split <;> simp [h]

@[simp] theorem tiuLaunchZero_part (c : Cmd) (s : State) (h : p ∉ [.pend, .tiu, .grid]) : (tiuLaunchZero c s).2.part p = s.part p := by
  simp at h
  fun_cases tiuLaunchZero c s <;> simp +zetaDelta [h]

@[simp] theorem State.launchZeroDone_part (s : State) (line : Nat) (h : p ∉ [.cfg, .pend, .tiu]) : (s.launchZeroDone line).part p = s.part p := by
  simp at h
  unfold State.launchZeroDone
  dsimp only
  (repeat' split) <;> simp [h]

@[simp] theorem State.tiuCheck_part (s : State) (u measured : Nat) (loopLocked : Bool) (h : p ∉ [.tiu, .health]) :
    (s.tiuCheck u measured loopLocked).part p = s.part p := by
  simp at h
  simp [State.tiuCheck, h]

@[simp] theorem State.tiuSpared_part (s : State) (u : Nat) (h : p ∉ [.tiu, .health]) : (s.tiuSpared u).part p = s.part p := by
  simp at h
  unfold State.tiuSpared
  dsimp only
  (repeat' split) <;> simp [h]

@[simp] theorem tiuStatus_part (c : Cmd) (s : State) (h : p ∉ [.tiu, .health]) : (tiuStatus c s).2.part p = s.part p := by
  simp at h
  simp [tiuStatus, h]

/-! ### The trail -/

@[simp] theorem State.frameIn_part (s : State) (n : Nat) (h : p ≠ .tiu) : (s.frameIn n).part p = s.part p := s.tiuEvent_part _ _ _ h
@[simp] theorem State.badFrame_part (s : State) (h : p ≠ .trail) : s.badFrame.part p = s.part p := s.modTrail_part _ h

@[simp] theorem State.syncTx_part (s : State) : s.syncTx.part p = s.part p := by
  simp [State.syncTx]

@[simp] theorem State.syncRx_part (s : State) (rx : TrailRx) (h : p ∉ [.tb, .tiu, .trail]) : (s.syncRx rx).part p = s.part p := by
  simp at h
  simp [State.syncRx, h]

@[simp] theorem State.trailLost_part (s : State) (h : p ∉ [.tb, .trail]) : s.trailLost.part p = s.part p := by
  simp at h
  simp only [State.trailLost, State.part_ite, State.enterHoldover_part _ _ h.1, State.modTb_part _ _ h.1, State.modTrail_part _ _ h.2, ite_self]

@[simp] theorem State.delayReqTx_part (s : State) (h : p ≠ .trail) : s.delayReqTx.part p = s.part p := by
  simp [State.delayReqTx, h]

@[simp] theorem State.delayReqRx_part (s : State) (rx : TrailRx) (h : p ∉ [.tiu, .trail]) : (s.delayReqRx rx).part p = s.part p := by
  simp at h
  simp [State.delayReqRx, h]

@[simp] theorem State.delayRespRx_part (s : State) (rx : TrailRx) (h : p ∉ [.tiu, .trail]) : (s.delayRespRx rx).part p = s.part p := by
  simp at h
  unfold State.delayRespRx
  dsimp only
  (repeat' split) <;> simp [h]

@[simp] theorem State.topoTx_part (s : State) : s.topoTx.part p = s.part p := by
  simp [State.topoTx]

@[simp] theorem State.topoRx_part (s : State) (rx : TrailRx) (h : p ∉ [.tiu, .trail]) : (s.topoRx rx).part p = s.part p := by
  simp at h
  simp [State.topoRx, h]

@[simp] theorem State.bcastOriginate_part (s : State) (c : Nat) (h : p ∉ [.trail, .trig]) : (s.bcastOriginate c).part p = s.part p := by
  simp at h
  unfold State.bcastOriginate
  split <;> simp [foldl_part, h]

@[simp] theorem trailConfig_part (c : Cmd) (s : State) (h : p ≠ .pend) : (trailConfig c s).2.part p = s.part p := by
  simp [trailConfig, h]

@[simp] theorem State.trailConfigEffect_part (s : State) (h : p ∉ [.cfg, .pend, .trail]) : s.trailConfigEffect.part p = s.part p := by
  simp at h
  unfold State.trailConfigEffect
  split <;> simp [h]

@[simp] theorem trailStatus_part (c : Cmd) (s : State) (h : p ∉ [.trail, .health]) : (trailStatus c s).2.part p = s.part p := by
  simp at h
  simp [trailStatus, h]

end

/-! ### The rows -/

/-- Settles O22: as for O19, a row is `finish` of one operation, whose `_part` lemma names the components it may write. -/
theorem timeFrames : Obligations.TimeFrames := by
  intro i s u hf hx p hp
  rw [State.keeps_iff]
  cases i with
  | tbConfig | tbStatus | tiuMeasure | tiuLaunchZero | tiuStatus | trailConfig | trailStatus =>
    unfold exec at hx
    simp only [writesOf, List.mem_cons, List.not_mem_nil, or_false, not_or] at hp
    exact part_of_hostCommand hx (by simp [hp]) fun c s => by simp [hp]
  | ppsInEdge | ppsLost | ptpMessageRx | ptpSyncTimeout | servoRun | tbStep | timeSet | holdoverEnd | refclkLost | refclkRestored | thermosWarm
  | thermosNotWarm | ppsOutPulse | tiuSelfCheck | tiuSpared | tiuResult | tiuTimeout | tbConfigTakesEffect | tiuArmed | launchZeroDone
  | trailConfigTakesEffect | syncTx | syncRx | topoTx | topoRx | delayReqTx | delayReqRx | delayRespRx | bcastOriginate | trailSourceLost =>
    unfold exec at hx
    simp only [writesOf, List.mem_cons, List.not_mem_nil, or_false, not_or] at hp
    exact part_of_finish hx fun s => by simp [hp]
  | _ => cases hf

end Sys2Proof.Machine

/-! PROOFS of the time base: PPS_OUT at a step back, the servo, steps, holdover and the thermos. -/

namespace Sys2Proof.Machine

/-! ### PPS_OUT at a step back (R290) -/

/-- Where no pulse is due PPS_OUT does not rise. -/
theorem State.ppsOutRise_of_not_due {s : State} (h : s.ppsOutDue = false) : s.ppsOutRise = s := by
  simp [State.ppsOutRise, h]

/-- The reset state with PPS_OUT enabled, in which the servo has scheduled a step that sets the count back by one cell at the first boundary. -/
def stepBackDue : State :=
  (State.reset.modCfg (fun g => { g with tb := { g.tb with ppsOut := true } })).modTb
    (fun b => { b with pendStep := some ⟨ticksPerSecond, true, ticksPerCell, 0⟩ })

/-- Refutes O38: `PpsOutPulseCompletes` has a pulse begin at every boundary, but none begins at a step back (R290): at the boundary at which the count is
to go back by one cell PPS_OUT stays low. -/
theorem not_clockComplete : ¬ Obligations.ClockComplete := by
  rintro ⟨-, -, hpulse, -⟩
  obtain ⟨u, hu, hhigh, -⟩ := hpulse ticksPerSecond stepBackDue rfl (by decide) (by decide)
  obtain rfl : (stepBackDue.atInstant ticksPerSecond).ppsOutRise.settle = u := Host.Outcome.next.inj hu
  rw [State.ppsOutRise_of_not_due (by decide)] at hhigh
  simp only [State.settle_frame] at hhigh
  exact absurd hhigh (by decide)

/-! ### The servo (R285) -/

theorem State.secondStep_of_agreeing {s : State} (h : s.tb.disagree < 3) : s.secondStep = s := by
  simp [State.secondStep, Nat.not_le.mpr h]

theorem State.steerHeld_eq_false {s : State} (href : s.tb.refclk = true) (hsynth : s.tb.synthLocked = true) (hhold : s.tb.holdover = none) :
    s.steerHeld = false := by
  simp [State.steerHeld, href, hsynth, hhold]

/-- What every run of the servo does under a source: the steering word is remembered and the measurement is used up. -/
def State.servoBegun (s : State) : State := s.modTb (fun b => { b with steerHist := (s.steerNow :: b.steerHist).take 101, measureNew := false })

/-- Two measurements in consecutive seconds above STEP_NS schedule a step. -/
theorem State.servo_schedules {s : State} {x : Nat} {d : Int} (hsource : s.cfg.tb.source ≠ 0) (hm : s.tb.measured = some (x, d))
    (hnew : s.tb.measureNew = true) (hheld : s.steerHeld = false) (href : s.tb.refclk = true) (hsynth : s.tb.synthLocked = true)
    (hbig : s.cfg.tb.stepNs * 1000 < (ticksToPs d).natAbs) (htwo : twoMeasured s.tb = true) (hfree : s.tb.pendStep = none)
    (hagree : s.tb.disagree < 3) :
    s.servo = s.servoBegun.modTb (fun b => { b with pendStep := some (s.phaseStep (wholeCells d)) }) := by
  have hcalm : s.servoBegun.secondStep = s.servoBegun := State.secondStep_of_agreeing hagree
  have hnone : s.servoBegun.tb.pendStep = none := hfree
  unfold State.servo
  dsimp only
  rw [if_neg hsource, show s.modTb _ = s.servoBegun from rfl, hcalm]
  simp [hm, hnew, hheld, href, hsynth, hbig, htwo, hnone]

/-- Without REFCLK_10M the servo does nothing else. -/
theorem State.servo_without_refclk {s : State} (hsource : s.cfg.tb.source ≠ 0) (href : s.tb.refclk = false) (hagree : s.tb.disagree < 3) :
    s.servo = s.servoBegun := by
  have hcalm : s.servoBegun.secondStep = s.servoBegun := State.secondStep_of_agreeing hagree
  have hheld : s.steerHeld = true := by simp [State.steerHeld, href]
  unfold State.servo
  dsimp only
  rw [if_neg hsource, show s.modTb _ = s.servoBegun from rfl, hcalm]
  simp only [hheld, href]
  split <;> rfl

theorem servoStepCompletes : ServoStepCompletes := by
  intro t x d s hsource hm hnew href hsynth hhold hbig htwo hfree hagree
  refine completes_finish (f := State.servo) rfl ?_
  rw [State.servo_schedules (s := s.atInstant t) hsource hm hnew (State.steerHeld_eq_false href hsynth hhold) href hsynth hbig htwo hfree hagree]
  simp only [State.settle_frame]
  exact ⟨rfl, rfl, rfl⟩

theorem servoHeldCompletes : ServoHeldCompletes := by
  intro t s hsource href hagree
  refine completes_finish (f := State.servo) rfl ?_
  rw [State.servo_without_refclk (s := s.atInstant t) hsource href hagree]
  simp only [State.settle_frame]
  exact ⟨rfl, rfl, rfl⟩

/-! ### Steps (R27) -/

/-- The scale that a step lays down. -/
theorem State.stepScale_scale (s : State) (at_ tick second : Nat) (phase : Bool) :
    (s.stepScale at_ tick second phase).tb.secTick = tick ∧ (s.stepScale at_ tick second phase).tb.secVal = second ∧
      (s.stepScale at_ tick second phase).tb.scaleFrom = at_ ∧ (s.stepScale at_ tick second phase).tb.steps = satAdd s.tb.steps 1 ∧
        (s.stepScale at_ tick second phase).tb.pendStep = none := by
  unfold State.stepScale
  simp only [State.raise_frame]
  generalize hv : State.timeFixed _ = v
  have hfold : ∀ g : State → Nat → State, (∀ u l, (g u l).part .tb = u.part .tb) → ((List.range 16).foldl g v).tb = v.tb :=
    fun g hg => foldl_part (p := .tb) g hg _ _
  rw [hfold _ fun u l => by simp]
  subst hv
  exact ⟨rfl, rfl, rfl, rfl, rfl⟩

theorem State.tbStep_due {s : State} {p : PendStep} (hp : s.tb.pendStep = some p) (hdue : p.at_ ≤ s.now) (hmoves : p.newSecTick ≠ p.at_) :
    s.tbStep = s.stepScale p.at_ p.newSecTick p.newSecond p.phase := by
  simp [State.tbStep, hp, Nat.not_lt.mpr hdue, hmoves]

theorem tbStepCompletes : TbStepCompletes := by
  intro t p s hp hdue hmoves
  refine completes_finish (f := State.tbStep) rfl ?_
  rw [State.tbStep_due (s := s.atInstant t) hp hdue hmoves]
  simp only [State.settle_frame]
  exact State.stepScale_scale (s.atInstant t) p.at_ p.newSecTick p.newSecond p.phase

theorem timeSetCompletes : TimeSetCompletes := by
  intro t s hboundary hphase hsecond
  refine completes_finish (f := State.setTime) rfl ?_
  have hset : (s.atInstant t).setTime = (s.atInstant t).timeFixed := if_pos hboundary
  rw [hset]
  simp only [State.settle_frame]
  simp [State.timeFixed, hsecond, hphase]

/-! ### Holdover (R288) -/

theorem State.endHoldover_holdover (s : State) : s.endHoldover.tb.holdover = none := by
  unfold State.endHoldover
  split
  · simp
  · assumption

/-- A holdover is over at a boundary at which the source is locked and regained, its offset small, and the clock good. -/
theorem State.holdoverOver_of_regained {s : State} {cause since : Nat} (hhold : s.tb.holdover = some (cause, since))
    (hboundary : s.isBoundary s.now = true) (href : s.tb.refclk = true) (hsynth : s.tb.synthLocked = true) (hlocked : s.sourceLocked = true)
    (hregained : cause = 3 ∨ s.tb.regained = true) (hoffset : s.tb.offsetPs.natAbs ≤ 50000) : s.holdoverOver = true := by
  simp [State.holdoverOver, hhold, hboundary, href, hsynth, hlocked, hregained, hoffset]

theorem holdoverEndCompletes : HoldoverEndCompletes := by
  intro t cause since s hhold hboundary href hsynth hlocked hregained hoffset
  refine completes_finish (f := State.holdoverEnd) rfl ?_
  have hover := State.holdoverOver_of_regained (s := s.atInstant t) hhold hboundary href hsynth hlocked hregained hoffset
  simp only [State.holdoverEnd, if_pos hover, State.settle_frame]
  exact State.endHoldover_holdover _

/-! ### The thermos (R281, R282) -/

theorem State.thermosWarm_tb {s : State} (hcold : s.tb.warm = false) (href : s.tb.refclk = true) (helapsed : s.cfg.tb.warmS ≤ s.warmElapsed)
    (hcalm : s.disciplined = false ∨ windowsCalm s.tb.steerHist (s.cfg.tb.warmPpb * 10) = true) :
    s.thermosWarm.tb = { s.tb with warm := true, warmFrom := some (s.boundaryAtOrAfter s.now) } := by
  unfold State.thermosWarm
  rw [if_pos (by simpa [hcold, href, helapsed] using hcalm)]
  simp only [State.raiseNow_frame, State.modTb_tb]

theorem thermosWarmCompletes : ThermosWarmCompletes := by
  intro t s hcold href helapsed hcalm
  refine completes_finish (f := State.thermosWarm) rfl ?_
  simp only [State.settle_frame, State.thermosWarm_tb (s := s.atInstant t) hcold href helapsed hcalm, and_self]

theorem State.thermosNotWarm_tb {s : State} (hwarm : s.tb.warm = true) (hdisciplined : s.disciplined = true) (hlong : 11 ≤ s.tb.steerHist.length)
    (hmoved : 40 * s.cfg.tb.warmPpb < (nth s.tb.steerHist 0 0 - nth s.tb.steerHist 10 0).natAbs) :
    s.thermosNotWarm.tb = { s.tb with warm := false, warmFrom := none, presentSince := s.now, steerHist := s.tb.steerHist.take 60 } := by
  unfold State.thermosNotWarm
  rw [if_pos (by simp [hwarm, hdisciplined, hlong, hmoved])]
  simp only [State.raiseNow_frame, State.modTb_tb]

theorem thermosNotWarmCompletes : ThermosNotWarmCompletes := by
  intro t s hwarm hdisciplined hlong hmoved
  refine completes_finish (f := State.thermosNotWarm) rfl ?_
  simp only [State.settle_frame, State.thermosNotWarm_tb (s := s.atInstant t) hwarm hdisciplined hlong hmoved, State.atInstant_now, and_self]

/-! ### `tb.config` (R307) -/

theorem tbConfig_pends {c : Cmd} {s : State} (hok : tbCfgOk (readTbCfg c.arg) = true) (hfree : s.pendOp 0x0801 = none)
    (hroot : (readTbCfg c.arg).source = 4 → s.cfg.trail.root = false)
    (hmember : (readTbCfg c.arg).source ≠ 4 → s.cfg.trail.member = true → s.cfg.trail.root = true) : tbConfig c s = pendWith s c 0x0801 [0] none := by
  unfold tbConfig
  simp only [hok, hfree, Bool.not_true, Option.isSome_none, Bool.false_eq_true, if_false]
  refine if_neg ?_
  by_cases h4 : (readTbCfg c.arg).source = 4
  · simp [h4, hroot h4]
  · simpa [h4] using hmember h4

theorem tbConfigCompletes : TbConfigCompletes := by
  intro t c s ha hok hfree hroot hmember
  exact completes_pending _ t _ _ c s _ none rfl ha (tbConfig_pends hok hfree hroot hmember)

/-- Settles O39: each row is `finish` of an operation or of a handler; the lemma about the operation says what it leaves where the premises hold. -/
theorem timeBaseComplete : Obligations.TimeBaseComplete :=
  ⟨servoStepCompletes, servoHeldCompletes, tbStepCompletes, timeSetCompletes, holdoverEndCompletes, thermosWarmCompletes, thermosNotWarmCompletes,
    tbConfigCompletes⟩

end Sys2Proof.Machine

/-! PROOFS of the time-interval units: self-checks, spares, results, armings and launch zero. -/

namespace Sys2Proof.Machine

/-! ### Unit records (R510) -/

theorem nth_upd_ne {α : Type} (l : List α) {n m : Nat} (f : α → α) (d : α) (h : n ≠ m) : nth (upd l n f) m d = nth l m d := by
  simp [nth, upd, h]

theorem lt_of_nth_ne {α : Type} {l : List α} {n : Nat} {d : α} (h : nth l n d ≠ d) : n < l.length := by
  by_contra hge
  exact h (by simp [nth, List.getElem?_eq_none (not_lt.mp hge)])

/-- Unit records are read of the health state that a frame speaks of. -/
theorem State.hUnit_congr {s u : State} (h : u.part .health = s.part .health) (k i : Nat) : u.hUnit k i = s.hUnit k i := by
  have hkept : u.health.kept = s.health.kept := h
  have hunits : u.health.kept.units = s.health.kept.units := congrArg Health.units hkept
  have hmacros : u.health.kept.macros = s.health.kept.macros := congrArg Health.macros hkept
  simp only [Health.kept] at hunits hmacros
  simp only [State.hUnit, hunits, hmacros]

theorem State.hUnit_settle (s : State) (k i : Nat) : s.settle.hUnit k i = s.hUnit k i := State.hUnit_congr s.settle_part k i

theorem State.hUnit_raiseNow (s : State) (code sev src : Nat) (args : List Byte) (key : Option (List Nat)) (k i : Nat) :
    (s.raiseNow code sev src args key).hUnit k i = s.hUnit k i :=
  State.hUnit_congr (by simp) k i

/-- The records of a kind of unit after one of them is updated. -/
theorem State.modHUnit_units {s : State} {k i : Nat} (f : Unit_ → Unit_) (hk : k ≠ kindMacro) (hi : i < (nth s.health.units k []).length) :
    nth (s.modHUnit k i f).health.units k [] = upd (nth s.health.units k []) i f := by
  have hlt : k < s.health.units.length := lt_of_nth_ne (List.ne_nil_of_length_pos (Nat.zero_lt_of_lt hi))
  rw [State.modHUnit, State.modHealth_health, if_neg hk]
  exact nth_upd _ _ _ _ hlt

theorem State.hUnit_modHUnit {s : State} {k i : Nat} (f : Unit_ → Unit_) (hk : k ≠ kindMacro) (hi : i < (nth s.health.units k []).length) :
    (s.modHUnit k i f).hUnit k i = f (s.hUnit k i) := by
  rw [State.hUnit, if_neg hk, State.modHUnit_units f hk hi, nth_upd _ _ _ _ hi, State.hUnit, if_neg hk]

theorem State.hUnit_modHUnit_ne {s : State} {k i j : Nat} (f : Unit_ → Unit_) (hk : k ≠ kindMacro) (hi : i < (nth s.health.units k []).length)
    (hij : i ≠ j) : (s.modHUnit k i f).hUnit k j = s.hUnit k j := by
  rw [State.hUnit, if_neg hk, State.modHUnit_units f hk hi, nth_upd_ne _ _ _ hij, State.hUnit, if_neg hk]

/-- The first error of a unit in service makes its test fall due. -/
theorem State.hUnit_detect {s : State} {k i : Nat} (hk : k ≠ kindMacro) (hi : i < (nth s.health.units k []).length)
    (hserves : (s.hUnit k i).serves = true) (hdue : (s.hUnit k i).due = none) :
    ((s.detect k i).hUnit k i).due = some (2, false) ∧ ((s.detect k i).hUnit k i).errors = satAdd (s.hUnit k i).errors 1 := by
  obtain ⟨h2, h3, h5⟩ : (s.hUnit k i).st ≠ 2 ∧ (s.hUnit k i).st ≠ 3 ∧ (s.hUnit k i).st ≠ 5 := by
    simp [Unit_.serves] at hserves
    omega
  rw [State.detect, State.hUnit_modHUnit _ hk hi]
  simp [h2, h3, h5, hdue]

/-- A spare takes the place of a unit whose test is due: the spare is active, and the unit under test. -/
theorem State.spareTakes_tested {s : State} {k i j : Nat} (hk : k ≠ kindMacro) (hi : i < (nth s.health.units k []).length)
    (hj : j < (nth s.health.units k []).length) (hij : j ≠ i) (hdue : (s.hUnit k i).due.isSome = true) :
    ((s.spareTakes k i j).hUnit k j).st = 0 ∧ ((s.spareTakes k i j).hUnit k i).st = 2 := by
  have hi' : i < (nth (s.modHUnit k j (fun v => { v with st := 0 })).health.units k []).length := by
    rwa [State.modHUnit_units _ hk hj, upd, List.length_modify]
  have htakes : s.spareTakes k i j = (s.modHUnit k j (fun v => { v with st := 0 })).beginTest k i := by
    simp [State.spareTakes, State.testDue, hdue]
  rw [htakes, State.beginTest, State.hUnit_modHUnit_ne _ hk hi' hij.symm, State.hUnit_modHUnit _ hk hj, State.hUnit_modHUnit _ hk hi']
  exact ⟨rfl, rfl⟩

theorem State.ne_of_spareFor {s : State} {k i j : Nat} (h : s.spareFor k i = some j) : j ≠ i := by
  have hj := List.find?_some (show (sparePool k i).find? (fun j => (s.hUnit k j).st == 1 && j != i) = some j from h)
  simp at hj
  exact hj.2

/-! ### Units and their armings (R291, R293) -/

theorem State.tiuOf_modUnit {s : State} {u : Nat} (f : Tiu → Tiu) (h : u < s.tiu.units.length) : (s.modUnit u f).tiuOf u = f (s.tiuOf u) :=
  nth_upd _ _ _ _ h

theorem State.tiuOf_congr {s v : State} (h : v.tiu.units = s.tiu.units) (u : Nat) : v.tiuOf u = s.tiuOf u := by
  rw [State.tiuOf, State.tiuOf, h]

theorem State.lt_of_arming {s : State} {u : Nat} {a : Arming} (h : (s.tiuOf u).arming = some a) : u < s.tiu.units.length :=
  lt_of_nth_ne (d := default) fun hd => by
    rw [State.tiuOf, hd] at h
    cases h

/-- An arming that is no shot of a launch-zero measurement ends: its unit is free, and EV_TIU_DONE carries its word. -/
theorem State.tiuDone_arming {s : State} {u word : Nat} {a : Arming} {interval : Option Int} (hz : a.zero = false) :
    s.tiuDone u a word interval = (s.modUnit u (fun x => { x with arming := none })).raiseNow 0x0808 sevInfo (srcTiu u) (u64 word ++ u16 a.seq) none := by
  simp [State.tiuDone, hz]

theorem State.tiuOf_settle (s : State) (u : Nat) : s.settle.tiuOf u = s.tiuOf u := State.tiuOf_congr (by simp only [State.settle_frame]) u

theorem State.tiuDone_tiu {s : State} {u word : Nat} {a : Arming} {interval : Option Int} (hz : a.zero = false) :
    (s.tiuDone u a word interval).tiu = (s.modUnit u (fun x => { x with arming := none })).tiu := by
  rw [State.tiuDone_arming hz, State.raiseNow, (State.raise_frame ..).2.2.2.2.2.2.2.2.2.2.2.1]

theorem State.tiuDone_frees {s : State} {u word : Nat} {a : Arming} {interval : Option Int} (hz : a.zero = false) (hu : u < s.tiu.units.length) :
    ((s.tiuDone u a word interval).tiuOf u).arming = none :=
  (congrArg Tiu.arming (State.tiuOf_congr (congrArg TiuState.units (State.tiuDone_tiu hz)) u)).trans
    (congrArg Tiu.arming (State.tiuOf_modUnit _ hu))

theorem State.tiuDone_reports {s : State} {u word : Nat} {a : Arming} {interval : Option Int} (hz : a.zero = false) (hroom : s.room 1) :
    (s.tiuDone u a word interval).reported 0x0808 (srcTiu u) (u64 word ++ u16 a.seq) := by
  rw [State.tiuDone_arming hz]
  exact reported_raise _ _ _ _ _ _ _ hroom

theorem State.tiuMeasured_locked {s : State} {u start stop : Nat} {a : Arming} (hlocked : (s.tiuOf u).locked = true)
    (hlong : 2 ≤ ((stop : Int) - start).natAbs) :
    s.tiuMeasured u a start stop = s.tiuDone u a (resultWord ((stop : Int) - start) u false false false false) (some ((stop : Int) - start)) := by
  simp [State.tiuMeasured, hlocked, Nat.not_lt.mpr hlong]

/-- An interval measured with a locked unit: the unit is free, EV_TIU_DONE carries the interval, and no stop is counted as early. -/
theorem State.tiuMeasured_settled {s : State} {u start stop : Nat} {a : Arming} (hz : a.zero = false) (hu : u < s.tiu.units.length)
    (hlocked : (s.tiuOf u).locked = true) (hlong : 2 ≤ ((stop : Int) - start).natAbs) (hroom : s.room 1) :
    ((s.tiuMeasured u a start stop).settle.tiuOf u).arming = none ∧
      (s.tiuMeasured u a start stop).settle.reported 0x0808 (srcTiu u)
        (u64 (resultWord ((stop : Int) - start) u false false false false) ++ u16 a.seq) ∧
      (s.tiuMeasured u a start stop).settle.tiu.wrongOrder = s.tiu.wrongOrder := by
  rw [State.tiuMeasured_locked hlocked hlong, State.tiuOf_settle]
  refine ⟨State.tiuDone_frees hz hu, reported_settle _ _ _ _ (State.tiuDone_reports hz hroom), ?_⟩
  simp only [State.settle_frame, State.tiuDone_tiu hz]
  rfl

/-- Stops that came before their start are counted (R292). -/
def State.countWrongOrder (s : State) (n : Nat) : State := s.modTiu (fun q => { q with wrongOrder := satAdd q.wrongOrder n })

/-- A start and a stop of a source that no row brings: a stop before the start is counted in ordered mode, and measured otherwise. -/
theorem State.tiuResult_hidden {s : State} {u start x stop : Nat} {a : Arming} (harm : (s.tiuOf u).arming = some a) (hx : a.startAt = some x)
    (hhid : tiuHidden a.stop = true) (hfrom : a.armedAt ≤ stop) (hwithin : max x stop ≤ a.armedAt + a.timeout * ticksPerCell) :
    s.tiuResult u start stop = if !a.signed && decide (stop < x) then s.countWrongOrder 1
      else s.tiuMeasured u a x stop := by
  obtain ⟨hstart, hstop⟩ := max_le_iff.mp hwithin
  simp [State.tiuResult, State.countWrongOrder, harm, hx, hhid, Nat.not_lt.mpr hfrom, Nat.not_lt.mpr hstart, Nat.not_lt.mpr hstop]

/-- In ordered mode a start of a source that no row brings, and the first stop at or after it that a row brought; the stops before it are counted. -/
theorem State.tiuResult_seen {s : State} {u start stop y : Nat} {a : Arming} (harm : (s.tiuOf u).arming = some a) (hx : a.startAt = none)
    (hhid : tiuHidden a.start = true) (hseen : tiuHidden a.stop = false) (hordered : a.signed = false) (hfrom : a.armedAt ≤ start)
    (hwithin : start ≤ a.armedAt + a.timeout * ticksPerCell) (hy : a.stops.find? (fun y => decide (start ≤ y)) = some y) :
    s.tiuResult u start stop = (s.countWrongOrder (a.stops.filter (fun y => decide (y < start))).length).tiuMeasured u a start y := by
  have hnot : (fun y => !decide (y < start)) = fun y => decide (start ≤ y) := funext fun y => Bool.eq_iff_iff.mpr (by simp)
  simp [State.tiuResult, State.countWrongOrder, harm, hx, hhid, hseen, hordered, hfrom, Nat.not_lt.mpr hwithin, hnot, hy]

/-! ### The rows of a unit -/

theorem tiuSelfCheckGoodCompletes : TiuSelfCheckGoodCompletes := by
  intro t u m s hu hserves hidle hsmall
  refine completes_finish (f := fun s => s.tiuCheck u m true) rfl ?_
  have hgood : (s.atInstant t).tiuCheck u m true = (s.atInstant t).modUnit u (fun x => { x with locked := true }) := by
    have hserves' : ((s.atInstant t).hUnit kindTiu u).serves = true := hserves
    have hidle' : ((s.atInstant t).tiuOf u).arming = none := hidle
    simp [State.tiuCheck, Nat.not_lt.mpr hu, hserves', hidle', show ¬2 < ((m : Int) - 16384).natAbs from Nat.not_lt.mpr hsmall]
  rw [hgood, State.hUnit_settle]
  simp only [State.settle_frame]
  exact ⟨rfl, rfl⟩

theorem tiuSelfCheckBadCompletes : TiuSelfCheckBadCompletes := by
  intro t u m s hu hserves hdue hidle hlarge hlt
  refine completes_finish (f := fun s => s.tiuCheck u m true) rfl ?_
  have hst : (s.hUnit kindTiu u).st ≠ 1 := fun h => by simp [Unit_.serves, h] at hserves
  have hbad : (s.atInstant t).tiuCheck u m true = ((s.atInstant t).modUnit u (fun x => { x with locked := true })).detect kindTiu u := by
    have hserves' : ((s.atInstant t).hUnit kindTiu u).serves = true := hserves
    have hidle' : ((s.atInstant t).tiuOf u).arming = none := hidle
    have hst' : ((s.atInstant t).hUnit kindTiu u).st ≠ 1 := hst
    simp [State.tiuCheck, Nat.not_lt.mpr hu, hserves', hidle', show 2 < ((m : Int) - 16384).natAbs from hlarge, hst']
  rw [hbad, State.hUnit_settle]
  exact State.hUnit_detect (s := (s.atInstant t).modUnit u (fun x => { x with locked := true })) (by decide) hlt hserves hdue

theorem tiuSparedCompletes : TiuSparedCompletes := by
  intro t u j s hdue hserves hspare hidle hu hj
  refine completes_finish (f := fun s => s.tiuSpared u) rfl ?_
  have htaken : (s.atInstant t).tiuSpared u = ((s.atInstant t).spareTakes kindTiu u j).raiseNow 0x080B sevNotice (srcTiu u)
      (u8 u ++ u8 j ++ u8 (s.hUnit kindTiu u).spareCause) none := by
    have hdue' : ((s.atInstant t).hUnit kindTiu u).due.isSome = true := hdue
    have hserves' : ((s.atInstant t).hUnit kindTiu u).serves = true := hserves
    have hspare' : (s.atInstant t).spareFor kindTiu u = some j := hspare
    have hidle' : ((s.atInstant t).tiuOf u).arming = none := hidle
    simp [State.tiuSpared, State.tiuAbort, Unit_.wantsSpare, hdue', hserves', hspare', hidle']
    rfl
  rw [htaken]
  simp only [State.hUnit_settle, State.hUnit_raiseNow]
  exact State.spareTakes_tested (s := s.atInstant t) (by decide) hu hj (State.ne_of_spareFor hspare) hdue

theorem tiuResultCompletes : TiuResultCompletes := by
  intro t u start x stop a s harm hz hx hhid hfrom hwithin horder hlocked hlong hreport
  refine completes_finish (f := fun s => s.tiuResult u start stop) rfl ?_
  have hearly : ¬((!a.signed && decide (stop < x)) = true) := by rcases horder with h | h <;> simp [h]
  rw [State.tiuResult_hidden (s := s.atInstant t) harm hx hhid hfrom hwithin, if_neg hearly]
  obtain ⟨hfree, hreported, -⟩ := State.tiuMeasured_settled (s := s.atInstant t) hz (State.lt_of_arming (s := s) harm) hlocked hlong
    (State.room_le (room_of_canReport _ hreport) (by decide))
  exact ⟨hfree, hreported⟩

theorem tiuResultSeenCompletes : TiuResultSeenCompletes := by
  intro t u start x y a s harm hz hx hhid hseen hordered hfrom hwithin hy hlocked hlong hreport
  refine completes_finish (f := fun s => s.tiuResult u start x) rfl ?_
  rw [State.tiuResult_seen (s := s.atInstant t) harm hx hhid hseen hordered hfrom hwithin hy]
  exact State.tiuMeasured_settled (s := (s.atInstant t).countWrongOrder _) hz (State.lt_of_arming (s := s) harm) hlocked hlong
    (State.room_le (room_of_canReport _ hreport) (by decide))

theorem tiuWrongOrderCompletes : TiuWrongOrderCompletes := by
  intro t u start x stop a s harm hx hhid hfrom hwithin hordered hearly
  refine completes_finish (f := fun s => s.tiuResult u start stop) rfl ?_
  rw [State.tiuResult_hidden (s := s.atInstant t) harm hx hhid hfrom (by omega), if_pos (by simp [hordered, hearly]), State.tiuOf_settle]
  simp only [State.settle_frame]
  exact ⟨harm, rfl⟩

theorem State.tiuTimeout_over {s : State} {u : Nat} {a : Arming} (harm : (s.tiuOf u).arming = some a) (hz : a.zero = false)
    (hover : a.armedAt + a.timeout * ticksPerCell ≤ s.now) :
    s.tiuTimeout u = (s.modTiu (fun q => { q with timeouts := satAdd q.timeouts 1 })).tiuDone u a
      (resultWord 0 u (!(s.tiuOf u).locked) false true false) none := by
  simp [State.tiuTimeout, harm, hover, hz, b2n]

theorem tiuTimeoutCompletes : TiuTimeoutCompletes := by
  intro t u a s harm hz hover
  refine completes_finish (f := fun s => s.tiuTimeout u) rfl ?_
  rw [State.tiuTimeout_over (s := s.atInstant t) harm hz hover, State.tiuOf_settle]
  refine ⟨State.tiuDone_frees hz (State.lt_of_arming (s := s) harm), ?_⟩
  simp only [State.settle_frame, State.tiuDone_tiu hz]
  rfl

/-! ### `tiu.measure` (R308) -/

theorem tiuMeasure_pends {c : Cmd} {s : State} (hstart : tiuSrcOk s (rd c.arg 0 1) (rd c.arg 1 1) true = true)
    (hstop : tiuSrcOk s (rd c.arg 2 1) (rd c.arg 3 1) false = true) (hmode : rd c.arg 4 1 ≤ 1) (hmin : 1 ≤ rd c.arg 8 4)
    (hmax : rd c.arg 8 4 ≤ 2000000000) (hroom : s.armRefusal = none) (hfree : c.applyAt = 0#96 → s.freeUnit.isSome = true) :
    tiuMeasure c s = pendWith s c 0x0803 [0] none := by
  have hbusy : ¬((decide (c.applyAt = 0#96) && s.freeUnit.isNone) = true) := by
    simpa [← Option.isSome_iff_ne_none] using hfree
  unfold tiuMeasure
  simp only [hstart, hstop, hroom]
  rw [if_neg (by simp; omega), if_neg hbusy]

theorem tiuMeasureCompletes : TiuMeasureCompletes := by
  intro t c s ha hstart hstop hmode hmin hmax hroom hfree
  exact completes_pending _ t _ _ c s _ none rfl ha (tiuMeasure_pends hstart hstop hmode hmin hmax hroom hfree)

/-- An interval arming that is due is placed on the first free unit. -/
theorem State.armEffect_placed {s : State} {u : Nat} {q : Pend} (hq : s.pendOp 0x0803 = some q) (hdue : q.applyAt.getD q.accepted ≤ s.now)
    (hfree : s.freeUnit = some u) (hlimit : s.armings < s.armLimit) :
    s.armEffect.tiu = (s.modUnit u (fun x => { x with arming := some (s.readArming q (q.applyAt.getD q.accepted)) })).tiu ∧
      s.armEffect.pend = s.pend.eraseP (fun p => p.op == 0x0803) := by
  unfold State.armEffect
  simp only [hq, if_neg (Nat.not_lt.mpr hdue), hfree, hlimit, decide_true, State.applied_frame]
  exact ⟨rfl, rfl⟩

theorem State.freeUnit_lt {s : State} {u : Nat} (h : s.freeUnit = some u) : u < 5 :=
  List.mem_range.mp (List.mem_of_find?_eq_some h)

theorem tiuArmedCompletes : TiuArmedCompletes := by
  intro t u p s hp hdue hfree hlimit hlen
  refine completes_finish (f := State.armEffect) rfl ?_
  obtain ⟨htiu, hpend⟩ := State.armEffect_placed (s := s.atInstant t) hp hdue hfree hlimit
  have hu : u < (s.atInstant t).tiu.units.length := (State.freeUnit_lt hfree).trans_eq hlen.symm
  rw [State.tiuOf_settle, State.tiuOf_congr (congrArg TiuState.units htiu), State.tiuOf_modUnit _ hu]
  simp only [State.settle_frame, hpend]
  exact ⟨trivial, rfl⟩

/-! ### `tiu.launch_zero` (R296) and `tiu.status` (R297) -/

/-- The instant that an apply-at names rests on settings, the time base and the anchors of the grids (R458). -/
theorem Cmd.at_congr {s u : State} (c : Cmd) (hcfg : u.cfg = s.cfg) (htb : u.tb = s.tb)
    (hanchor : ∀ l, (u.gridOf l).anchor = (s.gridOf l).anchor) : c.at_ u = c.at_ s := by
  have hplan : u.plan? = s.plan? := funext fun l => by rw [State.plan?, hcfg, State.plan?]
  have hboundary : u.boundaryOf = s.boundaryOf := funext fun n => by simp only [State.boundaryOf, htb]
  have hlaunch : u.launchOfIndex = s.launchOfIndex := by
    funext l p b i
    have hwindow : u.secondWindow l p b = s.secondWindow l p b := by simp only [State.secondWindow, hanchor]
    have hfirst : u.firstCell = s.firstCell := by
      funext o b
      simp only [State.firstCell, State.countFrom, htb]
    unfold State.launchOfIndex
    rw [hwindow, hfirst]
  simp only [Cmd.at_, State.instantOf, hplan, hboundary, hlaunch]

/-- The search for a spot's instant does not read the mailboxes. -/
theorem State.spotSearch_modMb (s : State) (n : Nat) (f : Mailbox → Mailbox) (l : Nat) (p : Plan) (a : Occ) (blocks : List Block) (alone : Bool)
    (w hi k x : Nat) : (s.modMb n f).spotSearch l p a blocks alone w hi k x = s.spotSearch l p a blocks alone w hi k x := by
  induction k generalizing x with
  | zero => rfl
  | succ k ih =>
    unfold State.spotSearch
    simp only [ih]
    rfl

theorem State.spotInstant_modMb (s : State) (n : Nat) (f : Mailbox → Mailbox) (l : Nat) (p : Plan) (t : Nat) (at_ : Option Nat) (alone : Bool) :
    (s.modMb n f).spotInstant l p t at_ alone = s.spotInstant l p t at_ alone := by
  have hocc : (s.modMb n f).spotOcc l p t = s.spotOcc l p t := rfl
  have hblocks : (s.modMb n f).probeBlocks p.probe = s.probeBlocks p.probe := rfl
  have hslot : (s.modMb n f).slotCells p.probe (p.tone t).slotA = s.slotCells p.probe (p.tone t).slotA := rfl
  have hceil : (s.modMb n f).ceilCell = s.ceilCell := rfl
  have hgrid : (s.modMb n f).gridOf l = s.gridOf l := rfl
  simp only [State.spotInstant, State.spotSearch_modMb, hocc, hblocks, hslot, hceil, hgrid, State.modMb_now]

/-- A launch-zero measurement begins: its first shot is scheduled for an instant, and the comparator takes its threshold (R296). -/
def State.beginZero (s : State) (c : Cmd) (x : Nat) : State :=
  (s.modGrid (rd c.arg 0 1) (fun g => { g with spot := some (x, rd c.arg 1 1), spotAt := (c.at_ s, true) })).modTiu
    (fun u => { u with launchRun := some ⟨rd c.arg 0 1, rd c.arg 1 1, rd c.arg 2 1, rdS c.arg 8 4, rd c.arg 2 1, []⟩, thresh := rd c.arg 4 2 })

theorem Cmd.at_beginZero (s : State) (c c' : Cmd) (x : Nat) : c.at_ (s.beginZero c' x) = c.at_ s :=
  Cmd.at_congr c rfl rfl fun l => nth_eq_of_map (map_upd s.grid (rd c'.arg 0 1)
    (fun g => { g with spot := some (x, rd c'.arg 1 1), spotAt := (c'.at_ s, true) }) LineGrid.anchor fun _ => rfl) l default

/-- A launch-zero measurement joins the commands that wait, its first shot scheduled. -/
theorem tiuLaunchZero_pends {c : Cmd} {s : State} {q : Plan} (hline : s.badLine (rd c.arg 0 1) = false)
    (hshots : 1 ≤ rd c.arg 2 1 ∧ rd c.arg 2 1 ≤ 64) (hthresh : 10 ≤ rd c.arg 4 2 ∧ rd c.arg 4 2 ≤ 500 ∧ rd c.arg 4 2 % 10 = 0)
    (hboard : -2097152 ≤ rdS c.arg 8 4 ∧ rdS c.arg 8 4 ≤ 2097152) (hplan : s.plan? (rd c.arg 0 1) = some q) (htone : rd c.arg 1 1 < q.tones.length)
    (hidle : s.tiu.launchRun = none) (hpermit : s.emit.level = true) (hspot : (s.gridOf (rd c.arg 0 1)).spot = none) (hroom : s.armRefusal = none)
    {x : Nat} (hx : s.spotInstant (rd c.arg 0 1) q (rd c.arg 1 1) (c.at_ s) true = some x) :
    tiuLaunchZero c s = pendWith (s.beginZero c x) c 0x0804 [rd c.arg 0 1] none := by
  fun_cases tiuLaunchZero c s with
  | case1 _ _ _ _ _ _ hbad =>
    simp +zetaDelta [hline, hplan] at hbad
    omega
  | case2 _ _ _ _ _ _ _ hrun => simp [hidle] at hrun
  | case3 _ _ _ _ _ _ _ _ hnone => exact absurd (hplan.symm.trans hnone) (by simp)
  | case4 _ _ _ _ _ _ _ _ _ _ hdark => simp +zetaDelta [hpermit, hspot] at hdark
  | case5 _ _ _ _ _ _ _ _ _ _ _ _ hfull => simp [hroom] at hfull
  | case6 _ _ _ _ _ _ _ _ q' hq _ _ hnone =>
    obtain rfl : q = q' := Option.some.inj (hplan.symm.trans hq)
    exact absurd (hx.symm.trans hnone) (by simp)
  | case7 _ _ _ _ _ _ _ _ q' hq _ _ x' hx' =>
    obtain rfl : q = q' := Option.some.inj (hplan.symm.trans hq)
    obtain rfl : x = x' := Option.some.inj (hx.symm.trans hx')
    rfl

theorem tiuLaunchZeroCompletes : TiuLaunchZeroCompletes := by
  intro t q c s ha hline hshots hthresh hboard hplan htone hidle hpermit hspot hroom hfound
  obtain ⟨x, hx⟩ := Option.ne_none_iff_exists'.mp hfound
  have hx' : ((s.atInstant t).placed 0x0804 c).spotInstant (rd c.arg 0 1) q (rd c.arg 1 1) (c.at_ ((s.atInstant t).placed 0x0804 c)) true = some x :=
    (State.spotInstant_modMb ..).trans hx
  refine completes_of_handler _ t _ _ c s _ ⟨stPending, none, []⟩ _ rfl ha
    (tiuLaunchZero_pends (s := (s.atInstant t).placed 0x0804 c) hline hshots hthresh hboard hplan htone hidle hpermit hspot hroom hx') rfl fun eff => ?_
  simp only [State.awaits, State.settle_frame, State.answer_frame, State.presentNonce_frame, Cmd.at_beginZero]
  exact ⟨rfl, rfl, rfl⟩

theorem tiuStatusCompletes : TiuStatusCompletes := by
  intro t c s ha
  refine completes_okWith _ t _ _ c s _ _ _ rfl ha rfl ?_ fun eff => ?_
  · split <;> rfl
  · simp only [State.settle_frame, State.answer_frame, State.presentNonce_frame]
    exact ⟨fun h => by rw [if_pos h]; rfl, fun h => by rw [if_neg (by simp [h])]; rfl⟩

/-- Settles O40: each row is `finish` of an operation or of a handler; the lemma about the operation says what it leaves where the premises hold. -/
theorem intervalUnitsComplete : Obligations.IntervalUnitsComplete :=
  ⟨tiuSelfCheckGoodCompletes, tiuSelfCheckBadCompletes, tiuSparedCompletes, tiuResultCompletes, tiuResultSeenCompletes, tiuWrongOrderCompletes,
    tiuTimeoutCompletes, tiuMeasureCompletes, tiuArmedCompletes, tiuLaunchZeroCompletes, tiuStatusCompletes⟩

end Sys2Proof.Machine

/-! PROOFS of launch zero, the settings of the time base and the trail, and the frames a node sends. -/

namespace Sys2Proof.Machine

/-! ### The end of a launch-zero measurement (R296) -/

/-- No unit holds an arming for a shot of a launch-zero measurement. -/
def TiuState.NoShotArmed (q : TiuState) : Prop := ∀ v ∈ q.units, ∀ a, v.arming = some a → a.zero = false

/-- After its shots a measurement is over; a hit at least gives a launch zero. -/
theorem State.launchZeroDone_over {s : State} {r : LaunchZeroRun} {p : Pend} (hr : s.tiu.launchRun = some r) (hp : s.pendOp 0x0804 = some p)
    (hleft : r.left = 0) (hnone : s.tiu.NoShotArmed) :
    (s.launchZeroDone r.line).tiu.launchRun = none ∧ (s.launchZeroDone r.line).cfg.launchZero =
      if r.hits = [] then s.cfg.launchZero
      else s.cfg.launchZero.set r.line (rneDiv (r.hits.foldl (· + ·) 0 + r.boardLz * r.hits.length) r.hits.length) := by
  unfold State.launchZeroDone
  simp only [hr, hp]
  rw [if_neg]
  · by_cases hhits : r.hits = []
    all_goals
      simp only [hhits, List.isEmpty_iff, if_true, if_false, State.applied_frame, State.raiseLine_frame]
      exact ⟨rfl, rfl⟩
  · simp only [hleft, ne_eq, not_true_eq_false, decide_false, lt_irrefl, Bool.or_false, Bool.false_or, List.any_eq_true, not_exists, not_and]
    intro v hv
    split
    · simp [hnone v hv _ ‹_›]
    · exact Bool.false_ne_true

/-- The measurement that the row's premises name ends. -/
theorem launchZeroDone_completes {t : Nat} {r : LaunchZeroRun} {p : Pend} {s : State} {z : List Int} (hr : s.tiu.launchRun = some r)
    (hp : s.pendOp 0x0804 = some p) (hleft : r.left = 0) (hnone : s.tiu.NoShotArmed)
    (hz : z = if r.hits = [] then s.cfg.launchZero
      else s.cfg.launchZero.set r.line (rneDiv (r.hits.foldl (· + ·) 0 + r.boardLz * r.hits.length) r.hits.length)) :
    Completes (.launchZeroDone t r.line) s (fun u => u.tiu.launchRun = none ∧ u.cfg.launchZero = z) := by
  refine completes_finish (f := fun s => s.launchZeroDone r.line) rfl ?_
  simp only [State.settle_frame, hz]
  exact State.launchZeroDone_over (s := s.atInstant t) hr hp hleft hnone

theorem launchZeroDoneCompletes : LaunchZeroDoneCompletes := by
  intro t r p s hr hp hleft hnone hhits
  exact launchZeroDone_completes hr hp hleft (fun v hv a harm => by simpa [harm] using List.all_eq_true.mp hnone v hv) (by rw [if_neg hhits])

theorem launchZeroMissedCompletes : LaunchZeroMissedCompletes := by
  intro t r p s hr hp hleft hnone hhits
  exact launchZeroDone_completes hr hp hleft (fun v hv a harm => by simpa [harm] using List.all_eq_true.mp hnone v hv) (by rw [if_pos hhits])

/-! ### Settings in force at a second boundary, and status (R306, R307, R309) -/

/-- At its boundary `tb.config` changes the settings of the time base and no others, and waits no more. -/
theorem tbConfigTakesEffectCompletes : TbConfigTakesEffectCompletes := by
  intro t p s hp hdue
  refine completes_finish (f := State.tbConfigEffect) rfl ?_
  simp only [State.settle_frame]
  exact ⟨State.tbConfigEffect_due (p := .cfg) (s := s.atInstant t) hp hdue (by simp),
    State.tbConfigEffect_due (p := .pend) (s := s.atInstant t) hp hdue (by simp)⟩

theorem tbStatusCompletes : TbStatusCompletes := by
  intro t c s ha
  refine completes_okWith _ t _ _ c s _ _ _ rfl ha rfl ?_ fun eff => ?_
  · split <;> rfl
  · simp only [State.settle_frame, State.answer_frame, State.presentNonce_frame]
    split <;> rfl

theorem trailConfig_pends {c : Cmd} {s : State} (hnode : (readTrailCfg c.arg).nodeId ≤ 4095)
    (hasym : -512 ≤ (readTrailCfg c.arg).asym ∧ (readTrailCfg c.arg).asym ≤ 512)
    (hports : ¬((readTrailCfg c.arg).root = true ∧ (readTrailCfg c.arg).port 0 = true)) (hfree : s.pendOp 0x0806 = none)
    (hroot : (readTrailCfg c.arg).root = true → s.cfg.tb.source ≠ 4)
    (hchild : (readTrailCfg c.arg).root = false → (readTrailCfg c.arg).port 0 = true → s.cfg.tb.source = 4 ∨ s.pendTrailSource = true) :
    trailConfig c s = pendWith s c 0x0806 [0] none := by
  obtain ⟨hlow, hhigh⟩ := hasym
  simp only [not_and, Bool.not_eq_true] at hports
  unfold trailConfig
  dsimp only
  rw [if_neg, if_neg (by simp [hfree]), if_neg]
  · rcases hr : (readTrailCfg c.arg).root with _ | _
    · rcases hu : (readTrailCfg c.arg).port 0 with _ | _
      · simp
      · simpa [imp_iff_not_or] using hchild hr hu
    · simp [hroot hr]
  · simpa [Nat.not_lt.mpr hnode, Int.not_lt.mpr hlow, Int.not_lt.mpr hhigh] using hports

theorem trailConfigCompletes : TrailConfigCompletes := by
  intro t c s ha hnode hasym hports hfree hroot hchild
  exact completes_pending _ t _ _ c s _ none rfl ha (trailConfig_pends hnode hasym hports hfree hroot hchild)

/-- At its boundary `trail.config` changes the settings of the trail and no others, and waits no more. -/
theorem State.trailConfigEffect_due {s : State} {p : Pend} (hp : s.pendOp 0x0806 = some p)
    (hdue : s.boundaryAtOrAfter (p.applyAt.getD p.accepted) ≤ s.now) :
    s.trailConfigEffect.cfg = { s.cfg with trail := readTrailCfg p.data } ∧ s.trailConfigEffect.pend = s.pend.eraseP (fun p => p.op == 0x0806) := by
  unfold State.trailConfigEffect
  simp only [hp]
  rw [if_neg (Nat.not_lt.mpr hdue)]
  simp only [State.applied_frame]
  exact ⟨rfl, rfl⟩

theorem trailConfigTakesEffectCompletes : TrailConfigTakesEffectCompletes := by
  intro t p s hp hdue
  refine completes_finish (f := State.trailConfigEffect) rfl ?_
  simp only [State.settle_frame]
  exact State.trailConfigEffect_due (s := s.atInstant t) hp hdue

theorem trailStatusCompletes : TrailStatusCompletes := by
  intro t c s ha
  refine completes_okWith _ t _ _ c s _ _ _ rfl ha rfl ?_ fun eff => ?_
  · split <;> rfl
  · simp only [State.settle_frame, State.answer_frame, State.presentNonce_frame]
    split <;> rfl

/-! ### The frames of a second (R298 to R300) -/

/-- Frames sent one after another on the ports that a guard admits; neither guard nor frame hangs on what was sent before. -/
theorem State.foldl_emit1_out {guard : State → Nat → Bool} {frame : State → Nat → Out} (hguard : ∀ s o, guard (s.emit1 o) = guard s)
    (hframe : ∀ s o, frame (s.emit1 o) = frame s) (l : List Nat) (s : State) :
    (l.foldl (fun s p => if guard s p then s.emit1 (frame s p) else s) s).out = s.out ++ (l.filter (guard s)).map (frame s) := by
  induction l generalizing s with
  | nil => simp
  | cons p l ih =>
    rw [List.foldl_cons, ih]
    by_cases hp : guard s p = true
    · simp [hp, hguard, hframe]
    · simp [hp]

/-- Each port of the list that the guard admits has its frame. -/
theorem State.mem_out_foldl_emit1 {guard : State → Nat → Bool} {frame : State → Nat → Out} (hguard : ∀ s o, guard (s.emit1 o) = guard s)
    (hframe : ∀ s o, frame (s.emit1 o) = frame s) {l : List Nat} {p : Nat} (hp : p ∈ l) {s : State} (h : guard s p = true) :
    frame s p ∈ (l.foldl (fun s p => if guard s p then s.emit1 (frame s p) else s) s).out := by
  rw [State.foldl_emit1_out hguard hframe]
  exact List.mem_append_right _ (List.mem_map_of_mem (List.mem_filter.mpr ⟨hp, h⟩))

theorem syncTxCompletes : SyncTxCompletes := by
  intro t p s hboundary hp hport
  refine completes_finish (f := State.syncTx) rfl ?_
  simp only [State.settle_frame]
  rw [State.syncTx, if_pos hboundary]
  exact State.mem_out_foldl_emit1 (guard := State.mayForward) (frame := fun v p => .trailFrame p v.now (v.trailFrame 0x01 _)) (fun _ _ => rfl)
    (fun _ _ => rfl) (by simpa using hp) hport

theorem topoTxCompletes : TopoTxCompletes := by
  intro t s hup hcell
  refine completes_finish (f := State.topoTx) rfl ?_
  have hnow : (s.atInstant t).trailUp 0 && ((s.atInstant t).secondAt (s.atInstant t).now).2 == 100000000 * ticksPerCell := by
    rw [hup, hcell]
    rfl
  simp only [State.topoTx, if_pos hnow, State.settle_frame]
  rfl

theorem delayReqTxCompletes : DelayReqTxCompletes := by
  intro t s hup hcell
  refine completes_finish (f := State.delayReqTx) rfl ?_
  have hnow : (s.atInstant t).trailUp 0 && ((s.atInstant t).secondAt (s.atInstant t).now).2 == 250000000 * ticksPerCell := by
    rw [hup, hcell]
    rfl
  simp only [State.delayReqTx, if_pos hnow, State.settle_frame]
  exact ⟨rfl, rfl, rfl⟩

/-- A sound TOPO at a downward port is kept for that port. -/
theorem State.topoRx_topo {s : State} {rx : TrailRx} (hport : rx.port = 1 ∨ rx.port = 2) (hup : s.trailUp rx.port = true)
    (hok : frameOk rx.bytes = true) (htype : frameType rx.bytes = 5) :
    (s.topoRx rx).trail.topo = s.trail.topo.set (rx.port - 1) (some (frameNode rx.bytes, rd rx.bytes 3 2, rd rx.bytes 5 1)) := by
  have hup' : (s.frameIn rx.port).trailUp rx.port = true := hup
  unfold State.topoRx
  dsimp only
  rw [if_neg (by simp [hup']; omega), if_neg (by simp [hok, htype])]
  generalize (_ && _ : Bool) = conflict
  cases conflict with
  | false => rfl
  | true =>
    simp only [if_true, State.raiseNow_frame]
    rfl

theorem topoRxCompletes : TopoRxCompletes := by
  intro t rx s hport hup hok htype
  refine completes_finish (f := fun s => s.topoRx rx) rfl ?_
  simp only [State.settle_frame]
  exact State.topoRx_topo (s := s.atInstant t) hport hup hok htype

/-- Settles O41: each row is `finish` of an operation or of a handler; the lemma about the operation says what it leaves where the premises hold. -/
theorem trailFramesComplete : Obligations.TrailFramesComplete :=
  ⟨launchZeroDoneCompletes, launchZeroMissedCompletes, tbConfigTakesEffectCompletes, tbStatusCompletes, trailConfigCompletes,
    trailConfigTakesEffectCompletes, trailStatusCompletes, syncTxCompletes, topoTxCompletes, delayReqTxCompletes, topoRxCompletes⟩

end Sys2Proof.Machine

/-! PROOFS of the trail's delays, of SYNC, of broadcasts and of its links. -/

namespace Sys2Proof.Machine

/-! ### Stamps of frames (R291) -/

@[simp] theorem State.takeStamp_out (s : State) (x : Nat) : (s.takeStamp x).2.2.2.out = s.out := by
  unfold State.takeStamp
  split <;> rfl

/-- A stamp takes a time-interval unit and leaves the trail alone. -/
theorem State.takeStamp_trail (s : State) (x : Nat) : (s.takeStamp x).2.2.2.trail = s.trail := s.takeStamp_part (p := .trail) x (by simp)

/-! ### The hop exchange (R300) -/

theorem delayReqRxCompletes : DelayReqRxCompletes := by
  intro t rx s hport hup hok htype
  refine completes_finish (f := fun s => s.delayReqRx rx) rfl ?_
  have hup' : ((s.atInstant t).frameIn rx.port).trailUp rx.port = true := hup
  simp only [State.settle_frame, State.delayReqRx]
  rw [if_neg (by simp [hport, hup']), if_neg (by simp [hok, htype])]
  simp only [State.emit1_out, State.takeStamp_out]
  rfl

theorem delayRespRxCompletes : DelayRespRxCompletes := by
  intro t t1 rx s hport hup hok htype hopen hseq hunit
  refine completes_finish (f := fun s => s.delayRespRx rx) rfl ?_
  have hup' : ((s.atInstant t).frameIn 0).trailUp 0 = true := hup
  have hopen' : ((s.atInstant t).frameIn 0).trail.t1 = some t1 := hopen
  have hunit' : (((s.atInstant t).frameIn 0).takeStamp ((s.atInstant t).frameIn 0).now).2.2.1 = true := hunit
  have hseq' : rd rx.bytes 3 1 = ((s.atInstant t).frameIn 0).trail.reqSeq := hseq
  simp only [State.settle_frame, State.delayRespRx, hport]
  rw [if_neg (by simp [hup']), if_neg (by simp [hok, htype])]
  simp only [hopen']
  rw [if_neg (by simp [hseq', hunit'])]
  simp only [State.modTrail_trail, State.takeStamp_trail]
  exact ⟨trivial, rfl⟩

/-! ### The loss of the trail (R302) -/

theorem State.enterHoldover_isSome (s : State) (cause : Nat) : (s.enterHoldover cause).tb.holdover.isSome = true := by
  unfold State.enterHoldover
  split
  · simp [*]
  · simp only [State.raiseNow_frame]
    rfl

theorem State.enterHoldover_trailLocked (s : State) (cause : Nat) : (s.enterHoldover cause).tb.trailLocked = s.tb.trailLocked := by
  unfold State.enterHoldover
  split
  · rfl
  · simp only [State.raiseNow_frame]
    rfl

theorem trailSourceLostCompletes : TrailSourceLostCompletes := by
  intro t s hsource hlocked hmissing
  refine completes_finish (f := State.trailLost) rfl ?_
  have hsource' : (s.atInstant t).cfg.tb.source = 4 := hsource
  have hlocked' : (s.atInstant t).tb.trailLocked = true := hlocked
  have hmissing' : 3 ≤ (s.atInstant t).trail.syncMissRun := hmissing
  simp only [State.settle_frame, State.trailLost]
  rw [if_pos (by simp only [hsource', hlocked', hmissing', decide_true, Bool.or_true, Bool.and_true]), State.enterHoldover_trailLocked]
  exact ⟨rfl, State.enterHoldover_isSome _ _⟩

/-! ### SYNC (R298, R300, R302) -/

/-- The trail after a sound SYNC of a parent that is not too deep, the offset apart; `missed` is what SYNC_MISSED then stands at. -/
def Trail.synced (r : Trail) (rx : TrailRx) (now missed : Nat) : Trail :=
  { r with
    syncMissed := missed, parent := some (frameNode rx.bytes), parentDepth := some (frameDepth rx.bytes), depth := some (frameDepth rx.bytes + 1)
    upHoldover := bit (rd rx.bytes 8 1) 0, upNotWarm := bit (rd rx.bytes 8 1) 1, syncMissRun := 0, lastSync := some now, tooDeep := false }

/-- Whether a unit took the stamp and whether the node is disciplined by the trail bear on the offset alone. -/
theorem State.syncRx_trail {s : State} {rx : TrailRx} (hport : rx.port = 0) (hup : s.trailUp 0 = true) (hok : frameOk rx.bytes = true)
    (htype : frameType rx.bytes = 1) (hdepth : frameDepth rx.bytes < 12) :
    ∃ missed theta, (s.syncRx rx).trail = { s.trail.synced rx s.now missed with theta := theta } := by
  have hup' : (s.frameIn 0).trailUp 0 = true := hup
  unfold State.syncRx
  simp only [hport]
  rw [if_neg (by simp [hup']), if_neg (by simp [hok, htype])]
  simp only [Nat.not_le.mpr hdepth, decide_false, Bool.false_and, Bool.or_false, Bool.false_eq_true, if_false]
  generalize hv : State.modTrail _ _ = v
  have hread : v.trail = s.trail.synced rx s.now v.trail.syncMissed := by
    subst hv
    rw [State.modTrail_trail, State.takeStamp_trail]
    rfl
  split
  · exact ⟨v.trail.syncMissed, v.trail.theta, by rw [hread]; rfl⟩
  · generalize State.offsetOf _ _ = theta
    refine ⟨v.trail.syncMissed, theta, ?_⟩
    have htheta : ({ v.trail with theta := theta } : Trail) = (v.modTrail (fun r => { r with theta := theta })).part .trail := rfl
    rw [hread] at htheta
    refine Eq.trans (b := State.part _ .trail) rfl (Eq.trans ?_ htheta.symm)
    simp [State.part_ite]

theorem syncRxCompletes : SyncRxCompletes := by
  intro t rx s hport hup hok htype hdepth
  refine completes_finish (f := fun s => s.syncRx rx) rfl ?_
  obtain ⟨missed, theta, htrail⟩ := State.syncRx_trail (s := s.atInstant t) hport hup hok htype hdepth
  simp only [State.settle_frame, htrail]
  exact ⟨rfl, rfl, rfl, rfl, rfl⟩

theorem syncRxBadCompletes : SyncRxBadCompletes := by
  intro t rx s hport hup hbad
  refine completes_finish (f := fun s => s.syncRx rx) rfl ?_
  have hup' : ((s.atInstant t).frameIn 0).trailUp 0 = true := hup
  simp only [State.settle_frame, State.syncRx]
  rw [if_neg (by simp [hport, hup']), if_pos (by simp [hbad])]
  rfl

/-! ### Broadcasts (R304) -/

/-- The first waiting broadcast of a condition leaves on a port that forwards. -/
theorem State.bcastOriginate_sends {s : State} {cond p : Nat} {e : Nat × BitVec 96} {d : CondDef}
    (he : s.trig.bcast.find? (fun e => e.1 == cond) = some e) (hd : s.condDef? cond = some d) (hp : p ≤ 2) (hport : s.mayForward p = true) :
    (s.bcastOriginate cond).trig.bcast = s.trig.bcast.erase e ∧ (s.bcastOriginate cond).trail.bcastTx = satAdd s.trail.bcastTx 1 ∧
      Out.trailFrame p (s.frameStart p s.now) (s.trailFrame 0x04 (u8 (if bit d.actions 2 then 1 else 0) ++ u8 cond ++ stampBytes e.2)) ∈
        (s.bcastOriginate cond).out := by
  have hmem : p ∈ [0, 1, 2].filter s.mayForward := List.mem_filter.mpr ⟨by simp; omega, hport⟩
  have hsame : ∀ f, (s.modTrig f).mayForward = s.mayForward := fun _ => rfl
  have hports : ([0, 1, 2].filter s.mayForward).isEmpty = false := List.isEmpty_eq_false_iff.mpr (List.ne_nil_of_mem hmem)
  unfold State.bcastOriginate
  simp only [he, hd, hsame]
  rw [if_neg (ne_true_of_eq_false hports)]
  refine ⟨foldl_keeps (fun s : State => s.trig.bcast) ?_ _ _, foldl_keeps (fun s : State => s.trail.bcastTx) ?_ _ _, ?_⟩
  · exact fun _ _ => rfl
  · exact fun _ _ => rfl
  · exact State.mem_out_foldl_emit1 (guard := fun _ _ => true) (frame := fun v p => .trailFrame p (v.frameStart p v.now) _) (fun _ _ => rfl)
      (fun _ _ => rfl) hmem rfl

theorem bcastOriginateCompletes : BcastOriginateCompletes := by
  intro t cond p e d s he hd hp hport
  refine completes_finish (f := fun s => s.bcastOriginate cond) rfl ?_
  simp only [State.settle_frame]
  exact State.bcastOriginate_sends (s := s.atInstant t) he hd hp hport

/-! ### Links (R299) -/

theorem trailLinkChangeCompletes : TrailLinkChangeCompletes := by
  intro t p up s hp hport hchange
  refine completes_finish (f := fun s => s.trailLink p up) rfl ?_
  simp only [State.settle_frame, State.trailLink]
  rw [if_neg (by simp [Nat.not_lt.mpr hp, hport, hchange])]
  simp only [State.raiseNow_frame]
  rfl

/-- Settles O42: each row is `finish` of an operation; the lemma about the operation says what it leaves where the premises hold. -/
theorem trailDelaysComplete : Obligations.TrailDelaysComplete :=
  ⟨delayReqRxCompletes, delayRespRxCompletes, trailSourceLostCompletes, syncRxCompletes, syncRxBadCompletes, bcastOriginateCompletes,
    trailLinkChangeCompletes⟩

end Sys2Proof.Machine

/-! PROOFS of temperatures, zones and the panel: what each row leaves as it was. -/

namespace Sys2Proof.Machine

section
variable {p : StatePart}

@[simp] theorem State.modPanel_part (s : State) (f : Panel → Panel) (h : p ≠ .panel) : (s.modPanel f).part p = s.part p := by
  cases p with
  | panel => exact absurd rfl h
  | _ => rfl

/-! ### Taken sheets and intervals (R314 to R320) -/

@[simp] theorem State.thermDiscard_part (s : State) (k l n : Nat) (h : p ≠ .therm) : (s.thermDiscard k l n).part p = s.part p := by
  simp [State.thermDiscard, h]

@[simp] theorem State.thermTake_part (s : State) (k l : Nat) (g : ThermCfg) (e : ThermSheet) (as st : List Int) (back : Option (List Int × List Int))
    (h : p ≠ .therm) : (s.thermTake k l g e as st back).part p = s.part p := by
  simp [State.thermTake, h]

@[simp] theorem State.thermSheet_part (s : State) (l : Nat) (as st : List Int) (background : Bool) (h : p ≠ .therm) :
    (s.thermSheet l as st background).part p = s.part p := by
  unfold State.thermSheet
  dsimp only
  (repeat' split) <;> simp [h]

@[simp] theorem State.formTrace_part (s : State) (k l : Nat) (g : ThermCfg) (h : p ∉ [.freeUse, .streams, .therm, .zones]) :
    (s.formTrace k l g).part p = s.part p := by
  simp at h
  unfold State.formTrace
  dsimp only
  split <;> simp [h]

@[simp] theorem State.intervalOver_part (s : State) (k : Nat) (stay : Bool) (h : p ≠ .therm) : (s.intervalOver k stay).part p = s.part p := by
  simp [State.intervalOver, h]

@[simp] theorem State.routeDone_part (s : State) (k : Nat) (h : p ≠ .pend) : (s.routeDone k).part p = s.part p := by
  unfold State.routeDone
  split <;> simp [h]

@[simp] theorem State.thermClose_part (s : State) (l : Nat) (h : p ∉ [.freeUse, .pend, .streams, .therm, .zones]) :
    (s.thermClose l).part p = s.part p := by
  simp at h
  unfold State.thermClose
  split <;> simp [h]

/-! ### Switches, spares and settings of the slices (R317, R318, R326, R341, R342) -/

@[simp] theorem State.wakeSlice_part (s : State) (k : Nat) (h : p ≠ .therm) : (s.wakeSlice k).part p = s.part p := by
  simp [State.wakeSlice, h]

@[simp] theorem State.switchTo_part (s : State) (k l : Nat) (h : p ≠ .therm) : (s.switchTo k l).part p = s.part p := by
  simp [State.switchTo, h]

@[simp] theorem State.thermSwitch_part (s : State) (k : Nat) (refError : Bool) (h : p ∉ [.health, .therm]) :
    (s.thermSwitch k refError).part p = s.part p := by
  simp at h
  unfold State.thermSwitch
  dsimp only
  split <;> simp [h]

@[simp] theorem State.thermSettled_part (s : State) (k : Nat) (h : p ≠ .therm) : (s.thermSettled k).part p = s.part p := by
  simp [State.thermSettled, h]

@[simp] theorem State.thermSpared_part (s : State) (n : Nat) (h : p ∉ [.streams, .health, .therm]) : (s.thermSpared n).part p = s.part p := by
  simp at h
  unfold State.thermSpared
  dsimp only
  (repeat' split) <;> simp [h]

@[simp] theorem thermConfig_part (c : Cmd) (s : State) (h : p ≠ .pend) : (thermConfig c s).2.part p = s.part p := by
  simp [thermConfig, h]

@[simp] theorem State.thermCfgEffect_part (s : State) (l : Nat) (h : p ∉ [.cfg, .pend, .therm]) : (s.thermCfgEffect l).part p = s.part p := by
  simp at h
  unfold State.thermCfgEffect
  dsimp only
  (repeat' split) <;> simp [h]

@[simp] theorem thermRoute_part (c : Cmd) (s : State) (h : p ∉ [.cfg, .pend, .streams, .therm]) : (thermRoute c s).2.part p = s.part p := by
  simp at h
  simp [thermRoute, foldl_part, h]

@[simp] theorem thermStatus_part (c : Cmd) (s : State) (h : p ∉ [.health, .therm]) : (thermStatus c s).2.part p = s.part p := by
  simp at h
  simp [thermStatus, h]

/-! ### Reference sensors -/

@[simp] theorem State.putRef_part (s : State) (inst channel kind flags : Nat) (code : Int) (word : BitVec 32) (res : Nat)
    (h : p ∉ [.streams, .health, .dram, .mem, .therm]) : (s.putRef inst channel kind flags code word res).part p = s.part p := by
  simp at h
  simp [State.putRef, h]

@[simp] theorem State.startConv_part (s : State) (n x : Nat) (urgent : Bool) (h : p ≠ .therm) : (s.startConv n x urgent).part p = s.part p := by
  simp [State.startConv, h]

@[simp] theorem State.nextConv_part (s : State) (x : Nat) (h : p ∉ [.pend, .therm]) : (s.nextConv x).part p = s.part p := by
  simp at h
  unfold State.nextConv
  (repeat' split) <;> simp [h]

@[simp] theorem State.leadCheck_part (s : State) (check cmMv : Nat) (h : p ≠ .therm) : (s.leadCheck check cmMv).part p = s.part p := by
  unfold State.leadCheck
  split <;> simp [h]

@[simp] theorem State.refLead_part (s : State) (n check cmMv : Nat) (h : p ≠ .therm) : (s.refLead n check cmMv).part p = s.part p := by
  unfold State.refLead
  split <;> simp [h]

@[simp] theorem State.putOutputs_part (s : State) (v : RefConv) (x flags : Nat) (l : List (Int × Bool))
    (h : p ∉ [.streams, .health, .dram, .mem, .therm]) : (s.putOutputs v x flags l).part p = s.part p := by
  simp at h
  simp [State.putOutputs, foldl_part, h]

@[simp] theorem State.convDone_part (s : State) (w : RefConversion) (h : p ∉ [.freeUse, .pend, .streams, .health, .dram, .mem, .therm]) :
    (s.convDone w).part p = s.part p := by
  simp at h
  unfold State.convDone
  dsimp only
  split
  · rfl
  · generalize (State.refChan _ _).faultSince = fault
    cases fault <;> simp [h]

@[simp] theorem State.sdmWithdraw_part (s : State) (h : p ∉ [.health, .therm]) : s.sdmWithdraw.part p = s.part p := by
  simp at h
  unfold State.sdmWithdraw
  dsimp only
  split <;> simp [h]

@[simp] theorem State.sdmCheck_part (s : State) (refError : Bool) (h : p ∉ [.health, .therm]) : (s.sdmCheck refError).part p = s.part p := by
  simp at h
  simp [State.sdmCheck, h]

@[simp] theorem State.scanEffect_part (s : State) (h : p ∉ [.cfg, .pend]) : s.scanEffect.part p = s.part p := by
  simp at h
  unfold State.scanEffect
  split <;> simp [h]

@[simp] theorem State.scanStart_part (s : State) (refError : Bool) (h : p ∉ [.cfg, .pend, .health, .therm]) :
    (s.scanStart refError).part p = s.part p := by
  simp at h
  simp [State.scanStart, h]

@[simp] theorem refConfig_part (c : Cmd) (s : State) (h : p ≠ .cfg) : (refConfig c s).2.part p = s.part p := by
  simp [refConfig, h]

@[simp] theorem refScan_part (c : Cmd) (s : State) (h : p ≠ .pend) : (refScan c s).2.part p = s.part p := by
  simp [refScan, h]

@[simp] theorem refUrgent_part (c : Cmd) (s : State) (h : p ∉ [.pend, .therm]) : (refUrgent c s).2.part p = s.part p := by
  simp at h
  simp [refUrgent, h]

@[simp] theorem refStatus_part (c : Cmd) (s : State) (h : p ∉ [.health, .therm]) : (refStatus c s).2.part p = s.part p := by
  simp at h
  simp [refStatus, h]

/-! ### Zones and the panel -/

@[simp] theorem State.zoneEvaluate_part (s : State) (n : Nat) (src : ZoneSource) (h : p ≠ .zones) : (s.zoneEvaluate n src).part p = s.part p := by
  unfold State.zoneEvaluate
  split <;> simp [h]

@[simp] theorem State.zoneHoldEnd_part (s : State) (n k : Nat) (h : p ≠ .zones) : (s.zoneHoldEnd n k).part p = s.part p := by
  unfold State.zoneHoldEnd
  split <;> simp [h]

@[simp] theorem State.vrefMeasure_part (s : State) (mv : Nat) (h : p ≠ .panel) : (s.vrefMeasure mv).part p = s.part p := by
  simp [State.vrefMeasure, h]

@[simp] theorem zoneDefine_part (c : Cmd) (s : State) (h : p ∉ [.cfg, .zones]) : (zoneDefine c s).2.part p = s.part p := by
  simp at h
  simp [zoneDefine, h]

@[simp] theorem zoneAck_part (c : Cmd) (s : State) (h : p ≠ .zones) : (zoneAck c s).2.part p = s.part p := by
  unfold zoneAck
  dsimp only
  split
  · simp
  · rw [okay_part]
    refine foldl_part _ (fun s n => ?_) _ _
    split <;> simp [h]

@[simp] theorem zoneStatus_part (c : Cmd) (s : State) (h : p ∉ [.health, .zones]) : (zoneStatus c s).2.part p = s.part p := by
  simp at h
  simp [zoneStatus, h]

@[simp] theorem panelPins_part (c : Cmd) (s : State) (h : p ≠ .cfg) : (panelPins c s).2.part p = s.part p := by
  simp [panelPins, h]

@[simp] theorem panelZout_part (c : Cmd) (s : State) (h : p ≠ .cfg) : (panelZout c s).2.part p = s.part p := by
  simp [panelZout, h]

@[simp] theorem panelStatus_part (c : Cmd) (s : State) (h : p ∉ [.health, .panel]) : (panelStatus c s).2.part p = s.part p := by
  simp at h
  simp [panelStatus, h]

end

/-! ### The rows -/

/-- Settles O23: as for O19, a row is `finish` of one operation, whose `_part` lemma names the components it may write. -/
theorem thermalAndZoneFrames : Obligations.ThermalAndZoneFrames := by
  intro i s u hf hx p hp
  rw [State.keeps_iff]
  cases i with
  | thermConfig | thermRoute | thermStatus | refConfig | refScan | refUrgent | refStatus | zoneDefine | zoneAck | zoneStatus | panelPins | panelZout
  | panelStatus =>
    unfold exec at hx
    simp only [writesOf, List.mem_cons, List.not_mem_nil, or_false, not_or] at hp
    exact part_of_hostCommand hx (by simp [hp]) fun c s => by simp [hp]
  | thermalSheetTaken | thermalIntervalClose | thermalSwitch | thermalSwitchSettled | thermSpared | thermConfigTakesEffect | refScanStart
  | refConversionDone | refLead | zoneEvaluation | zoneHoldEnd | zoneFaultTimer | vrefZMeasure =>
    unfold exec at hx
    simp only [writesOf, List.mem_cons, List.not_mem_nil, or_false, not_or] at hp
    exact part_of_finish hx fun s => by simp [hp]
  | _ => cases hf

end Sys2Proof.Machine

/-! PROOFS of the thermal slices and the reference sensors: a pair launched before BACKGROUND is cleared, and a pending `therm.config` that names a
channel. -/

namespace Sys2Proof.Machine

/-! ### A pair (R314, R341) -/

/-- A thermal sheet launched as one of a pair is not taken yet: it is held until its background sheet is complete. -/
theorem State.thermSheet_holds_pair {s : State} {l k : Nat} {as st : List Int} {g : ThermCfg} {e : ThermSheet} {rest : List ThermSheet}
    (hcfg : s.thermCfg? l = some g) (hslice : s.sliceAt l = some k) (hon : s.thermOn = true) (hfull : (s.sliceOf k).iv.full g = false)
    (hleave : (s.sliceOf k).leave = false) (hcand : (s.sliceOf k).cand = e :: rest) (hheld : (s.sliceOf k).held = none)
    (hclose : (s.sliceOf k).closeAt = none) (hdue : e.tick + g.endCell * ticksPerCell ≤ s.now) (hdark : e.dark = false) (hpair : e.pair = true) :
    s.thermSheet l as st false = (s.modSlice k (fun c => { c with cand := rest })).modSlice k (fun c => { c with held := some (e, as, st) }) := by
  simp only [State.thermSheet, hcfg, hslice, hon, hfull, hleave, hcand, hheld, hclose, hdark, hpair, Nat.not_lt.mpr hdue]
  rfl

/-- The payload of a `therm.config` of line 0 without BACKGROUND: one bin of two cells, a dark window after it, intervals of one sheet. -/
def unpairedConfig : List Byte :=
  zeros 4 ++ u32 0 ++ u32 1 ++ u16 2 ++ u16 64 ++ u32 2 ++ u32 1 ++ u32 0 ++ u16 1 ++ u16 1 ++ u32 0x43FA0000 ++ u32 0 ++ u32 0

/-- A thermal launch of line 0 at instant 0, in every second shot. -/
def thermalLaunch : Launch :=
  ⟨0, 0, 0, .thermal, 0, false, false, 0, { onePlan with thermMode := 1, thermN := 2 }, State.reset.lineCfg 0, false, false, false, [], [], 0⟩

/-- Slice 0 is connected to line 0, whose configuration has BACKGROUND, and the `therm.config` that clears it waits for no interval. -/
def unpairingDue : State :=
  let paired := { readTherm unpairedConfig with background := true }
  { (State.reset.modCfg (fun r => { r with therm := r.therm.set 0 (some paired) })).modSlice 0 (fun c => { c with line := some 0 }) with
    pend := [⟨0x0901, 0, 1, 0, none, none, [0], unpairedConfig⟩] }

/-- The slice sees the launch, and at the same instant the new configuration takes effect. -/
def unpairedAfterLaunch : State := (unpairingDue.thermSee 0 thermalLaunch).thermCfgEffect 0

/-- The sheet that the slice then takes first, launched as one of a pair. -/
def pairedSheet : ThermSheet := ⟨0, 0, 0, false, true, 50000 * ticksPerCell⟩

/-- Refutes O43: `ThermalSheetTakenCompletes` goes by the configuration in force, the device by the one under which the sheet was launched. A sheet
launched with BACKGROUND at the instant at which BACKGROUND is cleared is half of a pair (R314): the device holds it for its background sheet, and does
not take it alone. -/
theorem not_thermalComplete : ¬ Obligations.ThermalComplete := by
  rintro ⟨htaken, -⟩
  have hcfg : unpairedAfterLaunch.thermCfg? 0 = some (readTherm unpairedConfig) := by decide
  have hslice : unpairedAfterLaunch.sliceAt 0 = some 0 := by decide
  have hleave : (unpairedAfterLaunch.sliceOf 0).leave = false := by decide
  have hcand : (unpairedAfterLaunch.sliceOf 0).cand = [pairedSheet] := by decide
  have hheld : (unpairedAfterLaunch.sliceOf 0).held = none := by decide
  have hclose : (unpairedAfterLaunch.sliceOf 0).closeAt = none := by decide
  have hdue : pairedSheet.tick + (readTherm unpairedConfig).endCell * ticksPerCell ≤ max unpairedAfterLaunch.now ticksPerSecond := by decide
  obtain ⟨u, hu, hslices, -⟩ := htaken ticksPerSecond 0 0 [] [] _ _ _ unpairedAfterLaunch hcfg hslice (by decide) hleave (by decide) hcand hheld hclose
    (by decide) rfl (by decide) hdue
  obtain rfl : ((unpairedAfterLaunch.atInstant ticksPerSecond).thermSheet 0 [] [] false).settle = u := Host.Outcome.next.inj hu
  rw [State.thermSheet_holds_pair (s := unpairedAfterLaunch.atInstant ticksPerSecond) hcfg hslice (by decide) (by decide) hleave hcand hheld hclose
    hdue rfl rfl] at hslices
  simp only [State.settle_frame] at hslices
  exact absurd hslices (by decide)

/-! ### A channel that a pending `therm.config` names (R343, R459) -/

/-- A mailbox holds one answer: two claims about its status agree. -/
theorem State.answered_status_unique {u : State} {c : Cmd} {st st' : Nat} {b b' : List Byte} (h : u.answered c st b) (h' : u.answered c st' b') :
    u16 st = u16 st' := by
  obtain ⟨⟨eff, he⟩, -⟩ := h
  obtain ⟨⟨eff', he'⟩, -⟩ := h'
  have hstatus : ∀ (r : Resp) (x : BitVec 96), ((respBytes c.seq r x).drop 2).take 2 = u16 r.status := fun _ _ => rfl
  exact (hstatus _ eff).symm.trans ((congrArg (fun l => (l.drop 2).take 2) (he.symm.trans he')).trans (hstatus _ eff'))

/-- A pending `therm.config` that names a channel keeps it from being set to TYPE 0. -/
theorem refConfig_inUse {c : Cmd} {s : State} {p : Pend} (hn : rd c.arg 0 1 ≤ 7) (hok : (readRefCh c.arg).ok = true) (htype : (readRefCh c.arg).type = 0)
    (hp : p ∈ s.pend) (hop : p.op = 0x0901) (hset : bit (rd p.data 1 1) 3 = false) (hsensor : rd p.data 3 1 = rd c.arg 0 1) :
    refConfig c s = reject s stInUse := by
  have hnames : s.pend.any (fun p => p.op == 0x0901 && !bit (rd p.data 1 1) 3 && rd p.data 3 1 == rd c.arg 0 1) = true :=
    List.any_eq_true.mpr ⟨p, hp, by simp [hop, hset, hsensor]⟩
  unfold refConfig
  dsimp only
  rw [if_neg (by simp [hok, Nat.not_lt.mpr hn]), if_pos (by simp [htype, hnames])]

/-- A part in operation, of which a `therm.config` of line 0 waits whose REF_SENSOR is channel 0. -/
def sensorPending : State :=
  { State.reset with
    sys := { State.reset.sys with bootState := 4 }
    mbs := State.reset.mbs.map (fun m => { m with st := 0 })
    pwr := ⟨0, none, true, false⟩
    pend := [⟨0x0901, 0, 1, 0, none, none, [0], unpairedConfig⟩] }

/-- `ref.config` of channel 0 with TYPE 0. -/
def switchOff : Cmd :=
  ⟨0, none, 0, 2, 32, 0#96, 0, 0, zeros 6 ++ u8 5 ++ u8 1 ++ u32 1000 ++ zeros 12 ++ u16 50 ++ u16 1450 ++ zeros 4, default⟩

/-- Refutes O44: `RefConfigCompletes` asks of the scans and of the configurations in force that they leave the channel alone, but a command is validated
against pending ones too (R459): while a `therm.config` waits whose REF_SENSOR is channel 0, setting TYPE 0 on it is rejected with ST_IN_USE (R343). -/
theorem not_referenceSensorsComplete : ¬ Obligations.ReferenceSensorsComplete := by
  rintro ⟨-, -, -, hconfig, -⟩
  have hadmits : (sensorPending.atInstant 0).admits 0x0904 switchOff = true := by decide
  obtain ⟨u, hu, hok, -⟩ := hconfig 0 switchOff sensorPending hadmits (by decide) (by decide) (by decide) (by decide)
  have hrejects : refConfig switchOff ((sensorPending.atInstant 0).placed 0x0904 switchOff) =
      reject ((sensorPending.atInstant 0).placed 0x0904 switchOff) stInUse :=
    refConfig_inUse (by decide) (by decide) (by decide) (List.mem_singleton_self _) rfl (by decide) (by decide)
  obtain ⟨v, hv, hinUse, -⟩ := completes_of_handler (.refConfig 0 switchOff) 0 0x0904 refConfig switchOff sensorPending _ _ (fun _ => True) rfl hadmits
    hrejects rfl (fun _ => trivial)
  obtain rfl : u = v := Host.Outcome.next.inj (hu.symm.trans hv)
  exact absurd (State.answered_status_unique hok hinUse) (by decide)

end Sys2Proof.Machine

/-! PROOFS of zones and the panel: the pins follow the state, and each row completes with its effect. -/

namespace Sys2Proof.Machine

/-! ### What settling does to pins, SMB_ALERT_N and zones (R353, R359, R360, R563) -/

/-- SMB_ALERT_N under its condition changes no pin. -/
theorem State.settleAlert_pinsFollow {s : State} (h : s.pinsFollow) : s.settleAlert.pinsFollow := h

theorem State.settlePins_pinsFollow (s : State) : s.settlePins.pinsFollow := rfl

/-- The pins, the sensors and so the condition of SMB_ALERT_N stay as SMB_ALERT_N is brought under it. -/
theorem State.settleAlert_alertNow (s : State) : s.settleAlert.alertNow = s.alertNow := rfl

theorem State.settleAlert_alertCond (s : State) : s.settleAlert.health.alertCond = s.alertNow := rfl

theorem State.alertNow_of_settleAlert {s : State} (h : s.settleAlert.health.smbAlert = true) : s.alertNow = true :=
  (Bool.and_eq_true_iff.mp (show (s.alertNow && (s.health.smbAlert || !s.health.alertCond)) = true from h)).1

theorem State.settle_pinsFollow (s : State) : s.settle.pinsFollow := State.settleAlert_pinsFollow (State.settlePins_pinsFollow _)

/-- Settles O13: every state a command answers has been settled, which ends with the pins and then SMB_ALERT_N. -/
theorem pinsFollowTheState : Obligations.PinsFollowTheState := by
  intro i s u h
  obtain ⟨v, rfl⟩ := exec_next_settled h
  exact ⟨v.settle_pinsFollow, fun ha => (State.settleAlert_alertCond _).trans (State.alertNow_of_settleAlert ha),
    fun ha => (State.settleAlert_alertNow _).trans (State.alertNow_of_settleAlert ha)⟩

/-- Whether zones are evaluated is read of power, boot, the CPC and the lifecycle alone. -/
theorem State.zonesOn_congr {s u : State} (hp : u.pwr = s.pwr) (hs : u.sys = s.sys) (hd : u.dbg = s.dbg) (hk : u.sec = s.sec) :
    u.zonesOn = s.zonesOn := by
  simp only [State.zonesOn, hp, hs, hd, hk]

/-- Zones that are evaluated stay as they are. -/
theorem State.settleZones_zones_of_on {s : State} (h : s.zonesOn = true) : s.settleZones.zones = s.zones := by
  simp only [State.settleZones, h, if_true]
  split <;> rfl

theorem State.settle_zones_of_on {s : State} (h : s.zonesOn = true) : s.settle.zones = s.zones := by
  have hon : s.reportLost.reportDropped.settleFlags.settleEmission.zonesOn = true :=
    (State.zonesOn_congr (by simp) (by simp) (by simp) (by simp)).trans h
  simp [State.settle, State.settleZones_zones_of_on hon]

theorem State.zoneOf_settle_of_on {s : State} (h : s.zonesOn = true) (n : Nat) : s.settle.zoneOf n = s.zoneOf n := by
  rw [State.zoneOf, State.settle_zones_of_on h, State.zoneOf]

/-- What stopping a zone's evaluation leaves is left by settling. -/
theorem State.muted_zoneOf_settle (s : State) (n : Nat) : (s.settle.zoneOf n).muted = (s.zoneOf n).muted := by
  have hz : mutedZones s.settle.zones = mutedZones s.zones := by simp only [State.settle_frame]
  exact nth_eq_of_map hz n default

theorem State.zoneOf_congr {s u : State} (h : u.zones = s.zones) (n : Nat) : u.zoneOf n = s.zoneOf n := by
  rw [State.zoneOf, h, State.zoneOf]

/-- `State.muted_zoneOf_settle` for a state whose command has been answered. -/
theorem State.muted_zoneOf_answered (s : State) (op : Nat) (c : Cmd) (r : Resp) (eff : BitVec 96) (n : Nat) :
    (((s.presentNonce op c).answer c r eff).settle.zoneOf n).muted = (s.zoneOf n).muted :=
  (State.muted_zoneOf_settle _ n).trans (congrArg ZoneRun.muted (State.zoneOf_congr (by simp) n))

theorem State.rules_answered (s : State) (op : Nat) (c : Cmd) (r : Resp) (eff : BitVec 96) (n : Nat) :
    (((s.presentNonce op c).answer c r eff).settle.zoneOf n).rules = (s.zoneOf n).rules := by
  have h := congrArg ZoneRun.rules (s.muted_zoneOf_answered op c r eff n)
  exact h

/-! ### The recomputation of a zone (R350 to R352) -/

/-- The targets of the active rules. -/
def ZoneDef.targets (d : ZoneDef) (rules : List RuleRun) : List Nat :=
  ((rules.zipIdx.filter (fun e => e.1.active)).map Prod.snd).map (fun k => (nth d.rules k default).target)

theorem ZoneDef.contains_targets {d : ZoneDef} {rules : List RuleRun} {x : Nat} :
    (d.targets rules).contains x = rules.zipIdx.any (fun e => e.1.active && (nth d.rules e.2 default).target == x) := by
  rw [Bool.eq_iff_iff, List.contains_iff_mem, ZoneDef.targets, List.map_map, List.mem_map, List.any_eq_true]
  simp only [List.mem_filter, and_assoc, Function.comp_apply, Bool.and_eq_true, beq_iff_eq]

theorem ZoneDef.contains_targets_of_active {d : ZoneDef} {rules : List RuleRun} {k : Nat} {r : RuleRun} (hk : rules[k]? = some r)
    (hr : r.active = true) : (d.targets rules).contains (nth d.rules k default).target = true := by
  rw [ZoneDef.contains_targets, List.any_eq_true]
  exact ⟨(r, k), List.mem_zipIdx_iff_getElem?.mpr hk, by simp [hr]⟩

/-- What a recomputation makes of a zone: `z` is the zone with its rules and sources brought up to date, `u` the zone it leaves. -/
structure State.Recomputed (s : State) (d : ZoneDef) (z : ZoneRun) (w : ZoneWhy) (u : ZoneRun) : Prop where
  rules : u.rules = z.rules
  inbox : u.inbox = z.inbox
  firings : u.firings = satAdd z.firings w.fired.length
  fault12 : u.fault12 = (s.judgeFault d z).1.fault12
  causes : u.causes = (s.judgeFault d z).1.causes
  faultPresent : u.faultPresent = (s.judgeFault d z).2
  state : u.state = if (d.targets z.rules).contains 3 then 3 else if (s.judgeFault d z).2 then 4 else if (d.targets z.rules).contains 2 then 2
    else if (s.sourcesOf d z).any (fun q => q.last.isNone) then 0 else 1

theorem State.raise_zones (s : State) (code sev src : Nat) (stamp : BitVec 96) (inst : Nat) (args : List Byte) (key : Option (List Nat)) :
    (s.raise code sev src stamp inst args key).zones = s.zones := by
  simp only [State.raise_frame]

theorem State.raise_zonesOn (s : State) (code sev src : Nat) (stamp : BitVec 96) (inst : Nat) (args : List Byte) (key : Option (List Nat)) :
    (s.raise code sev src stamp inst args key).zonesOn = s.zonesOn :=
  State.zonesOn_congr (by simp) (by simp) (by simp) (by simp)

theorem State.recompute_zones (s : State) (n : Nat) (d : ZoneDef) (old z : ZoneRun) (w : ZoneWhy) :
    ∃ u, (s.recompute n d old z w).zones = upd s.zones n (fun _ => u) ∧ s.Recomputed d z w u := by
  fun_cases State.recompute s n d old z w with
  | case1 => exact ⟨_, rfl, ⟨rfl, rfl, rfl, rfl, rfl, rfl, rfl⟩⟩
  | case2 => exact ⟨_, rfl, ⟨rfl, rfl, rfl, rfl, rfl, rfl, rfl⟩⟩
  | case3 => exact ⟨_, State.raise_zones .., ⟨rfl, rfl, rfl, rfl, rfl, rfl, rfl⟩⟩

theorem State.recompute_zonesOn (s : State) (n : Nat) (d : ZoneDef) (old z : ZoneRun) (w : ZoneWhy) :
    (s.recompute n d old z w).zonesOn = s.zonesOn := by
  fun_cases State.recompute s n d old z w with
  | case1 => rfl
  | case2 => rfl
  | case3 => exact State.raise_zonesOn ..

theorem State.recompute_zoneOf {s : State} {n : Nat} {d : ZoneDef} {old z : ZoneRun} {w : ZoneWhy} (hn : n < s.zones.length) :
    s.Recomputed d z w ((s.recompute n d old z w).zoneOf n) := by
  obtain ⟨u, hz, hu⟩ := s.recompute_zones n d old z w
  rwa [State.zoneOf, hz, nth_upd _ _ _ _ hn]

/-- While zones are evaluated, what a recomputation leaves stays when the state is settled. -/
theorem State.recompute_settle {s : State} {n : Nat} {d : ZoneDef} {old z : ZoneRun} {w : ZoneWhy} (hon : s.zonesOn = true)
    (hn : n < s.zones.length) : s.Recomputed d z w ((s.recompute n d old z w).settle.zoneOf n) := by
  rw [State.zoneOf_settle_of_on ((s.recompute_zonesOn n d old z w).trans hon)]
  exact State.recompute_zoneOf hn

/-! ### A hit is evaluated (R348, R352) -/

/-- A rule that one evaluation confirms fires at once. -/
theorem RuleRun.eval_fires (r : RuleRun) {d : ZRule} (key now : Nat) (h : d.confirm = 1) :
    (r.eval d key now true).2 = true ∧ (r.eval d key now true).1.on = true ∧ (r.eval d key now true).1.fired = now := by
  simp [RuleRun.eval, h]

/-- What an item makes of one place of a zone: the place, and whether its rule fires. -/
def State.evalRule (s : State) (d : ZoneDef) (i : ZoneIn) (e : RuleRun × Nat) : RuleRun × Bool :=
  match d.rules[e.2]? with
  | none => (e.1, false)
  | some r => match s.ruleInput d r i with
    | none => (e.1, false)
    | some (key, meets) => (e.1.hitGap r i).eval r key s.now meets

theorem State.evalRules_eq (s : State) (d : ZoneDef) (rs : List RuleRun) (i : ZoneIn) :
    s.evalRules d rs i = ((rs.zipIdx.map (s.evalRule d i)).map Prod.fst,
      ((rs.zipIdx.map (s.evalRule d i)).zipIdx.filter (fun e => e.1.2)).map Prod.snd) := rfl

theorem State.evalRule_of_none {s : State} {d : ZoneDef} {i : ZoneIn} {e : RuleRun × Nat} (h : d.rules[e.2]? = none) :
    s.evalRule d i e = (e.1, false) := by
  simp only [State.evalRule, h]

theorem State.evalRule_of_some {s : State} {d : ZoneDef} {i : ZoneIn} {e : RuleRun × Nat} {r : ZRule} {key : Nat} {meets : Bool}
    (h : d.rules[e.2]? = some r) (hi : s.ruleInput d r i = some (key, meets)) :
    s.evalRule d i e = (e.1.hitGap r i).eval r key s.now meets := by
  simp only [State.evalRule, h, hi]

/-- On a zone of one rule, an item that confirms it fires the first place and leaves the others as they are. -/
theorem State.evalRules_fires {s : State} {d : ZoneDef} {r : ZRule} {i : ZoneIn} {key : Nat} (a : RuleRun) (as : List RuleRun) (hd : d.rules = [r])
    (hi : s.ruleInput d r i = some (key, true)) (hconfirm : r.confirm = 1) :
    s.evalRules d (a :: as) i = (((a.hitGap r i).eval r key s.now true).1 :: as, [0]) := by
  have hfirst : s.evalRule d i (a, 0) = (a.hitGap r i).eval r key s.now true := State.evalRule_of_some (by simp [hd]) hi
  have hrest : (as.zipIdx 1).map (s.evalRule d i) = (as.zipIdx 1).map (fun e => (e.1, false)) :=
    List.map_congr_left fun e he => State.evalRule_of_none (by
      rw [hd]
      exact List.getElem?_eq_none (List.le_snd_of_mem_zipIdx he))
  have hplaces : ((as.zipIdx 1).map (fun e => (e.1, false))).map Prod.fst = as := by
    rw [List.map_map]
    exact List.zipIdx_map_fst 1 as
  have hsilent : (((as.zipIdx 1).map (fun e => (e.1, false))).zipIdx 1).filter (fun e => e.1.2) = [] := by
    refine List.filter_eq_nil_iff.mpr fun e he => ?_
    obtain ⟨x, -, hx⟩ := List.mem_map.mp (List.fst_mem_of_mem_zipIdx he)
    simp [← hx]
  rw [State.evalRules_eq, List.zipIdx_cons, List.map_cons, hrest, hfirst, List.map_cons, hplaces, List.zipIdx_cons,
    List.filter_cons, if_pos (RuleRun.eval_fires (a.hitGap r i) key s.now hconfirm).1, hsilent]
  rfl

theorem State.zoneEvaluate_settle {s : State} {n : Nat} {d : ZoneDef} {i : ZoneIn} {rest : List ZoneIn} {src : ZoneSource}
    (hd : s.zoneDef? n = some d) (hi : (s.zoneOf n).inbox = i :: rest) (hfits : i.fits src = true) (hon : s.zonesOn = true)
    (hn : n < s.zones.length) :
    s.Recomputed d
      { s.zoneOf n with inbox := rest, rules := (s.evalRules d (s.zoneOf n).rules i).1, sources := s.sourceSeen d (s.zoneOf n) i }
      ⟨(s.itemStamp i).1, (s.itemStamp i).2, (s.evalRules d (s.zoneOf n).rules i).2, false, true⟩ ((s.zoneEvaluate n src).settle.zoneOf n) := by
  simp only [State.zoneEvaluate, hd, hi]
  rw [if_neg (by simp [hfits, hon])]
  exact State.recompute_settle hon hn

theorem zoneEvaluationCompletes : ZoneEvaluationCompletes := by
  intro t n c x v d r rest s hd hi hon _ hr ⟨hkind, hcond, htarget, hconfirm⟩ hne hn
  refine completes_finish (f := fun s => s.zoneEvaluate n (.hit c)) rfl ?_
  obtain ⟨a, as, hrules⟩ := List.exists_cons_of_ne_nil hne
  have hrules' : ((s.atInstant t).zoneOf n).rules = a :: as := hrules
  have hinput : (s.atInstant t).ruleInput d r (.hit c v x) = some (c, true) := by simp [State.ruleInput, hkind, hcond]
  have hu := State.zoneEvaluate_settle (s := s.atInstant t) (src := .hit c) hd hi (by simp [ZoneIn.fits]) hon hn
  rw [hrules', State.evalRules_fires a as hr hinput hconfirm] at hu
  obtain ⟨-, hfiring, hfired⟩ := RuleRun.eval_fires (a.hitGap r (.hit c v x)) c (s.atInstant t).now hconfirm
  have halarm := ZoneDef.contains_targets_of_active (d := d) (k := 0)
    (rules := ((a.hitGap r (.hit c v x)).eval r c (s.atInstant t).now true).1 :: as) rfl (Bool.or_eq_true_iff.mpr (.inl hfiring))
  rw [show (nth d.rules 0 default).target = 3 by simp [nth, hr, htarget]] at halarm
  refine ⟨hu.inbox, hu.state.trans (if_pos halarm), ?_, ?_, hu.firings⟩
  · rw [hu.rules]
    exact hfiring
  · rw [hu.rules]
    exact hfired

theorem State.zoneHoldEnd_settle {s : State} {n k : Nat} {d : ZoneDef} {r : RuleRun} {rule : ZRule} (hd : s.zoneDef? n = some d)
    (hrule : d.rules[k]? = some rule) (hr : (s.zoneOf n).rules[k]? = some r) (hfiring : r.on = true) (hhold : rule.holdMs ≠ 0)
    (hdue : r.fired + rule.holdMs * ticksPerMs ≤ s.now) (hon : s.zonesOn = true) (hn : n < s.zones.length) :
    ((s.zoneHoldEnd n k).settle.zoneOf n).rules = (s.zoneOf n).rules.set k { r with on := false } := by
  have hk : ¬d.rules.length ≤ k := Nat.not_le.mpr (List.getElem?_eq_some_iff.mp hrule).1
  have hplace : nth (s.zoneOf n).rules k RuleRun.reset = r := by simp [nth, hr]
  have hdef : nth d.rules k default = rule := by simp [nth, hrule]
  simp only [State.zoneHoldEnd, hd, hplace, hdef]
  rw [if_neg (by simp [hk, hfiring, hhold, hon, Nat.not_lt.mpr hdue])]
  exact (State.recompute_settle hon hn).rules

theorem zoneHoldEndCompletes : ZoneHoldEndCompletes := by
  intro t n k d r rule s hd hrule hr hfiring hhold hdue hon _ hn
  refine completes_finish (f := fun s => s.zoneHoldEnd n k) rfl ?_
  exact State.zoneHoldEnd_settle (s := s.atInstant t) hd hrule hr hfiring hhold hdue hon hn

/-! ### A silent source (R350, R351) -/

theorem State.judgeFault_silent {s : State} {d : ZoneDef} {z : ZoneRun} (h : (s.faultBits d z).2.1 = true) :
    (s.judgeFault d z).1.fault12 = true ∧ bit (s.judgeFault d z).1.causes 1 = true ∧ (s.judgeFault d z).2 = true := by
  have hbit : ∀ a b : Bool, bit (b2n a + 2 * b2n true + 4 * b2n b) 1 = true := by decide
  simp only [State.judgeFault, h, Bool.or_true, Bool.true_or, hbit, and_self]

theorem State.zoneJudge_settle {s : State} {n : Nat} {d : ZoneDef} (hd : s.zoneDef? n = some d) (hon : s.zonesOn = true)
    (hn : n < s.zones.length) :
    s.Recomputed d (s.zoneOf n) ⟨s.secStamp s.now none false, s.now, [], false, false⟩ ((s.zoneJudge n).settle.zoneOf n) := by
  simp only [State.zoneJudge, hd, hon, if_true]
  exact State.recompute_settle hon hn

theorem zoneFaultTimerCompletes : ZoneFaultTimerCompletes := by
  intro t n d s hd hon hsilent hcalm hn
  refine completes_finish (f := fun s => s.zoneJudge n) rfl ?_
  have hu := State.zoneJudge_settle (s := s.atInstant t) hd hon hn
  obtain ⟨hlasts, hcause, hfault⟩ := State.judgeFault_silent hsilent
  have hquiet : ¬(d.targets (s.zoneOf n).rules).contains 3 = true := by rwa [ZoneDef.contains_targets]
  exact ⟨hu.state.trans ((if_neg hquiet).trans (if_pos hfault)), hu.faultPresent.trans hfault, hu.fault12.trans hlasts,
    (congrArg (bit · 1) hu.causes).trans hcause⟩

/-! ### VREF_Z (R360) -/

/-- Settling changes neither the voltage last measured nor the counters of the zone status port. -/
theorem State.settle_panel (s : State) :
    s.settle.panel.vrefMv = s.panel.vrefMv ∧ s.settle.panel.reads = s.panel.reads ∧ s.settle.panel.aborted = s.panel.aborted := by
  have hk : s.settle.panel.kept = s.panel.kept := by simp only [State.settle_frame]
  have hvref := congrArg Panel.vrefMv hk
  have hreads := congrArg Panel.reads hk
  have haborted := congrArg Panel.aborted hk
  exact ⟨hvref, hreads, haborted⟩

theorem vrefZMeasureCompletes : VrefZMeasureCompletes := by
  intro t mv s ⟨hlow, hhigh⟩
  refine completes_finish (f := fun s => s.vrefMeasure mv) rfl ?_
  have hv : (s.atInstant t).vrefMeasure mv = (s.atInstant t).modPanel (fun p => { p with vrefMv := mv }) := by
    simp [State.vrefMeasure, Nat.not_lt.mpr hlow, Nat.not_lt.mpr hhigh]
  rw [hv]
  exact State.settle_panel _

theorem vrefZMeasureOutsideCompletes : VrefZMeasureOutsideCompletes := by
  intro t mv s hmv hreport
  refine completes_finish (f := fun s => s.vrefMeasure mv) rfl ?_
  have hv : (s.atInstant t).vrefMeasure mv = ((s.atInstant t).modPanel (fun p => { p with vrefMv := mv })).raiseNow 0x0A02 sevDegraded srcDevice
      (u16 (satTo 2 mv)) none := by
    simp [State.vrefMeasure, hmv]
  have hroom : ((s.atInstant t).modPanel (fun p => { p with vrefMv := mv })).room 1 := State.room_le (room_of_canReport _ hreport) (by decide)
  rw [hv, (State.settle_panel _).1]
  exact ⟨by simp only [State.raiseNow_frame]; rfl, reported_settle _ _ _ _ (reported_raise _ _ _ _ _ _ _ hroom)⟩

/-! ### `zone.define` (R362) -/

/-- The zone that a definition or a removal leaves in place of `old`. -/
def ZoneRun.begun (old : ZoneRun) (remove : Bool) (now : Nat) (stamp : BitVec 96) : ZoneRun :=
  let z0 : ZoneRun := { ZoneRun.reset (!remove) now with
    notEval := old.notEval, stopped := old.stopped, seq := old.seq, changeSeq := old.changeSeq, stamp := old.stamp, alarms := old.alarms
    faults := old.faults, firings := old.firings }
  let z1 := if z0.word = old.word then z0 else { z0 with seq := !old.seq }
  if (if remove then 5 else 0) = old.state then z1 else { z1 with changeSeq := (z1.changeSeq + 1) % 65536, stamp := stamp }

theorem ZoneRun.begun_fields (old : ZoneRun) (remove : Bool) (now : Nat) (stamp : BitVec 96) :
    (old.begun remove now stamp).state = (if remove then 5 else 0) ∧ (old.begun remove now stamp).rules = List.replicate 4 RuleRun.reset ∧
      (old.begun remove now stamp).since = now := by
  unfold ZoneRun.begun
  simp only [apply_ite ZoneRun.state, apply_ite ZoneRun.rules, apply_ite ZoneRun.since, ite_self]
  cases remove <;> exact ⟨rfl, rfl, rfl⟩

/-- Zone `n` defined or removed, before the change is reported. -/
def State.redefine (s : State) (n : Nat) (remove : Bool) (d : ZoneDef) : State :=
  (s.modCfg (fun g => { g with zones := g.zones.set n (if remove then none else some d) })).modZone n
    (fun _ => (s.zoneOf n).begun remove s.now (s.secStamp s.now none false))

theorem State.redefine_zoneOf {s : State} {n : Nat} (remove : Bool) (d : ZoneDef) (hn : n < s.zones.length) :
    (s.redefine n remove d).zoneOf n = (s.zoneOf n).begun remove s.now (s.secStamp s.now none false) :=
  nth_upd _ _ _ _ hn

/-- What a definition or a removal leaves of the settings `g` at an instant: the settings with it, the zone begun anew, and its report. -/
structure State.Redefined (u : State) (n : Nat) (remove : Bool) (d : ZoneDef) (g : Retained) (now : Nat) : Prop where
  cfg : u.cfg = { g with zones := g.zones.set n (if remove then none else some d) }
  state : (u.zoneOf n).state = if remove then 5 else 0
  rules : (u.zoneOf n).rules = List.replicate 4 RuleRun.reset
  since : (u.zoneOf n).since = now
  heard : u.heard 0x0A01 srcDevice

theorem State.redefine_raise {s : State} {n : Nat} (remove : Bool) (d : ZoneDef) (stamp : BitVec 96) (args : List Byte) (hn : n < s.zones.length)
    (hroom : s.room 1) :
    ((s.redefine n remove d).raise 0x0A01 sevNotice srcDevice stamp s.now args (some [n])).Redefined n remove d s.cfg s.now := by
  obtain ⟨hstate, hrules, hsince⟩ := (s.zoneOf n).begun_fields remove s.now (s.secStamp s.now none false)
  have hzone := State.zoneOf_congr ((s.redefine n remove d).raise_zones 0x0A01 sevNotice srcDevice stamp s.now args (some [n])) n
  rw [State.redefine_zoneOf _ _ hn] at hzone
  exact ⟨by simp only [State.raise_frame]; rfl, hzone ▸ hstate, hzone ▸ hrules, hzone ▸ hsince, heard_raise _ _ _ _ _ _ _ _ hroom⟩

/-- Answering a definition and settling the state undoes nothing of it. -/
theorem State.Redefined.answered {u : State} {n : Nat} {remove : Bool} {d : ZoneDef} {g : Retained} {now : Nat} (h : u.Redefined n remove d g now)
    (op : Nat) (c : Cmd) (r : Resp) (eff : BitVec 96) : ((u.presentNonce op c).answer c r eff).settle.Redefined n remove d g now := by
  have hm := u.muted_zoneOf_answered op c r eff n
  exact ⟨by simp only [State.settle_frame, State.answer_frame, State.presentNonce_frame, h.cfg], (congrArg ZoneRun.state hm).trans h.state,
    (congrArg ZoneRun.rules hm).trans h.rules, (congrArg ZoneRun.since hm).trans h.since,
    heard_settle _ _ _ ((heard_congr _ _ _ _ (by simp)).mpr h.heard)⟩

/-- A definition that is accepted, or a removal. -/
theorem zoneDefine_accepted {c : Cmd} {s : State} (h : bit (rd c.arg 1 1) 0 = true ∨ s.zoneOk (readZone c.arg) = true)
    (hn : rd c.arg 0 1 < s.zones.length) (hroom : s.room 1) :
    ∃ u, zoneDefine c s = okWith u [] ∧ u.mbs = s.mbs ∧ u.Redefined (rd c.arg 0 1) (bit (rd c.arg 1 1) 0) (readZone c.arg) s.cfg s.now := by
  have hok : ¬(!bit (rd c.arg 1 1) 0 && !s.zoneOk (readZone c.arg)) = true := by rcases h with h | h <;> simp [h]
  unfold zoneDefine
  dsimp only
  rw [if_neg hok]
  exact ⟨_, rfl, by simp only [State.raise_frame]; rfl, State.redefine_raise _ _ _ _ hn hroom⟩

/-- Both cases of `zone.define`. -/
theorem zoneDefine_completes {t : Nat} {c : Cmd} {s : State} (ha : (s.atInstant t).admits 0x0A01 c = true)
    (h : bit (rd c.arg 1 1) 0 = true ∨ (s.atInstant t).zoneOk (readZone c.arg) = true) (hn : rd c.arg 0 1 < s.zones.length)
    (hreport : (s.atInstant t).canReport = true) :
    Completes (.zoneDefine t c) s (fun u => u.answered c stOk [] ∧
      u.Redefined (rd c.arg 0 1) (bit (rd c.arg 1 1) 0) (readZone c.arg) s.cfg (s.atInstant t).now) := by
  obtain ⟨u, hz, hmbs, hu⟩ := zoneDefine_accepted (s := (s.atInstant t).placed 0x0A01 c) h hn
    (State.room_le (room_of_canReport _ hreport) (by decide))
  exact completes_okWith _ t _ _ c s u [] _ rfl ha hz hmbs fun eff => hu.answered ..

theorem zoneDefineCompletes : ZoneDefineCompletes := by
  intro t c s ha hdefine hok hn hreport
  obtain ⟨u, hu, hans, hdefined⟩ := zoneDefine_completes ha (.inr hok) hn hreport
  rw [hdefine] at hdefined
  exact ⟨u, hu, hans, hdefined.cfg, hdefined.state, hdefined.rules, hdefined.since, hdefined.heard⟩

theorem zoneDefineRemoveCompletes : ZoneDefineRemoveCompletes := by
  intro t c s ha hremove hn hreport
  obtain ⟨u, hu, hans, hremoved⟩ := zoneDefine_completes ha (.inl hremove) hn hreport
  rw [hremove] at hremoved
  exact ⟨u, hu, hans, hremoved.cfg, hremoved.state, hremoved.heard⟩

/-! ### `zone.ack` (R363) -/

/-- The latches of a zone's rules released. -/
def unlatched (rules : List RuleRun) : List RuleRun := rules.map (fun r => { r with latched := false })

theorem unlatched_unlatched (rules : List RuleRun) : unlatched (unlatched rules) = unlatched rules := by
  rw [unlatched, unlatched, List.map_map]
  rfl

/-- One zone of an acknowledgement that names the zones of a mask. -/
def State.ackZone (m : Nat) (s : State) (n : Nat) : State :=
  match s.zoneDef? n with
  | some d =>
    if !bit m n then s
    else
      let z := s.zoneOf n
      let z1 : ZoneRun := { z with rules := unlatched z.rules }
      if s.zonesOn then s.recompute n d z z1 ⟨s.secStamp s.now none false, s.now, [], true, false⟩ else s.modZone n (fun _ => z1)
  | none => s

theorem zoneAck_named {c : Cmd} {s : State} (h : rd c.arg 0 32 ≠ 0) :
    zoneAck c s = okWith ((List.range 256).foldl (State.ackZone (rd c.arg 0 32)) s) [] := by
  unfold zoneAck
  dsimp only
  rw [if_neg h]
  rfl

theorem State.ackZone_part {p : StatePart} (m : Nat) (s : State) (n : Nat) (h : p ≠ .zones) : (s.ackZone m n).part p = s.part p := by
  unfold State.ackZone
  split <;> simp [h]

theorem State.ackZone_zoneDef? (m : Nat) (s : State) (n k : Nat) : (s.ackZone m n).zoneDef? k = s.zoneDef? k :=
  congrArg (fun g : Retained => nth g.zones k none) (s.ackZone_part (p := .cfg) m n (by simp))

theorem State.ackZone_zones (m : Nat) (s : State) (n : Nat) :
    (s.ackZone m n).zones = s.zones ∨ ∃ z, (s.ackZone m n).zones = upd s.zones n (fun _ => z) := by
  fun_cases State.ackZone m s n with
  | case1 => exact .inl rfl
  | case2 => exact .inr ((s.recompute_zones ..).imp fun _ h => h.1)
  | case3 => exact .inr ⟨_, rfl⟩
  | case4 => exact .inl rfl

theorem State.ackZone_zoneOf_ne (m : Nat) (s : State) {n k : Nat} (h : n ≠ k) : (s.ackZone m n).zoneOf k = s.zoneOf k := by
  obtain hz | ⟨z, hz⟩ := s.ackZone_zones m n
  · exact State.zoneOf_congr hz k
  · rw [State.zoneOf, hz, nth_upd_ne _ _ _ h, State.zoneOf]

theorem State.ackZone_length (m : Nat) (s : State) (n : Nat) : (s.ackZone m n).zones.length = s.zones.length := by
  obtain hz | ⟨z, hz⟩ := s.ackZone_zones m n <;> simp [hz, upd]

/-- The latches of an acknowledged zone are released whether or not zones are evaluated. -/
theorem State.ackZone_rules {m n : Nat} {s : State} (hm : bit m n = true) (hd : s.zoneDef? n ≠ none) (hn : n < s.zones.length) :
    ((s.ackZone m n).zoneOf n).rules = unlatched (s.zoneOf n).rules := by
  fun_cases State.ackZone m s n with
  | case1 _ _ hnot => simp [hm] at hnot
  | case2 => exact (State.recompute_zoneOf hn).rules
  | case3 => exact congrArg ZoneRun.rules (nth_upd _ _ _ _ hn)
  | case4 hnone => exact absurd hnone hd

/-- Acknowledging the zones of a list releases the latches of those that are defined and that the mask names. -/
theorem State.foldl_ackZone_rules {m n : Nat} (hm : bit m n = true) (l : List Nat) (s : State) (hn : n < s.zones.length)
    (hd : s.zoneDef? n ≠ none) :
    ((l.foldl (State.ackZone m) s).zoneOf n).rules = if n ∈ l then unlatched (s.zoneOf n).rules else (s.zoneOf n).rules := by
  induction l generalizing s with
  | nil => rfl
  | cons k l ih =>
    rw [List.foldl_cons, ih _ (hn.trans_eq (s.ackZone_length m k).symm) (by rwa [State.ackZone_zoneDef?])]
    by_cases hk : k = n
    · subst hk
      rw [State.ackZone_rules hm hd hn, unlatched_unlatched, ite_self, if_pos List.mem_cons_self]
    · simp only [State.ackZone_zoneOf_ne m s hk, List.mem_cons, Ne.symm hk, false_or]

theorem zoneAckCompletes : ZoneAckCompletes := by
  intro t c s ha hm hlen
  refine completes_okWith _ t _ _ c s _ [] _ rfl ha (zoneAck_named hm) ?_ fun eff n hn hbit hd => ?_
  · exact foldl_keeps State.mbs (fun s n => s.ackZone_part (p := .mbs) _ n (by simp)) _ _
  · rw [State.rules_answered, State.foldl_ackZone_rules hbit (List.range 256) ((s.atInstant t).placed 0x0A02 c) (hn.trans_eq hlen.symm) hd,
      if_pos (List.mem_range.mpr hn)]
    rfl

/-! ### The status commands and the settings of the panel (R359 to R361) -/

theorem zoneStatusCompletes : ZoneStatusCompletes := by
  intro t c s ha
  obtain ⟨u, hu, hans, -⟩ := completes_okWith (.zoneStatus t c) t 0x0A03 zoneStatus c s _ ((s.atInstant t).zoneBody (rd c.arg 0 1)) (fun _ => True)
    rfl ha rfl (by split <;> rfl) fun _ => trivial
  exact ⟨u, hu, hans⟩

theorem panelPinsCompletes : PanelPinsCompletes := by
  intro t c s ha hstates
  have haccepted : panelPins c ((s.atInstant t).placed 0x0A04 c) = okWith (((s.atInstant t).placed 0x0A04 c).modCfg (fun g => { g with
      pins := ⟨(List.range 4).map (fun k => (rd c.arg (36 * k) 1, rd c.arg (36 * k + 4) 32)), rd c.arg 144 32⟩ })) [] := by
    unfold panelPins
    dsimp only
    rw [if_neg (by simpa using hstates)]
    rfl
  refine completes_okWith _ t _ _ c s _ [] _ rfl ha haccepted rfl fun eff => ⟨?_, State.settle_pinsFollow _⟩
  simp only [State.settle_frame, State.answer_frame, State.presentNonce_frame]
  rfl

theorem panelZoutCompletes : PanelZoutCompletes := by
  intro t c s ha hout hmode hcodes
  have haccepted : panelZout c ((s.atInstant t).placed 0x0A05 c) = okWith (((s.atInstant t).placed 0x0A05 c).modCfg (fun g => { g with
      zout := g.zout.set (rd c.arg 0 1) ⟨rd c.arg 1 1, rd c.arg 2 1, (List.range 5).map (fun k => rd c.arg (4 + 2 * k) 2)⟩ })) [] := by
    unfold panelZout
    dsimp only
    rw [if_neg (by simpa [Nat.not_lt.mpr hout, Nat.not_lt.mpr hmode] using hcodes)]
    rfl
  refine completes_okWith _ t _ _ c s _ [] _ rfl ha haccepted rfl fun eff => ⟨?_, State.settle_pinsFollow _⟩
  simp only [State.settle_frame, State.answer_frame, State.presentNonce_frame]
  rfl

theorem panelStatusCompletes : PanelStatusCompletes := by
  intro t c s ha
  refine completes_okWith _ t _ _ c s _ _ _ rfl ha rfl ?_ fun eff => ?_
  · split <;> rfl
  · obtain ⟨-, hreads, haborted⟩ := State.settle_panel _
    rw [hreads, haborted]
    simp only [State.answer_frame, State.presentNonce_frame]
    split <;> exact ⟨rfl, rfl⟩

/-- Settles O45: each row is `finish` of an operation or of a handler; the lemma about the operation says what it leaves where the premises hold. -/
theorem zonesComplete : Obligations.ZonesComplete :=
  ⟨zoneEvaluationCompletes, zoneHoldEndCompletes, zoneFaultTimerCompletes, vrefZMeasureCompletes, vrefZMeasureOutsideCompletes, zoneDefineCompletes,
    zoneDefineRemoveCompletes, zoneAckCompletes, zoneStatusCompletes, panelPinsCompletes, panelZoutCompletes, panelStatusCompletes⟩

end Sys2Proof.Machine

/-! PROOFS of the step and the dispatch: the front command runs, an empty queue idles, every command but one answers. -/

namespace Sys2Proof.Machine

/-- Settles O1: the front command leaves the queue and runs on the rest. -/
theorem stepRunsTheFrontCommand : Obligations.StepRunsTheFrontCommand := by
  intro c rest s
  rfl

/-- Settles O2: the step's own arm for an empty queue. -/
theorem emptyQueueIdles : Obligations.EmptyQueueIdles := by
  intro s h
  unfold step
  rw [h]

/-- A JTAG instruction answers a next state, but for the vendor's own ones at level 3. -/
theorem jtagInstruction_answers (t : Nat) (op : JtagOp) (s : State) : (∃ u, execJtagInstruction t op s = .next u) ∨
    op = .vendorPrivate ∧ 3 ≤ s.dbg.level ∧ execJtagInstruction t op s = .refused .vendorPrivateInstruction := by
  cases op with
  | vendorPrivate =>
    unfold execJtagInstruction
    by_cases h : 3 ≤ s.dbg.level
    · right; simp [h]
    · left; simp [h, finish]
  | _ => left; exact ⟨_, rfl⟩

/-- Settles O11: every meaning but that of a JTAG instruction has the shape of `finish`. -/
theorem everyCommandAnswers : Obligations.EveryCommandAnswers := by
  intro i s
  cases i with
  | jtagInstruction t op =>
    rcases jtagInstruction_answers t op s with h | ⟨rfl, h⟩
    · exact Or.inl h
    · exact Or.inr ⟨t, rfl, h⟩
  | _ => unfold exec; exact Or.inl ⟨_, rfl⟩

end Sys2Proof.Machine

/-! PROOFS of the mailboxes: sequences, doorbells held and ignored. -/

namespace Sys2Proof.Machine

/-- A mailbox under an update of its own. -/
theorem State.mbOf_modMb (s : State) (n : Nat) (f : Mailbox → Mailbox) (h : n < s.mbs.length) : (s.modMb n f).mbOf n = f (s.mbOf n) := by
  simp only [State.mbOf, State.modMb_mbs]
  exact nth_upd _ _ _ _ h

/-- A mailbox reads the list of mailboxes alone. -/
theorem State.mbOf_congr {s u : State} (h : u.mbs = s.mbs) (n : Nat) : u.mbOf n = s.mbOf n := by simp [State.mbOf, h]

/-- A mailbox that holds a response (R451). -/
def Mailbox.responded (m : Mailbox) (b : List Byte) : Mailbox :=
  { m with st := 2, done := true, rspArea := if m.rspAddr = 0#64 then ssetL 0#8 m.rspArea 0 b else m.rspArea }

/-- A response by doorbell in its mailbox (R451). -/
theorem State.mbOf_respond (s : State) (c : Cmd) (b : List Byte) (he : c.eth = none) (hm : c.mb < s.mbs.length) :
    (s.respond c b).mbOf c.mb = (s.mbOf c.mb).responded b := by
  refine Eq.trans (State.mbOf_congr (s := s.modMb c.mb (fun m => m.responded b)) ?_ _) (s.mbOf_modMb c.mb _ hm)
  unfold State.respond
  simp only [he]
  split <;> split <;> simp [Mailbox.responded]

/-- A response by doorbell that is not for the response area is written to the host. -/
theorem State.hostWrite_mem_respond (s : State) (c : Cmd) (b : List Byte) (he : c.eth = none) (ha : (s.mbOf c.mb).rspAddr ≠ 0#64) :
    Out.hostWrite (s.mbOf c.mb).rspAddr.toNat b ∈ (s.respond c b).out := by
  unfold State.respond
  simp only [he, if_neg ha]
  split <;> simp [State.emit1, State.cause, State.modVector]

/-- Judging keeps the number of mailboxes when the handler does. -/
theorem judge_mbs_length (op : Nat) (h : Handler) (c : Cmd) (s : State) (hk : ∀ x y, (h x y).2.mbs.length = y.mbs.length) :
    (judge op h c s).2.mbs.length = s.mbs.length := by
  unfold judge
  split
  · split <;> simp
  · simp only
    split
    · rfl
    · simp [hk]

/-- An answer by doorbell in its mailbox: LAST_SEQ and the stored copy are those of the command (R456). -/
theorem State.mbOf_answer (s : State) (c : Cmd) (r : Resp) (eff : BitVec 96) (he : c.eth = none) (hm : c.mb < s.mbs.length) :
    ((s.answer c r eff).mbOf c.mb).lastSeq = some (c.seq % 65536) ∧ ((s.answer c r eff).mbOf c.mb).stored = respBytes c.seq r eff := by
  unfold State.answer
  rw [State.mbOf_respond _ _ _ he (by simpa [upd] using hm), State.mbOf_modMb _ _ _ hm]
  exact ⟨rfl, rfl⟩

/-- A duplicate sends the stored response again (R456). -/
theorem State.serve_duplicate (s : State) (op : Nat) (h : Handler) (c : Cmd) (q : Nat) (hq : (s.mbOf c.mb).lastSeq = some q)
    (hd : (c.seq + 65536 - q % 65536) % 65536 = 0) :
    s.serve op h c = (s.modSys (fun y => { y with duplicates := satAdd y.duplicates 1 })).respond c (s.mbOf c.mb).stored := by
  unfold State.serve
  simp [hq, hd]

/-- An older sequence is answered ST_STALE_SEQ (R456). -/
theorem State.serve_stale (s : State) (op : Nat) (h : Handler) (c : Cmd) (q : Nat) (hq : (s.mbOf c.mb).lastSeq = some q)
    (hd : 32768 ≤ (c.seq + 65536 - q % 65536) % 65536) :
    s.serve op h c = (s.modSys (fun y => { y with stale := satAdd y.stale 1 })).respond c
      (respBytes c.seq ⟨stStaleSeq, none, []⟩ (s.devStamp s.now)) := by
  unfold State.serve
  simp only [hq]
  rw [if_neg (by omega), if_pos hd]

/-- A new sequence is judged and answered (R456). -/
theorem State.serve_new (s : State) (op : Nat) (h : Handler) (c : Cmd)
    (hn : (s.mbOf c.mb).lastSeq = none ∨ ∃ q, (s.mbOf c.mb).lastSeq = some q ∧ 1 ≤ (c.seq + 65536 - q % 65536) % 65536 ∧
      (c.seq + 65536 - q % 65536) % 65536 < 32768) :
    s.serve op h c = (judge op h c s).2.answer c (judge op h c s).1 (effective (judge op h c s).1 s) := by
  unfold State.serve
  rcases hn with hq | ⟨q, hq, h1, h2⟩
  · simp [hq]
  · simp only [hq]
    rw [if_neg (by omega), if_neg (by omega)]

/-- Settles O6: the three ranges of the difference to LAST_SEQ, each by its own equation of `State.serve`. -/
theorem sequencesAreJudged : Obligations.SequencesAreJudged := by
  intro op h c s hm he
  refine ⟨fun q hq hd => ?_, fun q hq hd => ?_, fun hk hn => ?_⟩
  · rw [s.serve_duplicate op h c q hq hd]
    have hb := State.mbOf_respond (s.modSys (fun y => { y with duplicates := satAdd y.duplicates 1 })) c (s.mbOf c.mb).stored he hm
    refine ⟨by rw [hb]; exact hq, by rw [hb]; rfl, fun ha => by rw [hb]; exact if_pos ha, fun ha => State.hostWrite_mem_respond _ c _ he ha, by simp, by simp, by simp⟩
  · rw [s.serve_stale op h c q hq hd]
    have hb := State.mbOf_respond (s.modSys (fun y => { y with stale := satAdd y.stale 1 })) c
      (respBytes c.seq ⟨stStaleSeq, none, []⟩ (s.devStamp s.now)) he hm
    refine ⟨by rw [hb]; exact hq, by rw [hb]; rfl, fun ha => by rw [hb]; exact if_pos ha, by simp, by simp, by simp⟩
  · rw [s.serve_new op h c hn]
    obtain ⟨hl, hst⟩ := State.mbOf_answer _ c (judge op h c s).1 (effective (judge op h c s).1 s) he
      (by rw [judge_mbs_length op h c s hk]; exact hm)
    exact ⟨hl, _, hst⟩

/-- A doorbell on a busy mailbox, or behind a held one, is ignored and counted (R452). -/
theorem State.mbDoorbell_ignored (s : State) (n : Nat) (fetched : List Byte) (facts : Facts) (hn : n < 8)
    (h : (s.mbOf n).held = true ∨ (s.mbOf n).st = 1) :
    s.mbDoorbell n fetched facts = s.modMb n (fun m => { m with ignored := satAdd m.ignored 1 }) := by
  unfold State.mbDoorbell
  simp [Nat.not_le.mpr hn, h]

/-- A doorbell on a mailbox not ready is held (R452). -/
theorem State.mbDoorbell_held (s : State) (n : Nat) (fetched : List Byte) (facts : Facts) (hn : n < 8)
    (hh : (s.mbOf n).held = false) (hs : (s.mbOf n).st = 3) :
    s.mbDoorbell n fetched facts = s.modMb n (fun m => { m with held := true }) := by
  unfold State.mbDoorbell
  simp [Nat.not_le.mpr hn, hh, hs]

/-- A held doorbell runs once its mailbox is ready (R452). -/
theorem State.heldRuns_ready (s : State) (n : Nat) (fetched : List Byte) (facts : Facts) (hn : n < 8)
    (hh : (s.mbOf n).held = true) (hs : (s.mbOf n).st ≠ 3) (hc : s.dbg.cpcHalted = false) :
    s.heldRuns n fetched facts = (s.modMb n (fun m => { m with held := false })).runMailbox n fetched facts := by
  unfold State.heldRuns
  simp [Nat.not_le.mpr hn, hh, hs, hc]

/-- Settles O7: the arms of `State.mbDoorbell` and `State.heldRuns`. -/
theorem doorbellsHeldAndIgnored : Obligations.DoorbellsHeldAndIgnored := by
  refine ⟨fun t n fetched facts s hn h => ?_, fun t n fetched facts s hn ⟨hh, hs⟩ => ?_, fun t n fetched facts s hn ⟨hh, hs⟩ hc => ?_⟩
  · refine completes_finish (f := fun s => s.mbDoorbell n fetched facts) rfl ?_
    rw [(s.atInstant t).mbDoorbell_ignored n fetched facts hn h]
    simp
  · refine completes_finish (f := fun s => s.mbDoorbell n fetched facts) rfl ?_
    rw [(s.atInstant t).mbDoorbell_held n fetched facts hn hh hs]
    simp
  · refine completes_finish (f := fun s => s.heldRuns n fetched facts) rfl ?_
    rw [(s.atInstant t).heldRuns_ready n fetched facts hn hh hs hc]

end Sys2Proof.Machine

/-! PROOFS of the mailbox frames of Ethernet. -/

namespace Sys2Proof.Machine

/-- The frame counter that a session accepted last. -/
def Security.accept (k : Security) (id counter : Nat) : Security :=
  { k with sessions := k.sessions.map (fun (e : Session) => if e.id = id then { e with rxCounter := some counter } else e) }

/-- An accepted counter moves no session's own. -/
theorem txCounter_accept (k : Security) (id counter n : Nat) :
    ((k.accept id counter).sessions.find? (fun e => e.id == n)).map Session.txCounter =
      (k.sessions.find? (fun e => e.id == n)).map Session.txCounter := by
  simp only [Security.accept, List.find?_map, Option.map_map]
  congr 1
  · funext e
    simp only [Function.comp]
    split <;> rfl
  · congr 1
    funext e
    simp only [Function.comp]
    split <;> rfl

/-- A frame for a busy mailbox, its counter accepted (R454). -/
theorem State.mailboxFrame_busy (s : State) (p : Nat) (f plain : List Byte) (facts : Facts)
    (hp : (s.portCfg p).enabled = true ∧ (s.portRun p).up = true ∧ p < 2)
    (hf : rd f 0 4 = 0x464D4244 ∧ rd f 4 1 = 1 ∧ rd f 5 1 ≤ 7 ∧ rd f 6 2 = plain.length ∧ f.length = 36 + plain.length ∧ 32 ≤ plain.length)
    (hs : rd f 8 4 = 0 ∧ s.session? 0 = none ∨ ∃ e ∈ s.sec.sessions, s.session? (rd f 8 4) = some e ∧ e.rxCounter = none)
    (hb : (s.mbOf (rd f 5 1)).st = 1) (hc : s.dbg.cpcHalted = false) :
    s.mailboxFrame p f true plain facts =
      ((s.modPort p (fun x => { x with framesRx := satAdd x.framesRx 1 })).modSec (fun k => k.accept (rd f 8 4) (rd f 12 8))).sendFrame p (rd f 8 4)
        (respBytes (rd plain 4 2) ⟨stBusy, none, []⟩ (s.devStamp s.now)) := by
  obtain ⟨he, hu, hp2⟩ := hp
  obtain ⟨h1, h2, h3, h4, h5, h6⟩ := hf
  have hknown : (rd f 8 4 == 0 || (s.session? (rd f 8 4)).isSome) = true := by
    rcases hs with ⟨h0, -⟩ | ⟨e, -, hn, -⟩
    · simp [h0]
    · simp [hn]
  unfold State.mailboxFrame
  simp only [he, hu, Bool.not_true, Bool.or_self, Nat.not_le.mpr hp2, if_false, h1, h2, h4, h5, ne_eq, not_true_eq_false,
    decide_false, Nat.not_lt.mpr h3, Nat.not_lt.mpr h6, Bool.false_eq_true, hknown]
  have hready : ¬ (decide ((s.mbOf (rd f 5 1)).st = 3) || s.dbg.cpcHalted) = true := by simp [hb, hc]
  rw [if_neg]
  · exact (if_neg hready).trans (if_pos hb)
  · rcases hs with ⟨h0, -⟩ | ⟨e, -, hn, hx⟩
    · simp [h0]
    · simp [hn, hx]

/-- Settles O8: the answer to a busy mailbox goes out as a frame of the session, with the device's own counter. -/
theorem busyMailboxAnswersFrames : Obligations.BusyMailboxAnswersFrames := by
  intro t p f plain facts s hp hf hs hb hc
  refine completes_finish (f := fun s => s.mailboxFrame p f true plain facts) rfl ?_
  rw [(s.atInstant t).mailboxFrame_busy p f plain facts hp hf hs hb hc]
  refine ⟨by simp, by simp, ?_⟩
  have hn := txCounter_accept s.sec (rd f 8 4) (rd f 12 8) (rd f 8 4)
  simp only [State.settle_frame]
  unfold State.sendFrame
  simp only [State.session?, State.emit1, List.mem_append, List.mem_singleton]
  right
  congr 2
  exact hn.symm

end Sys2Proof.Machine

/-! PROOFS of the reset pin. -/

namespace Sys2Proof.Machine

/-! ### SMB_ALERT_N through events and settling (R563) -/

theorem State.logRecord_smbAlert (s : State) (b : List Byte) : (s.logRecord b).health.smbAlert = s.health.smbAlert := by
  unfold State.logRecord
  dsimp only
  (repeat' split) <;> simp

theorem State.raise_smbAlert (s : State) (code sev src : Nat) (stamp : BitVec 96) (inst : Nat) (args : List Byte) (key : Option (List Nat)) :
    (s.raise code sev src stamp inst args key).health.smbAlert = s.health.smbAlert := by
  unfold State.raise State.enterEvent
  dsimp only
  split
  · exact State.logRecord_smbAlert _ _
  · rfl

theorem State.reportLost_smbAlert (s : State) : s.reportLost.health.smbAlert = s.health.smbAlert := by
  unfold State.reportLost
  split
  · exact State.logRecord_smbAlert _ _
  · rfl

theorem State.reportDropped_smbAlert (s : State) : s.reportDropped.health.smbAlert = s.health.smbAlert := by
  unfold State.reportDropped
  split
  · exact State.logRecord_smbAlert _ _
  · rfl

/-- Where zones are not evaluated FAULT_N is low, and so an asserted SMB_ALERT_N stays asserted. -/
theorem State.settle_smbAlert_of_zonesOff {s : State} (hz : s.zonesOn = false) (h : s.health.smbAlert = true) : s.settle.health.smbAlert = true := by
  let v := s.reportLost.reportDropped.settleFlags.settleEmission
  have hv : v.zonesOn = false := by
    rw [← hz]
    exact State.zonesOn_congr (by simp [v]) (by simp [v]) (by simp [v]) (by simp [v])
  have he : v.settleZones.panel.evaluating = false := by
    unfold State.settleZones
    split
    · rw [← hv]; exact Eq.symm ‹_›
    · exact hv
  have hf : v.settleZones.faultLow = true := by simp [State.faultLow, he]
  have hn : v.settleZones.settlePins.alertNow = true := by
    unfold State.alertNow
    rw [Bool.or_assoc, show v.settleZones.settlePins.panel.pins.fault = true from hf, Bool.true_or]
  have ha : v.settleZones.settlePins.health.smbAlert = true := by
    simp only [State.settlePins_frame, State.settleZones_frame, v, State.settleEmission_frame, State.settleFlags_frame,
      State.reportDropped_smbAlert, State.reportLost_smbAlert, h]
  show (v.settleZones.settlePins.alertNow && (v.settleZones.settlePins.health.smbAlert || !v.settleZones.settlePins.health.alertCond)) = true
  rw [hn, ha]
  rfl

/-! ### What a reset reports changes nothing else (R493, R502, R545) -/

/-- Raising events one after another keeps what each of them keeps. -/
theorem State.sessionsEnded_holds {P : State → Prop} (hr : ∀ s code sev src args key, P s → P (s.raiseNow code sev src args key)) (l : List Session)
    (state : Nat) {s : State} (h : P s) : P (s.sessionsEnded l state) := by
  unfold State.sessionsEnded
  induction l generalizing s with
  | nil => exact h
  | cons e l ih => exact ih (hr _ _ _ _ _ _ h)

theorem State.debugClosed_holds {P : State → Prop} (hr : ∀ s code sev src args key, P s → P (s.raiseNow code sev src args key)) (old cause : Nat)
    {s : State} (h : P s) : P (s.debugClosed old cause) := by
  unfold State.debugClosed
  split
  · exact h
  · exact hr _ _ _ _ _ _ h

/-- What a reset leaves, but for the events it reports and the log of them. -/
theorem State.resetWith_holds {P : State → Prop} (hr : ∀ s code sev src args key, P s → P (s.raiseNow code sev src args key)) (s : State)
    (why : BootWhy) (h : P (s.afterReset why)) : P (s.resetWith why) :=
  State.debugClosed_holds hr _ _ (State.sessionsEnded_holds hr _ _ h)

theorem State.resetWith_frame (s : State) (why : BootWhy) :
    (s.resetWith why).sys = (s.afterReset why).sys ∧ (s.resetWith why).pwr = (s.afterReset why).pwr ∧
      (s.resetWith why).health.kept = (s.afterReset why).health.kept ∧ (s.resetWith why).tb = (s.afterReset why).tb ∧
      (s.resetWith why).ltune = (s.afterReset why).ltune ∧ (s.resetWith why).health.smbAlert = s.health.smbAlert :=
  State.resetWith_holds (P := fun u => u.sys = (s.afterReset why).sys ∧ u.pwr = (s.afterReset why).pwr ∧
      u.health.kept = (s.afterReset why).health.kept ∧ u.tb = (s.afterReset why).tb ∧ u.ltune = (s.afterReset why).ltune ∧
      u.health.smbAlert = s.health.smbAlert)
    (fun u code sev src args key ⟨h1, h2, h3, h4, h5, h6⟩ => by
      simp only [State.raiseNow_frame, h1, h2, h3, h4, h5, true_and]
      exact (State.raise_smbAlert ..).trans h6) s why ⟨rfl, rfl, rfl, rfl, rfl, rfl⟩

/-- A cut snapshot leaves the boot record. -/
theorem Sys.cutSnapshot_boot (y : Sys) : y.cutSnapshot.boot = y.boot := by
  unfold Sys.cutSnapshot
  split <;> rfl

theorem resetPinLongCompletes : ResetPinLongCompletes := by
  intro t ns s hns
  refine completes_finish (f := fun s => s.resetPin ns) rfl ?_
  rw [show (s.atInstant t).resetPin ns = (s.atInstant t).resetWith ⟨2, none, none, false⟩ from if_pos hns]
  obtain ⟨hsys, hpwr, hhealth, htb, hltune, halert⟩ := (s.atInstant t).resetWith_frame ⟨2, none, none, false⟩
  generalize hv : (s.atInstant t).resetWith ⟨2, none, none, false⟩ = v at hsys hpwr hhealth htb hltune halert ⊢
  have hz : v.zonesOn = false := by
    have hb : v.sys.bootState = 0 := by rw [hsys]; rfl
    simp [State.zonesOn, hb]
  have hk : v.settle.health.kept = ((s.atInstant t).afterReset ⟨2, none, none, false⟩).health.kept := by rw [← hhealth]; simp
  refine ⟨?_, ?_, ?_, ?_, ?_, ?_, ?_, ?_, fun h => State.settle_smbAlert_of_zonesOff hz (halert.trans h)⟩
  · simp only [State.settle_frame, hsys]; rfl
  · simp only [State.settle_frame, hpwr]; rfl
  · simp only [State.settle_frame, hsys]; rfl
  · simp only [State.settle_frame, hsys]; exact Sys.cutSnapshot_boot _
  · have hsegments := congrArg Health.segments hk
    exact hsegments
  · simp only [State.settle_frame, htb]; rfl
  · simp only [State.settle_frame, htb]; rfl
  · simp only [State.settle_frame, hltune]; rfl

/-- A scheduled reset leaves no trace of its schedule. -/
theorem State.resetWith_resetPend (s : State) (why : BootWhy) (p : Option ResetPend) :
    (s.modSys (fun y => { y with resetPend := p })).resetWith why = s.resetWith why := by
  unfold State.resetWith
  congr 2
  unfold State.afterReset Sys.cutSnapshot State.modSys
  dsimp only
  cases s.sys.snapshot <;> rfl

/-- A full reset that is due begins (R479). -/
theorem State.resetBegins_full {s : State} {p : ResetPend} (hp : s.sys.resetPend = some p) (hd : p.notBefore ≤ s.now) (hf : p.full = true) :
    s.resetBegins = s.resetWith ⟨p.cause, p.source, p.quickStart, p.noResume⟩ := by
  unfold State.resetBegins
  rw [hp]
  exact (if_neg (Nat.not_lt.mpr hd)).trans (if_pos hf)

theorem resetPinAsKind1Completes : ResetPinAsKind1Completes := by
  intro t ns s hns
  refine completes_finish (f := fun s => s.resetPin ns) rfl ?_
  rw [show (s.atInstant t).resetPin ns = (s.atInstant t).resetWith ⟨2, none, none, false⟩ from if_pos hns]
  have hi : (s.modSys (fun y => { y with resetPend := some ⟨true, 0, 2, none, none, false⟩ })).atInstant t =
      (s.atInstant t).modSys (fun y => { y with resetPend := some ⟨true, 0, 2, none, none, false⟩ }) := rfl
  have hx : ∀ v : State, exec (.resetBegins t) v = .next (v.atInstant t).resetBegins.settle := fun _ => by unfold exec; rfl
  rw [hx, hi, State.resetBegins_full rfl (Nat.zero_le _) rfl, State.resetWith_resetPend]

theorem resetPinShortCompletes : ResetPinShortCompletes := by
  intro t ns s hns
  refine completes_finish (f := fun s => s.resetPin ns) rfl ?_
  rw [show (s.atInstant t).resetPin ns = s.atInstant t from if_neg (by omega)]

/-- Settles O9: the long pulse, the same reset as that of `sys.reset` KIND 1, and the short pulse. -/
theorem resetPinIsAFullReset : Obligations.ResetPinIsAFullReset :=
  ⟨resetPinLongCompletes, resetPinAsKind1Completes, resetPinShortCompletes⟩

end Sys2Proof.Machine

/-! PROOFS of token buckets and command areas: where two statements fail. -/

namespace Sys2Proof.Machine

/-- Context 1 moves a descriptor of kind 0 on a link of generation 1, its bucket of 512 bytes full at instant 0. -/
def movingContext : State :=
  { State.reset with pcie := { State.reset.pcie with speed := 1, width := 1 } }.modCtx 1 (fun c =>
    { c with
      configured := true, postedIdx := 1, st := 1, tokens := 512 * tokenByte
      cfg := { c.cfg with share := 1, burst := 512 } })

/-- Refutes O55: `TokenBucketRefillCompletes` has the bucket filled to BURST at most whatever the context does, but tokens that come while it moves a
transfer are not lost to BURST: they stand against that transfer (R424, log entry 99). One tick into the transfer of a context whose bucket was full,
the bucket holds the tick's tokens above BURST. -/
theorem not_linkAndDebugEventsComplete : ¬ Obligations.LinkAndDebugEventsComplete := by
  rintro ⟨-, -, hrefill, -⟩
  obtain ⟨u, hu, hctxs⟩ := hrefill 1 1 movingContext
  obtain rfl : ((movingContext.atInstant 1).refillTokens 1).settle = u := Host.Outcome.next.inj hu
  simp only [State.settle_frame] at hctxs
  have htokens : (nth ((movingContext.atInstant 1).refillTokens 1).ctxs 1 default).tokens = 512 * tokenByte + 35 := by decide
  rw [hctxs] at htokens
  exact absurd htokens (by decide)

/-- The command area of mailbox 0 with an entry at offset 5 before one at offset 1: no run of writes makes such a list, and no premise rules it out. -/
def unorderedArea : State := State.reset.modMb 0 (fun m => { m with cmdArea := [(5, 1#8), (1, 1#8)] })

/-- Refutes O18: `CommandAreaReadsCompletes` asks nothing of the order of a command area's list. Where an entry of offset 1 stands behind one of
offset 5, a zero byte written at offset 1 finds no entry to strike, and 1 is read there. -/
theorem not_registersReadBack : ¬ Obligations.RegistersReadBack := by
  rintro ⟨-, harea⟩
  obtain ⟨u, hu, hread⟩ := harea 0 0 1 [0#8] unorderedArea (by decide) (by decide) (by decide)
  obtain rfl : ((unorderedArea.atInstant 0).registerWrite (0x10000 + 0x2000 * 0 + 1) [0#8]).settle = u := Host.Outcome.next.inj hu
  have hbyte := hread 0 (by decide)
  unfold State.bar0Byte State.mbOf at hbyte
  simp only [State.settle_frame] at hbyte
  exact absurd hbyte (by decide)

end Sys2Proof.Machine

/-! PROOFS of the health commands: where their statement fails. -/

namespace Sys2Proof.Machine

/-- A DZ08 in operation. -/
def eightLinePart : State :=
  { State.reset with
    build := { State.reset.build with dz08 := true }
    sys := { State.reset.sys with bootState := 4 }
    mbs := State.reset.mbs.map (fun m => { m with st := 0 })
    pwr := ⟨0, none, true, false⟩ }

/-- `health.units` for line engine 8. -/
def askNinthEngine : Cmd := ⟨0, none, 0, 1, 6, 0#96, 0, 0, u8 1 ++ u8 0 ++ u16 8 ++ u16 1, default⟩

/-- A range that names a unit of a disabled line is rejected (R3). -/
theorem healthUnits_unnamed {c : Cmd} {s : State}
    (h : (List.range (rd c.arg 4 2)).all (fun j => s.unitNamed (rd c.arg 0 1) (rd c.arg 2 2 + j)) = false) :
    healthUnits c s = reject s stBadArg := by
  unfold healthUnits
  simp only [h, Bool.not_false, Bool.or_true, if_true]

/-- Refutes O60: `HealthUnitsCompletes` asks that the range lie within its kind, not that the variant have the units: on a DZ08 a command that names
line engine 8 is rejected with ST_BAD_ARG (R3). -/
theorem not_healthCommandsComplete : ¬ Obligations.HealthCommandsComplete := by
  rintro ⟨-, hunits, -⟩
  have hadmits : (eightLinePart.atInstant 0).admits 0x0F02 askNinthEngine = true := by decide
  have hok := hunits 0 askNinthEngine eightLinePart hadmits (by decide) (by decide) (by decide)
  obtain ⟨u, hu, hanswer, -⟩ := hok
  obtain ⟨v, hv, hbad, -⟩ := completes_of_handler (.healthUnits 0 askNinthEngine) 0 0x0F02 healthUnits askNinthEngine eightLinePart _ _
    (fun _ => True) rfl hadmits (healthUnits_unnamed (by decide)) rfl (fun _ => trivial)
  obtain rfl : u = v := Host.Outcome.next.inj (hu.symm.trans hv)
  exact absurd (State.answered_status_unique hanswer hbad) (by decide)

end Sys2Proof.Machine

/-! PROOFS of what single updates, device memory, streams and bales leave unchanged. -/

namespace Sys2Proof.Machine

section
variable {p : StatePart}

/-! ### Single updates -/

theorem State.modSec_part_of_kept (s : State) (f : Security → Security) (h : ∀ k, (f k).kept = k.kept) : (s.modSec f).part p = s.part p := by
  cases p with
  | sec => exact h s.sec
  | _ => rfl

@[simp] theorem State.modPort_part (s : State) (n : Nat) (f : PortRun → PortRun) (h : p ≠ .ports) : (s.modPort n f).part p = s.part p := by
  cases p with
  | ports => exact absurd rfl h
  | _ => rfl

theorem State.modPort_part_of_kept (s : State) (n : Nat) (f : PortRun → PortRun) (h : ∀ x, (f x).kept = x.kept) : (s.modPort n f).part p = s.part p := by
  cases p with
  | ports => exact map_upd _ _ _ _ h
  | _ => rfl

@[simp] theorem State.modVector_part (s : State) (n : Nat) (f : Vector → Vector) (h : p ≠ .vectors) : (s.modVector n f).part p = s.part p := by
  cases p with
  | vectors => exact absurd rfl h
  | _ => rfl

@[simp] theorem State.setPcie_part (s : State) (x : Pcie) (h : p ≠ .pcie) : ({ s with pcie := x } : State).part p = s.part p := by
  cases p with
  | pcie => exact absurd rfl h
  | _ => rfl

@[simp] theorem State.setVectors_part (s : State) (l : List Vector) (h : p ≠ .vectors) : ({ s with vectors := l } : State).part p = s.part p := by
  cases p with
  | vectors => exact absurd rfl h
  | _ => rfl

@[simp] theorem State.modBale_part (s : State) (f : BaleRun → BaleRun) (h : p ≠ .bale) : (s.modBale f).part p = s.part p := by
  cases p with
  | bale => exact absurd rfl h
  | _ => rfl

@[simp] theorem State.modHUnit_part (s : State) (k i : Nat) (f : Unit_ → Unit_) (h : p ≠ .health) : (s.modHUnit k i f).part p = s.part p :=
  s.modHealth_part _ h


@[simp] theorem State.modChan_part (s : State) (c : Nat) (f : ChanRun → ChanRun) (h : p ≠ .mem) : (s.modChan c f).part p = s.part p := s.modMem_part _ h

@[simp] theorem State.modRec_part (s : State) (i : Nat) (f : CapRec → CapRec) (h : p ≠ .trig) : (s.modRec i f).part p = s.part p := s.modTrig_part _ h

@[simp] theorem State.modJob_part (s : State) (id : Nat) (f : BaleJob → BaleJob) (h : p ≠ .bale) : (s.modJob id f).part p = s.part p := s.modBale_part _ h


/-! ### Device memory (chapter 13) -/

theorem State.readBy_part (s : State) (port a n : Nat) (h : p ∉ [.health, .mem]) : (s.readBy port a n).1.part p = s.part p := by
  have hm : p ≠ .mem := by simp at h; exact h.2
  exact (foldl_part _ (fun s b => s.badRead_part port b h) _ _).trans (s.touchDram_part a n hm)


@[simp] theorem State.dramWrite_part (s : State) (a : Nat) (data : List Byte) (h : p ∉ [.health, .dram, .mem]) :
    (s.dramWrite a data).part p = s.part p := s.writeBy_part 4 a data h

@[simp] theorem State.poisonBlock_part (s : State) (b : Nat) (h : p ∉ [.dram, .mem]) : (s.poisonBlock b).part p = s.part p := by
  simp at h
  exact ((s.setBlock b 2).setDram_part _ h.1).trans (s.setBlock_part b 2 h.2)


@[simp] theorem State.rowRemap_part (s : State) (r : RowAt) (h : p ∉ [.health, .dram, .mem]) : (s.rowRemap r).part p = s.part p := by
  simp at h
  unfold State.rowRemap
  (repeat' split) <;> simp [foldl_part, h]

@[simp] theorem State.rowTestDone_part (s : State) (c spare : Nat) (pass : Bool) (h : p ∉ [.health, .mem]) :
    (s.rowTestDone c spare pass).part p = s.part p := by
  simp at h
  unfold State.rowTestDone
  (repeat' split) <;> simp [h]

@[simp] theorem State.decodeBlock_part (s : State) (port a : Nat) (errors : List (Nat × Byte)) (h : p ∉ [.freeUse, .health, .dram, .mem]) :
    (s.decodeBlock port a errors).1.part p = s.part p := by
  simp at h
  unfold State.decodeBlock
  dsimp only
  (repeat' split) <;> simp [h]


@[simp] theorem State.readDecode_part (s : State) (port a : Nat) (errors : List (Nat × Byte)) (h : p ∉ [.freeUse, .health, .dram, .mem]) :
    (s.readDecode port a errors).part p = s.part p := by
  simp at h
  simp [State.readDecode, h]

@[simp] theorem State.scrub_part (s : State) (c : Nat) (errors : List (Nat × Byte)) (h : p ∉ [.freeUse, .health, .dram, .mem]) :
    (s.scrub c errors).part p = s.part p := by
  simp at h
  simp [State.scrub, h]

@[simp] theorem State.refresh_part (s : State) (c bank rate : Nat) (h : p ≠ .mem) : (s.refresh c bank rate).part p = s.part p := by
  simp [State.refresh, h]

@[simp] theorem State.channelLost_part (s : State) (c cause : Nat) (h : p ≠ .mem) : (s.channelLost c cause).part p = s.part p := by
  simp [State.channelLost, h]

@[simp] theorem State.driftCheck_part (s : State) (c drift : Nat) (ok : Bool) (h : p ≠ .mem) : (s.driftCheck c drift ok).part p = s.part p := by
  simp [State.driftCheck, h]

@[simp] theorem State.retrained_part (s : State) (c us : Nat) (pass : Bool) (h : p ≠ .mem) : (s.retrained c us pass).part p = s.part p := by
  unfold State.retrained
  (repeat' split) <;> simp [h]

@[simp] theorem State.srEntry_part (s : State) (c : Nat) (h : p ≠ .mem) : (s.srEntry c).part p = s.part p := by
  unfold State.srEntry
  (repeat' split) <;> simp [h]

@[simp] theorem State.srExit_part (s : State) (c : Nat) (h : p ≠ .mem) : (s.srExit c).part p = s.part p := by
  simp [State.srExit, h]

@[simp] theorem State.requestLate_part (s : State) (port c ns : Nat) (h : p ≠ .mem) : (s.requestLate port c ns).part p = s.part p := by
  simp [State.requestLate, h]

@[simp] theorem memConfig_part (c : Cmd) (s : State) (h : p ∉ [.cfg, .mem]) : (memConfig c s).2.part p = s.part p := by
  simp at h
  simp [memConfig, h]

@[simp] theorem memStatus_part (c : Cmd) (s : State) (h : p ∉ [.mem, .health]) : (memStatus c s).2.part p = s.part p := by
  simp at h
  simp [memStatus, h]

@[simp] theorem memRemaps_part (c : Cmd) (s : State) : (memRemaps c s).2.part p = s.part p := by
  simp [memRemaps]


/-! ### Streams (R436 to R442) -/

@[simp] theorem State.settleBucket_part (s : State) (i : Nat) (h : p ≠ .ctxs) : (s.settleBucket i).part p = s.part p := s.modCtx_part i _ h

@[simp] theorem State.closeRecord_part (s : State) (k kind line : Nat) (stamp : BitVec 96) (items : Nat) (payload : List Byte) (ends : List (Nat × Item)) (h : p ∉ [.ctxs, .streams]) :
    (s.closeRecord k kind line stamp items payload ends).part p = s.part p := by
  simp at h
  unfold State.closeRecord
  (repeat' split) <;> simp [h]

@[simp] theorem State.closeAborted_part (s : State) (k : Nat) (i : Item) (h : p ∉ [.ctxs, .streams]) : (s.closeAborted k i).part p = s.part p := by
  simp at h
  unfold State.closeAborted
  split <;> simp [h]

@[simp] theorem State.streamClose_part (s : State) (k : Nat) (h : p ∉ [.ctxs, .streams]) : (s.streamClose k).part p = s.part p := by
  simp at h
  unfold State.streamClose
  (repeat' split) <;> simp [h]

@[simp] theorem State.streamOverrun_part (s : State) (k : Nat) (h : p ∉ [.ctxs, .streams]) : (s.streamOverrun k).part p = s.part p := by
  simp at h
  unfold State.streamOverrun
  (repeat' split) <;> simp [h]

@[simp] theorem State.itemDelivered_part (s : State) (d : StreamDef) (i : Item) (h : p ∉ [.health, .dram, .felt, .mem, .trig]) :
    (s.itemDelivered d i).part p = s.part p := by
  simp at h
  unfold State.itemDelivered
  (repeat' split) <;> simp [h]

@[simp] theorem State.streamMoved_part (s : State) (k : Nat) (d : StreamDef) (fuel n : Nat) (h : p ∉ [.ctxs, .streams, .health, .dram, .felt, .mem, .trig]) :
    (s.streamMoved k d fuel n).part p = s.part p := by
  induction fuel generalizing s n with
  | zero => rfl
  | succ fuel ih =>
    simp at h
    unfold State.streamMoved
    (repeat' split) <;> simp [ih, foldl_part, h]


@[simp] theorem State.streamEnd_part (s : State) (k mode discarded : Nat) (h : p ∉ [.pend, .streams]) :
    (s.streamEnd k mode discarded).part p = s.part p := by
  simp at h
  unfold State.streamEnd
  dsimp only
  (repeat' split) <;> simp [State.setStreams_part, h]


/-! ### Bales (chapter 12) -/

@[simp] theorem State.reportLane_part (s : State) (lane st : Nat) : (s.reportLane lane st).part p = s.part p := by
  simp [State.reportLane]

@[simp] theorem State.laneTest_part (s : State) (lane : Nat) (h : p ≠ .health) : (s.laneTest lane).part p = s.part p := by
  simp [State.laneTest, h]

@[simp] theorem State.verifyFailed_part (s : State) (lane seq at_ : Nat) (h : p ∉ [.health, .bale]) :
    (s.verifyFailed lane seq at_).part p = s.part p := by
  simp at h
  simp [State.verifyFailed, h]

@[simp] theorem State.countBale_part (s : State) (bytes : Nat) (o : BaleOut) (h : p ≠ .bale) : (s.countBale bytes o).part p = s.part p := s.modBale_part _ h

@[simp] theorem State.baleTaken_part (s : State) (k : Nat) (v : StreamBale) (bale : List Byte) (o : BaleOut) (suspend : Bool) (h : p ∉ [.ctxs, .streams]) :
    (s.baleTaken k v bale o suspend).part p = s.part p := by
  simp at h
  unfold State.baleTaken
  (repeat' split) <;> simp [h]

@[simp] theorem State.baleLost_part (s : State) (k : Nat) (v : StreamBale) (h : p ≠ .streams) : (s.baleLost k v).part p = s.part p := s.modStream_part k _ h

@[simp] theorem State.streamRelease_part (s : State) (lane k : Nat) (room firstDiff : Option Nat) (rawFails : Bool) (h : p ∉ [.ctxs, .streams, .health, .bale]) :
    (s.streamRelease lane k room firstDiff rawFails).part p = s.part p := by
  simp at h
  unfold State.streamRelease
  dsimp only
  (repeat' split) <;> simp [h]

@[simp] theorem State.jobWrite_part (s : State) (j : BaleJob) (bytes : List Byte) (bad : Bool) (h : p ∉ [.health, .dram, .mem]) :
    (s.jobWrite j bytes bad).part p = s.part p := by
  simp at h
  simp [State.jobWrite, foldl_part, h]

@[simp] theorem State.jobTaken_part (s : State) (j : BaleJob) (bytes : List Byte) (o : BaleOut) (bad : List Nat) (h : p ∉ [.health, .dram, .mem, .bale]) :
    (s.jobTaken j bytes o bad).part p = s.part p := by
  simp at h
  simp [State.jobTaken, foldl_part, h]

@[simp] theorem State.jobRelease_part (s : State) (lane id : Nat) (space : Bool) (firstDiff : Option Nat) (rawFails : Bool) (h : p ∉ [.health, .dram, .mem, .bale]) :
    (s.jobRelease lane id space firstDiff rawFails).part p = s.part p := by
  simp at h
  unfold State.jobRelease
  dsimp only
  (repeat' split) <;> simp [h]

@[simp] theorem State.jobDecode_part (s : State) (id : Nat) (space : Bool) (h : p ∉ [.health, .dram, .mem, .bale]) :
    (s.jobDecode id space).part p = s.part p := by
  simp at h
  unfold State.jobDecode
  (repeat' split) <;> simp [foldl_part, h]

@[simp] theorem State.baleRelease_part (s : State) (lane : Nat) (stream : Bool) (ix : Nat) (firstDiff : Option Nat) (rawFails : Bool) (h : p ∉ [.ctxs, .streams, .health, .dram, .mem, .bale]) :
    (s.baleRelease lane stream ix firstDiff rawFails).part p = s.part p := by
  simp at h
  simp [State.baleRelease, h]

@[simp] theorem State.baleNoSpace_part (s : State) (lane : Nat) (stream : Bool) (ix room : Nat) (firstDiff : Option Nat) (rawFails : Bool) (h : p ∉ [.ctxs, .streams, .health, .dram, .mem, .bale]) :
    (s.baleNoSpace lane stream ix room firstDiff rawFails).part p = s.part p := by
  simp at h
  simp [State.baleNoSpace, h]

@[simp] theorem State.freeTail_part (s : State) (j : BaleJob) (h : p ∉ [.freeUse, .health, .dram, .mem]) : (s.freeTail j).part p = s.part p := by
  simp at h
  exact (State.setFree_part _ _ h.1).trans (s.jobWrite_part j _ false (by simp [h]))

@[simp] theorem State.jobUnserved_part (s : State) (id : Nat) (h : p ≠ .bale) : (s.jobUnserved id).part p = s.part p := by
  simp [State.jobUnserved, h]

@[simp] theorem State.baleJobDone_part (s : State) (id : Nat) (h : p ∉ [.freeUse, .pend, .health, .dram, .mem, .bale]) :
    (s.baleJobDone id).part p = s.part p := by
  simp at h
  unfold State.baleJobDone
  dsimp only
  (repeat' split) <;> simp [h]

@[simp] theorem baleProfile_part (c : Cmd) (s : State) (h : p ≠ .cfg) : (baleProfile c s).2.part p = s.part p := by
  simp [baleProfile, h]

@[simp] theorem baleRun_part (c : Cmd) (s : State) (h : p ∉ [.pend, .bale]) : (baleRun c s).2.part p = s.part p := by
  simp at h
  simp [baleRun, h]

@[simp] theorem baleResume_part (c : Cmd) (s : State) (h : p ∉ [.pend, .bale]) : (baleResume c s).2.part p = s.part p := by
  simp at h
  unfold baleResume
  dsimp only
  (repeat' split) <;> simp [h]

@[simp] theorem baleCancel_part (c : Cmd) (s : State) (h : p ≠ .bale) : (baleCancel c s).2.part p = s.part p := by
  unfold baleCancel
  dsimp only
  (repeat' split) <;> simp [h]

@[simp] theorem baleStatus_part (c : Cmd) (s : State) (h : p ∉ [.bale, .health]) : (baleStatus c s).2.part p = s.part p := by
  simp at h
  simp [baleStatus, h]

end



end Sys2Proof.Machine

/-! PROOFS of what DMA contexts, ports and the PCIe link leave unchanged. -/

namespace Sys2Proof.Machine

section
variable {p : StatePart}
theorem State.setCtxsPcie_part (s : State) (l : List Ctx) (x : Pcie) (h : p ≠ .ctxs) (h' : p ≠ .pcie) :
    ({ s with ctxs := l, pcie := x } : State).part p = s.part p := by
  cases p with
  | ctxs => exact absurd rfl h
  | pcie => exact absurd rfl h'
  | _ => rfl

theorem State.setVectorsPcie_part (s : State) (l : List Vector) (x : Pcie) (h : p ≠ .vectors) (h' : p ≠ .pcie) :
    ({ s with vectors := l, pcie := x } : State).part p = s.part p := by
  cases p with
  | vectors => exact absurd rfl h
  | pcie => exact absurd rfl h'
  | _ => rfl



/-! ### Contexts and descriptors (R416 to R429) -/

@[simp] theorem State.doorbell_part (s : State) (n : Nat) (v : BitVec 32) (h : p ∉ [.ctxs, .streams]) : (s.doorbell n v).part p = s.part p := by
  simp at h
  unfold State.doorbell
  generalize hv : (s.settleBucket n).modCtx n _ = v
  have hs : v.part p = s.part p := by rw [← hv]; simp [h]
  dsimp only
  split <;> simp [h, hs]


@[simp] theorem State.haltCtx_part (s : State) (n cause addr : Nat) (write dev : Bool) (h : p ∉ [.ctxs, .vectors]) :
    (s.haltCtx n cause addr write dev).part p = s.part p := by
  simp at h
  simp [State.haltCtx, h]

@[simp] theorem State.spend_part (s : State) (i n : Nat) (h : p ≠ .ctxs) : (s.spend i n).part p = s.part p := s.modCtx_part i _ h

@[simp] theorem State.limited_part (s : State) (i : Nat) (h : p ≠ .ctxs) : (s.limited i).part p = s.part p := s.modCtx_part i _ h

@[simp] theorem State.refillTokens_part (s : State) (i : Nat) (h : p ≠ .ctxs) : (s.refillTokens i).part p = s.part p := by
  simp [State.refillTokens, h]

@[simp] theorem State.descDone_part (s : State) (i : Nat) (d : Desc) (h : p ≠ .ctxs) : (s.descDone i d).part p = s.part p := by
  simp [State.descDone, h]

@[simp] theorem State.toHost_part (s : State) (i addr src : Nat) (bad : List Nat) (c : Ctx) (data : List Byte) (h : p ≠ .ctxs) :
    (s.toHost i addr src bad c data).part p = s.part p := by
  unfold State.toHost
  split
  · rfl
  · exact foldl_part _ (fun s k => by simp [h]) _ _

@[simp] theorem State.writeStatus_part (s : State) (d : Desc) (used status : Nat) : (s.writeStatus d used status).part p = s.part p := s.emit1_part _

@[simp] theorem State.streamSkip_part (s : State) (k room : Nat) (h : p ∉ [.ctxs, .streams]) : (s.streamSkip k room).part p = s.part p := by
  simp at h
  unfold State.streamSkip
  dsimp only
  (repeat' split) <;> simp [h]

@[simp] theorem State.fillBuffer_part (s : State) (i k : Nat) (def_ : StreamDef) (d : Desc) (n status : Nat) (h : p ∉ [.ctxs, .streams, .health, .dram, .felt, .mem, .trig]) :
    (s.fillBuffer i k def_ d n status).part p = s.part p := by
  simp at h
  unfold State.fillBuffer
  dsimp only
  (repeat' split) <;> simp [h]

@[simp] theorem State.process_part (s : State) (i : Nat) (b data : List Byte) (flush : Bool) (h : p ∉ [.ctxs, .streams, .vectors, .health, .dram, .felt, .mem, .trig]) :
    (s.process i b data flush).part p = s.part p := by
  simp at h
  fun_cases State.process s i b data flush <;> simp +zetaDelta [h, State.readBy_part]

@[simp] theorem State.dmaHalt_part (s : State) (i cause addr : Nat) (write dev : Bool) (h : p ∉ [.ctxs, .vectors]) :
    (s.dmaHalt i cause addr write dev).part p = s.part p := by
  simp at h
  simp [State.dmaHalt, h]

@[simp] theorem State.msix_part (s : State) (n : Nat) (h : p ≠ .vectors) : (s.msix n).part p = s.part p := by
  simp [State.msix, h]


/-! ### Ports and the links (R432 to R444) -/

@[simp] theorem State.packetSent_part (s : State) (i : Nat) (h : p ∉ [.ctxs, .streams, .ports, .health, .dram, .felt, .mem, .trig]) :
    (s.packetSent i).part p = s.part p := by
  simp at h
  unfold State.packetSent
  dsimp only
  (repeat' split) <;> simp [h]

@[simp] theorem State.ethLink_part (s : State) (n : Nat) (up : Bool) (h : p ≠ .ports) : (s.ethLink n up).part p = s.part p := by
  simp [State.ethLink, h]

@[simp] theorem State.arp_part (s : State) (n : Nat) (ip : BitVec 32) (h : p ≠ .ports) : (s.arp n ip).part p = s.part p := by
  simp [State.arp, h]

@[simp] theorem State.pauseFrame_part (s : State) (n quanta : Nat) (h : p ≠ .ports) : (s.pauseFrame n quanta).part p = s.part p := by
  simp [State.pauseFrame, h]

@[simp] theorem State.frameDropped_part (s : State) (n : Nat) (fcsOk : Bool) (h : p ≠ .ports) : (s.frameDropped n fcsOk).part p = s.part p := by
  simp [State.frameDropped, h]

@[simp] theorem State.abortPackets_part (s : State) (i k : Nat) (h : p ∉ [.ctxs, .streams, .ports, .health, .dram, .felt, .mem, .trig]) :
    (s.abortPackets i k).part p = s.part p := by
  simp at h
  unfold State.abortPackets
  dsimp only
  (repeat' split) <;> simp [h]

@[simp] theorem State.abortCtx_part (s : State) (i : Nat) (h : p ∉ [.pend, .ctxs, .streams, .ports, .health, .dram, .felt, .mem, .trig]) :
    (s.abortCtx i).part p = s.part p := by
  simp at h
  unfold State.abortCtx
  dsimp only
  (repeat' split) <;> simp [h]

@[simp] theorem State.pcieReset_part (s : State) (cause : Nat) (h : p ∉ [.pend, .ctxs, .streams, .ports, .vectors, .pcie, .health, .dram, .felt, .mem, .trig]) :
    (s.pcieReset cause).part p = s.part p := by
  simp at h
  have hfold := foldl_part (p := p) (fun (s : State) i => if (s.ctxOf i).cfg.kind < 3 && (s.ctxOf i).st != 0 then s.abortCtx i else s)
    (fun s i => by simp [h]) (List.range 256) s
  unfold State.pcieReset
  generalize (List.range 256).foldl _ s = v at hfold
  rw [State.raiseNow_part, ← hfold]
  exact State.setVectorsPcie_part v _ _ (by simp [h]) (by simp [h])

@[simp] theorem State.pcieUp_part (s : State) (speed width : Nat) (h : p ∉ [.ctxs, .pcie]) : (s.pcieUp speed width).part p = s.part p := by
  simp at h
  unfold State.pcieUp
  simp only [State.raiseNow_part]
  exact (State.setPcie_part _ _ h.2).trans (foldl_part _ (fun s i => by simp [h]) _ _)


/-! ### Commands of group 0x0D -/

@[simp] theorem dmaConfig_part (c : Cmd) (s : State) (h : p ≠ .ctxs) : (dmaConfig c s).2.part p = s.part p := by
  simp [dmaConfig, h]

@[simp] theorem dmaResume_part (c : Cmd) (s : State) (h : p ≠ .ctxs) : (dmaResume c s).2.part p = s.part p := by
  simp [dmaResume, h]

@[simp] theorem dmaAbort_part (c : Cmd) (s : State) (h : p ∉ [.pend, .ctxs, .streams, .ports, .health, .dram, .felt, .mem, .trig]) :
    (dmaAbort c s).2.part p = s.part p := by
  simp at h
  simp [dmaAbort, h]

@[simp] theorem dmaLink_part (c : Cmd) (s : State) (h : p ≠ .cfg) : (dmaLink c s).2.part p = s.part p := by
  simp [dmaLink, h]

@[simp] theorem dmaPort_part (c : Cmd) (s : State) (h : p ∉ [.cfg, .ports]) : (dmaPort c s).2.part p = s.part p := by
  simp at h
  simp [dmaPort, h]

@[simp] theorem streamDefine_part (c : Cmd) (s : State) (h : p ≠ .cfg) : (streamDefine c s).2.part p = s.part p := by
  simp [streamDefine, h]

@[simp] theorem streamAttach_part (c : Cmd) (s : State) (h : p ∉ [.ctxs, .streams]) : (streamAttach c s).2.part p = s.part p := by
  simp at h
  unfold streamAttach
  dsimp only
  (repeat' split) <;> simp [State.setStreams_part, h]

@[simp] theorem streamDetach_part (c : Cmd) (s : State) (h : p ∉ [.pend, .ctxs, .streams]) : (streamDetach c s).2.part p = s.part p := by
  simp at h
  simp [streamDetach, h]

@[simp] theorem State.streamDetached_part (s : State) (k : Nat) (h : p ∉ [.pend, .ctxs, .streams]) : (s.streamDetached k).part p = s.part p := by
  simp at h
  unfold State.streamDetached
  (repeat' split) <;> simp [h]

@[simp] theorem dmaStatus_part (c : Cmd) (s : State) (h : p ∉ [.ctxs, .ports, .pcie, .health]) : (dmaStatus c s).2.part p = s.part p := by
  simp at h
  fun_cases dmaStatus c s <;> simp +zetaDelta [h, State.setCtxsPcie_part, State.modCtx]


/-! ### Events leave the queue, and the heartbeat (R465, R468) -/

/-- The event queue is in no component. -/
@[simp] theorem State.setEv_part (s : State) (q : EvQueue) : ({ s with ev := q } : State).part p = s.part p := by cases p <;> rfl


@[simp] theorem State.eventRelease_part (s : State) (h : p ≠ .streams) : s.eventRelease.part p = s.part p := by
  unfold State.eventRelease
  dsimp only
  (repeat' split) <;> simp [h]

@[simp] theorem State.heartbeat_part (s : State) (h : p ≠ .sys) : s.heartbeat.part p = s.part p := by
  simp [State.heartbeat, h]

end

/-- Settles O24: a row is `finish` of one operation, after the running kernels where it meets memory; its `_part` lemma names the components it may
write. -/
theorem memoryAndLinkFrames : Obligations.MemoryAndLinkFrames := by
  intro i s u hf hx p hp
  rw [State.keeps_iff]
  cases i with
  | baleRelease | baleNoSpace | baleJobDone | dramReadDecode | descriptorComplete | bufferFlush =>
    unfold exec at hx
    simp only [writesOf, List.mem_cons, List.not_mem_nil, or_false, not_or] at hp
    exact part_of_finish hx fun s => by simp [State.runTiles_part, hp]
  | rowRemap | rowTestDone | scrub | refresh | wckDriftCheck | selfRefreshEntry | selfRefreshExit | requestLate | channelLost | dmaHalted | msixMessage
    | streamRecordClose | streamOverrun | pcieLinkReset | ethLinkChange | arpRequest | streamDetached | eventRelease | heartbeatTick =>
    unfold exec at hx
    simp only [writesOf, List.mem_cons, List.not_mem_nil, or_false, not_or] at hp
    exact part_of_finish hx fun s => by simp [hp]
  | baleProfile | baleRunEncode | baleRunDecode | baleResume | baleCancel | baleStatus | memConfig | memStatus | memRemaps | dmaConfig | dmaResume
    | dmaAbort | dmaLink | dmaPort | streamDefine | streamAttach | streamDetach | dmaStatus =>
    unfold exec at hx
    simp only [writesOf, List.mem_cons, List.not_mem_nil, or_false, not_or] at hp
    exact part_of_hostCommand hx (by simp [hp]) fun c s => by simp [hp]
  | _ => cases hf

end Sys2Proof.Machine

/-! PROOFS of what the hamper, its health commands and the system commands leave unchanged. -/

namespace Sys2Proof.Machine

section
variable {p : StatePart}

/-! ### Quads, slices and units of the hamper (R510 to R518) -/

@[simp] theorem State.modConvRole_part (s : State) (q j : Nat) (v : Conv) (h : p ≠ .quads) : (s.modConvRole q j v).part p = s.part p := s.setConvs_part q _ _ h

@[simp] theorem State.modSlice_part (s : State) (k : Nat) (f : SliceRun → SliceRun) (h : p ≠ .therm) : (s.modSlice k f).part p = s.part p := s.modTherm_part _ h

@[simp] theorem State.modFront_part (s : State) (f : RefFront → RefFront) (h : p ≠ .therm) : (s.modFront f).part p = s.part p := s.modTherm_part _ h

@[simp] theorem State.reportNoSpare_part (s : State) (k i cause : Nat) (h : p ≠ .health) : (s.reportNoSpare k i cause).part p = s.part p := by
  simp [State.reportNoSpare, h]

@[simp] theorem State.reportTest_part (s : State) (k i outcome : Nat) : (s.reportTest k i outcome).part p = s.part p := s.raiseNow_part _ _ _ _ _

@[simp] theorem State.enterInPlace_part (s : State) (q : Nat) (h : p ≠ .cal) : (s.enterInPlace q).part p = s.part p := by
  simp [State.enterInPlace, h]

@[simp] theorem State.assignInOrder_part (s : State) (q : Nat) (h : p ≠ .quads) : (s.assignInOrder q).part p = s.part p := s.setConvs_part q _ _ h

@[simp] theorem State.retireConverter_part (s : State) (u cause : Nat) (h : p ∉ [.health, .quads, .cal]) :
    (s.retireConverter u cause).part p = s.part p := by
  simp at h
  unfold State.retireConverter
  dsimp only
  (repeat' split) <;> simp [h]

@[simp] theorem State.returnConverter_part (s : State) (u : Nat) (h : p ∉ [.health, .quads, .cal]) : (s.returnConverter u).part p = s.part p := by
  simp at h
  unfold State.returnConverter
  dsimp only
  (repeat' split) <;> simp [h]

@[simp] theorem State.bootQuad_part (s : State) (q : Nat) (h : p ∉ [.quads, .cal]) : (s.bootQuad q).part p = s.part p := by
  simp at h
  unfold State.bootQuad
  dsimp only
  (repeat' split) <;> simp [h, s.setQuadsCal_part]

@[simp] theorem State.sliceUnserved_part (s : State) (n : Nat) (h : p ∉ [.streams, .therm]) : (s.sliceUnserved n).part p = s.part p := by
  simp at h
  unfold State.sliceUnserved
  (repeat' split) <;> simp [h]

@[simp] theorem State.thermHalt_part (s : State) (h : p ∉ [.streams, .therm]) : s.thermHalt.part p = s.part p := by
  simp at h
  exact foldl_part _ (fun s k => s.discardInterval_part k (by simp [h])) _ s

@[simp] theorem State.refHalt_part (s : State) (h : p ≠ .therm) : s.refHalt.part p = s.part p := s.modFront_part _ h

@[simp] theorem State.refResume_part (s : State) (h : p ∉ [.pend, .therm]) : s.refResume.part p = s.part p := by
  simp at h
  simp [State.refResume, h]

@[simp] theorem State.d2dWithdraw_part (s : State) (lane : Nat) (h : p ≠ .health) : (s.d2dWithdraw lane).part p = s.part p := by
  unfold State.d2dWithdraw
  (repeat' split) <;> simp [h]

@[simp] theorem State.converterNext_part (s : State) (q : Nat) (h : p ∉ [.health, .quads, .cal]) : (s.converterNext q).part p = s.part p := by
  simp at h
  unfold State.converterNext
  (repeat' split) <;> simp [h]

@[simp] theorem State.repairEvent_part (s : State) (kind m index result : Nat) : (s.repairEvent kind m index result).part p = s.part p := s.raiseNow_part _ _ _ _ _

@[simp] theorem State.sramTested_part (s : State) (m : Nat) (keep : Bool) (h : p ≠ .health) : (s.sramTested m keep).part p = s.part p := by
  unfold State.sramTested
  (repeat' split) <;> simp [h]

@[simp] theorem State.returnUnit_part (s : State) (k i : Nat) (h : p ∉ [.lines, .health, .quads, .cal, .therm]) :
    (s.returnUnit k i).part p = s.part p := by
  simp at h
  unfold State.returnUnit
  dsimp only
  (repeat' split) <;> simp [foldl_part, h]

@[simp] theorem State.retireUnit_part (s : State) (k i cause : Nat) (h : p ∉ [.health, .quads, .cal]) : (s.retireUnit k i cause).part p = s.part p := by
  simp at h
  unfold State.retireUnit
  dsimp only
  (repeat' split) <;> simp [h]

@[simp] theorem State.passTransient_part (s : State) (k i : Nat) (h : p ∉ [.lines, .health, .quads, .cal, .therm]) :
    (s.passTransient k i).part p = s.part p := by
  simp at h
  unfold State.passTransient
  dsimp only
  (repeat' split) <;> simp [h]

@[simp] theorem State.testDone_part (s : State) (k i : Nat) (pass conditions : Bool) (h : p ∉ [.pend, .lines, .health, .quads, .cal, .therm]) :
    (s.testDone k i pass conditions).part p = s.part p := by
  simp at h
  unfold State.testDone
  dsimp only
  (repeat' split) <;> simp [h]

@[simp] theorem State.vacate_part (s : State) (k i : Nat) (h : p ∉ [.tiu, .lines, .streams, .tiles, .therm]) : (s.vacate k i).part p = s.part p := by
  simp at h
  unfold State.vacate
  (repeat' split) <;> simp [h]

@[simp] theorem State.noSpareRow_part (s : State) (k i cause : Nat) (h : p ∉ [.tiu, .lines, .streams, .health, .tiles, .therm]) :
    (s.noSpareRow k i cause).part p = s.part p := by
  simp at h
  simp [State.noSpareRow, h]

@[simp] theorem State.sramBegin_part (s : State) (m : Nat) (h : p ≠ .health) : (s.sramBegin m).part p = s.part p := by
  unfold State.sramBegin
  dsimp only
  (repeat' split) <;> simp [h]

@[simp] theorem State.sramError_part (s : State) (m row b : Nat) (uncorrectable : Bool) (h : p ≠ .health) :
    (s.sramError m row b uncorrectable).part p = s.part p := by
  simp [State.sramError, h]

@[simp] theorem State.d2dError_part (s : State) (lane symbols : Nat) (uncorrectable : Bool) (h : p ≠ .health) :
    (s.d2dError lane symbols uncorrectable).part p = s.part p := by
  simp [State.d2dError, h]


/-! ### Self-test, sensors and fuses (R519 to R527) -/

@[simp] theorem State.softRepair_part (s : State) (boot : Bool) (e : Nat × Nat) (h : p ≠ .health) : (s.softRepair boot e).part p = s.part p := by
  simp [State.softRepair, h]

@[simp] theorem State.suspect_part (s : State) (boot : Bool) (e : Nat × Nat) (h : p ≠ .health) : (s.suspect boot e).part p = s.part p := by
  simp [State.suspect, h]

@[simp] theorem State.endRun_part (s : State) (h : p ≠ .health) : s.endRun.part p = s.part p := by
  unfold State.endRun
  (repeat' split) <;> simp [h]

@[simp] theorem State.segmentDone_part (s : State) (o : SegmentOutcome) (h : p ≠ .health) : (s.segmentDone o).part p = s.part p := by
  unfold State.segmentDone
  dsimp only
  (repeat' split) <;> simp [foldl_part, h]

@[simp] theorem State.beginReruns_part (s : State) (quick : Bool) (h : p ≠ .health) : (s.beginReruns quick).part p = s.part p := by
  simp [State.beginReruns, h]

@[simp] theorem State.senseOne_part (s : State) (n : Nat) (old : Sensor) (lo hi v hyst : Int) : (s.senseOne n old lo hi v hyst).1.part p = s.part p := by
  simp [State.senseOne]


@[simp] theorem State.putOffReruns_part (s : State) (h : p ≠ .health) : s.putOffReruns.part p = s.part p := by
  simp [State.putOffReruns, h]

@[simp] theorem State.sensorSample_part (s : State) (thermal rails : List Int) (h : p ≠ .health) : (s.sensorSample thermal rails).part p = s.part p := by
  simp [State.sensorSample, foldl_part, h]

@[simp] theorem healthStatus_part (c : Cmd) (s : State) (h : p ≠ .health) : (healthStatus c s).2.part p = s.part p := by
  simp [healthStatus, h]

@[simp] theorem healthUnits_part (c : Cmd) (s : State) : (healthUnits c s).2.part p = s.part p := by
  simp [healthUnits]

@[simp] theorem healthTest_part (c : Cmd) (s : State) (h : p ∉ [.pend, .health, .quads, .cal, .therm]) : (healthTest c s).2.part p = s.part p := by
  simp at h
  simp [healthTest, h]

@[simp] theorem healthAccept_part (c : Cmd) (s : State) (h : p ≠ .health) : (healthAccept c s).2.part p = s.part p := by
  simp [healthAccept, h]

@[simp] theorem healthFuseRepair_part (c : Cmd) (s : State) (h : p ≠ .pend) : (healthFuseRepair c s).2.part p = s.part p := by
  simp [healthFuseRepair, h]

@[simp] theorem State.fuseOne_part (s : State) (e : Repair × Bool) (h : p ≠ .health) : (s.fuseOne e).part p = s.part p := by
  simp [State.fuseOne, h]

@[simp] theorem State.fuseDone_part (s : State) (ok : List Bool) (h : p ∉ [.pend, .health]) : (s.fuseDone ok).part p = s.part p := by
  simp at h
  unfold State.fuseDone
  (repeat' split) <;> simp [foldl_part, h]

@[simp] theorem healthResults_part (c : Cmd) (s : State) : (healthResults c s).2.part p = s.part p := by
  simp [healthResults]

@[simp] theorem healthSensors_part (c : Cmd) (s : State) (h : p ≠ .health) : (healthSensors c s).2.part p = s.part p := by
  simp [healthSensors, h]

@[simp] theorem healthLimits_part (c : Cmd) (s : State) (h : p ≠ .cfg) : (healthLimits c s).2.part p = s.part p := by
  simp [healthLimits, h]

@[simp] theorem healthLogRead_part (c : Cmd) (s : State) : (healthLogRead c s).2.part p = s.part p := by
  simp [healthLogRead]

@[simp] theorem State.counterSaturated_part (s : State) (op off sel : Nat) (h : p ≠ .health) : (s.counterSaturated op off sel).part p = s.part p := by
  simp [State.counterSaturated, h]


/-! ### System commands (R468 to R480) -/

/-- A record of the event log changes no component. -/
@[simp] theorem State.logRecord_part (s : State) (record : List Byte) : (s.logRecord record).part p = s.part p := by
  cases p <;> simp [State.part, StatePart.Val]

@[simp] theorem State.setWarn_part (s : State) (w : Warn) : ({ s with warn := w } : State).part p = s.part p := by cases p <;> rfl

@[simp] theorem State.enterEvent_part (s : State) (p2 : Bool) (r : EvRec) : (s.enterEvent p2 r).part p = s.part p := by
  unfold State.enterEvent
  dsimp only
  split <;> simp

@[simp] theorem State.setPend_part (s : State) (l : List Pend) (h : p ≠ .pend) : ({ s with pend := l } : State).part p = s.part p := by
  cases p with
  | pend => exact absurd rfl h
  | _ => rfl

@[simp] theorem State.setMbs_part (s : State) (l : List Mailbox) (h : p ≠ .mbs) : ({ s with mbs := l } : State).part p = s.part p := by
  cases p with
  | mbs => exact absurd rfl h
  | _ => rfl

@[simp] theorem State.setPwr_part (s : State) (x : Power) (h : p ≠ .pwr) : ({ s with pwr := x } : State).part p = s.part p := by
  cases p with
  | pwr => exact absurd rfl h
  | _ => rfl

@[simp] theorem State.setDbg_part (s : State) (x : Debug) (h : p ≠ .dbg) : ({ s with dbg := x } : State).part p = s.part p := by
  cases p with
  | dbg => exact absurd rfl h
  | _ => rfl

@[simp] theorem State.modSec_part (s : State) (f : Security → Security) (h : p ≠ .sec) : (s.modSec f).part p = s.part p := by
  cases p with
  | sec => exact absurd rfl h
  | _ => rfl


@[simp] theorem State.sessionsEnded_part (s : State) (l : List Session) (state : Nat) : (s.sessionsEnded l state).part p = s.part p := foldl_part _ (fun s e => by simp) _ _

@[simp] theorem State.debugClosed_part (s : State) (old cause : Nat) : (s.debugClosed old cause).part p = s.part p := by
  simp [State.debugClosed]

@[simp] theorem sysIdentify_part (c : Cmd) (s : State) : (sysIdentify c s).2.part p = s.part p := by
  simp [sysIdentify]

@[simp] theorem sysSnapshot_part (c : Cmd) (s : State) (h : p ∉ [.sys, .pend]) : (sysSnapshot c s).2.part p = s.part p := by
  simp at h
  simp [sysSnapshot, h]

@[simp] theorem State.withdrawStarts_part (s : State) (h : p ∉ [.pend, .lines]) : s.withdrawStarts.part p = s.part p := by
  simp at h
  simp [State.withdrawStarts, foldl_part, h]

@[simp] theorem State.stopSets_part (s : State) (sets : List Nat) (mode : Nat) (h : p ∉ [.streams, .trig]) :
    (s.stopSets sets mode).part p = s.part p := by
  simp at h
  exact foldl_part _ (fun s n => by simp [State.modSet, h]) _ _

@[simp] theorem State.ownStop_part (s : State) (mode : Nat) (applyAt : Option Nat) (h : p ∉ [.sys, .pend, .lines, .streams, .trig]) :
    (s.ownStop mode applyAt).part p = s.part p := by
  simp at h
  unfold State.ownStop
  dsimp only
  exact (State.setPend_part _ _ (by simp [h])).trans ((State.stopSets_part _ _ _ (by simp [h])).trans
    ((foldl_part _ (fun s l => by simp [h]) _ _).trans (by simp [h])))

@[simp] theorem State.flushDie_part (s : State) : s.flushDie.part p = s.part p := by
  exact (foldl_part _ (fun s r => s.enterEvent_part false r) _ _).trans (s.setEv_part _)

@[simp] theorem sysShutdown_part (c : Cmd) (s : State) (h : p ∉ [.sys, .pend, .lines, .ctxs, .streams, .health, .trig]) :
    (sysShutdown c s).2.part p = s.part p := by
  simp at h
  unfold sysShutdown
  dsimp only
  (repeat' split) <;> simp [h]

@[simp] theorem State.snapshotCommitted_part (s : State) (ok : Bool) (h : p ∉ [.sys, .pend, .ctxs, .streams, .health]) :
    (s.snapshotCommitted ok).part p = s.part p := by
  simp at h
  unfold State.snapshotCommitted
  dsimp only
  (repeat' split) <;> simp [h]

@[simp] theorem State.schedule_part (s : State) (full : Bool) (cause : Nat) (source : Option Nat) (quick : Option Bool) (noResume : Bool) (h : p ≠ .sys) :
    (s.schedule full cause source quick noResume).part p = s.part p := s.modSys_part _ h

@[simp] theorem sysRestore_part (c : Cmd) (s : State) (h : p ≠ .sys) : (sysRestore c s).2.part p = s.part p := by
  simp [sysRestore, h]

@[simp] theorem sysReset_part (c : Cmd) (s : State) (h : p ≠ .sys) : (sysReset c s).2.part p = s.part p := by
  simp [sysReset, h]

@[simp] theorem sysTime_part (c : Cmd) (s : State) (h : p ∉ [.pend, .tb]) : (sysTime c s).2.part p = s.part p := by
  simp at h
  simp [sysTime, h]

@[simp] theorem State.timeSetBoundary_part (s : State) (h : p ∉ [.pend, .tb, .grid, .lines, .quads]) : s.timeSetBoundary.part p = s.part p := by
  simp at h
  unfold State.timeSetBoundary
  dsimp only
  (repeat' split) <;> simp [h]

@[simp] theorem State.setMbsEv_part (s : State) (l : List Mailbox) (q : EvQueue) (h : p ≠ .mbs) : ({ s with mbs := l, ev := q } : State).part p = s.part p :=
  (State.setEv_part { s with mbs := l } q).trans (s.setMbs_part l h)


@[simp] theorem sysStatus_part (c : Cmd) (s : State) (h : p ∉ [.sys, .mbs, .health]) : (sysStatus c s).2.part p = s.part p := by
  simp at h
  unfold sysStatus
  dsimp only
  split <;> simp [h]

@[simp] theorem sysEvents_part (c : Cmd) (s : State) (h : p ≠ .cfg) : (sysEvents c s).2.part p = s.part p := by
  simp [sysEvents, h]

@[simp] theorem State.warnRise_part (s : State) : s.warnRise.part p = s.part p := by
  simp [State.warnRise]

@[simp] theorem State.warnClear_part (s : State) : s.warnClear.part p = s.part p := by
  simp [State.warnClear, foldl_part]

end



end Sys2Proof.Machine

/-! PROOFS of what security, power states, boot and restore leave unchanged. -/

namespace Sys2Proof.Machine

section
variable {p : StatePart}

/-! ### Tokens, sessions and debug levels (R484, R493, R502) -/

@[simp] theorem State.closeDebug_part (s : State) (cause : Nat) (h : p ∉ [.sys, .dbg]) : (s.closeDebug cause).part p = s.part p := by
  simp at h
  unfold State.closeDebug
  dsimp only
  (repeat' split) <;> simp [h]

@[simp] theorem State.closeSessions_part (s : State) (h : p ≠ .sec) : s.closeSessions.part p = s.part p := by
  simp [State.closeSessions, h]

@[simp] theorem State.transition_part (s : State) (new_ cause : Nat) (h : p ∉ [.sys, .sec, .dbg]) : (s.transition new_ cause).part p = s.part p := by
  simp at h
  simp [State.transition, h]

@[simp] theorem State.authFailed_part (s : State) (op reason : Nat) : (s.authFailed op reason).part p = s.part p :=
  (State.raiseNow_part _ _ _ _ _ _).trans (s.modSec_part_of_kept _ fun _ => rfl)

@[simp] theorem State.refuseToken_part (s : State) (op reason : Nat) : (s.refuseToken op reason).2.part p = s.part p := by
  simp [State.refuseToken]

/-- A command with a token changes what its act does. -/
@[simp] theorem State.withToken_part (s : State) (op kind : Nat) (signers : List Nat) (t : Token) (c : Cmd) (act : Resp × State)
    (h : act.2.part p = s.part p) : (s.withToken op kind signers t c act).2.part p = s.part p := by
  unfold State.withToken
  split
  · simp
  · exact h


@[simp] theorem secChallenge_part (c : Cmd) (s : State) (h : p ≠ .sec) : (secChallenge c s).2.part p = s.part p := by
  simp [secChallenge, h]

@[simp] theorem State.nonceExpiry_part (s : State) (h : p ≠ .sec) : s.nonceExpiry.part p = s.part p := by
  simp [State.nonceExpiry, h]


/-! ### Lifecycle (R486, R487) -/

@[simp] theorem State.storeKey_part (s : State) (slot : Nat) (key : List Byte) (h : p ≠ .sec) : (s.storeKey slot key).part p = s.part p := by
  simp [State.storeKey, h]

@[simp] theorem State.fuseOwner_part (s : State) (slot : Nat) (hash : List Byte) (h : p ≠ .sec) : (s.fuseOwner slot hash).part p = s.part p := by
  simp [State.fuseOwner, h]

@[simp] theorem State.enrolAt_part (s : State) (slot : Nat) (key : List Byte) (progOk : Bool) (h : p ∉ [.sys, .sec, .dbg]) :
    (s.enrolAt slot key progOk).2.part p = s.part p := by
  simp at h
  unfold State.enrolAt
  dsimp only
  split <;> simp [h]


@[simp] theorem secEnroll_part (c : Cmd) (s : State) (h : p ∉ [.sys, .sec, .dbg]) : (secEnroll c s).2.part p = s.part p := by
  simp at h
  unfold secEnroll
  dsimp only
  (repeat' split) <;> simp [h]

@[simp] theorem secService_part (c : Cmd) (s : State) (h : p ∉ [.sys, .sec, .dbg]) : (secService c s).2.part p = s.part p := by
  simp at h
  unfold secService
  dsimp only
  (repeat' split) <;> simp [h]

@[simp] theorem State.serviceExpiry_part (s : State) (h : p ∉ [.sys, .sec, .dbg]) : s.serviceExpiry.part p = s.part p := by
  simp at h
  unfold State.serviceExpiry
  (repeat' split) <;> simp [h]

@[simp] theorem State.scrapStops_part (s : State) (h : p ∉ [.sys, .pend, .lines, .ctxs, .streams, .trig]) : s.scrapStops.part p = s.part p := by
  simp at h
  unfold State.scrapStops
  dsimp only
  (repeat' split) <;> simp [h]

@[simp] theorem State.scrapErase_part (s : State) (h : p ∉ [.sys, .sec]) : s.scrapErase.part p = s.part p := by
  simp at h
  simp [State.scrapErase, h]

@[simp] theorem State.dropSnapshot_part (s : State) (h : p ≠ .pend) : s.dropSnapshot.part p = s.part p := by
  unfold State.dropSnapshot
  (repeat' split) <;> simp [h]

@[simp] theorem secScrap_part (c : Cmd) (s : State) (h : p ∉ [.sys, .pend, .lines, .ctxs, .streams, .sec, .dbg, .trig]) :
    (secScrap c s).2.part p = s.part p := by
  simp at h
  unfold secScrap
  dsimp only
  (repeat' split) <;> simp [h]



/-! ### Firmware slots (R488 to R491) -/

@[simp] theorem State.fwEvent_part (s : State) (op slot version : Nat) : (s.fwEvent op slot version).part p = s.part p := s.raiseNow_part _ _ _ _ _

@[simp] theorem State.fwVerify_part (s : State) (l : FwLoad) (sigOk : Bool) (h : p ≠ .sec) : (s.fwVerify l sigOk).2.part p = s.part p := by
  unfold State.fwVerify
  dsimp only
  (repeat' split) <;> simp [h]


@[simp] theorem secFwLoad_part (c : Cmd) (s : State) (h : p ∉ [.pend, .sec]) : (secFwLoad c s).2.part p = s.part p := by
  simp at h
  unfold secFwLoad
  dsimp only
  (repeat' split) <;> simp [h]

@[simp] theorem State.fwEraseDone_part (s : State) (h : p ∉ [.pend, .sec]) : s.fwEraseDone.part p = s.part p := by
  simp at h
  unfold State.fwEraseDone
  dsimp only
  (repeat' split) <;> simp [h]

@[simp] theorem secFwControl_part (c : Cmd) (s : State) (h : p ≠ .sec) : (secFwControl c s).2.part p = s.part p := by
  unfold secFwControl
  dsimp only
  (repeat' split) <;> simp [h]


/-! ### Sessions and rights (R492, R493) -/

@[simp] theorem secSessionOpen_part (c : Cmd) (s : State) (h : p ≠ .sec) : (secSessionOpen c s).2.part p = s.part p := by
  unfold secSessionOpen
  dsimp only
  (repeat' split) <;> simp [h]

@[simp] theorem State.endSession_part (s : State) (id state : Nat) (h : p ≠ .sec) : (s.endSession id state).part p = s.part p := by
  simp [State.endSession, h]

@[simp] theorem secSessionClose_part (c : Cmd) (s : State) (h : p ≠ .sec) : (secSessionClose c s).2.part p = s.part p := by
  unfold secSessionClose
  dsimp only
  (repeat' split) <;> simp [h]

@[simp] theorem State.sessionExpiry_part (s : State) (id : Nat) (h : p ≠ .sec) : (s.sessionExpiry id).part p = s.part p := by
  unfold State.sessionExpiry
  (repeat' split) <;> simp [h]

@[simp] theorem secRights_part (c : Cmd) (s : State) (h : p ≠ .sys) : (secRights c s).2.part p = s.part p := by
  unfold secRights
  dsimp only
  (repeat' split) <;> simp [h]

@[simp] theorem secStatus_part (c : Cmd) (s : State) : (secStatus c s).2.part p = s.part p := by
  unfold secStatus
  dsimp only
  (repeat' split) <;> simp

@[simp] theorem State.openDebug_part (s : State) (level until_ : Nat) (h : p ∉ [.sys, .dbg]) : (s.openDebug level until_).part p = s.part p := by
  simp at h
  unfold State.openDebug
  dsimp only
  split
  · exact (State.modSys_part _ _ h.1).trans ((State.setDbg_part _ _ h.2).trans (s.raiseNow_part _ _ _ _ _))
  · exact (State.setDbg_part _ _ h.2).trans (s.raiseNow_part _ _ _ _ _)

@[simp] theorem dbgOpen_part (c : Cmd) (s : State) (h : p ∉ [.sys, .dbg]) : (dbgOpen c s).2.part p = s.part p := by
  simp at h
  unfold dbgOpen
  dsimp only
  (repeat' split) <;> simp [h]

@[simp] theorem dbgClose_part (c : Cmd) (s : State) (h : p ∉ [.sys, .dbg]) : (dbgClose c s).2.part p = s.part p := by
  simp at h
  unfold dbgClose
  (repeat' split) <;> simp [h]

@[simp] theorem State.debugExpiry_part (s : State) (h : p ∉ [.sys, .dbg]) : s.debugExpiry.part p = s.part p := by
  simp at h
  unfold State.debugExpiry
  (repeat' split) <;> simp [h]


/-! ### Power states (R495 to R501) -/

@[simp] theorem State.powerEvent_part (s : State) (old new_ : Nat) : (s.powerEvent old new_).part p = s.part p := by
  unfold State.powerEvent
  (repeat' split) <;> simp

@[simp] theorem State.setPower_part (s : State) (v : Nat) (h : p ≠ .pwr) : (s.setPower v).part p = s.part p := s.setPwr_part _ h

@[simp] theorem State.setKept_part (s : State) (m : Nat) (h : p ≠ .sys) : (s.setKept m).part p = s.part p := s.modSys_part _ h

@[simp] theorem State.setTrim_part (s : State) (trim : Bool) (h : p ∉ [.sys, .pwr]) : (s.setTrim trim).part p = s.part p := by
  simp at h
  unfold State.setTrim
  dsimp only
  (repeat' split) <;> simp [h]

@[simp] theorem pwrConfig_part (c : Cmd) (s : State) (h : p ∉ [.sys, .pwr]) : (pwrConfig c s).2.part p = s.part p := by
  simp at h
  simp [pwrConfig, h]

@[simp] theorem pwrState_part (c : Cmd) (s : State) (h : p ∉ [.sys, .pend, .lines, .streams, .pwr, .trig]) : (pwrState c s).2.part p = s.part p := by
  simp at h
  unfold pwrState
  dsimp only
  (repeat' split) <;> simp [h]

@[simp] theorem State.powerApplied_part (s : State) (status : Nat) (h : p ≠ .pend) : (s.powerApplied status).part p = s.part p := by
  unfold State.powerApplied
  (repeat' split) <;> simp [h]

@[simp] theorem State.enterP2_part (s : State) (h : p ∉ [.streams, .pwr, .quads, .mem, .therm]) : s.enterP2.part p = s.part p := by
  simp at h
  simp [State.enterP2, foldl_part, h]

@[simp] theorem State.p2Entered_part (s : State) (h : p ∉ [.streams, .pwr, .quads, .mem, .therm, .pend]) : s.p2Entered.part p = s.part p := by
  simp at h
  unfold State.p2Entered
  dsimp only
  (repeat' split) <;> simp [h]

@[simp] theorem State.ownStart_part (s : State) (lines : List Nat) (h : p ∉ [.pend, .lines, .quads]) : (s.ownStart lines).part p = s.part p := by
  simp at h
  have one (s : State) (l : Nat) : (match (s.modLine l (fun r => { r with st := 1, from_ := s.now })).nextDeckle l s.now with
      | some d => (s.modLine l (fun r => { r with st := 1, from_ := s.now })).wakeFor l d
      | none => s.modLine l (fun r => { r with st := 1, from_ := s.now })).part p = s.part p := by
    split <;> simp [h]
  unfold State.ownStart
  split
  · rfl
  · exact (State.setPend_part _ _ h.1).trans (foldl_part _ one _ s)

@[simp] theorem State.resumeKept_part (s : State) (resume : Bool) (h : p ∉ [.sys, .pend, .lines, .quads]) : (s.resumeKept resume).part p = s.part p := by
  simp at h
  unfold State.resumeKept
  (repeat' split) <;> simp [h]

@[simp] theorem State.p2Exit_part (s : State) (h : p ∉ [.sys, .pend, .lines, .pwr, .health, .quads, .mem, .therm]) : s.p2Exit.part p = s.part p := by
  simp at h
  unfold State.p2Exit
  dsimp only
  split
  · split
    · rfl
    · simp [foldl_part, h]
  · rfl

@[simp] theorem State.wakeFw_part (s : State) (ok : Nat → Bool) (h : p ∉ [.sys, .sec]) : (s.wakeFw ok).1.part p = s.part p := by
  simp at h
  unfold State.wakeFw
  dsimp only
  (repeat' split) <;> simp [h]


@[simp] theorem State.wakeTime_part (s : State) (h : p ≠ .tb) : s.wakeTime.part p = s.part p := by
  unfold State.wakeTime
  dsimp only
  (repeat' split) <;> simp [h]


/-! ### Boot and restore (R472 to R474, R544) -/

@[simp] theorem State.powerUp_part (s : State) (h : p ∉ [.tb, .pwr, .ltune]) : s.powerUp.part p = s.part p := by
  simp at h
  unfold State.powerUp
  split
  · rfl
  · cases p with
    | tb | pwr | ltune => simp at h
    | _ => rfl

@[simp] theorem State.chooseFw_part (s : State) (ok : Nat → Bool) : (s.chooseFw ok).1.part p = s.part p :=
  foldl_part _ (fun s n => s.fwEvent_part 3 n _) _ s


@[simp] theorem State.bootLacks_part (s : State) (k i : Nat) (h : p ≠ .health) : (s.bootLacks k i).part p = s.part p := by
  unfold State.bootLacks
  (repeat' split) <;> simp [h]

@[simp] theorem State.bootVacate_part (s : State) (k i : Nat) (h : p ∉ [.health, .lines, .tiles, .therm]) : (s.bootVacate k i).part p = s.part p := by
  simp at h
  unfold State.bootVacate
  dsimp only
  (repeat' split) <;> simp [h]

@[simp] theorem State.applyRetirements_part (s : State) (h : p ∉ [.lines, .health, .quads, .cal, .tiles, .therm]) :
    s.applyRetirements.part p = s.part p := by
  simp at h
  unfold State.applyRetirements
  dsimp only
  refine (foldl_part _ (fun s q => ?_) _ _).trans ((foldl_part _ (fun s e => ?_) _ _).trans (foldl_part _ (fun s e => ?_) _ s))
  · simp [h]
  · split <;> simp [h]
  · simp [h]

@[simp] theorem State.reportLosses_part (s : State) : s.reportLosses.part p = s.part p := by
  exact (State.setWarn_part _ _).trans (foldl_part _ (fun s r => by simp) _ s)

theorem State.setPwrTbSys_part (s : State) (x : Power) (b : TimeBase) (y : Sys) (h : p ∉ [.sys, .tb, .pwr]) :
    ({ s with pwr := x, tb := b, sys := y } : State).part p = s.part p := by
  cases p with
  | sys | tb | pwr => simp at h
  | _ => rfl

/-- The trial that ended without a commit falls back. -/
theorem State.trialFallsBack_part (s : State) (h : p ≠ .sec) :
    (if s.sec.trialRunning then (s.modSec (fun c => { c with trialRunning := false })).fwEvent 3 s.sec.running (s.fwVersion s.sec.running) else s).part p =
      s.part p := by
  split <;> simp [h]


@[simp] theorem State.release_part (s : State) (f : BootFacts) (h : p ∉ [.sys, .tb, .lines, .sec, .pwr, .health, .quads, .cal, .tiles, .therm]) :
    (s.release f).part p = s.part p := by
  simp at h
  unfold State.release
  split
  · rfl
  · have start (x : Power) (b : TimeBase) (y : Sys) : ({ s with pwr := x, tb := b, sys := y } : State).reportLosses.part p = s.part p :=
      (State.reportLosses_part _).trans (s.setPwrTbSys_part x b y (by simp [h]))
    dsimp only
    split
    · rw [State.modSys_part _ _ h.1, State.modSec_part _ _ h.2.2.2.1, State.chooseFw_part, State.trialFallsBack_part _ h.2.2.2.1, start]
    · rw [State.applyRetirements_part _ (by simp [h]), State.modSys_part _ _ h.1, State.modSec_part _ _ h.2.2.2.1, State.chooseFw_part,
        State.trialFallsBack_part _ h.2.2.2.1, start]

theorem State.setMemMaskMem_part (s : State) (mask : Nat) (m : MemRun) (h : p ∉ [.mem, .memMask]) :
    ({ s with memMask := mask, mem := m } : State).part p = s.part p := by
  cases p with
  | mem | memMask => simp at h
  | _ => rfl


@[simp] theorem State.trainDram_part (s : State) (mask : Nat) (cached : Bool) (ms : Nat) (failed changed : List Nat) (h : p ∉ [.mem, .memMask]) :
    (s.trainDram mask cached ms failed changed).part p = s.part p := by
  simp at h
  unfold State.trainDram
  dsimp only
  rw [State.raiseNow_part, foldl_part _ (fun s c => s.raiseNow_part _ _ _ _ _), State.setMemMaskMem_part _ _ _ (by simp [h])]

@[simp] theorem State.dramTrained_part (s : State) (cached : Bool) (ms : Nat) (failed changed : List Nat) (h : p ∉ [.sys, .health, .mem, .memMask]) :
    (s.dramTrained cached ms failed changed).part p = s.part p := by
  simp at h
  unfold State.dramTrained
  dsimp only
  (repeat' split) <;> simp [h]

theorem State.setRestored_part (s : State) (g : Retained) (mask cap : Nat) (c : Cal) (gr : List LineGrid) (z : List ZoneRun) (fe : List FeltRing)
    (sl : List SlowRun) (h : p ∉ [.cfg, .memMask, .capMibNow, .cal, .grid, .zones, .felt, .slow]) :
    ({ s with cfg := g, memMask := mask, capMibNow := cap, cal := c, grid := gr, zones := z, felt := fe, slow := sl } : State).part p = s.part p := by
  cases p with
  | cfg | memMask | capMibNow | cal | grid | zones | felt | slow => simp at h
  | _ => rfl


@[simp] theorem State.restoreCfg_part (s : State) (image : Retained) (saved resume : Bool) (kernelSigs : Nat) (h : p ∉ [.cfg, .memMask, .capMibNow, .cal, .grid, .zones, .felt, .slow, .trig]) :
    (s.restoreCfg image saved resume kernelSigs).part p = s.part p := by
  simp at h
  unfold State.restoreCfg
  dsimp only
  split
  · rw [foldl_part _ (fun s c => s.armOne_part c 0 (by simp [h])), foldl_part _ (fun s _ => s.authFailed_part 0x0601 0),
      s.setRestored_part _ _ _ _ _ _ _ _ (by simp [h])]
  · rw [foldl_part _ (fun s _ => s.authFailed_part 0x0601 0), s.setRestored_part _ _ _ _ _ _ _ _ (by simp [h])]

@[simp] theorem State.mailboxesReady_part (s : State) (h : p ≠ .mbs) : s.mailboxesReady.part p = s.part p := by
  simp [State.mailboxesReady, h]

@[simp] theorem State.bootEvent_part (s : State) (src generation lines : Nat) : (s.bootEvent src generation lines).part p = s.part p := s.raiseNow_part _ _ _ _ _

@[simp] theorem State.restoreComplete_part (s : State) (kernelSigs : Nat) (h : p ∉ [.sys, .cfg, .mbs, .grid, .quads, .cal, .felt, .slow, .trig, .zones, .memMask, .capMibNow]) :
    (s.restoreComplete kernelSigs).part p = s.part p := by
  simp at h
  unfold State.restoreComplete
  dsimp only
  (repeat' split) <;> simp [foldl_part, h]

@[simp] theorem State.resumeLines_part (s : State) (h : p ∉ [.sys, .pend, .lines, .quads]) : s.resumeLines.part p = s.part p := by
  simp at h
  unfold State.resumeLines
  (repeat' split) <;> simp [h]

@[simp] theorem State.p3Exit_part (s : State) (kernelSigs : Nat) (boot : BootFacts) (cached : Bool) (ms : Nat) (failed : List Nat) (h : p ∉ [.sys, .cfg, .pend, .tb, .grid, .lines, .sec, .pwr, .health, .quads, .cal, .felt, .slow, .tiles, .mem, .trig, .therm, .zones, .memMask, .capMibNow]) :
    (s.p3Exit kernelSigs boot cached ms failed).part p = s.part p := by
  simp at h
  unfold State.p3Exit
  dsimp only
  (repeat' split) <;> simp [h]

@[simp] theorem pwrStatus_part (c : Cmd) (s : State) (h : p ≠ .freeUse) : (pwrStatus c s).2.part p = s.part p := by
  simp [pwrStatus, h]

end

/-- A command of another form does not name that form. -/
theorem rd_asForm_ne (c : Cmd) (own other : Nat) (h : own % 256 ≠ other) (h0 : other ≠ 0) : rd (asForm c 0 own [other]).arg 0 1 ≠ other := by
  by_cases hr : rd c.arg 0 1 = other
  · obtain ⟨n, hn⟩ : ∃ n, c.len = n := ⟨_, rfl⟩
    cases n with
    | zero => simp [Cmd.arg, hn, fit, rd, leNat] at hr; omega
    | succ n =>
      cases hp : c.payload with
      | nil => simp [Cmd.arg, hn, hp, fit, rd, leNat, zeros, List.replicate_succ] at hr; omega
      | cons b l =>
        have hb : b.toNat = other := by simpa [Cmd.arg, hn, hp, fit, rd, leNat] using hr
        simp [asForm, hb, Cmd.arg, hn, hp, fit, rd, leNat, h]
  · simp [asForm, hr]

/-- A command in the form of a read of `sys.time` changes nothing. -/
theorem sysTime_read_part {p : StatePart} (c : Cmd) (s : State) : (sysTime (asForm c 0 0 [1]) s).2.part p = s.part p := by
  have hop : rd (asForm c 0 0 [1]).arg 0 1 ≠ 1 := rd_asForm_ne c 0 1 (by decide) (by decide)
  unfold sysTime
  dsimp only
  split
  next => simp
  next hc =>
    have h0 : rd (asForm c 0 0 [1]).arg 0 1 = 0 := by simp at hc; omega
    rw [if_pos h0]
    rfl

/-- Settles O26: a row is `finish` of one operation or of one command; its `_part` lemma names the components it may write. A reset lists them all. -/
theorem systemFrames : Obligations.SystemFrames := by
  intro i s u hf hx p hp
  rw [State.keeps_iff]
  cases i with
  | shutdownComplete | resetBegins | trialBootTimeout | p3Entered | powerLoss | resetNLow => cases p <;> simp [writesOf] at hp
  | snapshotCommitted | sysTimeSetBoundary | nonceExpiry | serviceExpiry | fwEraseDone | sessionExpiry | debugLevelExpiry | p2Entered | p2Exit
    | p3Exit | targetedTestDone | noSpare | sramError | d2dLaneError | selftestSegmentDone | sensorSample | counterSaturated | fuseRepairDone
    | pwrWarnRise | pwrWarnClear | powerUp | releaseFromReset | dramTrained | restoreComplete | resumeLinesStart =>
    unfold exec at hx
    simp only [writesOf, List.mem_cons, List.not_mem_nil, or_false, not_or] at hp
    exact part_of_finish hx fun s => by simp [hp]
  | sysTimeRead t c =>
    unfold exec at hx
    exact part_of_finish hx fun s => State.hostCommand_part s 0x0106 (fun _ => sysTime (asForm c 0 0 [1])) _ (by simpa [writesOf] using hp)
      fun _ s => sysTime_read_part c s
  | sysIdentify | sysSnapshot | sysRestore | sysShutdown | sysReset | sysTimeSet | sysStatus | sysEvents | secChallenge | secEnroll | secServiceEnter
    | secServiceLeave | secScrap | secFwLoad | secFwActivate | secFwCommit | secSessionOpen | secSessionClose | secRights | secStatus | dbgOpen
    | dbgClose | pwrConfig | pwrState | pwrStatus | healthStatus | healthUnits | healthTest | healthAccept | healthFuseRepair | healthResults
    | healthSensors | healthLimits | healthLogRead =>
    unfold exec at hx
    simp only [writesOf, List.mem_cons, List.not_mem_nil, or_false, not_or] at hp
    exact part_of_hostCommand hx (by simp [hp]) fun c s => by simp [hp]
  | _ => cases hf

end Sys2Proof.Machine

/-! PROOFS of the BAR2 window: where the frames of host accesses fail. -/

namespace Sys2Proof.Machine

@[simp] theorem State.denyWindow_part {p : StatePart} (s : State) (h : p ≠ .pcie) : s.denyWindow.part p = s.part p := s.setPcie_part _ h

@[simp] theorem State.barRead_part {p : StatePart} (s : State) (offset n : Nat) (h : p ∉ [.pcie, .health, .mem]) :
    (s.barRead offset n).part p = s.part p := by
  simp at h
  unfold State.barRead
  dsimp only
  (repeat' split) <;> simp [State.readBy_part, h]

/-- Refutes O25: `writesOf` does not list DRAM for BAR2_WINDOW_READ, but the read brings the running host kernels up to its instant (R229, R434), and
their stores go to DRAM. -/
theorem not_hostAccessFrames : ¬ Obligations.HostAccessFrames := by
  intro h
  have hkept : ((storingKernel.atInstant 1000).runTiles.barRead 0 0).settle.dram = storingKernel.dram :=
    h (.bar2WindowRead 1000 0 0) storingKernel _ rfl rfl .dram (by decide)
  have hread : (((storingKernel.atInstant 1000).stepTile 0).barRead 0 0).dram = ((storingKernel.atInstant 1000).stepTile 0).dram :=
    State.barRead_part (p := .dram) _ 0 0 (by decide)
  simp only [State.settle_frame] at hkept
  rw [storingKernel_run, hread] at hkept
  have hstored : ((storingKernel.atInstant 1000).stepTile 0).dram ≠ storingKernel.dram := by decide
  exact hstored hkept

end Sys2Proof.Machine

/-! PROOFS of what tile, trigger and capture commands and host accesses leave unchanged. -/

namespace Sys2Proof.Machine

section
variable {p : StatePart}

/-! ### Tiles (Tables 7.14 to 7.16) -/

@[simp] theorem tileKernelLoad_part (c : Cmd) (s : State) (h : p ∉ [.cfg, .tiles]) : (tileKernelLoad c s).2.part p = s.part p := by
  simp at h
  unfold tileKernelLoad
  dsimp only
  (repeat' split) <;> simp [h]

@[simp] theorem tileKernelUnload_part (c : Cmd) (s : State) (h : p ≠ .cfg) : (tileKernelUnload c s).2.part p = s.part p := by
  unfold tileKernelUnload
  dsimp only
  (repeat' split) <;> simp [h]

@[simp] theorem tileRun_part (c : Cmd) (s : State) (h : p ∉ [.pend, .tiles]) : (tileRun c s).2.part p = s.part p := by
  simp at h
  unfold tileRun
  dsimp only
  (repeat' split) <;> simp [h]

@[simp] theorem tileStatus_part (c : Cmd) (s : State) (h : p ∉ [.health, .tiles]) : (tileStatus c s).2.part p = s.part p := by
  simp at h
  simp [tileStatus, h]


/-! ### Triggers and captures (R246 to R276) -/

@[simp] theorem trigDefine_part (c : Cmd) (s : State) (h : p ≠ .cfg) : (trigDefine c s).2.part p = s.part p := by
  unfold trigDefine
  dsimp only
  (repeat' split) <;> simp [h]

@[simp] theorem trigArm_part (c : Cmd) (s : State) (h : p ≠ .pend) : (trigArm c s).2.part p = s.part p := by
  unfold trigArm
  dsimp only
  (repeat' split) <;> simp [h]

@[simp] theorem trigRebase_part (c : Cmd) (s : State) (h : p ≠ .pend) : (trigRebase c s).2.part p = s.part p := by
  unfold trigRebase
  dsimp only
  (repeat' split) <;> simp [h]

@[simp] theorem trigOut_part (c : Cmd) (s : State) (h : p ≠ .cfg) : (trigOut c s).2.part p = s.part p := by
  unfold trigOut
  dsimp only
  (repeat' split) <;> simp [h]

@[simp] theorem trigStatus_part (c : Cmd) (s : State) (h : p ∉ [.health, .trig]) : (trigStatus c s).2.part p = s.part p := by
  simp at h
  unfold trigStatus
  dsimp only
  (repeat' split) <;> simp [h]

@[simp] theorem capForce_part (c : Cmd) (s : State) (h : p ∉ [.trig, .zones]) : (capForce c s).2.part p = s.part p := by
  simp at h
  unfold capForce
  dsimp only
  (repeat' split) <;> simp [h]

@[simp] theorem capConfig_part (c : Cmd) (s : State) (h : p ≠ .cfg) : (capConfig c s).2.part p = s.part p := by
  unfold capConfig
  dsimp only
  (repeat' split) <;> simp [h]

@[simp] theorem capRawArm_part (c : Cmd) (s : State) (h : p ≠ .trig) : (capRawArm c s).2.part p = s.part p := by
  unfold capRawArm
  dsimp only
  (repeat' split) <;> simp [h]

@[simp] theorem capRawStop_part (c : Cmd) (s : State) (h : p ∉ [.pend, .streams, .trig]) : (capRawStop c s).2.part p = s.part p := by
  simp at h
  unfold capRawStop
  dsimp only
  (repeat' split) <;> simp [h]

@[simp] theorem capList_part (c : Cmd) (s : State) : (capList c s).2.part p = s.part p := by
  unfold capList
  dsimp only
  (repeat' split) <;> simp

@[simp] theorem State.writeStorm_part (s : State) (l : Nat) (h : p ∉ [.health, .dram, .mem]) : (s.writeStorm l).part p = s.part p := by
  simp at h
  unfold State.writeStorm
  dsimp only
  (repeat' split) <;> simp [h]

@[simp] theorem capRelease_part (c : Cmd) (s : State) (h : p ∉ [.health, .dram, .mem, .trig]) : (capRelease c s).2.part p = s.part p := by
  simp at h
  unfold capRelease
  dsimp only
  (repeat' split) <;> simp [foldl_part, h]

@[simp] theorem capStatus_part (c : Cmd) (s : State) (h : p ∉ [.health, .trig]) : (capStatus c s).2.part p = s.part p := by
  simp at h
  simp [capStatus, h]


/-! ### Host accesses (R416, R434, R502) -/

@[simp] theorem State.winBaseWrite_part (s : State) (v : BitVec 64) (h : p ≠ .pcie) : (s.winBaseWrite v).part p = s.part p := s.setPcie_part _ h

@[simp] theorem State.barWrite_part (s : State) (offset : Nat) (data : List Byte) (h : p ∉ [.pcie, .health, .dram, .mem]) :
    (s.barWrite offset data).part p = s.part p := by
  simp at h
  unfold State.barWrite
  dsimp only
  (repeat' split) <;> simp [h]

@[simp] theorem State.debugPoke_part (s : State) (o : Nat) (v : Byte) (h : p ∉ [.dbg, .health, .dram, .mem]) : (s.debugPoke o v).part p = s.part p := by
  simp at h
  unfold State.debugPoke
  dsimp only
  (repeat' split) <;> simp [h]

@[simp] theorem State.debugAccess_part (s : State) (o : Nat) (write : Bool) (data : List Byte) (h : p ∉ [.freeUse, .dbg, .health, .dram, .mem]) :
    (s.debugAccess o write data).part p = s.part p := by
  simp at h
  unfold State.debugAccess
  split
  · exact foldl_part _ (fun s e => s.debugPoke_part _ _ (by simp [h])) _ s
  · exact (State.setFree_part _ _ h.1).trans (s.emit1_part _)

theorem State.setDbgFree_part (s : State) (x : Debug) (n : Nat) (h : p ∉ [.freeUse, .dbg]) : ({ s with dbg := x, free := n } : State).part p = s.part p := by
  cases p with
  | freeUse | dbg => simp at h
  | _ => rfl


@[simp] theorem State.haltCpc_part (s : State) (h : p ∉ [.freeUse, .dbg]) : s.haltCpc.part p = s.part p := by
  simp at h
  unfold State.haltCpc
  split
  · rfl
  · exact s.setDbgFree_part _ _ (by simp [h])

@[simp] theorem State.runCpc_part (s : State) (halted : Bool) (h : p ∉ [.freeUse, .dbg]) : (s.runCpc halted).part p = s.part p := by
  simp at h
  exact s.setDbgFree_part _ _ (by simp [h])

@[simp] theorem State.jtag_part (s : State) (op : JtagOp) (h : p ∉ [.freeUse, .dbg]) : (s.jtag op).part p = s.part p := by
  simp at h
  unfold State.jtag
  (repeat' split) <;> simp [h]

@[simp] theorem State.pokeByte_part (s : State) (a : Nat) (b : Byte) (h : p ∉ [.mbs, .vectors, .pcie]) : (s.pokeByte a b).part p = s.part p := by
  simp at h
  unfold State.pokeByte
  (repeat' split) <;> simp [h]

@[simp] theorem State.registerWrite_part (s : State) (a : Nat) (data : List Byte) (h : p ∉ [.mbs, .ctxs, .streams, .vectors, .pcie]) :
    (s.registerWrite a data).part p = s.part p := by
  simp at h
  unfold State.registerWrite
  (repeat' split) <;> simp [foldl_part, h]

@[simp] theorem State.clearDone_part (s : State) (n : Nat) (h : p ≠ .mbs) : (s.clearDone n).part p = s.part p := by
  simp [State.clearDone, h]

@[simp] theorem State.ltuneWrite_part (s : State) (reg : Nat) (code : BitVec 16) (h : p ≠ .ltune) : (s.ltuneWrite reg code).part p = s.part p := by
  unfold State.ltuneWrite
  split
  · cases p with
    | ltune => exact absurd rfl h
    | _ => rfl
  · rfl

@[simp] theorem State.alertResponse_part (s : State) (h : p ≠ .health) : s.alertResponse.part p = s.part p := by
  unfold State.alertResponse
  (repeat' split) <;> simp [h]

@[simp] theorem State.zsp_part (s : State) (n edges : Nat) (h : p ≠ .panel) : (s.zsp n edges).part p = s.part p := by
  unfold State.zsp
  (repeat' split) <;> simp [h]

@[simp] theorem State.ppsOutFall_part (s : State) (h : p ≠ .tb) : s.ppsOutFall.part p = s.part p := by
  unfold State.ppsOutFall
  (repeat' split) <;> simp [h]

@[simp] theorem State.trailLink_part (s : State) (q : Nat) (up : Bool) (h : p ≠ .trail) : (s.trailLink q up).part p = s.part p := by
  unfold State.trailLink
  (repeat' split) <;> simp [h]

end



end Sys2Proof.Machine

/-! PROOFS of what tiles, conditions and captures leave unchanged as they run. -/

namespace Sys2Proof.Machine

section
variable {p : StatePart}

/-! ### Tiles: how a job starts and ends (R210, R233, R234) -/

@[simp] theorem State.modTile_part (s : State) (n : Nat) (f : Tile → Tile) (h : p ≠ .tiles) : (s.modTile n f).part p = s.part p := s.modPool_part _ h

/-- A dispatch changes the pool alone, once the running kernels are at its instant. -/
@[simp] theorem State.dispatch_part (s : State) (n setup : Nat) (delays : List Nat) (h : p ≠ .tiles) :
    (s.dispatch n setup delays).part p = s.runTiles.part p := by
  unfold State.dispatch
  dsimp only
  (repeat' split) <;> simp [h]


@[simp] theorem State.freeTile_part (s : State) (n : Nat) (c : Completion) (h : p ≠ .tiles) : (s.freeTile n c).part p = s.part p := by
  unfold State.freeTile
  (repeat' split) <;> simp [h]

@[simp] theorem State.hostDone_part (s : State) (n id serial status cycles : Nat) (h : p ∉ [.pend, .tiles]) :
    (s.hostDone n id serial status cycles).part p = s.part p := by
  simp at h
  unfold State.hostDone
  dsimp only
  (repeat' split) <;> simp [h]

@[simp] theorem State.jobDone_part (s : State) (n : Nat) (f : TileFacts) (h : p ∉ [.pend, .tiles]) : (s.jobDone n f).part p = s.runTiles.part p := by
  simp at h
  unfold State.jobDone
  dsimp only
  (repeat' split) <;> simp [h]


@[simp] theorem State.abortEvent_part (s : State) (n cause : Nat) (k : JobKind) (pc : Nat) (h : p ≠ .tiles) :
    (s.abortEvent n cause k pc).part p = s.part p := by
  simp [State.abortEvent, h]

@[simp] theorem State.loseTrigger_part (s : State) (l q g : Nat) (h : p ≠ .trig) : (s.loseTrigger l q g).part p = s.part p := by
  refine (State.raiseLine_part _ _ _ _ _ _ _).trans ?_
  cases p with
  | trig => exact absurd rfl h
  | _ => rfl

@[simp] theorem State.redispatch_part (s : State) (n : Nat) (j : Job) (h : p ≠ .tiles) : (s.redispatch n j).part p = s.part p := by
  simp [State.redispatch, h]

@[simp] theorem Run.settle_part (r : Run) (n : Nat) (e : Option RunEnd) (h : p ≠ .tiles) : (r.settle n e).part p = r.s.part p :=
  r.s.modTile_part n _ h



/-! ### Conditions (R242 to R254) -/

@[simp] theorem State.modCond_part (s : State) (c : Nat) (f : CondRun → CondRun) (h : p ≠ .trig) : (s.modCond c f).part p = s.part p := s.modTrig_part _ h

@[simp] theorem State.modLt_part (s : State) (l : Nat) (f : LineTrig → LineTrig) (h : p ≠ .trig) : (s.modLt l f).part p = s.part p := s.modTrig_part _ h

@[simp] theorem State.modSet_part (s : State) (n : Nat) (f : RawSet → RawSet) (h : p ≠ .trig) : (s.modSet n f).part p = s.part p := s.modTrig_part _ h

@[simp] theorem State.lineHit_part (s : State) (l : Nat) (x : Hit) (h : p ≠ .trig) : (s.lineHit l x).part p = s.part p := s.modTrig_part _ h

@[simp] theorem State.pulseOuts_part (s : State) (c : Nat) (h : p ≠ .trig) : (s.pulseOuts c).part p = s.part p := s.modTrig_part _ h

@[simp] theorem State.queueBcast_part (s : State) (c : Nat) (d : CondDef) (stamp : BitVec 96) (h : p ≠ .trig) :
    (s.queueBcast c d stamp).part p = s.part p := by
  unfold State.queueBcast
  (repeat' split) <;> simp [h]

@[simp] theorem State.trigEdge_part (s : State) (n : Nat) (rising : Bool) (heldNs : Nat) (h : p ∉ [.tiu, .trig, .zones]) :
    (s.trigEdge n rising heldNs).part p = s.part p := by
  simp at h
  unfold State.trigEdge
  dsimp only
  (repeat' split) <;> simp [h]

@[simp] theorem State.forwardBcast_part (s : State) (rx : TrailRx) : (s.forwardBcast rx).part p = s.part p := by
  refine foldl_part _ (fun s q => ?_) _ s
  split <;> simp

@[simp] theorem State.bcastRx_part (s : State) (rx : TrailRx) (h : p ∉ [.tiu, .trail, .trig, .zones]) : (s.bcastRx rx).part p = s.part p := by
  simp at h
  unfold State.bcastRx
  dsimp only
  (repeat' split) <;> simp [h]

@[simp] theorem State.outAssert_part (s : State) (o : Nat) (h : p ≠ .trig) : (s.outAssert o).part p = s.part p := by
  unfold State.outAssert
  (repeat' split) <;> simp [h]

@[simp] theorem State.outEnd_part (s : State) (o : Nat) (h : p ≠ .trig) : (s.outEnd o).part p = s.part p := by
  unfold State.outEnd
  (repeat' split) <;> simp [h]

@[simp] theorem State.decideRow_part (s : State) (l : Nat) (v : SlowSheet) (lost : List Nat) (h : p ∉ [.trig, .zones]) :
    (s.decideRow l v lost).part p = s.part p := by
  simp at h
  unfold State.decideRow
  refine (State.toZones_part _ _ _ h.2).trans (foldl_keeps (fun a : State × List (Nat × List Nat) => a.1.part p) (fun a c => ?_) _ (s, []))
  dsimp only
  (repeat' split) <;> simp [foldl_part, h]

@[simp] theorem State.decideHits_part (s : State) (l : Nat) (h : p ∉ [.slow, .tiles, .trig, .zones]) : (s.decideHits l).part p = s.part p := by
  simp at h
  unfold State.decideHits
  dsimp only
  (repeat' split) <;> simp [foldl_part, h]

theorem State.atCondQuire_part (s : State) (c : Nat) {f : State → State} (hf : (f s).part p = s.part p) : (s.atCondQuire c f).part p = s.part p := by
  unfold State.atCondQuire
  (repeat' split) <;> simp [State.atQuireBegin_part, hf]


@[simp] theorem State.rebaseRow_part (s : State) (c : Nat) (h : p ∉ [.pend, .trig]) : (s.rebaseRow c).part p = s.part p := by
  simp at h
  exact s.atCondQuire_part c (by simp [h])

@[simp] theorem State.armRow_part (s : State) (c : Nat) (h : p ∉ [.cfg, .pend, .streams, .health, .dram, .felt, .mem, .trig, .zones]) :
    (s.armRow c).part p = s.part p := by
  simp at h
  simp [State.armRow, State.atCondQuire_part, h]


/-! ### Captures (R255 to R276) -/

@[simp] theorem State.miss_part (s : State) (l : Nat) (x : Hit) (h : p ≠ .trig) : (s.miss l x).part p = s.part p := s.modTrig_part _ h

@[simp] theorem State.notMade_part (s : State) (l causes node : Nat) (stamp : BitVec 96) (lo hi : Nat) (h : p ∉ [.health, .dram, .mem, .trig]) :
    (s.notMade l causes node stamp lo hi).part p = s.part p := by
  simp at h
  unfold State.notMade
  dsimp only
  (repeat' split) <;> simp [h]

@[simp] theorem State.closeStorm_part (s : State) (l : Nat) (h : p ≠ .trig) : (s.closeStorm l).part p = s.part p := by
  unfold State.closeStorm
  (repeat' split) <;> simp [h]

@[simp] theorem State.takeMissed_part (s : State) (line : Nat) (conds : List Nat) (h : p ≠ .trig) : (s.takeMissed line conds).1.part p = s.part p :=
  foldl_part _ (fun s c => s.modCond_part c _ h) _ s


/-- A capture is entered: its record, its causes' counts, the end of the line's storm, its hold and its table entry. -/
def State.entered (s : State) (l : Nat) (conds : List Nat) (g : TrigState → TrigState) (f : FeltRing → FeltRing) (r : CapRec) : State :=
  (((conds.foldl (fun s c => s.modCond c (fun k => { k with captures := satAdd k.captures 1 })) (s.modTrig g)).closeStorm l).modFelt l f).writeEntry r

set_option maxRecDepth 2000 in
/-- A region is entered as a capture, or in the storm record. -/
theorem State.makeCapture_cases (s : State) (l row : Nat) (r : Region) :
    (∃ conds g f rec_, s.makeCapture l row r = (s.takeMissed l conds).1.entered l conds g f rec_) ∨
      ∃ causes node stamp, s.makeCapture l row r = s.notMade l causes node stamp r.lo r.hi := by
  unfold State.makeCapture
  dsimp only
  split
  · exact Or.inl ⟨_, _, _, _, rfl⟩
  · exact Or.inr ⟨_, _, _, rfl⟩


@[simp] theorem State.entered_part (s : State) (l : Nat) (conds : List Nat) (g : TrigState → TrigState) (f : FeltRing → FeltRing) (r : CapRec) (h : p ∉ [.health, .dram, .mem, .trig, .felt]) :
    (s.entered l conds g f r).part p = s.part p := by
  simp at h
  simp [State.entered, foldl_part, h]

@[simp] theorem State.makeCapture_part (s : State) (l row : Nat) (r : Region) (h : p ∉ [.health, .dram, .mem, .trig, .felt]) :
    (s.makeCapture l row r).part p = s.part p := by
  simp at h
  obtain ⟨conds, g, f, rec_, hr⟩ | ⟨causes, node, stamp, hr⟩ := s.makeCapture_cases l row r
  · rw [hr, State.entered_part _ _ _ _ _ _ (by simp [h]), State.takeMissed_part _ _ _ h.2.2.2.1]
  · rw [hr, State.notMade_part _ _ _ _ _ _ _ (by simp [h])]

@[simp] theorem State.formCapture_part (s : State) (l : Nat) (h : p ∉ [.health, .dram, .mem, .trig, .felt]) : (s.formCapture l).part p = s.part p := by
  simp at h
  unfold State.formCapture
  dsimp only
  (repeat' split) <;> simp [foldl_part, h]

@[simp] theorem State.copyRow_part (s : State) (i : Nat) (h : p ∉ [.streams, .health, .dram, .mem, .trig, .felt]) : (s.copyRow i).part p = s.part p := by
  simp at h
  unfold State.copyRow
  dsimp only
  (repeat' split) <;> simp [foldl_part, h]

@[simp] theorem State.rawTrigger_part (s : State) (n c : Nat) (h : p ≠ .trig) : (s.rawTrigger n c).part p = s.part p := by
  unfold State.rawTrigger
  dsimp only
  (repeat' split) <;> simp [h]

@[simp] theorem State.rawClose_part (s : State) (n : Nat) (h : p ≠ .trig) : (s.rawClose n).part p = s.part p := by
  unfold State.rawClose
  dsimp only
  (repeat' split) <;> simp [h]

@[simp] theorem State.rawRearm_part (s : State) (n : Nat) (h : p ≠ .trig) : (s.rawRearm n).part p = s.part p := by
  unfold State.rawRearm
  dsimp only
  (repeat' split) <;> simp [h]

@[simp] theorem State.rawCopy_part (s : State) (n : Nat) (h : p ∉ [.streams, .health, .dram, .mem, .trig]) : (s.rawCopy n).part p = s.part p := by
  simp at h
  unfold State.rawCopy
  dsimp only
  (repeat' split) <;> simp [foldl_part, h]

@[simp] theorem State.rawDone_part (s : State) (n : Nat) (h : p ∉ [.pend, .trig]) : (s.rawDone n).part p = s.part p := by
  simp at h
  unfold State.rawDone
  dsimp only
  (repeat' split) <;> simp [h]

end



end Sys2Proof.Machine

/-! PROOFS of the canonical form of DRAM under each write. -/

namespace Sys2Proof.Machine

/-! ### What a handler keeps true of a component

`R` speaks of one component; a command protocol that answers keeps it, when the handler does where the checks let it run. -/

section
variable {p : StatePart} {R : p.Val → Prop}

theorem holds_of_part {s u : State} (hu : u.part p = s.part p) (hs : R (s.part p)) : R (u.part p) := hu ▸ hs

theorem judge_holds {op : Nat} {f : Handler} {c : Cmd} {s : State} (hs : R (s.part p)) (hf : precheck op c s = none → R ((f c s).2.part p)) :
    R ((judge op f c s).2.part p) := by
  unfold judge
  split
  · split
    · exact hs
    · exact holds_of_part (s.presentNonce_part op c) hs
  · next hc =>
    dsimp only
    split
    · exact hs
    · exact holds_of_part ((f c s).2.presentNonce_part op c) (hf hc)

theorem State.serve_holds {s : State} {op : Nat} {f : Handler} {c : Cmd} (h : p ≠ .mbs) (hs : R (s.part p))
    (hf : precheck op c s = none → R ((f c s).2.part p)) : R ((s.serve op f c).part p) := by
  unfold State.serve
  extract_lets m d
  split
  · exact holds_of_part ((State.respond_part _ _ _ h).trans (s.modSys_part_of_kept _ fun _ => rfl)) hs
  · split
    · exact holds_of_part ((State.respond_part _ _ _ h).trans (s.modSys_part_of_kept _ fun _ => rfl)) hs
    · exact holds_of_part (State.answer_part _ _ _ _ h) (judge_holds hs hf)

theorem State.hostCommand_holds {s : State} {op : Nat} {f : Handler} {c : Cmd} (h : p ≠ .mbs) (hs : R (s.part p))
    (hf : ∀ u, R (u.part p) → precheck op c u = none → R ((f c u).2.part p)) : R ((s.hostCommand op f c).part p) := by
  unfold State.hostCommand
  dsimp only
  split
  · have hmb (g : Mailbox → Mailbox) : R ((s.modMb c.mb g).part p) := holds_of_part (s.modMb_part _ g h) hs
    split
    · exact hmb _
    · split
      · exact holds_of_part (State.modMb_part _ _ _ h) (hmb _)
      · split
        · exact holds_of_part (State.modMb_part _ _ _ h) (hmb _)
        · exact State.serve_holds h (hmb _) (hf _ (hmb _))
  · split
    · exact hs
    · split
      · exact holds_of_part (s.sendFrame_part _ _ _) hs
      · exact State.serve_holds h hs (hf s hs)

/-- What an operation keeps true, its row keeps true. -/
theorem holds_of_finish {t : Nat} {s u : State} {f : State → State} (hu : finish t s f = .next u) (hs : R (s.part p))
    (hf : ∀ s, R (s.part p) → R ((f s).part p)) : R (u.part p) := by
  obtain rfl : (f (s.atInstant t)).settle = u := Host.Outcome.next.inj hu
  exact holds_of_part (State.settle_part _) (hf _ (holds_of_part (s.atInstant_part t) hs))

/-- What a handler keeps true, the row of its command keeps true. -/
theorem holds_of_hostCommand {t op : Nat} {s u : State} {f : Handler} {c : Cmd} (hu : finish t s (fun s => s.hostCommand op f c) = .next u)
    (h : p ≠ .mbs) (hs : R (s.part p)) (hf : ∀ u, R (u.part p) → precheck op c u = none → R ((f c u).2.part p)) : R (u.part p) :=
  holds_of_finish hu hs fun _ hs => State.hostCommand_holds h hs hf

/-- A command that a mailbox holds. -/
theorem State.runMailbox_holds {s : State} {n : Nat} {fetched : List Byte} {facts : Facts} (h : p ≠ .mbs) (hs : R (s.part p))
    (hf : ∀ op c u, R (u.part p) → precheck op c u = none → R ((handlerOf op c u).2.part p)) : R ((s.runMailbox n fetched facts).part p) :=
  State.serve_holds h hs (hf _ _ s hs)

theorem State.mbDoorbell_holds {s : State} {n : Nat} {fetched : List Byte} {facts : Facts} (h : p ≠ .mbs) (hs : R (s.part p))
    (hf : ∀ op c u, R (u.part p) → precheck op c u = none → R ((handlerOf op c u).2.part p)) : R ((s.mbDoorbell n fetched facts).part p) := by
  have hmb (g : Mailbox → Mailbox) : R ((s.modMb n g).part p) := holds_of_part (s.modMb_part _ g h) hs
  unfold State.mbDoorbell
  dsimp only
  split; · exact hs
  iterate 3 split; · exact hmb _
  exact State.runMailbox_holds h hs hf

theorem State.heldRuns_holds {s : State} {n : Nat} {fetched : List Byte} {facts : Facts} (h : p ≠ .mbs) (hs : R (s.part p))
    (hf : ∀ op c u, R (u.part p) → precheck op c u = none → R ((handlerOf op c u).2.part p)) : R ((s.heldRuns n fetched facts).part p) := by
  unfold State.heldRuns
  dsimp only
  split
  · exact hs
  · exact State.runMailbox_holds h (holds_of_part (s.modMb_part _ _ h) hs) hf

@[simp] theorem State.frameRefused_part (s : State) (n sess reason : Nat) (h : p ≠ .ports) : (s.frameRefused n sess reason).part p = s.part p := by
  simp [State.frameRefused, h]

/-- A frame's counter is in no component. -/
theorem State.rxCounter_part (s : State) (sess counter : Nat) :
    (s.modSec (fun k => { k with sessions := k.sessions.map (fun (e : Session) => if e.id = sess then { e with rxCounter := some counter } else e) })).part
      p = s.part p :=
  s.modSec_part_of_kept _ fun k => k.kept_mapSessions _ fun e => by split <;> rfl

theorem State.mailboxFrame_holds {s : State} {n : Nat} {f : List Byte} {tagOk : Bool} {plain : List Byte} {facts : Facts} (h : p ∉ [.mbs, .ports])
    (hs : R (s.part p)) (hf : ∀ op c u, R (u.part p) → precheck op c u = none → R ((handlerOf op c u).2.part p)) :
    R ((s.mailboxFrame n f tagOk plain facts).part p) := by
  simp at h
  have hport (g : PortRun → PortRun) : R ((s.modPort n g).part p) := holds_of_part (s.modPort_part _ g h.2) hs
  have hrefused (g : PortRun → PortRun) (sess reason : Nat) : R (((s.modPort n g).frameRefused n sess reason).part p) :=
    holds_of_part (State.frameRefused_part _ _ _ _ h.2) (hport g)
  unfold State.mailboxFrame
  split
  · exact hs
  · extract_lets mb sess counter s1 known stale s2 r
    split
    · exact holds_of_part (s.frameDropped_part _ _ h.2) hs
    · split
      · exact hrefused _ _ _
      · split
        · exact hrefused _ _ _
        · split
          · exact hrefused _ _ _
          · exact State.hostCommand_holds h.1 (holds_of_part (State.rxCounter_part _ _ _) (hport _)) (hf _ _)

end

/-- The bytes of DRAM are in canonical form. -/
def DramWf (v : StatePart.Val .dram) : Prop := Memory.wf v = true

/-- A fold keeps the canonical form when each of its steps does. -/
theorem foldl_dramWf {α : Type} (f : State → α → State) (hf : ∀ s a, DramWf (s.part .dram) → DramWf ((f s a).part .dram)) (l : List α) (s : State)
    (h : DramWf (s.part .dram)) : DramWf ((l.foldl f s).part .dram) :=
  foldl_holds (Q := fun s => DramWf (s.part .dram)) (fun s a => hf s a) l h

@[simp] theorem dramWf_ite {c : Prop} [Decidable c] {a b : StatePart.Val .dram} (ha : DramWf a) (hb : DramWf b) : DramWf (if c then a else b) := by
  split
  · exact ha
  · exact hb

theorem dramWf_part_ite {c : Prop} [Decidable c] {a b : State} (ha : DramWf (a.part .dram)) (hb : DramWf (b.part .dram)) :
    DramWf ((if c then a else b).part .dram) := by
  split
  · exact ha
  · exact hb



/-! ### Writes of DRAM (R395 to R402) -/

@[simp] theorem State.writeInBlock_dramWf (s : State) (port a : Nat) (data : List Byte) (h : DramWf (s.part .dram)) :
    DramWf ((s.writeInBlock port a data).part .dram) := s.writeInBlock_wf port a data h

@[simp] theorem State.writeBy_dramWf (s : State) (port a : Nat) (data : List Byte) (h : DramWf (s.part .dram)) :
    DramWf ((s.writeBy port a data).part .dram) := s.writeBy_wf port a data h

@[simp] theorem State.dramWrite_dramWf (s : State) (a : Nat) (data : List Byte) (h : DramWf (s.part .dram)) :
    DramWf ((s.dramWrite a data).part .dram) := s.dramWrite_wf a data h

@[simp] theorem State.poisonBlock_dramWf (s : State) (b : Nat) (h : DramWf (s.part .dram)) : DramWf ((s.poisonBlock b).part .dram) := s.poisonBlock_wf b h

@[simp] theorem State.rowRemap_dramWf (s : State) (r : RowAt) (h : DramWf (s.part .dram)) : DramWf ((s.rowRemap r).part .dram) := by
  unfold State.rowRemap
  (repeat' split) <;> simp +contextual [foldl_dramWf, h]

@[simp] theorem State.decodeBlock_dramWf (s : State) (port a : Nat) (errors : List (Nat × Byte)) (h : DramWf (s.part .dram)) :
    DramWf ((s.decodeBlock port a errors).1.part .dram) := by
  unfold State.decodeBlock
  extract_lets b ch c row stored e n data bad fixed s1
  split
  · exact h
  · have hbad (u : State) (hu : DramWf (u.part .dram)) : DramWf ((bad u).part .dram) := by simpa [bad] using hu
    have hfixed (u : State) (k : Nat) (hu : DramWf (u.part .dram)) : DramWf ((fixed u k).part .dram) := by simpa [fixed] using hu
    split
    · exact hbad s h
    split
    · simpa using h
    split
    · exact h
    split
    · exact hfixed s _ h
    split
    · exact hbad s h
    split
    · exact hbad _ h
    · exact hfixed _ _ (ssetL_swf (m := s.dram) _ _ h)

@[simp] theorem State.readDecode_dramWf (s : State) (port a : Nat) (errors : List (Nat × Byte)) (h : DramWf (s.part .dram)) :
    DramWf ((s.readDecode port a errors).part .dram) := by
  simp (disch := simp [h]) [State.readDecode]

@[simp] theorem State.scrub_dramWf (s : State) (c : Nat) (errors : List (Nat × Byte)) (h : DramWf (s.part .dram)) :
    DramWf ((s.scrub c errors).part .dram) := by
  simp (disch := simp [h]) [State.scrub]


/-! ### Captures and reference records (R257 to R276, R340) -/

@[simp] theorem State.writeEntry_dramWf (s : State) (r : CapRec) (h : DramWf (s.part .dram)) : DramWf ((s.writeEntry r).part .dram) := s.writeBy_wf 2 _ _ h

@[simp] theorem State.freeRec_dramWf (s : State) (i : Nat) (h : DramWf (s.part .dram)) : DramWf ((s.freeRec i).part .dram) := by
  simp (disch := simp [h]) [State.freeRec]

@[simp] theorem State.recReady_dramWf (s : State) (i : Nat) (h : DramWf (s.part .dram)) : DramWf ((s.recReady i).part .dram) := by
  unfold State.recReady
  (repeat' split) <;> simp (disch := simp [h]) [h]

@[simp] theorem State.sweepHolds_dramWf (s : State) (l : Nat) (h : DramWf (s.part .dram)) : DramWf ((s.sweepHolds l).part .dram) := by
  refine foldl_dramWf _ (fun s r h => ?_) _ _ h
  dsimp only
  split <;> simp [h]

@[simp] theorem State.clipCaptures_dramWf (s : State) (l : Nat) (h : DramWf (s.part .dram)) : DramWf ((s.clipCaptures l).part .dram) := by
  refine foldl_dramWf _ (fun s r h => ?_) _ _ h
  dsimp only
  split <;> simp [h]

@[simp] theorem State.discardDisarmed_dramWf (s : State) (c : Nat) (h : DramWf (s.part .dram)) : DramWf ((s.discardDisarmed c).part .dram) := by
  exact foldl_dramWf _ (fun s r h => by simp [h]) _ _ h

@[simp] theorem State.armEffectOf_dramWf (s : State) (c : Nat) (h : DramWf (s.part .dram)) : DramWf ((s.armEffectOf c).part .dram) := by
  unfold State.armEffectOf
  split
  · exact h
  · dsimp only
    (repeat' split) <;> simp [h]

@[simp] theorem State.boundaryConds_dramWf (s : State) (l : Nat) (h : DramWf (s.part .dram)) : DramWf ((s.boundaryConds l).part .dram) := by
  refine foldl_dramWf _ (fun s c h => ?_) _ _ h
  split <;> simp [h]

@[simp] theorem State.writeStorm_dramWf (s : State) (l : Nat) (h : DramWf (s.part .dram)) : DramWf ((s.writeStorm l).part .dram) := by
  unfold State.writeStorm
  dsimp only
  (repeat' split) <;> simp (disch := simp [h]) [h]

theorem State.storms_dramWf (s : State) (l : Nat) (h : DramWf (s.part .dram)) :
    DramWf (((s.modTrig (fun t => { t with storms := t.storms.set l none })).writeStorm l).part .dram) :=
  State.writeStorm_dramWf _ l h


@[simp] theorem State.notMade_dramWf (s : State) (l causes node : Nat) (stamp : BitVec 96) (lo hi : Nat) (h : DramWf (s.part .dram)) :
    DramWf ((s.notMade l causes node stamp lo hi).part .dram) := by
  unfold State.notMade
  dsimp only
  (repeat' split) <;> simp (disch := simp [h]) [h]

@[simp] theorem State.entered_dramWf (s : State) (l : Nat) (conds : List Nat) (g : TrigState → TrigState) (f : FeltRing → FeltRing) (r : CapRec) (h : DramWf (s.part .dram)) :
    DramWf ((s.entered l conds g f r).part .dram) := by
  exact State.writeEntry_dramWf _ r (by simpa [foldl_part] using h)

@[simp] theorem State.makeCapture_dramWf (s : State) (l row : Nat) (r : Region) (h : DramWf (s.part .dram)) :
    DramWf ((s.makeCapture l row r).part .dram) := by
  obtain ⟨conds, g, f, rec_, hr⟩ | ⟨causes, node, stamp, hr⟩ := s.makeCapture_cases l row r <;> simp [hr, h]

@[simp] theorem State.formCapture_dramWf (s : State) (l : Nat) (h : DramWf (s.part .dram)) : DramWf ((s.formCapture l).part .dram) := by
  unfold State.formCapture
  dsimp only
  split
  · simpa using h
  · refine foldl_dramWf _ (fun s r h => s.makeCapture_dramWf l _ r h) _ _ ?_
    split <;> simpa [foldl_part] using h

@[simp] theorem State.copyRow_dramWf (s : State) (i : Nat) (h : DramWf (s.part .dram)) : DramWf ((s.copyRow i).part .dram) := by
  unfold State.copyRow
  split
  · exact h
  · next r _ =>
    extract_lets f to_ lost s1
    have hs1 : DramWf (s1.part .dram) := by
      simp only [s1]
      split
      · simpa using h
      · split <;> simpa [foldl_part] using State.writeBy_dramWf _ _ _ _ (by simpa using h)
    (repeat' split) <;> simp [h, hs1]

@[simp] theorem State.rawCopy_dramWf (s : State) (n : Nat) (h : DramWf (s.part .dram)) : DramWf ((s.rawCopy n).part .dram) := by
  unfold State.rawCopy
  dsimp only
  split
  · exact h
  · split
    · refine State.recReady_dramWf _ _ ?_
      rw [foldl_part _ (fun s c => s.modCond_part c _ (by decide))]
      simp [h]
    · exact h

@[simp] theorem capRelease_dramWf (c : Cmd) (s : State) (h : DramWf (s.part .dram)) : DramWf ((capRelease c s).2.part .dram) := by
  have hfree (l : List Nat) : DramWf ((l.foldl (fun s i => (s.freeRec i).modTrig (fun t => t)) s).part .dram) :=
    foldl_dramWf _ (fun s i h => by simp [h]) _ _ h
  unfold capRelease
  dsimp only
  iterate 3
    split
    · exact h
  exact foldl_dramWf _ (fun s l h => s.storms_dramWf l h) _ _ (hfree _)

@[simp] theorem State.putRef_dramWf (s : State) (inst channel kind flags : Nat) (code : Int) (word : BitVec 32) (res : Nat) (h : DramWf (s.part .dram)) :
    DramWf ((s.putRef inst channel kind flags code word res).part .dram) := by
  simp (disch := simp [h]) [State.putRef]

@[simp] theorem State.putOutputs_dramWf (s : State) (v : RefConv) (x flags : Nat) (l : List (Int × Bool)) (h : DramWf (s.part .dram)) :
    DramWf ((s.putOutputs v x flags l).part .dram) := by
  unfold State.putOutputs
  split
  · exact h
  · exact foldl_dramWf _ (fun s e h => s.putRef_dramWf _ _ _ _ _ _ _ h) _ _ h

@[simp] theorem State.convDone_dramWf (s : State) (w : RefConversion) (h : DramWf (s.part .dram)) : DramWf ((s.convDone w).part .dram) := by
  unfold State.convDone
  split
  · exact h
  · next v0 _ =>
    extract_lets c stop sA sB v plus minus cp code clamp bad base x1 x2 s1 den mOhm pick t out invalid codes va vb var tc word res s2 passed fault s3 s4
    have hB : DramWf (sB.part .dram) := by
      simp only [sB, sA]
      (repeat' split) <;> simpa using h
    have h1 : DramWf (s1.part .dram) := State.putOutputs_dramWf _ _ _ _ _ (sB.putOutputs_dramWf _ _ _ _ hB)
    have h2 : DramWf (s2.part .dram) := State.putRef_dramWf _ _ _ _ _ _ _ _ h1
    have h4 : s4.part .dram = s2.part .dram := by
      have h3 : s3.part .dram = s2.part .dram := s2.modFront_part _ (by decide)
      simp only [s4]
      clear s4
      clear_value fault
      cases fault with
      | none => exact h3
      | some x =>
        dsimp only
        split <;> simp [h3]
    refine dramWf_part_ite h ?_
    rw [State.nextConv_part (p := .dram) _ _ (by decide), State.modFront_part (p := .dram) _ _ (by decide), h4]
    exact h2


/-! ### Felt and lines (R179 to R206) -/

@[simp] theorem State.resizeEffect_dramWf (s : State) (l : Nat) (h : DramWf (s.part .dram)) : DramWf ((s.resizeEffect l).part .dram) := by
  simp (disch := simp [h]) [State.resizeEffect]

@[simp] theorem feltResizeAll_dramWf (c : Cmd) (s : State) (h : DramWf (s.part .dram)) : DramWf ((feltResizeAll c s).2.part .dram) := by
  exact foldl_dramWf _ (fun t l h => by split <;> simp [h]) _ _ (by simpa using h)

@[simp] theorem State.quireBegin_dramWf (s : State) (l : Nat) (h : DramWf (s.part .dram)) : DramWf ((s.quireBegin l).part .dram) := by
  unfold State.quireBegin
  split
  · exact h
  · have hc := State.boundaryConds_dramWf _ l (State.resizeEffect_dramWf ((s.slowConfigEffect l).slowStartEffect l) l (by simpa using h))
    simp [hc]

@[simp] theorem State.quireBeginRow_dramWf (s : State) (l : Nat) (h : DramWf (s.part .dram)) : DramWf ((s.quireBeginRow l).part .dram) := by
  have h1 : DramWf ((s.atQuireBegin l (fun s => s.slowStartEffect l)).part .dram) := by simpa [State.atQuireBegin_part] using h
  unfold State.quireBeginRow
  dsimp only
  split
  · exact State.quireBegin_dramWf _ l h1
  · exact h1

@[simp] theorem State.resizeRow_dramWf (s : State) (l : Nat) (h : DramWf (s.part .dram)) : DramWf ((s.resizeRow l).part .dram) := by
  unfold State.resizeRow State.atQuireBegin
  split
  · exact h
  · exact s.resizeEffect_dramWf l h

@[simp] theorem State.sheetComplete_dramWf (s : State) (l : Nat) (i : SheetInput) (h : DramWf (s.part .dram)) :
    DramWf ((s.sheetComplete l i).part .dram) := by
  unfold State.sheetComplete
  split
  · exact h
  · dsimp only
    split
    · split <;> simp [h]
    · split <;> simp (disch := simp [h]) [h]

@[simp] theorem State.lineStartedRow_dramWf (s : State) (l : Nat) (h : DramWf (s.part .dram)) : DramWf ((s.lineStartedRow l).part .dram) := by
  unfold State.lineStartedRow
  dsimp only
  (repeat' split) <;> simp [h]

@[simp] theorem State.lineStoppedRow_dramWf (s : State) (l : Nat) (h : DramWf (s.part .dram)) : DramWf ((s.lineStoppedRow l).part .dram) := by
  unfold State.lineStoppedRow
  dsimp only
  (repeat' split) <;> simp [h]

@[simp] theorem State.armRow_dramWf (s : State) (c : Nat) (h : DramWf (s.part .dram)) : DramWf ((s.armRow c).part .dram) := by
  have hcond : DramWf ((s.atCondQuire c (fun s => s.armEffectOf c)).part .dram) := by
    unfold State.atCondQuire State.atQuireBegin
    (repeat' split) <;> simp [h]
  simp [State.armRow, hcond]


/-! ### Streams, bales and contexts (chapters 12 and 14) -/

@[simp] theorem State.itemDelivered_dramWf (s : State) (d : StreamDef) (i : Item) (h : DramWf (s.part .dram)) :
    DramWf ((s.itemDelivered d i).part .dram) := by
  unfold State.itemDelivered
  (repeat' split) <;> simp (disch := simp [h]) [h]

@[simp] theorem State.streamMoved_dramWf (s : State) (k : Nat) (d : StreamDef) (fuel n : Nat) (h : DramWf (s.part .dram)) :
    DramWf ((s.streamMoved k d fuel n).part .dram) := by
  induction fuel generalizing s n with
  | zero => exact h
  | succ fuel ih =>
    unfold State.streamMoved
    split
    · exact h
    · split
      · exact h
      · next r _ _ _ _ =>
        have hs1 (l : List (Nat × Item)) : DramWf ((l.foldl (fun s e => s.itemDelivered d e.2) s).part .dram) :=
          foldl_dramWf _ (fun s e h => s.itemDelivered_dramWf d e.2 h) _ _ h
        dsimp only
        split
        · simp [hs1]
        · exact ih _ _ (by simp [hs1])

@[simp] theorem State.jobWrite_dramWf (s : State) (j : BaleJob) (bytes : List Byte) (bad : Bool) (h : DramWf (s.part .dram)) :
    DramWf ((s.jobWrite j bytes bad).part .dram) := by
  unfold State.jobWrite
  dsimp only
  split
  · exact foldl_dramWf _ (fun s b h => s.poisonBlock_dramWf b h) _ _ (s.dramWrite_dramWf _ _ h)
  · exact s.dramWrite_dramWf _ _ h

@[simp] theorem State.jobTaken_dramWf (s : State) (j : BaleJob) (bytes : List Byte) (o : BaleOut) (bad : List Nat) (h : DramWf (s.part .dram)) :
    DramWf ((s.jobTaken j bytes o bad).part .dram) := by
  unfold State.jobTaken
  rw [State.modJob_part _ _ _ (by decide)]
  exact State.jobWrite_dramWf _ _ _ _ (by simpa [foldl_part] using h)

@[simp] theorem State.jobRelease_dramWf (s : State) (lane id : Nat) (space : Bool) (firstDiff : Option Nat) (rawFails : Bool) (h : DramWf (s.part .dram)) :
    DramWf ((s.jobRelease lane id space firstDiff rawFails).part .dram) := by
  unfold State.jobRelease
  dsimp only
  (repeat' split) <;> simp (disch := simp [h]) [h]

@[simp] theorem State.jobDecode_dramWf (s : State) (id : Nat) (space : Bool) (h : DramWf (s.part .dram)) :
    DramWf ((s.jobDecode id space).part .dram) := by
  unfold State.jobDecode
  split
  · exact h
  · split
    · exact h
    · dsimp only
      split
      · exact h
      · rw [State.modBale_part _ _ (by decide), State.modJob_part _ _ _ (by decide)]
        exact State.jobWrite_dramWf _ _ _ _ (by simpa [foldl_part] using h)

@[simp] theorem State.baleRelease_dramWf (s : State) (lane : Nat) (stream : Bool) (ix : Nat) (firstDiff : Option Nat) (rawFails : Bool) (h : DramWf (s.part .dram)) :
    DramWf ((s.baleRelease lane stream ix firstDiff rawFails).part .dram) := by
  unfold State.baleRelease
  (repeat' split) <;> simp (disch := simp [h]) [h]

@[simp] theorem State.baleNoSpace_dramWf (s : State) (lane : Nat) (stream : Bool) (ix room : Nat) (firstDiff : Option Nat) (rawFails : Bool) (h : DramWf (s.part .dram)) :
    DramWf ((s.baleNoSpace lane stream ix room firstDiff rawFails).part .dram) := by
  unfold State.baleNoSpace
  dsimp only
  (repeat' split) <;> simp (disch := simp [h]) [h]

@[simp] theorem State.freeTail_dramWf (s : State) (j : BaleJob) (h : DramWf (s.part .dram)) : DramWf ((s.freeTail j).part .dram) := by
  exact s.jobWrite_dramWf j _ false h

@[simp] theorem State.baleJobDone_dramWf (s : State) (id : Nat) (h : DramWf (s.part .dram)) : DramWf ((s.baleJobDone id).part .dram) := by
  have h0 : DramWf (((s.jobUnserved id).jobDecode id false).part .dram) := State.jobDecode_dramWf _ _ _ (by simpa using h)
  unfold State.baleJobDone
  dsimp only
  (repeat' split) <;> simp [h, h0]

@[simp] theorem State.fillBuffer_dramWf (s : State) (i k : Nat) (def_ : StreamDef) (d : Desc) (n status : Nat) (h : DramWf (s.part .dram)) :
    DramWf ((s.fillBuffer i k def_ d n status).part .dram) := by
  unfold State.fillBuffer
  dsimp only
  (repeat' split) <;> simp (disch := simp [h]) [h]

@[simp] theorem State.process_dramWf (s : State) (i : Nat) (b data : List Byte) (flush : Bool) (h : DramWf (s.part .dram)) :
    DramWf ((s.process i b data flush).part .dram) := by
  fun_cases State.process s i b data flush <;> simp +zetaDelta [h, State.readBy_part]

@[simp] theorem State.packetSent_dramWf (s : State) (i : Nat) (h : DramWf (s.part .dram)) : DramWf ((s.packetSent i).part .dram) := by
  unfold State.packetSent
  dsimp only
  (repeat' split) <;> simp (disch := simp [h]) [h]

@[simp] theorem State.abortPackets_dramWf (s : State) (i k : Nat) (h : DramWf (s.part .dram)) : DramWf ((s.abortPackets i k).part .dram) := by
  unfold State.abortPackets
  dsimp only
  (repeat' split) <;> simp (disch := simp [h]) [h]

@[simp] theorem State.abortCtx_dramWf (s : State) (i : Nat) (h : DramWf (s.part .dram)) : DramWf ((s.abortCtx i).part .dram) := by
  unfold State.abortCtx
  dsimp only
  (repeat' split) <;> simp (disch := simp [h]) [h]

@[simp] theorem State.pcieReset_dramWf (s : State) (cause : Nat) (h : DramWf (s.part .dram)) : DramWf ((s.pcieReset cause).part .dram) := by
  have hfold : DramWf (((List.range 256).foldl (fun (s : State) i => if (s.ctxOf i).cfg.kind < 3 && (s.ctxOf i).st != 0 then s.abortCtx i else s) s).part
      .dram) := foldl_dramWf _ (fun s i h => by split <;> simp [h]) _ _ h
  unfold State.pcieReset
  generalize (List.range 256).foldl _ s = v at hfold
  rw [State.raiseNow_part]
  exact hfold

@[simp] theorem dmaAbort_dramWf (c : Cmd) (s : State) (h : DramWf (s.part .dram)) : DramWf ((dmaAbort c s).2.part .dram) := by
  simp (disch := simp [h]) [dmaAbort]

@[simp] theorem State.barWrite_dramWf (s : State) (offset : Nat) (data : List Byte) (h : DramWf (s.part .dram)) :
    DramWf ((s.barWrite offset data).part .dram) := by
  unfold State.barWrite
  dsimp only
  (repeat' split) <;> simp (disch := simp [h]) [h]

@[simp] theorem State.debugPoke_dramWf (s : State) (o : Nat) (v : Byte) (h : DramWf (s.part .dram)) : DramWf ((s.debugPoke o v).part .dram) := by
  unfold State.debugPoke
  dsimp only
  (repeat' split) <;> simp (disch := simp [h]) [h]

@[simp] theorem State.debugAccess_dramWf (s : State) (o : Nat) (write : Bool) (data : List Byte) (h : DramWf (s.part .dram)) :
    DramWf ((s.debugAccess o write data).part .dram) := by
  unfold State.debugAccess
  split
  · exact foldl_dramWf _ (fun s e h => s.debugPoke_dramWf _ _ h) _ _ h
  · exact h



end Sys2Proof.Machine

/-! PROOFS of the canonical form of DRAM under running kernels, resets and mailbox commands. -/

namespace Sys2Proof.Machine

/-! ### Running host kernels (R229) -/

theorem State.putBytes_dramWf (s : State) (l : List (Nat × Byte)) (h : DramWf (s.part .dram)) : DramWf ((s.putBytes l).part .dram) :=
  foldl_dramWf _ (fun s _ h => s.dramWrite_dramWf _ _ h) _ _ h

@[simp] theorem State.noteCells_dram (s : State) (l : List (Nat × Nat)) : (s.noteCells l).part .dram = s.part .dram := by
  unfold State.noteCells
  rw [foldl_part _ (fun s b => s.badRead_part 4 b (by decide))]
  split
  · rw [State.touchDram_part _ _ _ (by decide), State.touchDram_part _ _ _ (by decide)]
  · rfl

theorem Run.finish_dramWf (r : Run) (m : Mv) (h : DramWf (r.s.part .dram)) : DramWf ((r.finish m).1.s.part .dram) := by
  unfold Run.finish
  split
  · exact h
  · split
    · exact r.s.putBytes_dramWf _ h
    · dsimp only
      split <;> simpa using h

theorem Run.pump_dramWf (n : Nat) (r : Run) (h : DramWf (r.s.part .dram)) : DramWf ((Run.pump n r).1.s.part .dram) := by
  induction n generalizing r with
  | zero => exact h
  | succ n ih =>
    unfold Run.pump
    split
    · exact h
    · next m rest _ =>
      have hf := Run.finish_dramWf { r with queue := rest } m h
      dsimp only
      iterate 3
        split
        · exact h
      split
      · exact hf
      · exact ih _ hf

theorem Run.drain_dramWf (r : Run) (h : DramWf (r.s.part .dram)) : DramWf (r.drain.s.part .dram) := by
  unfold Run.drain
  split
  · exact h
  · split
    · exact h
    · exact r.s.putBytes_dramWf _ h

theorem State.stepTile_dramWf (s : State) (n : Nat) (h : DramWf (s.part .dram)) : DramWf ((s.stepTile n).part .dram) := by
  unfold State.stepTile
  dsimp only
  rw [Run.settle_part _ _ _ (by decide), Run.step_s]
  exact Run.pump_dramWf 5 (s.hostRun n) h

@[simp] theorem State.runTiles_dramWf (s : State) (h : DramWf (s.part .dram)) : DramWf (s.runTiles.part .dram) := by
  unfold State.runTiles
  generalize 3601200 = n
  induction n generalizing s with
  | zero => exact h
  | succ n ih =>
    unfold State.runTilesGo
    split
    · exact ih _ (s.stepTile_dramWf _ h)
    · exact h

theorem State.abortJob_dramWf (s : State) (n cause : Nat) (f : TileFacts) (h : DramWf (s.part .dram)) : DramWf ((s.abortJob n cause f).part .dram) := by
  have hrun := s.runTiles_dramWf h
  unfold State.abortJob
  extract_lets s1 outside done r
  split
  · exact hrun
  · have hdone (u : State) : (done u).part .dram = u.part .dram := by
      simp only [done]
      split <;> simp
    split
    · extract_lets q s2
      split
      · exact hrun
      · have hq : DramWf (q.s.part .dram) := by
          refine Run.drain_dramWf _ ?_
          split <;> exact hrun
        rw [hdone]
        simpa [s2] using hq
    all_goals
      extract_lets s2
      rw [hdone]
      split <;> simpa [s2] using hrun

theorem State.tileAbort_dramWf (s : State) (n cause : Nat) (f : TileFacts) (h : DramWf (s.part .dram)) : DramWf ((s.tileAbort n cause f).part .dram) := by
  unfold State.tileAbort
  split
  · exact h
  · exact s.abortJob_dramWf n cause f h

theorem State.tileSpared_dramWf (s : State) (n : Nat) (f : TileFacts) (h : DramWf (s.part .dram)) : DramWf ((s.tileSpared n f).part .dram) := by
  have habort : DramWf ((if (s.tileOf n).job.isSome then s.abortJob n 5 f else s).part .dram) := dramWf_part_ite (s.abortJob_dramWf n 5 f h) h
  unfold State.tileSpared
  dsimp only
  split
  · split
    · exact h
    · simpa using habort
  · exact h

/-! ### Resets and power (R479, R500, R533) -/

theorem State.resetWith_dram (s : State) (why : BootWhy) : (s.resetWith why).part .dram = [] := by
  unfold State.resetWith
  rw [State.debugClosed_part, State.sessionsEnded_part]
  rfl

theorem State.coreReset_dram (s : State) (why : BootWhy) : (s.coreReset why).part .dram = [] := by
  unfold State.coreReset
  dsimp only
  rw [State.raiseNow_part]
  exact s.resetWith_dram why

theorem dramWf_nil : DramWf [] := rfl

theorem State.resetBegins_dramWf (s : State) (h : DramWf (s.part .dram)) : DramWf (s.resetBegins.part .dram) := by
  unfold State.resetBegins
  split
  · exact h
  · split
    · exact h
    · dsimp only
      split
      · rw [State.resetWith_dram]; exact dramWf_nil
      · rw [State.coreReset_dram]; exact dramWf_nil

theorem State.resetPin_dramWf (s : State) (lowNs : Nat) (h : DramWf (s.part .dram)) : DramWf ((s.resetPin lowNs).part .dram) := by
  unfold State.resetPin
  split
  · rw [State.resetWith_dram]; exact dramWf_nil
  · exact h

theorem State.watchdog_dramWf (s : State) : DramWf (s.watchdog.part .dram) := by
  unfold State.watchdog
  rw [State.coreReset_dram]
  exact dramWf_nil

theorem State.trialTimeout_dramWf (s : State) (h : DramWf (s.part .dram)) : DramWf (s.trialTimeout.part .dram) := by
  unfold State.trialTimeout
  split
  · exact s.watchdog_dramWf
  · exact h

theorem State.powerOff_dramWf (s : State) : DramWf (s.powerOff.part .dram) := dramWf_nil

theorem State.shutdownComplete_dramWf (s : State) (h : DramWf (s.part .dram)) : DramWf (s.shutdownComplete.part .dram) := by
  have hs1 : DramWf (s.shutdownAdvance.part .dram) := by simpa using h
  unfold State.shutdownComplete
  dsimp only
  split
  · split
    · exact State.powerOff_dramWf _
    · exact hs1
  · exact hs1

theorem State.p3Entered_dramWf (s : State) (norOk : Bool) (h : DramWf (s.part .dram)) : DramWf ((s.p3Entered norOk).part .dram) := by
  unfold State.p3Entered State.writeRest
  dsimp only
  (repeat' split) <;> simp [h, State.powerOff_dramWf]

/-! ### Commands of the mailboxes -/

theorem handlerOf_dramWf (op : Nat) (c : Cmd) (s : State) (h : DramWf (s.part .dram)) : DramWf ((handlerOf op c s).2.part .dram) := by
  unfold handlerOf
  generalize op / 256 = g
  generalize op % 256 = n
  split
  · unfold groupSys; split <;> simp [unknownOp, h]
  · unfold groupPlan; split <;> simp [unknownOp, h]
  · unfold groupRx; split <;> simp [unknownOp, h]
  · unfold groupLine; split <;> simp [unknownOp, h]
  · unfold groupFelt; split <;> simp [unknownOp, h]
  · unfold groupTile; split <;> simp [unknownOp, h]
  · unfold groupTrig; split <;> simp [unknownOp, h]
  · unfold groupTime; split <;> simp [unknownOp, h]
  · unfold groupTherm; split <;> simp [unknownOp, h]
  · unfold groupZone; split <;> simp [unknownOp, h]
  · unfold groupBale; split <;> simp [unknownOp, h]
  · unfold groupMem; split <;> simp [unknownOp, h]
  · unfold groupDma; split <;> simp [unknownOp, h]
  · unfold groupSec; split <;> simp [unknownOp, h]
  · unfold groupHealth; split <;> simp [unknownOp, h]
  · simp [unknownOp, h]

end Sys2Proof.Machine

/-! PROOFS of the canonical form of DRAM under every command. -/

namespace Sys2Proof.Machine

/-- Outside the tiles, triggers and host accesses a row keeps what `writesOf` does not list. -/
theorem keeps_of_family {i : Instr} {s u : State} (ht : familyOf i ≠ .tileTrig) (hh : familyOf i ≠ .hostAccess) (hx : exec i s = .next u) {p : StatePart}
    (hp : p ∉ writesOf i) : u.part p = s.part p := by
  rw [← State.keeps_iff]
  cases hf : familyOf i with
  | planRx => exact planAndReceiverFrames i s u hf hx p hp
  | lineFelt => exact lineAndFeltFrames i s u hf hx p hp
  | tileTrig => exact absurd hf ht
  | time => exact timeFrames i s u hf hx p hp
  | thermZone => exact thermalAndZoneFrames i s u hf hx p hp
  | memoryLinks => exact memoryAndLinkFrames i s u hf hx p hp
  | hostAccess => exact absurd hf hh
  | system => exact systemFrames i s u hf hx p hp

/-- Settles O14: DRAM is written by whole lists of bytes, each of which keeps the canonical form, and a reset empties it. Rows that write none keep it
by their frames. -/
theorem memoryStaysCanonical : Obligations.MemoryStaysCanonical := by
  intro i s u hwf hx
  have h : DramWf (s.part .dram) := hwf
  show DramWf (u.part .dram)
  by_cases hk : familyOf i ≠ .tileTrig ∧ familyOf i ≠ .hostAccess ∧ .dram ∉ writesOf i
  · obtain ⟨ht, hh, hp⟩ := hk
    exact holds_of_part (keeps_of_family ht hh hx hp) h
  · cases i with
    | mbDoorbell =>
      unfold exec at hx
      exact holds_of_finish hx h fun s h => State.mbDoorbell_holds (by decide) h fun op c u h _ => handlerOf_dramWf op c u h
    | heldDoorbellRuns =>
      unfold exec at hx
      exact holds_of_finish hx h fun s h => State.heldRuns_holds (by decide) h fun op c u h _ => handlerOf_dramWf op c u h
    | ethMailboxFrame =>
      unfold exec at hx
      exact holds_of_finish hx h fun s h => State.mailboxFrame_holds (by decide) h fun op c u h _ => handlerOf_dramWf op c u h
    | jtagInstruction t op =>
      change execJtagInstruction t op s = .next u at hx
      unfold execJtagInstruction at hx
      split at hx
      · cases hx
      · exact holds_of_finish hx h fun s h => by simp [h]
    | mbDoneClear | contextDoorbell | winBaseWrite | bar2WindowRead | bar2WindowWrite | debugWindowAccess | registerWrite | zspTransaction
      | smbLtuneWrite | smbAlertResponse | trailLinkChange | pcieLinkUp | streamPacketSent | tokenBucketRefill | pauseFrameRx | ethFrameDropped
      | ppsOutWidthEnd | fullRetrainingDone | smbClockLowTimeout =>
      unfold exec at hx
      exact holds_of_finish hx h fun s h => by simp [h]
    | jobDispatch | jobDone | pointHitsDecided | trigInEdge | bcastRx | trigOutAssert | trigOutWidthEnd | captureFormed | captureRowCopy | rawTrigger
      | rawSegmentClose | rawRearm | rawCopyOut | trigArmTakesEffect | trigRebaseTakesEffect | capRawDone =>
      unfold exec at hx
      exact holds_of_finish hx h fun s h => by simp [h]
    | tileAbort =>
      unfold exec at hx
      exact holds_of_finish hx h fun s h => s.tileAbort_dramWf _ _ _ h
    | tileSpared =>
      unfold exec at hx
      exact holds_of_finish hx h fun s h => s.tileSpared_dramWf _ _ h
    | tileKernelLoad | tileKernelUnload | tileRun | tileStatus | trigDefine | trigArm | trigDisarm | trigRebase | trigOut | trigStatus | capConfig
      | capRawArm | capRawStop | capForce | capList | capRelease | capStatus | feltResize | dmaAbort =>
      unfold exec at hx
      exact holds_of_hostCommand hx (by decide) h fun s h _ => by simp [h]
    | sheetComplete | lineStarted | lineStopped | feltQuireBegin | feltResizeTakesEffect | refConversionDone | baleRelease | baleNoSpace | baleJobDone
      | dramReadDecode | rowRemap | scrub | descriptorComplete | bufferFlush | pcieLinkReset =>
      unfold exec at hx
      exact holds_of_finish hx h fun s h => by simp [h]
    | shutdownComplete =>
      unfold exec at hx
      exact holds_of_finish hx h fun s h => s.shutdownComplete_dramWf h
    | resetBegins =>
      unfold exec at hx
      exact holds_of_finish hx h fun s h => s.resetBegins_dramWf h
    | resetNLow =>
      unfold exec at hx
      exact holds_of_finish hx h fun s h => s.resetPin_dramWf _ h
    | watchdogReset =>
      unfold exec at hx
      exact holds_of_finish hx h fun s _ => s.watchdog_dramWf
    | trialBootTimeout =>
      unfold exec at hx
      exact holds_of_finish hx h fun s h => s.trialTimeout_dramWf h
    | p3Entered =>
      unfold exec at hx
      exact holds_of_finish hx h fun s h => s.p3Entered_dramWf _ h
    | powerLoss =>
      unfold exec at hx
      exact holds_of_finish hx h fun s _ => dramWf_nil
    | _ => simp [familyOf, writesOf] at hk

end Sys2Proof.Machine

/-! PROOFS of the count of fused repairs under each operation. -/

namespace Sys2Proof.Machine

/-- The count of fused repairs. -/
def fusesOf (v : StatePart.Val .health) : Nat := Health.fusesUsed v

theorem foldl_fuses {α : Type} (f : State → α → State) (hf : ∀ s a, fusesOf ((f s a).part .health) = fusesOf (s.part .health)) (l : List α)
    (s : State) :
    fusesOf ((l.foldl f s).part .health) = fusesOf (s.part .health) :=
  foldl_keeps (fun s => fusesOf (s.part .health)) hf l s

@[simp] theorem State.modHealth_fuses (s : State) (f : Health → Health) (hf : ∀ h, (f h).fusesUsed = h.fusesUsed) :
    fusesOf ((s.modHealth f).part .health) = fusesOf (s.part .health) := hf s.health

@[simp] theorem fusesOf_ite (c : Prop) [Decidable c] (a b : StatePart.Val .health) : fusesOf (if c then a else b) = if c then fusesOf a else fusesOf b :=
  apply_ite fusesOf c a b

@[simp] theorem State.modHUnit_fuses (s : State) (k i : Nat) (f : Unit_ → Unit_) :
    fusesOf ((s.modHUnit k i f).part .health) = fusesOf (s.part .health) :=
  s.modHealth_fuses _ fun _ => by split <;> rfl

@[simp] theorem State.detect_fuses (s : State) (k i : Nat) : fusesOf ((s.detect k i).part .health) = fusesOf (s.part .health) := s.modHUnit_fuses _ _ _

@[simp] theorem State.beginTest_fuses (s : State) (k i : Nat) : fusesOf ((s.beginTest k i).part .health) = fusesOf (s.part .health) := s.modHUnit_fuses _ _ _

@[simp] theorem State.testIfDue_fuses (s : State) (k i : Nat) : fusesOf ((s.testIfDue k i).part .health) = fusesOf (s.part .health) := by simp [State.testIfDue]

@[simp] theorem State.clearSat_fuses (s : State) (op sel : Nat) : fusesOf ((s.clearSat op sel).part .health) = fusesOf (s.part .health) :=
  s.modHealth_fuses _ fun _ => rfl

@[simp] theorem planStatus_fuses (c : Cmd) (s : State) : fusesOf ((planStatus c s).2.part .health) = fusesOf (s.part .health) := by
  simp [planStatus, foldl_fuses]

@[simp] theorem State.leadFault_fuses (s : State) (q i start mv : Nat) (high : Bool) :
    fusesOf ((s.leadFault q i start mv high).part .health) = fusesOf (s.part .health) := by
  simp [State.leadFault]

@[simp] theorem State.judgeBlock_fuses (s : State) (q start i mv : Nat) :
    fusesOf ((s.judgeBlock q start i mv).part .health) = fusesOf (s.part .health) := by
  unfold State.judgeBlock
  dsimp only
  (repeat' split) <;> simp

@[simp] theorem State.monitorBlock_fuses (s : State) (q : Nat) (means : List Nat) :
    fusesOf ((s.monitorBlock q means).part .health) = fusesOf (s.part .health) := by
  simp [State.monitorBlock, foldl_fuses]

@[simp] theorem rxStatus_fuses (c : Cmd) (s : State) : fusesOf ((rxStatus c s).2.part .health) = fusesOf (s.part .health) := by
  simp [rxStatus]

@[simp] theorem State.converterWithdraw_fuses (s : State) (q j : Nat) :
    fusesOf ((s.converterWithdraw q j).part .health) = fusesOf (s.part .health) := by
  simp [State.converterWithdraw, -State.modCal_eq]

@[simp] theorem State.converterError_fuses (s : State) (q j : Nat) : fusesOf ((s.converterError q j).part .health) = fusesOf (s.part .health) := by
  simp [State.converterError]

@[simp] theorem State.rejectStep_fuses (s : State) (q i j g : Nat) : fusesOf ((s.rejectStep q i j g).part .health) = fusesOf (s.part .health) := by
  simp [State.rejectStep, foldl_fuses, -State.modCal_eq]

@[simp] theorem State.convergeBlock_fuses (s : State) (q i j g : Nat) (pass : Bool) :
    fusesOf ((s.convergeBlock q i j g pass).part .health) = fusesOf (s.part .health) := by
  simp [State.convergeBlock, -State.modCal_eq]

@[simp] theorem State.updateSets_fuses (s : State) (q i j g : Nat) (serving : Bool) (b : CalBlock) :
    fusesOf ((s.updateSets q i j g serving b).part .health) = fusesOf (s.part .health) := by
  simp [State.updateSets, foldl_fuses, -State.modCal_eq, -State.modConvMark_eq, -State.modPairMark_eq]

@[simp] theorem State.acceptBlock_fuses (s : State) (q i j : Nat) (serving : Bool) (blk : List GathCell) (m : CalMeas) (b : CalBlock) :
    fusesOf ((s.acceptBlock q i j serving blk m b).part .health) = fusesOf (s.part .health) := by
  simp [State.acceptBlock]

@[simp] theorem State.calBlock_fuses (s : State) (q j : Nat) (b : CalBlock) :
    fusesOf ((s.calBlock q j b).part .health) = fusesOf (s.part .health) := by
  unfold State.calBlock
  dsimp only
  (repeat' split) <;> simp

@[simp] theorem State.handover_fuses (s : State) (q : Nat) : fusesOf ((s.handover q).part .health) = fusesOf (s.part .health) := by
  unfold State.handover
  dsimp only
  (repeat' split) <;> simp [-State.modCal_eq, -State.modHUnit_eq]

@[simp] theorem State.overlapEnd_fuses (s : State) (q : Nat) : fusesOf ((s.overlapEnd q).part .health) = fusesOf (s.part .health) := by
  unfold State.overlapEnd
  dsimp only
  (repeat' split) <;> simp [-State.modCal_eq]

@[simp] theorem calStatus_fuses (c : Cmd) (s : State) : fusesOf ((calStatus c s).2.part .health) = fusesOf (s.part .health) := by
  simp [calStatus, -State.modCal_eq]

@[simp] theorem State.beginRun_fuses (s : State) : fusesOf (s.beginRun.part .health) = fusesOf (s.part .health) := s.modHealth_fuses _ fun _ => rfl

@[simp] theorem State.shutdownStep_fuses (s : State) : fusesOf (s.shutdownStep.part .health) = fusesOf (s.part .health) := by
  unfold State.shutdownStep
  (repeat' split) <;> simp

@[simp] theorem State.shutdownAdvance_fuses (s : State) : fusesOf (s.shutdownAdvance.part .health) = fusesOf (s.part .health) := by
  simp only [State.shutdownAdvance, State.shutdownStep_fuses _]

@[simp] theorem State.advance_fuses (s : State) : fusesOf (s.advance.part .health) = fusesOf (s.part .health) := by
  simp [State.advance]

@[simp] theorem State.rowDue_fuses (s : State) (r : RowAt) : fusesOf ((s.rowDue r).part .health) = fusesOf (s.part .health) := by
  simp [State.rowDue, -State.modHUnit_eq]

@[simp] theorem State.badRead_fuses (s : State) (port b : Nat) : fusesOf ((s.badRead port b).part .health) = fusesOf (s.part .health) := by
  simp [State.badRead]

@[simp] theorem State.readRange_fuses (s : State) (port lo hi : Nat) :
    fusesOf ((s.readRange port lo hi).part .health) = fusesOf (s.part .health) := by
  simp [State.readRange, foldl_fuses]

@[simp] theorem State.writeInBlock_fuses (s : State) (port a : Nat) (data : List Byte) :
    fusesOf ((s.writeInBlock port a data).part .health) = fusesOf (s.part .health) := by
  simp [State.writeInBlock]

@[simp] theorem State.dramWriteGo_fuses (s : State) (port n a : Nat) (data : List Byte) :
    fusesOf ((s.dramWriteGo port n a data).part .health) = fusesOf (s.part .health) := by
  induction n generalizing s a data with
  | zero => rfl
  | succ n ih =>
    unfold State.dramWriteGo
    split
    · rfl
    · rw [ih, State.writeInBlock_fuses _ _ _ _]

@[simp] theorem State.writeBy_fuses (s : State) (port a : Nat) (data : List Byte) :
    fusesOf ((s.writeBy port a data).part .health) = fusesOf (s.part .health) :=
  s.dramWriteGo_fuses port _ a data

@[simp] theorem State.writeEntry_fuses (s : State) (r : CapRec) : fusesOf ((s.writeEntry r).part .health) = fusesOf (s.part .health) :=
  s.writeBy_fuses 2 _ _

@[simp] theorem State.freeRec_fuses (s : State) (i : Nat) : fusesOf ((s.freeRec i).part .health) = fusesOf (s.part .health) := by
  simp [State.freeRec]

@[simp] theorem State.recReady_fuses (s : State) (i : Nat) : fusesOf ((s.recReady i).part .health) = fusesOf (s.part .health) := by
  unfold State.recReady
  split <;> simp

@[simp] theorem State.sweepHolds_fuses (s : State) (l : Nat) : fusesOf ((s.sweepHolds l).part .health) = fusesOf (s.part .health) := by
  refine foldl_fuses _ (fun s r => ?_) _ _
  dsimp only
  split <;> simp

@[simp] theorem State.clipCaptures_fuses (s : State) (l : Nat) : fusesOf ((s.clipCaptures l).part .health) = fusesOf (s.part .health) := by
  simp [State.clipCaptures, foldl_fuses]

@[simp] theorem State.discardDisarmed_fuses (s : State) (c : Nat) : fusesOf ((s.discardDisarmed c).part .health) = fusesOf (s.part .health) := by
  simp [State.discardDisarmed, foldl_fuses]

@[simp] theorem State.armEffectOf_fuses (s : State) (c : Nat) : fusesOf ((s.armEffectOf c).part .health) = fusesOf (s.part .health) := by
  unfold State.armEffectOf
  split <;> simp

@[simp] theorem State.boundaryConds_fuses (s : State) (l : Nat) : fusesOf ((s.boundaryConds l).part .health) = fusesOf (s.part .health) := by
  refine foldl_fuses _ (fun s c => ?_) _ _
  split <;> simp

@[simp] theorem feltStatus_fuses (c : Cmd) (s : State) : fusesOf ((feltStatus c s).2.part .health) = fusesOf (s.part .health) := by
  simp [feltStatus]

@[simp] theorem State.releaseQuire_fuses (s : State) (l : Nat) : fusesOf ((s.releaseQuire l).part .health) = fusesOf (s.part .health) := by
  unfold State.releaseQuire
  split <;> simp [foldl_fuses]

@[simp] theorem State.quireReleased_fuses (s : State) (l : Nat) : fusesOf ((s.quireReleased l).part .health) = fusesOf (s.part .health) := by
  simp [State.quireReleased]

@[simp] theorem slowStatus_fuses (c : Cmd) (s : State) : fusesOf ((slowStatus c s).2.part .health) = fusesOf (s.part .health) := by
  simp [slowStatus]

@[simp] theorem State.resizeEffect_fuses (s : State) (l : Nat) : fusesOf ((s.resizeEffect l).part .health) = fusesOf (s.part .health) := by
  simp [State.resizeEffect]

@[simp] theorem feltResizeAll_fuses (c : Cmd) (s : State) : fusesOf ((feltResizeAll c s).2.part .health) = fusesOf (s.part .health) := by
  simp [feltResizeAll, foldl_fuses]

@[simp] theorem State.quireBegin_fuses (s : State) (l : Nat) : fusesOf ((s.quireBegin l).part .health) = fusesOf (s.part .health) := by
  simp [State.quireBegin]

theorem State.atQuireBegin_fuses (s : State) (l : Nat) {f : State → State} (hf : fusesOf ((f s).part .health) = fusesOf (s.part .health)) :
    fusesOf ((s.atQuireBegin l f).part .health) = fusesOf (s.part .health) := by
  simp [State.atQuireBegin, hf]

@[simp] theorem State.quireBeginRow_fuses (s : State) (l : Nat) : fusesOf ((s.quireBeginRow l).part .health) = fusesOf (s.part .health) := by
  simp [State.quireBeginRow, State.atQuireBegin_fuses]

@[simp] theorem State.resizeRow_fuses (s : State) (l : Nat) : fusesOf ((s.resizeRow l).part .health) = fusesOf (s.part .health) :=
  s.atQuireBegin_fuses l (s.resizeEffect_fuses l)

@[simp] theorem State.produce_fuses (s : State) (l : Nat) (e : Launch) (words : List (Int × Nat)) (inv clip : List Bool) (powers : List Nat)
  (dark failed gainStep spared : Bool) (weak : Nat) (bad : List (Nat × Nat)) :
    fusesOf ((s.produce l e words inv clip powers dark failed gainStep spared weak bad).1.part .health) = fusesOf (s.part .health) := by
  unfold State.produce
  dsimp only
  split <;> simp [foldl_fuses]

@[simp] theorem State.finishSheet_fuses (s : State) (l : Nat) (e : Launch) (bad : List (Nat × Nat)) :
    fusesOf ((s.finishSheet l e bad).1.part .health) = fusesOf (s.part .health) := by
  unfold State.finishSheet
  dsimp only
  (repeat' split) <;> simp

@[simp] theorem State.sheetComplete_fuses (s : State) (l : Nat) (i : SheetInput) :
    fusesOf ((s.sheetComplete l i).part .health) = fusesOf (s.part .health) := by
  unfold State.sheetComplete
  split <;> simp

@[simp] theorem State.spareTakes_fuses (s : State) (k i j : Nat) : fusesOf ((s.spareTakes k i j).part .health) = fusesOf (s.part .health) := by
  unfold State.spareTakes
  dsimp only
  split
  · simp [-State.modHUnit_eq]
  · rw [State.modHealth_fuses _ _ fun h => by split <;> rfl, State.modHUnit_fuses, State.modHUnit_fuses]

@[simp] theorem State.lineSpared_fuses (s : State) (l : Nat) (unreliable : Bool) :
    fusesOf ((s.lineSpared l unreliable).part .health) = fusesOf (s.part .health) := by
  simp [State.lineSpared, -State.modHUnit_eq]

@[simp] theorem State.lineUnspared_fuses (s : State) (l : Nat) : fusesOf ((s.lineUnspared l).part .health) = fusesOf (s.part .health) := by
  simp [State.lineUnspared, -State.modHUnit_eq]

@[simp] theorem lineStatus_fuses (c : Cmd) (s : State) : fusesOf ((lineStatus c s).2.part .health) = fusesOf (s.part .health) := by
  simp [lineStatus]

@[simp] theorem State.lineStartedRow_fuses (s : State) (l : Nat) : fusesOf ((s.lineStartedRow l).part .health) = fusesOf (s.part .health) := by
  simp [State.lineStartedRow]

@[simp] theorem State.lineStoppedRow_fuses (s : State) (l : Nat) : fusesOf ((s.lineStoppedRow l).part .health) = fusesOf (s.part .health) := by
  simp [State.lineStoppedRow]

@[simp] theorem tbStatus_fuses (c : Cmd) (s : State) : fusesOf ((tbStatus c s).2.part .health) = fusesOf (s.part .health) := by
  simp [tbStatus]

@[simp] theorem State.tiuCheck_fuses (s : State) (u measured : Nat) (loopLocked : Bool) :
    fusesOf ((s.tiuCheck u measured loopLocked).part .health) = fusesOf (s.part .health) := by
  simp [State.tiuCheck]

@[simp] theorem State.tiuSpared_fuses (s : State) (u : Nat) : fusesOf ((s.tiuSpared u).part .health) = fusesOf (s.part .health) := by
  unfold State.tiuSpared
  dsimp only
  (repeat' split) <;> simp [-State.modHUnit_eq]

@[simp] theorem tiuStatus_fuses (c : Cmd) (s : State) : fusesOf ((tiuStatus c s).2.part .health) = fusesOf (s.part .health) := by
  simp [tiuStatus]

@[simp] theorem trailStatus_fuses (c : Cmd) (s : State) : fusesOf ((trailStatus c s).2.part .health) = fusesOf (s.part .health) := by
  simp [trailStatus]

@[simp] theorem State.thermSwitch_fuses (s : State) (k : Nat) (refError : Bool) :
    fusesOf ((s.thermSwitch k refError).part .health) = fusesOf (s.part .health) := by
  unfold State.thermSwitch
  dsimp only
  split <;> simp [-State.modHUnit_eq]

@[simp] theorem State.thermSpared_fuses (s : State) (n : Nat) : fusesOf ((s.thermSpared n).part .health) = fusesOf (s.part .health) := by
  unfold State.thermSpared
  dsimp only
  (repeat' split) <;> simp [-State.modHUnit_eq]

@[simp] theorem thermStatus_fuses (c : Cmd) (s : State) : fusesOf ((thermStatus c s).2.part .health) = fusesOf (s.part .health) := by
  simp [thermStatus]

@[simp] theorem State.putRef_fuses (s : State) (inst channel kind flags : Nat) (code : Int) (word : BitVec 32) (res : Nat) :
    fusesOf ((s.putRef inst channel kind flags code word res).part .health) = fusesOf (s.part .health) := by
  simp [State.putRef]

@[simp] theorem State.putOutputs_fuses (s : State) (v : RefConv) (x flags : Nat) (l : List (Int × Bool)) :
    fusesOf ((s.putOutputs v x flags l).part .health) = fusesOf (s.part .health) := by
  simp [State.putOutputs, foldl_fuses]

@[simp] theorem State.convDone_fuses (s : State) (w : RefConversion) : fusesOf ((s.convDone w).part .health) = fusesOf (s.part .health) := by
  unfold State.convDone
  dsimp only
  split
  · rfl
  · generalize (State.refChan _ _).faultSince = fault
    cases fault <;> simp

@[simp] theorem State.sdmWithdraw_fuses (s : State) : fusesOf (s.sdmWithdraw.part .health) = fusesOf (s.part .health) := by
  unfold State.sdmWithdraw
  dsimp only
  split <;> simp

@[simp] theorem State.sdmCheck_fuses (s : State) (refError : Bool) : fusesOf ((s.sdmCheck refError).part .health) = fusesOf (s.part .health) := by
  simp [State.sdmCheck]

@[simp] theorem State.scanStart_fuses (s : State) (refError : Bool) : fusesOf ((s.scanStart refError).part .health) = fusesOf (s.part .health) := by
  simp [State.scanStart]

@[simp] theorem refStatus_fuses (c : Cmd) (s : State) : fusesOf ((refStatus c s).2.part .health) = fusesOf (s.part .health) := by
  simp [refStatus]

@[simp] theorem zoneStatus_fuses (c : Cmd) (s : State) : fusesOf ((zoneStatus c s).2.part .health) = fusesOf (s.part .health) := by
  simp [zoneStatus]

@[simp] theorem panelStatus_fuses (c : Cmd) (s : State) : fusesOf ((panelStatus c s).2.part .health) = fusesOf (s.part .health) := by
  simp [panelStatus]

@[simp] theorem State.readBy_fuses (s : State) (port a n : Nat) : fusesOf ((s.readBy port a n).1.part .health) = fusesOf (s.part .health) :=
  (foldl_fuses _ (fun s b => s.badRead_fuses port b) _ _).trans (congrArg fusesOf (s.touchDram_part a n (by decide)))

@[simp] theorem State.dramWrite_fuses (s : State) (a : Nat) (data : List Byte) :
    fusesOf ((s.dramWrite a data).part .health) = fusesOf (s.part .health) := s.writeBy_fuses 4 a data

@[simp] theorem State.rowRemap_fuses (s : State) (r : RowAt) : fusesOf ((s.rowRemap r).part .health) = fusesOf (s.part .health) := by
  unfold State.rowRemap
  (repeat' split) <;> simp [foldl_fuses, -State.modHUnit_eq]

@[simp] theorem State.rowTestDone_fuses (s : State) (c spare : Nat) (pass : Bool) :
    fusesOf ((s.rowTestDone c spare pass).part .health) = fusesOf (s.part .health) := by
  unfold State.rowTestDone
  (repeat' split) <;> simp

@[simp] theorem State.decodeBlock_fuses (s : State) (port a : Nat) (errors : List (Nat × Byte)) :
    fusesOf ((s.decodeBlock port a errors).1.part .health) = fusesOf (s.part .health) := by
  unfold State.decodeBlock
  dsimp only
  (repeat' split) <;> simp

@[simp] theorem State.readDecode_fuses (s : State) (port a : Nat) (errors : List (Nat × Byte)) :
    fusesOf ((s.readDecode port a errors).part .health) = fusesOf (s.part .health) := by
  simp [State.readDecode]

@[simp] theorem State.scrub_fuses (s : State) (c : Nat) (errors : List (Nat × Byte)) :
    fusesOf ((s.scrub c errors).part .health) = fusesOf (s.part .health) := by
  simp [State.scrub]

@[simp] theorem memStatus_fuses (c : Cmd) (s : State) : fusesOf ((memStatus c s).2.part .health) = fusesOf (s.part .health) := by
  simp [memStatus]

@[simp] theorem State.itemDelivered_fuses (s : State) (d : StreamDef) (i : Item) :
    fusesOf ((s.itemDelivered d i).part .health) = fusesOf (s.part .health) := by
  unfold State.itemDelivered
  (repeat' split) <;> simp

@[simp] theorem State.streamMoved_fuses (s : State) (k : Nat) (d : StreamDef) (fuel n : Nat) :
    fusesOf ((s.streamMoved k d fuel n).part .health) = fusesOf (s.part .health) := by
  induction fuel generalizing s n with
  | zero => rfl
  | succ fuel ih =>
    unfold State.streamMoved
    (repeat' split) <;> simp [ih, foldl_fuses]

@[simp] theorem State.laneTest_fuses (s : State) (lane : Nat) : fusesOf ((s.laneTest lane).part .health) = fusesOf (s.part .health) := by
  simp [State.laneTest]

@[simp] theorem State.verifyFailed_fuses (s : State) (lane seq at_ : Nat) :
    fusesOf ((s.verifyFailed lane seq at_).part .health) = fusesOf (s.part .health) := by
  simp [State.verifyFailed]

@[simp] theorem State.streamRelease_fuses (s : State) (lane k : Nat) (room firstDiff : Option Nat) (rawFails : Bool) :
    fusesOf ((s.streamRelease lane k room firstDiff rawFails).part .health) = fusesOf (s.part .health) := by
  unfold State.streamRelease
  dsimp only
  (repeat' split) <;> simp

@[simp] theorem State.jobWrite_fuses (s : State) (j : BaleJob) (bytes : List Byte) (bad : Bool) :
    fusesOf ((s.jobWrite j bytes bad).part .health) = fusesOf (s.part .health) := by
  simp [State.jobWrite, foldl_fuses]

@[simp] theorem State.jobTaken_fuses (s : State) (j : BaleJob) (bytes : List Byte) (o : BaleOut) (bad : List Nat) :
    fusesOf ((s.jobTaken j bytes o bad).part .health) = fusesOf (s.part .health) := by
  simp [State.jobTaken, foldl_fuses]

@[simp] theorem State.jobRelease_fuses (s : State) (lane id : Nat) (space : Bool) (firstDiff : Option Nat) (rawFails : Bool) :
    fusesOf ((s.jobRelease lane id space firstDiff rawFails).part .health) = fusesOf (s.part .health) := by
  unfold State.jobRelease
  dsimp only
  (repeat' split) <;> simp

@[simp] theorem State.jobDecode_fuses (s : State) (id : Nat) (space : Bool) :
    fusesOf ((s.jobDecode id space).part .health) = fusesOf (s.part .health) := by
  unfold State.jobDecode
  (repeat' split) <;> simp [foldl_fuses]

@[simp] theorem State.baleRelease_fuses (s : State) (lane : Nat) (stream : Bool) (ix : Nat) (firstDiff : Option Nat) (rawFails : Bool) :
    fusesOf ((s.baleRelease lane stream ix firstDiff rawFails).part .health) = fusesOf (s.part .health) := by
  simp [State.baleRelease]

@[simp] theorem State.baleNoSpace_fuses (s : State) (lane : Nat) (stream : Bool) (ix room : Nat) (firstDiff : Option Nat) (rawFails : Bool) :
    fusesOf ((s.baleNoSpace lane stream ix room firstDiff rawFails).part .health) = fusesOf (s.part .health) := by
  simp [State.baleNoSpace]

@[simp] theorem State.freeTail_fuses (s : State) (j : BaleJob) : fusesOf ((s.freeTail j).part .health) = fusesOf (s.part .health) :=
  s.jobWrite_fuses j _ false

@[simp] theorem State.baleJobDone_fuses (s : State) (id : Nat) : fusesOf ((s.baleJobDone id).part .health) = fusesOf (s.part .health) := by
  unfold State.baleJobDone
  dsimp only
  (repeat' split) <;> simp

@[simp] theorem baleStatus_fuses (c : Cmd) (s : State) : fusesOf ((baleStatus c s).2.part .health) = fusesOf (s.part .health) := by
  simp [baleStatus]

@[simp] theorem State.fillBuffer_fuses (s : State) (i k : Nat) (def_ : StreamDef) (d : Desc) (n status : Nat) :
    fusesOf ((s.fillBuffer i k def_ d n status).part .health) = fusesOf (s.part .health) := by
  unfold State.fillBuffer
  dsimp only
  (repeat' split) <;> simp

@[simp] theorem State.process_fuses (s : State) (i : Nat) (b data : List Byte) (flush : Bool) :
    fusesOf ((s.process i b data flush).part .health) = fusesOf (s.part .health) := by
  fun_cases State.process s i b data flush <;> simp +zetaDelta [State.readBy_fuses]

@[simp] theorem State.packetSent_fuses (s : State) (i : Nat) : fusesOf ((s.packetSent i).part .health) = fusesOf (s.part .health) := by
  unfold State.packetSent
  dsimp only
  (repeat' split) <;> simp

@[simp] theorem State.abortPackets_fuses (s : State) (i k : Nat) : fusesOf ((s.abortPackets i k).part .health) = fusesOf (s.part .health) := by
  unfold State.abortPackets
  dsimp only
  (repeat' split) <;> simp

@[simp] theorem State.abortCtx_fuses (s : State) (i : Nat) : fusesOf ((s.abortCtx i).part .health) = fusesOf (s.part .health) := by
  unfold State.abortCtx
  dsimp only
  (repeat' split) <;> simp

@[simp] theorem State.pcieReset_fuses (s : State) (cause : Nat) : fusesOf ((s.pcieReset cause).part .health) = fusesOf (s.part .health) := by
  have hfold := foldl_fuses (fun (s : State) i => if (s.ctxOf i).cfg.kind < 3 && (s.ctxOf i).st != 0 then s.abortCtx i else s)
    (fun s i => by simp) (List.range 256) s
  unfold State.pcieReset
  generalize (List.range 256).foldl _ s = v at hfold
  rw [State.raiseNow_part, ← hfold]
  exact congrArg fusesOf (State.setVectorsPcie_part v _ _ (by decide) (by decide))

@[simp] theorem dmaAbort_fuses (c : Cmd) (s : State) : fusesOf ((dmaAbort c s).2.part .health) = fusesOf (s.part .health) := by
  simp [dmaAbort]

@[simp] theorem dmaStatus_fuses (c : Cmd) (s : State) : fusesOf ((dmaStatus c s).2.part .health) = fusesOf (s.part .health) := by
  fun_cases dmaStatus c s <;> simp +zetaDelta [State.setCtxsPcie_part, State.modCtx]

@[simp] theorem State.reportNoSpare_fuses (s : State) (k i cause : Nat) :
    fusesOf ((s.reportNoSpare k i cause).part .health) = fusesOf (s.part .health) := by
  simp [State.reportNoSpare, -State.modHUnit_eq]

@[simp] theorem State.retireConverter_fuses (s : State) (u cause : Nat) :
    fusesOf ((s.retireConverter u cause).part .health) = fusesOf (s.part .health) := by
  unfold State.retireConverter
  dsimp only
  (repeat' split) <;> simp [-State.modHUnit_eq]

@[simp] theorem State.returnConverter_fuses (s : State) (u : Nat) : fusesOf ((s.returnConverter u).part .health) = fusesOf (s.part .health) := by
  unfold State.returnConverter
  dsimp only
  (repeat' split) <;> simp [-State.modHUnit_eq]

@[simp] theorem State.d2dWithdraw_fuses (s : State) (lane : Nat) : fusesOf ((s.d2dWithdraw lane).part .health) = fusesOf (s.part .health) := by
  unfold State.d2dWithdraw
  (repeat' split) <;> simp

@[simp] theorem State.converterNext_fuses (s : State) (q : Nat) : fusesOf ((s.converterNext q).part .health) = fusesOf (s.part .health) := by
  unfold State.converterNext
  (repeat' split) <;> simp

@[simp] theorem State.sramTested_fuses (s : State) (m : Nat) (keep : Bool) :
    fusesOf ((s.sramTested m keep).part .health) = fusesOf (s.part .health) := by
  unfold State.sramTested
  (repeat' split) <;> simp [-State.modHUnit_eq]

@[simp] theorem State.returnUnit_fuses (s : State) (k i : Nat) : fusesOf ((s.returnUnit k i).part .health) = fusesOf (s.part .health) := by
  unfold State.returnUnit
  dsimp only
  (repeat' split) <;> simp [foldl_fuses, -State.modHUnit_eq]

@[simp] theorem State.retireUnit_fuses (s : State) (k i cause : Nat) :
    fusesOf ((s.retireUnit k i cause).part .health) = fusesOf (s.part .health) := by
  unfold State.retireUnit
  dsimp only
  (repeat' split) <;> simp [-State.modHUnit_eq]

@[simp] theorem State.passTransient_fuses (s : State) (k i : Nat) : fusesOf ((s.passTransient k i).part .health) = fusesOf (s.part .health) := by
  unfold State.passTransient
  dsimp only
  (repeat' split) <;> simp [-State.modHUnit_eq]

@[simp] theorem State.testDone_fuses (s : State) (k i : Nat) (pass conditions : Bool) :
    fusesOf ((s.testDone k i pass conditions).part .health) = fusesOf (s.part .health) := by
  unfold State.testDone
  dsimp only
  (repeat' split) <;> simp [-State.modHUnit_eq]

@[simp] theorem State.noSpareRow_fuses (s : State) (k i cause : Nat) :
    fusesOf ((s.noSpareRow k i cause).part .health) = fusesOf (s.part .health) := by
  simp [State.noSpareRow]

@[simp] theorem State.sramBegin_fuses (s : State) (m : Nat) : fusesOf ((s.sramBegin m).part .health) = fusesOf (s.part .health) := by
  unfold State.sramBegin
  dsimp only
  (repeat' split) <;> simp

@[simp] theorem State.sramError_fuses (s : State) (m row b : Nat) (uncorrectable : Bool) :
    fusesOf ((s.sramError m row b uncorrectable).part .health) = fusesOf (s.part .health) := by
  simp [State.sramError]

@[simp] theorem State.d2dError_fuses (s : State) (lane symbols : Nat) (uncorrectable : Bool) :
    fusesOf ((s.d2dError lane symbols uncorrectable).part .health) = fusesOf (s.part .health) := by
  simp [State.d2dError]

@[simp] theorem State.softRepair_fuses (s : State) (boot : Bool) (e : Nat × Nat) :
    fusesOf ((s.softRepair boot e).part .health) = fusesOf (s.part .health) := by
  simp [State.softRepair]

@[simp] theorem State.suspect_fuses (s : State) (boot : Bool) (e : Nat × Nat) :
    fusesOf ((s.suspect boot e).part .health) = fusesOf (s.part .health) := by
  simp [State.suspect, -State.modHUnit_eq]

@[simp] theorem State.endRun_fuses (s : State) : fusesOf (s.endRun.part .health) = fusesOf (s.part .health) := by
  unfold State.endRun
  (repeat' split) <;> simp

@[simp] theorem State.segmentDone_fuses (s : State) (o : SegmentOutcome) : fusesOf ((s.segmentDone o).part .health) = fusesOf (s.part .health) := by
  unfold State.segmentDone
  dsimp only
  (repeat' split) <;> simp [foldl_fuses]

@[simp] theorem State.beginReruns_fuses (s : State) (quick : Bool) : fusesOf ((s.beginReruns quick).part .health) = fusesOf (s.part .health) := by
  simp [State.beginReruns]

@[simp] theorem State.putOffReruns_fuses (s : State) : fusesOf (s.putOffReruns.part .health) = fusesOf (s.part .health) := by
  simp [State.putOffReruns]

@[simp] theorem State.sensorSample_fuses (s : State) (thermal rails : List Int) :
    fusesOf ((s.sensorSample thermal rails).part .health) = fusesOf (s.part .health) := by
  simp [State.sensorSample, foldl_fuses]

@[simp] theorem healthStatus_fuses (c : Cmd) (s : State) : fusesOf ((healthStatus c s).2.part .health) = fusesOf (s.part .health) := by
  simp [healthStatus]

@[simp] theorem healthTest_fuses (c : Cmd) (s : State) : fusesOf ((healthTest c s).2.part .health) = fusesOf (s.part .health) := by
  simp [healthTest, -State.modHUnit_eq]

@[simp] theorem healthAccept_fuses (c : Cmd) (s : State) : fusesOf ((healthAccept c s).2.part .health) = fusesOf (s.part .health) := by
  simp [healthAccept, -State.modHUnit_eq]

@[simp] theorem healthSensors_fuses (c : Cmd) (s : State) : fusesOf ((healthSensors c s).2.part .health) = fusesOf (s.part .health) := by
  simp [healthSensors]

@[simp] theorem State.counterSaturated_fuses (s : State) (op off sel : Nat) :
    fusesOf ((s.counterSaturated op off sel).part .health) = fusesOf (s.part .health) := by
  simp [State.counterSaturated]

@[simp] theorem sysShutdown_fuses (c : Cmd) (s : State) : fusesOf ((sysShutdown c s).2.part .health) = fusesOf (s.part .health) := by
  unfold sysShutdown
  dsimp only
  (repeat' split) <;> simp

@[simp] theorem State.snapshotCommitted_fuses (s : State) (ok : Bool) :
    fusesOf ((s.snapshotCommitted ok).part .health) = fusesOf (s.part .health) := by
  unfold State.snapshotCommitted
  dsimp only
  (repeat' split) <;> simp

@[simp] theorem sysStatus_fuses (c : Cmd) (s : State) : fusesOf ((sysStatus c s).2.part .health) = fusesOf (s.part .health) := by
  unfold sysStatus
  dsimp only
  split <;> simp

@[simp] theorem State.p2Exit_fuses (s : State) : fusesOf (s.p2Exit.part .health) = fusesOf (s.part .health) := by
  unfold State.p2Exit
  dsimp only
  split
  · split
    · rfl
    · simp [foldl_fuses]
  · rfl

@[simp] theorem State.bootLacks_fuses (s : State) (k i : Nat) : fusesOf ((s.bootLacks k i).part .health) = fusesOf (s.part .health) := by
  unfold State.bootLacks
  (repeat' split) <;> simp [-State.modHUnit_eq]

@[simp] theorem State.bootVacate_fuses (s : State) (k i : Nat) : fusesOf ((s.bootVacate k i).part .health) = fusesOf (s.part .health) := by
  unfold State.bootVacate
  dsimp only
  (repeat' split) <;> simp [-State.modHUnit_eq]

@[simp] theorem State.applyRetirements_fuses (s : State) : fusesOf (s.applyRetirements.part .health) = fusesOf (s.part .health) := by
  unfold State.applyRetirements
  dsimp only
  refine (foldl_fuses _ (fun s q => ?_) _ _).trans ((foldl_fuses _ (fun s e => ?_) _ _).trans (foldl_fuses _ (fun s e => ?_) _ s))
  · simp
  · split <;> simp
  · simp

@[simp] theorem State.release_fuses (s : State) (f : BootFacts) : fusesOf ((s.release f).part .health) = fusesOf (s.part .health) := by
  unfold State.release
  split
  · rfl
  · have start (x : Power) (b : TimeBase) (y : Sys) : ({ s with pwr := x, tb := b, sys := y } : State).reportLosses.part .health = s.part .health :=
      State.reportLosses_part _
    dsimp only
    split
    · rw [State.modSys_part _ _ (by decide), State.modSec_part _ _ (by decide), State.chooseFw_part, State.trialFallsBack_part _ (by decide), start]
    · rw [State.applyRetirements_fuses, State.modSys_part _ _ (by decide), State.modSec_part _ _ (by decide), State.chooseFw_part,
        State.trialFallsBack_part _ (by decide), start]

@[simp] theorem State.dramTrained_fuses (s : State) (cached : Bool) (ms : Nat) (failed changed : List Nat) :
    fusesOf ((s.dramTrained cached ms failed changed).part .health) = fusesOf (s.part .health) := by
  unfold State.dramTrained
  dsimp only
  (repeat' split) <;> simp

@[simp] theorem State.p3Exit_fuses (s : State) (kernelSigs : Nat) (boot : BootFacts) (cached : Bool) (ms : Nat) (failed : List Nat) :
    fusesOf ((s.p3Exit kernelSigs boot cached ms failed).part .health) = fusesOf (s.part .health) := by
  unfold State.p3Exit
  dsimp only
  (repeat' split) <;> simp

@[simp] theorem State.barRead_fuses (s : State) (offset n : Nat) : fusesOf ((s.barRead offset n).part .health) = fusesOf (s.part .health) := by
  unfold State.barRead
  dsimp only
  (repeat' split) <;> simp [State.readBy_fuses]

@[simp] theorem tileStatus_fuses (c : Cmd) (s : State) : fusesOf ((tileStatus c s).2.part .health) = fusesOf (s.part .health) := by
  simp [tileStatus]

@[simp] theorem trigStatus_fuses (c : Cmd) (s : State) : fusesOf ((trigStatus c s).2.part .health) = fusesOf (s.part .health) := by
  unfold trigStatus
  dsimp only
  (repeat' split) <;> simp

@[simp] theorem State.writeStorm_fuses (s : State) (l : Nat) : fusesOf ((s.writeStorm l).part .health) = fusesOf (s.part .health) := by
  unfold State.writeStorm
  dsimp only
  (repeat' split) <;> simp

@[simp] theorem capRelease_fuses (c : Cmd) (s : State) : fusesOf ((capRelease c s).2.part .health) = fusesOf (s.part .health) := by
  unfold capRelease
  dsimp only
  (repeat' split) <;> simp [foldl_fuses]

@[simp] theorem capStatus_fuses (c : Cmd) (s : State) : fusesOf ((capStatus c s).2.part .health) = fusesOf (s.part .health) := by
  simp [capStatus]

@[simp] theorem State.barWrite_fuses (s : State) (offset : Nat) (data : List Byte) :
    fusesOf ((s.barWrite offset data).part .health) = fusesOf (s.part .health) := by
  unfold State.barWrite
  dsimp only
  (repeat' split) <;> simp

@[simp] theorem State.debugPoke_fuses (s : State) (o : Nat) (v : Byte) : fusesOf ((s.debugPoke o v).part .health) = fusesOf (s.part .health) := by
  unfold State.debugPoke
  dsimp only
  (repeat' split) <;> simp

@[simp] theorem State.debugAccess_fuses (s : State) (o : Nat) (write : Bool) (data : List Byte) :
    fusesOf ((s.debugAccess o write data).part .health) = fusesOf (s.part .health) := by
  unfold State.debugAccess
  split
  · exact foldl_fuses _ (fun s e => s.debugPoke_fuses _ _) _ s
  · exact congrArg fusesOf (s.emit1_part (p := .health) (.busRead ((List.range data.length).map (fun i => s.debugByte (o + i))) false))

@[simp] theorem State.alertResponse_fuses (s : State) : fusesOf (s.alertResponse.part .health) = fusesOf (s.part .health) := by
  unfold State.alertResponse
  (repeat' split) <;> simp

theorem State.atCondQuire_fuses (s : State) (c : Nat) {f : State → State} (hf : fusesOf ((f s).part .health) = fusesOf (s.part .health)) :
    fusesOf ((s.atCondQuire c f).part .health) = fusesOf (s.part .health) := by
  unfold State.atCondQuire
  (repeat' split) <;> simp [State.atQuireBegin_fuses, hf]

@[simp] theorem State.armRow_fuses (s : State) (c : Nat) : fusesOf ((s.armRow c).part .health) = fusesOf (s.part .health) := by
  simp [State.armRow, State.atCondQuire_fuses]

@[simp] theorem State.notMade_fuses (s : State) (l causes node : Nat) (stamp : BitVec 96) (lo hi : Nat) :
    fusesOf ((s.notMade l causes node stamp lo hi).part .health) = fusesOf (s.part .health) := by
  unfold State.notMade
  dsimp only
  (repeat' split) <;> simp

@[simp] theorem State.entered_fuses (s : State) (l : Nat) (conds : List Nat) (g : TrigState → TrigState) (f : FeltRing → FeltRing) (r : CapRec) :
    fusesOf ((s.entered l conds g f r).part .health) = fusesOf (s.part .health) := by
  simp [State.entered, foldl_fuses]

@[simp] theorem State.makeCapture_fuses (s : State) (l row : Nat) (r : Region) :
    fusesOf ((s.makeCapture l row r).part .health) = fusesOf (s.part .health) := by
  obtain ⟨conds, g, f, rec_, hr⟩ | ⟨causes, node, stamp, hr⟩ := s.makeCapture_cases l row r
  · rw [hr, State.entered_fuses _ _ _ _ _ _ , State.takeMissed_part _ _ _ (by decide)]
  · rw [hr, State.notMade_fuses _ _ _ _ _ _ _]

@[simp] theorem State.formCapture_fuses (s : State) (l : Nat) : fusesOf ((s.formCapture l).part .health) = fusesOf (s.part .health) := by
  unfold State.formCapture
  dsimp only
  (repeat' split) <;> simp [foldl_fuses]

@[simp] theorem State.copyRow_fuses (s : State) (i : Nat) : fusesOf ((s.copyRow i).part .health) = fusesOf (s.part .health) := by
  unfold State.copyRow
  dsimp only
  (repeat' split) <;> simp [foldl_fuses]

@[simp] theorem State.rawCopy_fuses (s : State) (n : Nat) : fusesOf ((s.rawCopy n).part .health) = fusesOf (s.part .health) := by
  unfold State.rawCopy
  dsimp only
  (repeat' split) <;> simp [foldl_fuses]

end Sys2Proof.Machine

/-! PROOFS of the count of fused repairs under running kernels, resets and mailbox commands. -/

namespace Sys2Proof.Machine

/-! ### Running host kernels (R229) -/

theorem moverKeeps_fuses (n : Nat) : MoverKeeps (fun s => fusesOf (s.part .health) = n) where
  dram _ _ h := h
  mem s f h := (congrArg fusesOf (s.modMem_part f (by decide))).trans h
  read s b h := (s.badRead_fuses 4 b).trans h

@[simp] theorem State.runTiles_fuses (s : State) : fusesOf (s.runTiles.part .health) = fusesOf (s.part .health) :=
  State.runTiles_keeps (moverKeeps_fuses _) (fun s f h => (congrArg fusesOf (s.modPool_part f (by decide))).trans h) rfl

theorem Run.drain_fuses (r : Run) : fusesOf (r.drain.s.part .health) = fusesOf (r.s.part .health) := by
  unfold Run.drain
  split
  · rfl
  · split
    · rfl
    · exact State.putBytes_keeps (moverKeeps_fuses _) _ rfl

@[simp] theorem State.abortJob_fuses (s : State) (n cause : Nat) (f : TileFacts) :
    fusesOf ((s.abortJob n cause f).part .health) = fusesOf (s.part .health) := by
  have hrun := s.runTiles_fuses
  unfold State.abortJob
  extract_lets s1 outside done r
  split
  · exact hrun
  · have hdone (u : State) : fusesOf ((done u).part .health) = fusesOf (u.part .health) := by
      simp only [done]
      split <;> simp
    split
    · extract_lets q s2
      split
      · exact hrun
      · have hq : fusesOf (q.s.part .health) = fusesOf (s.part .health) := by
          refine (Run.drain_fuses _).trans ?_
          split <;> exact hrun
        rw [hdone]
        simp [s2, hq]
    all_goals
      extract_lets s2
      rw [hdone]
      split <;> simp [s2, s1]

@[simp] theorem State.tileAbort_fuses (s : State) (n cause : Nat) (f : TileFacts) :
    fusesOf ((s.tileAbort n cause f).part .health) = fusesOf (s.part .health) := by
  unfold State.tileAbort
  split <;> simp

@[simp] theorem State.tileSpared_fuses (s : State) (n : Nat) (f : TileFacts) :
    fusesOf ((s.tileSpared n f).part .health) = fusesOf (s.part .health) := by
  unfold State.tileSpared
  dsimp only
  (repeat' split) <;> simp

/-! ### Resets and power (R479, R500, R533) -/

@[simp] theorem State.resetWith_fuses (s : State) (why : BootWhy) : fusesOf ((s.resetWith why).part .health) = fusesOf (s.part .health) := by
  unfold State.resetWith
  rw [State.debugClosed_part, State.sessionsEnded_part]
  rfl

@[simp] theorem State.coreReset_fuses (s : State) (why : BootWhy) : fusesOf ((s.coreReset why).part .health) = fusesOf (s.part .health) := by
  unfold State.coreReset
  dsimp only
  rw [State.raiseNow_part]
  exact s.resetWith_fuses why

@[simp] theorem State.resetBegins_fuses (s : State) : fusesOf (s.resetBegins.part .health) = fusesOf (s.part .health) := by
  unfold State.resetBegins
  dsimp only
  (repeat' split) <;> simp

@[simp] theorem State.resetPin_fuses (s : State) (lowNs : Nat) : fusesOf ((s.resetPin lowNs).part .health) = fusesOf (s.part .health) := by
  unfold State.resetPin
  split <;> simp

@[simp] theorem State.watchdog_fuses (s : State) : fusesOf (s.watchdog.part .health) = fusesOf (s.part .health) := by
  simp [State.watchdog]

@[simp] theorem State.trialTimeout_fuses (s : State) : fusesOf (s.trialTimeout.part .health) = fusesOf (s.part .health) := by
  unfold State.trialTimeout
  split <;> simp

@[simp] theorem State.powerOff_fuses (s : State) : fusesOf (s.powerOff.part .health) = fusesOf (s.part .health) := by
  unfold State.powerOff
  extract_lets s1 b y
  have h1 : fusesOf (s1.part .health) = fusesOf (s.part .health) := foldl_fuses _ (fun s i => by split <;> simp) _ s
  clear_value s1
  exact h1

@[simp] theorem State.shutdownComplete_fuses (s : State) : fusesOf (s.shutdownComplete.part .health) = fusesOf (s.part .health) := by
  unfold State.shutdownComplete
  dsimp only
  (repeat' split) <;> simp

@[simp] theorem State.p3Entered_fuses (s : State) (norOk : Bool) : fusesOf ((s.p3Entered norOk).part .health) = fusesOf (s.part .health) := by
  unfold State.p3Entered State.writeRest
  dsimp only
  (repeat' split) <;> simp

/-! ### Commands of the mailboxes -/

theorem handlerOf_fuses (op : Nat) (c : Cmd) (s : State) : fusesOf ((handlerOf op c s).2.part .health) = fusesOf (s.part .health) := by
  unfold handlerOf
  generalize op / 256 = g
  generalize op % 256 = n
  split
  · unfold groupSys; split <;> simp [unknownOp]
  · unfold groupPlan; split <;> simp [unknownOp]
  · unfold groupRx; split <;> simp [unknownOp]
  · unfold groupLine; split <;> simp [unknownOp]
  · unfold groupFelt; split <;> simp [unknownOp]
  · unfold groupTile; split <;> simp [unknownOp]
  · unfold groupTrig; split <;> simp [unknownOp]
  · unfold groupTime; split <;> simp [unknownOp]
  · unfold groupTherm; split <;> simp [unknownOp]
  · unfold groupZone; split <;> simp [unknownOp]
  · unfold groupBale; split <;> simp [unknownOp]
  · unfold groupMem; split <;> simp [unknownOp]
  · unfold groupDma; split <;> simp [unknownOp]
  · unfold groupSec; split <;> simp [unknownOp]
  · unfold groupHealth; split <;> simp [unknownOp]
  · simp [unknownOp]

/-! ### Programming fuses (R524) -/

end Sys2Proof.Machine

/-! PROOFS of the count of fused repairs under every command. -/

namespace Sys2Proof.Machine

/-! ### Programming fuses (R524) -/

theorem State.fuseOne_fuses_le (s : State) (e : Repair × Bool) : fusesOf (s.part .health) ≤ fusesOf ((s.fuseOne e).part .health) := by
  unfold State.fuseOne
  split
  · exact le_rfl
  · rw [State.repairEvent_part]
    exact Nat.le_succ _

theorem State.fuseDone_fuses_le (s : State) (ok : List Bool) : fusesOf (s.part .health) ≤ fusesOf ((s.fuseDone ok).part .health) := by
  have hfold (l : List (Repair × Bool)) : fusesOf (s.part .health) ≤ fusesOf ((l.foldl (fun s e => s.fuseOne e) s).part .health) :=
    foldl_holds (Q := fun (u : State) => fusesOf (s.part .health) ≤ fusesOf (u.part .health)) (fun u e h => h.trans (u.fuseOne_fuses_le e)) l le_rfl
  unfold State.fuseDone
  split
  · exact le_rfl
  · split
    · exact le_rfl
    · simp [hfold]

theorem handlerOf_fuses_le {n : Nat} (op : Nat) (c : Cmd) (s : State) (h : n ≤ fusesOf (s.part .health)) :
    n ≤ fusesOf ((handlerOf op c s).2.part .health) := h.trans (handlerOf_fuses op c s).ge

theorem State.powerLoss_fuses (s : State) : fusesOf (s.powerLoss.part .health) = fusesOf (s.part .health) := rfl

/-- At least `n` fused repairs are counted. -/
def FusesAtLeast (n : Nat) (v : StatePart.Val .health) : Prop := n ≤ fusesOf v

/-! ### Every row -/

/-- A row leaves no fewer fused repairs counted than it found: only a fuse program counts, and it counts up. -/
theorem exec_fuses_le {n : Nat} {i : Instr} {s u : State} (hx : exec i s = .next u) (h : n ≤ fusesOf (s.part .health)) :
    n ≤ fusesOf (u.part .health) := by
  by_cases hk : familyOf i ≠ .tileTrig ∧ familyOf i ≠ .hostAccess ∧ .health ∉ writesOf i
  · obtain ⟨ht, hh, hp⟩ := hk
    exact holds_of_part (R := FusesAtLeast n) (keeps_of_family ht hh hx hp) h
  · cases i with
    | mbDoorbell =>
      unfold exec at hx
      exact holds_of_finish (R := FusesAtLeast n) hx h fun s h =>
        State.mbDoorbell_holds (R := FusesAtLeast n) (by decide) h fun op c u h _ => handlerOf_fuses_le op c u h
    | heldDoorbellRuns =>
      unfold exec at hx
      exact holds_of_finish (R := FusesAtLeast n) hx h fun s h =>
        State.heldRuns_holds (R := FusesAtLeast n) (by decide) h fun op c u h _ => handlerOf_fuses_le op c u h
    | ethMailboxFrame =>
      unfold exec at hx
      exact holds_of_finish (R := FusesAtLeast n) hx h fun s h =>
        State.mailboxFrame_holds (R := FusesAtLeast n) (by decide) h fun op c u h _ => handlerOf_fuses_le op c u h
    | jtagInstruction t op =>
      change execJtagInstruction t op s = .next u at hx
      unfold execJtagInstruction at hx
      split at hx
      · cases hx
      · exact holds_of_finish (R := FusesAtLeast n) hx h fun s h => by simpa [FusesAtLeast] using h
    | fuseRepairDone =>
      unfold exec at hx
      exact holds_of_finish (R := FusesAtLeast n) hx h fun s h => h.trans (s.fuseDone_fuses_le _)
    | powerLoss t =>
      unfold exec at hx
      exact holds_of_finish (R := FusesAtLeast n) hx h fun s h => h.trans s.powerLoss_fuses.ge
    | mbDoneClear | contextDoorbell | winBaseWrite | bar2WindowRead | bar2WindowWrite | debugWindowAccess | registerWrite | zspTransaction
      | smbLtuneWrite | smbAlertResponse | snapshotCommitted | shutdownComplete | resetBegins | monitorBlockEnd | calBlockGathered
      | handover | overlapEnd | sheetComplete | lineSpared | lineUnspared | lineStarted | lineStopped | feltQuireBegin | slowQuireReleased
      | slowOverrun | feltResizeTakesEffect | slowStopped | jobDispatch | jobDone | tileAbort | tileSpared | pointHitsDecided | trigInEdge
      | bcastRx | trigOutAssert | trigOutWidthEnd | captureFormed | captureRowCopy | rawTrigger | rawSegmentClose | rawRearm | rawCopyOut
      | trigArmTakesEffect | trigRebaseTakesEffect | capRawDone | tiuSelfCheck | tiuSpared | thermalSwitch | thermSpared | refScanStart
      | refConversionDone | baleRelease | baleNoSpace | baleJobDone | dramReadDecode | rowRemap | rowTestDone | scrub | descriptorComplete
      | bufferFlush | pcieLinkReset | streamDetached | trialBootTimeout | p2Exit | p3Entered | p3Exit | targetedTestDone | noSpare
      | sramError | d2dLaneError | selftestSegmentDone | sensorSample | counterSaturated | resetNLow | releaseFromReset | dramTrained
      | trailLinkChange | pcieLinkUp | streamPacketSent | tokenBucketRefill | pauseFrameRx | ethFrameDropped | ppsOutWidthEnd
      | fullRetrainingDone | watchdogReset | smbClockLowTimeout =>
      unfold exec at hx
      exact holds_of_finish (R := FusesAtLeast n) hx h fun s h => by simpa [FusesAtLeast] using h
    | sysShutdown | sysStatus | planStatus | rxStatus | calConfig | calStatus | lineStatus | feltResize | feltStatus | slowStatus
      | tileKernelLoad | tileKernelUnload | tileRun | tileStatus | trigDefine | trigArm | trigDisarm | trigRebase | trigOut | trigStatus
      | capConfig | capRawArm | capRawStop | capForce | capList | capRelease | capStatus | tbStatus | tiuStatus | trailStatus | thermStatus
      | refStatus | zoneStatus | panelStatus | baleStatus | memStatus | dmaAbort | dmaStatus | healthStatus | healthTest | healthAccept
      | healthSensors =>
      unfold exec at hx
      exact holds_of_hostCommand (R := FusesAtLeast n) hx (by decide) h fun s h _ => by simpa [FusesAtLeast] using h
    | _ => simp [familyOf, writesOf] at hk

end Sys2Proof.Machine

/-! PROOFS of rollback count, owners, secret and lifecycle under each operation on the security component. -/

namespace Sys2Proof.Machine

/-! ### What fuses record in the security component (R486, R487, R491) -/

/-- A slot that reads revoked. -/
def OwnersRevoked (l m : List OwnerSlot) : Prop :=
  ∀ (n : Nat) (o : OwnerSlot), l[n]? = some o → o.revoked = true → ∃ o' : OwnerSlot, m[n]? = some o' ∧ o'.revoked = true

/-- The fused facts of `b` are those of `a` or later ones. -/
structure FusesFollow (a b : Security) : Prop where
  rollback : a.rollback ≤ b.rollback
  secret : a.secretErased = true → b.secretErased = true
  scrapped : a.lifecycle = 3 → b.lifecycle = 3
  owners : OwnersRevoked a.owners b.owners

theorem OwnersRevoked.refl (l : List OwnerSlot) : OwnersRevoked l l := fun _ o hn hr => ⟨o, hn, hr⟩

theorem OwnersRevoked.upd (l : List OwnerSlot) (i : Nat) (f : OwnerSlot → OwnerSlot) (hf : ∀ o, o.revoked = true → (f o).revoked = true) :
    OwnersRevoked l (upd l i f) := fun n o hn hr =>
  ⟨if i = n then f o else o, by simp [Machine.upd, List.getElem?_modify, hn], by split; exacts [hf o hr, hr]⟩

theorem OwnersRevoked.map (l : List OwnerSlot) (f : OwnerSlot → OwnerSlot) (hf : ∀ o, o.revoked = true → (f o).revoked = true) :
    OwnersRevoked l (l.map f) := fun n o hn hr => ⟨f o, by simp [hn], hf o hr⟩

theorem OwnersRevoked.zipIdx_map (l : List OwnerSlot) (f : OwnerSlot × Nat → OwnerSlot) (hf : ∀ e, e.1.revoked = true → (f e).revoked = true) :
    OwnersRevoked l (l.zipIdx.map f) := fun n o hn hr => ⟨f (o, n), by simp [List.getElem?_zipIdx, hn], hf _ hr⟩

theorem FusesFollow.refl (a : Security) : FusesFollow a a := ⟨le_rfl, id, id, .refl _⟩

theorem FusesFollow.trans {a b c : Security} (h : FusesFollow a b) (h' : FusesFollow b c) : FusesFollow a c where
  rollback := h.rollback.trans h'.rollback
  secret := h'.secret ∘ h.secret
  scrapped := h'.scrapped ∘ h.scrapped
  owners n o hn hr :=
    let ⟨o', hn', hr'⟩ := h.owners n o hn hr
    h'.owners n o' hn' hr'

theorem FusesFollow.of_fields {a b : Security} (hr : b.rollback = a.rollback) (he : b.secretErased = a.secretErased) (hl : b.lifecycle = a.lifecycle)
    (ho : b.owners = a.owners) : FusesFollow a b := ⟨hr.ge, fun h => he.trans h, fun h => hl.trans h, ho ▸ .refl _⟩

/-- The component as a frame reads it has the fused facts of `a` or later ones. -/
def SecFollows (a : Security) (v : StatePart.Val .sec) : Prop := FusesFollow a v

theorem secFollows_iff (a : Security) (s : State) : SecFollows a (s.part .sec) ↔ FusesFollow a s.sec :=
  ⟨fun ⟨h1, h2, h3, h4⟩ => ⟨h1, h2, h3, h4⟩, fun ⟨h1, h2, h3, h4⟩ => ⟨h1, h2, h3, h4⟩⟩

theorem State.modSec_follows {a : Security} {s : State} {f : Security → Security} (h : SecFollows a (s.part .sec)) (hf : FusesFollow s.sec (f s.sec)) :
    SecFollows a ((s.modSec f).part .sec) := (secFollows_iff a _).2 (((secFollows_iff a s).1 h).trans hf)

theorem foldl_secFollows {α : Type} {a : Security} (f : State → α → State) (hf : ∀ s x, SecFollows a (s.part .sec) → SecFollows a ((f s x).part .sec))
    (l : List α) (s : State) (h : SecFollows a (s.part .sec)) : SecFollows a ((l.foldl f s).part .sec) :=
  foldl_holds (Q := fun (s : State) => SecFollows a (s.part .sec)) hf l h

@[simp] theorem secFollows_ite {a : Security} (c : Prop) [Decidable c] (u v : StatePart.Val .sec) :
    SecFollows a (if c then u else v) = if c then SecFollows a u else SecFollows a v := apply_ite _ c u v

section
variable {a : Security}

/-! ### The lifecycle and the owners -/

@[simp] theorem State.closeSessions_follows (s : State) (h : SecFollows a (s.part .sec)) : SecFollows a (s.closeSessions.part .sec) :=
  State.modSec_follows (by simpa using h) (.of_fields rfl rfl rfl rfl)

/-- A transition out of any state but Scrapped, or into it. -/
theorem State.transition_follows (s : State) (new_ cause : Nat) (h : SecFollows a (s.part .sec)) (hs : s.sec.lifecycle = 3 → new_ = 3) :
    SecFollows a ((s.transition new_ cause).part .sec) := by
  unfold State.transition
  rw [State.closeDebug_part _ _ (by decide)]
  refine State.closeSessions_follows _ ?_
  rw [State.raiseNow_part]
  exact State.modSec_follows h ⟨le_rfl, id, hs, .refl _⟩

@[simp] theorem State.storeKey_follows (s : State) (slot : Nat) (key : List Byte) (h : SecFollows a (s.part .sec)) :
    SecFollows a ((s.storeKey slot key).part .sec) :=
  State.modSec_follows h ⟨le_rfl, id, id, .upd _ _ _ fun _ h => h⟩

@[simp] theorem State.fuseOwner_follows (s : State) (slot : Nat) (hash : List Byte) (h : SecFollows a (s.part .sec)) :
    SecFollows a ((s.fuseOwner slot hash).part .sec) :=
  State.modSec_follows h ⟨le_rfl, id, id, .zipIdx_map _ _ fun e h => by
    split
    · exact h
    · split
      · rfl
      · exact h⟩

theorem State.enrolAt_follows (s : State) (slot : Nat) (key : List Byte) (progOk : Bool) (h : SecFollows a (s.part .sec)) (hs : s.sec.lifecycle ≠ 3) :
    SecFollows a ((s.enrolAt slot key progOk).2.part .sec) := by
  unfold State.enrolAt
  dsimp only
  split
  · exact State.transition_follows _ 1 0 (by simp [h]) fun h3 => absurd h3 hs
  · exact s.storeKey_follows slot key h

theorem State.withToken_follows {s : State} {op kind : Nat} {signers : List Nat} {t : Token} {c : Cmd} {act : Resp × State}
    (h : SecFollows a (s.part .sec)) (hact : SecFollows a (act.2.part .sec)) : SecFollows a ((s.withToken op kind signers t c act).2.part .sec) := by
  unfold State.withToken
  split
  · rwa [State.refuseToken_part]
  · exact hact

theorem secEnroll_follows (c : Cmd) (s : State) (h : SecFollows a (s.part .sec)) (hs : s.sec.lifecycle ≠ 3) :
    SecFollows a ((secEnroll c s).2.part .sec) := by
  unfold secEnroll
  extract_lets key t same next
  split
  · split
    · exact h
    · split
      · exact s.storeKey_follows _ key h
      · exact s.enrolAt_follows 0 key _ h hs
  · split
    · exact h
    · split
      · exact h
      · split
        · rwa [State.refuseToken_part]
        · exact State.withToken_follows h (s.enrolAt_follows _ key _ h hs)

theorem secService_follows (c : Cmd) (s : State) (h : SecFollows a (s.part .sec)) : SecFollows a ((secService c s).2.part .sec) := by
  unfold secService
  extract_lets t
  split
  · split
    · exact h
    · split
      · exact h
      · next hl =>
        refine State.withToken_follows h ?_
        split
        · exact State.transition_follows _ 2 0 (State.modSec_follows h (.of_fields rfl rfl rfl rfl)) fun h3 => absurd h3 (by
            show s.sec.lifecycle ≠ 3
            omega)
        · exact h
  · split
    · exact h
    · next hl =>
      split
      · exact s.transition_follows 1 0 h fun h3 => absurd h3 (by omega)
      · exact h
  · exact h

theorem State.serviceExpiry_follows (s : State) (h : SecFollows a (s.part .sec)) : SecFollows a (s.serviceExpiry.part .sec) := by
  unfold State.serviceExpiry
  split
  · next hl =>
    simp at hl
    exact s.transition_follows 1 1 h fun h3 => absurd h3 (by omega)
  · exact h

@[simp] theorem State.scrapErase_follows (s : State) (h : SecFollows a (s.part .sec)) : SecFollows a (s.scrapErase.part .sec) := by
  unfold State.scrapErase
  extract_lets blank s1
  clear_value blank
  rw [State.modSys_part _ _ (by decide)]
  exact State.modSec_follows h ⟨le_rfl, fun _ => rfl, id, .map _ _ fun _ _ => rfl⟩

theorem secScrap_follows (c : Cmd) (s : State) (h : SecFollows a (s.part .sec)) : SecFollows a ((secScrap c s).2.part .sec) := by
  unfold secScrap
  extract_lets t act
  have hact : SecFollows a (act.2.part .sec) := by
    have hto (u : State) (hu : SecFollows a (u.part .sec)) : SecFollows a ((okay (u.transition 3 0)).2.part .sec) :=
      u.transition_follows 3 0 hu fun _ => rfl
    simp only [act]
    split
    · exact hto _ (by simp [h])
    · simpa using h
  split
  · (repeat' split) <;> assumption
  · split
    · exact h
    · exact State.withToken_follows h hact

/-! ### Nonces, firmware slots and sessions -/

theorem secChallenge_follows (c : Cmd) (s : State) (h : SecFollows a (s.part .sec)) : SecFollows a ((secChallenge c s).2.part .sec) :=
  State.modSec_follows h (.of_fields rfl rfl rfl rfl)

theorem State.nonceExpiry_follows (s : State) (h : SecFollows a (s.part .sec)) : SecFollows a (s.nonceExpiry.part .sec) :=
  State.modSec_follows h (.of_fields rfl rfl rfl rfl)

theorem State.fwVerify_follows (s : State) (l : FwLoad) (sigOk : Bool) (h : SecFollows a (s.part .sec)) :
    SecFollows a ((s.fwVerify l sigOk).2.part .sec) := by
  unfold State.fwVerify
  extract_lets img s1 f
  have h1 : SecFollows a (s1.part .sec) := State.modSec_follows h (.of_fields rfl rfl rfl rfl)
  iterate 3
    split
    · exact h1
  rw [State.fwEvent_part]
  exact State.modSec_follows h1 (.of_fields rfl rfl rfl rfl)

theorem secFwLoad_follows (c : Cmd) (s : State) (h : SecFollows a (s.part .sec)) : SecFollows a ((secFwLoad c s).2.part .sec) := by
  unfold secFwLoad
  extract_lets p first final n off slot len put
  split
  · exact h
  split
  · exact h
  split
  · split
    · exact h
    · rw [pendWith_part _ _ _ _ _ (by decide)]
      exact State.modSec_follows h (.of_fields rfl rfl rfl rfl)
  · split
    · exact h
    · split
      · exact s.fwVerify_follows _ _ h
      · exact State.modSec_follows h (.of_fields rfl rfl rfl rfl)

theorem State.fwEraseDone_follows (s : State) (h : SecFollows a (s.part .sec)) : SecFollows a (s.fwEraseDone.part .sec) := by
  unfold State.fwEraseDone
  split
  · exact h
  · split
    · exact h
    · next l _ _ =>
      extract_lets s1 r
      have h1 : SecFollows a (s1.part .sec) := State.modSec_follows h (.of_fields rfl rfl rfl rfl)
      have hr : SecFollows a (r.2.part .sec) := by
        simp only [r]
        split
        · exact s1.fwVerify_follows _ _ h1
        · exact h1
      split
      · rw [State.applied_part, State.dropOp_part _ _ (by decide)]
        exact hr
      · exact hr

theorem secFwControl_follows (c : Cmd) (s : State) (h : SecFollows a (s.part .sec)) : SecFollows a ((secFwControl c s).2.part .sec) := by
  unfold secFwControl
  extract_lets other goal reached s1
  split
  · split
    · exact h
    · show SecFollows a ((State.fwEvent _ _ _ _).part .sec)
      rw [State.fwEvent_part]
      exact State.modSec_follows h (.of_fields rfl rfl rfl rfl)
  · split
    · exact h
    · have h1 : SecFollows a (s1.part .sec) := by
        simp only [s1]
        rw [State.fwEvent_part]
        refine State.modSec_follows h ⟨?_, id, id, .refl _⟩
        show s.sec.rollback ≤ reached
        simp only [reached, goal]
        split <;> omega
      split <;> exact h1
  · exact h

theorem State.wakeFw_follows (s : State) (ok : Nat → Bool) (h : SecFollows a (s.part .sec)) : SecFollows a ((s.wakeFw ok).1.part .sec) := by
  unfold State.wakeFw
  extract_lets n s1
  have h1 : SecFollows a (s1.part .sec) := by simpa [s1] using h
  split
  · exact h
  · split
    · exact State.modSec_follows h1 (.of_fields rfl rfl rfl rfl)
    · exact h1

theorem secSessionOpen_follows (c : Cmd) (s : State) (h : SecFollows a (s.part .sec)) : SecFollows a ((secSessionOpen c s).2.part .sec) := by
  unfold secSessionOpen
  extract_lets t id rights made act
  iterate 3
    split
    · exact h
  refine State.withToken_follows h ?_
  simp only [act]
  show SecFollows a ((State.raiseNow _ _ _ _ _ _).part .sec)
  rw [State.raiseNow_part]
  exact State.modSec_follows h (.of_fields rfl rfl rfl rfl)

theorem State.endSession_follows (s : State) (id state : Nat) (h : SecFollows a (s.part .sec)) : SecFollows a ((s.endSession id state).part .sec) :=
  State.modSec_follows (by simpa using h) (.of_fields rfl rfl rfl rfl)

theorem secSessionClose_follows (c : Cmd) (s : State) (h : SecFollows a (s.part .sec)) : SecFollows a ((secSessionClose c s).2.part .sec) := by
  unfold secSessionClose
  extract_lets id
  split
  · exact h
  · exact s.endSession_follows _ _ h

theorem State.sessionExpiry_follows (s : State) (id : Nat) (h : SecFollows a (s.part .sec)) : SecFollows a ((s.sessionExpiry id).part .sec) := by
  unfold State.sessionExpiry
  split
  · split
    · exact s.endSession_follows _ _ h
    · exact h
  · exact h

/-! ### Resets, power and boot -/

theorem State.resetWith_follows (s : State) (why : BootWhy) (h : SecFollows a (s.part .sec)) : SecFollows a ((s.resetWith why).part .sec) := by
  unfold State.resetWith
  rw [State.debugClosed_part, State.sessionsEnded_part]
  exact (secFollows_iff a _).2 (((secFollows_iff a s).1 h).trans (.of_fields rfl rfl rfl rfl))

theorem State.coreReset_follows (s : State) (why : BootWhy) (h : SecFollows a (s.part .sec)) : SecFollows a ((s.coreReset why).part .sec) := by
  unfold State.coreReset
  dsimp only
  rw [State.raiseNow_part]
  exact s.resetWith_follows why h

theorem State.resetBegins_follows (s : State) (h : SecFollows a (s.part .sec)) : SecFollows a (s.resetBegins.part .sec) := by
  unfold State.resetBegins
  split
  · exact h
  · split
    · exact h
    · dsimp only
      split
      · exact s.resetWith_follows _ h
      · exact s.coreReset_follows _ h

theorem State.resetPin_follows (s : State) (lowNs : Nat) (h : SecFollows a (s.part .sec)) : SecFollows a ((s.resetPin lowNs).part .sec) := by
  unfold State.resetPin
  split
  · exact s.resetWith_follows _ h
  · exact h

theorem State.watchdog_follows (s : State) (h : SecFollows a (s.part .sec)) : SecFollows a (s.watchdog.part .sec) := by
  unfold State.watchdog
  exact State.coreReset_follows _ _ (by simpa using h)

theorem State.trialTimeout_follows (s : State) (h : SecFollows a (s.part .sec)) : SecFollows a (s.trialTimeout.part .sec) := by
  unfold State.trialTimeout
  split
  · exact s.watchdog_follows h
  · exact h

theorem State.powerOff_follows (s : State) (h : SecFollows a (s.part .sec)) : SecFollows a (s.powerOff.part .sec) := by
  unfold State.powerOff
  extract_lets s1 b y
  have h1 : SecFollows a (s1.part .sec) := foldl_secFollows _ (fun s i h => by split <;> simp [h]) _ s h
  clear_value s1
  exact (secFollows_iff a _).2 (((secFollows_iff a s1).1 h1).trans (.of_fields rfl rfl rfl rfl))

theorem State.shutdownComplete_follows (s : State) (h : SecFollows a (s.part .sec)) : SecFollows a (s.shutdownComplete.part .sec) := by
  have hs1 : SecFollows a (s.shutdownAdvance.part .sec) := by simpa using h
  unfold State.shutdownComplete
  dsimp only
  split
  · split
    · exact State.powerOff_follows _ (by simpa using hs1)
    · exact hs1
  · exact hs1

theorem State.p3Entered_follows (s : State) (norOk : Bool) (h : SecFollows a (s.part .sec)) : SecFollows a ((s.p3Entered norOk).part .sec) := by
  have h0 : SecFollows a (s.powerAdvance.part .sec) := by simpa using h
  have hoff (u : State) (hu : SecFollows a (u.part .sec)) : SecFollows a ((u.closeSessions.closeDebug 3).powerOff.part .sec) :=
    State.powerOff_follows _ (by simpa using u.closeSessions_follows hu)
  unfold State.p3Entered State.writeRest
  generalize s.powerAdvance = s0 at h0
  dsimp only
  (repeat' split) <;> simp [h0, hoff]

theorem State.powerLoss_follows (s : State) (h : SecFollows a (s.part .sec)) : SecFollows a (s.powerLoss.part .sec) :=
  (secFollows_iff a _).2 (((secFollows_iff a s).1 h).trans (.of_fields rfl rfl rfl rfl))

theorem State.release_follows (s : State) (f : BootFacts) (h : SecFollows a (s.part .sec)) : SecFollows a ((s.release f).part .sec) := by
  unfold State.release
  split
  · exact h
  · extract_lets _ _ _ _ _ s1 s2 s3 trial c
    have h2 : SecFollows a (s2.part .sec) := by
      simp only [s2]
      rw [State.reportLosses_part]
      exact h
    have h3 : SecFollows a (s3.part .sec) := by
      simp only [s3]
      split
      · rw [State.fwEvent_part]
        exact State.modSec_follows h2 (.of_fields rfl rfl rfl rfl)
      · exact h2
    have hc : SecFollows a (c.1.part .sec) := by
      simp only [c]
      rwa [State.chooseFw_part]
    split
    · rw [State.modSys_part _ _ (by decide)]
      exact State.modSec_follows hc (.of_fields rfl rfl rfl rfl)
    · rw [State.applyRetirements_part _ (by decide), State.modSys_part _ _ (by decide)]
      exact State.modSec_follows hc (.of_fields rfl rfl rfl rfl)

theorem State.p3Exit_follows (s : State) (kernelSigs : Nat) (boot : BootFacts) (cached : Bool) (ms : Nat) (failed : List Nat)
    (h : SecFollows a (s.part .sec)) : SecFollows a ((s.p3Exit kernelSigs boot cached ms failed).part .sec) := by
  unfold State.p3Exit
  split
  · split
    · exact h
    · extract_lets w s1 good b s2 s3 s4
      have hw : SecFollows a (w.1.part .sec) := State.wakeFw_follows _ _ (by simpa using h)
      have h1 : SecFollows a (s1.part .sec) := by simpa [s1] using hw
      split
      · exact h1
      · have h4 : SecFollows a (s4.part .sec) := by
          simp only [s4, s3, s2]
          split <;> simpa using h1
        simpa using h4
  · exact h

end

end Sys2Proof.Machine

/-! PROOFS of rollback count, owners, secret and lifecycle under every command. -/

namespace Sys2Proof.Machine

section
variable {a : Security}

/-! ### Host kernels keep the security component -/

theorem moverKeeps_sec (v : StatePart.Val .sec) : MoverKeeps (fun s => s.part .sec = v) where
  dram _ _ h := h
  mem s f h := (s.modMem_part f (by decide)).trans h
  read s b h := (s.badRead_part 4 b (by decide)).trans h

@[simp] theorem State.runTiles_sec (s : State) : s.runTiles.part .sec = s.part .sec :=
  State.runTiles_keeps (moverKeeps_sec _) (fun s f h => (s.modPool_part f (by decide)).trans h) rfl

theorem Run.drain_sec (r : Run) : r.drain.s.part .sec = r.s.part .sec := by
  unfold Run.drain
  split
  · rfl
  · split
    · rfl
    · exact State.putBytes_keeps (moverKeeps_sec _) _ rfl

@[simp] theorem State.abortJob_sec (s : State) (n cause : Nat) (f : TileFacts) : (s.abortJob n cause f).part .sec = s.part .sec := by
  unfold State.abortJob
  extract_lets s1 outside done r
  split
  · exact s.runTiles_sec
  · have hdone (u : State) : (done u).part .sec = u.part .sec := by
      simp only [done]
      split <;> simp
    split
    · extract_lets q s2
      split
      · exact s.runTiles_sec
      · have hq : q.s.part .sec = s.part .sec := by
          refine (Run.drain_sec _).trans ?_
          split <;> exact s.runTiles_sec
        rw [hdone]
        simp [s2, hq]
    all_goals
      extract_lets s2
      rw [hdone]
      split <;> simp [s2, s1]

@[simp] theorem State.tileAbort_sec (s : State) (n cause : Nat) (f : TileFacts) : (s.tileAbort n cause f).part .sec = s.part .sec := by
  unfold State.tileAbort
  split <;> simp

@[simp] theorem State.tileSpared_sec (s : State) (n : Nat) (f : TileFacts) : (s.tileSpared n f).part .sec = s.part .sec := by
  unfold State.tileSpared
  dsimp only
  (repeat' split) <;> simp

/-! ### Commands of the mailboxes -/

/-- Only the commands that a scrapped device answers pass the checks of one (R486). -/
theorem lifecycle_of_precheck {op : Nat} {c : Cmd} {s : State} (hc : precheck op c s = none) (hop : op ∉ scrappedOps) : s.sec.lifecycle ≠ 3 := by
  intro h3
  have hp : permit op c s ≠ none := by
    unfold permit
    split
    · simp
    · simp [h3, hop]
  unfold precheck at hc
  iterate 4
    split at hc
    · cases hc
  split at hc
  · cases hc
  · next hn => exact hp hn

theorem handlerOf_follows (op : Nat) (c : Cmd) (s : State) (h : SecFollows a (s.part .sec)) (hc : precheck op c s = none) :
    SecFollows a ((handlerOf op c s).2.part .sec) := by
  have hlive : op / 256 = 14 → op % 256 = 2 → s.sec.lifecycle ≠ 3 := fun h1 h2 => lifecycle_of_precheck hc (by
    obtain rfl : op = 0x0E02 := by omega
    decide)
  unfold handlerOf
  generalize op / 256 = g at hlive
  generalize op % 256 = n at hlive
  split
  · unfold groupSys; split <;> simp [unknownOp, h]
  · unfold groupPlan; split <;> simp [unknownOp, h]
  · unfold groupRx; split <;> simp [unknownOp, h]
  · unfold groupLine; split <;> simp [unknownOp, h]
  · unfold groupFelt; split <;> simp [unknownOp, h]
  · unfold groupTile; split <;> simp [unknownOp, h]
  · unfold groupTrig; split <;> simp [unknownOp, h]
  · unfold groupTime; split <;> simp [unknownOp, h]
  · unfold groupTherm; split <;> simp [unknownOp, h]
  · unfold groupZone; split <;> simp [unknownOp, h]
  · unfold groupBale; split <;> simp [unknownOp, h]
  · unfold groupMem; split <;> simp [unknownOp, h]
  · unfold groupDma; split <;> simp [unknownOp, h]
  · unfold groupSec
    split
    case h_1 => exact secChallenge_follows c s h
    case h_2 => exact secEnroll_follows c s h (hlive rfl rfl)
    case h_3 => exact secService_follows c s h
    case h_4 => exact secScrap_follows c s h
    case h_5 => exact secFwLoad_follows c s h
    case h_6 => exact secFwControl_follows c s h
    case h_7 => exact secSessionOpen_follows c s h
    case h_8 => exact secSessionClose_follows c s h
    all_goals simp [unknownOp, h]
  · unfold groupHealth; split <;> simp [unknownOp, h]
  · simp [unknownOp, h]

/-! ### Every row -/

/-- The fused facts of the security component only advance from row to row. -/
theorem exec_sec_follows {i : Instr} {s u : State} (hx : exec i s = .next u) (h : SecFollows a (s.part .sec)) : SecFollows a (u.part .sec) := by
  by_cases hk : familyOf i ≠ .tileTrig ∧ familyOf i ≠ .hostAccess ∧ .sec ∉ writesOf i
  · obtain ⟨ht, hh, hp⟩ := hk
    exact holds_of_part (R := SecFollows a) (keeps_of_family ht hh hx hp) h
  · cases i with
    | mbDoorbell =>
      unfold exec at hx
      exact holds_of_finish (R := SecFollows a) hx h fun s h => State.mbDoorbell_holds (R := SecFollows a) (by decide) h handlerOf_follows
    | heldDoorbellRuns =>
      unfold exec at hx
      exact holds_of_finish (R := SecFollows a) hx h fun s h => State.heldRuns_holds (R := SecFollows a) (by decide) h handlerOf_follows
    | ethMailboxFrame =>
      unfold exec at hx
      exact holds_of_finish (R := SecFollows a) hx h fun s h => State.mailboxFrame_holds (R := SecFollows a) (by decide) h handlerOf_follows
    | jtagInstruction t op =>
      change execJtagInstruction t op s = .next u at hx
      unfold execJtagInstruction at hx
      split at hx
      · cases hx
      · exact holds_of_finish (R := SecFollows a) hx h fun s h => by simpa using h
    | shutdownComplete =>
      unfold exec at hx
      exact holds_of_finish (R := SecFollows a) hx h fun s h => s.shutdownComplete_follows h
    | resetBegins =>
      unfold exec at hx
      exact holds_of_finish (R := SecFollows a) hx h fun s h => s.resetBegins_follows h
    | nonceExpiry =>
      unfold exec at hx
      exact holds_of_finish (R := SecFollows a) hx h fun s h => s.nonceExpiry_follows h
    | serviceExpiry =>
      unfold exec at hx
      exact holds_of_finish (R := SecFollows a) hx h fun s h => s.serviceExpiry_follows h
    | fwEraseDone =>
      unfold exec at hx
      exact holds_of_finish (R := SecFollows a) hx h fun s h => s.fwEraseDone_follows h
    | trialBootTimeout =>
      unfold exec at hx
      exact holds_of_finish (R := SecFollows a) hx h fun s h => s.trialTimeout_follows h
    | sessionExpiry =>
      unfold exec at hx
      exact holds_of_finish (R := SecFollows a) hx h fun s h => s.sessionExpiry_follows _ h
    | p3Entered =>
      unfold exec at hx
      exact holds_of_finish (R := SecFollows a) hx h fun s h => s.p3Entered_follows _ h
    | p3Exit =>
      unfold exec at hx
      exact holds_of_finish (R := SecFollows a) hx h fun s h => s.p3Exit_follows _ _ _ _ _ h
    | powerLoss =>
      unfold exec at hx
      exact holds_of_finish (R := SecFollows a) hx h fun s h => s.powerLoss_follows h
    | resetNLow =>
      unfold exec at hx
      exact holds_of_finish (R := SecFollows a) hx h fun s h => s.resetPin_follows _ h
    | releaseFromReset =>
      unfold exec at hx
      exact holds_of_finish (R := SecFollows a) hx h fun s h => s.release_follows _ h
    | watchdogReset =>
      unfold exec at hx
      exact holds_of_finish (R := SecFollows a) hx h fun s h => s.watchdog_follows h
    | secChallenge =>
      unfold exec at hx
      exact holds_of_hostCommand (R := SecFollows a) hx (by decide) h fun s h _ => secChallenge_follows _ s h
    | secServiceEnter =>
      unfold exec at hx
      exact holds_of_hostCommand (R := SecFollows a) hx (by decide) h fun s h _ => secService_follows _ s h
    | secServiceLeave =>
      unfold exec at hx
      exact holds_of_hostCommand (R := SecFollows a) hx (by decide) h fun s h _ => secService_follows _ s h
    | secScrap =>
      unfold exec at hx
      exact holds_of_hostCommand (R := SecFollows a) hx (by decide) h fun s h _ => secScrap_follows _ s h
    | secFwLoad =>
      unfold exec at hx
      exact holds_of_hostCommand (R := SecFollows a) hx (by decide) h fun s h _ => secFwLoad_follows _ s h
    | secFwActivate =>
      unfold exec at hx
      exact holds_of_hostCommand (R := SecFollows a) hx (by decide) h fun s h _ => secFwControl_follows _ s h
    | secFwCommit =>
      unfold exec at hx
      exact holds_of_hostCommand (R := SecFollows a) hx (by decide) h fun s h _ => secFwControl_follows _ s h
    | secSessionOpen =>
      unfold exec at hx
      exact holds_of_hostCommand (R := SecFollows a) hx (by decide) h fun s h _ => secSessionOpen_follows _ s h
    | secSessionClose =>
      unfold exec at hx
      exact holds_of_hostCommand (R := SecFollows a) hx (by decide) h fun s h _ => secSessionClose_follows _ s h
    | secEnroll =>
      unfold exec at hx
      exact holds_of_hostCommand (R := SecFollows a) hx (by decide) h fun s h hc => secEnroll_follows _ s h (lifecycle_of_precheck hc (by decide))
    | mbDoneClear | contextDoorbell | winBaseWrite | bar2WindowRead | bar2WindowWrite | debugWindowAccess | registerWrite | zspTransaction
      | smbLtuneWrite | smbAlertResponse | jobDispatch | jobDone | pointHitsDecided | trigInEdge | bcastRx | trigOutAssert
      | trigOutWidthEnd | captureFormed | captureRowCopy | rawTrigger | rawSegmentClose | rawRearm | rawCopyOut | trigArmTakesEffect
      | trigRebaseTakesEffect | capRawDone | trailLinkChange | pcieLinkUp | streamPacketSent | tokenBucketRefill | pauseFrameRx
      | ethFrameDropped | ppsOutWidthEnd | fullRetrainingDone | smbClockLowTimeout | tileAbort | tileSpared =>
      unfold exec at hx
      exact holds_of_finish (R := SecFollows a) hx h fun s h => by simpa using h
    | tileKernelLoad | tileKernelUnload | tileRun | tileStatus | trigDefine | trigArm | trigDisarm | trigRebase | trigOut | trigStatus
      | capConfig | capRawArm | capRawStop | capForce | capList | capRelease | capStatus =>
      unfold exec at hx
      exact holds_of_hostCommand (R := SecFollows a) hx (by decide) h fun s h _ => by simpa using h
    | _ => simp [familyOf, writesOf] at hk

end

/-- Settles O15: each row leaves the fused facts of the security component and the count of fused repairs as they were or further on. -/
theorem fusesOnlyAdvance : Obligations.FusesOnlyAdvance := by
  intro i s u hx
  obtain ⟨hroll, hsecret, hscrap, howners⟩ := (secFollows_iff s.sec u).1 (exec_sec_follows hx ((secFollows_iff s.sec s).2 (.refl s.sec)))
  have hfuses : s.health.fusesUsed ≤ u.health.fusesUsed := exec_fuses_le hx (le_refl (fusesOf (s.part .health)))
  exact ⟨hroll, hfuses, hsecret, hscrap, howners⟩

end Sys2Proof.Machine

/-! PROOFS of writes of DRAM: what they store and what they leave. -/

namespace Sys2Proof.Machine

/-! ### Reading a sparse list beside what was written -/

theorem sget_sset_ne {α : Type} [DecidableEq α] {d : α} {m : List (Nat × α)} {k j : Nat} (v : α) (h : k ≠ j) :
    sget d (sset d m k v) j = sget d m j := by
  induction m with
  | nil =>
    unfold sset
    split <;> simp [sget, h]
  | cons e r ih =>
    obtain ⟨b, w⟩ := e
    unfold sset
    split
    · split <;> simp [sget, h]
    · split
      · next hk =>
        split <;> simp [sget, ← hk, h]
      · simp only [sget, ih]

theorem sget_ssetL_ne {α : Type} [DecidableEq α] {d : α} {m : List (Nat × α)} {k j : Nat} (l : List α) (h : j < k ∨ k + l.length ≤ j) :
    sget d (ssetL d m k l) j = sget d m j := by
  induction l generalizing m k with
  | nil => rfl
  | cons v r ih =>
    simp only [List.length_cons] at h
    rw [ssetL, ih (by omega), sget_sset_ne v (by omega)]

/-! ### A write changes no other block -/

theorem State.writeInBlock_otherBlock (s : State) (port a : Nat) (data : List Byte) (hlen : data.length ≤ 64 - a % 64) {x : Nat} (hx : x / 64 ≠ a / 64) :
    sget 0#8 (s.writeInBlock port a data).dram x = sget 0#8 s.dram x := by
  rw [State.writeInBlock_dram]
  split
  · rfl
  split
  · exact sget_ssetL_ne _ (by omega)
  split
  · exact sget_ssetL_ne _ (by omega)
  · have hz : (zeros 64).length = 64 := by simp [zeros]
    exact (sget_ssetL_ne data (by omega)).trans (sget_ssetL_ne (zeros 64) (by omega))

theorem State.dramWriteGo_nil (s : State) (port n a : Nat) : s.dramWriteGo port n a [] = s := by
  cases n <;> rfl

theorem State.dramWriteGo_otherBlock (port n : Nat) (s : State) (a : Nat) (data : List Byte) {x : Nat}
    (hx : x / 64 < a / 64 ∨ (a + data.length - 1) / 64 < x / 64) :
    sget 0#8 (s.dramWriteGo port n a data).dram x = sget 0#8 s.dram x := by
  induction n generalizing s a data with
  | zero => rfl
  | succ n ih =>
    unfold State.dramWriteGo
    split
    · rfl
    · next hne =>
      have hpos : 0 < data.length := List.length_pos_iff.mpr hne
      dsimp only
      have hhere := s.writeInBlock_otherBlock port a (data.take (64 - a % 64)) (x := x) (by simp) (by omega)
      by_cases hmore : data.length ≤ 64 - a % 64
      · rw [List.drop_eq_nil_of_le hmore, State.dramWriteGo_nil, hhere]
      · rw [ih _ _ _ (by rw [List.length_drop]; omega), hhere]

theorem State.dramWrite_otherBlock (s : State) (a : Nat) (data : List Byte) {x : Nat}
    (hx : x / 64 < a / 64 ∨ (a + data.length - 1) / 64 < x / 64) : sget 0#8 (s.dramWrite a data).dram x = sget 0#8 s.dram x :=
  State.dramWriteGo_otherBlock 4 _ s a data hx

/-! ### A write to sound blocks -/

/-- Every block of a range is sound and its channel in service. -/
def State.sound (s : State) (a n : Nat) : Prop := ∀ b, a / 64 ≤ b → 64 * b < a + n → s.blockLost b = false ∧ s.blockSt b = 0

theorem mem_blocksOf {a n b : Nat} (hn : 0 < n) (h : a / 64 ≤ b) (h' : 64 * b < a + n) : b ∈ blocksOf a n := by
  unfold blocksOf
  rw [if_neg (by omega)]
  exact List.mem_map.mpr ⟨b - a / 64, List.mem_range.mpr (by omega), by omega⟩

theorem State.wakeChannel_blockSt (s : State) (c b : Nat) : (s.wakeChannel c).blockSt b = s.blockSt b := rfl

theorem State.wakeChannel_blockLost (s : State) (c b : Nat) : (s.wakeChannel c).blockLost b = s.blockLost b := by
  have hst (d : Nat) : (((s.wakeChannel c).chanOf d).st == 3) = ((s.chanOf d).st == 3) := by
    unfold State.wakeChannel
    dsimp only
    show ((nth (upd s.mem.chans c _) d default).st == 3) = ((nth s.mem.chans d default).st == 3)
    by_cases hd : c = d
    · subst hd
      by_cases hlt : c < s.mem.chans.length
      · rw [nth_upd _ _ _ _ hlt]
        dsimp only [State.chanOf]
        by_cases h1 : (nth s.mem.chans c default).st = 1
        · simp [h1, apply_ite (· == 3)]
        · simp [h1]
      · rw [show upd s.mem.chans c _ = s.mem.chans from List.modify_eq_self (not_lt.mp hlt)]
    · rw [nth_upd_ne _ _ _ hd]
  exact hst _

/-- What a write leaves where the block that it lies in is sound. -/
theorem State.writeInBlock_sound {s : State} {a : Nat} (port : Nat) (data : List Byte) (hlost : s.blockLost (a / 64) = false)
    (hst : s.blockSt (a / 64) = 0) :
    (s.writeInBlock port a data).dram = ssetL 0 s.dram a data ∧
      ∀ b, b ≠ a / 64 → (s.writeInBlock port a data).blockLost b = s.blockLost b ∧ (s.writeInBlock port a data).blockSt b = s.blockSt b := by
  unfold State.writeInBlock
  dsimp only
  rw [if_neg (by simp [hlost])]
  split
  · exact ⟨rfl, fun b hb => ⟨s.wakeChannel_blockLost _ b, sget_sset_ne 0 hb.symm⟩⟩
  · exact ⟨rfl, fun b _ => ⟨s.wakeChannel_blockLost _ b, rfl⟩⟩

theorem sget_ssetL_bytes {m : List (Nat × Byte)} (a : Nat) (data : List Byte) (x : Nat) (h : Memory.wf m = true) :
    sget 0#8 (ssetL 0 m a data) x = if a ≤ x ∧ x < a + data.length then nth data (x - a) 0#8 else sget 0#8 m x :=
  sget_ssetL a data x h

theorem State.dramWriteGo_sound (port n : Nat) (s : State) (a : Nat) (data : List Byte) (x : Nat) (hwf : Memory.wf s.dram = true)
    (hs : s.sound a data.length) (hn : a % 64 + data.length ≤ 64 * n) :
    sget 0#8 (s.dramWriteGo port n a data).dram x = if a ≤ x ∧ x < a + data.length then nth data (x - a) 0#8 else sget 0#8 s.dram x := by
  induction n generalizing s a data with
  | zero =>
    have h0 : data.length = 0 := by omega
    exact (if_neg (by omega)).symm
  | succ n ih =>
    unfold State.dramWriteGo
    split
    · exact (if_neg (by simp)).symm
    · next hne =>
      have hpos : 0 < data.length := List.length_pos_iff.mpr hne
      dsimp only
      obtain ⟨hlost, hst⟩ := hs (a / 64) le_rfl (by omega)
      obtain ⟨hdram, hkeep⟩ := s.writeInBlock_sound port (data.take (64 - a % 64)) hlost hst
      by_cases hmore : data.length ≤ 64 - a % 64
      · rw [List.drop_eq_nil_of_le hmore, State.dramWriteGo_nil, hdram, List.take_of_length_le hmore]
        exact sget_ssetL_bytes a data x hwf
      · have hrest : (s.writeInBlock port a (data.take (64 - a % 64))).sound (a + (64 - a % 64)) (data.drop (64 - a % 64)).length := by
          intro b hb hb'
          rw [List.length_drop] at hb'
          obtain ⟨h1, h2⟩ := hkeep b (by omega)
          rw [h1, h2]
          exact hs b (by omega) (by omega)
        rw [ih _ _ _ (s.writeInBlock_wf _ _ _ hwf) hrest (by rw [List.length_drop]; omega), hdram, sget_ssetL_bytes _ _ _ hwf, List.length_drop,
          List.length_take]
        by_cases hin : a ≤ x ∧ x < a + data.length
        · rw [if_pos hin]
          by_cases hfirst : x < a + (64 - a % 64)
          · rw [if_neg (by omega), if_pos (by omega)]
            simp only [nth, List.getElem?_take_of_lt (show x - a < 64 - a % 64 by omega)]
          · rw [if_pos (by omega)]
            simp only [nth, List.getElem?_drop]
            congr 2
            omega
        · rw [if_neg hin, if_neg (by omega), if_neg (by omega)]

theorem State.dramWrite_sound (s : State) (a : Nat) (data : List Byte) (x : Nat) (hwf : Memory.wf s.dram = true)
    (hs : ∀ b ∈ blocksOf a data.length, s.blockLost b = false ∧ s.blockSt b = 0) :
    sget 0#8 (s.dramWrite a data).dram x = if a ≤ x ∧ x < a + data.length then nth data (x - a) 0#8 else sget 0#8 s.dram x := by
  obtain h0 | hpos := Nat.eq_zero_or_pos data.length
  · obtain rfl := List.length_eq_zero_iff.mp h0
    unfold State.dramWrite State.writeBy
    rw [State.dramWriteGo_nil, if_neg (by simp)]
  · exact State.dramWriteGo_sound 4 _ s a data x hwf (fun b h h' => hs b (mem_blocksOf hpos h h')) (by omega)

theorem State.barWrite_otherBlock (s : State) (off : Nat) (data : List Byte) {x : Nat}
    (hx : x / 64 < (s.pcie.winBase + off) / 64 ∨ (s.pcie.winBase + off + data.length - 1) / 64 < x / 64) :
    sget 0#8 (s.barWrite off data).dram x = sget 0#8 s.dram x := by
  unfold State.barWrite
  dsimp only
  split
  · exact s.dramWrite_otherBlock _ data hx
  · rfl

/-- Settles O17: a write goes block by block; each step stores within its own block, the bytes as they are where the block is sound. -/
theorem dramWritesReadBack : Obligations.DramWritesReadBack := by
  refine ⟨fun s a data x hx => s.dramWrite_otherBlock a data hx, fun s a data x hwf hs => s.dramWrite_sound a data x hwf hs, fun t off data s => ?_⟩
  refine completes_finish (f := fun s => s.runTiles.barWrite off data) rfl ?_
  intro x hx
  have hpcie : (s.atInstant t).runTiles.pcie = s.pcie :=
    ((s.atInstant t).runTiles_part (p := .pcie) (by decide)).trans (s.atInstant_part (p := .pcie) t)
  have hsettle (u : State) : u.settle.dram = u.dram := u.settle_part (p := .dram)
  rw [hsettle]
  exact State.barWrite_otherBlock _ off data (by rwa [hpcie])

end Sys2Proof.Machine

/-! PROOFS of the loss of the PCIe link. -/

namespace Sys2Proof.Machine

/-! ### A stream that ends (R448) -/

theorem State.streamEnd_frame (s : State) (k mode discarded : Nat) :
    (s.streamEnd k mode discarded).ctxs = s.ctxs ∧ (s.streamEnd k mode discarded).vectors = s.vectors ∧ (s.streamEnd k mode discarded).lines = s.lines ∧
      (s.streamEnd k mode discarded).felt = s.felt ∧ (s.streamEnd k mode discarded).trig = s.trig ∧ (s.streamEnd k mode discarded).pwr = s.pwr ∧
      (s.streamEnd k mode discarded).sys = s.sys ∧ (s.streamEnd k mode discarded).pcie = s.pcie := by
  unfold State.streamEnd
  dsimp only
  (repeat' split) <;> simp

theorem State.streamEnd_otherStream (s : State) {k j : Nat} (mode discarded : Nat) (h : k ≠ j) :
    (s.streamEnd k mode discarded).streamRun j = s.streamRun j := by
  have hset : nth (s.streams.set k none) j none = nth s.streams j none := by simp [nth, List.getElem?_set_ne h]
  unfold State.streamEnd
  dsimp only
  (repeat' split) <;> simp [State.streamRun, hset]

theorem State.applied_room {s : State} {n : Nat} (q : Pend) (src : Nat) (stamp : BitVec 96) (inst status : Nat) (h : s.room (n + 1)) :
    (s.applied q src stamp inst status).room n := by
  unfold State.applied
  split
  · exact State.room_le h (by omega)
  · exact room_raise s _ _ _ _ _ _ _ n h

/-- The end of a stream enters at most two records: EV_STREAM_DETACHED and EV_APPLIED. -/
theorem State.streamEnd_room {s : State} {n : Nat} (k mode discarded : Nat) (h : s.room (n + 2)) : (s.streamEnd k mode discarded).room n := by
  unfold State.streamEnd
  split
  · exact State.room_le h (by omega)
  · extract_lets s1
    have h0 : State.room { s with streams := s.streams.set k none } (n + 1 + 1) := h
    have h1 : s1.room (n + 1) := room_raise _ _ _ _ _ _ _ _ _ h0
    split
    · exact State.applied_room _ _ _ _ _ ((room_congr s1 _ _ (by simp) (by simp) (by simp)).mpr h1)
    · exact State.room_le h1 (by omega)

/-! ### The abort of a context of kinds 0 to 2 (R446) -/

/-- What an abort leaves of a context. -/
def Ctx.onAbort (c : Ctx) : Ctx :=
  { c with
    st := 0, cause := 0, postedIdx := 0, postedWrap := false, doneIdx := 0, doneWrap := false, stream := none, fetchAddr := c.cfg.head
    expectSeq := 0, ended := false, skip := false }

/-- An abort leaves the context as `Ctx.onAbort` says and ends its stream, if one runs. -/
theorem State.abortCtx_cases (s : State) {i : Nat} (hkind : (s.ctxOf i).cfg.kind ≠ 3) :
    s.abortCtx i = s.modCtx i Ctx.onAbort ∨
      ∃ k n, (s.ctxOf i).stream = some k ∧ s.abortCtx i = (s.modCtx i Ctx.onAbort).streamEnd k 1 n := by
  have hpackets (k : Nat) : s.abortPackets i k = s := by
    unfold State.abortPackets
    split
    · rw [if_neg hkind]
    · rfl
  unfold State.abortCtx
  dsimp only
  cases hk : (s.ctxOf i).stream with
  | none => exact .inl rfl
  | some k =>
    dsimp only
    rw [hpackets]
    split
    · exact .inl rfl
    · exact .inr ⟨k, _, rfl, rfl⟩

theorem State.modCtx_room {s : State} {n : Nat} (i : Nat) (f : Ctx → Ctx) (h : s.room n) : (s.modCtx i f).room n := h

theorem State.abortCtx_room {s : State} {i n : Nat} (hkind : (s.ctxOf i).cfg.kind ≠ 3) (h : s.room (n + 2)) : (s.abortCtx i).room n := by
  obtain hr | ⟨k, m, _, hr⟩ := s.abortCtx_cases hkind <;> rw [hr]
  · exact State.room_le (s.modCtx_room i _ h) (by omega)
  · exact State.streamEnd_room k 1 m (s.modCtx_room i _ h)

theorem State.abortCtx_frame (s : State) {i : Nat} (hkind : (s.ctxOf i).cfg.kind ≠ 3) :
    (s.abortCtx i).ctxs = upd s.ctxs i Ctx.onAbort ∧ (s.abortCtx i).vectors = s.vectors ∧ (s.abortCtx i).lines = s.lines ∧
      (s.abortCtx i).felt = s.felt ∧ (s.abortCtx i).trig = s.trig := by
  obtain hr | ⟨k, m, _, hr⟩ := s.abortCtx_cases hkind <;> rw [hr]
  · simp
  · simp [State.streamEnd_frame]

theorem State.abortCtx_otherStream (s : State) {i j : Nat} (hkind : (s.ctxOf i).cfg.kind ≠ 3) (hj : (s.ctxOf i).stream ≠ some j) :
    (s.abortCtx i).streamRun j = s.streamRun j := by
  obtain hr | ⟨k, m, hk, hr⟩ := s.abortCtx_cases hkind <;> rw [hr]
  · rfl
  · exact State.streamEnd_otherStream _ 1 m (fun h => hj (h ▸ hk))

/-! ### The loss of the link (R435) -/

/-- The step of the loss of the link for one context. -/
def State.linkAbort (s : State) (i : Nat) : State := if (s.ctxOf i).cfg.kind < 3 && (s.ctxOf i).st != 0 then s.abortCtx i else s

/-- What the aborts of the first `n` contexts have left of `s`, with room for the events of those that follow. -/
structure AbortedTo (s : State) (n : Nat) (u : State) : Prop where
  ctxs : ∀ i, u.ctxOf i = if i < n ∧ (s.ctxOf i).cfg.kind < 3 ∧ (s.ctxOf i).st ≠ 0 then (s.ctxOf i).onAbort else s.ctxOf i
  count : u.ctxs.length = 256
  vectors : u.vectors = s.vectors
  lines : u.lines = s.lines
  felt : u.felt = s.felt
  trig : u.trig = s.trig
  streams : ∀ k, (∀ i < 256, (s.ctxOf i).cfg.kind < 3 → (s.ctxOf i).stream ≠ some k) → u.streamRun k = s.streamRun k
  room : u.room (1024 - 2 * n)

theorem AbortedTo.start {s : State} (hlen : s.ctxs.length = 256) (hroom : s.room 1024) : AbortedTo s 0 s where
  ctxs i := by simp
  count := hlen
  vectors := rfl
  lines := rfl
  felt := rfl
  trig := rfl
  streams _ _ := rfl
  room := hroom

theorem AbortedTo.step {s u : State} {n : Nat} (h : AbortedTo s n u) (hn : n < 256) : AbortedTo s (n + 1) (u.linkAbort n) := by
  have hctx : u.ctxOf n = s.ctxOf n := (h.ctxs n).trans (if_neg (by omega))
  unfold State.linkAbort
  rw [hctx]
  split
  · next hdue =>
    obtain ⟨hkind, hst⟩ : (s.ctxOf n).cfg.kind < 3 ∧ (s.ctxOf n).st ≠ 0 := by simpa using hdue
    have hk3 : (u.ctxOf n).cfg.kind ≠ 3 := by rw [hctx]; omega
    obtain ⟨hctxs, hvectors, hlines, hfelt, htrig⟩ := u.abortCtx_frame hk3
    exact {
      ctxs := fun i => by
        show nth (u.abortCtx n).ctxs i default = _
        rw [hctxs]
        by_cases hi : n = i
        · subst hi
          rw [nth_upd _ _ _ _ (by rw [h.count]; exact hn), if_pos ⟨by omega, hkind, hst⟩]
          exact congrArg Ctx.onAbort hctx
        · rw [nth_upd_ne _ _ _ hi]
          refine (h.ctxs i).trans (if_congr ?_ rfl rfl)
          exact and_congr_left fun _ => by omega
      count := by rw [hctxs]; simpa [upd] using h.count
      vectors := hvectors.trans h.vectors
      lines := hlines.trans h.lines
      felt := hfelt.trans h.felt
      trig := htrig.trans h.trig
      streams := fun k hk => (u.abortCtx_otherStream hk3 (by rw [hctx]; exact hk n hn hkind)).trans (h.streams k hk)
      room := State.abortCtx_room hk3 (State.room_le h.room (by omega)) }
  · next hidle =>
    exact {
      ctxs := fun i => by
        refine (h.ctxs i).trans (if_congr ⟨fun ⟨a, b⟩ => ⟨by omega, b⟩, fun ⟨a, b⟩ => ⟨?_, b⟩⟩ rfl rfl)
        by_contra hge
        obtain rfl : i = n := by omega
        exact hidle (by simpa using b)
      count := h.count
      vectors := h.vectors
      lines := h.lines
      felt := h.felt
      trig := h.trig
      streams := h.streams
      room := State.room_le h.room (by omega) }

theorem AbortedTo.all {s : State} (hlen : s.ctxs.length = 256) (hroom : s.room 1024) (n : Nat) (hn : n ≤ 256) :
    AbortedTo s n ((List.range n).foldl State.linkAbort s) := by
  induction n with
  | zero => exact .start hlen hroom
  | succ n ih =>
    rw [List.range_succ, List.foldl_append]
    exact (ih (by omega)).step (by omega)

/-- What follows the aborts: window and moderation reset, and EV_PCIE_LINK. -/
def State.linkDown (u : State) (cause : Nat) (was : Pcie) : State :=
  State.raiseNow { u with vectors := u.vectors.map Vector.unmoderated, pcie := { u.pcie with winBase := 0, up := cause == 2 && u.pcie.up } } 0x0D06 sevNotice
    srcPcie (u8 cause ++ u8 was.speed ++ u8 was.width) none

theorem State.pcieReset_eq (s : State) (cause : Nat) : s.pcieReset cause = ((List.range 256).foldl State.linkAbort s).linkDown cause s.pcie := by
  have hstep : (fun (s : State) i => if (s.ctxOf i).cfg.kind < 3 && (s.ctxOf i).st != 0 then s.abortCtx i else s) = State.linkAbort := rfl
  unfold State.pcieReset
  rw [hstep]
  generalize (List.range 256).foldl State.linkAbort s = v
  rfl

theorem State.linkDown_frame (u : State) (cause : Nat) (was : Pcie) :
    (u.linkDown cause was).ctxs = u.ctxs ∧ (u.linkDown cause was).vectors = u.vectors.map Vector.unmoderated ∧ (u.linkDown cause was).pcie.winBase = 0 ∧
      (u.linkDown cause was).lines = u.lines ∧ (u.linkDown cause was).streams = u.streams ∧ (u.linkDown cause was).felt = u.felt ∧
      (u.linkDown cause was).trig = u.trig := by
  simp only [State.linkDown, State.raiseNow_frame, and_self]

theorem State.linkDown_reports {u : State} (cause : Nat) (was : Pcie) (h : u.room 1) :
    (u.linkDown cause was).reported 0x0D06 srcPcie (u8 cause ++ u8 was.speed ++ u8 was.width) :=
  reported_raise _ _ _ _ _ _ _ h

/-- Settles O10: the aborts go context by context (`AbortedTo`); each enters at most two records, so that the link's own is entered too. -/
theorem pcieLinkResetAborts : Obligations.PcieLinkResetAborts := by
  intro t cause s hlen hroom
  refine completes_finish (f := fun s => s.pcieReset cause) rfl ?_
  have hr : (s.atInstant t).room 1024 := by simpa [State.room] using hroom
  have hall := AbortedTo.all (s := s.atInstant t) (by simpa using hlen) hr 256 le_rfl
  have hpcie : (s.atInstant t).pcie = s.pcie := by simp
  rw [State.pcieReset_eq, hpcie]
  generalize (List.range 256).foldl State.linkAbort (s.atInstant t) = v at hall
  obtain ⟨hctxs, _, hvectors, hlines, hfelt, htrig, hstreams, hroom1⟩ := hall
  obtain ⟨dctxs, dvectors, dbase, dlines, dstreams, dfelt, dtrig⟩ := v.linkDown_frame cause s.pcie
  have hreport := reported_settle _ _ _ _ (State.linkDown_reports cause s.pcie (State.room_le hroom1 (by omega)))
  have hafter (i : Nat) : (v.linkDown cause s.pcie).settle.ctxOf i = v.ctxOf i := by
    simp only [State.ctxOf, State.settle_frame, dctxs]
  have hctxOf (i : Nat) : (s.atInstant t).ctxOf i = s.ctxOf i := by simp [State.ctxOf]
  have hrun (k : Nat) : (s.atInstant t).streamRun k = s.streamRun k := by simp [State.streamRun]
  simp only [hctxOf, hrun] at hctxs hstreams
  refine ⟨fun i hi hkind hst => ?_, fun i _ hkind => ?_, ?_, ?_, ?_, ?_, fun k _ hk => ?_, ?_, ?_⟩
  · rw [hafter, hctxs, if_pos ⟨hi, hkind, hst⟩]
    rfl
  · rw [hafter, hctxs, if_neg (by omega)]
  · simpa only [State.settle_frame] using dbase
  · simp only [State.settle_frame, dvectors, hvectors, State.atInstant_frame]
    rfl
  · exact hreport
  · simp only [State.settle_frame, dlines, hlines, State.atInstant_frame]
  · rw [← hstreams k hk]
    simp only [State.streamRun, State.settle_frame, dstreams]
  · simp only [State.settle_frame, dfelt, hfelt, State.atInstant_frame]
  · simp only [State.settle_frame, dtrig, htrig, State.atInstant_frame]

end Sys2Proof.Machine

/-! PROOFS of DRAM channels and the memory commands. -/

namespace Sys2Proof.Machine

/-! ### Channels on their own: drift checks, self-refresh, loss (R391, R408, R409) -/

theorem State.driftCheck_due {s : State} {c drift : Nat} (ok : Bool) (hc : c ∈ s.channels) (hst : (s.chanOf c).st = 0) (hdrift : 125 < drift) :
    s.driftCheck c drift ok = s.modChan c (fun x => { x with
      retrains := satAdd x.retrains 1, retraining := if ok then x.retraining else some (x.retraining.getD s.now) }) := by
  unfold State.driftCheck
  exact if_neg (by simp [hc, hst, hdrift])

theorem wckDriftCheckCompletes : WckDriftCheckCompletes := by
  intro t ch drift ok s hc hst hdrift
  refine completes_finish (f := fun s => s.driftCheck ch drift ok) rfl ?_
  rw [State.driftCheck_due (s := s.atInstant t) ok hc hst hdrift]
  simp only [State.settle_frame]
  rfl

theorem State.srEntry_due {s : State} {c us : Nat} (hafter : (s.chanOf c).srAfter = some us) (hc : c ∈ s.channels) (hst : (s.chanOf c).st = 0)
    (hidle : (s.chanOf c).lastReq + us * ticksPerUs ≤ s.now) :
    s.srEntry c = s.modChan c (fun x => { x with st := 1, srEntries := satAdd x.srEntries 1 }) := by
  unfold State.srEntry
  simp only [hafter]
  exact if_pos (by simp [hc, hst, hidle])

theorem selfRefreshEntryCompletes : SelfRefreshEntryCompletes := by
  intro t ch us s hafter hc hst hidle
  refine completes_finish (f := fun s => s.srEntry ch) rfl ?_
  rw [State.srEntry_due (s := s.atInstant t) hafter hc hst hidle]
  simp only [State.settle_frame]
  rfl

theorem State.srExit_due {s : State} {c : Nat} (hst : (s.chanOf c).st = 1) (hp : s.pwr.st ≠ 2) :
    s.srExit c = s.modChan c (fun x => { x with
      st := 0, srWaits := satAdd x.srWaits 1, lastReq := s.now, srAfter := if s.cfg.mem.idleSr then some s.cfg.mem.idleSrUs else none }) := by
  unfold State.srExit State.wakeChannel
  have hwakes : (decide ((s.chanOf c).st = 1) && s.pwr.st != 2) = true := by simp [hst, hp]
  rw [if_pos hst]
  simp only [hwakes, if_true]

theorem selfRefreshExitCompletes : SelfRefreshExitCompletes := by
  intro t ch s hst hp
  refine completes_finish (f := fun s => s.srExit ch) rfl ?_
  rw [State.srExit_due (s := s.atInstant t) hst hp]
  simp only [State.settle_frame]
  rfl

theorem State.requestLate_due {s : State} {port ns : Nat} (ch : Nat) (hport : port ≤ 4)
    (htarget : s.latencyTarget port (s.now - ns * ticksPerUs / 1000) ≤ ns) :
    s.requestLate port ch ns =
      ((s.modChan ch (fun x => { x with maxLatency := max x.maxLatency (satTo 4 ns) })).modMem
        (fun m => { m with late := upd m.late port (fun n => satAdd n 1) })).raiseNow 0x0C04 sevNotice srcDevice (u8 port ++ u32 (satTo 4 ns)) (some [port]) := by
  unfold State.requestLate
  exact if_neg (by simp [hport, htarget])

theorem requestLateCompletes : RequestLateCompletes := by
  intro t port ch ns s hport htarget hreport
  refine completes_finish (f := fun s => s.requestLate port ch ns) rfl ?_
  have hroom : (s.atInstant t).room 1 := State.room_le (room_of_canReport _ hreport) (by decide)
  rw [State.requestLate_due ch hport htarget]
  exact ⟨by simp only [State.settle_frame, State.raiseNow_frame]; rfl, heard_settle _ _ _ (heard_raise _ _ _ _ _ _ _ _ hroom)⟩

theorem State.channelLost_due {s : State} {c : Nat} (cause : Nat) (hc : c ∈ s.channels) (hst : (s.chanOf c).st ≠ 3) :
    s.channelLost c cause =
      (s.modChan c (fun x => { x with st := 3, retraining := none })).raiseNow 0x0C06 sevFault (srcChannel c) (u8 cause) none := by
  unfold State.channelLost
  exact if_neg (by simp [hc, hst])

theorem channelLostCompletes : ChannelLostCompletes := by
  intro t ch cause s hc hst hreport
  refine completes_finish (f := fun s => s.channelLost ch cause) rfl ?_
  have hroom : (s.atInstant t).room 1 := State.room_le (room_of_canReport _ hreport) (by decide)
  rw [State.channelLost_due (s := s.atInstant t) cause hc hst]
  exact ⟨by simp only [State.settle_frame, State.raiseNow_frame]; rfl, reported_settle _ _ _ _ (reported_raise _ _ _ _ _ _ _ hroom)⟩

/-! ### The memory commands (R412, R413) -/

theorem memConfig_ok {c : Cmd} {s : State} (hok : memCfgOk (readMemCfg c.arg) = true)
    (hshares : (readMemCfg c.arg).mask = s.cfg.mem.mask ∨ s.sharesUnder (readMemCfg c.arg).mask = true) :
    memConfig c s = okay ((s.modCfg (fun k => { k with mem := readMemCfg c.arg })).modMem (fun m => { m with
      forceFull := bit (rd c.arg 1 1) 1, past := pastPut m.past s.now ticksPerSecond s.cfg.mem })) := by
  unfold memConfig
  rw [if_neg (by simp [hok]), if_neg (by simpa [imp_iff_not_or, -ne_eq, not_ne_iff] using hshares)]

theorem memConfigCompletes : MemConfigCompletes := by
  intro t c s ha hok hshares
  refine completes_okWith _ t _ _ c s _ [] _ rfl ha (memConfig_ok hok hshares) rfl fun eff => ?_
  simp only [State.settle_frame, State.answer_frame, State.presentNonce_frame]
  exact ⟨rfl, rfl, rfl⟩

theorem memStatusCompletes : MemStatusCompletes := by
  intro t c s ha
  refine completes_okWith _ t _ _ c s _ _ _ rfl ha rfl ?_ fun eff => ?_
  · split <;> rfl
  · simp only [State.settle_frame, State.answer_frame, State.presentNonce_frame]
    split <;> rfl

theorem memRemaps_ok {c : Cmd} {s : State} (hch : rd c.arg 0 1 ≤ 3) (hn : 1 ≤ rd c.arg 4 2 ∧ rd c.arg 4 2 ≤ 256)
    (hend : rd c.arg 2 2 + rd c.arg 4 2 ≤ 1024) :
    memRemaps c s = okWith s ((List.range (rd c.arg 4 2)).flatMap (fun k =>
      match (s.remapsOf (rd c.arg 0 1)).find? (fun r => r.spare == rd c.arg 2 2 + k) with
      | none => zeros 8
      | some r => u8 (if r.permanent then 2 else 1) ++ u8 (r.at_.sub + 2 * r.at_.rank) ++ u16 r.at_.bank ++ u32 r.at_.row)) := by
  unfold memRemaps
  refine (if_neg ?_).trans rfl
  simp only [Bool.or_eq_true, decide_eq_true_eq]
  omega

theorem memRemapsCompletes : MemRemapsCompletes := by
  intro t c s ha hch hn hend
  refine completes_okWith _ t _ _ c s _ _ _ rfl ha (memRemaps_ok hch hn hend) rfl fun eff => ?_
  simp only [State.settle_frame, State.answer_frame, State.presentNonce_frame]
  rfl

/-- Settles O48: each row is `finish` of an operation or of a handler; the lemma about the operation says what it leaves where the premises hold. -/
theorem memoryControlComplete : Obligations.MemoryControlComplete :=
  ⟨wckDriftCheckCompletes, selfRefreshEntryCompletes, selfRefreshExitCompletes, requestLateCompletes, channelLostCompletes, memConfigCompletes,
    memStatusCompletes, memRemapsCompletes⟩

end Sys2Proof.Machine

/-! PROOFS of contexts, ports, streams, event release and the heartbeat. -/

namespace Sys2Proof.Machine

theorem leNat_lt (l : List Byte) : leNat l < 256 ^ l.length := by
  induction l with
  | nil => decide
  | cons b r ih =>
    have hb : b.toNat < 256 := b.isLt
    rw [leNat, List.length_cons, Nat.pow_succ]
    omega

/-- A field of one byte is below 256. -/
theorem rd_one_lt (p : List Byte) (o : Nat) : rd p o 1 < 256 :=
  (leNat_lt _).trans_le ((Nat.pow_le_pow_right (by decide) (List.length_take_le 1 _)).trans_eq (Nat.pow_one 256))

/-! ### Contexts (R428, R429, R446, R447) -/

theorem dmaConfig_ok {c : Cmd} {s : State} (hargs : ctxArgsOk (rd c.arg 0 1) c.arg (readCtxCfg c.arg) = true) (hst : (s.ctxOf (rd c.arg 0 1)).st = 0)
    (hstream : (s.ctxOf (rd c.arg 0 1)).stream = none) (hshare : s.shareSum (rd c.arg 0 1) (readCtxCfg c.arg) ≤ 256) :
    dmaConfig c s = okay (s.modCtx (rd c.arg 0 1) (fun x => { x with
      cfg := readCtxCfg c.arg, configured := true, postedIdx := 0, postedWrap := false, doneIdx := 0, doneWrap := false
      fetchAddr := (readCtxCfg c.arg).head, expectSeq := 0, ended := false, skip := false, tokens := (readCtxCfg c.arg).burst * tokenByte
      tokensAt := s.now })) := by
  unfold dmaConfig
  rw [if_neg (by simp [hargs]), if_neg (by simp [hst, hstream]), if_neg (Nat.not_lt.mpr hshare)]

theorem dmaConfigCompletes : DmaConfigCompletes := by
  intro t c s ha hargs hst hstream hshare
  refine completes_okWith _ t _ _ c s _ [] _ rfl ha (dmaConfig_ok hargs hst hstream hshare) rfl fun eff => ?_
  simp only [State.settle_frame, State.answer_frame, State.presentNonce_frame]
  rfl

theorem dmaResume_ok {c : Cmd} {s : State} (hmode : rd c.arg 1 1 ≤ 1) (hst : (s.ctxOf (rd c.arg 0 1)).st = 4)
    (hcause : rd c.arg 1 1 = 0 ∨ 3 ≤ (s.ctxOf (rd c.arg 0 1)).cause) (hstream : (s.ctxOf (rd c.arg 0 1)).stream = none) :
    dmaResume c s = okay ((s.settleBucket (rd c.arg 0 1)).modCtx (rd c.arg 0 1)
      (fun x => { x with st := x.running, cause := 0, skip := rd c.arg 1 1 == 1 })) := by
  have hskip : ¬(decide ((s.ctxOf (rd c.arg 0 1)).st = 4) && rd c.arg 1 1 == 1 && decide ((s.ctxOf (rd c.arg 0 1)).cause ≤ 2)) = true := by
    simp only [Bool.and_eq_true, decide_eq_true_eq, beq_iff_eq]
    omega
  unfold dmaResume
  dsimp only
  rw [if_neg (by omega), if_neg hskip, if_neg (by simp [hst])]
  simp only [hstream, Bool.false_eq_true, if_false]

theorem dmaResumeCompletes : DmaResumeCompletes := by
  rintro t _ c s ha rfl hmode hst hcause hstream
  refine completes_okWith _ t _ _ c s _ [] _ rfl ha (dmaResume_ok hmode hst hcause hstream) rfl fun eff => ?_
  simp only [State.settle_frame, State.answer_frame, State.presentNonce_frame]
  rfl

theorem State.abortCtx_idle (s : State) {i : Nat} (hstream : (s.ctxOf i).stream = none) : s.abortCtx i = s.modCtx i Ctx.onAbort := by
  unfold State.abortCtx
  simp only [hstream]
  rfl

theorem dmaAbort_ok {c : Cmd} {s : State} (hst : (s.ctxOf (rd c.arg 0 1)).st ≠ 0) (hstream : (s.ctxOf (rd c.arg 0 1)).stream = none) :
    dmaAbort c s = okay (s.modCtx (rd c.arg 0 1) Ctx.onAbort) := by
  unfold dmaAbort
  dsimp only
  rw [if_neg hst, State.abortCtx_idle s hstream]

theorem dmaAbortCompletes : DmaAbortCompletes := by
  rintro t _ c s ha rfl hst hstream
  refine completes_okWith _ t _ _ c s _ [] _ rfl ha (dmaAbort_ok hst hstream) rfl fun eff => ?_
  simp only [State.settle_frame, State.answer_frame, State.presentNonce_frame]
  rfl

theorem dmaStatus_ok {c : Cmd} {s : State} (hn : rd c.arg 0 2 < 256) :
    dmaStatus c s = okWith (if bit (rd c.arg 2 1) 0 then
      ({ s.modCtx (rd c.arg 0 2) (fun x => { x with
          bytes := 0, descriptors := 0, halts := 0, records := 0, aborted := 0, itemsLost := 0, narrowed := 0, poisoned := 0 }) with
        pcie := { s.pcie with winDenied := 0 } }).clearSat 0x0D09 (rd c.arg 0 2) else s) (s.ctxBody (rd c.arg 0 2)) := by
  unfold dmaStatus
  exact (if_neg (by omega)).trans (if_pos hn)

theorem dmaStatusCompletes : DmaStatusCompletes := by
  intro t c s ha hn
  refine completes_okWith _ t _ _ c s _ _ _ rfl ha (dmaStatus_ok hn) ?_ fun eff => ?_
  · split <;> rfl
  · simp only [State.settle_frame, State.answer_frame, State.presentNonce_frame]
    split <;> rfl

/-! ### Links and ports (R436, R442) -/

theorem dmaLink_ok {c : Cmd} {s : State} (hus : 1 ≤ rd c.arg 0 4 ∧ rd c.arg 0 4 ≤ 64000) :
    dmaLink c s = okay (s.modCfg (fun g => { g with cplTimeout := rd c.arg 0 4 })) := by
  unfold dmaLink
  exact if_neg (by simp; omega)

theorem dmaLinkCompletes : DmaLinkCompletes := by
  intro t c s ha hus
  refine completes_okWith _ t _ _ c s _ [] _ rfl ha (dmaLink_ok hus) rfl fun eff => ?_
  simp only [State.settle_frame, State.answer_frame, State.presentNonce_frame]
  rfl

theorem State.ethLink_frame (s : State) (p : Nat) (up : Bool) : (s.ethLink p up).cfg = s.cfg ∧ (s.ethLink p up).mbs = s.mbs := by
  unfold State.ethLink
  split <;> simp

theorem dmaPort_ok {c : Cmd} {s : State} (hn : rd c.arg 0 1 ≤ 1) (hfec : (readPortCfg c.arg).fec ≤ 2)
    (hmtu : 1500 ≤ (readPortCfg c.arg).mtu ∧ (readPortCfg c.arg).mtu ≤ 9000)
    (hptp : s.cfg.tb.ptpPort ≠ rd c.arg 0 1 ∨ (s.portCfg (rd c.arg 0 1)).enabled = false ∨ (readPortCfg c.arg).enabled = true) :
    ∃ u, dmaPort c s = okay u ∧ u.cfg = { s.cfg with ports := s.cfg.ports.set (rd c.arg 0 1) (readPortCfg c.arg) } ∧ u.mbs = s.mbs := by
  have hbad : ¬(decide (1 < rd c.arg 0 1) || decide (2 < (readPortCfg c.arg).fec) || decide ((readPortCfg c.arg).mtu < 1500) ||
      decide (9000 < (readPortCfg c.arg).mtu)) = true := by
    simp only [Bool.or_eq_true, decide_eq_true_eq]
    omega
  have huse : ¬(decide (s.cfg.tb.ptpPort = rd c.arg 0 1) && (s.portCfg (rd c.arg 0 1)).enabled && !(readPortCfg c.arg).enabled) = true := by
    obtain h | h | h := hptp <;> simp [h]
  unfold dmaPort
  dsimp only
  rw [if_neg hbad, if_neg huse]
  refine ⟨_, rfl, ?_⟩
  split
  · obtain ⟨hcfg, hmbs⟩ := State.ethLink_frame (s.modCfg (fun k => { k with ports := k.ports.set (rd c.arg 0 1) (readPortCfg c.arg) })) (rd c.arg 0 1) false
    exact ⟨hcfg, hmbs⟩
  · exact ⟨rfl, rfl⟩

theorem dmaPortCompletes : DmaPortCompletes := by
  rintro t _ c s ha rfl hn hfec hmtu hptp
  obtain ⟨u, hu, hcfg, hmbs⟩ := dmaPort_ok (s := (s.atInstant t).placed 0x0D05 c) hn hfec hmtu hptp
  refine completes_okWith _ t _ _ c s u [] _ rfl ha hu hmbs fun eff => ?_
  simp only [State.settle_frame, State.answer_frame, State.presentNonce_frame, hcfg]
  rfl

/-! ### Streams (R442, R448) -/

theorem streamDefine_ok {c : Cmd} {s : State} (hsource : rd c.arg 1 1 ≤ 5)
    (hline : rd c.arg 1 1 = 0 ∨ 4 ≤ rd c.arg 1 1 ∨ s.lineEnabled (rd c.arg 2 1) = true) (hreader : rd c.arg 1 1 = 1 → rd c.arg 3 1 < 16)
    (hprofile : rd c.arg 4 1 = 0xFF) (hflags : rd c.arg 5 1 = 0 ∨ rd c.arg 1 1 = 4) (hitems : 1 ≤ rd c.arg 6 2 ∧ rd c.arg 6 2 ≤ 1024)
    (hflush : 10 ≤ rd c.arg 8 4 ∧ rd c.arg 8 4 ≤ 1000000) (hfree : s.streamRun (rd c.arg 0 1) = none) :
    streamDefine c s = okay (s.modCfg (fun g => { g with
      streams := g.streams.set (rd c.arg 0 1) (some ⟨rd c.arg 1 1, rd c.arg 2 1, rd c.arg 3 1, 0xFF, rd c.arg 5 1, rd c.arg 6 2, rd c.arg 8 4⟩) })) := by
  have hkeeps : (rd c.arg 1 1 == 0xFF) = false := by
    rw [beq_eq_false_iff_ne]
    omega
  have hl : ¬rd c.arg 1 1 = 0 → rd c.arg 1 1 < 4 → s.lineEnabled (rd c.arg 2 1) = true := fun h0 h4 =>
    (hline.resolve_left h0).resolve_left (Nat.not_le.mpr h4)
  unfold streamDefine
  dsimp only
  rw [if_neg ?_, if_neg (by simp [hfree]), hkeeps, hprofile]
  · rfl
  · simp [hkeeps, hprofile, hsource, hitems, hflush]
    exact ⟨⟨hl, hreader⟩, hflags.resolve_left⟩

theorem streamDefineCompletes : StreamDefineCompletes := by
  intro t c s ha hsource hline hreader hprofile hflags hitems hflush hfree
  refine completes_okWith _ t _ _ c s _ [] _ rfl ha (streamDefine_ok hsource hline hreader hprofile hflags hitems hflush hfree) rfl fun eff => ?_
  simp only [State.settle_frame, State.answer_frame, State.presentNonce_frame]
  rfl

/-- A stream of source 5 has no items at first, and no stream runs that it could share its source with. -/
theorem streamAttach_ok {c : Cmd} {s : State} {d : StreamDef} (hd : s.streamDef (rd c.arg 0 1) = some d) (hprofile : d.profile = 0xFF)
    (hsource : d.source = 5) (hst : (s.ctxOf (rd c.arg 1 1)).st = 0) (hconf : (s.ctxOf (rd c.arg 1 1)).configured = true)
    (hkind : (s.ctxOf (rd c.arg 1 1)).cfg.kind = 2 ∨ (s.ctxOf (rd c.arg 1 1)).cfg.kind = 3) (hi : rd c.arg 1 1 ≠ 0)
    (hfree : ∀ j < 256, s.streamRun j = none) :
    streamAttach c s = okay (State.modCtx { s with
      streams := s.streams.set (rd c.arg 0 1) (some ⟨rd c.arg 1 1, 0, 0, [], [], 0, s.now, none, false, 0, 0, 0, 0, false⟩) }
        (rd c.arg 1 1) (fun x => { x with stream := some (rd c.arg 0 1), st := x.running })) := by
  have hk : s.streamRun (rd c.arg 0 1) = none := hfree _ (rd_one_lt _ _)
  unfold streamAttach
  simp only [hd]
  rw [if_neg (by simp [hprofile]), if_neg (by simp [hst, hconf, hsource, hi, hprofile]; tauto), if_neg ?_]
  · simp only [State.firstItems, hsource]
  · simp only [hk, Option.isSome_none, Bool.false_or, Bool.not_eq_true, List.any_eq_false, List.mem_range]
    intro j hj
    simp [hfree j hj]

theorem streamAttachCompletes : StreamAttachCompletes := by
  rintro t _ _ d c s ha rfl rfl hd hprofile hsource hst hconf hkind hi hfree
  refine completes_okWith _ t _ _ c s _ [] _ rfl ha (streamAttach_ok hd hprofile hsource hst hconf hkind hi hfree) rfl fun eff => ?_
  simp only [State.settle_frame, State.answer_frame, State.presentNonce_frame]
  exact ⟨rfl, rfl⟩

theorem streamDetach_pends {c : Cmd} {s : State} {r : StreamRun} (hmode : rd c.arg 1 1 = 0) (hfree : s.pendOf 0x0D08 (rd c.arg 0 1) = none)
    (hrun : s.streamRun (rd c.arg 0 1) = some r) :
    streamDetach c s = pendWith ((s.modStream (rd c.arg 0 1) (fun r => { r with detach := some 0 })).modCtx r.ctx
      (fun x => { x with st := if x.st = 4 then 4 else 5 })) c 0x0D08 [rd c.arg 0 1] none := by
  unfold streamDetach
  dsimp only
  rw [if_neg (by omega), if_neg (by simp [hfree]), if_neg (by simp [hrun]), hmode]
  simp only [State.detachStream, hrun, if_true]

theorem streamDetachCompletes : StreamDetachCompletes := by
  rintro t _ r c s ha rfl hmode hfree hrun
  refine completes_of_handler _ t _ _ c s _ ⟨stPending, none, []⟩ _ rfl ha (streamDetach_pends hmode hfree hrun) rfl fun eff => ?_
  simp only [State.awaits, State.streamRun, State.settle_frame, State.answer_frame, State.presentNonce_frame]
  refine ⟨rfl, ?_, rfl⟩
  have hk : rd c.arg 0 1 < s.streams.length := lt_of_nth_ne (d := none) (by rw [show nth s.streams _ none = _ from hrun]; simp)
  show nth (upd s.streams (rd c.arg 0 1) _) (rd c.arg 0 1) none = _
  rw [nth_upd _ _ _ _ hk, show nth s.streams _ none = _ from hrun]
  rfl

theorem State.applied_reported {s : State} {q : Pend} {source inst status code src : Nat} {stamp : BitVec 96} {args : List Byte}
    (h : s.reported code src args) : (s.applied q source stamp inst status).reported code src args := by
  unfold State.applied
  split
  · exact h
  · exact reported_raise_of _ _ _ _ _ _ _ _ _ _ _ h

theorem lt_of_streamRun {s : State} {k : Nat} {r : StreamRun} (h : s.streamRun k = some r) : k < s.streams.length :=
  lt_of_nth_ne (d := none) (by rw [show nth s.streams k none = some r from h]; simp)

/-- A stream whose detach a command asked for ends: it is gone, the command waits no more, and EV_STREAM_DETACHED says so. -/
theorem State.streamEnd_pending {s : State} {k mode n : Nat} {r : StreamRun} {p : Pend} (hrun : s.streamRun k = some r)
    (hp : s.pendOf 0x0D08 k = some p) (hroom : s.room 1) :
    (s.streamEnd k mode n).streams = s.streams.set k none ∧ (s.streamEnd k mode n).pend = Machine.strike 0x0D08 k s.pend ∧
      (s.streamEnd k mode n).reported 0x0D02 srcDma (u8 k ++ u8 r.ctx ++ u8 mode ++ u32 (satTo 4 n)) := by
  have hp' : (State.raiseNow { s with streams := s.streams.set k none } 0x0D02 sevInfo srcDma (u8 k ++ u8 r.ctx ++ u8 mode ++ u32 (satTo 4 n)) none).pendOf
      0x0D08 k = some p := by simpa only [State.pendOf, State.raiseNow_frame] using hp
  have hevent := reported_raise { s with streams := s.streams.set k none } 0x0D02 sevInfo srcDma
    (State.devStamp { s with streams := s.streams.set k none } s.now) s.now (u8 k ++ u8 r.ctx ++ u8 mode ++ u32 (satTo 4 n)) hroom
  unfold State.streamEnd
  simp only [hrun, hp']
  refine ⟨by simp only [State.applied_frame, State.strike_frame, State.raiseNow_frame], ?_, ?_⟩
  · simp only [State.applied_frame, State.strike, State.raiseNow_frame]
  · exact State.applied_reported hevent

/-- The last record of a detached stream is out: the stream ends. -/
theorem State.streamDetached_ends {s : State} {k mode : Nat} {r : StreamRun} (hrun : s.streamRun k = some r) (hmode : r.detach = some mode)
    (hended : r.ended = true) (hempty : r.closed = [] ∧ r.waiting = []) :
    s.streamDetached k = (s.modCtx r.ctx (fun x => { x with st := 0, stream := none })).streamEnd k mode r.discarded := by
  unfold State.streamDetached
  simp only [hrun, hmode]
  exact if_neg (by simp [hended, hempty])

theorem streamDetachedCompletes : StreamDetachedCompletes := by
  intro t k mode r p s hrun hmode hended hempty hp hpwr hshut hreport
  refine completes_finish (f := fun s => (s.streamDetached k).advance) rfl ?_
  rw [State.advance_of_part (s := s.atInstant t) (State.streamDetached_part _ k (by decide)) (State.streamDetached_part _ k (by decide)) hpwr hshut,
    State.streamDetached_ends (s := s.atInstant t) hrun hmode hended hempty]
  have hroom : (s.atInstant t).room 1 := State.room_le (room_of_canReport _ hreport) (by decide)
  obtain ⟨hstreams, hpend, hevent⟩ := State.streamEnd_pending (s := (s.atInstant t).modCtx r.ctx (fun x => { x with st := 0, stream := none }))
    (mode := mode) (n := r.discarded) hrun hp hroom
  refine ⟨?_, ?_, ?_, reported_settle _ _ _ _ hevent⟩
  · simp only [State.settle_frame, hstreams]
    rfl
  · simp only [State.settle_frame, State.streamEnd_frame]
    rfl
  · simp only [State.settle_frame, hpend]
    rfl

/-! ### Events and the heartbeat (R465, R468) -/

theorem heartbeatTickCompletes : HeartbeatTickCompletes := by
  intro t s hruns
  refine completes_finish (f := State.heartbeat) rfl ?_
  have h : (s.atInstant t).cpcRuns = true := hruns
  unfold State.heartbeat
  rw [if_pos h]
  simp only [State.settle_frame]
  rfl

/-- A stream without a detach in progress takes an item that it is defined to carry. -/
theorem State.deliver_streamRun {s : State} {k : Nat} {r : StreamRun} {d : StreamDef} {sel : StreamDef → Bool} (i : Item) (hrun : s.streamRun k = some r)
    (hdef : s.streamDef k = some d) (hsel : sel d = true) (hdetach : r.detach = none) :
    (s.deliver sel i).streamRun k = some { r with waiting := r.waiting ++ [(s.now, i)] } := by
  have hk := lt_of_streamRun hrun
  have hget : s.streams[k]? = some (some r) := by
    have h : s.streams[k]?.getD none = some r := hrun
    rw [List.getElem?_eq_getElem hk] at h ⊢
    exact congrArg some h
  have hdef' : nth s.cfg.streams k none = some d := hdef
  simp only [State.streamRun, State.deliver, nth, List.getElem?_map, List.getElem?_zipIdx, hget, Option.map_some, Option.getD_some, Nat.zero_add]
  simp only [nth] at hdef'
  simp [hdef', hsel, hdetach]

/-- With no record lost and none dropped, what follows the state adds none. -/
theorem State.settle_ev_of_quiet {s : State} (hlost : s.ev.lost = [0, 0, 0, 0]) (hdropped : s.log.droppedPending = 0) : s.settle.ev = s.ev := by
  have h1 : s.reportLost = s := if_neg (by simp [hlost])
  have h2 : s.reportDropped = s := if_neg (by simp [hdropped])
  unfold State.settle
  rw [h1, h2]
  simp

theorem eventReleaseCompletes : EventReleaseCompletes := by
  intro t k r rest q d s hheld hflow hctx hrun hdef hsource hdue hlost hdropped
  refine completes_finish (f := State.eventRelease) rfl ?_
  have hheld' : (s.atInstant t).ev.held = r :: rest := hheld
  have hflow' : (s.atInstant t).eventsFlow = true := hflow
  have hdue' : ¬(s.atInstant t).now < r.due := Nat.not_lt.mpr hdue
  have hdetach : q.detach = none := by
    simp only [State.eventsFlow, hctx, hrun, Option.any_some, Bool.and_eq_true] at hflow
    exact Option.isNone_iff_eq_none.mp hflow.1
  unfold State.eventRelease
  simp only [hheld', hflow', hdue', Bool.not_true, Bool.false_or, decide_false, Bool.false_eq_true, if_false]
  refine ⟨?_, ?_, ?_⟩
  · rw [State.settle_ev_of_quiet (by exact hlost) (by exact hdropped)]
    rfl
  · rw [State.settle_ev_of_quiet (by exact hlost) (by exact hdropped)]
    rfl
  · simp only [State.streamRun, State.settle_frame]
    exact State.deliver_streamRun (s := { s.atInstant t with
      ev := { s.ev with held := rest, lastReleased := some (max r.inst (s.ev.lastReleased.getD 0)) } }) _ hrun hdef (by simp [hsource]) hdetach

/-- Settles O50: each row is `finish` of an operation or of a handler; the lemma about the operation says what it leaves where the premises hold. -/
theorem dmaCommandsComplete : Obligations.DmaCommandsComplete :=
  ⟨dmaConfigCompletes, dmaResumeCompletes, dmaAbortCompletes, dmaLinkCompletes, dmaPortCompletes, streamDefineCompletes, streamAttachCompletes,
    streamDetachCompletes, streamDetachedCompletes, dmaStatusCompletes, eventReleaseCompletes, heartbeatTickCompletes⟩

end Sys2Proof.Machine

/-! PROOFS of sessions, rights and debug levels. -/

namespace Sys2Proof.Machine

/-! ### What an answer on PCIe leaves of security and events -/

theorem eth_none_of_admits {s : State} {op : Nat} {c : Cmd} (ha : s.admits op c = true) : c.eth = none := by
  simp only [State.admits, State.takes, Bool.and_eq_true, Option.isNone_iff_eq_none] at ha
  tauto

theorem State.respond_sec (s : State) {c : Cmd} (bytes : List Byte) (he : c.eth = none) : (s.respond c bytes).sec = s.sec := by
  unfold State.respond
  simp only [he]
  (repeat' split) <;> rfl

theorem State.answer_sec (s : State) {c : Cmd} (r : Resp) (eff : BitVec 96) (he : c.eth = none) : (s.answer c r eff).sec = s.sec :=
  State.respond_sec _ _ he

theorem State.presentNonce_sessions (s : State) (op : Nat) (c : Cmd) : (s.presentNonce op c).sec.sessions = s.sec.sessions := by
  unfold State.presentNonce
  split <;> rfl

theorem State.presentNonce_none (s : State) {op : Nat} {c : Cmd} (h : tokenAt op c.arg = none) : s.presentNonce op c = s := by
  unfold State.presentNonce
  rw [h]

/-- A record that is entered stays where its command is answered. -/
theorem reported_answered {s : State} {code src : Nat} {args : List Byte} (op : Nat) (c : Cmd) (r : Resp) (eff : BitVec 96)
    (h : s.reported code src args) : ((s.presentNonce op c).answer c r eff).settle.reported code src args :=
  reported_settle _ _ _ _ (by simpa only [State.reported, State.answer_frame, State.presentNonce_frame] using h)

theorem State.withToken_ok {s : State} {op kind : Nat} {signers : List Nat} {t : Token} {c : Cmd} (act : Resp × State)
    (h : s.tokenFault t kind signers c.facts.sigOk = none) : s.withToken op kind signers t c act = act := by
  unfold State.withToken
  rw [h]

/-! ### Sessions (R493) -/

theorem secSessionOpen_ok {c : Cmd} {s : State} (hl : s.sec.lifecycle = 1) (hw : (readToken (c.arg.drop 100)).wellFormed = true)
    (hroom : s.sec.sessions.length < 16) (htoken : s.tokenFault (readToken (c.arg.drop 100)) 5 [0] c.facts.sigOk = none) :
    secSessionOpen c s = okWith ((s.modSec (fun k => { k with
        sessions := k.sessions ++ [⟨s.newSession (rd c.facts.random 0 4), rd (readToken (c.arg.drop 100)).arg 0 1,
          s.elapsed + (readToken (c.arg.drop 100)).duration, none, 0, fit 72 (c.facts.keyBytes.drop 193)⟩] })).raiseNow 0x0E04 sevInfo srcMss
        (u32 (s.newSession (rd c.facts.random 0 4)) ++ u8 0 ++ u8 (rd (readToken (c.arg.drop 100)).arg 0 1)) none)
      (u32 (s.newSession (rd c.facts.random 0 4)) ++ fit 97 c.facts.keyBytes ++ zeros 3 ++ fit 96 (c.facts.keyBytes.drop 97)) := by
  unfold secSessionOpen
  dsimp only
  rw [if_neg (by omega), if_neg (by simp [hw]), if_neg (by omega), if_pos hl, State.withToken_ok _ htoken]

theorem secSessionOpenCompletes : SecSessionOpenCompletes := by
  intro t c s ha hl hw hcount htoken hreport
  have hroom : (s.atInstant t).room 1 := State.room_le (room_of_canReport _ hreport) (by decide)
  refine completes_okWith _ t _ _ c s _ _ _ rfl ha (secSessionOpen_ok hl hw hcount htoken) ?_ fun eff => ⟨?_, ?_⟩
  · simp only [State.raiseNow_frame]
    rfl
  · simp only [State.settle_frame, State.answer_sec _ _ _ (eth_none_of_admits ha), State.presentNonce_sessions, State.raiseNow_frame]
    rfl
  · exact reported_answered _ _ _ _ (reported_raise _ _ _ _ _ _ _ hroom)

/-- The end of the one session of a number is reported. -/
theorem State.endSession_ends {s : State} {id : Nat} {e : Session} (state : Nat) (hone : s.sec.sessions.filter (fun x => x.id == id) = [e])
    (hroom : s.room 1) :
    (s.endSession id state).sec.sessions = s.sec.sessions.filter (fun x => x.id != id) ∧
      (s.endSession id state).mbs = s.mbs ∧ (s.endSession id state).reported 0x0E04 srcMss (u32 e.id ++ u8 state ++ u8 e.rights) := by
  unfold State.endSession State.sessionsEnded
  rw [hone]
  refine ⟨?_, ?_, ?_⟩
  · simp only [List.foldl_cons, List.foldl_nil, State.modSec, State.raiseNow_frame]
  · simp only [List.foldl_cons, List.foldl_nil, State.modSec, State.raiseNow_frame]
  · exact reported_raise s _ _ _ _ _ _ hroom

theorem secSessionClose_ok {c : Cmd} {s : State} {e : Session} (he : s.session? (rd c.arg 0 4) = some e) :
    secSessionClose c s = okay (s.endSession (rd c.arg 0 4) 1) := by
  unfold secSessionClose
  exact if_neg (by simp [he])

theorem secSessionCloseCompletes : SecSessionCloseCompletes := by
  intro t c e s ha he hone hreport
  have hroom : ((s.atInstant t).placed 0x0E08 c).room 1 := State.room_le (room_of_canReport _ hreport) (by decide)
  obtain ⟨hsessions, hmbs, hevent⟩ := State.endSession_ends (s := (s.atInstant t).placed 0x0E08 c) 1 hone hroom
  refine completes_okWith _ t _ _ c s _ [] _ rfl ha (secSessionClose_ok (s := (s.atInstant t).placed 0x0E08 c) he) hmbs fun eff => ⟨?_, ?_⟩
  · simp only [State.settle_frame, State.answer_sec _ _ _ (eth_none_of_admits ha), State.presentNonce_sessions, hsessions]
    rfl
  · exact reported_answered _ _ _ _ hevent

theorem sessionExpiryCompletes : SessionExpiryCompletes := by
  intro t id e s he hone hdue hreport
  refine completes_finish (f := fun s => s.sessionExpiry id) rfl ?_
  have hroom : (s.atInstant t).room 1 := State.room_le (room_of_canReport _ hreport) (by decide)
  have hends : (s.atInstant t).sessionExpiry id = (s.atInstant t).endSession id 2 := by
    have he' : (s.atInstant t).session? id = some e := he
    unfold State.sessionExpiry
    simp only [he']
    exact if_pos hdue
  obtain ⟨hsessions, _, hevent⟩ := State.endSession_ends (s := s.atInstant t) 2 hone hroom
  rw [hends]
  exact ⟨by simp only [State.settle_frame]; exact hsessions, reported_settle _ _ _ _ hevent⟩

/-! ### Rights and status (R482, R492) -/

theorem secRightsCompletes : SecRightsCompletes := by
  intro t c s ha hw htoken
  have hok : secRights c ((s.atInstant t).placed 0x0E09 c) = okay (((s.atInstant t).placed 0x0E09 c).modSys
      (fun y => { y with boot := { y.boot with pcieRights := rd (readToken c.arg).arg 0 1 } })) := by
    unfold secRights
    dsimp only
    rw [if_neg (by simp [hw])]
    exact State.withToken_ok _ htoken
  refine completes_okWith _ t _ _ c s _ [] _ rfl ha hok rfl fun eff => ?_
  simp only [State.settle_frame, State.answer_frame, State.presentNonce_frame]
  rfl

theorem secStatusCompletes : SecStatusCompletes := by
  intro t c s ha
  refine completes_okWith _ t _ _ c s _ _ _ rfl ha rfl rfl fun eff => ?_
  rw [State.presentNonce_none _ rfl]
  simp only [State.settle_frame, State.answer_sec _ _ _ (eth_none_of_admits ha)]
  rfl

/-! ### Debug levels (R502) -/

theorem State.openDebug_closed {s : State} {level until_ : Nat} (h0 : s.dbg.level = 0) (hroom : s.room 1) :
    (s.openDebug level until_).dbg.level = level ∧ (s.openDebug level until_).dbg.until_ = until_ ∧ (s.openDebug level until_).mbs = s.mbs ∧
      (s.openDebug level until_).reported 0x0E05 srcMss (u8 0 ++ u8 level ++ u8 0) := by
  have hagain : (s.dbg.level == 3 && level != 3) = false := by simp [h0]
  unfold State.openDebug
  dsimp only
  rw [hagain, h0]
  exact ⟨rfl, rfl, by simp, reported_raise s _ _ _ _ _ _ hroom⟩

theorem dbgOpen_blank {c : Cmd} {s : State} (he : c.eth = none) (hl : s.sec.lifecycle = 0)
    (hlevel : rd (readToken c.arg).arg 0 1 = 1 ∨ rd (readToken c.arg).arg 0 1 = 2) (hpower : s.judgedPower < 2)
    (hzero : (c.arg.take 60).all (fun x => x == 0) = true ∧ (c.arg.drop 61).all (fun x => x == 0) = true) :
    dbgOpen c s = okay (s.openDebug (rd (readToken c.arg).arg 0 1) 0) := by
  have hsigners : debugSigners s.sec.lifecycle (rd (readToken c.arg).arg 0 1) = some [] := by
    obtain h | h := hlevel <;> rw [hl, h] <;> rfl
  have hfits : s.debugFits (rd (readToken c.arg).arg 0 1) = true := by
    unfold State.debugFits
    split
    iterate 4 · omega
    · rfl
  unfold dbgOpen
  simp only [hsigners, hfits, he, Option.isSome_none, Bool.not_true, Bool.and_false, Bool.or_self, Bool.false_eq_true, if_false, List.isEmpty_nil, if_true]
  exact if_neg (by rw [hzero.1, hzero.2, decide_eq_false (by omega)]; decide)

theorem dbgOpenCompletes : DbgOpenCompletes := by
  intro t c s ha hl hlevel hpower h0 hzero hreport
  have hroom : ((s.atInstant t).placed 0x0E0B c).room 1 := State.room_le (room_of_canReport _ hreport) (by decide)
  obtain ⟨hlvl, huntil, hmbs, hevent⟩ := State.openDebug_closed (s := (s.atInstant t).placed 0x0E0B c) (level := rd (readToken c.arg).arg 0 1)
    (until_ := 0) h0 hroom
  refine completes_okWith _ t _ _ c s _ [] _ rfl ha (dbgOpen_blank (eth_none_of_admits ha) hl hlevel hpower hzero) hmbs fun eff => ⟨?_, ?_, ?_⟩
  · simpa only [State.settle_frame, State.answer_frame, State.presentNonce_frame] using hlvl
  · simpa only [State.settle_frame, State.answer_frame, State.presentNonce_frame] using huntil
  · exact reported_answered _ _ _ _ hevent

/-- Level 1 or 2 closes without a reset, and says so. -/
theorem State.closeDebug_open {s : State} (cause : Nat) (h : 1 ≤ s.dbg.level ∧ s.dbg.level ≤ 2) (hroom : s.room 1) :
    (s.closeDebug cause).dbg = { Debug.reset with cpcEpoch := s.dbg.cpcEpoch } ∧ (s.closeDebug cause).mbs = s.mbs ∧
      (s.closeDebug cause).reported 0x0E05 srcMss (u8 s.dbg.level ++ u8 0 ++ u8 cause) := by
  have h3 : ¬(decide (s.dbg.level = 3) && (s.raiseNow 0x0E05 sevNotice srcMss (u8 s.dbg.level ++ u8 0 ++ u8 cause) none).sys.resetPend.isNone) = true := by
    simp only [Bool.and_eq_true, decide_eq_true_eq]
    omega
  unfold State.closeDebug State.debugClosed
  dsimp only
  rw [if_neg (show ¬s.dbg.level = 0 by omega), if_neg (show ¬s.dbg.level = 0 by omega), if_neg h3]
  exact ⟨by simp only [State.raiseNow_frame], by simp only [State.raiseNow_frame], reported_raise s _ _ _ _ _ _ hroom⟩

theorem dbgCloseCompletes : DbgCloseCompletes := by
  intro t c s ha hopen hreport
  have hroom : ((s.atInstant t).placed 0x0E0C c).room 1 := State.room_le (room_of_canReport _ hreport) (by decide)
  obtain ⟨hdbg, hmbs, hevent⟩ := State.closeDebug_open (s := (s.atInstant t).placed 0x0E0C c) 1 hopen hroom
  have hok : dbgClose c ((s.atInstant t).placed 0x0E0C c) = okay (((s.atInstant t).placed 0x0E0C c).closeDebug 1) :=
    if_neg (by show ¬s.dbg.level = 0; omega)
  refine completes_okWith _ t _ _ c s _ [] _ rfl ha hok hmbs fun eff => ⟨?_, ?_⟩
  · simp only [State.settle_frame, State.answer_frame, State.presentNonce_frame, hdbg]
    rfl
  · exact reported_answered _ _ _ _ hevent

theorem debugLevelExpiryCompletes : DebugLevelExpiryCompletes := by
  intro t s hopen hdue hreport
  refine completes_finish (f := State.debugExpiry) rfl ?_
  have hroom : (s.atInstant t).room 1 := State.room_le (room_of_canReport _ hreport) (by decide)
  obtain ⟨hdbg, _, hevent⟩ := State.closeDebug_open (s := s.atInstant t) 2 hopen hroom
  have hcloses : (s.atInstant t).debugExpiry = (s.atInstant t).closeDebug 2 := if_pos (by
    have h0 : (s.atInstant t).dbg.level ≠ 0 := by show s.dbg.level ≠ 0; omega
    have hu : (s.atInstant t).dbg.until_ ≠ 0 ∧ (s.atInstant t).dbg.until_ ≤ (s.atInstant t).elapsed := hdue
    simp only [decide_eq_true h0, decide_eq_true hu.1, decide_eq_true hu.2, Bool.and_self])
  rw [hcloses]
  exact ⟨by simp only [State.settle_frame]; exact hdbg, reported_settle _ _ _ _ hevent⟩

/-- Settles O57: each row is `finish` of an operation or of a handler; the lemma about the operation says what it leaves where the premises hold. -/
theorem sessionsAndDebugComplete : Obligations.SessionsAndDebugComplete :=
  ⟨secSessionOpenCompletes, secSessionCloseCompletes, sessionExpiryCompletes, secRightsCompletes, secStatusCompletes, dbgOpenCompletes,
    dbgCloseCompletes, debugLevelExpiryCompletes⟩

end Sys2Proof.Machine

/-! PROOFS of the power states. -/

namespace Sys2Proof.Machine

/-! ### A component of the state, field by field -/

theorem State.pwr_of_part {s u : State} (h : u.part .pwr = s.part .pwr) : u.pwr = s.pwr := h
theorem State.cfg_of_part {s u : State} (h : u.part .cfg = s.part .cfg) : u.cfg = s.cfg := h

theorem State.mem_of_part {s u : State} (h : u.part .mem = s.part .mem) : u.mem = s.mem := h

theorem State.boot_of_part {s u : State} (h : u.part .sys = s.part .sys) : u.sys.boot = s.sys.boot := by
  have hk : u.sys.kept = s.sys.kept := h
  have hb := congrArg Sys.boot hk
  exact hb

theorem State.rest_of_part {s u : State} (h : u.part .sys = s.part .sys) : u.sys.rest = s.sys.rest := by
  have hk : u.sys.kept = s.sys.kept := h
  have hr := congrArg Sys.rest hk
  exact hr

/-! ### Settings and status (R495, R496, R506) -/

theorem State.setTrim_power (s : State) (trim : Bool) :
    (s.setTrim trim).sys.boot.trim = trim ∧ (s.setTrim trim).pwr = { s.pwr with st := if s.pwr.st < 2 then b2n trim else s.pwr.st } ∧
      (s.setTrim trim).mbs = s.mbs := by
  unfold State.setTrim State.powerEvent
  dsimp only
  split
  · split <;> simp [State.setPower]
  · exact ⟨rfl, rfl, rfl⟩

theorem pwrConfigCompletes : PwrConfigCompletes := by
  intro t c s ha
  obtain ⟨htrim, hpwr, hmbs⟩ := ((s.atInstant t).placed 0x0E0D c).setTrim_power (bit (rd c.arg 0 1) 0)
  refine completes_okWith _ t _ _ c s _ [] _ rfl ha rfl hmbs fun eff => ?_
  simp only [State.settle_frame, State.answer_frame, State.presentNonce_frame]
  exact ⟨htrim, congrArg Power.st hpwr⟩

theorem pwrStatusCompletes : PwrStatusCompletes := by
  intro t c s ha
  refine completes_okWith _ t _ _ c s { (s.atInstant t).placed 0x0E0F c with free := s.free + 1 } _ _ rfl ha rfl rfl fun eff => ?_
  simp only [State.settle_frame, State.answer_frame, State.presentNonce_frame]
  rfl

theorem pwrState_swap {c : Cmd} {s : State} (htarget : rd c.arg 0 1 < 2) (hidle : s.pwr.pend = none) (hst : s.pwr.st < 2) :
    ∃ u, pwrState c s = okay u ∧ u.pwr = { s.pwr with st := rd c.arg 0 1 } ∧ u.mbs = s.mbs := by
  unfold pwrState
  dsimp only
  rw [if_neg (by omega), if_neg (by simp [hidle]), if_neg (by simp; omega)]
  split
  · next heq => exact ⟨s, rfl, by rw [heq], rfl⟩
  · rw [if_pos (by simp [hst, htarget])]
    obtain ⟨_, hpwr, hmbs⟩ := s.setTrim_power (rd c.arg 0 1 == 1)
    refine ⟨_, rfl, ?_, hmbs⟩
    have hcode : b2n (rd c.arg 0 1 == 1) = rd c.arg 0 1 := by
      obtain h | h : rd c.arg 0 1 = 0 ∨ rd c.arg 0 1 = 1 := by omega
      all_goals rw [h]; rfl
    rw [hpwr, if_pos hst, hcode]

theorem pwrStateSwapCompletes : PwrStateSwapCompletes := by
  intro t c s ha htarget hidle hst
  obtain ⟨u, hu, hpwr, hmbs⟩ := pwrState_swap (s := (s.atInstant t).placed 0x0E0E c) htarget hidle hst
  refine completes_okWith _ t _ _ c s u [] _ rfl ha hu hmbs fun eff => ?_
  simp only [State.settle_frame, State.answer_frame, State.presentNonce_frame, hpwr]
  rfl

/-! ### The stop that precedes P2 and P3 (R498) -/

theorem State.lineOf_modLine_ne (s : State) {k l : Nat} (f : LineRun → LineRun) (h : k ≠ l) : (s.modLine k f).lineOf l = s.lineOf l :=
  nth_upd_ne _ _ _ h

/-- The lines whose start waits are idle again; every other line is as it was. -/
theorem State.withdrawStarts_lineOf {s : State} {l : Nat} (h : (s.lineOf l).st ≠ 1) : s.withdrawStarts.lineOf l = s.lineOf l := by
  have hfold (ks : List Nat) (hl : l ∉ ks) (u : State) :
      (ks.foldl (fun s l => (s.modLine l (fun r => { r with st := 0 })).strike 0x0402 l) u).lineOf l = u.lineOf l := by
    induction ks generalizing u with
    | nil => rfl
    | cons k ks ih =>
      simp only [List.mem_cons, not_or] at hl
      exact (ih hl.2 _).trans (u.lineOf_modLine_ne _ (Ne.symm hl.1))
  exact hfold _ (by simp [h]) s

/-- Steps that each put their line in the state `v` leave every line of the list in it. -/
theorem State.foldl_setsLine {f : State → Nat → State} {v l : Nat}
    (hf : ∀ s k, ∃ g : LineRun → LineRun, (∀ r, (g r).st = v) ∧ (f s k).lines = upd s.lines k g) (ks : List Nat) (s : State) (hl : l < s.lines.length)
    (h : l ∈ ks ∨ (s.lineOf l).st = v) : ((ks.foldl f s).lineOf l).st = v := by
  induction ks generalizing s with
  | nil => exact h.resolve_left (by simp)
  | cons k ks ih =>
    obtain ⟨g, hg, hlines⟩ := hf s k
    refine ih _ (by simpa [hlines, upd] using hl) ?_
    by_cases hk : k = l
    · subst hk
      exact .inr (by rw [State.lineOf, hlines, nth_upd _ _ _ _ hl]; exact hg _)
    · rw [State.lineOf, hlines, nth_upd_ne _ _ _ hk]
      exact h.imp_left fun hm => (List.mem_cons.mp hm).resolve_left (Ne.symm hk)

theorem State.stopSets_lines (s : State) (sets : List Nat) (mode : Nat) : (s.stopSets sets mode).lines = s.lines := by
  refine foldl_keeps State.lines (fun s n => ?_) sets s
  dsimp only
  split
  · unfold State.abortItems
    split <;> rfl
  · rfl

theorem State.ownStop_boot (s : State) (mode : Nat) (applyAt : Option Nat) : (s.ownStop mode applyAt).sys.boot = s.sys.boot := by
  unfold State.ownStop
  dsimp only
  rw [State.boot_of_part (State.stopSets_part _ _ _ (by decide))]
  rw [State.boot_of_part (foldl_part (p := .sys) _ (fun s l => s.modLine_part l _ (by decide)) _ _)]
  show s.withdrawStarts.sys.boot = _
  exact State.boot_of_part (s.withdrawStarts_part (by decide))

theorem State.ownStop_stops {s : State} {mode l : Nat} {applyAt : Option Nat} (hl : l < 16) (hst : (s.lineOf l).st = 2) :
    ((s.ownStop mode applyAt).lineOf l).st = 3 := by
  have hkeep : s.withdrawStarts.lineOf l = s.lineOf l := State.withdrawStarts_lineOf (by omega)
  have hlen : l < s.withdrawStarts.lines.length := lt_of_nth_ne (d := default) (by
    rw [show nth s.withdrawStarts.lines l default = s.lineOf l from hkeep]
    intro hd
    rw [hd] at hst
    exact absurd hst (by decide))
  unfold State.ownStop
  dsimp only
  show ((State.stopSets _ _ _).lineOf l).st = 3
  rw [State.lineOf, State.stopSets_lines]
  refine State.foldl_setsLine (f := fun s k => s.modLine k (fun r => { r with st := 3 })) (fun s k => ⟨fun r => { r with st := 3 }, fun _ => rfl, rfl⟩) _
    (s.withdrawStarts.modSys (fun y => { y with resume := none })) hlen (.inl ?_)
  have hrun : (s.withdrawStarts.lineOf l).st = 2 := by rw [hkeep]; exact hst
  exact List.mem_filter.mpr ⟨List.mem_range.mpr hl, beq_iff_eq.mpr hrun⟩

theorem pwrState_down {c : Cmd} {s : State} (htarget : 2 ≤ rd c.arg 0 1 ∧ rd c.arg 0 1 ≤ 3) (hidle : s.pwr.pend = none) (hst : s.pwr.st < 2) :
    pwrState c s = (⟨stPending, none, []⟩,
      (((pendWith s c 0x0E0E [0] none).2.setTransition (some ⟨rd c.arg 0 1, bit (rd c.arg 1 1) 0, c.mb, c.seq, 0⟩)).setKept (maskOf s.runningLines)).ownStop 0
        (c.at_ s)) := by
  unfold pwrState
  dsimp only
  rw [if_neg (by omega), if_neg (by simp [hidle]), if_neg (by simp; omega), if_neg (by omega), if_neg (by simp; omega), if_neg (by omega), if_pos hst]
  rfl

theorem pwrStateCompletes : PwrStateCompletes := by
  intro t c s ha htarget hidle hst hlines
  refine completes_of_handler _ t _ _ c s _ ⟨stPending, none, []⟩ _ rfl ha (pwrState_down htarget hidle hst) ?_ fun eff => ⟨?_, ?_, fun l hl hrun => ?_⟩
  · exact congrArg List.length (State.ownStop_part (p := .mbs) _ _ _ (by decide))
  · simp only [State.settle_frame, State.answer_frame, State.presentNonce_frame]
    exact State.pwr_of_part (State.ownStop_part _ _ _ (by decide))
  · simp only [State.settle_frame, State.answer_frame, State.presentNonce_frame]
    rw [State.ownStop_boot]
    rfl
  · simp only [State.lineOf, State.settle_frame, State.answer_frame, State.presentNonce_frame]
    exact State.ownStop_stops hl hrun

/-! ### Entering P2 (R498, R499) -/

theorem State.powerEvent_frame (s : State) (old new_ : Nat) :
    (s.powerEvent old new_).sec = s.sec ∧ (s.powerEvent old new_).pwr = s.pwr ∧ (s.powerEvent old new_).sys = s.sys ∧ (s.powerEvent old new_).ctxs = s.ctxs ∧
      (s.powerEvent old new_).streams = s.streams := by
  unfold State.powerEvent
  split <;> simp

/-- The command that asked for the transition is answered, and waits no more. -/
theorem State.powerApplied_frame (s : State) (status : Nat) :
    (s.powerApplied status).sec = s.sec ∧ (s.powerApplied status).pwr = s.pwr ∧ (s.powerApplied status).sys = s.sys ∧
      (s.powerApplied status).ctxs = s.ctxs ∧ (s.powerApplied status).streams = s.streams ∧ (s.powerApplied status).cfg = s.cfg := by
  unfold State.powerApplied
  split
  · simp only [State.applied_frame]
    exact ⟨rfl, rfl, rfl, rfl, rfl, rfl⟩
  · exact ⟨rfl, rfl, rfl, rfl, rfl, rfl⟩

theorem State.powerApplied_pend {s : State} {q : Pend} (status : Nat) (hq : s.pendOp 0x0E0E = some q) :
    (s.powerApplied status).pend = s.pend.eraseP (fun x => x.op == 0x0E0E) := by
  unfold State.powerApplied
  simp only [hq, State.applied_frame]
  rfl

theorem State.discardInterval_sec (s : State) (k : Nat) : (s.discardInterval k).sec = s.sec := by
  unfold State.discardInterval State.abortItems
  dsimp only
  (repeat' split) <;> rfl

theorem State.foldl_discardInterval_sec (l : List Nat) (s : State) : (l.foldl (fun s k => s.discardInterval k) s).sec = s.sec :=
  foldl_keeps State.sec (fun s k => s.discardInterval_sec k) l s

theorem State.thermHalt_sec (s : State) : s.thermHalt.sec = s.sec := by
  unfold State.thermHalt
  rw [State.foldl_discardInterval_sec]

theorem State.foldl_sleepQuad_sec (l : List Nat) (s : State) : (l.foldl (fun s q => s.sleepQuad q s.now) s).sec = s.sec :=
  foldl_keeps State.sec (f := fun s q => s.sleepQuad q s.now) (fun _ _ => rfl) l s

theorem State.foldl_modChan_sec (l : List Nat) (f : ChanRun → ChanRun) (s : State) : (l.foldl (fun s c => s.modChan c f) s).sec = s.sec :=
  foldl_keeps State.sec (f := fun s c => s.modChan c f) (fun _ _ => rfl) l s

theorem State.refHalt_sec (s : State) : s.refHalt.sec = s.sec := rfl

theorem State.enterP2_sec (s : State) : s.enterP2.sec = s.sec := by
  unfold State.enterP2
  extract_lets s1 s2 s3
  have h1 : s1.sec = s.sec := s.thermHalt.refHalt_sec.trans s.thermHalt_sec
  have h2 : s2.sec = s1.sec := State.foldl_sleepQuad_sec _ s1
  have h3 : s3.sec = s2.sec := State.foldl_modChan_sec _ _ s2
  rw [(State.powerEvent_frame _ _ _).1]
  exact h3.trans (h2.trans h1)

theorem State.enterP2_pwr (s : State) : s.enterP2.pwr = { s.pwr with st := 2, pend := none } := by
  unfold State.enterP2
  extract_lets s1 s2 s3
  have h3 : s3.pwr = s.pwr := State.pwr_of_part (by simp [s3, s2, s1, foldl_part])
  rw [(State.powerEvent_frame _ _ _).2.1]
  show { s3.pwr with st := 2, pend := none } = _
  rw [h3]

theorem State.ctx0Drained_none {s : State} (all : Bool) (h : (s.ctxOf 0).stream = none) : s.ctx0Drained all = true := by
  unfold State.ctx0Drained
  rw [h]

/-- The stops are done and nothing is left to drain: the device enters P2 at once. -/
theorem State.p2Entered_enters {s : State} {p : PwrPend} (hp : s.pwr.pend = some p) (hstage : p.target = 2 ∧ p.stage = 0) (hstops : s.stopsDone = true)
    (hctx : (s.ctxOf 0).stream = none) : s.p2Entered = ((s.powerApplied stOk).setTransition (some { p with stage := 1 })).enterP2 := by
  have hdrained : ((s.powerApplied stOk).setTransition (some { p with stage := 1 })).ctx0Drained false = true :=
    State.ctx0Drained_none false (by
      show (nth (s.powerApplied stOk).ctxs 0 default).stream = none
      rw [(s.powerApplied_frame stOk).2.2.2.1]
      exact hctx)
  unfold State.p2Entered
  simp only [hp]
  rw [if_neg (by simp [hstage, hstops]), if_pos hstage.2, if_pos hdrained]

theorem p2EnteredCompletes : P2EnteredCompletes := by
  intro t p q s hp hstage hstops hq _ hctx _
  refine completes_finish (f := State.p2Entered) rfl ?_
  rw [State.p2Entered_enters (s := s.atInstant t) hp hstage hstops hctx]
  obtain ⟨hsec, hpwr, _, _, _, hcfg⟩ := (s.atInstant t).powerApplied_frame stOk
  simp only [State.settle_frame]
  refine ⟨?_, ?_, ?_, ?_⟩
  · rw [State.enterP2_pwr]
    show { ((s.atInstant t).powerApplied stOk).pwr with st := 2, pend := none } = _
    rw [hpwr]
    rfl
  · exact (State.enterP2_part (p := .pend) _ (by decide)).trans (State.powerApplied_pend stOk (s := s.atInstant t) hq)
  · exact (State.enterP2_sec _).trans hsec
  · exact (State.enterP2_part (p := .cfg) _ (by decide)).trans hcfg

/-! ### Leaving P2 (R499) -/

/-- With RESUME 0 nothing starts again, and no line is kept. -/
theorem State.resumeKept_false (s : State) : s.resumeKept false = s.setKept 0 := rfl

/-- What is awake again in P0 or P1, before the command is answered. -/
theorem State.p2Exit_exits {s : State} {p : PwrPend} (hp : s.pwr.pend = some p) (hst : s.pwr.st = 2 ∧ p.target < 2) (hresume : p.resume = false) :
    ∃ v : State, s.p2Exit = ((v.powerApplied stOk).powerEvent 2 p.target).setKept 0 ∧ v.pwr = { s.pwr with st := p.target, pend := none } ∧
      v.sys.boot = { s.sys.boot with trim := p.target == 1 } ∧ v.cfg = s.cfg := by
  unfold State.p2Exit
  split
  · next q hq =>
    obtain rfl : p = q := Option.some.inj (hp.symm.trans hq)
    rw [if_neg (by simpa using hst), hresume]
    extract_lets s1 s2 s3 s4 s5
    have h5 {x : StatePart} (hx : x ∉ [.pend, .health, .quads, .mem, .therm]) : s5.part x = s2.part x := by
      simp at hx
      simp [s5, s4, s3, foldl_part, hx]
    have h1 {x : StatePart} (hx : x ≠ .sys) : s1.part x = s.part x := by simp [s1, hx]
    refine ⟨s5, rfl, ?_, ?_, ?_⟩
    · rw [State.pwr_of_part (h5 (by decide))]
      show { s1.pwr with st := p.target, pend := none } = _
      rw [State.pwr_of_part (h1 (by decide))]
    · rw [State.boot_of_part (h5 (by decide))]
      show { s.flushDie.sys.boot with trim := p.target == 1 } = _
      rw [State.boot_of_part s.flushDie_part]
    · rw [State.cfg_of_part (h5 (by decide))]
      show s1.cfg = s.cfg
      exact State.cfg_of_part (h1 (by decide))
  · next hn => exact absurd (hn.symm.trans hp) (by simp)

theorem p2ExitCompletes : P2ExitCompletes := by
  intro t p s hp hst hresume
  refine completes_finish (f := State.p2Exit) rfl ?_
  obtain ⟨v, hv, hpwr, hsys, hcfg⟩ := State.p2Exit_exits (s := s.atInstant t) hp hst hresume
  rw [hv]
  obtain ⟨_, hpwrA, hsysA, _, _, hcfgA⟩ := v.powerApplied_frame stOk
  obtain ⟨_, hpwrE, hsysE, _, _⟩ := (v.powerApplied stOk).powerEvent_frame 2 p.target
  simp only [State.settle_frame]
  refine ⟨?_, ?_, ?_⟩
  · exact (hpwrE.trans hpwrA).trans hpwr
  · show { ((v.powerApplied stOk).powerEvent 2 p.target).sys.boot with kept := 0 } = _
    rw [hsysE, hsysA, hsys]
    rfl
  · show ((v.powerApplied stOk).powerEvent 2 p.target).cfg = _
    rw [State.cfg_of_part (State.powerEvent_part _ _ _), hcfgA, hcfg]
    rfl

/-! ### Entering P3 (R498, R500) -/

theorem State.powerAdvance_staged {s : State} {p : PwrPend} (hp : s.pwr.pend = some p) (hstage : p.stage = 1) : s.powerAdvance = s := by
  unfold State.powerAdvance
  split
  · next q hq =>
    obtain rfl : p = q := Option.some.inj (hp.symm.trans hq)
    rw [if_neg (by simp [hstage])]
  · rfl

theorem State.otherStreams_congr {s u : State} (h : u.streams = s.streams) : u.otherStreams = s.otherStreams := by
  unfold State.otherStreams
  simp only [State.streamRun, h]

/-- Nothing is left to drain and the image is written: the device is in P3 at once. -/
theorem State.p3Entered_enters {s : State} {p : PwrPend} (hp : s.pwr.pend = some p) (hstage : p.target = 3 ∧ p.stage = 1) (hstreams : s.otherStreams = [])
    (hnor : s.norHeld = false) (hctx : (s.ctxOf 0).stream = none) :
    s.p3Entered true = ((((s.writeRest.powerApplied stOk).powerEvent s.pwr.st 3).setTransition (some { p with stage := 2 })).closeSessions.closeDebug 3).powerOff := by
  have hdrained : (((s.writeRest.powerApplied stOk).powerEvent s.pwr.st 3).setTransition (some { p with stage := 2 })).ctx0Drained true = true :=
    State.ctx0Drained_none true (by
      show (nth ((s.writeRest.powerApplied stOk).powerEvent s.pwr.st 3).ctxs 0 default).stream = none
      rw [((s.writeRest.powerApplied stOk).powerEvent_frame s.pwr.st 3).2.2.2.1, (s.writeRest.powerApplied_frame stOk).2.2.2.1]
      exact hctx)
  unfold State.p3Entered
  dsimp only
  rw [State.powerAdvance_staged hp hstage.2]
  simp only [hp]
  rw [if_neg (by simp [hstage.1]), if_pos hstage.2, if_neg (by simp [hstreams, hnor]), if_neg (by simp), if_pos hdrained]

theorem State.powerOff_pwr (s : State) : s.powerOff.pwr = { s.pwr with st := 3, pend := none } := by
  unfold State.powerOff
  dsimp only
  rw [State.pwr_of_part (foldl_part (p := .pwr) _ (fun s i => by split <;> simp) _ s)]

theorem State.powerOff_rest (s : State) : s.powerOff.sys.rest = s.sys.rest := by
  unfold State.powerOff
  dsimp only
  rw [State.rest_of_part (foldl_part (p := .sys) _ (fun s i => by split <;> simp) _ s)]

theorem State.powerOff_cfg (s : State) : s.powerOff.cfg = s.cfg := by
  unfold State.powerOff
  dsimp only
  rw [State.cfg_of_part (foldl_part (p := .cfg) _ (fun s i => by split <;> simp) _ s)]

theorem State.powerOff_rested (s : State) : s.powerOff.sec.sessions = [] ∧ s.powerOff.mem.available = false := ⟨rfl, rfl⟩

theorem State.closeDebug_rest (s : State) (cause : Nat) : (s.closeDebug cause).sys.rest = s.sys.rest := by
  have hclosed : (s.debugClosed s.dbg.level cause).sys.rest = s.sys.rest := State.rest_of_part (State.debugClosed_part _ _ _)
  unfold State.closeDebug
  dsimp only
  split
  · rfl
  · split <;> exact hclosed

theorem p3EnteredCompletes : P3EnteredCompletes := by
  intro t p s hp hstage hstreams hnor hctx
  refine completes_finish (f := fun s => s.p3Entered true) rfl ?_
  dsimp only
  rw [State.p3Entered_enters (s := s.atInstant t) hp hstage hstreams hnor hctx]
  obtain ⟨_, hpwrA, hsysA, _, _, hcfgA⟩ := (s.atInstant t).writeRest.powerApplied_frame stOk
  obtain ⟨_, hpwrE, hsysE, _, _⟩ := ((s.atInstant t).writeRest.powerApplied stOk).powerEvent_frame (s.atInstant t).pwr.st 3
  simp only [State.settle_frame]
  refine ⟨?_, ?_, (State.powerOff_rested _).1, (State.powerOff_rested _).2, ?_⟩
  · rw [State.powerOff_pwr, State.pwr_of_part (State.closeDebug_part _ _ (by decide)), State.pwr_of_part (State.closeSessions_part _ (by decide))]
    show { (((s.atInstant t).writeRest.powerApplied stOk).powerEvent (s.atInstant t).pwr.st 3).pwr with st := 3, pend := none } = _
    rw [hpwrE, hpwrA]
    rfl
  · rw [State.powerOff_rest, State.closeDebug_rest, State.rest_of_part (State.closeSessions_part _ (by decide))]
    show (((s.atInstant t).writeRest.powerApplied stOk).powerEvent (s.atInstant t).pwr.st 3).sys.rest = _
    rw [hsysE, hsysA]
    rfl
  · rw [State.powerOff_cfg, State.cfg_of_part (State.closeDebug_part _ _ (by decide)), State.cfg_of_part (State.closeSessions_part _ (by decide))]
    show (((s.atInstant t).writeRest.powerApplied stOk).powerEvent (s.atInstant t).pwr.st 3).cfg = _
    rw [State.cfg_of_part (State.powerEvent_part _ _ _), hcfgA]
    rfl

/-- The NOR does not take the image: the device is in P2. -/
theorem p3EnteredFailsCompletes : P3EnteredFailsCompletes := by
  intro t p s hp hstage hstreams hnor hst
  refine completes_finish (f := fun s => s.p3Entered false) rfl ?_
  obtain ⟨_, hpwrA, hsysA, _, _, _⟩ := (s.atInstant t).powerApplied_frame stNorFail
  have hfails : (s.atInstant t).p3Entered false = (if ((s.atInstant t).powerApplied stNorFail).pwr.st = 2
      then ((s.atInstant t).powerApplied stNorFail).setTransition none else ((s.atInstant t).powerApplied stNorFail).enterP2) := by
    unfold State.p3Entered
    dsimp only
    rw [State.powerAdvance_staged (s := s.atInstant t) hp hstage.2]
    split
    · next q hq =>
      obtain rfl : p = q := Option.some.inj (hp.symm.trans hq)
      rw [if_neg (by simp [hstage.1]), if_pos hstage.2, if_neg (by rw [hnor, State.otherStreams_congr (u := s.atInstant t) (s := s) rfl, hstreams]; simp),
        if_pos (by simp)]
    · next hn => exact absurd (hn.symm.trans hp) (by simp)
  simp only [State.settle_frame]
  rw [hfails]
  split
  · next h2 =>
    refine ⟨?_, congrArg Sys.rest hsysA⟩
    show { ((s.atInstant t).powerApplied stNorFail).pwr with pend := none } = _
    rw [hpwrA] at h2 ⊢
    rw [← h2]
    rfl
  · refine ⟨?_, ?_⟩
    · rw [State.enterP2_pwr, hpwrA]
      rfl
    · rw [State.rest_of_part (State.enterP2_part _ (by decide)), hsysA]
      rfl

/-! ### Leaving P3 (R500, R501) -/

theorem State.wakeFw_bootable {s : State} {ok : Nat → Bool} (h : s.bootable s.sec.running (ok s.sec.running) = true) : s.wakeFw ok = (s, true) := by
  unfold State.wakeFw
  dsimp only
  rw [if_pos h]

theorem State.trainDram_available (s : State) (mask : Nat) (cached : Bool) (ms : Nat) (changed : List Nat) :
    (s.trainDram mask cached ms [] changed).mem.available = true := by
  unfold State.trainDram
  dsimp only
  rw [State.mem_of_part (State.raiseNow_part _ _ _ _ _ _), State.mem_of_part (foldl_part (p := .mem) _ (fun s c => s.raiseNow_part _ _ _ _ _) _ _)]
  simp

theorem State.armOne_plans (s : State) (c mode : Nat) : (s.armOne c mode).cfg.plans = s.cfg.plans := by
  unfold State.armOne
  dsimp only
  (repeat' split) <;> rfl

theorem State.restoreCfg_plans (s : State) (image : Retained) (saved resume : Bool) (sigs : Nat) :
    (s.restoreCfg image saved resume sigs).cfg.plans = image.plans := by
  unfold State.restoreCfg
  dsimp only
  split
  · rw [foldl_keeps (fun s : State => s.cfg.plans) (fun s c => s.armOne_plans c 0),
      State.cfg_of_part (foldl_part (p := .cfg) _ (fun s _ => s.authFailed_part 0x0601 0) _ _)]
  · rw [State.cfg_of_part (foldl_part (p := .cfg) _ (fun s _ => s.authFailed_part 0x0601 0) _ _)]

/-- From a good image, with RESUME 0: what is awake again before the command is answered. -/
theorem State.p3Exit_exits {s : State} {p : PwrPend} {boot : BootFacts} {sigs ms : Nat} {cached : Bool} (hp : s.pwr.pend = some p)
    (hst : s.pwr.st = 3 ∧ p.target < 2) (hresume : p.resume = false)
    (hboot : s.bootable s.sec.running (if s.sec.running = 0 then boot.slotAOk else boot.slotBOk) = true) (hvalid : s.sys.rest.valid = true)
    (hsecret : s.sec.secretErased = false) :
    ∃ v : State, s.p3Exit sigs boot cached ms [] = ((v.powerApplied stOk).powerEvent 3 p.target).setKept 0 ∧ v.pwr = { s.pwr with st := p.target, pend := none } ∧
      v.sys.boot = { s.sys.boot with trim := p.target == 1 } ∧ v.mem.available = true ∧ v.cfg.plans = s.sys.rest.image.plans := by
  unfold State.p3Exit
  split
  · next q hq =>
    obtain rfl : p = q := Option.some.inj (hp.symm.trans hq)
    have hwake : ((s.setTransition none).setPower p.target).wakeFw (fun n => if n = 0 then boot.slotAOk else boot.slotBOk) =
        ((s.setTransition none).setPower p.target, true) := State.wakeFw_bootable (s := (s.setTransition none).setPower p.target) hboot
    rw [if_neg (by simpa using hst), hwake]
    extract_lets w s1 good b s2 s3 s4
    have hgood : good = true := by
      show (s.sys.rest.valid && !s.sec.secretErased) = true
      rw [hvalid, hsecret]
      rfl
    have hb : b = s.sys.rest := if_pos hgood
    have h4 : s4 = s3 := if_pos hgood
    rw [if_neg (by simp [w]), hresume, hgood, h4]
    have h2 {x : StatePart} (hx : x ∉ [.tb, .mem, .memMask, .lines, .health, .quads, .cal, .tiles, .therm]) : s2.part x = s1.part x := by
      simp at hx
      simp [s2, hx]
    have h3 {x : StatePart} (hx : x ∉ [.cfg, .memMask, .capMibNow, .cal, .grid, .zones, .felt, .slow, .trig]) : s3.part x = s2.part x :=
      State.restoreCfg_part _ _ _ _ _ hx
    refine ⟨s3, rfl, ?_, ?_, ?_, ?_⟩
    · rw [State.pwr_of_part (h3 (by decide)), State.pwr_of_part (h2 (by decide))]
      rfl
    · rw [State.boot_of_part (h3 (by decide)), State.boot_of_part (h2 (by decide))]
      rfl
    · rw [State.mem_of_part (h3 (by decide)), State.mem_of_part (State.applyRetirements_part _ (by decide))]
      exact State.trainDram_available _ _ _ _ _
    · have hplans : s3.cfg.plans = b.image.plans := State.restoreCfg_plans _ _ _ _ _
      rw [hplans, hb]
  · next hn => exact absurd (hn.symm.trans hp) (by simp)

theorem p3ExitCompletes : P3ExitCompletes := by
  intro t sigs ms boot cached p s hp hst hresume hboot hvalid hsecret
  refine completes_finish (f := fun s => s.p3Exit sigs boot cached ms []) rfl ?_
  obtain ⟨v, hv, hpwr, hsys, hmem, hplans⟩ := State.p3Exit_exits (s := s.atInstant t) (boot := boot) (sigs := sigs) (ms := ms) (cached := cached) hp hst hresume
    hboot hvalid hsecret
  dsimp only
  rw [hv]
  obtain ⟨_, hpwrA, hsysA, _, _, hcfgA⟩ := v.powerApplied_frame stOk
  obtain ⟨_, hpwrE, hsysE, _, _⟩ := (v.powerApplied stOk).powerEvent_frame 3 p.target
  simp only [State.settle_frame]
  refine ⟨?_, ?_, ?_, ?_⟩
  · exact (hpwrE.trans hpwrA).trans hpwr
  · show { ((v.powerApplied stOk).powerEvent 3 p.target).sys.boot with kept := 0 } = _
    rw [hsysE, hsysA, hsys]
    rfl
  · show ((v.powerApplied stOk).powerEvent 3 p.target).mem.available = true
    rw [State.mem_of_part (State.powerEvent_part _ _ _), State.mem_of_part (State.powerApplied_part _ _ (by decide)), hmem]
  · show ((v.powerApplied stOk).powerEvent 3 p.target).cfg.plans = _
    rw [State.cfg_of_part (State.powerEvent_part _ _ _), hcfgA, hplans]
    rfl

/-- Settles O58: the settings and the status answer at once; sys.power.state stops what runs and waits, or swaps P0 and P1; the entries and exits of P2 and P3
follow their rows through to the answer of the command that asked for them. -/
theorem powerStatesComplete : Obligations.PowerStatesComplete :=
  ⟨pwrConfigCompletes, pwrStateCompletes, pwrStateSwapCompletes, p2EnteredCompletes, p2ExitCompletes, p3EnteredCompletes, p3EnteredFailsCompletes,
    p3ExitCompletes, pwrStatusCompletes⟩

end Sys2Proof.Machine

/-! PROOFS of supplies, release from reset, boot and restore. -/

namespace Sys2Proof.Machine

/-! ### The warning of the supplies and its marks (R531, R532) -/

/-- What the warning holds but the records withheld from the NOR. -/
def Warn.kept (w : Warn) : Warn := { w with withheld := [] }

theorem State.logRecord_warn (s : State) (record : List Byte) : (s.logRecord record).warn.kept = s.warn.kept := by
  unfold State.logRecord
  dsimp only
  (repeat' split) <;> rfl

theorem State.raise_warn (s : State) (code sev src : Nat) (stamp : BitVec 96) (inst : Nat) (args : List Byte) (key : Option (List Nat)) :
    (s.raise code sev src stamp inst args key).warn.kept = s.warn.kept := by
  unfold State.raise State.enterEvent
  dsimp only
  split
  · exact State.logRecord_warn _ _
  · rfl

theorem State.raiseNow_warn (s : State) (code sev src : Nat) (args : List Byte) (key : Option (List Nat)) :
    (s.raiseNow code sev src args key).warn.kept = s.warn.kept := s.raise_warn ..

theorem State.reportLost_warn (s : State) : s.reportLost.warn.kept = s.warn.kept := by
  unfold State.reportLost
  split
  · exact State.logRecord_warn _ _
  · rfl

theorem State.reportDropped_warn (s : State) : s.reportDropped.warn.kept = s.warn.kept := by
  unfold State.reportDropped
  split
  · exact State.logRecord_warn _ _
  · rfl

theorem State.settle_warn (s : State) : s.settle.warn.kept = s.warn.kept := by
  have hsettle : s.settle.warn = s.reportLost.reportDropped.warn := by
    show s.reportLost.reportDropped.settleFlags.settleEmission.settleZones.settlePins.warn = _
    simp only [State.settlePins_frame, State.settleZones_frame, State.settleEmission_frame, State.settleFlags_frame]
  rw [hsettle, State.reportDropped_warn, State.reportLost_warn]

theorem Warn.losses_of_kept {v w : Warn} (h : v.kept = w.kept) : v.losses = w.losses := by
  have hl := congrArg Warn.losses h
  exact hl

theorem Warn.level_of_kept {v w : Warn} (h : v.kept = w.kept) : v.level = w.level := by
  have hl := congrArg Warn.level h
  exact hl

theorem Warn.eq_of_kept {v w : Warn} (h : v.kept = w.kept) : v = { w with withheld := v.withheld } := by
  cases v
  cases w
  simpa [Warn.kept] using h

theorem pwrWarnRiseCompletes : PwrWarnRiseCompletes := by
  intro t s hlevel hrails
  refine completes_finish (f := fun s => s.warnRise) rfl ?_
  dsimp only
  generalize hv : (s.atInstant t).warnRise = v
  have hwarn : v.warn = { s.warn with
      level := true, since := (s.atInstant t).now, clearSince := none
      losses := s.warn.losses ++ [⟨(s.atInstant t).devStamp (s.atInstant t).now, s.sys.boot.bootCount, s.interrupted, s.log.droppedPending, true, false⟩] } := by
    subst hv
    unfold State.warnRise
    rw [if_neg (show ¬((s.atInstant t).warn.level || !(s.atInstant t).pwr.railsUp) = true by
      rw [show (s.atInstant t).warn.level = false from hlevel, show (s.atInstant t).pwr.railsUp = true from hrails]; simp)]
    rfl
  have hsettle := Warn.eq_of_kept v.settle_warn
  rw [hwarn] at hsettle
  exact hsettle

theorem pwrWarnClearCompletes : PwrWarnClearCompletes := by
  intro t s hlevel hrails hheld hreport
  refine completes_finish (f := fun s => s.warnClear) rfl ?_
  have hclear : (s.atInstant t).warnClear = ({ s.atInstant t with warn := { s.warn with level := false, withheld := [], losses := clearNewest s.warn.losses } } :
      State).raiseNow 0x0F0A sevNotice srcDevice (u32 (satTo 4 (((s.atInstant t).now - s.warn.since) / ticksPerMs))) none := by
    unfold State.warnClear
    rw [if_neg (show ¬(!(s.atInstant t).warn.level || !(s.atInstant t).pwr.railsUp) = true by
      rw [show (s.atInstant t).warn.level = true from hlevel, show (s.atInstant t).pwr.railsUp = true from hrails]; simp),
      show (s.atInstant t).warn.withheld = [] from hheld]
    rfl
  rw [hclear]
  have hwarn := (State.settle_warn _).trans (State.raiseNow_warn ({ s.atInstant t with warn := { s.warn with level := false, withheld := [], losses := clearNewest s.warn.losses } } :
      State) 0x0F0A sevNotice srcDevice (u32 (satTo 4 (((s.atInstant t).now - s.warn.since) / ticksPerMs))) none)
  refine ⟨Warn.level_of_kept hwarn, Warn.losses_of_kept hwarn, reported_settle _ _ _ _ (reported_raise _ _ _ _ _ _ _ ?_)⟩
  exact State.room_le (room_of_canReport (s.atInstant t) hreport) (by decide)

/-! ### The supplies and the reset pin (R533, R544, R545) -/

theorem powerLossCompletes : PowerLossCompletes := by
  intro t s
  refine completes_finish (f := fun s => s.powerLoss) rfl ?_
  simp only [State.settle_frame]
  exact ⟨rfl, rfl, rfl, rfl, rfl, rfl, rfl, Sys.cutSnapshot_boot _⟩

theorem powerUpCompletes : PowerUpCompletes := by
  intro t s hrails
  refine completes_finish (f := fun s => s.powerUp) rfl ?_
  have hup : ¬(s.atInstant t).pwr.railsUp = true := by
    rw [show (s.atInstant t).pwr.railsUp = false from hrails]
    simp
  simp only [State.settle_frame]
  unfold State.powerUp
  rw [if_neg hup]
  exact ⟨rfl, rfl⟩

theorem State.resetWith_closed (s : State) (why : BootWhy) : (s.resetWith why).sec.sessions = [] ∧ (s.resetWith why).dbg.level = 0 := by
  refine State.resetWith_holds (P := fun u => u.sec.sessions = [] ∧ u.dbg.level = 0) (fun u code sev src args key h => ?_) s why ⟨rfl, rfl⟩
  simpa only [State.raiseNow_frame] using h

theorem resetNLowCompletes : ResetNLowCompletes := by
  intro t ns s hns
  refine completes_finish (f := fun s => s.resetPin ns) rfl ?_
  rw [show (s.atInstant t).resetPin ns = (s.atInstant t).resetWith ⟨2, none, none, false⟩ from if_pos hns]
  obtain ⟨hsys, hpwr, _, _, hltune, _⟩ := (s.atInstant t).resetWith_frame ⟨2, none, none, false⟩
  obtain ⟨hsessions, hdbg⟩ := (s.atInstant t).resetWith_closed ⟨2, none, none, false⟩
  simp only [State.settle_frame]
  refine ⟨?_, ?_, ?_, hsessions, hdbg, hltune, ?_⟩
  · rw [hsys]; rfl
  · rw [hpwr]; rfl
  · rw [hsys]; rfl
  · rw [hsys]; exact Sys.cutSnapshot_boot _

/-! ### Release from reset (Table 15.14, R490) -/

theorem State.bootLacks_warn (s : State) (k i : Nat) : (s.bootLacks k i).warn.kept = s.warn.kept := by
  unfold State.bootLacks State.reportNoSpare
  split
  · rfl
  · split
    · rfl
    · exact State.raiseNow_warn _ _ _ _ _ _

theorem State.bootVacate_warn (s : State) (k i : Nat) : (s.bootVacate k i).warn.kept = s.warn.kept := by
  unfold State.bootVacate
  dsimp only
  (repeat' split) <;> simp [State.bootLacks_warn]

theorem State.nextStep_warn (s : State) (q j next : Nat) : (s.nextStep q j next).warn = s.warn := by
  unfold State.nextStep
  split <;> rfl

theorem State.enterInPlace_warn (s : State) (q : Nat) : (s.enterInPlace q).warn.kept = s.warn.kept := by
  unfold State.enterInPlace
  dsimp only
  split
  · rfl
  · exact State.raiseNow_warn _ _ _ _ _ _

theorem State.bootQuad_warn (s : State) (q : Nat) : (s.bootQuad q).warn.kept = s.warn.kept := by
  unfold State.bootQuad
  dsimp only
  split
  · rw [State.nextStep_warn]
    rfl
  · split <;> exact State.enterInPlace_warn _ _

theorem State.foldl_bootVacate_warn (l : List (Nat × Nat)) (s : State) : (l.foldl (fun s e => s.bootVacate e.1 e.2) s).warn.kept = s.warn.kept :=
  foldl_keeps (fun s : State => s.warn.kept) (fun s e => s.bootVacate_warn e.1 e.2) l s

theorem State.foldl_bootTest_warn (l : List (Nat × Nat)) (s : State) :
    (l.foldl (fun s e => if (s.hUnit e.1 e.2).st = 6 then s.beginTest e.1 e.2 else s) s).warn.kept = s.warn.kept := by
  refine foldl_keeps (fun s : State => s.warn.kept) (fun s e => ?_) l s
  split <;> rfl

theorem State.foldl_bootQuad_warn (l : List Nat) (s : State) : (l.foldl (fun s q => s.bootQuad q) s).warn.kept = s.warn.kept :=
  foldl_keeps (fun s : State => s.warn.kept) (fun s q => s.bootQuad_warn q) l s

theorem State.applyRetirements_folds (s : State) : ∃ (units : List (Nat × Nat)) (quads : List Nat), s.applyRetirements =
    quads.foldl (fun s q => s.bootQuad q) (units.foldl (fun s e => if (s.hUnit e.1 e.2).st = 6 then s.beginTest e.1 e.2 else s)
      (units.foldl (fun s e => s.bootVacate e.1 e.2) s)) :=
  ⟨_, _, rfl⟩

theorem State.applyRetirements_warn (s : State) : s.applyRetirements.warn.kept = s.warn.kept := by
  obtain ⟨units, quads, h⟩ := s.applyRetirements_folds
  rw [h, State.foldl_bootQuad_warn, State.foldl_bootTest_warn, State.foldl_bootVacate_warn]

theorem State.sec_of_part {s u : State} (h : u.part .sec = s.part .sec) : u.sec.kept = s.sec.kept := h

/-- Whether a slot boots follows from the slots, the rollback count and the build. -/
theorem State.bootable_congr {s u : State} (hsec : u.sec.kept = s.sec.kept) (hbuild : u.build = s.build) (slot : Nat) (verifies : Bool) :
    u.bootable slot verifies = s.bootable slot verifies := by
  have hfw : u.sec.fw = s.sec.fw := by
    have h := congrArg Security.fw hsec
    exact h
  have hrollback : u.sec.rollback = s.sec.rollback := by
    have h := congrArg Security.rollback hsec
    exact h
  unfold State.bootable
  rw [hfw, hrollback, hbuild]

/-- With no trial the preferred slot is the first, and boots when it can. -/
theorem State.chooseFw_preferred {s : State} {ok : Nat → Bool} (htrial : s.sec.trialPending = false)
    (h : s.bootable s.sec.preferred (ok s.sec.preferred) = true) : s.chooseFw ok = (s, some s.sec.preferred) := by
  unfold State.chooseFw State.fwOrder
  simp [htrial, h]

/-- With neither slot bootable none is chosen. -/
theorem State.chooseFw_none {s : State} {ok : Nat → Bool} (hslot : s.sec.preferred < 2) (h0 : s.bootable 0 (ok 0) = false)
    (h1 : s.bootable 1 (ok 1) = false) : (s.chooseFw ok).2 = none := by
  unfold State.chooseFw State.fwOrder
  obtain hp | hp : s.sec.preferred = 0 ∨ s.sec.preferred = 1 := by omega
  all_goals rw [hp]; split <;> simp [h0, h1]

theorem State.bootState_of_part {s u : State} (h : u.part .sys = s.part .sys) : u.sys.bootState = s.sys.bootState := by
  have hk : u.sys.kept = s.sys.kept := h
  have hb := congrArg Sys.bootState hk
  exact hb

theorem State.running_of_part {s u : State} (h : u.part .sec = s.part .sec) : u.sec.running = s.sec.running := by
  have hr := congrArg Security.running (State.sec_of_part h)
  exact hr

theorem State.preferred_of_part {s u : State} (h : u.part .sec = s.part .sec) : u.sec.preferred = s.sec.preferred := by
  have hp := congrArg Security.preferred (State.sec_of_part h)
  exact hp

theorem State.trials_of_part {s u : State} (h : u.part .sec = s.part .sec) :
    u.sec.trialPending = s.sec.trialPending ∧ u.sec.trialRunning = s.sec.trialRunning := by
  have hp := congrArg Security.trialPending (State.sec_of_part h)
  have hr := congrArg Security.trialRunning (State.sec_of_part h)
  exact ⟨hp, hr⟩

theorem State.reportLosses_build (s : State) : s.reportLosses.build = s.build := congrArg (fun x => x.2.1) (State.reportLosses_fixed s)

theorem State.fwEvent_build (s : State) (op slot version : Nat) : (s.fwEvent op slot version).build = s.build :=
  congrArg (fun x => x.2.1) (State.fwEvent_fixed s op slot version)

/-- The preferred slot boots: the state with the losses reported and that slot running, before the retirements are applied. -/
theorem State.release_boots {s : State} {f : BootFacts} (hreset : s.pwr.inReset = true) (hrails : s.pwr.railsUp = true)
    (hpending : s.sec.trialPending = false) (hrunning : s.sec.trialRunning = false)
    (hboot : s.bootable s.sec.preferred (if s.sec.preferred = 0 then f.slotAOk else f.slotBOk) = true) :
    ∃ v : State, s.release f = (v.modSys (fun y => { y with bootState := 1 })).applyRetirements ∧ v.pwr = { s.pwr with inReset := false } ∧
      v.sec.running = s.sec.preferred ∧ v.sys.boot = { s.sys.boot with bootCount := (s.sys.boot.bootCount + 1) % 2 ^ 32 } ∧
      v.sys.rest = { s.sys.rest with valid := false } ∧ v.warn.losses = [] := by
  unfold State.release
  rw [if_neg (by simp [hreset, hrails])]
  extract_lets _ _ _ _ _ s1 s2 s3 trial c
  have h2 {x : StatePart} : s2.part x = s1.part x := State.reportLosses_part s1
  have hsec : s2.part .sec = s.part .sec := h2.trans (s.setPwrTbSys_part _ _ _ (by decide))
  obtain ⟨htrialP, htrialR⟩ := State.trials_of_part hsec
  have h3 : s3 = s2 := if_neg (by simp [htrialR, hrunning])
  have hc : c = (s2, some s2.sec.preferred) := by
    simp only [c, h3]
    refine State.chooseFw_preferred (htrialP.trans hpending) ?_
    rw [State.bootable_congr (s := s) hsec ((State.reportLosses_build s1).trans rfl), State.preferred_of_part hsec]
    exact hboot
  have hpreferred : s2.sec.preferred = s.sec.preferred := State.preferred_of_part hsec
  split
  · next hnone => exact absurd (hnone.symm.trans (congrArg Prod.snd hc)) (by simp)
  · next n hsome =>
    have hn : n = s2.sec.preferred := Option.some.inj (hsome.symm.trans (congrArg Prod.snd hc))
    extract_lets s4
    have hc1 : c.1 = s2 := congrArg Prod.fst hc
    refine ⟨s4, rfl, ?_, hn.trans hpreferred, ?_, ?_, ?_⟩
    · show c.1.pwr = _
      rw [hc1]
      exact State.pwr_of_part h2
    · show c.1.sys.boot = _
      rw [hc1]
      exact State.boot_of_part h2
    · show c.1.sys.rest = _
      rw [hc1]
      exact State.rest_of_part h2
    · show c.1.warn.losses = []
      rw [hc1]
      rfl

theorem releaseFromResetCompletes : ReleaseFromResetCompletes := by
  intro t boot s hreset hrails hpending hrunning hboot
  refine completes_finish (f := fun s => s.release boot) rfl ?_
  obtain ⟨v, hv, hpwr, hslot, hcount, hrest, hlosses⟩ := State.release_boots (s := s.atInstant t) hreset hrails hpending hrunning hboot
  dsimp only
  rw [hv]
  have hretired {x : StatePart} (hx : x ∉ [.lines, .health, .quads, .cal, .tiles, .therm]) :
      (v.modSys (fun y => { y with bootState := 1 })).applyRetirements.part x = (v.modSys (fun y => { y with bootState := 1 })).part x :=
    State.applyRetirements_part _ hx
  simp only [State.settle_frame]
  refine ⟨?_, ?_, ?_, ?_, ?_, ?_⟩
  · rw [State.pwr_of_part (hretired (by decide))]
    exact hpwr
  · rw [State.bootState_of_part (hretired (by decide))]
    rfl
  · rw [State.running_of_part (hretired (by decide))]
    exact hslot
  · rw [State.boot_of_part (hretired (by decide))]
    exact hcount
  · rw [State.rest_of_part (hretired (by decide))]
    exact hrest
  · exact ((Warn.losses_of_kept (State.settle_warn _)).trans (Warn.losses_of_kept (State.applyRetirements_warn _))).trans hlosses

/-- Neither slot boots: BOOT_STATE is 7. -/
theorem State.release_fails {s : State} {f : BootFacts} (hreset : s.pwr.inReset = true) (hrails : s.pwr.railsUp = true) (hslot : s.sec.preferred < 2)
    (h0 : s.bootable 0 f.slotAOk = false) (h1 : s.bootable 1 f.slotBOk = false) :
    (s.release f).pwr = { s.pwr with inReset := false } ∧ (s.release f).sys.bootState = 7 := by
  unfold State.release
  rw [if_neg (by simp [hreset, hrails])]
  extract_lets _ _ _ _ _ s1 s2 s3 trial c
  have h2 {x : StatePart} : s2.part x = s1.part x := State.reportLosses_part s1
  have hbuild : s2.build = s.build := (State.reportLosses_build s1).trans rfl
  have h3 : s3.sec.fw = s.sec.fw ∧ s3.sec.rollback = s.sec.rollback ∧ s3.sec.preferred = s.sec.preferred ∧ s3.build = s.build ∧ s3.pwr = s1.pwr := by
    have hsec : s2.sec.kept = s.sec.kept := State.sec_of_part (h2.trans (s.setPwrTbSys_part _ _ _ (by decide)))
    have hfields : s2.sec.fw = s.sec.fw ∧ s2.sec.rollback = s.sec.rollback ∧ s2.sec.preferred = s.sec.preferred ∧ s2.build = s.build ∧ s2.pwr = s1.pwr := by
      have hf := congrArg Security.fw hsec
      have hr := congrArg Security.rollback hsec
      have hp := congrArg Security.preferred hsec
      exact ⟨hf, hr, hp, hbuild, State.pwr_of_part h2⟩
    simp only [s3]
    split
    · simp only [State.fwEvent, State.raiseNow_frame]
      exact hfields
    · exact hfields
  obtain ⟨hfw, hrollback, hpreferred, hbuild3, hpwr⟩ := h3
  have hbootable (slot : Nat) (verifies : Bool) : s3.bootable slot verifies = s.bootable slot verifies := by
    unfold State.bootable
    rw [hfw, hrollback, hbuild3]
  have hc : c.2 = none := State.chooseFw_none (by rw [hpreferred]; exact hslot) ((hbootable _ _).trans h0) ((hbootable _ _).trans h1)
  split
  · refine ⟨?_, rfl⟩
    show c.1.pwr = _
    rw [State.pwr_of_part (State.chooseFw_part _ _), hpwr]
  · next n hsome => exact absurd (hsome.symm.trans hc) (by simp)

theorem releaseFromResetFailsCompletes : ReleaseFromResetFailsCompletes := by
  intro t boot s hreset hrails hslot ⟨h0, h1⟩
  refine completes_finish (f := fun s => s.release boot) rfl ?_
  obtain ⟨hpwr, hstate⟩ := State.release_fails (s := s.atInstant t) hreset hrails hslot h0 h1
  simp only [State.settle_frame]
  exact ⟨hpwr, hstate⟩

/-! ### Training, restore and the start of the kept lines (R390, R472, R473) -/

/-- Taking up the self-test changes the hamper alone. -/
theorem State.beginReruns_health (s : State) (quick : Bool) : ∃ h : Health, s.beginReruns quick = { s with health := h } := by
  unfold State.beginReruns
  dsimp only
  split <;> exact ⟨_, rfl⟩

theorem State.trainDram_mask (s : State) (mask : Nat) (cached : Bool) (ms : Nat) (failed changed : List Nat) :
    (s.trainDram mask cached ms failed changed).memMask = mask := by
  have keep {s u : State} (h : u.part .memMask = s.part .memMask) : u.memMask = s.memMask := h
  unfold State.trainDram
  dsimp only
  rw [keep (State.raiseNow_part _ _ _ _ _ _), keep (foldl_part (p := .memMask) _ (fun s c => s.raiseNow_part _ _ _ _ _) _ _)]

theorem State.trainDram_heard {s : State} (mask : Nat) (cached : Bool) (ms : Nat) (changed : List Nat) (hroom : s.room 1) :
    (s.trainDram mask cached ms [] changed).heard 0x0C07 srcDevice := by
  have hnone : (maskList 4 mask).filter ([] : List Nat).contains = [] := by simp
  unfold State.trainDram
  dsimp only
  rw [hnone]
  exact heard_raise _ _ _ _ _ _ _ _ (State.room_le hroom le_rfl)

theorem dramTrainedCompletes : DramTrainedCompletes := by
  intro t ms cached changed s hstate hreset hreport
  refine completes_finish (f := fun s => s.dramTrained cached ms [] changed) rfl ?_
  have htrains : (s.atInstant t).dramTrained cached ms [] changed =
      (((s.atInstant t).trainDram ((s.atInstant t).bankContent (s.atInstant t).restoreBank).image.mem.mask cached ms [] changed).modSys
        (fun y => { y with bootState := 3 })).beginReruns (s.atInstant t).quickStart := by
    unfold State.dramTrained
    rw [if_neg]
    rw [show (s.atInstant t).sys.bootState = 1 from hstate, show (s.atInstant t).pwr.inReset = false from hreset]
    decide
  rw [htrains]
  obtain ⟨h, hh⟩ := State.beginReruns_health (((s.atInstant t).trainDram ((s.atInstant t).bankContent (s.atInstant t).restoreBank).image.mem.mask cached ms []
    changed).modSys (fun y => { y with bootState := 3 })) (s.atInstant t).quickStart
  rw [hh]
  simp only [State.settle_frame]
  exact ⟨rfl, State.trainDram_available _ _ _ _ _, State.trainDram_mask _ _ _ _ _ _,
    heard_settle _ _ _ (State.trainDram_heard _ _ _ _ (State.room_le (room_of_canReport _ hreport) (by decide)))⟩

theorem State.mbs_of_part {s u : State} (h : u.part .mbs = s.part .mbs) : u.mbs = s.mbs := h

/-- Heeding the rotation of a list of quads leaves the mailboxes and the configuration. -/
theorem State.foldl_heedRotate_kept (l : List Nat) (s : State) :
    (l.foldl State.heedRotate s).mbs = s.mbs ∧ (l.foldl State.heedRotate s).cfg = s.cfg :=
  ⟨State.mbs_of_part (foldl_part (p := .mbs) _ (fun s q => s.heedRotate_part q (by decide)) l s),
    State.cfg_of_part (foldl_part (p := .cfg) _ (fun s q => s.heedRotate_part q (by decide)) l s)⟩

/-- The self-test is done: with the bank's configuration in force the mailboxes are ready, then EV_BOOT. -/
theorem State.restoreComplete_restores {s : State} (sigs : Nat) (hstate : s.sys.bootState = 3) (hrun : s.health.testRun = none)
    (htested : s.health.units.all (fun l => l.all (fun u => u.st != 2)) = true) :
    ∃ (v : State) (later : Option Resume) (n : Nat), s.restoreComplete sigs =
      (v.mailboxesReady.modSys (fun y => { y with
        bootState := 4, restoreSource := s.restoreBank, generation := (s.bankContent s.restoreBank).generation, resume := later })).bootEvent
          s.restoreBank (s.bankContent s.restoreBank).generation n ∧
      v.mbs = s.mbs ∧ v.cfg.plans = (s.bankContent s.restoreBank).image.plans := by
  have htesting : s.health.units.any (fun l => l.any (fun u => u.st == 2)) = false := by
    simpa [List.all_eq_true, List.any_eq_false] using htested
  unfold State.restoreComplete
  rw [if_neg (by simp only [hstate, hrun, htesting]; decide)]
  extract_lets src b resume s1 lines wait s2
  obtain ⟨hmbs, hcfg⟩ : s1.mbs = (s.restoreCfg b.image (decide (src < 2)) resume sigs).mbs ∧ s1.cfg = (s.restoreCfg b.image (decide (src < 2)) resume sigs).cfg :=
    State.foldl_heedRotate_kept _ _
  refine ⟨s1, _, _, rfl, ?_, ?_⟩
  · rw [hmbs, State.mbs_of_part (State.restoreCfg_part _ _ _ _ _ (by decide))]
  · rw [hcfg, State.restoreCfg_plans]

theorem State.mailboxesReady_mbs (s : State) : s.mailboxesReady.mbs = s.mbs.map (fun m => { m with st := b2n m.held }) := rfl

theorem restoreCompleteCompletes : RestoreCompleteCompletes := by
  intro t sigs s hstate hrun htested
  refine completes_finish (f := fun s => s.restoreComplete sigs) rfl ?_
  obtain ⟨v, later, n, h, hmbs, hplans⟩ := State.restoreComplete_restores (s := s.atInstant t) sigs hstate hrun htested
  rw [h]
  simp only [State.settle_frame, State.bootEvent, State.raiseNow_frame, State.modSys_mbs, State.mailboxesReady_mbs]
  exact ⟨rfl, rfl, rfl, hplans, congrArg (List.map (fun m : Mailbox => { m with st := b2n m.held })) hmbs⟩

/-- A start that wakes its line's quad leaves the lines. -/
theorem State.startWakes_lines (s : State) (l : Nat) (d : Option Nat) : (match d with | some d => s.wakeFor l d | none => s).lines = s.lines := by
  have keep {s u : State} (h : u.part .lines = s.part .lines) : u.lines = s.lines := h
  cases d with
  | none => rfl
  | some d => exact keep (State.wakeFor_part _ _ _ (by decide))

theorem State.ownStart_starts {s : State} {lines : List Nat} {l : Nat} (hl : l < s.lines.length) (h : l ∈ lines) : ((s.ownStart lines).lineOf l).st = 1 := by
  unfold State.ownStart
  rw [if_neg (by cases lines <;> simp at h ⊢)]
  simp only [State.lineOf]
  refine State.foldl_setsLine (fun s k => ⟨fun r => { r with st := 1, from_ := s.now }, fun _ => rfl, ?_⟩) lines s hl (.inl h)
  exact (State.startWakes_lines _ k _).trans rfl

theorem State.resume_of_part {s u : State} (h : u.part .sys = s.part .sys) : u.sys.resume = s.sys.resume := by
  have hk : u.sys.kept = s.sys.kept := h
  have hr := congrArg Sys.resume hk
  exact hr

theorem resumeLinesStartCompletes : ResumeLinesStartCompletes := by
  intro t r s hr hwait hlen
  refine completes_finish (f := fun s => s.resumeLines) rfl ?_
  have hstart : (s.atInstant t).resumeLines = ((s.atInstant t).modSys (fun y => { y with resume := none })).ownStart ((maskList 16 r.mask).filter
      (s.atInstant t).mayStart) := by
    unfold State.resumeLines
    rw [show (s.atInstant t).sys.resume = some r from hr]
    simp only [hwait, Bool.false_and, Bool.false_eq_true, if_false]
  rw [hstart]
  refine ⟨?_, fun l hl hbit hmay => ?_⟩
  · simp only [State.settle_frame]
    rw [State.resume_of_part (State.ownStart_part _ _ (by decide))]
    rfl
  · simp only [State.lineOf, State.settle_frame]
    refine State.ownStart_starts (show l < s.lines.length by omega) ?_
    simp [maskList, hl, hbit, hmay]

/-- Settles O54: the warning of the supplies and its end, the loss and the return of the supplies, the reset pin, the release with a slot that boots and with none,
the training, the restore and the start of the kept lines. -/
theorem bootComplete : Obligations.BootComplete :=
  ⟨pwrWarnRiseCompletes, pwrWarnClearCompletes, powerLossCompletes, powerUpCompletes, resetNLowCompletes, releaseFromResetCompletes,
    releaseFromResetFailsCompletes, dramTrainedCompletes, restoreCompleteCompletes, resumeLinesStartCompletes⟩

end Sys2Proof.Machine

/-! PROOFS of tests, errors and sensors of the hamper. -/

namespace Sys2Proof.Machine

/-! ### Fields of the hamper through events and settling -/

theorem State.health_of_part {s u : State} (h : u.part .health = s.part .health) : u.health.kept = s.health.kept := h

theorem Health.fields_of_kept {g h : Health} (hk : g.kept = h.kept) :
    g.sramErrs = h.sramErrs ∧ g.sramCorrected = h.sramCorrected ∧ g.sramTest = h.sramTest ∧ g.permanents = h.permanents ∧ g.d2dCorrected = h.d2dCorrected ∧
      g.d2dErrs = h.d2dErrs ∧ g.d2dMap = h.d2dMap ∧ g.segments = h.segments ∧ g.thermal = h.thermal ∧ g.rails = h.rails ∧ g.saturated = h.saturated ∧
      g.units = h.units ∧ g.macros = h.macros ∧ g.testRun = h.testRun := by
  have field {α : Type} (f : Health → α) : f g.kept = f h.kept := congrArg f hk
  exact ⟨field Health.sramErrs, field Health.sramCorrected, field Health.sramTest, field Health.permanents, field Health.d2dCorrected, field Health.d2dErrs,
    field Health.d2dMap, field Health.segments, field Health.thermal, field Health.rails, field Health.saturated, field Health.units, field Health.macros,
    field Health.testRun⟩

/-! ### Counters and sensors (R526, R527) -/

theorem counterSaturatedCompletes : CounterSaturatedCompletes := by
  intro t op off sel s hsel hoff hmax hnew hreport
  refine completes_finish (f := fun s => s.counterSaturated op off sel) rfl ?_
  have hsaturates : (s.atInstant t).counterSaturated op off sel = ((s.atInstant t).modHealth (fun h => { h with saturated := h.saturated ++ [(op, off, sel)] })).raiseNow
      0x0F05 sevNotice srcDevice (u16 op ++ u16 off ++ u16 sel) none := by
    unfold State.counterSaturated
    rw [if_pos]
    rw [show (s.atInstant t).health.saturated.contains (op, off, sel) = false from hnew, hmax, hoff]
    simp [hsel]
  rw [hsaturates]
  have hroom : ((s.atInstant t).modHealth (fun h => { h with saturated := h.saturated ++ [(op, off, sel)] })).room 1 :=
    State.room_le (room_of_canReport (s.atInstant t) hreport) (by decide)
  refine ⟨?_, reported_settle _ _ _ _ (reported_raise _ _ _ _ _ _ _ hroom)⟩
  obtain ⟨-, -, -, -, -, -, -, -, -, -, hsat, -⟩ := Health.fields_of_kept ((State.health_of_part (State.settle_part _)).trans
    (State.health_of_part (State.raiseNow_part ((s.atInstant t).modHealth (fun h => { h with saturated := h.saturated ++ [(op, off, sel)] })) 0x0F05 sevNotice srcDevice
      (u16 op ++ u16 off ++ u16 sel) none)))
  exact hsat

/-- The record of a sensor after a sample holds the sample. -/
theorem State.senseOne_value (s : State) (n : Nat) (old : Sensor) (lo hi v hyst : Int) : (s.senseOne n old lo hi v hyst).2.value = v := by
  unfold State.senseOne
  dsimp only
  (repeat' split) <;> rfl

theorem State.senseOne_health (s : State) (n : Nat) (old : Sensor) (lo hi v hyst : Int) :
    (s.senseOne n old lo hi v hyst).1.health.kept = s.health.kept ∧ (s.senseOne n old lo hi v hyst).1.cfg = s.cfg := by
  unfold State.senseOne
  dsimp only
  (repeat' split) <;> simp

theorem take_set_succ {α : Type} {l : List α} {k : Nat} (x : α) (hk : k < l.length) : (l.set k x).take (k + 1) = l.take k ++ [x] := by
  rw [List.take_add_one, List.take_set_of_le le_rfl, List.getElem?_set_self hk]
  rfl

/-- A fold whose steps put a record of value `v` at the place `i`, over consecutive places, puts every value. -/
theorem State.foldl_sensors {g : State → List Sensor} {f : State → Nat × Int → State}
    (hf : ∀ s e, ∃ x : Sensor, x.value = e.2 ∧ g (f s e) = (g s).set e.1 x) (xs : List Int) (k : Nat) (s : State) (hlen : (g s).length = k + xs.length) :
    (g (((List.range' k xs.length).zip xs).foldl f s)).map Sensor.value = ((g s).map Sensor.value).take k ++ xs := by
  induction xs generalizing k s with
  | nil => simp [List.take_of_length_le (show ((g s).map Sensor.value).length ≤ k by simpa using hlen.le)]
  | cons v xs ih =>
    obtain ⟨x, hx, hset⟩ := hf s (k, v)
    rw [List.length_cons] at hlen ⊢
    rw [List.range'_succ, List.zip_cons_cons, List.foldl_cons, ih (k + 1) (f s (k, v)) (by rw [hset, List.length_set]; omega), hset, List.map_set, hx,
      take_set_succ v (by rw [List.length_map]; omega)]
    simp

/-- One reading of a thermal sensor, and of a rail (R527). -/
def State.senseThermal (s : State) (e : Nat × Int) : State :=
  let b := nth s.cfg.thermBounds e.1 (0, 0)
  let r := s.senseOne e.1 (nth s.health.thermal e.1 default) b.1 b.2 e.2 800
  r.1.modHealth (fun h => { h with thermal := h.thermal.set e.1 r.2 })

def State.senseRail (s : State) (e : Nat × Int) : State :=
  let b := nth s.cfg.railBounds e.1 (0, 0)
  let r := s.senseOne (32 + e.1) (nth s.health.rails e.1 default) b.1 b.2 e.2 (railNominal e.1)
  r.1.modHealth (fun h => { h with rails := h.rails.set e.1 r.2 })

theorem State.sensorSample_folds (s : State) (thermal rails : List Int) : s.sensorSample thermal rails =
    (((List.range 16).zip rails).foldl State.senseRail (((List.range 24).zip thermal).foldl State.senseThermal s)).putOffReruns := rfl

theorem State.senseThermal_sets (s : State) (e : Nat × Int) :
    (∃ x : Sensor, x.value = e.2 ∧ (s.senseThermal e).health.thermal = s.health.thermal.set e.1 x) ∧ (s.senseThermal e).health.rails = s.health.rails ∧
      (s.senseThermal e).cfg = s.cfg := by
  unfold State.senseThermal
  extract_lets b r
  obtain ⟨hhealth, hcfg⟩ := s.senseOne_health e.1 (nth s.health.thermal e.1 default) b.1 b.2 e.2 800
  obtain ⟨-, -, -, -, -, -, -, -, hthermal, hrails, -⟩ := Health.fields_of_kept hhealth
  exact ⟨⟨r.2, State.senseOne_value _ _ _ _ _ _ _, congrArg (fun l => l.set e.1 r.2) hthermal⟩, hrails, hcfg⟩

theorem State.senseRail_sets (s : State) (e : Nat × Int) :
    (∃ x : Sensor, x.value = e.2 ∧ (s.senseRail e).health.rails = s.health.rails.set e.1 x) ∧ (s.senseRail e).health.thermal = s.health.thermal ∧
      (s.senseRail e).cfg = s.cfg := by
  unfold State.senseRail
  extract_lets b r
  obtain ⟨hhealth, hcfg⟩ := s.senseOne_health (32 + e.1) (nth s.health.rails e.1 default) b.1 b.2 e.2 (railNominal e.1)
  obtain ⟨-, -, -, -, -, -, -, -, hthermal, hrails, -⟩ := Health.fields_of_kept hhealth
  exact ⟨⟨r.2, State.senseOne_value _ _ _ _ _ _ _, congrArg (fun l => l.set e.1 r.2) hrails⟩, hthermal, hcfg⟩

theorem State.putOffReruns_sensors (s : State) :
    s.putOffReruns.health.thermal = s.health.thermal ∧ s.putOffReruns.health.rails = s.health.rails ∧ s.putOffReruns.cfg = s.cfg := by
  unfold State.putOffReruns
  dsimp only
  split <;> exact ⟨rfl, rfl, rfl⟩

theorem sensorSampleCompletes : SensorSampleCompletes := by
  intro t thermal rails s ⟨ht, hr⟩ ⟨hst, hsr⟩
  refine completes_finish (f := fun s => s.sensorSample thermal rails) rfl ?_
  obtain ⟨-, -, -, -, -, -, -, -, hthermal, hrails, -⟩ :=
    Health.fields_of_kept (State.health_of_part (State.settle_part ((s.atInstant t).sensorSample thermal rails)))
  rw [hthermal, hrails]
  simp only [State.settle_frame]
  rw [State.sensorSample_folds]
  generalize hv : ((List.range 24).zip thermal).foldl State.senseThermal (s.atInstant t) = v
  obtain ⟨ht', hr', hc'⟩ := (((List.range 16).zip rails).foldl State.senseRail v).putOffReruns_sensors
  rw [ht', hr', hc']
  have hvT : v.health.thermal.map Sensor.value = thermal := by
    have h := State.foldl_sensors (g := fun s => s.health.thermal) (fun s e => (s.senseThermal_sets e).1) thermal 0 (s.atInstant t)
      (hst.trans (by omega))
    rw [ht, ← List.range_eq_range', hv] at h
    simpa using h
  have hvR : v.health.rails = s.health.rails := by
    rw [← hv]
    exact foldl_keeps (fun s : State => s.health.rails) (fun s e => (s.senseThermal_sets e).2.1) _ (s.atInstant t)
  have hvC : v.cfg = s.cfg := by
    rw [← hv]
    exact foldl_keeps State.cfg (fun s e => (s.senseThermal_sets e).2.2) _ (s.atInstant t)
  refine ⟨?_, ?_, ?_⟩
  · rw [foldl_keeps (fun s : State => s.health.thermal) (fun s e => (s.senseRail_sets e).2.1) _ v]
    exact hvT
  · have h := State.foldl_sensors (g := fun s => s.health.rails) (fun s e => (s.senseRail_sets e).1) rails 0 v (by rw [hvR]; omega)
    rw [hr, ← List.range_eq_range'] at h
    simpa using h
  · rw [foldl_keeps State.cfg (fun s e => (s.senseRail_sets e).2.2) _ v]
    exact hvC

/-! ### Tests and spares (R510, R514) -/

theorem State.lt_of_hUnit_st {s : State} {k i : Nat} (hk : k ≠ kindMacro) (h : (s.hUnit k i).st ≠ 0) : i < (nth s.health.units k []).length := by
  refine lt_of_nth_ne (d := Unit_.fresh) fun hd => h ?_
  rw [State.hUnit, if_neg hk, hd]
  rfl

/-- What a passed or failed test of a tile does before the tile is moved: EV_TARGETED_TEST, and the answer of a health.test that waits for it. -/
def State.testReported (s : State) (k i outcome : Nat) : State :=
  let s1 := s.reportTest k i outcome
  match s1.pendOf 0x0F03 (k * 65536 + i) with
  | some p => (s1.strike 0x0F03 (k * 65536 + i)).applied p srcDevice (s1.effStamp s1.now none) s1.now stOk
  | none => s1

theorem State.testReported_part {p : StatePart} (s : State) (k i outcome : Nat) (h : p ≠ .pend) : (s.testReported k i outcome).part p = s.part p := by
  unfold State.testReported
  dsimp only
  split <;> simp [State.reportTest, h]

theorem State.testReported_reported {s : State} (k i outcome : Nat) (hroom : s.room 1) : (s.testReported k i outcome).reported 0x0F02 (unitSource k i)
    (u8 k ++ u16 i ++ u8 outcome ++ u32 ((s.now - (s.hUnit k i).testSince) / ticksPerUs)) := by
  have hraised : (s.reportTest k i outcome).reported 0x0F02 (unitSource k i)
      (u8 k ++ u16 i ++ u8 outcome ++ u32 ((s.now - (s.hUnit k i).testSince) / ticksPerUs)) := reported_raise _ _ _ _ _ _ _ hroom
  unfold State.testReported
  dsimp only
  split
  · exact State.applied_reported hraised
  · exact hraised

/-- A test that ends under its conditions. -/
theorem State.testDone_ends {s : State} {i : Nat} (pass : Bool) (hst : (s.hUnit 2 i).st = 2) (hi : i < 36) (hsince : (s.hUnit 2 i).testSince ≤ s.now)
    (hpower : s.pwr.st ≠ 3) (hlocked : s.tb.synthLocked = true) (hdemand : pass = true → (s.hUnit 2 i).onDemand = true) :
    s.testDone 2 i pass true = if pass then (s.testReported 2 i 3).returnUnit 2 i else (s.testReported 2 i 1).retireUnit 2 i 0 := by
  have hgo : ¬((s.hUnit 2 i).st ≠ 2 || (2 : Nat) = kindRow || unitCount 2 ≤ i || ((2 : Nat) = kindLine && (s.lineOf i).returnDue) ||
      s.now < (s.hUnit 2 i).testSince || s.pwr.st = 3) = true := by
    simp [hst, hpower, kindRow, kindLine, show unitCount 2 = 36 from rfl]
    omega
  unfold State.testDone
  dsimp only
  rw [if_neg hgo, if_neg (by simp [hlocked])]
  cases pass with
  | true =>
    simp only [hdemand rfl, Bool.not_true, Bool.false_eq_true, if_false, if_true, Bool.true_or]
    rfl
  | false =>
    simp only [Bool.not_false, if_true, Bool.false_eq_true, if_false]
    rfl

theorem State.returnUnit_tile (s : State) (i : Nat) : s.returnUnit 2 i = s.modHUnit 2 i (fun u => { u with st := if s.holdsWork 2 i then 0 else 1 }) := by
  simp [State.returnUnit, kindConverter, kindLine, kindTiu, kindMacro, kindBale, kindLead, kindModulator, kindD2d]

theorem State.retireUnit_tile (s : State) (i : Nat) : s.retireUnit 2 i 0 = (s.modHealth (fun h => { h with permanents := satAdd h.permanents 1 })).modHUnit 2 i
    (fun u => { u with st := 3, moveSince := s.now }) := by
  simp [State.retireUnit, kindConverter, kindMacro, kindBale, kindLead, kindTiu]

theorem targetedTestDoneCompletes : TargetedTestDoneCompletes := by
  intro t k i s hst ⟨hk, hi⟩ hsince hpower hlocked hdemand hidle hkinds hunits hreport
  subst hk
  refine completes_finish (f := fun s => s.testDone 2 i true true) rfl ?_
  have hroom : (s.atInstant t).room 1 := State.room_le (room_of_canReport _ hreport) (by decide)
  have hends := State.testDone_ends (s := s.atInstant t) true hst hi hsince hpower hlocked fun _ => hdemand
  rw [if_pos rfl, State.returnUnit_tile] at hends
  rw [hends]
  generalize hv : (s.atInstant t).testReported 2 i 3 = v
  have hpart {p : StatePart} (h : p ≠ .pend) : v.part p = s.part p := by
    rw [← hv]
    exact State.testReported_part _ _ _ _ h
  have hunit (j : Nat) : v.hUnit 2 j = s.hUnit 2 j := State.hUnit_congr (hpart (by decide)) 2 j
  have hfree : v.holdsWork 2 i = false := by
    have htiles : v.tiles = s.tiles := hpart (p := .tiles) (by decide)
    rw [← hidle]
    show v.tiles.map.contains (some i) = s.tiles.map.contains (some i)
    rw [htiles]
  rw [hfree, if_neg Bool.false_ne_true]
  refine ⟨?_, reported_settle _ _ _ _ ?_⟩
  · rw [State.hUnit_settle, State.hUnit_modHUnit _ (by decide) (State.lt_of_hUnit_st (by decide) (by rw [hunit, hst]; decide)), hunit]
  · refine (reported_congr v _ _ _ _ rfl).2 ?_
    rw [← hv]
    exact State.testReported_reported 2 i 3 hroom

theorem targetedTestFailedCompletes : TargetedTestFailedCompletes := by
  intro t k i s hst ⟨hk, hi⟩ hsince hpower hlocked hkinds hunits hreport
  subst hk
  refine completes_finish (f := fun s => s.testDone 2 i false true) rfl ?_
  have hroom : (s.atInstant t).room 1 := State.room_le (room_of_canReport _ hreport) (by decide)
  have hends := State.testDone_ends (s := s.atInstant t) false hst hi hsince hpower hlocked (by simp)
  rw [if_neg Bool.false_ne_true, State.retireUnit_tile] at hends
  rw [hends]
  generalize hv : (s.atInstant t).testReported 2 i 1 = v
  have hpart : v.part .health = s.part .health := by
    rw [← hv]
    exact State.testReported_part _ _ _ _ (by decide)
  have hunit (j : Nat) : v.hUnit 2 j = s.hUnit 2 j := State.hUnit_congr hpart 2 j
  refine ⟨?_, ?_, reported_settle _ _ _ _ ?_⟩
  · rw [State.hUnit_settle, State.hUnit_modHUnit (s := v.modHealth (fun h => { h with permanents := satAdd h.permanents 1 })) _ (by decide)
      (State.lt_of_hUnit_st (s := v) (by decide) (by rw [hunit, hst]; decide))]
  · obtain ⟨-, -, -, hsettled, -⟩ := Health.fields_of_kept (State.health_of_part (State.settle_part (p := .health)
      ((v.modHealth (fun h => { h with permanents := satAdd h.permanents 1 })).modHUnit 2 i (fun u => { u with st := 3, moveSince := v.now }))))
    obtain ⟨-, -, -, hreported, -⟩ := Health.fields_of_kept (State.health_of_part hpart)
    rw [hsettled, ← hreported]
    rfl
  · refine (reported_congr v _ _ _ _ rfl).2 ?_
    rw [← hv]
    exact State.testReported_reported 2 i 1 hroom

/-- A retired unit that holds work is past its retirement. -/
theorem State.spareCauseOf_retired {s : State} {i : Nat} (h : s.spareCauseOf 5 i = some 0) : (s.hUnit 5 i).st = 3 ∧ (s.hUnit 5 i).noSpare = false := by
  unfold State.spareCauseOf at h
  dsimp only at h
  split at h
  · cases h
  · next hn =>
    simp only [Bool.or_eq_true, decide_eq_true_eq, not_or, Bool.not_eq_true] at hn
    refine ⟨?_, hn.1⟩
    simp only [kindRow, kindMacro, Nat.reduceEqDiff, if_false] at h
    split at h
    · cases h
    · split at h
      · cases h
      · split at h
        · assumption
        · split at h <;> cases h

theorem State.noSpareRow_reports {s : State} {i : Nat} (h : s.spareCauseOf 5 i = some 0) : s.noSpareRow 5 i 0 =
    (s.modHUnit 5 i (fun u => { u with st := if u.st = 4 then 4 else 5, noSpare := true })).raiseNow 0x0F01 sevDegraded srcMss (u8 5 ++ u16 i ++ u8 0)
      none := by
  obtain ⟨-, hnew⟩ := State.spareCauseOf_retired h
  have hvacate : s.vacate 5 i = s := by simp [State.vacate, kindLine, kindTile, kindSlice, kindTiu]
  unfold State.noSpareRow State.reportNoSpare
  rw [if_pos h]
  dsimp only
  rw [if_neg (show ¬(0 : Nat) = 1 by decide), hvacate, if_neg (by rw [hnew]; exact Bool.false_ne_true)]
  rfl

theorem noSpareCompletes : NoSpareCompletes := by
  intro t i s hcause hreport
  refine completes_finish (f := fun s => s.noSpareRow 5 i 0) rfl ?_
  obtain ⟨hst, -⟩ := State.spareCauseOf_retired hcause
  have hlt : i < (nth s.health.units 5 []).length := State.lt_of_hUnit_st (by decide) (by rw [hst]; decide)
  rw [State.noSpareRow_reports (s := s.atInstant t) hcause]
  refine ⟨?_, reported_settle _ _ _ _ (reported_raise _ _ _ _ _ _ _ (State.room_le (room_of_canReport (s.atInstant t) hreport) (by decide)))⟩
  rw [State.hUnit_settle, State.hUnit_raiseNow, State.hUnit_modHUnit (s := s.atInstant t) _ (by decide) hlt]
  show { s.hUnit 5 i with st := if (s.hUnit 5 i).st = 4 then 4 else 5, noSpare := true } = _
  rw [hst]
  rfl

/-! ### SRAM errors (R516) -/

/-- A value that is not the one left out is read back where it is put. -/
theorem sget_sset_same {α : Type} [DecidableEq α] {d : α} {m : List (Nat × α)} {k : Nat} {v : α} (h : v ≠ d) : sget d (sset d m k v) k = v := by
  induction m with
  | nil => simp [sset, h, sget]
  | cons e m ih =>
    obtain ⟨a, w⟩ := e
    unfold sset
    by_cases hlt : k < a
    · simp [hlt, h, sget]
    · by_cases heq : k = a
      · simp [heq, h, sget]
      · simp [hlt, heq, sget, Ne.symm heq, ih]

theorem State.hUnit_modMacro {s : State} {m : Nat} {f : Unit_ → Unit_} (h : f (s.hUnit kindMacro m) ≠ Unit_.fresh) :
    (s.modHUnit kindMacro m f).hUnit kindMacro m = f (s.hUnit kindMacro m) := sget_sset_same h

/-- A corrected error of a row with fewer than three before it is counted and reported. -/
theorem State.sramError_corrected {s : State} {m row b : Nat} (hm : m < 1152)
    (hfew : (s.health.sramErrs.filter (fun e => e.1 == m && e.2.1 == row)).length < 3) :
    s.sramError m row b false = (s.modHealth (fun h => { h with
        sramErrs := h.sramErrs.filter (fun e => decide (s.elapsed < e.2.2.1 + 86400)) ++ [(m, row, s.elapsed, b)]
        sramCorrected := satAdd h.sramCorrected 1 })).raiseNow 0x0F0C sevNotice srcMss (u16 m ++ u16 row ++ u8 b) (some [m]) := by
  unfold State.sramError
  rw [if_neg (by omega)]
  dsimp only
  simp only [Bool.false_eq_true, if_false, Bool.false_or, decide_eq_true_eq]
  rw [if_neg]
  obtain ⟨herrs, -⟩ := Health.fields_of_kept (State.health_of_part (State.raiseNow_part (s.modHealth (fun h => { h with
        sramErrs := h.sramErrs.filter (fun e => decide (s.elapsed < e.2.2.1 + 86400)) ++ [(m, row, s.elapsed, b)]
        sramCorrected := satAdd h.sramCorrected 1 })) 0x0F0C sevNotice srcMss (u16 m ++ u16 row ++ u8 b) (some [m])))
  rw [herrs, State.modHealth_health, List.filter_append, List.length_append, List.filter_filter]
  have hle : (s.health.sramErrs.filter (fun e => (e.1 == m && e.2.1 == row) && decide (s.elapsed < e.2.2.1 + 86400))).length ≤
      (s.health.sramErrs.filter (fun e => e.1 == m && e.2.1 == row)).length :=
    (List.monotone_filter_right _ fun e => by simp +contextual).length_le
  simp only [List.filter_cons, beq_self_eq_true, Bool.and_true, if_true, List.filter_nil, List.length_singleton]
  omega

theorem sramErrorCompletes : SramErrorCompletes := by
  intro t m row b s hm hreport hfew
  refine completes_finish (f := fun s => s.sramError m row b false) rfl ?_
  rw [State.sramError_corrected (s := s.atInstant t) hm hfew]
  generalize hv : (s.atInstant t).modHealth _ = v
  have hroom : v.room 1 := by
    rw [← hv]
    exact State.room_le (room_of_canReport (s.atInstant t) hreport) (by decide)
  obtain ⟨herrs, hcorrected, -⟩ := Health.fields_of_kept ((State.health_of_part (State.settle_part _)).trans
    (State.health_of_part (v.raiseNow_part 0x0F0C sevNotice srcMss (u16 m ++ u16 row ++ u8 b) (some [m]))))
  refine ⟨?_, ?_, ?_, heard_settle _ _ _ (heard_raise _ _ _ _ _ _ _ _ hroom)⟩
  · rw [herrs, ← hv]
    rfl
  · rw [hcorrected, ← hv]
    rfl
  · rw [State.hUnit_settle, State.hUnit_raiseNow, ← hv]
    rfl

/-- The first uncorrectable error of a fresh SRAM begins its test, with its row to be replaced. -/
theorem State.sramError_detected {s : State} {m row b : Nat} (hm : m < 1152) (hfresh : s.hUnit kindMacro m = Unit_.fresh) (hpower : s.pwr.st < 2)
    (hnone : s.health.sramErrs = []) : ((s.sramError m row b true).hUnit kindMacro m).st = 2 ∧ ((s.sramError m row b true).hUnit kindMacro m).errors = 1 ∧
      ((s.sramError m row b true).hUnit kindMacro m).rowsUsed = 1 ∧ (s.sramError m row b true).health.sramTest = s.health.sramTest ++ [(m, 0, row)] := by
  unfold State.sramError
  rw [if_neg (by omega)]
  dsimp only
  simp only [if_true, Bool.true_or]
  generalize hv : s.modHealth _ = v
  have hunit : v.hUnit kindMacro m = Unit_.fresh := by
    rw [← hv]
    exact hfresh
  have herrs : v.health.sramErrs = [(m, row, s.elapsed, b)] := by
    rw [← hv, State.modHealth_health, hnone]
    rfl
  have htests : v.health.sramTest = s.health.sramTest := by
    rw [← hv]
    rfl
  have hpowerV : v.pwr.st < 2 := by
    rw [← hv]
    exact hpower
  have hdetect : (v.detect kindMacro m).hUnit kindMacro m = { Unit_.fresh with errors := 1, due := some (2, false), moveSince := v.now } := by
    unfold State.detect
    rw [State.hUnit_modMacro, hunit]
    · rfl
    · rw [hunit]
      simp [Unit_.fresh, Unit_.at_]
  generalize hw : v.detect kindMacro m = w at hdetect
  have hwerrs : w.health.sramErrs = [(m, row, s.elapsed, b)] := by
    rw [← hw, ← herrs]
    rfl
  have hwtests : w.health.sramTest = s.health.sramTest := by
    rw [← hw, ← htests]
    rfl
  have hwpower : w.pwr.st < 2 := by
    rw [← hw]
    exact hpowerV
  have hbegin : w.sramBegin m = ((w.modHealth (fun h => { h with
      sramTest := h.sramTest ++ [(m, 0, row)], sramErrs := h.sramErrs.filter (fun e => !(e.1 == m && e.2.1 == row)) })).beginTest kindMacro m).modHUnit kindMacro m
        (fun v => { v with rowsUsed := v.rowsUsed + 1, colsUsed := v.colsUsed + 0 }) := by
    unfold State.sramBegin State.testDue
    simp only [hwerrs, hdetect, List.filter_cons, beq_self_eq_true, if_true, List.filter_nil, List.getLast?_singleton, Option.isSome_some, hwpower,
      decide_true, List.length_singleton]
    rfl
  rw [hbegin]
  generalize hx : w.modHealth _ = x
  have hxunit : x.hUnit kindMacro m = w.hUnit kindMacro m := by
    rw [← hx]
    rfl
  have hxtests : x.health.sramTest = s.health.sramTest ++ [(m, 0, row)] := by
    rw [← hx, ← hwtests]
    rfl
  have htested : (x.beginTest kindMacro m).hUnit kindMacro m =
      { Unit_.fresh with st := 2, errors := 1, testSince := x.now, onDemand := false, due := none, noSpare := false, moveSince := v.now } := by
    unfold State.beginTest
    rw [State.hUnit_modMacro, hxunit, hdetect]
    · rfl
    · rw [hxunit, hdetect]
      simp [Unit_.fresh, Unit_.at_]
  rw [State.hUnit_modMacro, htested]
  · exact ⟨rfl, rfl, rfl, hxtests⟩
  · rw [htested]
    simp [Unit_.fresh, Unit_.at_]

theorem sramErrorDetectedCompletes : SramErrorDetectedCompletes := by
  intro t m row b s hm hfresh hpower hnone
  refine completes_finish (f := fun s => s.sramError m row b true) rfl ?_
  obtain ⟨hst, herrors, hrows, htests⟩ := State.sramError_detected (s := s.atInstant t) (row := row) (b := b) hm hfresh hpower hnone
  obtain ⟨-, -, hsettled, -⟩ := Health.fields_of_kept (State.health_of_part (State.settle_part ((s.atInstant t).sramError m row b true)))
  rw [State.hUnit_settle, hsettled]
  exact ⟨hst, herrors, hrows, htests⟩

/-! ### D2D lanes (R518) -/

theorem d2dLaneErrorCompletes : D2dLaneErrorCompletes := by
  intro t lane n s hlane ⟨hn, hnone⟩
  refine completes_finish (f := fun s => s.d2dError lane n false) rfl ?_
  have hcounts : (s.atInstant t).d2dError lane n false = (s.atInstant t).modHealth (fun h => { h with
      d2dCorrected := satAdd h.d2dCorrected n, d2dErrs := List.replicate n (lane, (s.atInstant t).now) }) := by
    have herrs : (s.atInstant t).health.d2dErrs.filter (fun e => decide ((s.atInstant t).now < e.2 + ticksPerSecond)) ++
        List.replicate (min n 16) (lane, (s.atInstant t).now) = List.replicate n (lane, (s.atInstant t).now) := by
      rw [show (s.atInstant t).health.d2dErrs = [] from hnone, Nat.min_eq_left hn.le]
      rfl
    unfold State.d2dError
    rw [if_neg (by rw [show (s.atInstant t).health.d2dMap.contains lane = true from hlane]; simp)]
    extract_lets s1
    have hs1 : s1 = (s.atInstant t).modHealth (fun h => { h with
        d2dCorrected := satAdd h.d2dCorrected n, d2dErrs := List.replicate n (lane, (s.atInstant t).now) }) := by
      simp only [s1, State.modHealth, herrs]
    have hfew : (s1.health.d2dErrs.filter (fun e => e.1 == lane)).length < 16 := by
      rw [hs1]
      exact lt_of_le_of_lt (List.length_filter_le _ _) (by simpa using hn)
    rw [if_neg (by simp; omega), hs1]
  rw [hcounts]
  obtain ⟨-, -, -, -, hcorrected, herrs, hmap, -⟩ := Health.fields_of_kept (State.health_of_part (State.settle_part ((s.atInstant t).modHealth (fun h => { h with
      d2dCorrected := satAdd h.d2dCorrected n, d2dErrs := List.replicate n (lane, (s.atInstant t).now) }))))
  exact ⟨hcorrected, herrs, hmap⟩


/-- The spare for a unit does not follow from what its own record holds. -/
theorem State.spareFor_modHUnit {s : State} {k i : Nat} (f : Unit_ → Unit_) (hk : k ≠ kindMacro) (hi : i < (nth s.health.units k []).length) :
    (s.modHUnit k i f).spareFor k i = s.spareFor k i := by
  unfold State.spareFor
  congr 1
  funext j
  by_cases hij : i = j
  · simp [hij]
  · rw [State.hUnit_modHUnit_ne f hk hi hij]

theorem State.spareTakes_due {s : State} {k i j : Nat} (hdue : (s.hUnit k i).due.isSome = true) :
    s.spareTakes k i j = (s.modHUnit k j (fun v => { v with st := 0 })).beginTest k i := by
  simp [State.spareTakes, State.testDue, hdue]

/-- The spare that takes over is active, the unit is tested, and its errors stay counted. -/
theorem State.spareTakes_errors {s : State} {k i j : Nat} (hk : k ≠ kindMacro) (hi : i < (nth s.health.units k []).length)
    (hj : j < (nth s.health.units k []).length) (hij : j ≠ i) (hdue : (s.hUnit k i).due.isSome = true) :
    ((s.spareTakes k i j).hUnit k i).errors = (s.hUnit k i).errors := by
  have hi' : i < (nth (s.modHUnit k j (fun v => { v with st := 0 })).health.units k []).length := by
    rwa [State.modHUnit_units _ hk hj, upd, List.length_modify]
  rw [State.spareTakes_due hdue, State.beginTest, State.hUnit_modHUnit _ hk hi', State.hUnit_modHUnit_ne _ hk hj hij]

theorem State.spareTakes_map {s : State} {i j : Nat} (hdue : (s.hUnit kindD2d i).due.isSome = true) :
    (s.spareTakes kindD2d i j).health.d2dMap = s.health.d2dMap := by
  rw [State.spareTakes_due hdue]
  rfl

/-- A lane whose test is due is replaced by its spare. -/
theorem State.d2dWithdraw_due {s : State} {lane j g : Nat} (hspare : s.spareFor kindD2d lane = some j)
    (hmap : s.health.d2dMap.findIdx? (· == lane) = some g) (hdue : (s.hUnit kindD2d lane).due.isSome = true) : s.d2dWithdraw lane =
      ((s.modHealth (fun h => { h with d2dMap := h.d2dMap.set g j })).spareTakes kindD2d lane j).raiseNow 0x0F0B sevNotice srcMss
        (u8 (lane / 34) ++ u8 lane ++ u8 j ++ u8 2) none := by
  unfold State.d2dWithdraw
  simp only [hspare, hmap]
  rw [if_neg (by simp [Unit_.wantsSpare, hdue])]
  simp [Unit_.spareCause, hdue]

theorem d2dLaneReplacedCompletes : D2dLaneReplacedCompletes := by
  intro t lane n j g s hmap hlane hspare ⟨hl, hj, hne⟩ hst hdue hkinds hunits hreport
  refine completes_finish (f := fun s => s.d2dError lane n true) rfl ?_
  have hd2d : (8 : Nat) ≠ kindMacro := by decide
  obtain ⟨v, hgo, hhealth, hmapV, hroom⟩ : ∃ v : State, (s.atInstant t).d2dError lane n true = (v.detect 8 lane).d2dWithdraw lane ∧
      v.health.units = s.health.units ∧ v.health.d2dMap = s.health.d2dMap ∧ v.room 1 := by
    unfold State.d2dError
    rw [if_neg (by rw [show (s.atInstant t).health.d2dMap.contains lane = true from hlane]; simp)]
    extract_lets s1
    rw [if_pos (by simp)]
    exact ⟨_, rfl, rfl, rfl, State.room_le (room_of_canReport (s.atInstant t) hreport) (by decide)⟩
  have hunitV (i : Nat) : v.hUnit 8 i = s.hUnit 8 i := by rw [State.hUnit, State.hUnit, if_neg hd2d, if_neg hd2d, hhealth]
  have hlen : (nth v.health.units 8 []).length = 136 := by rw [hhealth, hunits]
  have hlt : lane < (nth v.health.units 8 []).length := by omega
  obtain ⟨hdueW, herrorsW⟩ := State.hUnit_detect (s := v) hd2d hlt (by rw [hunitV, Unit_.serves, hst]; rfl) (by rw [hunitV, hdue])
  have hspareW : (v.detect 8 lane).spareFor 8 lane = some j := by
    rw [State.detect, State.spareFor_modHUnit _ hd2d hlt, ← hspare]
    unfold State.spareFor
    simp only [hunitV]
  have hlenW : (nth (v.detect 8 lane).health.units 8 []).length = 136 := by
    rw [State.detect, State.modHUnit_units _ hd2d hlt, upd, List.length_modify, hlen]
  have hmapW : (v.detect 8 lane).health.d2dMap = s.health.d2dMap := hmapV
  have hroomW : (v.detect 8 lane).room 1 := hroom
  rw [hgo]
  generalize v.detect 8 lane = w at hdueW herrorsW hspareW hlenW hmapW hroomW
  rw [State.d2dWithdraw_due hspareW (by rw [hmapW]; exact hmap) (by rw [show kindD2d = 8 from rfl, hdueW]; rfl)]
  generalize hx : w.modHealth _ = x
  have hunitX (i : Nat) : x.hUnit 8 i = w.hUnit 8 i := by
    rw [← hx]
    rfl
  have hmapX : x.health.d2dMap = s.health.d2dMap.set g j := by
    rw [← hx, ← hmapW]
    rfl
  have hlenX : (nth x.health.units 8 []).length = 136 := by
    rw [← hx]
    exact hlenW
  have hroomX : x.room 1 := by
    rw [← hx]
    exact hroomW
  have hdueX : (x.hUnit 8 lane).due.isSome = true := by rw [hunitX, hdueW]; rfl
  obtain ⟨hactive, htested⟩ := State.spareTakes_tested (s := x) hd2d (show lane < _ by omega) (show j < _ by omega) hne hdueX
  refine ⟨?_, ?_, ?_, ?_, reported_settle _ _ _ _ (reported_raise _ _ _ _ _ _ _ (State.spareTakes_room _ _ _ hroomX))⟩
  · obtain ⟨-, -, -, -, -, -, hset, -⟩ := Health.fields_of_kept ((State.health_of_part (State.settle_part _)).trans (State.health_of_part
      ((x.spareTakes kindD2d lane j).raiseNow_part 0x0F0B sevNotice srcMss (u8 (lane / 34) ++ u8 lane ++ u8 j ++ u8 2) none)))
    rw [hset, State.spareTakes_map hdueX, hmapX]
  · rw [State.hUnit_settle, State.hUnit_raiseNow]
    exact hactive
  · rw [State.hUnit_settle, State.hUnit_raiseNow]
    exact htested
  · rw [State.hUnit_settle, State.hUnit_raiseNow]
    refine (State.spareTakes_errors (s := x) hd2d (show lane < _ by omega) (show j < _ by omega) hne hdueX).trans ?_
    rw [hunitX, ← hunitV lane]
    exact herrorsW

/-! ### Segments of the self-test (R520) -/

theorem State.endRun_segments (s : State) : s.endRun.health.segments = s.health.segments := by
  unfold State.endRun
  split
  · obtain ⟨-, -, -, -, -, -, -, hsegments, -⟩ := Health.fields_of_kept (State.health_of_part (State.raiseNow_part (s.modHealth (fun h => { h with testRun := none }))
      0x0F06 sevInfo srcMss _ none))
    exact hsegments
  · rfl

theorem State.endRun_pwr (s : State) : s.endRun.pwr = s.pwr ∧ s.endRun.sys = s.sys := by
  unfold State.endRun
  split
  · simp only [State.raiseNow_frame]
    exact ⟨rfl, rfl⟩
  · exact ⟨rfl, rfl⟩

/-- A segment that ran to its end under its conditions, with nothing found, passes. -/
theorem State.segmentDone_passes {s : State} {since : Nat} {o : SegmentOutcome} (hrun : s.health.testRun = some (false, since))
    (hnext : s.segmentNext = some o.segment) (hended : o.ended = true) (hconditions : o.conditions = true) (hrestored : o.restored = true)
    (hcycles : o.cycles = segmentCycles o.segment) (hfound : o.suspects = [] ∧ o.fails = []) : s.segmentDone o =
      (s.modHealth (fun h => { h with segments := h.segments.set (o.segment - 1) { nth s.health.segments (o.segment - 1) default with
        began := true, atBoot := false, stale := false, cycles := o.cycles, second := (s.secondAt s.now).1, fails := 0, ended := true, st := 1
        accepted := some (1, 0, (s.secondAt s.now).1) } })).endRun := by
  obtain ⟨hsuspects, hfails⟩ := hfound
  unfold State.segmentDone
  simp only [hrun, hnext, hended, hconditions, hrestored, hcycles, hsuspects, hfails, ne_eq, not_true_eq_false, if_false, Bool.not_true, decide_false,
    Bool.or_self, Bool.false_eq_true, List.foldl_nil]
  rfl

theorem selftestSegmentDoneCompletes : SelftestSegmentDoneCompletes := by
  intro t since o s hrun hnext hseg hended hconditions hrestored hcycles hfound hlen hpwr hshut
  refine completes_finish (f := fun s => (s.segmentDone o).advance) rfl ?_
  rw [State.segmentDone_passes (s := s.atInstant t) hrun hnext hended hconditions hrestored hcycles hfound]
  generalize hv : (s.atInstant t).modHealth _ = v
  obtain ⟨hpwrE, hsysE⟩ := v.endRun_pwr
  have hidle : v.endRun.advance = v.endRun := by
    refine State.advance_idle ?_ ?_
    · rw [hpwrE, ← hv]
      exact hpwr
    · rw [hsysE, ← hv]
      exact hshut
  rw [hidle]
  obtain ⟨-, -, -, -, -, -, -, hsettled, -⟩ := Health.fields_of_kept (State.health_of_part (State.settle_part v.endRun))
  rw [hsettled, State.endRun_segments, ← hv]
  rfl

/-- Settles O59: tests passed and failed, the report of a missing spare, SRAM and lane errors with and without a repair, a segment of the self-test, a sample of the
sensors and a counter at its end. -/
theorem hamperEventsComplete : Obligations.HamperEventsComplete :=
  ⟨targetedTestDoneCompletes, targetedTestFailedCompletes, noSpareCompletes, sramErrorCompletes, sramErrorDetectedCompletes, d2dLaneErrorCompletes,
    d2dLaneReplacedCompletes, selftestSegmentDoneCompletes, sensorSampleCompletes, counterSaturatedCompletes⟩

end Sys2Proof.Machine

/-! PROOFS of system commands: snapshots, resets, the shutdown and the named boundary. -/

namespace Sys2Proof.Machine

/-! ### Identity, status, events and the time read (R465, R468, R475, R480) -/

theorem sysIdentifyCompletes : SysIdentifyCompletes := by
  intro t c s ha
  refine completes_okWith _ t _ _ c s _ _ _ rfl ha ?_ rfl fun eff => ?_
  · have hwords : (List.range 2).flatMap (fun n => u32 (if (nth s.sec.fw n default).loaded then (nth s.sec.fw n default).version else 0)) =
        u32 (if (nth s.sec.fw 0 default).loaded then (nth s.sec.fw 0 default).version else 0) ++
          u32 (if (nth s.sec.fw 1 default).loaded then (nth s.sec.fw 1 default).version else 0) := by
      simp [List.range_succ]
    rw [hwords]
    simp only [List.append_assoc]
    unfold sysIdentify
    simp only [List.append_assoc]
    rfl
  · simp only [State.settle_frame, State.answer_frame, State.presentNonce_frame]
    exact ⟨rfl, rfl⟩

theorem sysEvents_sets {c : Cmd} {s : State} (h : 1 ≤ rd c.arg 0 2 ∧ rd c.arg 0 2 ≤ 1000) :
    sysEvents c s = okWith (s.modCfg (fun g => { g with holdMs := rd c.arg 0 2 })) [] := by
  unfold sysEvents
  dsimp only
  rw [if_neg (by simp; omega)]
  rfl

theorem sysEventsCompletes : SysEventsCompletes := by
  intro t c s ha hms
  refine completes_okWith _ t _ _ c s _ [] _ rfl ha (sysEvents_sets hms) rfl fun eff => ?_
  simp only [State.settle_frame, State.answer_frame, State.presentNonce_frame]
  rfl

theorem sysStatus_cleared (c : Cmd) (s : State) : ∃ u, sysStatus c s = okWith u s.sysBody ∧ u.mbs.length = s.mbs.length ∧
    u.sys = if bit (rd c.arg 0 1) 0 then { s.sys with stale := 0, duplicates := 0 } else s.sys := by
  unfold sysStatus
  dsimp only
  refine ⟨_, rfl, ?_, ?_⟩
  · split <;> simp [State.clearSat]
  · split <;> rfl

theorem State.placed_ignored (s : State) (op : Nat) (c : Cmd) : (s.placed op c).mbs.flatMap (fun m => u32 m.ignored) = s.mbs.flatMap (fun m => u32 m.ignored) := by
  have hplaced (l : List Mailbox) (n : Nat) (f : Mailbox → Mailbox) (hf : ∀ m, (f m).ignored = m.ignored) :
      (l.modify n f).flatMap (fun m => u32 m.ignored) = l.flatMap (fun m => u32 m.ignored) := by
    induction l generalizing n with
    | nil => simp
    | cons m l ih => cases n <;> simp [hf, ih]
  exact hplaced _ _ _ fun m => rfl

theorem sysStatusCompletes : SysStatusCompletes := by
  intro t c s ha
  obtain ⟨u, hu, hmbs, hsys⟩ := sysStatus_cleared c ((s.atInstant t).placed 0x0107 c)
  have hbody : ((s.atInstant t).placed 0x0107 c).sysBody = (s.mbs.flatMap (fun m => u32 m.ignored)) ++ u32 s.sys.stale ++ u32 s.sys.duplicates ++
      u16 s.hostPending.length ++ u16 s.ev.held.length ++ u32 s.ev.eventsLost ++ u32 s.ev.late := by
    unfold State.sysBody
    rw [State.placed_ignored]
    rfl
  rw [hbody] at hu
  refine completes_of_handler _ t _ _ c s u ⟨stOk, none, _⟩ _ rfl ha hu hmbs fun eff => ?_
  simp only [State.settle_frame, State.answer_frame, State.presentNonce_frame, hsys]
  rfl

theorem sysTimeReadCompletes : SysTimeReadCompletes := by
  intro t c s ha hop hsecond
  refine completes_okWith _ t _ _ (asForm c 0 0 [1]) s ((s.atInstant t).placed 0x0106 (asForm c 0 0 [1])) _ _ rfl ha ?_ rfl fun eff => ?_
  · unfold sysTime
    dsimp only
    rw [if_neg (by simp [hop, hsecond]), if_pos hop]
    rfl
  · simp only [State.settle_frame, State.answer_frame, State.presentNonce_frame]
    rfl

theorem sysTimeSetCompletes : SysTimeSetCompletes := by
  intro t c s ha hop hsecond hfree hsource
  refine completes_of_handler _ t _ _ (asForm c 0 1 [0]) s (pendWith (((s.atInstant t).placed 0x0106 (asForm c 0 1 [0])).modTb (fun b => { b with
    pendSet := some ⟨rd (asForm c 0 1 [0]).arg 4 8, (s.atInstant t).now + 100 * ticksPerMs⟩ })) (asForm c 0 1 [0]) 0x0106 [0] none).2
    ⟨stPending, none, []⟩ _ rfl ha ?_ rfl fun eff => ?_
  · have hfrom : ((s.atInstant t).placed 0x0106 (asForm c 0 1 [0])).cfg.tb.source = 0 ∨ ((s.atInstant t).placed 0x0106 (asForm c 0 1 [0])).cfg.tb.source = 2 :=
      hsource
    unfold sysTime
    dsimp only
    rw [if_neg (by simp [hop]), if_neg (by omega), if_neg (by omega), if_neg (by simp [hfree]), if_neg (by simp only [ne_eq, Bool.and_eq_true, decide_eq_true_eq]; omega)]
    rfl
  · simp only [State.awaits, State.settle_frame, State.answer_frame, State.presentNonce_frame]
    exact ⟨rfl, rfl⟩

/-! ### Snapshots and restores (R471, R476, R477) -/

theorem sysSnapshotCompletes : SysSnapshotCompletes := by
  intro t c s ha hwait hfree
  refine completes_of_handler _ t _ _ c s (pendWith (((s.atInstant t).placed 0x0102 c).beginSnapshot (rd c.arg 0 2) (rd c.arg 2 2)
    (maskOf ((s.atInstant t).placed 0x0102 c).runningLines) c.mb c.seq false) c 0x0102 [0] none).2 ⟨stPending, none, []⟩ _ rfl ha ?_ rfl fun eff => ?_
  · unfold sysSnapshot
    dsimp only
    rw [if_neg (by
      simp only [Bool.and_eq_true, Bool.or_eq_true, decide_eq_true_eq, not_and]
      intro hb
      have h := hwait hb
      omega), if_neg (by simp [hfree])]
    rfl
  · simp only [State.awaits, State.settle_frame, State.answer_frame, State.presentNonce_frame]
    exact ⟨rfl, rfl, rfl, rfl⟩

theorem State.snapshotCommitted_answers {s : State} {ok : Bool} {p : SnapPend} {q : Pend} (hp : s.sys.snapshot = some p) (hshut : p.shutdown = false)
    (hnor : s.norHeld = false) (hq : s.pendOp 0x0102 = some q) : s.snapshotCommitted ok =
      ((s.modSys (fun y => { y with snapshot := none, banks := if ok then y.banks.set p.bank p.content else y.banks })).dropOp 0x0102).applied q srcDevice
        (s.effStamp s.now none) s.now (if ok then stOk else stNorFail) := by
  unfold State.snapshotCommitted
  simp only [hp]
  rw [if_neg (by simp [hnor]), if_neg (by simp [hshut])]
  split
  · next r hr =>
    obtain rfl : q = r := Option.some.inj (hq.symm.trans hr)
    rfl
  · next hn => exact absurd (hn.symm.trans hq) (by simp)

theorem State.applied_host {s : State} {q : Pend} (src : Nat) (stamp : BitVec 96) (inst status : Nat) (hq : q.mb ≠ ownMb) (hroom : s.room 1) :
    (s.applied q src stamp inst status).reported 0x0101 src (u16 q.op ++ u8 q.mb ++ u16 q.seq ++ u16 status) := by
  unfold State.applied
  rw [if_neg hq]
  exact reported_raise _ _ _ _ _ _ _ hroom

theorem snapshotCommittedCompletes : SnapshotCommittedCompletes := by
  intro t ok p q s hp hshut hnor hq hmb hreport
  refine completes_finish (f := fun s => s.snapshotCommitted ok) rfl ?_
  rw [State.snapshotCommitted_answers (s := s.atInstant t) hp hshut hnor hq]
  generalize hv : ((s.atInstant t).modSys _).dropOp 0x0102 = v
  have hroom : v.room 1 := by
    rw [← hv]
    exact State.room_le (room_of_canReport (s.atInstant t) hreport) (by decide)
  simp only [State.settle_frame, State.applied_frame]
  refine ⟨?_, ?_, reported_settle _ _ _ _ (State.applied_host _ _ _ _ hmb hroom), ?_⟩
  all_goals rw [← hv]; rfl

theorem sysRestore_schedules {c : Cmd} {s : State} (hsource : rd c.arg 0 1 = 0 ∨ rd c.arg 0 1 = 3) (hfree : s.sys.snapshot = none) :
    sysRestore c s = okWith (s.schedule false 3 (some (rd c.arg 0 1)) none (bit (rd c.arg 1 1) 0)) [] := by
  unfold sysRestore
  dsimp only
  rw [if_neg (by omega), if_neg (by simp [hfree]), if_neg (by
    simp only [Bool.or_eq_true, Bool.and_eq_true, decide_eq_true_eq]
    omega)]
  rfl

theorem sysRestoreCompletes : SysRestoreCompletes := by
  intro t c s ha hsource hfree
  refine completes_okWith _ t _ _ c s _ [] _ rfl ha (sysRestore_schedules (s := (s.atInstant t).placed 0x0103 c) hsource hfree) rfl fun eff => ?_
  simp only [State.settle_frame, State.answer_frame, State.presentNonce_frame]
  exact ⟨rfl, rfl⟩

theorem sysRestore_bank {c : Cmd} {s : State} (hsource : rd c.arg 0 1 = 1 ∨ rd c.arg 0 1 = 2) (hfree : s.sys.snapshot = none) :
    sysRestore c s = if (s.bankOf (rd c.arg 0 1 - 1)).valid then okWith (s.schedule false 3 (some (rd c.arg 0 1)) none (bit (rd c.arg 1 1) 0)) []
      else (⟨stBankInvalid, none, []⟩, s) := by
  unfold sysRestore
  dsimp only
  rw [if_neg (by omega), if_neg (by simp [hfree])]
  obtain h | h := hsource
  · cases hvalid : (s.bankOf 0).valid <;> simp [h, hvalid, reject, okay]
  · cases hvalid : (s.bankOf 1).valid <;> simp [h, hvalid, reject, okay]

theorem sysRestoreBankCompletes : SysRestoreBankCompletes := by
  intro t c s ha hsource hfree
  have hbank := sysRestore_bank (s := (s.atInstant t).placed 0x0103 c) hsource hfree
  have hsame : ((s.atInstant t).placed 0x0103 c).bankOf (rd c.arg 0 1 - 1) = s.bankOf (rd c.arg 0 1 - 1) := rfl
  rw [hsame] at hbank
  cases hvalid : (s.bankOf (rd c.arg 0 1 - 1)).valid with
  | true =>
    rw [hvalid, if_pos rfl] at hbank
    refine completes_okWith _ t _ _ c s _ [] _ rfl ha hbank rfl fun eff => ?_
    simp only [State.settle_frame, State.answer_frame, State.presentNonce_frame]
    rfl
  | false =>
    rw [hvalid, if_neg Bool.false_ne_true] at hbank
    refine completes_of_handler _ t _ _ c s _ _ _ rfl ha hbank rfl fun eff => ?_
    simp only [State.settle_frame, State.answer_frame, State.presentNonce_frame]
    rfl

/-! ### Resets (R479) -/

theorem sysResetCompletes : SysResetCompletes := by
  intro t c s ha hkind
  have hschedules : sysReset c ((s.atInstant t).placed 0x0105 c) = okWith (((s.atInstant t).placed 0x0105 c).schedule (rd c.arg 0 1 == 1) (1 + rd c.arg 0 1) none
      (some (bit (rd c.arg 1 1) 0)) (bit (rd c.arg 1 1) 1)) [] := by
    unfold sysReset
    dsimp only
    rw [if_neg (by omega)]
    rfl
  refine completes_okWith _ t _ _ c s _ [] _ rfl ha hschedules rfl fun eff => ?_
  simp only [State.settle_frame, State.answer_frame, State.presentNonce_frame]
  exact ⟨rfl, rfl⟩

theorem State.resetWith_pcie (s : State) (why : BootWhy) : (s.resetWith why).pcie = Pcie.reset := by
  refine State.resetWith_holds (P := fun u => u.pcie = Pcie.reset) (fun u code sev src args key h => ?_) s why rfl
  simpa only [State.raiseNow_frame] using h

/-- What a reset leaves, core or full. -/
theorem State.resetBegins_leaves {s : State} {p : ResetPend} (hp : s.sys.resetPend = some p) (hdue : p.notBefore ≤ s.now) :
    s.resetBegins.sys = (s.afterReset ⟨p.cause, p.source, p.quickStart, p.noResume⟩).sys ∧
      s.resetBegins.pwr = (s.afterReset ⟨p.cause, p.source, p.quickStart, p.noResume⟩).pwr ∧ s.resetBegins.sec.sessions = [] ∧ s.resetBegins.dbg.level = 0 ∧
      s.resetBegins.ltune = s.ltune ∧ s.resetBegins.pcie = if p.full then Pcie.reset else { s.pcie with winBase := 0, winDenied := 0 } := by
  obtain ⟨hsys, hpwr, _, _, hltune, _⟩ := s.resetWith_frame ⟨p.cause, p.source, p.quickStart, p.noResume⟩
  obtain ⟨hsessions, hdbg⟩ := s.resetWith_closed ⟨p.cause, p.source, p.quickStart, p.noResume⟩
  cases hfull : p.full with
  | true =>
    rw [State.resetBegins_full hp hdue hfull]
    exact ⟨hsys, hpwr, hsessions, hdbg, hltune, State.resetWith_pcie _ _⟩
  | false =>
    have hcore : s.resetBegins = s.coreReset ⟨p.cause, p.source, p.quickStart, p.noResume⟩ := by
      unfold State.resetBegins
      simp only [hp]
      rw [if_neg (by omega), if_neg (by simp [hfull])]
    rw [hcore]
    unfold State.coreReset
    simp only [State.raiseNow_frame]
    exact ⟨hsys, hpwr, hsessions, hdbg, hltune, rfl⟩

theorem resetBeginsCompletes : ResetBeginsCompletes := by
  intro t p s hp hdue
  refine completes_finish (f := State.resetBegins) rfl ?_
  obtain ⟨hsys, hpwr, hsessions, hdbg, hltune, hpcie⟩ := State.resetBegins_leaves (s := s.atInstant t) hp hdue
  simp only [State.settle_frame]
  refine ⟨?_, ?_, ?_, ?_, ?_, hsessions, hdbg, ?_, hltune, hpcie⟩
  · rw [hsys]; rfl
  · rw [hpwr]; rfl
  · rw [hsys]; rfl
  · rw [hsys]; rfl
  · rw [hsys]; rfl
  · rw [hsys]; exact Sys.cutSnapshot_boot _

/-! ### The shutdown (R478) -/

/-- While a line stops the stops are not done. -/
theorem State.stopsDone_eq_false {s : State} {l : Nat} (h : (s.lineOf l).st = 3) : s.stopsDone = false := by
  have hlt : l < s.lines.length := lt_of_nth_ne (d := default) fun hd => by
    rw [State.lineOf, hd] at h
    exact absurd h (by decide)
  have hget : s.lines[l] = s.lineOf l := by simp [State.lineOf, nth, List.getElem?_eq_getElem hlt]
  have hmem : s.lineOf l ∈ s.lines := hget ▸ List.getElem_mem hlt
  have hall : s.lines.all (fun r => r.st == 0) = false := List.all_eq_false.mpr ⟨_, hmem, by simp [h]⟩
  simp [State.stopsDone, hall]

/-- A shutdown that waits for its stops stays as it is. -/
theorem State.shutdownStep_stopping {s : State} {d : Shutdown} (hd : s.sys.shutdown = some d) (hstage : d.stage = 0) (hstops : s.stopsDone = false) :
    s.shutdownStep = s := by
  unfold State.shutdownStep
  simp [hd, hstage, hstops]

theorem State.shutdownAdvance_of_step {s : State} (h : s.shutdownStep = s) : s.shutdownAdvance = s := by
  unfold State.shutdownAdvance
  rw [h, h, h, h]

/-- The first step of a shutdown: it is marked, and the lines and sets are stopped. -/
def State.shutdownBegun (s : State) (c : Cmd) : State :=
  (((pendWith s c 0x0104 [0] none).2.modSys (fun y => { y with
    bootState := 5
    shutdown := some { mode := rd c.arg 0 1, flags := rd c.arg 1 1, mb := c.mb, seq := c.seq, norFailed := false, stage := 0, running := maskOf s.runningLines }
      })).flushDie.ownStop (rd c.arg 0 1) none)

theorem State.ownStop_shutdown (s : State) (mode : Nat) (applyAt : Option Nat) :
    (s.ownStop mode applyAt).sys.bootState = s.sys.bootState ∧ (s.ownStop mode applyAt).sys.shutdown = s.sys.shutdown := by
  have fields {s u : State} (h : u.part .sys = s.part .sys) : u.sys.bootState = s.sys.bootState ∧ u.sys.shutdown = s.sys.shutdown := by
    have hk : u.sys.kept = s.sys.kept := h
    have hb := congrArg Sys.bootState hk
    have hs := congrArg Sys.shutdown hk
    exact ⟨hb, hs⟩
  unfold State.ownStop
  extract_lets s0 lines sets s1 own
  have h1 : s1.part .sys = s0.part .sys :=
    (State.stopSets_part _ _ _ (by decide)).trans (foldl_part (p := .sys) _ (fun s l => s.modLine_part l _ (by decide)) _ _)
  obtain ⟨hb1, hs1⟩ := fields h1
  obtain ⟨hb0, hs0⟩ := fields (s.withdrawStarts_part (p := .sys) (by decide))
  exact ⟨hb1.trans hb0, hs1.trans hs0⟩

theorem State.shutdownBegun_sys (s : State) (c : Cmd) : (s.shutdownBegun c).sys.bootState = 5 ∧ (s.shutdownBegun c).sys.shutdown =
    some { mode := rd c.arg 0 1, flags := rd c.arg 1 1, mb := c.mb, seq := c.seq, norFailed := false, stage := 0, running := maskOf s.runningLines } := by
  unfold State.shutdownBegun
  generalize hv : (pendWith s c 0x0104 [0] none).2.modSys _ = v
  obtain ⟨hboot, hshut⟩ := v.flushDie.ownStop_shutdown (rd c.arg 0 1) none
  have hflush : v.flushDie.sys.kept = v.sys.kept := v.flushDie_part (p := .sys)
  have hbootF := congrArg Sys.bootState hflush
  have hshutF := congrArg Sys.shutdown hflush
  refine ⟨hboot.trans (hbootF.trans ?_), hshut.trans (hshutF.trans ?_)⟩
  all_goals rw [← hv]; rfl

theorem State.shutdownBegun_stops {s : State} {l : Nat} (c : Cmd) (hl : l < 16) (h : (s.lineOf l).st = 2) : ((s.shutdownBegun c).lineOf l).st = 3 := by
  have keep {s u : State} (h : u.part .lines = s.part .lines) : u.lines = s.lines := h
  refine State.ownStop_stops hl ?_
  rw [State.lineOf, keep (State.flushDie_part _)]
  exact h

theorem State.shutdownBegun_mbs (s : State) (c : Cmd) : (s.shutdownBegun c).mbs = s.mbs := by
  unfold State.shutdownBegun
  rw [State.mbs_of_part (State.ownStop_part _ _ _ (by decide)), State.mbs_of_part (State.flushDie_part _)]
  rfl

theorem sysShutdown_begins {c : Cmd} {s : State} {l : Nat} (hmode : rd c.arg 0 1 ≤ 1) (hfree : s.sys.snapshot = none) (hl : l < 16)
    (hrun : (s.lineOf l).st = 2) : sysShutdown c s = (⟨stPending, none, []⟩, s.shutdownBegun c) := by
  have hidle : (s.shutdownBegun c).shutdownAdvance = s.shutdownBegun c := State.shutdownAdvance_of_step
    (State.shutdownStep_stopping (s.shutdownBegun_sys c).2 rfl (State.stopsDone_eq_false (State.shutdownBegun_stops c hl hrun)))
  unfold sysShutdown
  dsimp only
  rw [if_neg (by omega), if_neg (by simp [hfree])]
  exact congrArg (fun u => ((⟨stPending, none, []⟩ : Resp), u)) hidle

theorem sysShutdownCompletes : SysShutdownCompletes := by
  intro t c s ha hmode hfree hlen ⟨l, hl, hrun⟩
  obtain ⟨hboot, hshut⟩ := ((s.atInstant t).placed 0x0104 c).shutdownBegun_sys c
  refine completes_of_handler _ t _ _ c s _ ⟨stPending, none, []⟩ _ rfl ha (sysShutdown_begins (s := (s.atInstant t).placed 0x0104 c) hmode hfree hl hrun)
    (congrArg List.length (State.shutdownBegun_mbs _ _)) fun eff => ⟨?_, ?_, fun k hk hkrun => ?_⟩
  · simp only [State.settle_frame, State.answer_frame, State.presentNonce_frame]
    exact hboot
  · simp only [State.settle_frame, State.answer_frame, State.presentNonce_frame]
    exact hshut
  · simp only [State.lineOf, State.settle_frame, State.answer_frame, State.presentNonce_frame]
    exact State.shutdownBegun_stops c hk hkrun

/-- A shutdown at its last stage waits for ctx 0 alone. -/
theorem State.shutdownStep_last {s : State} {d : Shutdown} (hd : s.sys.shutdown = some d) (hstage : d.stage = 4) : s.shutdownStep = s := by
  unfold State.shutdownStep
  simp only [hd, hstage]

theorem State.sessionsEnded_sys (s : State) (l : List Session) (state : Nat) : (s.sessionsEnded l state).sys = s.sys :=
  State.sessionsEnded_holds (P := fun u => u.sys = s.sys) (fun u code sev src args key h => by simpa only [State.raiseNow_frame] using h) l state rfl

theorem State.debugClosed_sys (s : State) (old cause : Nat) : (s.debugClosed old cause).sys = s.sys :=
  State.debugClosed_holds (P := fun u => u.sys = s.sys) (fun u code sev src args key h => by simpa only [State.raiseNow_frame] using h) old cause rfl

theorem State.powerOff_boot (s : State) : s.powerOff.sys.bootState = s.sys.bootState ∧ s.powerOff.sys.banks = s.sys.banks ∧ s.powerOff.pwr.st = 3 := by
  have hk (l : List Nat) : (l.foldl (fun s i => if (s.ctxOf i).st = 0 then s else s.abortCtx i) s).sys.kept = s.sys.kept :=
    foldl_part (p := .sys) _ (fun s i => by split <;> simp) l s
  have hboot := congrArg Sys.bootState (hk (List.range 256))
  have hbanks := congrArg Sys.banks (hk (List.range 256))
  exact ⟨hboot, hbanks, rfl⟩

theorem shutdownCompleteCompletes : ShutdownCompleteCompletes := by
  intro t d s hd hstage hdrained hreport
  refine completes_finish (f := State.shutdownComplete) rfl ?_
  have hidle : (s.atInstant t).shutdownAdvance = s.atInstant t := State.shutdownAdvance_of_step (State.shutdownStep_last (s := s.atInstant t) hd hstage)
  obtain ⟨v, hv, hboot, hbanks⟩ : ∃ v : State, (s.atInstant t).shutdownComplete = v.powerOff ∧ v.sys.bootState = 6 ∧ v.sys.banks = s.sys.banks := by
    unfold State.shutdownComplete
    simp only [hidle]
    split
    · next e he =>
      obtain rfl : d = e := Option.some.inj (hd.symm.trans he)
      rw [if_pos (by simp [hstage, hdrained])]
      refine ⟨_, rfl, ?_, ?_⟩
      · rw [State.debugClosed_sys, State.sessionsEnded_sys]
        rfl
      · rw [State.debugClosed_sys, State.sessionsEnded_sys, State.modSys_sys]
        simp only [State.raiseNow_frame]
        rfl
    · next hn => exact absurd (hn.symm.trans hd) (by simp)
  obtain ⟨hbootP, hbanksP, hpower⟩ := v.powerOff_boot
  rw [hv]
  simp only [State.settle_frame]
  exact ⟨hbootP.trans hboot, hpower, (State.powerOff_rested _).1, (State.powerOff_rested _).2, hbanksP.trans hbanks⟩

/-! ### The named second boundary (R480) -/

/-- What an event needs to be entered: the queue, and whether the die takes it. -/
def State.entry (s : State) : EvQueue × Power × Sys := (s.ev, s.pwr, s.sys)

theorem State.wake1_entry (s : State) (q ready : Nat) : (s.wake1 q ready).entry = s.entry := by
  unfold State.wake1
  split <;> rfl

theorem State.wakeAtStep_entry (s : State) (at_ l : Nat) : (s.wakeAtStep at_ l).entry = s.entry := by
  unfold State.wakeAtStep
  split
  · rfl
  · split
    · exact (State.wake1_entry _ _ _).trans (State.wake1_entry _ _ _)
    · rfl

theorem State.stepLine_entry (s : State) (at_ : Nat) (phase : Bool) (discards l : Nat) : (s.stepLine at_ phase discards l).entry = s.entry := by
  unfold State.stepLine
  split
  · rfl
  · dsimp only
    split
    · rw [State.wakeAtStep_entry]
      split <;> rfl
    · split <;> rfl

theorem State.stepSpot_entry (s old : State) (at_ l : Nat) : (s.stepSpot old at_ l).entry = s.entry := by
  unfold State.stepSpot
  dsimp only
  split <;> rfl

theorem State.room_of_entry {s u : State} {n : Nat} (he : u.entry = s.entry) (h : s.room n) : u.room n :=
  (room_congr s u n (congrArg (fun x => x.2.1) he) (congrArg (fun x => x.2.2) he) (congrArg Prod.fst he)).2 h

/-- A step of the scale enters one record. -/
theorem State.stepScale_room {s : State} {n at_ tick second : Nat} {phase : Bool} (h : s.room (n + 1)) : (s.stepScale at_ tick second phase).room n := by
  unfold State.stepScale
  extract_lets before losses shift s1 s2 s3 s4
  have h4 : s4.entry = s3.entry := foldl_keeps State.entry (fun u l => (State.stepSpot_entry _ _ _ _).trans (State.stepLine_entry _ _ _ _ _)) (List.range 16) s3
  exact room_raise _ _ _ _ _ _ _ _ _ (State.room_of_entry (h4.trans rfl) h)

/-- The set second number is in force from its boundary, and the command that named it is answered. -/
theorem State.timeSetBoundary_answers {s : State} {b v : Nat} {p : PendSet} {c : Pend} (hp : s.tb.pendSet = some p) (hc : s.pendOp 0x0106 = some c)
    (hb : s.namedBoundary p = some b) (hv : s.secondAt b = (v, 0)) : ∃ stamp, s.timeSetBoundary =
      ((((if v = p.second then s else s.stepScale b b p.second false).modTb (fun t => { t with pendSet := none, secondFixed := true })).dropOp 0x0106).timeFixed).applied
        c srcDevice stamp b stOk := by
  unfold State.timeSetBoundary
  split
  · next q d hq hd =>
    obtain rfl : p = q := Option.some.inj (hp.symm.trans hq)
    obtain rfl : c = d := Option.some.inj (hc.symm.trans hd)
    simp only [hb, hv]
    exact ⟨_, rfl⟩
  · next hn => exact absurd hc (hn _ _ hp)

theorem State.timeFixed_tb (s : State) : ∃ set, s.timeFixed.tb = { s.tb with timeSet := set } := ⟨_, rfl⟩

theorem sysTimeSetBoundaryCompletes : SysTimeSetBoundaryCompletes := by
  intro t b v p c s hp hc hmb hb hv hreport
  refine completes_finish (f := State.timeSetBoundary) rfl ?_
  obtain ⟨stamp, h⟩ := State.timeSetBoundary_answers (s := s.atInstant t) hp hc hb hv
  rw [h]
  generalize hw : (if v = p.second then s.atInstant t else (s.atInstant t).stepScale b b p.second false) = w
  have hroom : w.room 1 := by
    have hroom2 : (s.atInstant t).room 2 := State.room_le (room_of_canReport _ hreport) (by decide)
    rw [← hw]
    split
    · exact State.room_le hroom2 (by decide)
    · exact State.stepScale_room hroom2
  have hscale : v ≠ p.second → w.tb.secVal = p.second ∧ w.tb.secTick = b := fun hne => by
    obtain ⟨htick, hsecond, _⟩ := (s.atInstant t).stepScale_scale b b p.second false
    rw [← hw, if_neg hne]
    exact ⟨hsecond, htick⟩
  have hanswered := State.applied_host (s := ((w.modTb (fun t => { t with pendSet := none, secondFixed := true })).dropOp 0x0106).timeFixed) srcDevice stamp b stOk hmb
    hroom
  simp only [State.settle_frame, State.applied_frame]
  exact ⟨rfl, rfl, hscale, reported_settle _ _ _ _ hanswered⟩

/-- Settles O53: identity, status, events and the time read and set answer at once or wait; snapshots, restores and resets are scheduled, committed and begun; the
shutdown stops what runs, and at its end powers off. -/
theorem systemCommandsComplete : Obligations.SystemCommandsComplete :=
  ⟨sysIdentifyCompletes, sysSnapshotCompletes, snapshotCommittedCompletes, sysRestoreCompletes, sysRestoreBankCompletes, sysShutdownCompletes,
    shutdownCompleteCompletes, sysResetCompletes, resetBeginsCompletes, sysTimeReadCompletes, sysTimeSetCompletes, sysTimeSetBoundaryCompletes,
    sysStatusCompletes, sysEventsCompletes⟩

end Sys2Proof.Machine
